-- ==== Sys2Proof/Word.lean ====
section
/-!
DEFINITION. The words of the EK1024 and the names its spec counts with: 32-bit registers and slot words (R2, R39), the two
Sides, the two banks and the ten requesters (R11, R14).
-/
namespace Sys2Proof

/-- A register or a slot word (R2, R39). -/
abbrev W32 := BitVec 32

/-- A byte. -/
abbrev Byte := BitVec 8

/-- The two router cores (R16). -/
inductive Side where
  | A | B
deriving DecidableEq, Repr

/-- The number of a Side in an index: 0 Side A, 1 Side B. -/
def Side.idx : Side → Nat
  | .A => 0
  | .B => 1

/-- The other Side. -/
def Side.other : Side → Side
  | .A => .B
  | .B => .A

/-- The two banks of lanes (R11). -/
inductive Bank where
  | E | W
deriving DecidableEq, Repr

/-- The number of a bank in an index: 0 Bank E, 1 Bank W. -/
def Bank.idx : Bank → Nat
  | .E => 0
  | .W => 1

/-- The other bank. -/
def Bank.other : Bank → Bank
  | .E => .W
  | .W => .E

/-- The requesters of R14. -/
inductive Req where
  | hp0 | hp1 | net0 | net1 | net2 | net3 | service | fwA | fwB | boot
deriving DecidableEq, Repr

/-- The requester number of R14. -/
def Req.num : Req → Nat
  | .hp0 => 1 | .hp1 => 2 | .net0 => 3 | .net1 => 4 | .net2 => 5 | .net3 => 6
  | .service => 7 | .fwA => 8 | .fwB => 9 | .boot => 10

/-- The requester of a number; 0 and numbers above 10 name none (R15). -/
def Req.ofNum : Nat → Option Req
  | 1 => some .hp0 | 2 => some .hp1 | 3 => some .net0 | 4 => some .net1 | 5 => some .net2 | 6 => some .net3
  | 7 => some .service | 8 => some .fwA | 9 => some .fwB | 10 => some .boot
  | _ => none

/-- The requester of network host `h` (R463: host h issues as 3 + h). -/
def Req.ofHost (h : Fin 4) : Req :=
  match h with
  | 0 => .net0 | 1 => .net1 | 2 => .net2 | 3 => .net3

/-- The firmware of a Side as a requester (R14). -/
def Req.ofSide : Side → Req
  | .A => .fwA
  | .B => .fwB

end Sys2Proof
end

