-- ==== Sys2Proof/Machine/RegName.lean ====
section
/-!
DEFINITION. The register names of the EK1024 (R2: a register's name begins with its block's prefix), in address order
within each block, and the key under which the model stores one 32-bit register: its name, its two indices and its bank.
-/
namespace Sys2Proof.Machine

/-- The registers the spec names, by the spec's own names. -/
inductive RegName where
  | SYS_ID | SYS_STATUS | SYS_RESET_CAUSE | SYS_POWER | SYS_EVT | SYS_UPTIME | SYS_TEMP
  | PARK_LANE_DECL | PARK_LANE_STAT | PARK_ENG_DECL | PARK_ENG_STAT | PARK_HOST
  | RFE_CFG | RFE_LEASE | RFE_WDOG_PERIOD | RFE_TOLERANCE | RFE_STATE | RFE_LEASE_LEFT | RFE_CMD | RFE_SWO_FRAME
  | RFE_CMD_RES | RFE_WDOG | RFE_CLAIM | RFE_EVT | RFE_FO_COUNT | RFE_LAST | RFE_RESYNC | RFE_WARM_LAT
  | SLU_CFG | SLU_STAT | SLU_EVT | SLU_MISMATCH | SLU_PARERR | SLU_SUMMARY | SLU_EVMASK
  | HAF_CFG | HAF_STAT | HAF_EVT | HAF_TALLY
  | ASY_STATUS0 | ASY_STATUS1 | ASY_LIVE0 | ASY_LIVE1 | ASY_EVMASK0 | ASY_EVMASK1 | ASY_FIRST | ASY_HIST_STAT
  | ASY_HIST_SPOIL | ASY_ISO_CFG | ASY_CTL | ASY_SIDE_STAT | ASY_RECOV_COUNT | ASY_FW | ASY_SEV | ASY_HIST
  | EVT_STATUS | EVT_ENABLE | EVT_ACTIVE | EVT_SET | EVT_ROUTE
  | MBX_MSG | MBX_LOCK | MBX_DOORBELL | MBX_ACK | MBX_CTL | MBX_STAT | MBX_EVT | MBX_CFG
  | STR_ERR | STR_ERR_ADDR | STR_ID | STR_LOCK | STR_LOCK_STAT | STR_EVT | STR_MCFG | STR_PATH | STR_HP_STAT
  | STR_SLICE | STR_MRESET_LOG | STR_PART_DEST | STR_PART_HEADS | STR_PART_MISC
  | WIN_CTL | WIN_ADDR_LO | WIN_ADDR_HI | WIN_STAT | WIN_DATA
  | TB_CFG | TB_NS | TB_SEC_LO | TB_SEC_HI | TB_RATE_LO | TB_RATE_HI | TB_STEP_LO | TB_STEP_HI | TB_STEP_FRAC
  | TB_STEP_CTL | TB_STEP_LIMIT | TB_STAT | TB_EVT | TB_LAST_STEP_LO | TB_LAST_STEP_HI | TB_CMP_EVT | TB_CMP_SKIP
  | TB_CMP_LO | TB_CMP_HI | TB_CMP_PER | TB_CMP_FRAC | TB_CMP_CTL
  | PTP_PORT_CFG | PTP_INGRESS | PTP_EGRESS | PTP_ASYM | PTP_TXTS_DATA | PTP_TXTS_STAT | PTP_TXTS_SPOIL
  | PTP_PORT_EVT
  | REF_CFG | REF_TIMING | REF_CAND_CFG | REF_CAND_OFFSET | REF_CAND_STAT | REF_CAND_EVT | REF_CAND_GLITCH
  | REF_TB_OK | REF_STAT | REF_HIST | REF_EVT | REF_PHASE_LO | REF_PHASE_HI | REF_FREQ | REF_CMD | REF_CMD_RES
  | REF_ALIGN_DELTA | REF_PULSE_CFG | REF_PULSE_OFFSET | REF_CAD_DESC | REF_CAD_FRAME
  | TDM_CFG | TDM_CTL | TDM_STAT | TDM_EVT | TDM_GLITCH | TDM_SPOIL | TDM_FRAME | TDM_START | TDM_TRIG
  | LANE_CFG | LANE_CTL | LANE_TXEQ | LANE_RXEQ | LANE_DET | LANE_STAT | LANE_EVT | LANE_EYE | LANE_TEST
  | LANE_BER_ERR | LANE_BER_TIME | LANE_FILL | LANE_QSTAT | LANE_SUMMARY | LANE_EVMASK
  | NVL_CFG | NVL_STAT | NVL_EVT | NVL_FEC_CORR | NVL_FEC_UNCORR | NVL_CRC_ERR | NVL_HDR_ERR | NVL_TX_DROP
  | NVL_REMOTE | NVL_PARTNER0 | NVL_PARTNER1 | NVL_PARTNER2 | NVL_PARTNER3 | NVL_SUMMARY | NVL_EVMASK
  | ETH_PORT_CFG | ETH_PORT_STAT | ETH_PORT_EVT | ETH_PORT_MAC_LO | ETH_PORT_MAC_HI | ETH_PORT_IP | ETH_PORT_NH_LO
  | ETH_PORT_NH_HI | ETH_CTX_DATA | ETH_CTX_CTL | ETH_CTX_STAT | ETH_CRX_DATA | ETH_CRX_STAT | ETH_CRX_SPOIL
  | ETH_PAUSE_STAT | ETH_SNAP | ETH_CNT_HALF0 | ETH_CNT_HALF1 | ETH_MG_CFG | ETH_MG_IP | ETH_RRP_HOST
  | ETH_RRP_HOST_IP | ETH_WAKE_HIT | ETH_CNT | ETH_WAKE_CTL | ETH_WAKE_MASK | ETH_SUMMARY | ETH_EVMASK | ETH_RXF_CFG
  | ETH_RXF_DST_E | ETH_RXF_DST_W | ETH_RXF_SRC_E | ETH_RXF_SRC_W | ETH_RXF_UDP | ETH_RXF_MEDIA | ETH_RXF_STAT
  | ETH_RXF_EVT | ETH_RXF_SKEW | ETH_RXF_LOST | ETH_RXF_SUMMARY | ETH_RXF_EVMASK | ETH_TXF_CFG | ETH_TXF_DST_E
  | ETH_TXF_DST_W | ETH_TXF_UDP | ETH_TXF_PKT | ETH_TXF_SSRC | ETH_TXF_STAT | ETH_TXF_LATE | ETH_TXF_MAXLATE
  | SDI_CFG | SDI_STAT | SDI_EVT | SDI_VPID | SDI_TC | SDI_CRC_ERR | SDI_ANC_ERR | SDI_SUMMARY | SDI_EVMASK
  | XPT_IN_CFG | XPT_IN_DESC | XPT_IN_PHASE | XPT_IN_PERIOD | XPT_IN_MSTAT | XPT_IN_LOST | XPT_IN_BSPOIL
  | XPT_IN_SUMMARY | XPT_IN_EVMASK | XPT_GEN_CTL | XPT_GEN_LEVEL | XPT_OUT_CFG | XPT_OUT_OFFSET | XPT_OUT_DESC
  | XPT_OUT_STAT | XPT_OUT_TAKEN | XPT_ROUTE | XPT_CAP_CFG | XPT_CAP_STAT | XPT_OUT_SUMMARY | XPT_OUT_EVMASK
  | SEAM_CFG | SEAM_STAT | SEAM_EVT | SEAM_LEAD | SEAM_WIN_LO | SEAM_WIN_HI | SEAM_EFFOFF | SEAM_FILL | SEAM_LATE
  | SEAM_EARLY
  | FSY_CFG | FSY_PHASE | FSY_STAT | FSY_EVT | FSY_REPEAT | FSY_DROP | FSY_BUDGET | FSY_COUNT
  | AUD_ROUTE | AUD_DELAY | AUD_DST_STAT | AUD_DST_DESC | AUD_DST_EVT | AUD_SRC_DESC | AUD_SRC_DELTA | AUD_SRC_ERR
  | AUD_DST_SUMMARY | AUD_EVMASK | AUD_CFG | AUD_INDEX
  | ALY_HEAD_CFG | ALY_HEAD_OFFSET | ALY_HEAD_BG | ALY_CURSOR | ALY_FLIP | ALY_HEAD_DESC | ALY_FLIP_STAT | ALY_EVT
  | ALY_SUMMARY | ALY_EVMASK | ALY_LOAD_SEL | ALY_LOAD_ADDR | ALY_LOAD_DATA | ALY_STORE_CFG | ALY_STORE_STAT
  | ALY_PROT_POS | ALY_PROT_SIZE | ALY_PROT_FLIP | ALY_PROT_CRC | ALY_PROT_ERR | ALY_TILE_CFG | ALY_TILE_DST
  | ALY_TILE_SIZE | ALY_TILE_CROP_XY | ALY_TILE_CROP_WH | ALY_TILE_STAT | ALY_TILE_LATE
  | HBM_CFG | HBM_RH_CFG | HBM_STAT | HBM_EVT | HBM_TEMP | HBM_UNCORR | HBM_MAP | HBM_LATE | HBM_PC_STAT
  | HBM_PC_CORR | HBM_PC_PAR | HBM_PC_RFM | HBM_FIXDLY | HBM_SRAM_CORR | HBM_SRAM_UNCORR
  | HOP_CFG | HOP_PUSH | HOP_CTL | HOP_POP | HOP_STAT | HOP_EVT | HOP_SPOIL | HOP_ECC
  | XPT_PRESET | XPT_TAKE | XPT_TTIME_LO | XPT_TTIME_HI | XPT_TAKE_RES | XPT_TAKE_LEAD | XPT_PEND | XPT_SALVO_SEL
  | XPT_SALVO_ENTRY | XPT_SALVO_CTL | XPT_SALVO_STAT
  | SEC_STAT | SEC_SERIAL_LO | SEC_SERIAL_HI | SEC_CHAL_LO | SEC_CHAL_HI | SEC_TOKEN_CTL | SEC_TOKEN_RES | SEC_TOKEN
  | UMW_STAT | UMW_BASE_VER | UMW_SIDE_VER | UMW_HASH | UMW_REGION_VER
  | UPD_STAT | UPD_CFG | UPD_PIECES | UPD_TRIAL_LEFT | UPD_SIDE | UPD_VER
deriving DecidableEq, Repr

/-- One stored 32-bit register: `name`, its indices `i` and `j` (0 where the register has none) and its `bank`: the Side
(0 Side A, 1 Side B) of a Side register, the requester number of a banked one (R581), Side + 2 × requester for a banked
Side register, 0 otherwise. -/
structure RegKey where
  name : RegName
  i    : Nat := 0
  j    : Nat := 0
  bank : Nat := 0
deriving DecidableEq, Repr

end Sys2Proof.Machine
end

