-- ==== Sys2Proof/Machine/Bits.lean ====
section
/-!
DEFINITION. Bit fields of a 32-bit word, signed readings, saturating counts and the CRCs the spec names.
-/
namespace Sys2Proof.Machine

/-- A field of a register: its lowest bit and its width. -/
structure Fld where
  lo : Nat
  w  : Nat
deriving DecidableEq, Repr

/-- The value of a field of a word. -/
def getF (x : W32) (f : Fld) : Nat := x.toNat / 2 ^ f.lo % 2 ^ f.w

/-- The word with a field replaced by `v` (taken modulo the field's width). -/
def putF (x : W32) (f : Fld) (v : Nat) : W32 :=
  BitVec.ofNat 32 ((x.toNat / 2 ^ (f.lo + f.w)) * 2 ^ (f.lo + f.w) + (v % 2 ^ f.w) * 2 ^ f.lo + x.toNat % 2 ^ f.lo)

/-- The word whose only set bits are those of the field. -/
def Fld.mask (f : Fld) : W32 := BitVec.ofNat 32 ((2 ^ f.w - 1) * 2 ^ f.lo)

/-- Bit `i` of a word. -/
def bitOf (x : W32) (i : Nat) : Bool := x.getLsbD i

/-- The word with bit `i` alone set. -/
def bit1 (i : Nat) : W32 := BitVec.ofNat 32 (2 ^ i)

/-- A truth value as a number. -/
def b2n (b : Bool) : Nat := if b then 1 else 0

/-- `v` as a signed number of `w` bits. -/
def sext (w v : Nat) : Int := if v % 2 ^ w < 2 ^ (w - 1) then (v % 2 ^ w : Nat) else (v % 2 ^ w : Nat) - (2 ^ w : Nat)

/-- A signed number as the two's complement of `w` bits. -/
def twos (w : Nat) (x : Int) : Nat := (x % (2 ^ w : Nat)).toNat

/-- A signed number brought into the range of `w` bits by saturation. -/
def satS (w : Nat) (x : Int) : Int := max (-(2 ^ (w - 1) : Nat)) (min ((2 ^ (w - 1) : Nat) - 1) x)

/-- A count brought into `w` bits by saturation. -/
def satU (w n : Nat) : Nat := min (2 ^ w - 1) n

/-- A signed number divided by `d` and rounded to the nearest whole number, halves towards +∞ (R57). -/
def roundDiv (x : Int) (d : Nat) : Int := (2 * x + d) / (2 * d)

/-- `x` brought into −P/2 ≤ y < P/2 modulo `P` (R57, R412). -/
def wrapHalf (x : Int) (P : Nat) : Int :=
  let r := x % (P : Int)
  if 2 * r < P then r else r - P

/-- `x` brought into −P/2 < y ≤ P/2 modulo `P` (R422). -/
def wrapHalfUp (x : Int) (P : Nat) : Int :=
  let r := x % (P : Int)
  if 2 * r ≤ P then r else r - P

/-- The bits of `v`, `w` of them, most significant first. -/
def bitsMsb (w v : Nat) : List Bool := (List.range w).map fun i => v / 2 ^ (w - 1 - i) % 2 = 1

/-- A CRC of width `w` over bits taken in the order given: polynomial `poly` without its leading term, `init` first. -/
def crc (w poly init : Nat) (bits : List Bool) : Nat :=
  bits.foldl (fun r b =>
    let top := r / 2 ^ (w - 1) % 2 = 1
    let sh := r * 2 % 2 ^ w
    if top != b then Nat.xor sh poly else sh) init

/-- The CRC-32 of IEEE 802.3 over bytes: reflected, all ones first, inverted at the end. -/
def crc32Step (r b : Nat) : Nat :=
  (List.range 8).foldl (fun r _ => if r % 2 = 1 then Nat.xor (r / 2) 0xEDB88320 else r / 2) (Nat.xor r b)

/-- CRC-32 of a list of bytes. -/
def crc32 (bs : List Nat) : Nat := Nat.xor (bs.foldl crc32Step 0xFFFFFFFF) 0xFFFFFFFF

/-- The four bytes of a word, most significant first. -/
def wordBytes (x : W32) : List Nat :=
  [x.toNat / 0x1000000 % 256, x.toNat / 0x10000 % 256, x.toNat / 0x100 % 256, x.toNat % 256]

/-- CRC-32 of words, each taken most significant byte first. -/
def crc32w (ws : List W32) : Nat := crc32 (ws.flatMap wordBytes)

/-- A word from a number. -/
def w32 (n : Nat) : W32 := BitVec.ofNat 32 n

/-- The bytes of a word that a byte-enable mask selects, the others 0. -/
def bytesOf (be : Fin 16) (x : W32) : W32 :=
  w32 ((List.range 4).foldl (fun n i => if be.val.testBit i then n + x.toNat / 2 ^ (8 * i) % 256 * 2 ^ (8 * i) else n) 0)

end Sys2Proof.Machine
end

