-- ==== Sys2Proof/Machine/Format.lean ====
section
/-!
DEFINITION. Formats (R48, R49, R79): what a format code says, the word rate of a stream, and the times a format gives.
Times are whole numbers of 2^-16 ns; a tick is 2^18 of them (R20), a 1/16 tick 2^14.
-/
namespace Sys2Proof.Machine

/-- A tick in 2^-16 ns. -/
def tickU : Nat := 2 ^ 18

/-- A sixteenth of a tick in 2^-16 ns. -/
def sixteenth : Nat := 2 ^ 14

/-- A nanosecond in 2^-16 ns. -/
def nsU : Nat := 2 ^ 16

/-- A microsecond in ticks. -/
def usTicks : Nat := 250

/-- A millisecond in ticks. -/
def msTicks : Nat := 250000

/-- A second in ticks. -/
def secTicks : Nat := 250000000

/-- A format: its code with the INTERLACED and SEGMENTED flags (R29). -/
structure Fmt where
  code : Nat := 0
  il   : Bool := false
  seg  : Bool := false
deriving DecidableEq, Repr, Inhabited

/-- The raster field of a code. -/
def Fmt.raster (f : Fmt) : Nat := f.code / 512 % 32

/-- The frame rate field of a code. -/
def Fmt.rate (f : Fmt) : Nat := f.code / 16 % 32

/-- The sampling field of a code. -/
def Fmt.sampling (f : Fmt) : Nat := f.code / 4 % 4

/-- The depth in bits (R48). -/
def Fmt.depth (f : Fmt) : Nat :=
  match f.code % 4 with
  | 0 => 8 | 1 => 10 | 2 => 12 | _ => 16

/-- Frames per second as a fraction; 0 where the rate code is unknown (R48). -/
def rateFrac (code : Nat) : Nat × Nat :=
  match code with
  | 1 => (24000, 1001) | 2 => (24, 1) | 3 => (25, 1) | 4 => (30000, 1001) | 5 => (30, 1) | 6 => (48000, 1001)
  | 7 => (48, 1) | 8 => (50, 1) | 9 => (60000, 1001) | 10 => (60, 1) | 11 => (100, 1) | 12 => (120000, 1001)
  | 13 => (120, 1) | 14 => (240, 1) | 15 => (250, 1) | 16 => (300, 1) | 17 => (480, 1) | 18 => (500, 1)
  | 19 => (600, 1) | 20 => (960, 1) | 21 => (1000, 1)
  | _ => (0, 1)

/-- Active width and height of a raster; 0 where the raster is unknown. -/
def rasterDims (code : Nat) : Nat × Nat :=
  match code with
  | 1 => (720, 486) | 2 => (720, 576) | 3 => (1280, 720) | 4 => (1920, 1080) | 5 => (2048, 1080)
  | 6 => (3840, 2160) | 7 => (4096, 2160) | 8 => (7680, 4320) | 9 => (8192, 4320)
  | _ => (0, 0)

/-- Total lines of a frame and its switching line (R79). -/
def rasterLines (code : Nat) : Nat × Nat :=
  match code with
  | 1 => (525, 10) | 2 => (625, 6) | 3 => (750, 7) | 4 => (1125, 7) | 5 => (1125, 7) | 6 => (2250, 7) | 7 => (2250, 7)
  | 8 => (4500, 7) | 9 => (4500, 7)
  | _ => (1125, 7)

/-- The code is known: raster, rate and sampling are all encodings the tables of R48 give. -/
def Fmt.known (f : Fmt) : Bool := (rasterDims f.raster).1 != 0 && (rateFrac f.rate).1 != 0 && f.sampling != 3

/-- Samples of one active line: two per pixel for 4:2:2, three for 4:4:4 (R41). -/
def Fmt.lineSamples (f : Fmt) : Nat := (rasterDims f.raster).1 * (if f.sampling = 0 then 2 else 3)

/-- VIDEO words of one active line (R40). -/
def Fmt.lineWords (f : Fmt) : Nat := (f.lineSamples * f.depth + 29) / 30

/-- V of R49: VIDEO words of a frame. -/
def Fmt.frameWords (f : Fmt) : Nat := f.lineWords * (rasterDims f.raster).2

/-- M of R49: markers of a frame. -/
def Fmt.marks (f : Fmt) : Nat := 3 + b2n (f.il || f.seg) + 2 * (rasterDims f.raster).2

/-- The word rate of R49 fits `g` slots: W ≤ g × 371.25 Mword/s, W = (V + A + g × M) × rate × 1.0001. -/
def Fmt.fits (f : Fmt) (g : Nat) : Bool :=
  let v := f.frameWords
  let a := (v + 99) / 100
  let r := rateFrac f.rate
  decide ((v + a + g * f.marks) * r.1 * 10001 ≤ g * 371250000 * r.2 * 10000)

/-- R49: the EK1024 carries the format in `g` slots. -/
def Fmt.carried (f : Fmt) (g : Nat) : Bool :=
  f.known && !(f.il && f.seg) &&
  (if f.raster = 1 then f.il && f.sampling = 0 && f.code % 4 = 1 && f.rate = 4
   else if f.raster = 2 then f.il && f.sampling = 0 && f.code % 4 = 1 && f.rate = 3 else true) &&
  (!(f.il || f.seg) || decide (f.rate ≤ 5)) && f.fits g

/-- The frame period as a fraction of nanoseconds: (10^9 × den, num). -/
def Fmt.periodFrac (f : Fmt) : Nat × Nat := ((rateFrac f.rate).2 * 1000000000, max 1 (rateFrac f.rate).1)

/-- The frame period in 2^-16 ns. -/
def Fmt.period (f : Fmt) : Nat := f.periodFrac.1 * nsU / f.periodFrac.2

/-- The line period in 2^-16 ns (R79). -/
def Fmt.linePeriod (f : Fmt) : Nat := f.periodFrac.1 * nsU / (f.periodFrac.2 * (rasterLines f.raster).1)

/-- From a frame start to the start of line `l` (R79). -/
def Fmt.lineAt (f : Fmt) (l : Nat) : Nat := (l - 1) * f.periodFrac.1 * nsU / (f.periodFrac.2 * (rasterLines f.raster).1)

/-- `n` line periods to 1/16 tick, the resolution of every comparison in the stamping rules (R80). -/
def Fmt.linesTime (f : Fmt) (n : Nat) : Nat := f.lineAt (n + 1) / sixteenth * sixteenth

/-- From a frame start to the switch point (R79), to 1/16 tick (R80). -/
def Fmt.switchAt (f : Fmt) : Nat := f.linesTime ((rasterLines f.raster).2 - 1)

/-- A duration in 2^-16 ns is at most half a frame period. -/
def Fmt.withinHalf (f : Fmt) (x : Int) : Bool := decide (2 * x * f.periodFrac.2 ≤ (f.periodFrac.1 * nsU : Nat))

/-- The frame period in word periods of 8/3 ns, rounded down (R80, R92). -/
def Fmt.wordPeriods (f : Fmt) : Nat := f.periodFrac.1 * 3 / (8 * f.periodFrac.2)

/-- From cadence phase to the start of the frame of index `j`, placed to 1/16 tick (R80, R411). -/
def Fmt.startAt (f : Fmt) (j : Int) : Int := j * f.periodFrac.1 * 4 / f.periodFrac.2 * sixteenth

/-- The index of the last frame start at or before `x`, counted from cadence phase. -/
def Fmt.indexAt (f : Fmt) (x : Int) : Int :=
  let j := x * f.periodFrac.2 / (f.periodFrac.1 * nsU)
  if f.startAt (j + 1) ≤ x then j + 1 else j

/-- The format of a word whose code is in [13:0] and whose flags stand at bits `il` and `il + 1`. -/
def fmtOf (x : W32) (il : Nat) : Fmt := { code := x.toNat % 16384, il := bitOf x il, seg := bitOf x (il + 1) }

/-- The stand-in format of counter 0 (R30): 1080p59.94 4:2:2 10-bit. -/
def standIn : Fmt := { code := 0x891 }

end Sys2Proof.Machine
end

