-- ==== Sys2Proof/Machine/Terms.lean ====
section
/-!
DEFINITION. The terms that commands carry as operands: slot-word blocks, frames, readings.
-/
namespace Sys2Proof.Machine

/-- A slot word as a bank's converter gives it (R39, R60): whether it failed a check of its line, when it arrived, in 2^-16 ns, and whether it
stands in the place of a word that no packet covered (R291). -/
structure RxWord where
  w    : W32
  bad  : Bool := false
  time : Int := 0
  gone : Bool := false
deriving DecidableEq, Repr, Inhabited

/-- A merge block (R59, R60, R124): its key (frame tag, line, the place of its MARK in R44's order of a line, index; `sof` for the SOF block),
whether it holds its frame's EOF, whether its bank found it good, its words without FILL, its completion stamp in ticks, the input timing
stamp of its frame's SOF in 2^-16 ns, and the V of its SAL, 0 for any other MARK. -/
structure Block where
  tag   : Nat
  line  : Nat
  mark  : Nat := 0
  idx   : Nat
  sof   : Bool
  eof   : Bool
  good  : Bool
  words : List W32
  stamp : Nat := 0
  sofAt : Int := 0
  video : Nat := 0
deriving DecidableEq, Repr, Inhabited

/-- A unit of a lane stream (R154, R155): the two-bit header of a 66-bit block, 0 for an SDI word pair; the block's 64 bits in two words, or the pair's
two 10-bit words; and the even-parity bit of each. -/
structure SlUnit where
  hdr   : Nat
  words : List W32
  par   : List Bool
deriving DecidableEq, Repr, Inhabited

/-- What goes wrong with a Side's unit on its way to the Sluice: it comes after its tag, or bits of its words are inverted. -/
structure UnitFault where
  late  : Bool := false
  flips : List W32 := []
deriving DecidableEq, Repr, Inhabited

/-- An area of a Side's SRAM, as the scrub meets it (R450, R451). -/
inductive SramArea where
  | data | firmware | hopper | prot
deriving DecidableEq, Repr, Inhabited

/-- How a word came out of its SECDED check (R451, R457). -/
inductive Ecc where
  | clean | corrected | uncorrectable
deriving DecidableEq, Repr, Inhabited

/-- A data position of a Nervor lane as received (R232, R237): its header and payload, whether it lies within an uncorrectable codeword, and how
long before the CRC block it arrived, in 2^-16 ns. -/
structure NvlCell where
  hdr     : Fin 4
  payload : BitVec 64
  uncorr  : Bool
  ago     : Nat
deriving DecidableEq, Repr, Inhabited

/-- The samples of one sample row data header of a -20 packet (R289): the field bit, the row, the offset in pixels and the bytes. -/
structure RowData where
  field  : Bool
  row    : Nat
  offset : Nat
  bytes  : List Byte
deriving DecidableEq, Repr, Inhabited

/-- An ancillary data packet of a -40 packet (R292): its line and its ten-bit words from DID to checksum. -/
structure AncData where
  line  : Nat
  words : List Nat
deriving DecidableEq, Repr, Inhabited

/-- The address registers of a receive flow (R317). -/
inductive FlowAddr where
  | dstE | dstW | srcE | srcW | udp
deriving DecidableEq, Repr, Inhabited

/-- The window's address and control registers (R483). -/
inductive WinReg where
  | ctl | lo | hi
deriving DecidableEq, Repr, Inhabited

/-- What a master reset cuts (R479, R489): the target of the transaction in progress (15 none), its write beats not yet accepted, and the
addresses of its read beats issued, whose data is discarded. -/
structure Cut where
  target : Nat := 15
  zero   : Nat := 0
  reads  : List W32 := []
deriving DecidableEq, Repr, Inhabited

end Sys2Proof.Machine
end

