-- ==== Sys2Proof/Machine/Plans.lean ====
section
/-!
DEFINITION. The structure that an Umwick image defines (R522), in the terms in which the chapters state its effects: the images' own encoding
is the compiler's and is not given.
-/
namespace Sys2Proof.Machine

/-- A source position of an input slot (R22): a Nervor slot channel, an SDI lane or a receive flow. -/
inductive SrcPos where
  | nervor (lane chan : Nat)
  | sdi (lane : Nat)
  | flow (r : Nat)
deriving DecidableEq, Repr

/-- A transmit position of an output slot (R23). -/
inductive TxPos where
  | nervor (lane chan : Nat)
  | sdi (lane : Nat)
  | flow (t : Nat)
deriving DecidableEq, Repr

/-- SLOT_PLAN's entry for an input slot (R22, R51): the slots of its stream, the lowest slot of its group, its positions. -/
structure InPlan where
  slots  : Nat := 1
  lowest : Nat := 0
  srcE   : Option SrcPos := none
  srcW   : Option SrcPos := none
deriving DecidableEq, Repr, Inhabited

/-- SLOT_PLAN's entry for an output slot (R23, R29, R51): its format, the slots of its stream, the lowest slot of its group, its
transmit positions and, for a bypass output, its input slot (R253). -/
structure OutPlan where
  fmt    : Fmt := {}
  slots  : Nat := 1
  lowest : Nat := 0
  txE    : Option TxPos := none
  txW    : Option TxPos := none
  bypass : Option Nat := none
deriving DecidableEq, Repr, Inhabited

/-- BENCH_PLAN's limits of a Side (R141): units, contexts and the pages of its region. -/
structure BenchPlan where
  units    : Nat := 2048
  contexts : Nat := 1024
  pages    : Nat := 9216
deriving DecidableEq, Repr, Inhabited

/-- The rights PARTITION_PLAN gives one requester (R469), as lists of inclusive ranges. -/
structure Rights where
  dest     : List (Nat × Nat) := []
  heads    : List (Nat × Nat) := []
  prot     : List (Nat × Nat) := []
  lanes    : List (Nat × Nat) := []
  mgPorts  : List Nat := []
  rxFlows  : List (Nat × Nat) := []
  txFlows  : List (Nat × Nat) := []
  tbs      : List Nat := []
  benches  : List (Nat × Nat) := []
  tdmPorts : List Nat := []
  refOwner : Bool := false
  rfeOwner : Bool := false
deriving DecidableEq, Repr, Inhabited

/-- ALLOY_PLAN's entry for a head (R357, R358): present, its format, whether it is the even member of a 4:4:4 pair, its protected
rectangles. -/
structure HeadPlan where
  present : Bool := false
  fmt     : Fmt := {}
  pair    : Bool := false
  rects   : Nat := 0
deriving DecidableEq, Repr, Inhabited

/-- PORT_PLAN's entry for a port index (R282): present, and the lanes it uses, lowest first. -/
structure PortPlan where
  present : Bool := false
  lanes   : List Nat := []
deriving DecidableEq, Repr, Inhabited

/-- AUDIO_PLAN's entry for a source channel (R325): its kind, the input slot, flow or port it comes from, the channel or slot within it and
the LINK_OFFSET of a flow; and whether the origin runs at 96 kHz. -/
structure AudSrcPlan where
  kind   : Nat := 0
  origin : Nat := 0
  index  : Nat := 0
  delta  : Nat := 144
  hi     : Bool := false
deriving DecidableEq, Repr, Inhabited

/-- AUDIO_PLAN's entry for a destination channel (R328, R337): its kind, owner, index and longest delay. -/
structure AudDstPlan where
  kind     : Nat := 0
  owner    : Nat := 0
  index    : Nat := 0
  delayMax : Nat := 0
deriving DecidableEq, Repr, Inhabited

/-- ALLOY_PLAN (R357, R361, R368): the heads, and the heads to which it assigns tile feeds and pre-blend tables. -/
structure AlloyPlan where
  heads    : List (Nat × HeadPlan) := []
  tileHead : List (Nat × Nat) := []
  preHead  : List (Nat × Nat) := []
deriving DecidableEq, Repr, Inhabited

/-- AUDIO_PLAN (R321, R323, R325, R328): the channels, the audio time base, the matrix rate, the requesters of the TDM ports, the channels and
depth of each audio receive flow, and the samples in a packet and the depth of each audio transmit flow. -/
structure AudioPlan where
  src     : List (Nat × AudSrcPlan) := []
  dst     : List (Nat × AudDstPlan) := []
  tb      : Nat := 0
  hi      : Bool := false
  tdm     : List (Nat × Nat) := []
  rxFlows : List (Nat × Nat × Nat) := []
  txFlows : List (Nat × Nat × Nat) := []
deriving DecidableEq, Repr, Inhabited

/-- The structure that the images of the structure record define (R522), section by section, as the Umwick compiler encodes it: `regs` are the
boot values that sections write to registers. -/
structure Structure_ where
  inPlan    : List (Nat × InPlan) := []
  outPlan   : List (Nat × OutPlan) := []
  capPlan   : List Nat := []
  ports     : List (Nat × PortPlan) := []
  rights    : List (Nat × Rights) := []
  plain7    : Bool := false
  updMbx    : Nat := 0
  bench     : BenchPlan := {}
  alloy     : AlloyPlan := {}
  audio     : AudioPlan := {}
  regs      : List (RegKey × W32) := []
  baseVer   : W32 := 0
  sideVer   : W32 := 0
  regionVer : List (Nat × W32) := []
deriving DecidableEq, Repr, Inhabited

/-- A region image's entries for a quad (R531): the boot values of its lanes' registers, the positions that lie in it with what SLOT_PLAN says
of their slots, and its ports. -/
structure RegionPlan where
  version : W32 := 0
  regs    : List (RegKey × W32) := []
  ins     : List (Nat × InPlan) := []
  outs    : List (Nat × OutPlan) := []
  ports   : List (Nat × PortPlan) := []
deriving DecidableEq, Repr, Inhabited

/-- A Side image (R532): the plans that it changes. -/
structure SidePlan where
  version : W32 := 0
  bench   : Option BenchPlan := none
  alloy   : Option AlloyPlan := none
  audio   : Option AudioPlan := none
deriving DecidableEq, Repr, Inhabited

/-- What the plan sections of a structure image encode (R522, R531, R532): a whole structure, a quad's entries, or a Side's plans. -/
inductive Change where
  | base (plan : Structure_)
  | region (quad : Nat) (plan : RegionPlan)
  | side (plan : SidePlan)
deriving DecidableEq, Repr

/-- A firmware image that a flash slot holds, as read (R521, R523): whether it passes R523, its VERSION, its SVN and its image
hash. -/
structure FwImage where
  passes   : Bool := false
  version  : W32 := 0
  svn      : Nat := 0
  hash     : List W32 := []
deriving DecidableEq, Repr, Inhabited

end Sys2Proof.Machine
end

