-- ==== Sys2Proof/Syntax.lean ====
section
/-!
DEFINITION. The commands of the EK1024: one constructor for each row of spec/opcode_table.json, in the table's order.
An operand is what the row's occasion brings from outside: who makes the access, which instance it concerns, the word
written, the frame, block or reading received.  Ranges stand in the operands' types.
-/
namespace Sys2Proof

open Sys2Proof.Machine

/-- A command of the block (spec/opcode_table.json). -/
inductive Instr where
  /-- REG_WRITE (R6): A write to a register that has no row of its own is checked under R471 and takes the effect of its access type. -/
  | regWrite (r : Req) (jtag : Bool) (addr v : W32) (be : Fin 16)
  /-- TWIN_WRITE_ACCEPT (R480): T5 accepts a write of a twin register and queues it for delivery to both Sides. -/
  | twinWriteAccept (r : Req) (offset : BitVec 23) (v : W32)
  /-- TWIN_WRITE_DELIVERY (R480): In the second tick after acceptance, the command sequencer delivers up to two twin writes to both Sides and records them in the routing snapshot. -/
  | twinWriteDelivery
  /-- AO_RESET_ASSERT (R562): A low on AO_RESET_N that passes the filter resets the whole device, idles the lanes and closes the Harif bypass. -/
  | aoResetAssert
  /-- AO_RESET_RELEASE (R527): AO_RESET_N rises and the boot sequence begins, with the referee in BOOT. -/
  | aoResetRelease
  /-- AO_DIP (R554): VDD_AO stays below 0.70 V for 1 µs, and the device resets as from AO_RESET_N. -/
  | aoDip
  /-- BOOT_OTP_CHECKED (R528): The OTP check completes; if it fails, only the AO island runs. -/
  | bootOtpChecked (ok : Bool)
  /-- BOOT_IMAGES_LOADED (R527): The images of the structure record are verified and loaded, or UMW_STAT reads NONE. -/
  | bootImagesLoaded (images : Option Machine.Structure_)
  /-- SIDE_FW_LOAD (R529): The boot core reads, verifies and loads a Side's firmware, then releases the Side from reset. -/
  | sideFwLoad (sd : Side)
  /-- BANK_SUPPLY_FAIL (R19): A bank's supplies fail, so every lane of the bank loses signal; for Bank E, the host lanes also go down. -/
  | bankSupplyFail (b : Bank) (ctx : W32) (cut0 cut1 : Machine.Cut)
  /-- BANK_SUPPLY_RETURN (R554): A bank's supplies have been good for 1 ms, and its lanes wake as from L3. -/
  | bankSupplyReturn (b : Bank)
  /-- SIDE_POWER_GOOD (R554): SIDE_PG and the Side's rails have held good for 1 ms, so the Side may leave reset. -/
  | sidePowerGood (sd : Side)
  /-- PG_LATE (R555): SIDE_PG has not risen 50 ms after the enable, and SYS_EVT.PG_LATE is set. -/
  | pgLate (sd : Side)
  /-- PERST_ASSERT (R563): PERST resets one PCI Express endpoint as a master reset. -/
  | perstAssert (p : Fin 2) (cut : Machine.Cut)
  /-- PCIE_LINK_DOWN (R463): A host port's link goes down, which is a master reset of its master. -/
  | pcieLinkDown (p : Fin 2) (cut : Machine.Cut)
  /-- PCIE_HOT_RESET (R463): A hot reset of a host port is a master reset. -/
  | pcieHotReset (p : Fin 2) (cut : Machine.Cut)
  /-- FUNCTION_LEVEL_RESET (R463): A Function Level Reset of a host port is a master reset. -/
  | functionLevelReset (p : Fin 2) (cut : Machine.Cut)
  /-- THERMAL_SENSOR_READ (R561): Every 100 µs the junction sensors are read, and thermal lines and TEMP_HIGH are updated. -/
  | thermalSensorRead (k : Fin 6) (readings : List Int)
  /-- HBM_START_TRAINING_DONE (R444): Start training of a Side's HBM completes, the delays are written and the heartbeat hardware starts. -/
  | hbmStartTrainingDone (sd : Side) (delays : List (List Nat))
  /-- HEARTBEAT (R164): Every PERIOD/8 a Side whose checks all passed sends a heartbeat to the referee. -/
  | heartbeat (sd : Side) (fabricOk clocksOk hbmOk : Bool)
  /-- LEASE_EXPIRY (R167): The holder's lease expires; the referee flips to a READY standby and resets the holder, or enters NONE. -/
  | leaseExpiry
  /-- ASSAY_LINE_RISE (R509): A privileged line rises; Assay latches, orders and records it, and the referee acts on its severity. -/
  | assayLineRise (asserted : List (Nat × W32))
  /-- SLUICE_UNIT (R157): The bank takes the next unit, and the Sluice chooses the holder's unit or gap content. -/
  | sluiceUnit (l : Fin 512) (a b : Machine.UnitFault) (n : Nat)
  /-- COMPARE_INTERVAL_END (R159): At the end of a line of the compare counter, the Sluice compares the two Sides' CRCs and updates STEP_OK. -/
  | compareIntervalEnd (l : Fin 512)
  /-- STANDBY_STEP_TIMEOUT (R161): A HOT standby that has been out of step for 8 frames is reset by the referee. -/
  | standbyStepTimeout
  /-- CLAIM_CONFLICT (R166): A claim that has differed from the referee's view for more than 100 µs sets CONFLICT. -/
  | claimConflict (sd : Side)
  /-- VOTE_MISMATCH (R169): The voters disagree; the majority acts, and the odd voter, or all three voters, are reloaded. -/
  | voteMismatch (a b c : Fin 4)
  /-- PLANNED_SWITCHOVER (R175): RFE_CMD OP 1 requests a planned switch-over at a frame of a counter. -/
  | plannedSwitchover (r : Req) (c : Fin 32)
  /-- SWITCHOVER_CANCEL (R175): RFE_CMD OP 2 cancels a pending planned switch-over. -/
  | switchoverCancel (r : Req)
  /-- RESET_SIDE_A (R177): RFE_CMD OP 3 requests a reset of Side A. -/
  | resetSideA (r : Req)
  /-- RESET_SIDE_B (R177): RFE_CMD OP 4 requests a reset of Side B. -/
  | resetSideB (r : Req)
  /-- SWITCHOVER_DUE (R175): At the named frame start, the lease flips to an in-step standby, or the request is refused with NOT_IN_STEP. -/
  | switchoverDue
  /-- WATCHDOG_SERVICE (R194): A Side's firmware writes RFE_WDOG with KEY 0xC0DE. -/
  | watchdogService (r : Req) (n : Fin 2) (v : W32)
  /-- WATCHDOG_EXPIRY (R506): RFE_WDOG has not been serviced for 2 × RFE_WDOG_PERIOD, so the WATCHDOG line asserts. -/
  | watchdogExpiry (sd : Side)
  /-- STANDBY_CLASS_SET (R181): A write of RFE_TOLERANCE sets the standby class from the declared latency. -/
  | standbyClassSet (r : Req) (v : W32)
  /-- RESYNC_LOAD_DONE (R178): LOAD completes and the Side enters FILL. -/
  | resyncLoadDone (sd : Side)
  /-- RESYNC_FILL_DONE (R178): Every output has presented units, and the Side enters COMPARE. -/
  | resyncFillDone (sd : Side)
  /-- RING_FRAME (R184): A whole ring frame arrives; the station's record is replaced and the frame is forwarded. -/
  | ringFrame (bytes : List Byte)
  /-- RING_TIMEOUT (R188): No good ring frame arrives for TIMEOUT ms, so the referee acts as in INTERNAL mode. -/
  | ringTimeout
  /-- HARIF_BYPASS_OPEN (R568): After reset, the interface locks to the commas and opens the bypass at a ring-frame start. -/
  | harifBypassOpen
  /-- QUIET_TIMER_EXPIRY (R512): An isolated Side's quiet timer reaches 0. -/
  | quietTimerExpiry (sd : Side)
  /-- UNLATCH_A (R514): ASY_CTL.UNLATCH_A releases a latched Side A and empties its record of releases. -/
  | unlatchA (r : Req)
  /-- UNLATCH_B (R514): ASY_CTL.UNLATCH_B releases a latched Side B and empties its record of releases. -/
  | unlatchB (r : Req)
  /-- FIRST_CLR (R511): ASY_CTL.FIRST_CLR empties ASSAY_FIRST. -/
  | firstClr (r : Req)
  /-- FW_FATAL (R516): An ASY_FW write raises FW_FATAL for one cycle with its context. -/
  | fwFatal (r : Req) (fw : Fin 2) (ctx : W32)
  /-- FW_DEGRADE (R516): An ASY_FW write raises FW_DEGRADE for one cycle. -/
  | fwDegrade (r : Req) (fw : Fin 2) (ctx : W32)
  /-- FW_NOTICE (R516): An ASY_FW write raises FW_NOTICE for one cycle. -/
  | fwNotice (r : Req) (fw : Fin 2) (ctx : W32)
  /-- TAKE (R77): XPT_TAKE OP 0 commits a take of the preset of TARGET; the preset is sampled and BUSY is set. -/
  | take (r : Req) (d : Fin 2048) (timed : Bool) (tb : Fin 4) (seq : Byte)
  /-- SALVO_COMMIT (R86): XPT_TAKE OP 1 commits a salvo and samples its entries. -/
  | salvoCommit (r : Req) (n : Fin 256) (timed : Bool) (tb : Fin 4) (seq : Byte)
  /-- TAKE_CANCEL (R84): XPT_TAKE OP 2 cancels the requester's latest pending take of a destination. -/
  | takeCancel (r : Req) (d : Fin 2048) (seq : Byte)
  /-- SALVO_CANCEL (R84): XPT_TAKE OP 3 cancels a pending salvo. -/
  | salvoCancel (r : Req) (n : Fin 256) (seq : Byte)
  /-- COMMIT_TICK (R82): Validation of a commit ends: the checks run, then the commit is stamped and delivered, or refused. -/
  | commitTick
  /-- TIMED_TAKE_STAMP (R89): At the first tick with T − V ≤ 100 ms, a timed take is converted and stamped. -/
  | timedTakeStamp
  /-- TAKE_EXECUTE (R129): At its stamped switch point, a take moves the output's positions to the new source. -/
  | takeExecute (d : Fin 1344)
  /-- SALVO_CLEAR (R85): XPT_SALVO_CTL CLEAR empties the selected salvo and makes the writer its owner. -/
  | salvoClear (r : Req)
  /-- SALVO_RELEASE (R106): XPT_SALVO_CTL RELEASE empties the salvo and sets OWNER to 0. -/
  | salvoRelease (r : Req)
  /-- SALVO_APPEND (R85): XPT_SALVO_ENTRY appends one entry to the selected salvo. -/
  | salvoAppend (r : Req) (dest src : Fin 2048)
  /-- OFFSET_JUMP (R92): At jump point J, an output's raster jumps to a newly written OUT_OFFSET. -/
  | offsetJump (d : Fin 1024)
  /-- OUTPUT_FRAME_START (R80): An output slot starts a frame and applies its loss policy or its source. -/
  | outputFrameStart (d : Fin 1024)
  /-- CAPTURE_FRAME (R96): A capture tap writes a whole frame with its header into its HBM ring. -/
  | captureFrame (t : Fin 64)
  /-- CAPTURE_ENABLE (R114): A 0-to-1 write of ENABLE restarts the ring and clears DONE. -/
  | captureEnable (r : Req) (t : Fin 64) (v : W32)
  /-- REGION_APPLY (R531): At the application tick, a region image replaces a quad's plans. -/
  | regionApply
  /-- INPUT_SOF (R57): An SOF of an input updates its phase, period and descriptor. -/
  | inputSof (n : Fin 1024) (b : Bank)
  /-- MERGE_BLOCK (R62): A block or ABSENT word reaches merge, and merge decides the smallest key. -/
  | mergeBlock (n : Fin 1024) (b : Bank)
  /-- GAP_TIMEOUT (R61): A copy that has delivered no block for GAP µs is declared ABSENT. -/
  | gapTimeout (n : Fin 1024) (b : Bank)
  /-- BOND_UNDERRUN (R54): A bonded member underruns and its positions are filled with substitute words. -/
  | bondUnderrun (n : Fin 1024) (b : Bank) (m : Fin 16)
  /-- BOND_REJOIN (R55): An underrun member rejoins at a matching MARK group. -/
  | bondRejoin (n : Fin 1024) (b : Bank) (m : Fin 16)
  /-- SEAM_BLOCK_PLACE (R125): A block is written into the Seam store, or discarded as late, early or owned by the other source. -/
  | seamBlockPlace (d : Fin 1024)
  /-- BENCH_DECISION (R143): At Q(k), the Bench chooses the next input frame, or repeats. -/
  | benchDecision (b : Fin 1024)
  /-- BENCH_FRAME_WRITE (R143): At an input SOF, the Bench writes the frame into a buffer, possibly dropping one. -/
  | benchFrameWrite (b : Fin 1024)
  /-- BENCH_FRAME_START (R142): At O(k), the Bench emits its chosen frame, or black while PRIMING. -/
  | benchFrameStart (b : Fin 1024)
  /-- FSY_CFG_WRITE (R140): A delivered FSY_CFG write pins, re-targets or unpins a Bench. -/
  | fsyCfgWrite (r : Req) (b : Fin 1024) (v : W32)
  /-- SAMPLE_BOUNDARY (R324): At each sample time, the matrix computes the destination samples of that index. -/
  | sampleBoundary
  /-- CHANGE_TIMEOUT (R335): No crossing within TIMEOUT, so a ramp of N samples begins. -/
  | changeTimeout (c : Fin 16384)
  /-- AUD_ROUTE_CHANGE (R331): A delivered AUD_ROUTE write begins a change at the next sample boundary. -/
  | audRouteChange (r : Req) (c : Fin 16384) (v : W32)
  /-- AUD_DELAY_CHANGE (R337): A delivered AUD_DELAY write changes the tap under the change rule. -/
  | audDelayChange (r : Req) (c : Fin 16384) (v : W32)
  /-- DEEMBED_PACKET (R326): An ST 299 packet is de-embedded and numbered, re-anchoring when the index jumps. -/
  | deembedPacket (n : Fin 1024)
  /-- TDM_ARM (R341): TDM_CTL.ARM stops the port and arms it. -/
  | tdmArm (r : Req) (p : Fin 16)
  /-- TDM_STOP (R355): TDM_CTL.STOP stops the port and drives DOUT low. -/
  | tdmStop (r : Req) (p : Fin 16)
  /-- TDM_FIRE (R341): TDM_TRIG.FIRE fires the trigger, or arms it for its next event. -/
  | tdmFire (r : Req) (w : W32)
  /-- TDM_TRIGGER (R342): The trigger fires, and the armed ports form an aligned group starting at index K. -/
  | tdmTrigger
  /-- TDM_FRAME_SYNC (R343): A port's frame carries samples of index K + n on DIN and DOUT. -/
  | tdmFrameSync (p : Fin 16) (din : List Bool)
  /-- TDM_GLITCH (R345): An early BCLK edge is ignored and counted. -/
  | tdmGlitch (p : Fin 16) (ago : Nat)
  /-- FS_ERR (R345): A misplaced frame sync is ignored, and after 4 at one count the port re-frames. -/
  | fsErr (p : Fin 16) (at_ : Nat)
  /-- TDM_CLOCK_MISSING (R345): No clock for two frame periods puts the port in HOLD. -/
  | tdmClockMissing (p : Fin 16) (bclk fs : Nat)
  /-- RATE_CHANGE (R345): BCLK off by more than 1 % puts the port in RATE_STOP. -/
  | rateChange (p : Fin 16) (khz : Nat)
  /-- CLK_BACK (R346): After 1 ms of good clock, the port leaves HOLD and takes its index. -/
  | clkBack (p : Fin 16) (khz : Nat)
  /-- HEAD_FRAME (R364): At O_h(k), a head composes its frame from the eligible tile frames and layers. -/
  | headFrame (h : Fin 32) (bad : List Nat)
  /-- TILE_BLOCK (R363): A scaled block of a tile source frame is written, or discarded as late. -/
  | tileBlock (f : Fin 256)
  /-- TILE_FRAME_ELIGIBLE (R363): At S_j + P_s + 1 ms, a tile frame becomes eligible. -/
  | tileFrameEligible (f : Fin 256)
  /-- ALY_LOAD_DATA (R372): A delivered load word is written into the back copy of the selected content. -/
  | alyLoadData (r : Req) (v : W32)
  /-- FLIP_GFX (R374): ALY_FLIP.GFX requests a flip of the graphics bitmap. -/
  | flipGfx (r : Req) (h : Fin 32)
  /-- FLIP_CURSOR (R374): ALY_FLIP.CURSOR requests a flip of the cursor image. -/
  | flipCursor (r : Req) (h : Fin 32)
  /-- FLIP_LUT (R374): ALY_FLIP.LUT requests a flip of the head's tables. -/
  | flipLut (r : Req) (h : Fin 32)
  /-- ALY_PROT_FLIP (R377): A protected flip is requested, or refused for bad geometry. -/
  | alyProtFlip (r : Req) (h : Fin 32)
  /-- HEAD_BOUNDARY (R374): At the head boundary, pending flips and head and tile settings take effect. -/
  | headBoundary (h : Fin 32)
  /-- TB_TICK (R386): Each tick, the time bases and the cadence time advance. -/
  | tbTick
  /-- CADENCE_FRAME_START (R411): A cadence counter starts a frame and increments its count. -/
  | cadenceFrameStart (c : Fin 32)
  /-- TB_RATE_WRITE (R387): A write of TB_RATE_HI applies the new RATE in the next tick. -/
  | tbRateWrite (r : Req) (n : Fin 4) (hi : W32)
  /-- TB_NS_READ (R388): A read of TB_NS latches the seconds and the fraction for the reader. -/
  | tbNsRead (r : Req) (n : Fin 4) (be : Fin 16)
  /-- TB_STEP (R389): A write of TB_STEP_CTL applies, refuses or holds a step of the time base. -/
  | tbStep (r : Req) (n : Fin 4) (ctl : W32)
  /-- COMPARE_ARM (R399): A write of TB_CMP_CTL with EN = 1 arms a compare unit. -/
  | compareArm (r : Req) (n : Fin 4) (u : Fin 32) (ctl : W32)
  /-- COMPARE_FIRE (R399): A compare unit fires when the time base reaches its target. -/
  | compareFire (n : Fin 4) (u : Fin 32)
  /-- PULSE_END (R401): A pulse ends after WIDTH µs. -/
  | pulseEnd (n : Fin 4) (u : Fin 32)
  /-- PTP_TXTS_READ (R402): A read of PTP_TXTS_DATA moves the oldest entry into the latch or returns its next word. -/
  | ptpTxtsRead (r : Req) (prt : Fin 130) (be : Fin 16)
  /-- PORT_CALIBRATED (R391): The latency measurement completes after link-up, so timestamps carry CAL = 1. -/
  | portCalibrated (prt : Fin 130)
  /-- REF_CAND_EVENT (R412): A candidate event is measured and its phase is computed. -/
  | refCandEvent (c : Fin 10) (instant : Int)
  /-- REF_CAND_STOP (R414): A candidate stops and is disqualified, and the selector switches or enters holdover. -/
  | refCandStop (c : Fin 10)
  /-- REF_WINDOW_END (R413): A 1 s frequency window ends and may raise a rate fault. -/
  | refWindowEnd (c : Fin 10) (freq : Int)
  /-- REF_QUALIFY (R413): A candidate has met the conditions for QUAL_TIME and qualifies. -/
  | refQualify (c : Fin 10)
  /-- REF_HOLDOFF_END (R416): A better candidate's hold-off ends, and reversion begins. -/
  | refHoldoffEnd (c : Fin 10)
  /-- REF_LOCK_MET (R417): The lock condition is met, and the selector enters LOCKED. -/
  | refLockMet
  /-- REF_MODE_WRITE (R417): A write of MODE or FORCE_CAND moves the selector under its state table. -/
  | refModeWrite (r : Req) (cfg : W32)
  /-- REALIGN (R422): REF_CMD REALIGN takes Δ and moves Φ and b. -/
  | realign (r : Req) (cmd : W32)
  /-- REALIGN_JUMP (R422): At its next eligible frame start, each counter jumps by Δ. -/
  | realignJump (c : Fin 32)
  /-- HOLD_OSC_STOP (R424): HOLD_OSC stops, and the synthesiser moves to AOCLK. -/
  | holdOscStop
  /-- HOLD_OSC_RETURN (R424): HOLD_OSC has run for 1 s, and the synthesiser returns to it. -/
  | holdOscReturn
  /-- LOS_ASSERT (R209): A lane's amplitude stays below threshold for ASSERT µs, so it reports LOS. -/
  | losAssert (n : Fin 512) (mv us : Nat)
  /-- LOS_CLEAR (R209): The amplitude holds above threshold for CLEAR µs, so LOS clears and the lane is demanded. -/
  | losClear (n : Fin 512) (mv us : Nat)
  /-- LOL_ASSERT (R210): The CDR unlocks or the frequency leaves its limit, so LOL asserts. -/
  | lolAssert (n : Fin 512) (locked : Bool) (freq : Int)
  /-- LOL_CLEAR (R210): The CDR has held lock for 50 µs, so LOL clears. -/
  | lolClear (n : Fin 512) (freq : Int)
  /-- QPLL_UNLOCK (R212): A quad PLL loses lock, and its lanes idle and report LOL. -/
  | qpllUnlock (q : Fin 128)
  /-- QPLL_RELOCK (R212): A quad PLL relocks, and its lanes retrain. -/
  | qpllRelock (q : Fin 128)
  /-- LANE_PARK (R216): A lane idle for 10 ms enters the deepest permitted park state. -/
  | lanePark (n : Fin 512)
  /-- LANE_DEMAND (R217): A demand wakes a parked or parking lane. -/
  | laneDemand (n : Fin 512)
  /-- WAKE (R217): A lane reaches L0 from a park state, late or in time. -/
  | wake (n : Fin 512)
  /-- LANE_TXEQ_WRITE (R203): A LANE_TXEQ write is applied, or is ignored with EQ_RANGE or EQ_BUSY. -/
  | laneTxeqWrite (r : Req) (n : Fin 512) (v : W32)
  /-- LANE_TEST_WRITE (R221): A LANE_TEST write takes the lane in or out of test service. -/
  | laneTestWrite (r : Req) (n : Fin 512) (v : W32)
  /-- INJECT (R218): LANE_TEST.INJECT inverts one transmitted pattern bit. -/
  | inject (r : Req) (n : Fin 512)
  /-- BER_READ (R219): A read of LANE_BER_ERR returns and clears the count and latches BER_TIME. -/
  | berRead (r : Req) (n : Fin 512) (errors : Nat) (be : Fin 16)
  /-- CHECKER_SYNC (R219): The checker synchronises after 64 error-free bits. -/
  | checkerSync (n : Fin 512)
  /-- CHECKER_SYNC_LOSS (R219): More than 1 bit in 8 in error over 1 µs makes the checker lose sync. -/
  | checkerSyncLoss (n : Fin 512) (errors : Nat)
  /-- SLIP (R208): The elastic buffer reaches 8 or 56 blocks and inserts or deletes a filler block. -/
  | slip (n : Fin 512) (inserted : Bool)
  /-- EYE_MEASURE (R229): LANE_EYE is measured each millisecond in L0. -/
  | eyeMeasure (n : Fin 512) (height width : Fin 1024) (snr : Byte) (freq : Int)
  /-- LOCK_FAIL (R245): 1 ms without superframe lock restarts the search. -/
  | lockFail (n : Fin 512)
  /-- SF_LOCK (R244): Superframe lock is gained, leading to TRAIN or UP. -/
  | sfLock (n : Fin 512)
  /-- SF_LOCK_LOST (R244): Superframe lock is lost, and the link returns to LOCK. -/
  | sfLockLost (n : Fin 512)
  /-- NVL_TRAIN_MSG (R248): A TRAIN message is received, a tap request applied, and both RX_READY bring UP. -/
  | nvlTrainMsg (n : Fin 512) (msg : BitVec 56) (ready : Bool)
  /-- TRAIN_TIMEOUT (R245): Training reaches its 3.5 ms limit. -/
  | trainTimeout (n : Fin 512)
  /-- RETRAIN (R245): NVL_CFG.RETRAIN sends an UP link to TRAIN. -/
  | retrain (r : Req) (n : Fin 512)
  /-- NVL_FEC_MODE_WRITE (R245): A write of FEC_MODE restarts the lock search. -/
  | nvlFecModeWrite (r : Req) (n : Fin 512) (mode : Fin 4)
  /-- ROLL_REQ (R247): NVL_CFG.ROLL_REQ sends a ROLL_REQ message while UP. -/
  | rollReq (r : Req) (n : Fin 512)
  /-- ROLL_CALL (R252): A complete roll-call report enters or changes the partner table. -/
  | rollCall (n : Fin 512) (m0 m1 m2 : BitVec 56)
  /-- GONE (R252): 256 superframes without a report invalidate the partner entry. -/
  | gone (n : Fin 512)
  /-- NVL_CRC_BLOCK (R237): A CRC block arrives and judges its covered positions good or bad. -/
  | nvlCrcBlock (n : Fin 512) (payload : BitVec 56) (cells : List Machine.NvlCell) (unknown : Nat)
  /-- NVL_CODEWORD (R240): An FEC codeword is decoded, corrected or marked uncorrectable. -/
  | nvlCodeword (n : Fin 512) (errors : Nat)
  /-- ALARM (R249): An ALARM message updates REMOTE_ALARM. -/
  | alarm (n : Fin 512) (msg : BitVec 56)
  /-- LANE_DATA (R250): A LANE_DATA message updates NVL_REMOTE. -/
  | laneData (n : Fin 512) (msg : BitVec 56)
  /-- PEER_GAP (R246): A superframe of STANDBY_GAP idle blocks sets PEER_GAP. -/
  | peerGap (n : Fin 512)
  /-- NVL_BYPASS_FORWARD (R253): A data block of a bypass input is forwarded into its output's data position. -/
  | nvlBypassForward (d : Fin 1024) (b : Bank) (first second : W32)
  /-- SDI_RASTER_LOCK (R266): Timing reference signals on 3 consecutive lines give raster lock. -/
  | sdiRasterLock (n : Fin 512)
  /-- SDI_RASTER_UNLOCK (R266): Missing or moved timing reference signals lose raster lock. -/
  | sdiRasterUnlock (n : Fin 512)
  /-- SDI_FRAME (R267): A received frame's format is determined from ST 352 and structure. -/
  | sdiFrame (n : Fin 512) (structure_ : Machine.Fmt) (levelB : Bool) (vpid : Option (W32 × Machine.Fmt)) (ltc vitc : Option (BitVec 27))
  /-- SDI_LINE (R268): A received line is converted and its CRC and line number checked. -/
  | sdiLine (n : Fin 512) (line count : Nat) (crcOk : Bool) (samples : List (BitVec 16)) (ago : Nat)
  /-- SDI_ANC_PACKET (R269): A received ancillary packet is extracted or dropped. -/
  | sdiAncPacket (n : Fin 512) (horiz chroma : Bool) (pos : Nat) (words : List (BitVec 10))
  /-- SDI_RATE_DETECT (R265): The CDR locks to a new rate and sets RATE. -/
  | sdiRateDetect (n : Fin 512) (rate : Fin 11)
  /-- LINK_SKEW (R270): Dual-link skew above 1 µs stops the converter. -/
  | linkSkew (n : Fin 512)
  /-- SDI_TX_FRAME (R273): The output stage builds a complete serial raster for an output frame. -/
  | sdiTxFrame (n : Fin 512)
  /-- ETH_FRAME_RECEIVE (R284): A whole Ethernet frame is checked, classified and converted or queued. -/
  | ethFrameReceive (prt : Fin 130) (bytes : List Byte) (invalid : Bool) (frac : Fin 262144) (corr uncorr : Nat)
  /-- ETH_CRX_READ (R287): A read of ETH_CRX_DATA returns and removes the next word. -/
  | ethCrxRead (r : Req) (prt : Fin 130) (be : Fin 16)
  /-- PACKET_LAUNCH (R301): At a block boundary, the scheduler starts the ready packet with the earliest launch time. -/
  | packetLaunch (prt : Fin 128)
  /-- CONTROL_GAP (R301): A control gap begins at each multiple of CTRL_PERIOD. -/
  | controlGap (prt : Fin 128)
  /-- CTX_DATA (R303): A write of ETH_CTX_DATA appends a word to the entry being written. -/
  | ctxData (r : Req) (prt : Fin 130) (v : W32)
  /-- CTX_COMMIT (R303): COMMIT queues the entry, or discards it with CTX_ERR. -/
  | ctxCommit (r : Req) (prt : Fin 130)
  /-- CTX_ABORT (R303): ABORT discards the entry being written. -/
  | ctxAbort (r : Req) (prt : Fin 130)
  /-- CONTROL_FRAME_SEND (R303): A queued control frame is sent at or after its launch time. -/
  | controlFrameSend (prt : Fin 130) (frac : Fin 262144)
  /-- ETH_SNAP (R305): ETH_SNAP.GO copies every counter into the writer's snapshot. -/
  | ethSnap (r : Req) (prt : Fin 130)
  /-- PAUSE_RECEIVE (R306): A PAUSE frame is counted, and on a management port starts or ends a pause. -/
  | pauseReceive (prt : Fin 130) (quanta : Fin 65536)
  /-- PAUSE_EXPIRE (R306): A pause's time runs out. -/
  | pauseExpire (prt : Fin 130)
  /-- RRP_REQUEST (R308): An RRP datagram executes as its host's requester and is answered. -/
  | rrpRequest (h : Fin 4) (ahead : Fin 17)
  /-- NOTIFY_SEND (R310): Events gathered for 100 µs are sent as a NOTIFY. -/
  | notifySend (h : Fin 4)
  /-- NOTIFY_RETRY (R310): An unacknowledged NOTIFY is resent every 1 ms, up to 16 times. -/
  | notifyRetry (h : Fin 4)
  /-- NOTIFY_ACK (R310): A NOTIFY_ACK ends the outstanding NOTIFY. -/
  | notifyAck (h : Fin 4) (seq : Byte)
  /-- LINK_UP (R283): A port's link comes up. -/
  | linkUp (prt : Fin 130)
  /-- LINK_DOWN (R283): A port's link goes down and its flow copies go ABSENT. -/
  | linkDown (prt : Fin 130) (localFault remoteFault : Bool)
  /-- FLOW_ADDR_WRITE (R293): A delivered flow address write reclassifies the copy. -/
  | flowAddrWrite (r : Req) (f : Fin 4096) (reg : Machine.FlowAddr) (v : W32)
  /-- FLOW_ENABLE_WRITE (R299): An EN write is applied, or ignored with OVERBOOK or NO_BUF. -/
  | flowEnableWrite (r : Req) (tx : Bool) (f : Fin 4096) (v : W32)
  /-- HBM_REFRESH_BOUNDARY (R439): A refresh interval boundary raises the owed count, closing at eight owed. -/
  | hbmRefreshBoundary (sd : Side) (p : Fin 32)
  /-- HBM_REFRESH_ISSUE (R439): An idle pseudo-channel issues an owed refresh. -/
  | hbmRefreshIssue (sd : Side) (p : Fin 32)
  /-- HBM_TEMP_READ (R440): A stack temperature reading switches the refresh rate at 85 °C or 82 °C. -/
  | hbmTempRead (sd : Side) (temp : Int)
  /-- HBM_RETRAIN_PASS (R445): A retraining pass runs and updates or keeps the delays. -/
  | hbmRetrainPass (sd : Side) (p : Fin 32) (found : Option (List Nat))
  /-- PAR_ALERT (R447): A parity alert triggers a replay of buffered commands. -/
  | parAlert (sd : Side) (p : Fin 32) (ok : Bool) (reads : Nat)
  /-- HBM_UNCORR_READ (R448): An uncorrectable read returns poisoned data and drives the Assay line. -/
  | hbmUncorrRead (sd : Side) (p : Fin 32)
  /-- HBM_REQUEST_PROMOTE (R437): A request waiting longer than AGE is promoted. -/
  | hbmRequestPromote (sd : Side) (p : Fin 32) (id waited : Nat)
  /-- LATE (R438): A read returns after its use time, and the consumer uses fill. -/
  | late (sd : Side) (k : Fin 6) (user : Nat)
  /-- HBM_ACTIVATE (R443): A row activate updates the table and may issue refresh management. -/
  | hbmActivate (sd : Side) (p : Fin 32) (row : Nat)
  /-- HBM_RH_WINDOW (R443): The activate table empties every 32 ms. -/
  | hbmRhWindow (sd : Side) (p : Fin 32)
  /-- HBM_SCRUB (R449): Patrol scrub reads and corrects a backed page. -/
  | hbmScrub (sd : Side) (p : Fin 32) (ctrl odie uncorr : Nat)
  /-- SRAM_SCRUB (R451): Background scrub reads SRAM words and handles errors. -/
  | sramScrub (sd : Side) (area : Machine.SramArea) (corrected : Nat) (uncorr : Option Nat)
  /-- HBM_SELF_REFRESH_EXIT (R442): Leaving self-refresh runs a retraining pass before requests. -/
  | hbmSelfRefreshExit (sd : Side) (found : List (Option (List Nat)))
  /-- HOP_PUSH (R453): A push adds a word, overwriting or discarding when full. -/
  | hopPush (r : Req) (sd : Side) (q : Fin 64) (v : W32)
  /-- HOP_COMMIT (R453): COMMIT makes the open packet visible. -/
  | hopCommit (r : Req) (sd : Side) (q : Fin 64)
  /-- HOP_ABORT (R453): ABORT discards the open packet. -/
  | hopAbort (r : Req) (sd : Side) (q : Fin 64)
  /-- HOP_POP (R454): A read of HOP_POP returns and removes the next word. -/
  | hopPop (r : Req) (sd : Side) (q : Fin 64) (ecc : Machine.Ecc) (be : Fin 16)
  /-- HOP_CFG_WRITE (R452): A HOP_CFG write resets the Hopper or configures it. -/
  | hopCfgWrite (r : Req) (sd : Side) (q : Fin 64) (v : W32)
  /-- STR_LOCK_GO (R476): STR_LOCK.GO requests a lock on a target. -/
  | strLockGo (r : Req) (t : Fin 16)
  /-- STR_LOCK_GRANT (R476): A waiting lock request is granted. -/
  | strLockGrant (t : Fin 12)
  /-- STR_LOCK_RELEASE (R477): STR_LOCK.RELEASE releases or withdraws a lock. -/
  | strLockRelease (r : Req)
  /-- LOCK_FORCED (R478): A lock is released by force after 64 beats or 2 µs. -/
  | lockForced (r : Req)
  /-- WIN_DATA_ACCESS (R481): A window access reaches WIN_ADDR of the target and advances it. -/
  | winDataAccess (r : Req) (data : Option W32) (be : Fin 16) (ahead : Fin 17)
  /-- WIN_ADDR_WRITE (R483): A write of WIN_ADDR or WIN_CTL discards the prefetch buffer. -/
  | winAddrWrite (r : Req) (reg : Machine.WinReg) (v : W32)
  /-- SPI_FRAME (R467): A service-port frame executes its read or write words as requester 7. -/
  | spiFrame (op : Byte) (addr : W32) (words : List W32) (ahead : Fin 17)
  /-- SPI_TRUNC (R468): SPI_CS_N rises within a word and the frame ends. -/
  | spiTrunc (inFlight : Option W32)
  /-- MBX_LOCK_READ (R493): A read of MBX_LOCK takes a FREE mailbox or returns the owner. -/
  | mbxLockRead (r : Req) (b : Fin 32) (be : Fin 16)
  /-- MBX_MSG_WRITE (R493): The owner writes a message word. -/
  | mbxMsgWrite (r : Req) (b : Fin 32) (w : Fin 16) (v : W32)
  /-- MBX_DOORBELL (R493): RING marks the mailbox FULL and sets MBX_FULL. -/
  | mbxDoorbell (r : Req) (b : Fin 32) (v : W32)
  /-- MBX_ACK_WRITE (R493): The receiver acknowledges a FULL mailbox. -/
  | mbxAckWrite (r : Req) (b : Fin 32) (v : W32)
  /-- MBX_RELEASE (R493): RELEASE frees the mailbox, or is ignored with REL_BUSY. -/
  | mbxRelease (r : Req) (b : Fin 32) (v : W32)
  /-- MBX_CFG_WRITE (R503): A write of RECEIVER while FREE changes the receiver. -/
  | mbxCfgWrite (r : Req) (b : Fin 32) (v : W32)
  /-- EVT_STATUS_WRITE (R501): Written 1s clear STATUS of admitted sources. -/
  | evtStatusWrite (r : Req) (k : Fin 48) (v : W32)
  /-- EVT_ENABLE_WRITE (R501): A write of EVT_ENABLE changes enables and recomputes assertions. -/
  | evtEnableWrite (r : Req) (k : Fin 48) (v : W32)
  /-- EVT_ROUTE_WRITE (R501): A write of EVT_ROUTE changes a source's destination. -/
  | evtRouteWrite (r : Req) (e : Fin 1536) (v : W32)
  /-- EVT_SET_WRITE (R501): EVT_SET sets STATUS of FW or SW sources. -/
  | evtSetWrite (r : Req) (k : Fin 48) (v : W32)
  /-- EVENT_FIRE (R498): A source's ACTIVE rises and its destination is asserted. -/
  | eventFire
  /-- MSIX_UNBLOCK (R500): A lifted mask or enable sends the message of a still asserted vector. -/
  | msixUnblock (p : Fin 2) (bme en : Bool) (masks : BitVec 64)
  /-- BEGIN (R535): BEGIN opens or resumes a download session. -/
  | updBegin
  /-- DATA (R535): DATA stores one part of a piece. -/
  | updData
  /-- PIECE_END (R537): PIECE_END commits a piece to the journal when complete and hashed. -/
  | updPieceEnd (flashOk : Bool)
  /-- STATUS (R535): STATUS returns the lowest uncommitted piece. -/
  | updStatus
  /-- VERIFY (R538): VERIFY builds and checks the target in the inactive slots. -/
  | updVerify (built : Option (List W32)) (change : Machine.Change) (flashOk : Bool)
  /-- ACTIVATE (R539): ACTIVATE marks the new slot active on the standby's flash and resets the standby. -/
  | updActivate (flashOk : Bool)
  /-- CONFIRM (R539): CONFIRM confirms the first Side, switches over and activates the second. -/
  | updConfirm (flashOk : Bool)
  /-- ABORT (R539): ABORT discards the session or restores the previous slot. -/
  | updAbort
  /-- APPLY (R531): APPLY applies a verified structure image. -/
  | updApply
  /-- ATTEST (R547): ATTEST writes a signed report into the reply mailbox. -/
  | updAttest
  /-- TRIAL_DONE (R539): The new Side has been in step for TRIAL seconds. -/
  | trialDone
  /-- SECOND_DONE (R539): The second Side in step for TRIAL completes the update and raises the SVN. -/
  | secondDone
  /-- SIDE_IMAGE_STEP (R532): The standby in step advances a Side image to its next step. -/
  | sideImageStep
  /-- SIDE_IMAGE_TIMEOUT (R532): No standby in step within 10 s ends the Side image with NOT_IN_STEP. -/
  | sideImageTimeout
  /-- CLAIM (R545): A CLAIM token burns the first owner key hash. -/
  | secClaim (r : Req)
  /-- TRANSFER (R545): A TRANSFER token burns a new owner key hash. -/
  | secTransfer (r : Req)
  /-- DEBUG_UNLOCK (R545): A DEBUG_UNLOCK token enables M7 as requester REQ for MINUTES. -/
  | debugUnlock (r : Req)
  /-- RELOCK (R545): SEC_TOKEN_CTL.RELOCK ends a debug unlock. -/
  | relock (r : Req)
  /-- DEBUG_UNLOCK_EXPIRY (R545): The unlock's minutes run out. -/
  | debugUnlockExpiry
  /-- PARK_LANE_DECL_WRITE (R559): A lane-group declaration takes effect and wakes lanes no longer permitted. -/
  | parkLaneDeclWrite (r : Req) (g : Fin 64) (v : W32)
  /-- PARK_ENG_DECL_WRITE (R559): An engine declaration takes effect and wakes units no longer permitted. -/
  | parkEngDeclWrite (r : Req) (k : Fin 4) (v : W32)
  /-- PARK_HOST_WRITE (R560): A write of PARK_HOST enables or parks the host region. -/
  | parkHostWrite (r : Req) (v : W32)
  /-- ENGINE_IDLE_DEEP (R557): A unit idle for 1 ms enters E2 when permitted. -/
  | engineIdleDeep (k : Fin 4) (u : Fin 1024)
  /-- ENGINE_DEMAND (R558): A unit given work starts after the engine wake time. -/
  | engineDemand (k : Fin 4) (u : Fin 1024)
  /-- BYPASS_SUPPLY_LOSS (R568): VDD_AO or VDDIO leaves its ±8 % range and the Harif bypass closes within 1 µs without any reset. -/
  | bypassSupplyLoss
  /-- PCIE_LINK_UP (R488): A PCI Express host port completes link training and STR_HP_STAT.LINK_UP rises, so its master can issue again. -/
  | pcieLinkUp (p : Fin 2) (speed width : Fin 6)
  /-- BLOCK_LOCK_LOST (R244): A Nervor receiver sees 16 invalid headers within 64 blocks and loses block lock. -/
  | blockLockLost (n : Fin 512)
deriving DecidableEq, Repr

end Sys2Proof
end

