-- ==== Sys2Proof/Decode.lean ====
section
/-!
DEFINITION. The commands that words spell.  The EK1024 is a block: spec/opcode_table.json gives none of its rows any bits, so no word spells a
command.
-/
namespace Sys2Proof

/-- The command that the `nbits` bits of `w` spell by the table's bits: none, for no row has bits. -/
def decodeTableWord (_nbits _w : Nat) : Option Instr := none

end Sys2Proof
end

