-- ==== Sys2Proof/Machine/Fields.lean ====
section
/-!
DEFINITION. The fields of the registers, by register and field name, at the bits the chapters' field tables give them.
-/
namespace Sys2Proof.Machine.F

abbrev SYS_ID_DEVICE : Fld := ⟨0, 16⟩
abbrev SYS_ID_MEMBER : Fld := ⟨16, 4⟩
abbrev SYS_ID_STEPPING : Fld := ⟨20, 4⟩
abbrev SYS_STATUS_PARTIAL_WR : Fld := ⟨0, 1⟩
abbrev SYS_STATUS_TWIN_ONLY : Fld := ⟨1, 1⟩
abbrev SYS_RESET_CAUSE_CAUSE : Fld := ⟨0, 2⟩
abbrev SYS_POWER_TIM_GOOD : Fld := ⟨0, 1⟩
abbrev SYS_POWER_IO_GOOD : Fld := ⟨1, 1⟩
abbrev SYS_POWER_SIDE_A_GOOD : Fld := ⟨2, 1⟩
abbrev SYS_POWER_SIDE_B_GOOD : Fld := ⟨3, 1⟩
abbrev SYS_POWER_BANK_E_GOOD : Fld := ⟨4, 1⟩
abbrev SYS_POWER_BANK_W_GOOD : Fld := ⟨5, 1⟩
abbrev SYS_POWER_PWR_EN_A : Fld := ⟨6, 1⟩
abbrev SYS_POWER_PWR_EN_B : Fld := ⟨7, 1⟩
abbrev SYS_POWER_PG_A : Fld := ⟨8, 1⟩
abbrev SYS_POWER_PG_B : Fld := ⟨9, 1⟩
abbrev SYS_POWER_HOST_ON : Fld := ⟨10, 1⟩
abbrev SYS_EVT_TEMP_HIGH : Fld := ⟨0, 1⟩
abbrev SYS_EVT_RAIL_FAIL : Fld := ⟨1, 1⟩
abbrev SYS_EVT_PG_LATE : Fld := ⟨2, 1⟩
abbrev SYS_UPTIME_SECONDS : Fld := ⟨0, 32⟩
abbrev SYS_TEMP_TEMP : Fld := ⟨0, 8⟩
abbrev SYS_TEMP_MAX : Fld := ⟨8, 8⟩
abbrev PARK_LANE_DECL_VALUE : Fld := ⟨0, 20⟩
abbrev PARK_LANE_DECL_UNIT : Fld := ⟨20, 2⟩
abbrev PARK_LANE_STAT_DEEPEST : Fld := ⟨0, 2⟩
abbrev PARK_LANE_STAT_LANES : Fld := ⟨2, 10⟩
abbrev PARK_LANE_STAT_PARKED : Fld := ⟨12, 10⟩
abbrev PARK_ENG_DECL_VALUE : Fld := ⟨0, 20⟩
abbrev PARK_ENG_DECL_UNIT : Fld := ⟨20, 2⟩
abbrev PARK_ENG_STAT_DEEP : Fld := ⟨0, 1⟩
abbrev PARK_ENG_STAT_IDLE_A : Fld := ⟨2, 11⟩
abbrev PARK_ENG_STAT_IDLE_B : Fld := ⟨13, 11⟩
abbrev PARK_HOST_HP0_EN : Fld := ⟨0, 1⟩
abbrev PARK_HOST_HP1_EN : Fld := ⟨1, 1⟩
abbrev PARK_HOST_PARKED : Fld := ⟨2, 1⟩
abbrev RFE_CFG_MODE : Fld := ⟨0, 1⟩
abbrev RFE_CFG_LOCAL_FO : Fld := ⟨1, 1⟩
abbrev RFE_LEASE_PERIOD : Fld := ⟨0, 17⟩
abbrev RFE_WDOG_PERIOD_WDOG : Fld := ⟨0, 17⟩
abbrev RFE_TOLERANCE_VALUE : Fld := ⟨0, 20⟩
abbrev RFE_TOLERANCE_UNIT : Fld := ⟨20, 2⟩
abbrev RFE_STATE_STATE : Fld := ⟨0, 2⟩
abbrev RFE_STATE_QUIET : Fld := ⟨2, 1⟩
abbrev RFE_STATE_READY_A : Fld := ⟨3, 1⟩
abbrev RFE_STATE_READY_B : Fld := ⟨4, 1⟩
abbrev RFE_STATE_STEP_A : Fld := ⟨5, 1⟩
abbrev RFE_STATE_STEP_B : Fld := ⟨6, 1⟩
abbrev RFE_STATE_ISO_A : Fld := ⟨7, 1⟩
abbrev RFE_STATE_ISO_B : Fld := ⟨8, 1⟩
abbrev RFE_STATE_CLASS : Fld := ⟨9, 2⟩
abbrev RFE_STATE_EXT_ACTIVE : Fld := ⟨11, 1⟩
abbrev RFE_STATE_VOTE_DEGRADED : Fld := ⟨12, 1⟩
abbrev RFE_CMD_OP : Fld := ⟨0, 3⟩
abbrev RFE_CMD_CADENCE : Fld := ⟨3, 5⟩
abbrev RFE_SWO_FRAME_FRAME : Fld := ⟨0, 32⟩
abbrev RFE_CMD_RES_STATUS : Fld := ⟨0, 4⟩
abbrev RFE_CMD_RES_PENDING : Fld := ⟨4, 1⟩
abbrev RFE_EVT_GRANT : Fld := ⟨0, 1⟩
abbrev RFE_EVT_FAILOVER : Fld := ⟨1, 1⟩
abbrev RFE_EVT_PLANNED : Fld := ⟨2, 1⟩
abbrev RFE_EVT_EXPIRY : Fld := ⟨3, 1⟩
abbrev RFE_EVT_NO_STANDBY : Fld := ⟨4, 1⟩
abbrev RFE_EVT_NONE : Fld := ⟨5, 1⟩
abbrev RFE_EVT_CONFLICT_A : Fld := ⟨6, 1⟩
abbrev RFE_EVT_CONFLICT_B : Fld := ⟨7, 1⟩
abbrev RFE_EVT_VOTE_MISMATCH : Fld := ⟨8, 1⟩
abbrev RFE_EVT_EXT_DISAGREE : Fld := ⟨9, 1⟩
abbrev RFE_EVT_EXT_TIMEOUT : Fld := ⟨10, 1⟩
abbrev RFE_EVT_QUIET : Fld := ⟨11, 1⟩
abbrev RFE_EVT_CLASS_CHANGE : Fld := ⟨12, 1⟩
abbrev RFE_EVT_STEP_LOST : Fld := ⟨13, 1⟩
abbrev RFE_EVT_STEP_GAINED : Fld := ⟨14, 1⟩
abbrev RFE_EVT_CONTENT_LOST : Fld := ⟨15, 1⟩
abbrev RFE_LAST_CAUSE : Fld := ⟨0, 3⟩
abbrev RFE_LAST_FROM : Fld := ⟨3, 1⟩
abbrev RFE_LAST_UNSTEPPED : Fld := ⟨4, 1⟩
abbrev RFE_LAST_LINE : Fld := ⟨5, 6⟩
abbrev RFE_RESYNC_PHASE : Fld := ⟨0, 2⟩
abbrev RFE_RESYNC_LAST_US : Fld := ⟨2, 24⟩
abbrev RFE_WARM_LAT_LW : Fld := ⟨0, 24⟩
abbrev SLU_CFG_CADENCE : Fld := ⟨0, 5⟩
abbrev SLU_CFG_STEP_EXCL : Fld := ⟨5, 1⟩
abbrev SLU_STAT_SEL : Fld := ⟨0, 1⟩
abbrev SLU_STAT_GAP : Fld := ⟨1, 1⟩
abbrev SLU_STAT_STEP_OK : Fld := ⟨2, 1⟩
abbrev SLU_STAT_ALIGNED_A : Fld := ⟨3, 1⟩
abbrev SLU_STAT_ALIGNED_B : Fld := ⟨4, 1⟩
abbrev SLU_STAT_UNIT : Fld := ⟨5, 2⟩
abbrev SLU_STAT_MATCH_RUN : Fld := ⟨7, 5⟩
abbrev SLU_EVT_MISMATCH : Fld := ⟨0, 1⟩
abbrev SLU_EVT_PAR_A : Fld := ⟨1, 1⟩
abbrev SLU_EVT_PAR_B : Fld := ⟨2, 1⟩
abbrev SLU_EVT_UNALIGNED : Fld := ⟨3, 1⟩
abbrev SLU_EVT_FLIP : Fld := ⟨4, 1⟩
abbrev SLU_EVT_GAP : Fld := ⟨5, 1⟩
abbrev SLU_EVT_REPAIR : Fld := ⟨6, 1⟩
abbrev HAF_CFG_STATION : Fld := ⟨0, 3⟩
abbrev HAF_CFG_ENABLE : Fld := ⟨3, 1⟩
abbrev HAF_CFG_TIMEOUT : Fld := ⟨8, 8⟩
abbrev HAF_STAT_RING_OK : Fld := ⟨0, 1⟩
abbrev HAF_STAT_SEEN : Fld := ⟨1, 4⟩
abbrev HAF_STAT_DECISION : Fld := ⟨5, 3⟩
abbrev HAF_STAT_DSEQ : Fld := ⟨8, 8⟩
abbrev HAF_EVT_RING_LOST : Fld := ⟨0, 1⟩
abbrev HAF_EVT_RING_BACK : Fld := ⟨1, 1⟩
abbrev HAF_EVT_CRC_ERR : Fld := ⟨2, 1⟩
abbrev HAF_EVT_DECISION : Fld := ⟨3, 1⟩
abbrev HAF_EVT_TALLY : Fld := ⟨4, 1⟩
abbrev HAF_EVT_STALE : Fld := ⟨5, 1⟩
abbrev ASY_STATUS0_STATUS : Fld := ⟨0, 32⟩
abbrev ASY_STATUS1_STATUS : Fld := ⟨0, 9⟩
abbrev ASY_LIVE0_LIVE : Fld := ⟨0, 32⟩
abbrev ASY_LIVE1_LIVE : Fld := ⟨0, 9⟩
abbrev ASY_EVMASK0_MASK : Fld := ⟨0, 32⟩
abbrev ASY_EVMASK1_MASK : Fld := ⟨0, 9⟩
abbrev ASY_HIST_STAT_HEAD : Fld := ⟨0, 5⟩
abbrev ASY_HIST_STAT_COUNT : Fld := ⟨5, 6⟩
abbrev ASY_HIST_STAT_DEGRADED_SHARED : Fld := ⟨11, 1⟩
abbrev ASY_HIST_STAT_SEQ : Fld := ⟨16, 16⟩
abbrev ASY_ISO_CFG_QUIET : Fld := ⟨0, 16⟩
abbrev ASY_ISO_CFG_LIMIT : Fld := ⟨16, 8⟩
abbrev ASY_ISO_CFG_WINDOW : Fld := ⟨24, 8⟩
abbrev ASY_CTL_FIRST_CLR : Fld := ⟨0, 1⟩
abbrev ASY_CTL_UNLATCH_A : Fld := ⟨1, 1⟩
abbrev ASY_CTL_UNLATCH_B : Fld := ⟨2, 1⟩
abbrev ASY_SIDE_STAT_ISOLATED : Fld := ⟨0, 1⟩
abbrev ASY_SIDE_STAT_LATCHED : Fld := ⟨1, 1⟩
abbrev ASY_SIDE_STAT_DEGRADED : Fld := ⟨2, 1⟩
abbrev ASY_SIDE_STAT_HELD : Fld := ⟨3, 1⟩
abbrev ASY_SIDE_STAT_QUIET_LEFT : Fld := ⟨4, 16⟩
abbrev ASY_RECOV_COUNT_COUNT : Fld := ⟨0, 16⟩
abbrev ASY_FW_FATAL : Fld := ⟨0, 1⟩
abbrev ASY_FW_DEGRADE : Fld := ⟨1, 1⟩
abbrev ASY_FW_NOTICE : Fld := ⟨2, 1⟩
abbrev ASY_FW_CTX : Fld := ⟨8, 24⟩
abbrev ASY_SEV_SEV : Fld := ⟨0, 2⟩
abbrev EVT_STATUS_STATUS : Fld := ⟨0, 32⟩
abbrev EVT_ENABLE_ENABLE : Fld := ⟨0, 32⟩
abbrev EVT_ACTIVE_ACTIVE : Fld := ⟨0, 32⟩
abbrev EVT_SET_SET : Fld := ⟨0, 32⟩
abbrev EVT_ROUTE_DEST : Fld := ⟨0, 3⟩
abbrev EVT_ROUTE_VECTOR : Fld := ⟨3, 6⟩
abbrev EVT_ROUTE_HOST : Fld := ⟨9, 2⟩
abbrev EVT_ROUTE_CPU : Fld := ⟨11, 2⟩
abbrev MBX_MSG_DATA : Fld := ⟨0, 32⟩
abbrev MBX_LOCK_OWNER : Fld := ⟨0, 4⟩
abbrev MBX_DOORBELL_RING : Fld := ⟨0, 1⟩
abbrev MBX_ACK_CODE : Fld := ⟨0, 16⟩
abbrev MBX_ACK_SEQ : Fld := ⟨16, 8⟩
abbrev MBX_ACK_VALID : Fld := ⟨31, 1⟩
abbrev MBX_CTL_RELEASE : Fld := ⟨0, 1⟩
abbrev MBX_STAT_STATE : Fld := ⟨0, 2⟩
abbrev MBX_STAT_OWNER : Fld := ⟨2, 4⟩
abbrev MBX_STAT_RECEIVER : Fld := ⟨6, 4⟩
abbrev MBX_EVT_WRITE_WHILE_FULL : Fld := ⟨0, 1⟩
abbrev MBX_EVT_REL_BUSY : Fld := ⟨1, 1⟩
abbrev MBX_EVT_ACK_ERR : Fld := ⟨2, 1⟩
abbrev MBX_EVT_FORCED : Fld := ⟨3, 1⟩
abbrev MBX_CFG_RECEIVER : Fld := ⟨0, 4⟩
abbrev STR_ERR_DENIED : Fld := ⟨0, 1⟩
abbrev STR_ERR_UNMAPPED : Fld := ⟨1, 1⟩
abbrev STR_ERR_NOT_TWIN : Fld := ⟨2, 1⟩
abbrev STR_ERR_LOCK_BROKEN : Fld := ⟨3, 1⟩
abbrev STR_ERR_LOCK_ERR : Fld := ⟨4, 1⟩
abbrev STR_ERR_ADDR_WIN : Fld := ⟨0, 1⟩
abbrev STR_ERR_ADDR_ADDR : Fld := ⟨2, 30⟩
abbrev STR_ID_REQ : Fld := ⟨0, 4⟩
abbrev STR_ID_MASTER : Fld := ⟨4, 3⟩
abbrev STR_LOCK_TARGET : Fld := ⟨0, 4⟩
abbrev STR_LOCK_GO : Fld := ⟨4, 1⟩
abbrev STR_LOCK_RELEASE : Fld := ⟨5, 1⟩
abbrev STR_LOCK_STAT_TARGET : Fld := ⟨0, 4⟩
abbrev STR_LOCK_STAT_WAITING : Fld := ⟨4, 1⟩
abbrev STR_LOCK_STAT_GRANTED : Fld := ⟨5, 1⟩
abbrev STR_LOCK_STAT_BEATS : Fld := ⟨6, 7⟩
abbrev STR_EVT_MRESET : Fld := ⟨0, 1⟩
abbrev STR_EVT_LOCK_FORCED : Fld := ⟨1, 1⟩
abbrev STR_EVT_SPI_TRUNC : Fld := ⟨2, 1⟩
abbrev STR_MCFG_QOS : Fld := ⟨0, 4⟩
abbrev STR_MCFG_ACTIVE : Fld := ⟨4, 1⟩
abbrev STR_PATH_PATHS : Fld := ⟨0, 12⟩
abbrev STR_HP_STAT_LINK_UP : Fld := ⟨0, 1⟩
abbrev STR_HP_STAT_SPEED : Fld := ⟨1, 3⟩
abbrev STR_HP_STAT_WIDTH : Fld := ⟨4, 3⟩
abbrev STR_HP_STAT_BME : Fld := ⟨7, 1⟩
abbrev STR_HP_STAT_MSIX_EN : Fld := ⟨8, 1⟩
abbrev STR_HP_STAT_RESETS : Fld := ⟨16, 8⟩
abbrev STR_SLICE_SLICES : Fld := ⟨0, 24⟩
abbrev STR_MRESET_LOG_MASTER : Fld := ⟨0, 3⟩
abbrev STR_MRESET_LOG_TARGET : Fld := ⟨3, 4⟩
abbrev STR_MRESET_LOG_ZERO_BEATS : Fld := ⟨7, 5⟩
abbrev STR_MRESET_LOG_DISCARDED : Fld := ⟨12, 5⟩
abbrev STR_MRESET_LOG_LOCK : Fld := ⟨17, 1⟩
abbrev STR_MRESET_LOG_REQ : Fld := ⟨18, 4⟩
abbrev STR_PART_DEST_LO : Fld := ⟨0, 11⟩
abbrev STR_PART_DEST_HI : Fld := ⟨16, 11⟩
abbrev STR_PART_DEST_VALID : Fld := ⟨31, 1⟩
abbrev STR_PART_HEADS_HEADS : Fld := ⟨0, 32⟩
abbrev STR_PART_MISC_TBS : Fld := ⟨0, 4⟩
abbrev STR_PART_MISC_REF_OWNER : Fld := ⟨4, 1⟩
abbrev STR_PART_MISC_RFE_OWNER : Fld := ⟨5, 1⟩
abbrev WIN_CTL_TARGET : Fld := ⟨0, 4⟩
abbrev WIN_CTL_FIXED : Fld := ⟨4, 1⟩
abbrev WIN_ADDR_LO_ADDR : Fld := ⟨2, 30⟩
abbrev WIN_ADDR_HI_ADDR : Fld := ⟨0, 8⟩
abbrev WIN_STAT_PREFETCHED : Fld := ⟨0, 5⟩
abbrev WIN_DATA_DATA : Fld := ⟨0, 32⟩
abbrev TB_CFG_DOMAIN : Fld := ⟨0, 8⟩
abbrev TB_CFG_FOLLOW : Fld := ⟨8, 1⟩
abbrev TB_NS_NS : Fld := ⟨0, 30⟩
abbrev TB_SEC_LO_SEC : Fld := ⟨0, 32⟩
abbrev TB_SEC_HI_SEC : Fld := ⟨0, 16⟩
abbrev TB_SEC_HI_FRAC : Fld := ⟨16, 16⟩
abbrev TB_RATE_LO_RATE : Fld := ⟨0, 32⟩
abbrev TB_RATE_HI_RATE : Fld := ⟨0, 8⟩
abbrev TB_STEP_LO_AMOUNT : Fld := ⟨0, 32⟩
abbrev TB_STEP_HI_AMOUNT : Fld := ⟨0, 32⟩
abbrev TB_STEP_FRAC_FRAC : Fld := ⟨0, 16⟩
abbrev TB_STEP_CTL_FORCE : Fld := ⟨0, 1⟩
abbrev TB_STEP_CTL_ABS : Fld := ⟨1, 1⟩
abbrev TB_STEP_LIMIT_LIMIT : Fld := ⟨0, 32⟩
abbrev TB_STAT_REFUSED : Fld := ⟨0, 1⟩
abbrev TB_STAT_SET : Fld := ⟨1, 1⟩
abbrev TB_EVT_STEP_DONE : Fld := ⟨0, 1⟩
abbrev TB_EVT_STEP_REFUSED : Fld := ⟨1, 1⟩
abbrev TB_EVT_HELD : Fld := ⟨2, 1⟩
abbrev TB_EVT_RATE_CLAMP : Fld := ⟨3, 1⟩
abbrev TB_EVT_CMP_PAST : Fld := ⟨4, 1⟩
abbrev TB_LAST_STEP_LO_STEP : Fld := ⟨0, 32⟩
abbrev TB_LAST_STEP_HI_STEP : Fld := ⟨0, 32⟩
abbrev TB_CMP_LO_T : Fld := ⟨0, 32⟩
abbrev TB_CMP_HI_T : Fld := ⟨0, 32⟩
abbrev TB_CMP_PER_PER : Fld := ⟨0, 32⟩
abbrev TB_CMP_FRAC_PER_FRAC : Fld := ⟨0, 16⟩
abbrev TB_CMP_FRAC_TFRAC : Fld := ⟨16, 16⟩
abbrev TB_CMP_CTL_EN : Fld := ⟨0, 1⟩
abbrev TB_CMP_CTL_PERIODIC : Fld := ⟨1, 1⟩
abbrev TB_CMP_CTL_PULSE_EN : Fld := ⟨2, 1⟩
abbrev TB_CMP_CTL_LINE : Fld := ⟨3, 3⟩
abbrev TB_CMP_CTL_WIDTH : Fld := ⟨6, 15⟩
abbrev PTP_PORT_CFG_TB : Fld := ⟨0, 2⟩
abbrev PTP_PORT_CFG_TB_EN : Fld := ⟨2, 4⟩
abbrev PTP_PORT_CFG_ASYM_EN : Fld := ⟨6, 1⟩
abbrev PTP_PORT_CFG_ONE_STEP : Fld := ⟨7, 1⟩
abbrev PTP_INGRESS_VALUE : Fld := ⟨0, 32⟩
abbrev PTP_EGRESS_VALUE : Fld := ⟨0, 32⟩
abbrev PTP_ASYM_VALUE : Fld := ⟨0, 32⟩
abbrev PTP_TXTS_DATA_DATA : Fld := ⟨0, 32⟩
abbrev PTP_TXTS_STAT_ENTRIES : Fld := ⟨0, 7⟩
abbrev PTP_TXTS_STAT_LATCHED : Fld := ⟨7, 3⟩
abbrev PTP_PORT_EVT_TXTS_SPOIL : Fld := ⟨0, 1⟩
abbrev PTP_PORT_EVT_UNCAL : Fld := ⟨1, 1⟩
abbrev REF_CFG_MODE : Fld := ⟨0, 2⟩
abbrev REF_CFG_FORCE_CAND : Fld := ⟨2, 4⟩
abbrev REF_CFG_REVERT : Fld := ⟨6, 1⟩
abbrev REF_CFG_AUTO_ALIGN : Fld := ⟨7, 1⟩
abbrev REF_CFG_BW : Fld := ⟨8, 10⟩
abbrev REF_CFG_HOLD_MHZ : Fld := ⟨18, 7⟩
abbrev REF_TIMING_QUAL_TIME : Fld := ⟨0, 10⟩
abbrev REF_TIMING_HOLDOFF : Fld := ⟨10, 10⟩
abbrev REF_TIMING_STEP_TH : Fld := ⟨20, 8⟩
abbrev REF_CAND_CFG_PRIO : Fld := ⟨0, 4⟩
abbrev REF_CAND_CFG_TOL : Fld := ⟨4, 8⟩
abbrev REF_CAND_CFG_PARAM : Fld := ⟨12, 10⟩
abbrev REF_CAND_CFG_POL : Fld := ⟨22, 1⟩
abbrev REF_CAND_OFFSET_OFFSET : Fld := ⟨0, 32⟩
abbrev REF_CAND_STAT_QUAL : Fld := ⟨0, 1⟩
abbrev REF_CAND_STAT_PRESENT : Fld := ⟨1, 1⟩
abbrev REF_CAND_STAT_FAULT : Fld := ⟨2, 2⟩
abbrev REF_CAND_STAT_FREQ : Fld := ⟨16, 16⟩
abbrev REF_CAND_EVT_QUALIFIED : Fld := ⟨0, 1⟩
abbrev REF_CAND_EVT_STOP : Fld := ⟨1, 1⟩
abbrev REF_CAND_EVT_GLITCH : Fld := ⟨2, 1⟩
abbrev REF_CAND_EVT_RATE : Fld := ⟨3, 1⟩
abbrev REF_CAND_EVT_PHASE_STEP : Fld := ⟨4, 1⟩
abbrev REF_TB_OK_OK : Fld := ⟨0, 1⟩
abbrev REF_STAT_STATE : Fld := ⟨0, 3⟩
abbrev REF_STAT_SEL : Fld := ⟨3, 4⟩
abbrev REF_STAT_PREV : Fld := ⟨7, 4⟩
abbrev REF_STAT_OSC : Fld := ⟨11, 1⟩
abbrev REF_STAT_ALIGN_PEND : Fld := ⟨12, 1⟩
abbrev REF_HIST_ENTERED : Fld := ⟨0, 5⟩
abbrev REF_EVT_STATE_CHANGE : Fld := ⟨0, 1⟩
abbrev REF_EVT_SWITCH : Fld := ⟨1, 1⟩
abbrev REF_EVT_HOLDOVER : Fld := ⟨2, 1⟩
abbrev REF_EVT_PHASE_STEP : Fld := ⟨3, 1⟩
abbrev REF_EVT_ALIGN_DONE : Fld := ⟨4, 1⟩
abbrev REF_EVT_HOLD_OSC_LOST : Fld := ⟨5, 1⟩
abbrev REF_EVT_REVERT : Fld := ⟨6, 1⟩
abbrev REF_PHASE_LO_PHASE : Fld := ⟨0, 32⟩
abbrev REF_PHASE_HI_PHASE : Fld := ⟨0, 32⟩
abbrev REF_FREQ_FREQ : Fld := ⟨0, 32⟩
abbrev REF_CMD_OP : Fld := ⟨0, 2⟩
abbrev REF_CMD_RES_STATUS : Fld := ⟨0, 3⟩
abbrev REF_ALIGN_DELTA_DELTA : Fld := ⟨0, 32⟩
abbrev REF_PULSE_CFG_SRC : Fld := ⟨0, 3⟩
abbrev REF_PULSE_CFG_CAD : Fld := ⟨3, 5⟩
abbrev REF_PULSE_CFG_TB : Fld := ⟨8, 2⟩
abbrev REF_PULSE_CFG_LINE : Fld := ⟨10, 3⟩
abbrev REF_PULSE_CFG_POL : Fld := ⟨13, 1⟩
abbrev REF_PULSE_CFG_WIDTH : Fld := ⟨14, 15⟩
abbrev REF_PULSE_OFFSET_OFFSET : Fld := ⟨0, 24⟩
abbrev REF_CAD_DESC_FORMAT : Fld := ⟨0, 14⟩
abbrev REF_CAD_DESC_INTERLACED : Fld := ⟨14, 1⟩
abbrev REF_CAD_DESC_SEGMENTED : Fld := ⟨15, 1⟩
abbrev REF_CAD_DESC_VALID : Fld := ⟨16, 1⟩
abbrev REF_CAD_FRAME_FRAME : Fld := ⟨0, 32⟩
abbrev TDM_CFG_ROLE : Fld := ⟨0, 1⟩
abbrev TDM_CFG_SLOTS : Fld := ⟨1, 5⟩
abbrev TDM_CFG_WIDTH : Fld := ⟨6, 2⟩
abbrev TDM_CFG_OFFSET : Fld := ⟨8, 5⟩
abbrev TDM_CFG_FS_POL : Fld := ⟨13, 1⟩
abbrev TDM_CFG_FS_HALF : Fld := ⟨14, 1⟩
abbrev TDM_CFG_BCLK_EDGE : Fld := ⟨15, 1⟩
abbrev TDM_CTL_ARM : Fld := ⟨0, 1⟩
abbrev TDM_CTL_STOP : Fld := ⟨1, 1⟩
abbrev TDM_STAT_STATE : Fld := ⟨0, 3⟩
abbrev TDM_STAT_ALIGNED : Fld := ⟨3, 1⟩
abbrev TDM_STAT_BCLK_KHZ : Fld := ⟨4, 16⟩
abbrev TDM_EVT_START : Fld := ⟨0, 1⟩
abbrev TDM_EVT_HOLD : Fld := ⟨1, 1⟩
abbrev TDM_EVT_CLK_BACK : Fld := ⟨2, 1⟩
abbrev TDM_EVT_GLITCH : Fld := ⟨3, 1⟩
abbrev TDM_EVT_FS_ERR : Fld := ⟨4, 1⟩
abbrev TDM_EVT_REFRAME : Fld := ⟨5, 1⟩
abbrev TDM_EVT_RATE_CHANGE : Fld := ⟨6, 1⟩
abbrev TDM_EVT_UNDERRUN : Fld := ⟨7, 1⟩
abbrev TDM_EVT_OVERRUN : Fld := ⟨8, 1⟩
abbrev TDM_EVT_ALIGN_LOST : Fld := ⟨9, 1⟩
abbrev TDM_GLITCH_EDGES : Fld := ⟨0, 32⟩
abbrev TDM_SPOIL_UNDER : Fld := ⟨0, 16⟩
abbrev TDM_SPOIL_OVER : Fld := ⟨16, 16⟩
abbrev TDM_FRAME_N : Fld := ⟨0, 32⟩
abbrev TDM_START_K : Fld := ⟨0, 32⟩
abbrev TDM_TRIG_SOURCE : Fld := ⟨0, 2⟩
abbrev TDM_TRIG_TB : Fld := ⟨2, 2⟩
abbrev TDM_TRIG_UNIT : Fld := ⟨4, 5⟩
abbrev TDM_TRIG_CADENCE : Fld := ⟨9, 5⟩
abbrev TDM_TRIG_FIRE : Fld := ⟨31, 1⟩
abbrev LANE_CFG_PROTO : Fld := ⟨0, 3⟩
abbrev LANE_CFG_RATE : Fld := ⟨3, 5⟩
abbrev LANE_CFG_CLOCKING : Fld := ⟨8, 1⟩
abbrev LANE_CFG_REACH : Fld := ⟨9, 1⟩
abbrev LANE_CFG_PORT : Fld := ⟨10, 6⟩
abbrev LANE_CFG_MEMBER : Fld := ⟨16, 3⟩
abbrev LANE_CFG_PAIR : Fld := ⟨19, 1⟩
abbrev LANE_CFG_GROUP : Fld := ⟨20, 6⟩
abbrev LANE_CTL_EQ_MODE : Fld := ⟨0, 2⟩
abbrev LANE_CTL_TRAIN : Fld := ⟨2, 1⟩
abbrev LANE_CTL_TX_INV : Fld := ⟨3, 1⟩
abbrev LANE_CTL_RX_INV : Fld := ⟨4, 1⟩
abbrev LANE_CTL_NOPARK : Fld := ⟨5, 1⟩
abbrev LANE_TXEQ_PRE2 : Fld := ⟨0, 4⟩
abbrev LANE_TXEQ_PRE1 : Fld := ⟨4, 6⟩
abbrev LANE_TXEQ_POST1 : Fld := ⟨10, 6⟩
abbrev LANE_TXEQ_AMP : Fld := ⟨16, 4⟩
abbrev LANE_RXEQ_CTLE : Fld := ⟨0, 6⟩
abbrev LANE_RXEQ_VGA : Fld := ⟨6, 5⟩
abbrev LANE_RXEQ_DFE1 : Fld := ⟨11, 6⟩
abbrev LANE_DET_LOS_TH : Fld := ⟨0, 6⟩
abbrev LANE_DET_LOS_HYST : Fld := ⟨6, 4⟩
abbrev LANE_DET_ASSERT : Fld := ⟨10, 4⟩
abbrev LANE_DET_CLEAR : Fld := ⟨14, 10⟩
abbrev LANE_DET_LOL_PPM : Fld := ⟨24, 8⟩
abbrev LANE_STAT_LOS : Fld := ⟨0, 1⟩
abbrev LANE_STAT_LOL : Fld := ⟨1, 1⟩
abbrev LANE_STAT_PARK : Fld := ⟨2, 2⟩
abbrev LANE_STAT_TRAINED : Fld := ⟨4, 1⟩
abbrev LANE_STAT_TX_ON : Fld := ⟨5, 1⟩
abbrev LANE_STAT_WAKING : Fld := ⟨6, 1⟩
abbrev LANE_STAT_FREQ : Fld := ⟨16, 16⟩
abbrev LANE_EVT_LOS_SET : Fld := ⟨0, 1⟩
abbrev LANE_EVT_LOS_CLR : Fld := ⟨1, 1⟩
abbrev LANE_EVT_LOL_SET : Fld := ⟨2, 1⟩
abbrev LANE_EVT_LOL_CLR : Fld := ⟨3, 1⟩
abbrev LANE_EVT_EQ_RANGE : Fld := ⟨4, 1⟩
abbrev LANE_EVT_EQ_BUSY : Fld := ⟨5, 1⟩
abbrev LANE_EVT_WAKE : Fld := ⟨6, 1⟩
abbrev LANE_EVT_WAKE_LATE : Fld := ⟨7, 1⟩
abbrev LANE_EVT_SLIP : Fld := ⟨8, 1⟩
abbrev LANE_EVT_TEST_BAD : Fld := ⟨9, 1⟩
abbrev LANE_EVT_QPLL_UNLOCK : Fld := ⟨10, 1⟩
abbrev LANE_EYE_HEIGHT : Fld := ⟨0, 10⟩
abbrev LANE_EYE_WIDTH : Fld := ⟨10, 10⟩
abbrev LANE_EYE_SNR : Fld := ⟨20, 8⟩
abbrev LANE_TEST_TX_PAT : Fld := ⟨0, 4⟩
abbrev LANE_TEST_RX_PAT : Fld := ⟨4, 4⟩
abbrev LANE_TEST_LOOP : Fld := ⟨8, 2⟩
abbrev LANE_TEST_INJECT : Fld := ⟨10, 1⟩
abbrev LANE_TEST_SYNC : Fld := ⟨11, 1⟩
abbrev LANE_BER_ERR_ERR : Fld := ⟨0, 32⟩
abbrev LANE_BER_TIME_TIME : Fld := ⟨0, 32⟩
abbrev LANE_FILL_INS : Fld := ⟨0, 16⟩
abbrev LANE_FILL_DEL : Fld := ⟨16, 16⟩
abbrev LANE_QSTAT_LOCK : Fld := ⟨0, 1⟩
abbrev LANE_QSTAT_FAMILY : Fld := ⟨1, 3⟩
abbrev LANE_QSTAT_OFF : Fld := ⟨4, 1⟩
abbrev LANE_QSTAT_UNLOCKS : Fld := ⟨5, 8⟩
abbrev NVL_CFG_FEC_MODE : Fld := ⟨0, 2⟩
abbrev NVL_CFG_RETRAIN : Fld := ⟨2, 1⟩
abbrev NVL_CFG_ROLL_REQ : Fld := ⟨3, 1⟩
abbrev NVL_STAT_STATE : Fld := ⟨0, 3⟩
abbrev NVL_STAT_CW_LOCK : Fld := ⟨3, 1⟩
abbrev NVL_STAT_BLOCK_LOCK : Fld := ⟨4, 1⟩
abbrev NVL_STAT_SF_LOCK : Fld := ⟨5, 1⟩
abbrev NVL_STAT_FEC_ON : Fld := ⟨6, 1⟩
abbrev NVL_STAT_PEER_GAP : Fld := ⟨7, 1⟩
abbrev NVL_STAT_REMOTE_ALARM : Fld := ⟨8, 5⟩
abbrev NVL_STAT_CHANNELS : Fld := ⟨13, 3⟩
abbrev NVL_EVT_UP : Fld := ⟨0, 1⟩
abbrev NVL_EVT_DOWN : Fld := ⟨1, 1⟩
abbrev NVL_EVT_LOCK_FAIL : Fld := ⟨2, 1⟩
abbrev NVL_EVT_TRAIN_TIMEOUT : Fld := ⟨3, 1⟩
abbrev NVL_EVT_APPEAR : Fld := ⟨4, 1⟩
abbrev NVL_EVT_GONE : Fld := ⟨5, 1⟩
abbrev NVL_EVT_CHANGE : Fld := ⟨6, 1⟩
abbrev NVL_EVT_BANK_MISMATCH : Fld := ⟨7, 1⟩
abbrev NVL_EVT_REMOTE_ALARM : Fld := ⟨8, 1⟩
abbrev NVL_EVT_UNCORR : Fld := ⟨9, 1⟩
abbrev NVL_EVT_CRC_ERR : Fld := ⟨10, 1⟩
abbrev NVL_EVT_CTRL_ERR : Fld := ⟨11, 1⟩
abbrev NVL_EVT_PEER_GAP : Fld := ⟨12, 1⟩
abbrev NVL_EVT_TX_DROP : Fld := ⟨13, 1⟩
abbrev NVL_FEC_CORR_CORR : Fld := ⟨0, 32⟩
abbrev NVL_FEC_UNCORR_UNCORR : Fld := ⟨0, 32⟩
abbrev NVL_CRC_ERR_CH0 : Fld := ⟨0, 8⟩
abbrev NVL_CRC_ERR_CH1 : Fld := ⟨8, 8⟩
abbrev NVL_CRC_ERR_CH2 : Fld := ⟨16, 8⟩
abbrev NVL_CRC_ERR_CH3 : Fld := ⟨24, 8⟩
abbrev NVL_HDR_ERR_HDR : Fld := ⟨0, 16⟩
abbrev NVL_HDR_ERR_CTRL : Fld := ⟨16, 16⟩
abbrev NVL_TX_DROP_DROP : Fld := ⟨0, 16⟩
abbrev NVL_REMOTE_EYE : Fld := ⟨0, 10⟩
abbrev NVL_REMOTE_CORR : Fld := ⟨10, 10⟩
abbrev NVL_REMOTE_CRC : Fld := ⟨20, 8⟩
abbrev NVL_PARTNER0_MEMBER : Fld := ⟨0, 4⟩
abbrev NVL_PARTNER0_VALID : Fld := ⟨4, 1⟩
abbrev NVL_PARTNER0_BANK : Fld := ⟨5, 1⟩
abbrev NVL_PARTNER0_PORT : Fld := ⟨6, 9⟩
abbrev NVL_PARTNER0_CAPS : Fld := ⟨16, 16⟩
abbrev NVL_PARTNER1_SERIAL_LO : Fld := ⟨0, 32⟩
abbrev NVL_PARTNER2_SERIAL_HI : Fld := ⟨0, 32⟩
abbrev NVL_PARTNER3_SLOT_COUNT : Fld := ⟨0, 12⟩
abbrev NVL_PARTNER3_GEN : Fld := ⟨12, 8⟩
abbrev ETH_PORT_CFG_DELIVER_BAD : Fld := ⟨0, 1⟩
abbrev ETH_PORT_CFG_PAUSE_EN : Fld := ⟨1, 1⟩
abbrev ETH_PORT_CFG_TAG : Fld := ⟨2, 1⟩
abbrev ETH_PORT_CFG_VID : Fld := ⟨3, 12⟩
abbrev ETH_PORT_CFG_PCP : Fld := ⟨15, 3⟩
abbrev ETH_PORT_CFG_CTRL_PERIOD : Fld := ⟨18, 6⟩
abbrev ETH_PORT_CFG_CRX_MCAST : Fld := ⟨24, 1⟩
abbrev ETH_PORT_CFG_CRX_BCAST : Fld := ⟨25, 1⟩
abbrev ETH_PORT_STAT_LINK : Fld := ⟨0, 1⟩
abbrev ETH_PORT_STAT_LOCAL_FAULT : Fld := ⟨1, 1⟩
abbrev ETH_PORT_STAT_REMOTE_FAULT : Fld := ⟨2, 1⟩
abbrev ETH_PORT_STAT_TYPE : Fld := ⟨3, 3⟩
abbrev ETH_PORT_STAT_FEC : Fld := ⟨6, 2⟩
abbrev ETH_PORT_STAT_PAUSED : Fld := ⟨8, 1⟩
abbrev ETH_PORT_STAT_LOAD : Fld := ⟨9, 10⟩
abbrev ETH_PORT_EVT_LINK_UP : Fld := ⟨0, 1⟩
abbrev ETH_PORT_EVT_LINK_DOWN : Fld := ⟨1, 1⟩
abbrev ETH_PORT_EVT_CNT_HALF : Fld := ⟨2, 1⟩
abbrev ETH_PORT_EVT_CRX_SPOIL : Fld := ⟨3, 1⟩
abbrev ETH_PORT_EVT_CTX_ERR : Fld := ⟨4, 1⟩
abbrev ETH_PORT_EVT_CTX_LATE : Fld := ⟨5, 1⟩
abbrev ETH_PORT_EVT_RRP_REJECT : Fld := ⟨6, 1⟩
abbrev ETH_PORT_EVT_WAKE : Fld := ⟨7, 1⟩
abbrev ETH_PORT_EVT_NOTIFY_DROP : Fld := ⟨8, 1⟩
abbrev ETH_PORT_EVT_TX_LATE : Fld := ⟨9, 1⟩
abbrev ETH_PORT_EVT_OVERBOOK : Fld := ⟨10, 1⟩
abbrev ETH_PORT_MAC_LO_MAC : Fld := ⟨0, 32⟩
abbrev ETH_PORT_MAC_HI_MAC : Fld := ⟨0, 16⟩
abbrev ETH_PORT_IP_IP : Fld := ⟨0, 32⟩
abbrev ETH_CTX_DATA_DATA : Fld := ⟨0, 32⟩
abbrev ETH_CTX_CTL_COMMIT : Fld := ⟨0, 1⟩
abbrev ETH_CTX_CTL_ABORT : Fld := ⟨1, 1⟩
abbrev ETH_CTX_STAT_FREE : Fld := ⟨0, 13⟩
abbrev ETH_CTX_STAT_FRAMES : Fld := ⟨13, 12⟩
abbrev ETH_CRX_DATA_DATA : Fld := ⟨0, 32⟩
abbrev ETH_CRX_STAT_WORDS : Fld := ⟨0, 16⟩
abbrev ETH_CRX_STAT_FRAMES : Fld := ⟨16, 16⟩
abbrev ETH_CRX_SPOIL_SPOIL : Fld := ⟨0, 32⟩
abbrev ETH_PAUSE_STAT_REMAIN : Fld := ⟨0, 16⟩
abbrev ETH_SNAP_GO : Fld := ⟨0, 1⟩
abbrev ETH_CNT_HALF0_HALF : Fld := ⟨0, 32⟩
abbrev ETH_CNT_HALF1_HALF : Fld := ⟨0, 14⟩
abbrev ETH_MG_CFG_ENABLE : Fld := ⟨0, 1⟩
abbrev ETH_MG_CFG_ARP_EN : Fld := ⟨1, 1⟩
abbrev ETH_MG_CFG_RRP_PORT : Fld := ⟨2, 16⟩
abbrev ETH_RRP_HOST_PORT : Fld := ⟨0, 1⟩
abbrev ETH_RRP_HOST_VALID : Fld := ⟨1, 1⟩
abbrev ETH_RRP_HOST_NPORT : Fld := ⟨2, 16⟩
abbrev ETH_WAKE_HIT_HIT : Fld := ⟨0, 8⟩
abbrev ETH_CNT_VALUE : Fld := ⟨0, 32⟩
abbrev ETH_WAKE_CTL_ACTION : Fld := ⟨0, 2⟩
abbrev ETH_WAKE_CTL_CRC : Fld := ⟨16, 16⟩
abbrev ETH_WAKE_MASK_MASK : Fld := ⟨0, 32⟩
abbrev ETH_RXF_CFG_TYPE : Fld := ⟨0, 3⟩
abbrev ETH_RXF_CFG_EN_E : Fld := ⟨3, 1⟩
abbrev ETH_RXF_CFG_EN_W : Fld := ⟨4, 1⟩
abbrev ETH_RXF_CFG_PORT_E : Fld := ⟨5, 6⟩
abbrev ETH_RXF_CFG_PORT_W : Fld := ⟨11, 6⟩
abbrev ETH_RXF_CFG_TB : Fld := ⟨17, 2⟩
abbrev ETH_RXF_CFG_SKEW_MAX : Fld := ⟨19, 7⟩
abbrev ETH_RXF_MEDIA_FORMAT : Fld := ⟨0, 14⟩
abbrev ETH_RXF_MEDIA_INTERLACED : Fld := ⟨14, 1⟩
abbrev ETH_RXF_MEDIA_SEGMENTED : Fld := ⟨15, 1⟩
abbrev ETH_RXF_MEDIA_BIND : Fld := ⟨16, 12⟩
abbrev ETH_RXF_STAT_PRESENT_E : Fld := ⟨0, 1⟩
abbrev ETH_RXF_STAT_PRESENT_W : Fld := ⟨1, 1⟩
abbrev ETH_RXF_STAT_ALIGNED : Fld := ⟨2, 1⟩
abbrev ETH_RXF_EVT_ABSENT_E : Fld := ⟨0, 1⟩
abbrev ETH_RXF_EVT_ABSENT_W : Fld := ⟨1, 1⟩
abbrev ETH_RXF_EVT_SEQ_GAP : Fld := ⟨2, 1⟩
abbrev ETH_RXF_EVT_LATE_PKT : Fld := ⟨3, 1⟩
abbrev ETH_RXF_EVT_CSUM : Fld := ⟨4, 1⟩
abbrev ETH_RXF_EVT_SKEW_OVER : Fld := ⟨5, 1⟩
abbrev ETH_RXF_EVT_NO_BUF : Fld := ⟨6, 1⟩
abbrev ETH_RXF_EVT_ADDR_CONFLICT : Fld := ⟨7, 1⟩
abbrev ETH_RXF_SKEW_SKEW : Fld := ⟨0, 32⟩
abbrev ETH_RXF_LOST_LOST_E : Fld := ⟨0, 16⟩
abbrev ETH_RXF_LOST_LOST_W : Fld := ⟨16, 16⟩
abbrev ETH_TXF_CFG_TYPE : Fld := ⟨0, 3⟩
abbrev ETH_TXF_CFG_EN_E : Fld := ⟨3, 1⟩
abbrev ETH_TXF_CFG_EN_W : Fld := ⟨4, 1⟩
abbrev ETH_TXF_CFG_PORT_E : Fld := ⟨5, 6⟩
abbrev ETH_TXF_CFG_PORT_W : Fld := ⟨11, 6⟩
abbrev ETH_TXF_CFG_TB : Fld := ⟨17, 2⟩
abbrev ETH_TXF_CFG_SENDER : Fld := ⟨19, 1⟩
abbrev ETH_TXF_CFG_DSCP : Fld := ⟨20, 6⟩
abbrev ETH_TXF_PKT_PAYLOAD : Fld := ⟨0, 11⟩
abbrev ETH_TXF_PKT_TRO : Fld := ⟨11, 7⟩
abbrev ETH_TXF_PKT_PT : Fld := ⟨18, 7⟩
abbrev ETH_TXF_STAT_BIND : Fld := ⟨0, 12⟩
abbrev ETH_TXF_STAT_ACTIVE_E : Fld := ⟨12, 1⟩
abbrev ETH_TXF_STAT_ACTIVE_W : Fld := ⟨13, 1⟩
abbrev ETH_TXF_STAT_NPKT : Fld := ⟨14, 18⟩
abbrev ETH_TXF_LATE_LATE : Fld := ⟨0, 32⟩
abbrev ETH_TXF_MAXLATE_MAXLATE : Fld := ⟨0, 32⟩
abbrev SDI_CFG_TX_LEVEL_B : Fld := ⟨0, 1⟩
abbrev SDI_CFG_VPID_INS : Fld := ⟨1, 1⟩
abbrev SDI_CFG_TC_SEL : Fld := ⟨2, 1⟩
abbrev SDI_CFG_ASSUME_SAMP : Fld := ⟨4, 2⟩
abbrev SDI_CFG_ASSUME_DEPTH : Fld := ⟨6, 2⟩
abbrev SDI_STAT_RATE : Fld := ⟨0, 4⟩
abbrev SDI_STAT_RASTER_LOCK : Fld := ⟨4, 1⟩
abbrev SDI_STAT_VPID_OK : Fld := ⟨5, 1⟩
abbrev SDI_STAT_LEVEL_B : Fld := ⟨6, 1⟩
abbrev SDI_STAT_FORMAT : Fld := ⟨8, 14⟩
abbrev SDI_STAT_INTERLACED : Fld := ⟨22, 1⟩
abbrev SDI_STAT_SEGMENTED : Fld := ⟨23, 1⟩
abbrev SDI_EVT_LOCK : Fld := ⟨0, 1⟩
abbrev SDI_EVT_UNLOCK : Fld := ⟨1, 1⟩
abbrev SDI_EVT_RATE : Fld := ⟨2, 1⟩
abbrev SDI_EVT_FMT : Fld := ⟨3, 1⟩
abbrev SDI_EVT_VPID_MISSING : Fld := ⟨4, 1⟩
abbrev SDI_EVT_VPID_CONFLICT : Fld := ⟨5, 1⟩
abbrev SDI_EVT_CRC_ERR : Fld := ⟨6, 1⟩
abbrev SDI_EVT_LN_ERR : Fld := ⟨7, 1⟩
abbrev SDI_EVT_ANC_CSUM : Fld := ⟨8, 1⟩
abbrev SDI_EVT_ANC_DROP : Fld := ⟨9, 1⟩
abbrev SDI_EVT_LINK_SKEW : Fld := ⟨10, 1⟩
abbrev SDI_VPID_VPID : Fld := ⟨0, 32⟩
abbrev SDI_TC_TYPE : Fld := ⟨0, 2⟩
abbrev SDI_TC_VALID : Fld := ⟨2, 1⟩
abbrev SDI_TC_DF : Fld := ⟨3, 1⟩
abbrev SDI_TC_FRAMES : Fld := ⟨4, 6⟩
abbrev SDI_TC_SECONDS : Fld := ⟨10, 7⟩
abbrev SDI_TC_MINUTES : Fld := ⟨17, 7⟩
abbrev SDI_TC_HOURS : Fld := ⟨24, 6⟩
abbrev SDI_CRC_ERR_LINES : Fld := ⟨0, 32⟩
abbrev SDI_ANC_ERR_RX_CSUM : Fld := ⟨0, 16⟩
abbrev SDI_ANC_ERR_TX_DROP : Fld := ⟨16, 16⟩
abbrev XPT_IN_CFG_MODE : Fld := ⟨0, 3⟩
abbrev XPT_IN_CFG_CADENCE : Fld := ⟨8, 5⟩
abbrev XPT_IN_CFG_GAP : Fld := ⟨16, 6⟩
abbrev XPT_IN_DESC_FORMAT : Fld := ⟨0, 14⟩
abbrev XPT_IN_DESC_BOND : Fld := ⟨14, 3⟩
abbrev XPT_IN_DESC_MEMBER : Fld := ⟨17, 4⟩
abbrev XPT_IN_DESC_INTERLACED : Fld := ⟨21, 1⟩
abbrev XPT_IN_DESC_SEGMENTED : Fld := ⟨22, 1⟩
abbrev XPT_IN_DESC_PRESENT_E : Fld := ⟨24, 1⟩
abbrev XPT_IN_DESC_PRESENT_W : Fld := ⟨25, 1⟩
abbrev XPT_IN_MSTAT_USED_E : Fld := ⟨0, 1⟩
abbrev XPT_IN_MSTAT_USED_W : Fld := ⟨1, 1⟩
abbrev XPT_IN_MSTAT_BAD_E : Fld := ⟨2, 1⟩
abbrev XPT_IN_MSTAT_BAD_W : Fld := ⟨3, 1⟩
abbrev XPT_IN_MSTAT_LOST : Fld := ⟨4, 1⟩
abbrev XPT_IN_MSTAT_ABSENT_E : Fld := ⟨5, 1⟩
abbrev XPT_IN_MSTAT_ABSENT_W : Fld := ⟨6, 1⟩
abbrev XPT_IN_MSTAT_MERGE_OVF : Fld := ⟨7, 1⟩
abbrev XPT_IN_MSTAT_SIZE_ERR : Fld := ⟨8, 1⟩
abbrev XPT_IN_MSTAT_FMT_CHANGE : Fld := ⟨9, 1⟩
abbrev XPT_IN_MSTAT_BOND_UNDERRUN : Fld := ⟨10, 1⟩
abbrev XPT_IN_MSTAT_DIFFER : Fld := ⟨11, 1⟩
abbrev XPT_IN_MSTAT_MALFORMED : Fld := ⟨12, 1⟩
abbrev XPT_GEN_CTL_TYPE : Fld := ⟨0, 3⟩
abbrev XPT_GEN_CTL_TONE : Fld := ⟨3, 1⟩
abbrev XPT_GEN_CTL_FORMAT : Fld := ⟨4, 14⟩
abbrev XPT_OUT_CFG_UNTIMED : Fld := ⟨0, 2⟩
abbrev XPT_OUT_CFG_LOSS : Fld := ⟨2, 2⟩
abbrev XPT_OUT_CFG_FALLBACK : Fld := ⟨4, 6⟩
abbrev XPT_OUT_STAT_TOOK : Fld := ⟨0, 1⟩
abbrev XPT_OUT_STAT_SUPERSEDED : Fld := ⟨1, 1⟩
abbrev XPT_OUT_STAT_LOST : Fld := ⟨2, 1⟩
abbrev XPT_OUT_STAT_FMT_MISMATCH : Fld := ⟨3, 1⟩
abbrev XPT_OUT_STAT_TIMING_BREAK : Fld := ⟨4, 1⟩
abbrev XPT_OUT_STAT_FALLBACK : Fld := ⟨5, 1⟩
abbrev XPT_OUT_STAT_OFFSET_STEP : Fld := ⟨6, 1⟩
abbrev XPT_OUT_STAT_HOLD_NO_BENCH : Fld := ⟨7, 1⟩
abbrev XPT_OUT_STAT_TIME_LATE : Fld := ⟨8, 1⟩
abbrev XPT_CAP_CFG_CADENCE : Fld := ⟨0, 5⟩
abbrev XPT_CAP_CFG_DEPTH : Fld := ⟨8, 3⟩
abbrev XPT_CAP_CFG_ONESHOT : Fld := ⟨11, 1⟩
abbrev XPT_CAP_CFG_ENABLE : Fld := ⟨12, 1⟩
abbrev XPT_CAP_STAT_TAG : Fld := ⟨0, 8⟩
abbrev XPT_CAP_STAT_INDEX : Fld := ⟨8, 3⟩
abbrev XPT_CAP_STAT_DONE : Fld := ⟨11, 1⟩
abbrev XPT_CAP_STAT_OVER : Fld := ⟨12, 1⟩
abbrev SEAM_CFG_CENTRE : Fld := ⟨0, 18⟩
abbrev SEAM_CFG_SYNC : Fld := ⟨18, 1⟩
abbrev SEAM_STAT_CLASS : Fld := ⟨0, 2⟩
abbrev SEAM_STAT_UNTIMED : Fld := ⟨2, 1⟩
abbrev SEAM_STAT_RETIMED : Fld := ⟨3, 1⟩
abbrev SEAM_STAT_VIA_BENCH : Fld := ⟨4, 1⟩
abbrev SEAM_STAT_BENCH : Fld := ⟨5, 10⟩
abbrev SEAM_EVT_LATE : Fld := ⟨0, 1⟩
abbrev SEAM_EVT_EARLY : Fld := ⟨1, 1⟩
abbrev SEAM_EVT_FILL : Fld := ⟨2, 1⟩
abbrev SEAM_EVT_DRIFT : Fld := ⟨3, 1⟩
abbrev SEAM_EVT_RETIME : Fld := ⟨4, 1⟩
abbrev SEAM_EVT_BENCH_NONE : Fld := ⟨5, 1⟩
abbrev FSY_CFG_INPUT : Fld := ⟨0, 10⟩
abbrev FSY_CFG_CADENCE : Fld := ⟨10, 5⟩
abbrev FSY_CFG_PIN : Fld := ⟨15, 1⟩
abbrev FSY_STAT_STATE : Fld := ⟨0, 2⟩
abbrev FSY_STAT_AUTO : Fld := ⟨2, 1⟩
abbrev FSY_STAT_USERS : Fld := ⟨3, 11⟩
abbrev FSY_STAT_UNITS : Fld := ⟨14, 8⟩
abbrev FSY_EVT_REPEAT : Fld := ⟨0, 1⟩
abbrev FSY_EVT_DROP : Fld := ⟨1, 1⟩
abbrev FSY_EVT_HOLD : Fld := ⟨2, 1⟩
abbrev FSY_EVT_FMT : Fld := ⟨3, 1⟩
abbrev FSY_EVT_WR_BUSY : Fld := ⟨4, 1⟩
abbrev FSY_EVT_PARTIAL : Fld := ⟨5, 1⟩
abbrev FSY_EVT_START : Fld := ⟨6, 1⟩
abbrev FSY_EVT_NO_UNITS : Fld := ⟨7, 1⟩
abbrev FSY_EVT_BAD_INPUT : Fld := ⟨8, 1⟩
abbrev AUD_ROUTE_SOURCE : Fld := ⟨0, 15⟩
abbrev AUD_ROUTE_MODE : Fld := ⟨15, 1⟩
abbrev AUD_DELAY_DELAY : Fld := ⟨0, 17⟩
abbrev AUD_DST_STAT_CURRENT : Fld := ⟨0, 15⟩
abbrev AUD_DST_STAT_FOLLOWING : Fld := ⟨15, 1⟩
abbrev AUD_DST_STAT_STATE : Fld := ⟨16, 2⟩
abbrev AUD_DST_DESC_KIND : Fld := ⟨0, 2⟩
abbrev AUD_DST_DESC_OWNER : Fld := ⟨2, 12⟩
abbrev AUD_DST_DESC_INDEX : Fld := ⟨14, 6⟩
abbrev AUD_DST_DESC_DELAY_MAX : Fld := ⟨20, 11⟩
abbrev AUD_DST_EVT_CHANGED : Fld := ⟨0, 1⟩
abbrev AUD_DST_EVT_TIMEOUT : Fld := ⟨1, 1⟩
abbrev AUD_DST_EVT_SRC_LOST : Fld := ⟨2, 1⟩
abbrev AUD_DST_EVT_DELAY_CLAMP : Fld := ⟨3, 1⟩
abbrev AUD_DST_EVT_RESTARTED : Fld := ⟨4, 1⟩
abbrev AUD_SRC_DESC_KIND : Fld := ⟨0, 2⟩
abbrev AUD_SRC_DESC_ORIGIN : Fld := ⟨2, 12⟩
abbrev AUD_SRC_DESC_INDEX : Fld := ⟨14, 6⟩
abbrev AUD_SRC_DESC_PRESENT : Fld := ⟨20, 1⟩
abbrev AUD_SRC_DELTA_DELTA : Fld := ⟨0, 13⟩
abbrev AUD_SRC_ERR_LATE : Fld := ⟨0, 16⟩
abbrev AUD_SRC_ERR_ANCHOR : Fld := ⟨16, 16⟩
abbrev AUD_CFG_TIMEOUT : Fld := ⟨0, 7⟩
abbrev AUD_CFG_RATE : Fld := ⟨7, 1⟩
abbrev AUD_CFG_TB : Fld := ⟨8, 2⟩
abbrev AUD_CFG_STEP : Fld := ⟨10, 1⟩
abbrev AUD_INDEX_INDEX : Fld := ⟨0, 32⟩
abbrev ALY_HEAD_CFG_GFX_EN : Fld := ⟨0, 1⟩
abbrev ALY_HEAD_CFG_CURSOR_EN : Fld := ⟨1, 1⟩
abbrev ALY_HEAD_CFG_GFX_PRE : Fld := ⟨2, 6⟩
abbrev ALY_HEAD_CFG_MATRIX : Fld := ⟨8, 2⟩
abbrev ALY_HEAD_OFFSET_OFFSET : Fld := ⟨0, 26⟩
abbrev ALY_HEAD_BG_B : Fld := ⟨0, 10⟩
abbrev ALY_HEAD_BG_G : Fld := ⟨10, 10⟩
abbrev ALY_HEAD_BG_R : Fld := ⟨20, 10⟩
abbrev ALY_CURSOR_X : Fld := ⟨0, 13⟩
abbrev ALY_CURSOR_Y : Fld := ⟨16, 13⟩
abbrev ALY_FLIP_GFX : Fld := ⟨0, 1⟩
abbrev ALY_FLIP_CURSOR : Fld := ⟨1, 1⟩
abbrev ALY_FLIP_LUT : Fld := ⟨2, 1⟩
abbrev ALY_HEAD_DESC_FORMAT : Fld := ⟨0, 14⟩
abbrev ALY_HEAD_DESC_INTERLACED : Fld := ⟨14, 1⟩
abbrev ALY_HEAD_DESC_PAIR : Fld := ⟨15, 1⟩
abbrev ALY_HEAD_DESC_PRESENT : Fld := ⟨16, 1⟩
abbrev ALY_HEAD_DESC_TILES : Fld := ⟨17, 7⟩
abbrev ALY_HEAD_DESC_RECTS : Fld := ⟨24, 3⟩
abbrev ALY_FLIP_STAT_FRONT : Fld := ⟨0, 4⟩
abbrev ALY_FLIP_STAT_PENDING : Fld := ⟨4, 4⟩
abbrev ALY_EVT_TILE_STALE : Fld := ⟨0, 1⟩
abbrev ALY_EVT_TILE_GEOM : Fld := ⟨1, 1⟩
abbrev ALY_EVT_TILE_LATE : Fld := ⟨2, 1⟩
abbrev ALY_EVT_LOAD_RANGE : Fld := ⟨3, 1⟩
abbrev ALY_EVT_LOAD_PENDING : Fld := ⟨4, 1⟩
abbrev ALY_EVT_PROT_REJECT : Fld := ⟨5, 1⟩
abbrev ALY_EVT_PROT_GEOM : Fld := ⟨6, 1⟩
abbrev ALY_EVT_PROT_CRC : Fld := ⟨7, 1⟩
abbrev ALY_LOAD_SEL_KIND : Fld := ⟨0, 3⟩
abbrev ALY_LOAD_SEL_HEAD : Fld := ⟨3, 5⟩
abbrev ALY_LOAD_SEL_INDEX : Fld := ⟨8, 6⟩
abbrev ALY_LOAD_ADDR_ADDR : Fld := ⟨0, 24⟩
abbrev ALY_LOAD_DATA_DATA : Fld := ⟨0, 32⟩
abbrev ALY_STORE_CFG_ENABLE : Fld := ⟨0, 1⟩
abbrev ALY_STORE_CFG_FREEZE : Fld := ⟨1, 1⟩
abbrev ALY_STORE_STAT_INDEX : Fld := ⟨0, 1⟩
abbrev ALY_STORE_STAT_FROZEN : Fld := ⟨1, 1⟩
abbrev ALY_PROT_POS_X : Fld := ⟨0, 13⟩
abbrev ALY_PROT_POS_Y : Fld := ⟨16, 13⟩
abbrev ALY_PROT_SIZE_W : Fld := ⟨0, 10⟩
abbrev ALY_PROT_SIZE_H : Fld := ⟨16, 8⟩
abbrev ALY_PROT_SIZE_ENABLE : Fld := ⟨31, 1⟩
abbrev ALY_PROT_FLIP_FLIP : Fld := ⟨0, 1⟩
abbrev ALY_PROT_CRC_CRC : Fld := ⟨0, 32⟩
abbrev ALY_TILE_CFG_ENABLE : Fld := ⟨0, 1⟩
abbrev ALY_TILE_CFG_Z : Fld := ⟨1, 6⟩
abbrev ALY_TILE_CFG_PRE : Fld := ⟨7, 6⟩
abbrev ALY_TILE_CFG_MATRIX : Fld := ⟨13, 2⟩
abbrev ALY_TILE_CFG_ALPHA : Fld := ⟨15, 8⟩
abbrev ALY_TILE_CFG_LOSS : Fld := ⟨23, 1⟩
abbrev ALY_TILE_STAT_SHOWING : Fld := ⟨0, 1⟩
abbrev ALY_TILE_STAT_STALE : Fld := ⟨1, 1⟩
abbrev ALY_TILE_STAT_GEOM_ERR : Fld := ⟨2, 1⟩
abbrev ALY_TILE_STAT_TAG : Fld := ⟨3, 8⟩
abbrev HBM_CFG_AGE : Fld := ⟨0, 8⟩
abbrev HBM_CFG_SCRUB_EN : Fld := ⟨8, 1⟩
abbrev HBM_RH_CFG_THRESH : Fld := ⟨0, 15⟩
abbrev HBM_STAT_READY : Fld := ⟨0, 1⟩
abbrev HBM_STAT_HOT : Fld := ⟨1, 1⟩
abbrev HBM_STAT_SELF_REFRESH : Fld := ⟨2, 1⟩
abbrev HBM_STAT_EXHAUSTED : Fld := ⟨3, 1⟩
abbrev HBM_STAT_FIXED_PCS : Fld := ⟨4, 6⟩
abbrev HBM_EVT_HOT_ON : Fld := ⟨0, 1⟩
abbrev HBM_EVT_HOT_OFF : Fld := ⟨1, 1⟩
abbrev HBM_EVT_CATCH_UP : Fld := ⟨2, 1⟩
abbrev HBM_EVT_TRAIN_FAIL : Fld := ⟨3, 1⟩
abbrev HBM_EVT_FIXED : Fld := ⟨4, 1⟩
abbrev HBM_EVT_EXHAUSTED : Fld := ⟨5, 1⟩
abbrev HBM_EVT_PAR_ALERT : Fld := ⟨6, 1⟩
abbrev HBM_EVT_UNCORR : Fld := ⟨7, 1⟩
abbrev HBM_EVT_LATE : Fld := ⟨8, 1⟩
abbrev HBM_EVT_UNMAPPED : Fld := ⟨9, 1⟩
abbrev HBM_EVT_SRAM_UNCORR : Fld := ⟨10, 1⟩
abbrev HBM_TEMP_TEMP : Fld := ⟨0, 8⟩
abbrev HBM_TEMP_MAX : Fld := ⟨8, 8⟩
abbrev HBM_UNCORR_COUNT : Fld := ⟨0, 32⟩
abbrev HBM_MAP_PAGES : Fld := ⟨0, 16⟩
abbrev HBM_LATE_COUNT : Fld := ⟨0, 32⟩
abbrev HBM_PC_STAT_MODE : Fld := ⟨0, 2⟩
abbrev HBM_PC_STAT_FAILS : Fld := ⟨2, 2⟩
abbrev HBM_PC_STAT_OWED : Fld := ⟨4, 4⟩
abbrev HBM_PC_STAT_CATCH_UP : Fld := ⟨8, 1⟩
abbrev HBM_PC_CORR_CTRL : Fld := ⟨0, 16⟩
abbrev HBM_PC_CORR_ODIE : Fld := ⟨16, 16⟩
abbrev HBM_PC_PAR_ALERTS : Fld := ⟨0, 16⟩
abbrev HBM_PC_PAR_REPLAYS : Fld := ⟨16, 16⟩
abbrev HBM_PC_RFM_COUNT : Fld := ⟨0, 32⟩
abbrev HBM_FIXDLY_DELAY : Fld := ⟨0, 7⟩
abbrev HBM_SRAM_CORR_COUNT : Fld := ⟨0, 32⟩
abbrev HBM_SRAM_UNCORR_COUNT : Fld := ⟨0, 32⟩
abbrev HOP_CFG_MODE : Fld := ⟨0, 2⟩
abbrev HOP_CFG_ENTRY : Fld := ⟨2, 4⟩
abbrev HOP_CFG_PROD : Fld := ⟨6, 4⟩
abbrev HOP_CFG_CONS : Fld := ⟨10, 4⟩
abbrev HOP_PUSH_DATA : Fld := ⟨0, 32⟩
abbrev HOP_CTL_COMMIT : Fld := ⟨0, 1⟩
abbrev HOP_CTL_ABORT : Fld := ⟨1, 1⟩
abbrev HOP_POP_DATA : Fld := ⟨0, 32⟩
abbrev HOP_STAT_FREE : Fld := ⟨0, 15⟩
abbrev HOP_STAT_HEAD_LEFT : Fld := ⟨15, 14⟩
abbrev HOP_STAT_OPEN : Fld := ⟨29, 1⟩
abbrev HOP_EVT_SPOIL : Fld := ⟨0, 1⟩
abbrev HOP_EVT_DISCARD : Fld := ⟨1, 1⟩
abbrev HOP_EVT_TOO_LONG : Fld := ⟨2, 1⟩
abbrev HOP_EVT_UNCORR : Fld := ⟨3, 1⟩
abbrev HOP_EVT_CFG_BUSY : Fld := ⟨4, 1⟩
abbrev HOP_SPOIL_COUNT : Fld := ⟨0, 32⟩
abbrev HOP_ECC_CORR : Fld := ⟨0, 16⟩
abbrev HOP_ECC_UNCORR : Fld := ⟨16, 16⟩
abbrev XPT_PRESET_SOURCE : Fld := ⟨0, 11⟩
abbrev XPT_PRESET_VALID : Fld := ⟨11, 1⟩
abbrev XPT_TAKE_TARGET : Fld := ⟨0, 11⟩
abbrev XPT_TAKE_OP : Fld := ⟨12, 2⟩
abbrev XPT_TAKE_TIMED : Fld := ⟨14, 1⟩
abbrev XPT_TAKE_TB : Fld := ⟨16, 2⟩
abbrev XPT_TAKE_SEQ : Fld := ⟨24, 8⟩
abbrev XPT_TAKE_RES_SEQ : Fld := ⟨0, 8⟩
abbrev XPT_TAKE_RES_STATUS : Fld := ⟨8, 5⟩
abbrev XPT_TAKE_RES_ENTRY : Fld := ⟨13, 10⟩
abbrev XPT_TAKE_RES_OVERRUN : Fld := ⟨30, 1⟩
abbrev XPT_TAKE_RES_BUSY : Fld := ⟨31, 1⟩
abbrev XPT_SALVO_STAT_COUNT : Fld := ⟨0, 11⟩
abbrev XPT_SALVO_STAT_OWNER : Fld := ⟨12, 4⟩
abbrev XPT_SALVO_STAT_STATE : Fld := ⟨16, 2⟩
abbrev XPT_SALVO_STAT_FULL_ERR : Fld := ⟨18, 1⟩
abbrev XPT_SALVO_STAT_DENIED : Fld := ⟨19, 1⟩
abbrev XPT_SALVO_STAT_BUSY_WR : Fld := ⟨20, 1⟩
abbrev XPT_SALVO_STAT_SUPERSEDED : Fld := ⟨21, 1⟩
abbrev SEC_STAT_OTP_BAD : Fld := ⟨0, 1⟩
abbrev SEC_STAT_SVN : Fld := ⟨1, 7⟩
abbrev SEC_STAT_OWNER : Fld := ⟨8, 4⟩
abbrev SEC_STAT_DEBUG : Fld := ⟨12, 1⟩
abbrev SEC_STAT_DEBUG_REQ : Fld := ⟨13, 4⟩
abbrev SEC_STAT_DEBUG_MIN : Fld := ⟨17, 11⟩
abbrev SEC_SERIAL_LO_SERIAL : Fld := ⟨0, 32⟩
abbrev SEC_SERIAL_HI_SERIAL : Fld := ⟨0, 32⟩
abbrev SEC_CHAL_LO_CHAL : Fld := ⟨0, 32⟩
abbrev SEC_CHAL_HI_CHAL : Fld := ⟨0, 32⟩
abbrev SEC_TOKEN_CTL_GO : Fld := ⟨0, 1⟩
abbrev SEC_TOKEN_CTL_RELOCK : Fld := ⟨1, 1⟩
abbrev SEC_TOKEN_RES_CODE : Fld := ⟨0, 16⟩
abbrev SEC_TOKEN_RES_BUSY : Fld := ⟨16, 1⟩
abbrev UMW_STAT_STATE : Fld := ⟨0, 2⟩
abbrev UMW_STAT_BUSY : Fld := ⟨2, 1⟩
abbrev UMW_STAT_STEP : Fld := ⟨3, 3⟩
abbrev UMW_STAT_RESULT : Fld := ⟨16, 16⟩
abbrev UMW_BASE_VER_VERSION : Fld := ⟨0, 32⟩
abbrev UMW_SIDE_VER_VERSION : Fld := ⟨0, 32⟩
abbrev UMW_REGION_VER_VERSION : Fld := ⟨0, 32⟩
abbrev UPD_STAT_STAGE : Fld := ⟨0, 3⟩
abbrev UPD_STAT_KIND : Fld := ⟨3, 1⟩
abbrev UPD_STAT_TRIAL_DONE : Fld := ⟨4, 1⟩
abbrev UPD_STAT_RESULT : Fld := ⟨16, 16⟩
abbrev UPD_CFG_TRIAL : Fld := ⟨0, 16⟩
abbrev UPD_PIECES_DONE : Fld := ⟨0, 16⟩
abbrev UPD_PIECES_TOTAL : Fld := ⟨16, 16⟩
abbrev UPD_TRIAL_LEFT_SECONDS : Fld := ⟨0, 16⟩
abbrev UPD_SIDE_ACTIVE : Fld := ⟨0, 1⟩
abbrev UPD_SIDE_CONFIRMED : Fld := ⟨1, 1⟩
abbrev UPD_SIDE_TRIES : Fld := ⟨2, 3⟩
abbrev UPD_SIDE_FALLBACK : Fld := ⟨5, 1⟩
abbrev UPD_SIDE_NO_FW : Fld := ⟨6, 1⟩
abbrev UPD_SIDE_REVERTED : Fld := ⟨7, 1⟩
abbrev UPD_SIDE_SETTINGS_RESET : Fld := ⟨8, 1⟩
abbrev ALY_TILE_DST_X : Fld := ⟨0, 13⟩
abbrev ALY_TILE_DST_Y : Fld := ⟨16, 13⟩
abbrev ALY_TILE_SIZE_W : Fld := ⟨0, 13⟩
abbrev ALY_TILE_SIZE_H : Fld := ⟨16, 13⟩
abbrev ALY_TILE_CROP_XY_X : Fld := ⟨0, 13⟩
abbrev ALY_TILE_CROP_XY_Y : Fld := ⟨16, 13⟩
abbrev ALY_TILE_CROP_WH_W : Fld := ⟨0, 13⟩
abbrev ALY_TILE_CROP_WH_H : Fld := ⟨16, 13⟩

end Sys2Proof.Machine.F
end

