-- ==== Sys2Proof/Config.lean ====
section
/-!
DEFINITION. What one device fixes and the spec does not: opaque constants, so that no proof can see their value.
-/
namespace Sys2Proof

/-- R420: the absorbed rate A in force at a tick, in 2^-48; the loop filter that forms it is not given numerically. -/
opaque Config.absorbedRate : Nat → Int

/-- R418, R428: the loop output's frequency offset at a tick, in 10^-12; the loop filter is not given numerically. -/
opaque Config.loopFreq : Nat → Int

/-- R72: the magnitude of the 1 kHz, −20 dBFS tone at a sample of its half period, in 24-bit codes; its phase and rounding are not given. -/
opaque Config.toneLevel : Nat → Nat

/-- R367: the 16-bit R′G′B′ of a 16-bit Y′C′bC′r sample under an input matrix; the standards' coefficients and the rounding are not given. -/
opaque Config.toRgb : Nat → Nat × Nat × Nat → Nat × Nat × Nat

/-- R370: Y′, C′b and C′r of a 12-bit R′G′B′ pixel under an output matrix, as codes of a depth in 2^-16; the standards' coefficients are not given. -/
opaque Config.fromRgb : Nat → Nat → Nat × Nat × Nat → Nat × Nat × Nat

/-- R370: a chroma value, in 2^-16, that the 4:2:2 filter takes to stand before the first pixel of a line, from that pixel's own. -/
opaque Config.chromaBefore : Nat → Nat

/-- R370: a code that lies halfway between two codes of the head's depth is rounded to the upper. -/
opaque Config.halfUp : Nat → Bool

/-- R45: the line number of the first active line of a field (0 or 1) of a format code, sent as fields or segments or not; the numbering is that
of the format's SMPTE standard. -/
opaque Config.firstLine : Nat → Bool → Nat → Nat

/-- R44: the line number of the first line of the second field or segment of a format code; it is that of the format's SMPTE standard. -/
opaque Config.fieldStart : Nat → Nat

/-- R41, R44: the raster row, 0 or 1, of the first active line of a field of a format code; it is that of the format's SMPTE standard. -/
opaque Config.fieldRow : Nat → Nat → Nat

/-- R205: the receive equaliser's values while they adapt, by draw. -/
opaque Config.rxAdapted : Nat → BitVec 17

/-- R147: an ancillary packet, from its DID to its checksum, as a repeated copy carries it: an ST 12-2 ATC packet with the process bit of its
distributed binary bits set, any other as it is; the packet's layout is that of its SMPTE standard. -/
opaque Config.atcRepeated : List Nat → List Nat

/-- R329: the ancillary packets, from flag to checksum, in which an audio group carries samples (each its index and four channels) on a line of a frame
of a format code, its control packets among them; the packets' layout is that of their SMPTE standard. -/
opaque Config.audioPackets : Nat → Nat → Nat → Nat → List (Nat × List (BitVec 32)) → List (List Nat)

/-- R132: the audio group of an ancillary packet, from its DID on, if it carries or controls embedded audio; the DIDs are the SMPTE standards'. -/
opaque Config.audioGroup : List Nat → Option Nat

/-- R326: the samples that an audio packet, from its DID on, carries of its group's four channels, as words of R322; the packet's layout is that of its
SMPTE standard. -/
opaque Config.audioSamples : List Nat → List (BitVec 32)

/-- R146: an audio packet, from its DID to its last data word, with its samples at a gain in 2^-16 ns out of 1 ms; any other packet as it is. -/
opaque Config.audioScaled : Nat → List Nat → List Nat

/-- R146: an audio control packet with the audio frame number of an output frame of a format code; any other packet as it is. -/
opaque Config.audioNumbered : Nat → Nat → List Nat → List Nat

/-- R131: an ancillary packet, from its DID on, is an ST 352 payload identifier. -/
opaque Config.isPayloadId : List Nat → Bool

/-- R131, R275: the payload identifier, from its DID to its last data word, of a format on a line, where the interface standard puts one. -/
opaque Config.payloadId : Nat → Bool → Bool → Nat → Option (List Nat)

/-- R142: the ancillary packets of silent embedded audio, from flag to checksum, on a line of a frame of a format code; the packets' layout is
that of their SMPTE standard. -/
opaque Config.silentAudio : Nat → Nat → Nat → List (List Nat)

/-- R248: the answer to a training request that asks for no step. -/
opaque Config.holdAnswer : Nat → BitVec 2

/-- The next change that a lane's receiver asks of the partner's transmitter, TAP × 4 + ACTION, at a draw (R248). -/
opaque Config.nextTap : Nat → BitVec 4

/-- The 150 parity bits of a codeword of RS(272,257) over its 2 570 message bits, symbol by symbol: the generator's roots are not given (R240). -/
opaque Config.fecParity : List Bool → List Bool

/-- The transmit taps that an Ethernet port's PMD training leaves, at a draw: PRE2, PRE1 and POST1 as in LANE_TXEQ (R204). -/
opaque Config.pmdTaps : Nat → BitVec 16

/-- The bits in error that a lane's checker has counted, at a draw (R219). -/
opaque Config.bitErrors : Nat → BitVec 32

/-- Bit `i` of the SSPRQ pattern of IEEE 802.3 Clause 120, two bits a symbol (R218). -/
opaque Config.ssprq : Nat → Bool

/-- The 20-bit word pairs of a line of an SDI raster, by the interface's standard: interface, level B, link and whether the payload identifier is sent; the
format's code and scan; the line number; its VIDEO words; and its ancillary packets, those of vertical blanking and, of horizontal blanking, those of the Y′ and
of the C′b/C′r stream (R173, R273 to R275). -/
opaque Config.sdiLine : Nat × Bool × Nat × Bool → Nat × Bool × Bool → Nat → List (BitVec 32) → List (List Nat) × List (List Nat) × List (List Nat) → List (BitVec 20)

/-- How many ten-bit words of ancillary data fit a line of a format's raster in one data stream: the interface, its level B, the format's code, the line,
horizontal blanking, and the C′b/C′r stream (R274). -/
opaque Config.ancSpace : Nat × Bool → Nat → Nat → Bool → Bool → Nat

/-- The AUDIO_BLOCK markers, group × 2^12 + count, before the ancillary data of a line that an SDI lane receives, from its frame count, the line and its
packets: where the source's blocks of 1 ms begin is not given (R43, R44). -/
opaque Config.audioBlocks : Nat → Nat → Nat → List (List Nat) → List (BitVec 14)

/-- Fields of the IPv4 header of a media packet that the spec does not give: the identification, DF and the ECN bits, of a flow and a sequence number
(R295). -/
opaque Config.ipFields : Nat → Nat → BitVec 19

/-- R251: GEN of the EK1024's own roll-call report, whose other fields do not change. -/
opaque Config.rollGen : Byte

/-- R294: the booked rate of a receive flow in bits per second, by its type and media word; the sender's packing is not given. -/
opaque Config.rxBooked : Nat → BitVec 32 → Nat

/-- R299: the bits on the wire per frame of a transmit flow that is not -20; what it carries is not given. -/
opaque Config.txBooked : Nat → Nat

/-- R295: the first sequence number of a transmit flow. -/
opaque Config.firstSeq : Nat → Nat

/-- R310: word 1 of a NOTIFY, whose contents are not given. -/
opaque Config.notifyWord : W32

/-- R524, R525: what a flash held before the device wrote it, by flash and byte address. -/
opaque Config.flashByte : Nat → Nat → Byte

/-- R544: the serial number in OTP. -/
opaque Config.serial : BitVec 64

/-- R544: the vendor root key hash in OTP, as eight little-endian words. -/
opaque Config.vendorKeyHash : Nat → BitVec 32

/-- R545, R549: the challenge in force, by draw; it is random. -/
opaque Config.challenge : Nat → BitVec 64

/-- R545: the code of a token that is refused for a reason the spec gives no code for, by draw. -/
opaque Config.tokenCode : Nat → BitVec 16

/-- R550: word k of the SHA-256 of the structure record in force, by draw; the record's layout is not given whole. -/
opaque Config.recordHash : Nat → Nat → BitVec 32

/-- R547: word k of the signature that the device identity key makes of a digest. -/
opaque Config.attestSign : Nat → Nat → BitVec 32

/-- R537: word k of the journal's header page, by draw; its layout is not given. -/
opaque Config.journalHeader : Nat → Nat → BitVec 32

/-- R72: the samples of an active row of a generator's bars in a format code; the values of RP 219-1 and of 75 % bars are their standards'. -/
opaque Config.barsRow : Nat → Nat → List Nat

/-- R72: at a pixel where the ramp passes between two codes, whether it takes the upper; the rounding is not given. -/
opaque Config.rampUp : Nat → Nat → Bool

/-- R72: the CRC-12 of the frame-identity code's 52 bits; its polynomial is not given. -/
opaque Config.identityCrc : Nat → BitVec 12

/-- R72: the ancillary packets, from flag to checksum, that carry a generator's tone in four audio groups on a line of a frame of a format code;
the packets' layout is that of their SMPTE standard. -/
opaque Config.tonePackets : Nat → Nat → Nat → List (List Nat)

/-- R362: a pixel of a tile, by the codes of the source's samples normalised to 16 bits (row, then component of a pixel), the crop rectangle, the
destination's size and the pixel's place in it; the scaler's window and roundings are not given. -/
opaque Config.scaledPix : (Nat → Nat → Nat × Nat × Nat) → Nat × Nat × Nat × Nat → Nat × Nat → Nat → Nat → Nat × Nat × Nat

/-- R433: the pages of the regions for audio delay lines (4), tile buffers (5) and launch backlog (6), by the hash of the structure record, which
the Umwick compiler lays out. -/
opaque Config.hbmPages : Nat → List (BitVec 32) → BitVec 16

/-- R543: the settings format that a firmware image's SIDE_FW section declares, by the image's words; its encoding is not given. -/
opaque Config.settingsFormat : List (BitVec 32) → Nat

/-- R543: the defaults of the firmware settings region, by the image's words and the word's place. -/
opaque Config.settingsDefault : List (BitVec 32) → Nat → BitVec 32

end Sys2Proof
end

