-- ==== Sys2Proof/Machine/RegTable.lean ====
section
/-!
DEFINITION. The register table: for each register of the spec its place in the requester view (R578 to R580), its
instances, whether it is banked (R581) or a twin register (R31), who may write it, the masks of its stored, W1C and RC
fields and its reset value, from the field tables of the chapters.
-/
namespace Sys2Proof.Machine

/-- Where a register lies: at its own address, at an offset in both Sides, or among the command-sequencer registers. -/
inductive Space where
  | abs | side | seq
deriving DecidableEq, Repr

/-- Which requesters a register's chapter lets write it (R6, R471); `Bus.lean` says what each class admits. -/
inductive OwnerClass where
  | any | asyStatus | audDst | bench | dest | destAny | destCap | evt | hbm | hbmFix | head | hopProd | lane
  | laneGroup | load | mbx | mgAny | mgPort | nobody | port | prot | r7_10 | r7_10_rfe | refOwner | rfeOwner | rxFlow
  | salvo | salvoSel | sideFw | tb | tdmPort | tdmTrig | tile | token | txFlow
deriving DecidableEq, Repr

/-- One row of the register table. `stride`, `count` and `stride2`, `count2` place the instances; `rw`, `w1c` and `rc` are
the masks of the fields of those access types (R6). -/
structure RegRow where
  space   : Space
  base    : Nat
  stride  : Nat
  count   : Nat
  stride2 : Nat
  count2  : Nat
  banked  : Bool
  twin    : Bool
  owner   : OwnerClass
  rw      : Nat
  w1c     : Nat
  rc      : Nat
  reset   : Nat
deriving DecidableEq, Repr

/-- The row of each register, block by block. -/
def RegName.row : RegName → RegRow
  -- SYS: chapter 19
  | .SYS_ID => ⟨.abs, 0, 0, 1, 0, 1, false, false, .nobody, 0, 0, 0, 0x14EC24⟩  -- R573
  | .SYS_STATUS => ⟨.abs, 4, 0, 1, 0, 1, true, false, .any, 0, 3, 0, 0⟩  -- R573
  | .SYS_RESET_CAUSE => ⟨.abs, 8, 0, 1, 0, 1, false, false, .nobody, 0, 0, 0, 0⟩  -- R573
  | .SYS_POWER => ⟨.abs, 0xC, 0, 1, 0, 1, false, false, .nobody, 0, 0, 0, 0⟩  -- R574
  | .SYS_EVT => ⟨.abs, 0x10, 0, 1, 0, 1, false, false, .any, 0, 7, 0, 0⟩  -- R574
  | .SYS_UPTIME => ⟨.abs, 0x14, 0, 1, 0, 1, false, false, .nobody, 0, 0, 0, 0⟩  -- R573
  | .SYS_TEMP => ⟨.abs, 0x20, 4, 6, 0, 1, false, false, .nobody, 0, 0, 0, 0⟩  -- R575
  -- PARK: chapter 19
  | .PARK_LANE_DECL => ⟨.abs, 0x1000, 4, 64, 0, 1, false, false, .laneGroup, 0x3FFFFF, 0, 0, 0⟩  -- R576
  | .PARK_LANE_STAT => ⟨.abs, 0x1100, 4, 64, 0, 1, false, false, .nobody, 0, 0, 0, 0⟩  -- R576
  | .PARK_ENG_DECL => ⟨.abs, 0x1200, 4, 4, 0, 1, false, false, .r7_10, 0x3FFFFF, 0, 0, 0⟩  -- R576
  | .PARK_ENG_STAT => ⟨.abs, 0x1210, 4, 4, 0, 1, false, false, .nobody, 0, 0, 0, 0⟩  -- R576
  | .PARK_HOST => ⟨.abs, 0x1220, 0, 1, 0, 1, false, false, .r7_10, 3, 0, 0, 3⟩  -- R576
  -- RFE: chapter 05
  | .RFE_CFG => ⟨.abs, 0x100000, 0, 1, 0, 1, false, false, .rfeOwner, 3, 0, 0, 2⟩  -- R191
  | .RFE_LEASE => ⟨.abs, 0x100004, 0, 1, 0, 1, false, false, .rfeOwner, 0x1FFFF, 0, 0, 0x7D0⟩  -- R191
  | .RFE_WDOG_PERIOD => ⟨.abs, 0x100008, 0, 1, 0, 1, false, false, .rfeOwner, 0x1FFFF, 0, 0, 0x3E8⟩  -- R191
  | .RFE_TOLERANCE => ⟨.abs, 0x10000C, 0, 1, 0, 1, false, false, .rfeOwner, 0x3FFFFF, 0, 0, 0⟩  -- R191
  | .RFE_STATE => ⟨.abs, 0x100010, 0, 1, 0, 1, false, false, .nobody, 0, 0, 0, 0⟩  -- R192
  | .RFE_LEASE_LEFT => ⟨.abs, 0x100014, 0, 1, 0, 1, false, false, .nobody, 0, 0, 0, 0⟩  -- R192
  | .RFE_CMD => ⟨.abs, 0x100018, 0, 1, 0, 1, false, false, .rfeOwner, 0, 0, 0, 0⟩  -- R193
  | .RFE_SWO_FRAME => ⟨.abs, 0x10001C, 0, 1, 0, 1, false, false, .rfeOwner, 0xFFFFFFFF, 0, 0, 0⟩  -- R193
  | .RFE_CMD_RES => ⟨.abs, 0x100020, 0, 1, 0, 1, false, false, .nobody, 0, 0, 0, 0⟩  -- R193
  | .RFE_WDOG => ⟨.abs, 0x100030, 4, 2, 0, 1, false, false, .sideFw, 0, 0, 0, 0⟩  -- R194
  | .RFE_CLAIM => ⟨.abs, 0x100038, 4, 2, 0, 1, false, false, .sideFw, 1, 0, 0, 0⟩  -- R194
  | .RFE_EVT => ⟨.abs, 0x100040, 0, 1, 0, 1, false, false, .rfeOwner, 0, 0xFFFF, 0, 0⟩  -- R195
  | .RFE_FO_COUNT => ⟨.abs, 0x100044, 0, 1, 0, 1, false, false, .nobody, 0, 0, 0xFFFFFFFF, 0⟩  -- R196
  | .RFE_LAST => ⟨.abs, 0x100048, 0, 1, 0, 1, false, false, .nobody, 0, 0, 0, 0⟩  -- R196
  | .RFE_RESYNC => ⟨.abs, 0x100050, 4, 2, 0, 1, false, false, .nobody, 0, 0, 0, 0⟩  -- R196
  | .RFE_WARM_LAT => ⟨.abs, 0x100058, 0, 1, 0, 1, false, false, .nobody, 0, 0, 0, 0⟩  -- R196
  -- SLU: chapter 05
  | .SLU_CFG => ⟨.abs, 0x110000, 4, 512, 0, 1, false, false, .lane, 0x3F, 0, 0, 0⟩  -- R197
  | .SLU_STAT => ⟨.abs, 0x111000, 4, 512, 0, 1, false, false, .nobody, 0, 0, 0, 0⟩  -- R197
  | .SLU_EVT => ⟨.abs, 0x112000, 4, 512, 0, 1, false, false, .any, 0, 0x7F, 0, 0⟩  -- R197
  | .SLU_MISMATCH => ⟨.abs, 0x113000, 4, 512, 0, 1, false, false, .nobody, 0, 0, 0xFFFFFFFF, 0⟩  -- R197
  | .SLU_PARERR => ⟨.abs, 0x114000, 4, 512, 0, 1, false, false, .nobody, 0, 0, 0xFFFFFFFF, 0⟩  -- R197
  | .SLU_SUMMARY => ⟨.abs, 0x115000, 4, 16, 0, 1, false, false, .nobody, 0, 0, 0, 0⟩  -- R197
  | .SLU_EVMASK => ⟨.abs, 0x115040, 0, 1, 0, 1, false, false, .any, 0x7F, 0, 0, 0x4F⟩  -- R197
  -- HAF: chapter 05
  | .HAF_CFG => ⟨.abs, 0x120000, 0, 1, 0, 1, false, false, .rfeOwner, 0xFF0F, 0, 0, 0xA00⟩  -- R198
  | .HAF_STAT => ⟨.abs, 0x120004, 0, 1, 0, 1, false, false, .nobody, 0, 0, 0, 0⟩  -- R198
  | .HAF_EVT => ⟨.abs, 0x120008, 0, 1, 0, 1, false, false, .any, 0, 0x3F, 0, 0⟩  -- R198
  | .HAF_TALLY => ⟨.abs, 0x120100, 4, 32, 0, 1, false, false, .nobody, 0, 0, 0, 0⟩  -- R198
  -- ASY: chapter 17
  | .ASY_STATUS0 => ⟨.abs, 0x200000, 0, 1, 0, 1, false, false, .asyStatus, 0, 0xFFFFFFFF, 0, 0⟩  -- R518
  | .ASY_STATUS1 => ⟨.abs, 0x200004, 0, 1, 0, 1, false, false, .asyStatus, 0, 0x1FF, 0, 0⟩  -- R518
  | .ASY_LIVE0 => ⟨.abs, 0x200008, 0, 1, 0, 1, false, false, .nobody, 0, 0, 0, 0⟩  -- R518
  | .ASY_LIVE1 => ⟨.abs, 0x20000C, 0, 1, 0, 1, false, false, .nobody, 0, 0, 0, 0⟩  -- R518
  | .ASY_EVMASK0 => ⟨.abs, 0x200010, 0, 1, 0, 1, false, false, .r7_10_rfe, 0xFFFFFFFF, 0, 0, 0xFFFFFFFF⟩  -- R518
  | .ASY_EVMASK1 => ⟨.abs, 0x200014, 0, 1, 0, 1, false, false, .r7_10_rfe, 0x1FF, 0, 0, 0x1FF⟩  -- R518
  | .ASY_FIRST => ⟨.abs, 0x200020, 4, 4, 0, 1, false, false, .nobody, 0, 0, 0, 0⟩  -- R519
  | .ASY_HIST_STAT => ⟨.abs, 0x200030, 0, 1, 0, 1, false, false, .nobody, 0, 0, 0, 0x1F⟩  -- R519
  | .ASY_HIST_SPOIL => ⟨.abs, 0x200034, 0, 1, 0, 1, false, false, .nobody, 0, 0, 0xFFFFFFFF, 0⟩  -- R519
  | .ASY_ISO_CFG => ⟨.abs, 0x200040, 0, 1, 0, 1, false, false, .r7_10_rfe, 0xFFFFFFFF, 0, 0, 0x60000FA⟩  -- R520
  | .ASY_CTL => ⟨.abs, 0x200044, 0, 1, 0, 1, false, false, .r7_10_rfe, 0, 0, 0, 0⟩  -- R520
  | .ASY_SIDE_STAT => ⟨.abs, 0x200048, 4, 2, 0, 1, false, false, .nobody, 0, 0, 0, 0⟩  -- R520
  | .ASY_RECOV_COUNT => ⟨.abs, 0x200050, 4, 2, 0, 1, false, false, .nobody, 0, 0, 0xFFFF, 0⟩  -- R520
  | .ASY_FW => ⟨.abs, 0x200058, 4, 2, 0, 1, false, false, .sideFw, 0, 0, 0, 0⟩  -- R520
  | .ASY_SEV => ⟨.abs, 0x200100, 4, 48, 0, 1, false, false, .r7_10, 3, 0, 0, 0⟩  -- R518
  | .ASY_HIST => ⟨.abs, 0x200200, 0x10, 32, 4, 4, false, false, .nobody, 0, 0, 0, 0⟩  -- R519
  -- EVT: chapter 16
  | .EVT_STATUS => ⟨.abs, 0x300000, 4, 48, 0, 1, false, false, .evt, 0, 0xFFFFFFFF, 0, 0⟩  -- R504
  | .EVT_ENABLE => ⟨.abs, 0x300100, 4, 48, 0, 1, false, false, .evt, 0xFFFFFFFF, 0, 0, 0⟩  -- R504
  | .EVT_ACTIVE => ⟨.abs, 0x300200, 4, 48, 0, 1, false, false, .nobody, 0, 0, 0, 0⟩  -- R504
  | .EVT_SET => ⟨.abs, 0x300300, 4, 48, 0, 1, false, false, .evt, 0, 0, 0, 0⟩  -- R504
  | .EVT_ROUTE => ⟨.abs, 0x301000, 4, 1536, 0, 1, false, false, .evt, 0x1FFF, 0, 0, 0⟩  -- R504
  -- MBX: chapter 16
  | .MBX_MSG => ⟨.abs, 0x400000, 0x100, 32, 4, 16, false, false, .mbx, 0xFFFFFFFF, 0, 0, 0⟩  -- R503
  | .MBX_LOCK => ⟨.abs, 0x400040, 0x100, 32, 0, 1, false, false, .nobody, 0, 0, 0, 0⟩  -- R503
  | .MBX_DOORBELL => ⟨.abs, 0x400044, 0x100, 32, 0, 1, false, false, .mbx, 0, 0, 0, 0⟩  -- R503
  | .MBX_ACK => ⟨.abs, 0x400048, 0x100, 32, 0, 1, false, false, .mbx, 0xFFFFFF, 0, 0, 0⟩  -- R503
  | .MBX_CTL => ⟨.abs, 0x40004C, 0x100, 32, 0, 1, false, false, .mbx, 0, 0, 0, 0⟩  -- R503
  | .MBX_STAT => ⟨.abs, 0x400050, 0x100, 32, 0, 1, false, false, .nobody, 0, 0, 0, 0x280⟩  -- R503
  | .MBX_EVT => ⟨.abs, 0x400054, 0x100, 32, 0, 1, false, false, .mbx, 0, 0xF, 0, 0⟩  -- R503
  | .MBX_CFG => ⟨.abs, 0x400058, 0x100, 32, 0, 1, false, false, .r7_10, 0xF, 0, 0, 0xA⟩  -- R503
  -- STR: chapter 15
  | .STR_ERR => ⟨.abs, 0x500000, 0, 1, 0, 1, true, false, .any, 0, 0x1F, 0, 0⟩  -- R486
  | .STR_ERR_ADDR => ⟨.abs, 0x500004, 0, 1, 0, 1, true, false, .nobody, 0, 0, 0, 0⟩  -- R486
  | .STR_ID => ⟨.abs, 0x500008, 0, 1, 0, 1, true, false, .nobody, 0, 0, 0, 0⟩  -- R486
  | .STR_LOCK => ⟨.abs, 0x500010, 0, 1, 0, 1, true, false, .any, 0, 0, 0, 0⟩  -- R487
  | .STR_LOCK_STAT => ⟨.abs, 0x500014, 0, 1, 0, 1, true, false, .nobody, 0, 0, 0, 0⟩  -- R487
  | .STR_EVT => ⟨.abs, 0x500020, 0, 1, 0, 1, false, false, .any, 0, 7, 0, 0⟩  -- R487
  | .STR_MCFG => ⟨.abs, 0x500040, 4, 8, 0, 1, false, false, .r7_10, 0xF, 0, 0, 0⟩  -- R488
  | .STR_PATH => ⟨.abs, 0x500060, 4, 8, 0, 1, false, false, .nobody, 0, 0, 0, 0⟩  -- R488
  | .STR_HP_STAT => ⟨.abs, 0x500080, 4, 2, 0, 1, false, false, .nobody, 0, 0, 0xFF0000, 0⟩  -- R488
  | .STR_SLICE => ⟨.abs, 0x5000A0, 4, 8, 0, 1, false, false, .nobody, 0, 0, 0, 0⟩  -- R488
  | .STR_MRESET_LOG => ⟨.abs, 0x5000C0, 4, 8, 0, 1, false, false, .nobody, 0, 0, 0, 0x78⟩  -- R489
  | .STR_PART_DEST => ⟨.abs, 0x500120, 0x20, 10, 4, 8, false, false, .nobody, 0, 0, 0, 0⟩  -- R490
  | .STR_PART_HEADS => ⟨.abs, 0x500284, 4, 10, 0, 1, false, false, .nobody, 0, 0, 0, 0⟩  -- R490
  | .STR_PART_MISC => ⟨.abs, 0x5002C4, 4, 10, 0, 1, false, false, .nobody, 0, 0, 0, 0⟩  -- R490
  -- WIN: chapter 15
  | .WIN_CTL => ⟨.abs, 0x500400, 0, 1, 0, 1, true, false, .any, 0x1F, 0, 0, 0⟩  -- R491
  | .WIN_ADDR_LO => ⟨.abs, 0x500404, 0, 1, 0, 1, true, false, .any, 0xFFFFFFFC, 0, 0, 0⟩  -- R491
  | .WIN_ADDR_HI => ⟨.abs, 0x500408, 0, 1, 0, 1, true, false, .any, 0xFF, 0, 0, 0⟩  -- R491
  | .WIN_STAT => ⟨.abs, 0x50040C, 0, 1, 0, 1, true, false, .nobody, 0, 0, 0, 0⟩  -- R491
  | .WIN_DATA => ⟨.abs, 0x501000, 4, 1024, 0, 1, true, false, .any, 0xFFFFFFFF, 0, 0, 0⟩  -- R491
  -- TB: chapter 12
  | .TB_CFG => ⟨.abs, 0x600000, 0x1000, 4, 0, 1, false, false, .tb, 0x1FF, 0, 0, 0x7F⟩  -- R405
  | .TB_NS => ⟨.abs, 0x600004, 0x1000, 4, 0, 1, false, false, .nobody, 0, 0, 0, 0⟩  -- R405
  | .TB_SEC_LO => ⟨.abs, 0x600008, 0x1000, 4, 0, 1, true, false, .nobody, 0, 0, 0, 0⟩  -- R405
  | .TB_SEC_HI => ⟨.abs, 0x60000C, 0x1000, 4, 0, 1, true, false, .nobody, 0, 0, 0, 0⟩  -- R405
  | .TB_RATE_LO => ⟨.abs, 0x600010, 0x1000, 4, 0, 1, false, false, .tb, 0xFFFFFFFF, 0, 0, 0⟩  -- R405
  | .TB_RATE_HI => ⟨.abs, 0x600014, 0x1000, 4, 0, 1, false, false, .tb, 0xFF, 0, 0, 0⟩  -- R405
  | .TB_STEP_LO => ⟨.abs, 0x600018, 0x1000, 4, 0, 1, false, false, .tb, 0xFFFFFFFF, 0, 0, 0⟩  -- R405
  | .TB_STEP_HI => ⟨.abs, 0x60001C, 0x1000, 4, 0, 1, false, false, .tb, 0xFFFFFFFF, 0, 0, 0⟩  -- R405
  | .TB_STEP_FRAC => ⟨.abs, 0x600020, 0x1000, 4, 0, 1, false, false, .tb, 0xFFFF, 0, 0, 0⟩  -- R405
  | .TB_STEP_CTL => ⟨.abs, 0x600024, 0x1000, 4, 0, 1, false, false, .tb, 0, 0, 0, 0⟩  -- R405
  | .TB_STEP_LIMIT => ⟨.abs, 0x600028, 0x1000, 4, 0, 1, false, false, .tb, 0xFFFFFFFF, 0, 0, 0x3E8⟩  -- R405
  | .TB_STAT => ⟨.abs, 0x60002C, 0x1000, 4, 0, 1, false, false, .nobody, 0, 0, 0, 0⟩  -- R405
  | .TB_EVT => ⟨.abs, 0x600030, 0x1000, 4, 0, 1, false, false, .any, 0, 0x1F, 0, 0⟩  -- R406
  | .TB_LAST_STEP_LO => ⟨.abs, 0x600034, 0x1000, 4, 0, 1, false, false, .nobody, 0, 0, 0, 0⟩  -- R405
  | .TB_LAST_STEP_HI => ⟨.abs, 0x600038, 0x1000, 4, 0, 1, false, false, .nobody, 0, 0, 0, 0⟩  -- R405
  | .TB_CMP_EVT => ⟨.abs, 0x600040, 0x1000, 4, 0, 1, false, false, .any, 0, 0xFFFFFFFF, 0, 0⟩  -- R406
  | .TB_CMP_SKIP => ⟨.abs, 0x600044, 0x1000, 4, 0, 1, false, false, .any, 0, 0xFFFFFFFF, 0, 0⟩  -- R406
  | .TB_CMP_LO => ⟨.abs, 0x600400, 0x1000, 4, 0x20, 32, false, false, .tb, 0xFFFFFFFF, 0, 0, 0⟩  -- R407
  | .TB_CMP_HI => ⟨.abs, 0x600404, 0x1000, 4, 0x20, 32, false, false, .tb, 0xFFFFFFFF, 0, 0, 0⟩  -- R407
  | .TB_CMP_PER => ⟨.abs, 0x600408, 0x1000, 4, 0x20, 32, false, false, .tb, 0xFFFFFFFF, 0, 0, 0⟩  -- R407
  | .TB_CMP_FRAC => ⟨.abs, 0x60040C, 0x1000, 4, 0x20, 32, false, false, .tb, 0xFFFFFFFF, 0, 0, 0⟩  -- R407
  | .TB_CMP_CTL => ⟨.abs, 0x600410, 0x1000, 4, 0x20, 32, false, false, .tb, 0x1FFFFF, 0, 0, 0x40⟩  -- R407
  -- PTP: chapter 12
  | .PTP_PORT_CFG => ⟨.abs, 0x610000, 0x100, 130, 0, 1, false, false, .port, 0xFF, 0, 0, 0⟩  -- R408
  | .PTP_INGRESS => ⟨.abs, 0x610004, 0x100, 130, 0, 1, false, false, .port, 0xFFFFFFFF, 0, 0, 0⟩  -- R408
  | .PTP_EGRESS => ⟨.abs, 0x610008, 0x100, 130, 0, 1, false, false, .port, 0xFFFFFFFF, 0, 0, 0⟩  -- R408
  | .PTP_ASYM => ⟨.abs, 0x61000C, 0x100, 130, 0, 1, false, false, .port, 0xFFFFFFFF, 0, 0, 0⟩  -- R408
  | .PTP_TXTS_DATA => ⟨.abs, 0x610010, 0x100, 130, 0, 1, true, false, .nobody, 0, 0, 0xFFFFFFFF, 0⟩  -- R408
  | .PTP_TXTS_STAT => ⟨.abs, 0x610014, 0x100, 130, 0, 1, true, false, .nobody, 0, 0, 0, 0⟩  -- R408
  | .PTP_TXTS_SPOIL => ⟨.abs, 0x610018, 0x100, 130, 0, 1, false, false, .nobody, 0, 0, 0xFFFFFFFF, 0⟩  -- R408
  | .PTP_PORT_EVT => ⟨.abs, 0x61001C, 0x100, 130, 0, 1, false, false, .any, 0, 3, 0, 0⟩  -- R408
  -- REF: chapter 13
  | .REF_CFG => ⟨.abs, 0x700000, 0, 1, 0, 1, false, false, .refOwner, 0x1FFFFFF, 0, 0, 0xA80⟩  -- R427
  | .REF_TIMING => ⟨.abs, 0x700004, 0, 1, 0, 1, false, false, .refOwner, 0xFFFFFFF, 0, 0, 0xA02814⟩  -- R427
  | .REF_CAND_CFG => ⟨.abs, 0x700010, 4, 10, 0, 1, false, false, .refOwner, 0x7FFFFF, 0, 0, 0x640⟩  -- R427
  | .REF_CAND_OFFSET => ⟨.abs, 0x700040, 4, 10, 0, 1, false, false, .refOwner, 0xFFFFFFFF, 0, 0, 0⟩  -- R427
  | .REF_CAND_STAT => ⟨.abs, 0x700080, 4, 10, 0, 1, false, false, .nobody, 0, 0, 0, 0⟩  -- R428
  | .REF_CAND_EVT => ⟨.abs, 0x7000C0, 4, 10, 0, 1, false, false, .any, 0, 0x1F, 0, 0⟩  -- R429
  | .REF_CAND_GLITCH => ⟨.abs, 0x700100, 4, 10, 0, 1, false, false, .nobody, 0, 0, 0xFFFFFFFF, 0⟩  -- R428
  | .REF_TB_OK => ⟨.abs, 0x700140, 4, 4, 0, 1, false, false, .tb, 1, 0, 0, 0⟩  -- R427
  | .REF_STAT => ⟨.abs, 0x700180, 0, 1, 0, 1, false, false, .nobody, 0, 0, 0, 0xFF8⟩  -- R428
  | .REF_HIST => ⟨.abs, 0x700184, 0, 1, 0, 1, false, false, .any, 0, 0x1F, 0, 0⟩  -- R429
  | .REF_EVT => ⟨.abs, 0x700188, 0, 1, 0, 1, false, false, .any, 0, 0x7F, 0, 0⟩  -- R429
  | .REF_PHASE_LO => ⟨.abs, 0x700190, 0, 1, 0, 1, false, false, .nobody, 0, 0, 0, 0⟩  -- R428
  | .REF_PHASE_HI => ⟨.abs, 0x700194, 0, 1, 0, 1, false, false, .nobody, 0, 0, 0, 0⟩  -- R428
  | .REF_FREQ => ⟨.abs, 0x70019C, 0, 1, 0, 1, false, false, .nobody, 0, 0, 0, 0⟩  -- R428
  | .REF_CMD => ⟨.abs, 0x7001A0, 0, 1, 0, 1, false, false, .refOwner, 0, 0, 0, 0⟩  -- R430
  | .REF_CMD_RES => ⟨.abs, 0x7001A4, 0, 1, 0, 1, false, false, .nobody, 0, 0, 0, 0⟩  -- R430
  | .REF_ALIGN_DELTA => ⟨.abs, 0x7001A8, 0, 1, 0, 1, false, false, .nobody, 0, 0, 0, 0⟩  -- R428
  | .REF_PULSE_CFG => ⟨.abs, 0x700200, 4, 8, 0, 1, false, false, .refOwner, 0x1FFFFFFF, 0, 0, 0x4000⟩  -- R430
  | .REF_PULSE_OFFSET => ⟨.abs, 0x700220, 4, 8, 0, 1, false, false, .refOwner, 0xFFFFFF, 0, 0, 0⟩  -- R430
  | .REF_CAD_DESC => ⟨.abs, 0x700300, 4, 32, 0, 1, false, false, .nobody, 0, 0, 0, 0⟩  -- R431
  | .REF_CAD_FRAME => ⟨.abs, 0x700380, 4, 32, 0, 1, false, false, .nobody, 0, 0, 0, 0⟩  -- R431
  -- TDM: chapter 10
  | .TDM_CFG => ⟨.abs, 0x780000, 0x100, 16, 0, 1, false, false, .tdmPort, 0xFFFF, 0, 0, 0x8E⟩  -- R354
  | .TDM_CTL => ⟨.abs, 0x780004, 0x100, 16, 0, 1, false, false, .tdmPort, 0, 0, 0, 0⟩  -- R355
  | .TDM_STAT => ⟨.abs, 0x780008, 0x100, 16, 0, 1, false, false, .nobody, 0, 0, 0, 0⟩  -- R355
  | .TDM_EVT => ⟨.abs, 0x78000C, 0x100, 16, 0, 1, false, false, .any, 0, 0x3FF, 0, 0⟩  -- R356
  | .TDM_GLITCH => ⟨.abs, 0x780010, 0x100, 16, 0, 1, false, false, .nobody, 0, 0, 0xFFFFFFFF, 0⟩  -- R357
  | .TDM_SPOIL => ⟨.abs, 0x780014, 0x100, 16, 0, 1, false, false, .nobody, 0, 0, 0xFFFFFFFF, 0⟩  -- R357
  | .TDM_FRAME => ⟨.abs, 0x780018, 0x100, 16, 0, 1, false, false, .nobody, 0, 0, 0, 0⟩  -- R357
  | .TDM_START => ⟨.abs, 0x78001C, 0x100, 16, 0, 1, false, false, .nobody, 0, 0, 0, 0⟩  -- R357
  | .TDM_TRIG => ⟨.abs, 0x781000, 0, 1, 0, 1, false, false, .tdmTrig, 0x3FFF, 0, 0, 0⟩  -- R355
  -- LANE: chapter 06
  | .LANE_CFG => ⟨.abs, 0x800000, 0x1000, 512, 0, 1, false, false, .nobody, 0, 0, 0, 0⟩  -- R223
  | .LANE_CTL => ⟨.abs, 0x800004, 0x1000, 512, 0, 1, false, false, .lane, 0x3F, 0, 0, 4⟩  -- R224
  | .LANE_TXEQ => ⟨.abs, 0x800008, 0x1000, 512, 0, 1, false, false, .lane, 0xFFFFF, 0, 0, 0xA2040⟩  -- R225
  | .LANE_RXEQ => ⟨.abs, 0x80000C, 0x1000, 512, 0, 1, false, false, .lane, 0x1FFFF, 0, 0, 0x414⟩  -- R225
  | .LANE_DET => ⟨.abs, 0x800010, 0x1000, 512, 0, 1, false, false, .lane, 0xFFFFFFFF, 0, 0, 0x1E190906⟩  -- R226
  | .LANE_STAT => ⟨.abs, 0x800014, 0x1000, 512, 0, 1, false, false, .nobody, 0, 0, 0, 0xD⟩  -- R227
  | .LANE_EVT => ⟨.abs, 0x800018, 0x1000, 512, 0, 1, false, false, .any, 0, 0x7FF, 0, 0⟩  -- R228
  | .LANE_EYE => ⟨.abs, 0x80001C, 0x1000, 512, 0, 1, false, false, .nobody, 0, 0, 0, 0⟩  -- R229
  | .LANE_TEST => ⟨.abs, 0x800020, 0x1000, 512, 0, 1, false, false, .lane, 0x3FF, 0, 0, 0⟩  -- R230
  | .LANE_BER_ERR => ⟨.abs, 0x800024, 0x1000, 512, 0, 1, false, false, .nobody, 0, 0, 0xFFFFFFFF, 0⟩  -- R230
  | .LANE_BER_TIME => ⟨.abs, 0x800028, 0x1000, 512, 0, 1, false, false, .nobody, 0, 0, 0, 0⟩  -- R230
  | .LANE_FILL => ⟨.abs, 0x80002C, 0x1000, 512, 0, 1, false, false, .nobody, 0, 0, 0xFFFFFFFF, 0⟩  -- R230
  | .LANE_QSTAT => ⟨.abs, 0x800F00, 0x1000, 512, 0, 1, false, false, .nobody, 0, 0, 0, 0x10⟩  -- R231
  | .LANE_SUMMARY => ⟨.abs, 0x800F40, 4, 16, 0, 1, false, false, .nobody, 0, 0, 0, 0⟩  -- R228
  | .LANE_EVMASK => ⟨.abs, 0x800F80, 0, 1, 0, 1, false, false, .any, 0x7FF, 0, 0, 0x585⟩  -- R228
  -- NVL: chapter 07
  | .NVL_CFG => ⟨.abs, 0xA00000, 0x1000, 512, 0, 1, false, false, .lane, 3, 0, 0, 0⟩  -- R257
  | .NVL_STAT => ⟨.abs, 0xA00004, 0x1000, 512, 0, 1, false, false, .nobody, 0, 0, 0, 0⟩  -- R257
  | .NVL_EVT => ⟨.abs, 0xA00008, 0x1000, 512, 0, 1, false, false, .any, 0, 0x3FFF, 0, 0⟩  -- R258
  | .NVL_FEC_CORR => ⟨.abs, 0xA0000C, 0x1000, 512, 0, 1, false, false, .nobody, 0, 0, 0xFFFFFFFF, 0⟩  -- R259
  | .NVL_FEC_UNCORR => ⟨.abs, 0xA00010, 0x1000, 512, 0, 1, false, false, .nobody, 0, 0, 0xFFFFFFFF, 0⟩  -- R259
  | .NVL_CRC_ERR => ⟨.abs, 0xA00014, 0x1000, 512, 0, 1, false, false, .nobody, 0, 0, 0xFFFFFFFF, 0⟩  -- R259
  | .NVL_HDR_ERR => ⟨.abs, 0xA00018, 0x1000, 512, 0, 1, false, false, .nobody, 0, 0, 0xFFFFFFFF, 0⟩  -- R259
  | .NVL_TX_DROP => ⟨.abs, 0xA0001C, 0x1000, 512, 0, 1, false, false, .nobody, 0, 0, 0xFFFF, 0⟩  -- R259
  | .NVL_REMOTE => ⟨.abs, 0xA00020, 0x1000, 512, 0, 1, false, false, .nobody, 0, 0, 0, 0⟩  -- R260
  | .NVL_PARTNER0 => ⟨.abs, 0xA00030, 0x1000, 512, 0, 1, false, false, .nobody, 0, 0, 0, 0⟩  -- R260
  | .NVL_PARTNER1 => ⟨.abs, 0xA00034, 0x1000, 512, 0, 1, false, false, .nobody, 0, 0, 0, 0⟩  -- R260
  | .NVL_PARTNER2 => ⟨.abs, 0xA00038, 0x1000, 512, 0, 1, false, false, .nobody, 0, 0, 0, 0⟩  -- R260
  | .NVL_PARTNER3 => ⟨.abs, 0xA0003C, 0x1000, 512, 0, 1, false, false, .nobody, 0, 0, 0, 0⟩  -- R260
  | .NVL_SUMMARY => ⟨.abs, 0xA00F40, 4, 16, 0, 1, false, false, .nobody, 0, 0, 0, 0⟩  -- R258
  | .NVL_EVMASK => ⟨.abs, 0xA00F80, 0, 1, 0, 1, false, false, .any, 0x3FFF, 0, 0, 0x22EE⟩  -- R258
  -- ETH: chapter 09
  | .ETH_PORT_CFG => ⟨.abs, 0xC00000, 0x1000, 130, 0, 1, false, false, .port, 0x3FFFFFF, 0, 0, 0x2140000⟩  -- R313
  | .ETH_PORT_STAT => ⟨.abs, 0xC00004, 0x1000, 130, 0, 1, false, false, .nobody, 0, 0, 0, 0⟩  -- R313
  | .ETH_PORT_EVT => ⟨.abs, 0xC00008, 0x1000, 130, 0, 1, false, false, .any, 0, 0x7FF, 0, 0⟩  -- R314
  | .ETH_PORT_MAC_LO => ⟨.abs, 0xC0000C, 0x1000, 130, 0, 1, false, false, .port, 0xFFFFFFFF, 0, 0, 0⟩  -- R315
  | .ETH_PORT_MAC_HI => ⟨.abs, 0xC00010, 0x1000, 130, 0, 1, false, false, .port, 0xFFFF, 0, 0, 0⟩  -- R315
  | .ETH_PORT_IP => ⟨.abs, 0xC00014, 0x1000, 130, 0, 1, false, false, .port, 0xFFFFFFFF, 0, 0, 0⟩  -- R315
  | .ETH_PORT_NH_LO => ⟨.abs, 0xC00018, 0x1000, 130, 0, 1, false, false, .port, 0xFFFFFFFF, 0, 0, 0⟩  -- R315
  | .ETH_PORT_NH_HI => ⟨.abs, 0xC0001C, 0x1000, 130, 0, 1, false, false, .port, 0xFFFF, 0, 0, 0⟩  -- R315
  | .ETH_CTX_DATA => ⟨.abs, 0xC00024, 0x1000, 130, 0, 1, false, false, .port, 0, 0, 0, 0⟩  -- R315
  | .ETH_CTX_CTL => ⟨.abs, 0xC00028, 0x1000, 130, 0, 1, false, false, .port, 0, 0, 0, 0⟩  -- R315
  | .ETH_CTX_STAT => ⟨.abs, 0xC0002C, 0x1000, 130, 0, 1, false, false, .nobody, 0, 0, 0, 0x1000⟩  -- R315
  | .ETH_CRX_DATA => ⟨.abs, 0xC00030, 0x1000, 130, 0, 1, false, false, .nobody, 0, 0, 0xFFFFFFFF, 0⟩  -- R315
  | .ETH_CRX_STAT => ⟨.abs, 0xC00034, 0x1000, 130, 0, 1, false, false, .nobody, 0, 0, 0, 0⟩  -- R315
  | .ETH_CRX_SPOIL => ⟨.abs, 0xC00038, 0x1000, 130, 0, 1, false, false, .nobody, 0, 0, 0xFFFFFFFF, 0⟩  -- R315
  | .ETH_PAUSE_STAT => ⟨.abs, 0xC0003C, 0x1000, 130, 0, 1, false, false, .nobody, 0, 0, 0, 0⟩  -- R315
  | .ETH_SNAP => ⟨.abs, 0xC00040, 0x1000, 130, 0, 1, true, false, .any, 0, 0, 0, 0⟩  -- R315
  | .ETH_CNT_HALF0 => ⟨.abs, 0xC00044, 0x1000, 130, 0, 1, false, false, .any, 0, 0xFFFFFFFF, 0, 0⟩  -- R315
  | .ETH_CNT_HALF1 => ⟨.abs, 0xC00048, 0x1000, 130, 0, 1, false, false, .any, 0, 0x3FFF, 0, 0⟩  -- R315
  | .ETH_MG_CFG => ⟨.abs, 0xC80080, 0x1000, 2, 0, 1, false, false, .mgPort, 0x3FFFF, 0, 0, 0x30D43⟩  -- R316
  | .ETH_MG_IP => ⟨.abs, 0xC80084, 0x1000, 2, 0, 1, false, false, .mgPort, 0xFFFFFFFF, 0, 0, 0⟩  -- R316
  | .ETH_RRP_HOST => ⟨.abs, 0xC80090, 4, 4, 0, 1, false, false, .mgAny, 0x3FFFF, 0, 0, 0⟩  -- R316
  | .ETH_RRP_HOST_IP => ⟨.abs, 0xC800A0, 4, 4, 0, 1, false, false, .mgAny, 0xFFFFFFFF, 0, 0, 0⟩  -- R316
  | .ETH_WAKE_HIT => ⟨.abs, 0xC800B0, 0x1000, 2, 0, 1, false, false, .any, 0, 0xFF, 0, 0⟩  -- R316
  | .ETH_CNT => ⟨.abs, 0xC00100, 0x1000, 130, 4, 46, true, false, .nobody, 0, 0, 0, 0⟩  -- R315
  | .ETH_WAKE_CTL => ⟨.abs, 0xC80200, 0x1000, 2, 4, 8, false, false, .mgPort, 0xFFFF0003, 0, 0, 0⟩  -- R316
  | .ETH_WAKE_MASK => ⟨.abs, 0xC80400, 0x1000, 2, 4, 256, false, false, .mgPort, 0xFFFFFFFF, 0, 0, 0⟩  -- R316
  | .ETH_SUMMARY => ⟨.abs, 0xC00F40, 4, 5, 0, 1, false, false, .nobody, 0, 0, 0, 0⟩  -- R314
  | .ETH_EVMASK => ⟨.abs, 0xC00F80, 0, 1, 0, 1, false, false, .any, 0x7FF, 0, 0, 0x4DA⟩  -- R314
  | .ETH_RXF_CFG => ⟨.abs, 0xD00000, 4, 4096, 0, 1, false, false, .rxFlow, 0x3FE0018, 0, 0, 0x500000⟩  -- R318
  | .ETH_RXF_DST_E => ⟨.abs, 0xD04000, 4, 4096, 0, 1, false, false, .rxFlow, 0xFFFFFFFF, 0, 0, 0⟩  -- R317
  | .ETH_RXF_DST_W => ⟨.abs, 0xD08000, 4, 4096, 0, 1, false, false, .rxFlow, 0xFFFFFFFF, 0, 0, 0⟩  -- R317
  | .ETH_RXF_SRC_E => ⟨.abs, 0xD0C000, 4, 4096, 0, 1, false, false, .rxFlow, 0xFFFFFFFF, 0, 0, 0⟩  -- R317
  | .ETH_RXF_SRC_W => ⟨.abs, 0xD10000, 4, 4096, 0, 1, false, false, .rxFlow, 0xFFFFFFFF, 0, 0, 0⟩  -- R317
  | .ETH_RXF_UDP => ⟨.abs, 0xD14000, 4, 4096, 0, 1, false, false, .rxFlow, 0xFFFFFFFF, 0, 0, 0⟩  -- R317
  | .ETH_RXF_MEDIA => ⟨.abs, 0xD18000, 4, 4096, 0, 1, false, false, .rxFlow, 0xFFFF, 0, 0, 0⟩  -- R318
  | .ETH_RXF_STAT => ⟨.abs, 0xD1C000, 4, 4096, 0, 1, false, false, .nobody, 0, 0, 0, 0⟩  -- R318
  | .ETH_RXF_EVT => ⟨.abs, 0xD20000, 4, 4096, 0, 1, false, false, .any, 0, 0xFF, 0, 0⟩  -- R319
  | .ETH_RXF_SKEW => ⟨.abs, 0xD24000, 4, 4096, 0, 1, false, false, .nobody, 0, 0, 0, 0⟩  -- R318
  | .ETH_RXF_LOST => ⟨.abs, 0xD28000, 4, 4096, 0, 1, false, false, .nobody, 0, 0, 0xFFFFFFFF, 0⟩  -- R318
  | .ETH_RXF_SUMMARY => ⟨.abs, 0xD2C000, 4, 128, 0, 1, false, false, .nobody, 0, 0, 0, 0⟩  -- R319
  | .ETH_RXF_EVMASK => ⟨.abs, 0xD2C200, 0, 1, 0, 1, false, false, .any, 0xFF, 0, 0, 0xEB⟩  -- R319
  | .ETH_TXF_CFG => ⟨.abs, 0xD80000, 4, 4096, 0, 1, false, false, .txFlow, 0x3FE0018, 0, 0, 0x2200000⟩  -- R320
  | .ETH_TXF_DST_E => ⟨.abs, 0xD84000, 4, 4096, 0, 1, false, false, .txFlow, 0xFFFFFFFF, 0, 0, 0⟩  -- R317
  | .ETH_TXF_DST_W => ⟨.abs, 0xD88000, 4, 4096, 0, 1, false, false, .txFlow, 0xFFFFFFFF, 0, 0, 0⟩  -- R317
  | .ETH_TXF_UDP => ⟨.abs, 0xD8C000, 4, 4096, 0, 1, false, false, .txFlow, 0xFFFFFFFF, 0, 0, 0⟩  -- R317
  | .ETH_TXF_PKT => ⟨.abs, 0xD90000, 4, 4096, 0, 1, false, false, .txFlow, 0x1FFFFFF, 0, 0, 0x18004B0⟩  -- R320
  | .ETH_TXF_SSRC => ⟨.abs, 0xD94000, 4, 4096, 0, 1, false, false, .txFlow, 0xFFFFFFFF, 0, 0, 0⟩  -- R317
  | .ETH_TXF_STAT => ⟨.abs, 0xD98000, 4, 4096, 0, 1, false, false, .nobody, 0, 0, 0, 0⟩  -- R320
  | .ETH_TXF_LATE => ⟨.abs, 0xD9C000, 4, 4096, 0, 1, false, false, .nobody, 0, 0, 0xFFFFFFFF, 0⟩  -- R320
  | .ETH_TXF_MAXLATE => ⟨.abs, 0xDA0000, 4, 4096, 0, 1, false, false, .nobody, 0, 0, 0xFFFFFFFF, 0⟩  -- R320
  -- SDI: chapter 08
  | .SDI_CFG => ⟨.abs, 0xE00000, 0x1000, 512, 0, 1, false, false, .lane, 0xF7, 0, 0, 0x42⟩  -- R278
  | .SDI_STAT => ⟨.abs, 0xE00004, 0x1000, 512, 0, 1, false, false, .nobody, 0, 0, 0, 0⟩  -- R278
  | .SDI_EVT => ⟨.abs, 0xE00008, 0x1000, 512, 0, 1, false, false, .any, 0, 0x7FF, 0, 0⟩  -- R279
  | .SDI_VPID => ⟨.abs, 0xE0000C, 0x1000, 512, 0, 1, false, false, .nobody, 0, 0, 0, 0⟩  -- R280
  | .SDI_TC => ⟨.abs, 0xE00010, 0x1000, 512, 0, 1, false, false, .nobody, 0, 0, 0, 0⟩  -- R280
  | .SDI_CRC_ERR => ⟨.abs, 0xE00014, 0x1000, 512, 0, 1, false, false, .nobody, 0, 0, 0xFFFFFFFF, 0⟩  -- R280
  | .SDI_ANC_ERR => ⟨.abs, 0xE00018, 0x1000, 512, 0, 1, false, false, .nobody, 0, 0, 0xFFFFFFFF, 0⟩  -- R280
  | .SDI_SUMMARY => ⟨.abs, 0xE00F40, 4, 16, 0, 1, false, false, .nobody, 0, 0, 0, 0⟩  -- R279
  | .SDI_EVMASK => ⟨.abs, 0xE00F80, 0, 1, 0, 1, false, false, .any, 0x7FF, 0, 0, 0x66A⟩  -- R279
  -- XPT: chapter 02/03
  | .XPT_IN_CFG => ⟨.side, 0x40000, 4, 1024, 0, 1, false, true, .any, 0x3F1F07, 0, 0, 0x40000⟩  -- R65
  | .XPT_IN_DESC => ⟨.side, 0x41000, 4, 1024, 0, 1, false, false, .nobody, 0, 0, 0, 0⟩  -- R66
  | .XPT_IN_PHASE => ⟨.side, 0x42000, 4, 1024, 0, 1, false, false, .nobody, 0, 0, 0, 0⟩  -- R67
  | .XPT_IN_PERIOD => ⟨.side, 0x43000, 4, 1024, 0, 1, false, false, .nobody, 0, 0, 0, 0⟩  -- R67
  | .XPT_IN_MSTAT => ⟨.side, 0x44000, 4, 1024, 0, 1, false, false, .any, 0, 0x1FFF, 0, 0⟩  -- R68
  | .XPT_IN_LOST => ⟨.side, 0x45000, 4, 1024, 0, 1, false, false, .nobody, 0, 0, 0xFFFFFFFF, 0⟩  -- R69
  | .XPT_IN_BSPOIL => ⟨.side, 0x46000, 4, 1024, 0, 1, false, false, .nobody, 0, 0, 0xFFFFFFFF, 0⟩  -- R69
  | .XPT_IN_SUMMARY => ⟨.side, 0x47000, 4, 32, 0, 1, false, false, .nobody, 0, 0, 0, 0⟩  -- R70
  | .XPT_IN_EVMASK => ⟨.side, 0x47080, 0, 1, 0, 1, false, false, .any, 0x1FFF, 0, 0, 0x1DF0⟩  -- R70
  | .XPT_GEN_CTL => ⟨.side, 0x48000, 4, 64, 0, 1, false, true, .any, 0x3FFFF, 0, 0, 0⟩  -- R72
  | .XPT_GEN_LEVEL => ⟨.side, 0x48100, 4, 64, 0, 1, false, true, .any, 0x3FFFFFFF, 0, 0, 0x1F680200⟩  -- R72
  | .XPT_OUT_CFG => ⟨.side, 0x50000, 4, 1024, 0, 1, false, true, .dest, 0x3FF, 0, 0, 0⟩  -- R109
  | .XPT_OUT_OFFSET => ⟨.side, 0x51000, 4, 1024, 0, 1, false, true, .dest, 0x3FFFFFF, 0, 0, 0⟩  -- R110
  | .XPT_OUT_DESC => ⟨.side, 0x52000, 4, 1024, 0, 1, false, false, .nobody, 0, 0, 0, 0⟩  -- R111
  | .XPT_OUT_STAT => ⟨.side, 0x53000, 4, 1024, 0, 1, false, false, .any, 0, 0x1FF, 0, 0⟩  -- R112
  | .XPT_OUT_TAKEN => ⟨.side, 0x54000, 4, 1024, 0, 1, false, false, .nobody, 0, 0, 0, 0⟩  -- R113
  | .XPT_ROUTE => ⟨.side, 0x56000, 4, 1344, 0, 1, false, false, .nobody, 0, 0, 0, 0⟩  -- R113
  | .XPT_CAP_CFG => ⟨.side, 0x58000, 4, 64, 0, 1, false, true, .destCap, 0x1F1F, 0, 0, 0⟩  -- R114
  | .XPT_CAP_STAT => ⟨.side, 0x58100, 4, 64, 0, 1, false, false, .any, 0, 0x1000, 0, 0⟩  -- R115
  | .XPT_OUT_SUMMARY => ⟨.side, 0x59000, 4, 32, 0, 1, false, false, .nobody, 0, 0, 0, 0⟩  -- R116
  | .XPT_OUT_EVMASK => ⟨.side, 0x59080, 0, 1, 0, 1, false, false, .any, 0x1FF, 0, 0, 0x1BE⟩  -- R116
  -- SEAM: chapter 04
  | .SEAM_CFG => ⟨.side, 0x60000, 4, 1024, 0, 1, false, true, .dest, 0x7FFFF, 0, 0, 0⟩  -- R149
  | .SEAM_STAT => ⟨.side, 0x61000, 4, 1024, 0, 1, false, false, .nobody, 0, 0, 0, 0⟩  -- R150
  | .SEAM_EVT => ⟨.side, 0x62000, 4, 1024, 0, 1, false, false, .any, 0, 0x3F, 0, 0⟩  -- R150
  | .SEAM_LEAD => ⟨.side, 0x63000, 4, 1024, 0, 1, false, false, .nobody, 0, 0, 0, 0⟩  -- R151
  | .SEAM_WIN_LO => ⟨.side, 0x64000, 4, 1024, 0, 1, false, false, .nobody, 0, 0, 0, 0⟩  -- R151
  | .SEAM_WIN_HI => ⟨.side, 0x65000, 4, 1024, 0, 1, false, false, .nobody, 0, 0, 0, 0⟩  -- R151
  | .SEAM_EFFOFF => ⟨.side, 0x66000, 4, 1024, 0, 1, false, false, .nobody, 0, 0, 0, 0⟩  -- R151
  | .SEAM_FILL => ⟨.side, 0x67000, 4, 1024, 0, 1, false, false, .nobody, 0, 0, 0xFFFFFFFF, 0⟩  -- R151
  | .SEAM_LATE => ⟨.side, 0x68000, 4, 1024, 0, 1, false, false, .nobody, 0, 0, 0xFFFFFFFF, 0⟩  -- R151
  | .SEAM_EARLY => ⟨.side, 0x69000, 4, 1024, 0, 1, false, false, .nobody, 0, 0, 0xFFFFFFFF, 0⟩  -- R151
  -- FSY: chapter 04
  | .FSY_CFG => ⟨.side, 0x70000, 4, 1024, 0, 1, false, true, .bench, 0xFFFF, 0, 0, 0⟩  -- R152
  | .FSY_PHASE => ⟨.side, 0x71000, 4, 1024, 0, 1, false, true, .bench, 0x3FFFFFF, 0, 0, 0⟩  -- R152
  | .FSY_STAT => ⟨.side, 0x72000, 4, 1024, 0, 1, false, false, .nobody, 0, 0, 0, 0⟩  -- R152
  | .FSY_EVT => ⟨.side, 0x73000, 4, 1024, 0, 1, false, false, .any, 0, 0x1FF, 0, 0⟩  -- R152
  | .FSY_REPEAT => ⟨.side, 0x74000, 4, 1024, 0, 1, false, false, .nobody, 0, 0, 0xFFFFFFFF, 0⟩  -- R153
  | .FSY_DROP => ⟨.side, 0x75000, 4, 1024, 0, 1, false, false, .nobody, 0, 0, 0xFFFFFFFF, 0⟩  -- R153
  | .FSY_BUDGET => ⟨.side, 0x76000, 0, 1, 0, 1, false, false, .nobody, 0, 0, 0, 0⟩  -- R153
  | .FSY_COUNT => ⟨.side, 0x76004, 0, 1, 0, 1, false, false, .nobody, 0, 0, 0, 0⟩  -- R153
  -- AUD: chapter 10
  | .AUD_ROUTE => ⟨.side, 0x80000, 4, 16384, 0, 1, false, true, .audDst, 0xFFFF, 0, 0, 0x4000⟩  -- R348
  | .AUD_DELAY => ⟨.side, 0x90000, 4, 16384, 0, 1, false, true, .audDst, 0x1FFFF, 0, 0, 0⟩  -- R348
  | .AUD_DST_STAT => ⟨.side, 0xA0000, 4, 16384, 0, 1, false, false, .nobody, 0, 0, 0, 0x4000⟩  -- R349
  | .AUD_DST_DESC => ⟨.side, 0xB0000, 4, 16384, 0, 1, false, false, .nobody, 0, 0, 0, 0⟩  -- R349
  | .AUD_DST_EVT => ⟨.side, 0xC0000, 4, 16384, 0, 1, false, false, .any, 0, 0x1F, 0, 0⟩  -- R350
  | .AUD_SRC_DESC => ⟨.side, 0xD0000, 4, 16384, 0, 1, false, false, .nobody, 0, 0, 0, 0⟩  -- R351
  | .AUD_SRC_DELTA => ⟨.side, 0xE0000, 4, 16384, 0, 1, false, false, .nobody, 0, 0, 0, 0⟩  -- R351
  | .AUD_SRC_ERR => ⟨.side, 0xF0000, 4, 16384, 0, 1, false, false, .nobody, 0, 0, 0xFFFFFFFF, 0⟩  -- R351
  | .AUD_DST_SUMMARY => ⟨.side, 0x100000, 4, 512, 0, 1, false, false, .nobody, 0, 0, 0, 0⟩  -- R350
  | .AUD_EVMASK => ⟨.side, 0x100800, 0, 1, 0, 1, false, false, .any, 0x1F, 0, 0, 0xE⟩  -- R350
  | .AUD_CFG => ⟨.side, 0x101000, 0, 1, 0, 1, false, true, .r7_10, 0x7F, 0x400, 0, 0xA⟩  -- R352
  | .AUD_INDEX => ⟨.side, 0x101004, 0, 1, 0, 1, false, false, .nobody, 0, 0, 0, 0⟩  -- R352
  -- ALY: chapter 11
  | .ALY_HEAD_CFG => ⟨.side, 0x120000, 4, 32, 0, 1, false, true, .head, 0x3FF, 0, 0, 0⟩  -- R381
  | .ALY_HEAD_OFFSET => ⟨.side, 0x120080, 4, 32, 0, 1, false, true, .head, 0x3FFFFFF, 0, 0, 0x3FFE000⟩  -- R381
  | .ALY_HEAD_BG => ⟨.side, 0x120100, 4, 32, 0, 1, false, true, .head, 0x3FFFFFFF, 0, 0, 0⟩  -- R381
  | .ALY_CURSOR => ⟨.side, 0x120180, 4, 32, 0, 1, false, true, .head, 0x1FFF1FFF, 0, 0, 0⟩  -- R381
  | .ALY_FLIP => ⟨.side, 0x120200, 4, 32, 0, 1, false, true, .head, 0, 0, 0, 0⟩  -- R381
  | .ALY_HEAD_DESC => ⟨.side, 0x120280, 4, 32, 0, 1, false, false, .nobody, 0, 0, 0, 0⟩  -- R381
  | .ALY_FLIP_STAT => ⟨.side, 0x120300, 4, 32, 0, 1, false, false, .nobody, 0, 0, 0, 0⟩  -- R382
  | .ALY_EVT => ⟨.side, 0x120380, 4, 32, 0, 1, false, false, .head, 0, 0xFF, 0, 0⟩  -- R382
  | .ALY_SUMMARY => ⟨.side, 0x120400, 0, 1, 0, 1, false, false, .nobody, 0, 0, 0, 0⟩  -- R382
  | .ALY_EVMASK => ⟨.side, 0x120404, 0, 1, 0, 1, false, false, .any, 0xFF, 0, 0, 0xEA⟩  -- R382
  | .ALY_LOAD_SEL => ⟨.side, 0x120410, 0, 1, 0, 1, true, true, .any, 0x3FFF, 0, 0, 0⟩  -- R383
  | .ALY_LOAD_ADDR => ⟨.side, 0x120414, 0, 1, 0, 1, true, true, .any, 0xFFFFFF, 0, 0, 0⟩  -- R383
  | .ALY_LOAD_DATA => ⟨.side, 0x120418, 0, 1, 0, 1, true, true, .load, 0, 0, 0, 0⟩  -- R383
  | .ALY_STORE_CFG => ⟨.side, 0x120480, 4, 32, 0, 1, false, true, .head, 3, 0, 0, 0⟩  -- R382
  | .ALY_STORE_STAT => ⟨.side, 0x120500, 4, 32, 0, 1, false, false, .nobody, 0, 0, 0, 0⟩  -- R382
  | .ALY_PROT_POS => ⟨.side, 0x120800, 0x10, 32, 4, 4, false, true, .prot, 0x1FFF1FFF, 0, 0, 0⟩  -- R384
  | .ALY_PROT_SIZE => ⟨.side, 0x120A00, 0x10, 32, 4, 4, false, true, .prot, 0x80FF03FF, 0, 0, 0⟩  -- R384
  | .ALY_PROT_FLIP => ⟨.side, 0x120C00, 4, 32, 0, 1, false, true, .prot, 0, 0, 0, 0⟩  -- R384
  | .ALY_PROT_CRC => ⟨.side, 0x120E00, 0x10, 32, 4, 4, false, false, .nobody, 0, 0, 0, 0⟩  -- R384
  | .ALY_PROT_ERR => ⟨.side, 0x121000, 4, 32, 0, 1, false, false, .nobody, 0, 0, 0xFFFFFFFF, 0⟩  -- R384
  | .ALY_TILE_CFG => ⟨.side, 0x122000, 4, 256, 0, 1, false, true, .tile, 0xFFFFFF, 0, 0, 0x7F8000⟩  -- R385
  | .ALY_TILE_DST => ⟨.side, 0x122400, 4, 256, 0, 1, false, true, .tile, 0x1FFF1FFF, 0, 0, 0⟩  -- R385
  | .ALY_TILE_SIZE => ⟨.side, 0x122800, 4, 256, 0, 1, false, true, .tile, 0x1FFF1FFF, 0, 0, 0⟩  -- R385
  | .ALY_TILE_CROP_XY => ⟨.side, 0x122C00, 4, 256, 0, 1, false, true, .tile, 0x1FFF1FFF, 0, 0, 0⟩  -- R385
  | .ALY_TILE_CROP_WH => ⟨.side, 0x123000, 4, 256, 0, 1, false, true, .tile, 0x1FFF1FFF, 0, 0, 0⟩  -- R385
  | .ALY_TILE_STAT => ⟨.side, 0x123400, 4, 256, 0, 1, false, false, .nobody, 0, 0, 0, 0⟩  -- R385
  | .ALY_TILE_LATE => ⟨.side, 0x123800, 4, 256, 0, 1, false, false, .nobody, 0, 0, 0xFFFFFFFF, 0⟩  -- R385
  -- HBM: chapter 14
  | .HBM_CFG => ⟨.side, 0x140000, 0, 1, 0, 1, false, false, .hbm, 0x1FF, 0, 0, 0x114⟩  -- R459
  | .HBM_RH_CFG => ⟨.side, 0x140004, 0, 1, 0, 1, false, false, .hbm, 0x7FFF, 0, 0, 0x400⟩  -- R459
  | .HBM_STAT => ⟨.side, 0x140008, 0, 1, 0, 1, false, false, .nobody, 0, 0, 0, 0⟩  -- R459
  | .HBM_EVT => ⟨.side, 0x14000C, 0, 1, 0, 1, false, false, .hbm, 0, 0x7FF, 0, 0⟩  -- R460
  | .HBM_TEMP => ⟨.side, 0x140010, 0, 1, 0, 1, false, false, .nobody, 0, 0, 0, 0⟩  -- R459
  | .HBM_UNCORR => ⟨.side, 0x140014, 0, 1, 0, 1, false, false, .nobody, 0, 0, 0xFFFFFFFF, 0⟩  -- R461
  | .HBM_MAP => ⟨.side, 0x140020, 4, 7, 0, 1, false, false, .nobody, 0, 0, 0, 0⟩  -- R459
  | .HBM_LATE => ⟨.side, 0x140040, 4, 6, 0, 1, false, false, .nobody, 0, 0, 0xFFFFFFFF, 0⟩  -- R461
  | .HBM_PC_STAT => ⟨.side, 0x140100, 4, 32, 0, 1, false, false, .nobody, 0, 0, 0, 0⟩  -- R459
  | .HBM_PC_CORR => ⟨.side, 0x140180, 4, 32, 0, 1, false, false, .nobody, 0, 0, 0xFFFFFFFF, 0⟩  -- R461
  | .HBM_PC_PAR => ⟨.side, 0x140200, 4, 32, 0, 1, false, false, .nobody, 0, 0, 0xFFFFFFFF, 0⟩  -- R461
  | .HBM_PC_RFM => ⟨.side, 0x140280, 4, 32, 0, 1, false, false, .nobody, 0, 0, 0xFFFFFFFF, 0⟩  -- R461
  | .HBM_FIXDLY => ⟨.side, 0x141000, 0x20, 32, 4, 8, false, false, .hbmFix, 0x7F, 0, 0, 0⟩  -- R459
  | .HBM_SRAM_CORR => ⟨.side, 0x142000, 0, 1, 0, 1, false, false, .nobody, 0, 0, 0xFFFFFFFF, 0⟩  -- R461
  | .HBM_SRAM_UNCORR => ⟨.side, 0x142004, 0, 1, 0, 1, false, false, .nobody, 0, 0, 0xFFFFFFFF, 0⟩  -- R461
  -- HOP: chapter 14
  | .HOP_CFG => ⟨.side, 0x160000, 4, 64, 0, 1, false, false, .hbm, 0x3FFF, 0, 0, 0⟩  -- R462
  | .HOP_PUSH => ⟨.side, 0x160100, 4, 64, 0, 1, false, false, .hopProd, 0, 0, 0, 0⟩  -- R462
  | .HOP_CTL => ⟨.side, 0x160200, 4, 64, 0, 1, false, false, .hopProd, 0, 0, 0, 0⟩  -- R462
  | .HOP_POP => ⟨.side, 0x160300, 4, 64, 0, 1, false, false, .nobody, 0, 0, 0xFFFFFFFF, 0⟩  -- R462
  | .HOP_STAT => ⟨.side, 0x160400, 4, 64, 0, 1, false, false, .nobody, 0, 0, 0, 0x4000⟩  -- R462
  | .HOP_EVT => ⟨.side, 0x160500, 4, 64, 0, 1, false, false, .any, 0, 0x1F, 0, 0⟩  -- R462
  | .HOP_SPOIL => ⟨.side, 0x160600, 4, 64, 0, 1, false, false, .nobody, 0, 0, 0xFFFFFFFF, 0⟩  -- R462
  | .HOP_ECC => ⟨.side, 0x160700, 4, 64, 0, 1, false, false, .nobody, 0, 0, 0xFFFFFFFF, 0⟩  -- R462
  -- XPT: chapter 02/03
  | .XPT_PRESET => ⟨.seq, 0x700000, 4, 1344, 0, 1, false, false, .destAny, 0xFFF, 0, 0, 0⟩  -- R76
  | .XPT_TAKE => ⟨.seq, 0x702000, 0, 1, 0, 1, false, false, .any, 0, 0, 0, 0⟩  -- R101
  | .XPT_TTIME_LO => ⟨.seq, 0x702004, 0, 1, 0, 1, true, false, .any, 0xFFFFFFFF, 0, 0, 0⟩  -- R102
  | .XPT_TTIME_HI => ⟨.seq, 0x702008, 0, 1, 0, 1, true, false, .any, 0xFFFFFFFF, 0, 0, 0⟩  -- R102
  | .XPT_TAKE_RES => ⟨.seq, 0x70200C, 0, 1, 0, 1, true, false, .any, 0, 0x40000000, 0, 0⟩  -- R103
  | .XPT_TAKE_LEAD => ⟨.seq, 0x702010, 0, 1, 0, 1, false, false, .r7_10, 0xF, 0, 0, 1⟩  -- R104
  | .XPT_PEND => ⟨.seq, 0x702014, 0, 1, 0, 1, false, false, .nobody, 0, 0, 0, 0⟩  -- R105
  | .XPT_SALVO_SEL => ⟨.seq, 0x702020, 0, 1, 0, 1, true, false, .any, 0xFF, 0, 0, 0⟩  -- R106
  | .XPT_SALVO_ENTRY => ⟨.seq, 0x702024, 0, 1, 0, 1, false, false, .salvoSel, 0, 0, 0, 0⟩  -- R106
  | .XPT_SALVO_CTL => ⟨.seq, 0x702028, 0, 1, 0, 1, false, false, .salvoSel, 0, 0, 0, 0⟩  -- R106
  | .XPT_SALVO_STAT => ⟨.seq, 0x702400, 4, 256, 0, 1, false, false, .salvo, 0, 0x3C0000, 0, 0⟩  -- R107
  -- SEC: chapter 18
  | .SEC_STAT => ⟨.abs, 0x2800000, 0, 1, 0, 1, false, false, .nobody, 0, 0, 0, 0⟩  -- R549
  | .SEC_SERIAL_LO => ⟨.abs, 0x2800004, 0, 1, 0, 1, false, false, .nobody, 0, 0, 0, 0⟩  -- R549
  | .SEC_SERIAL_HI => ⟨.abs, 0x2800008, 0, 1, 0, 1, false, false, .nobody, 0, 0, 0, 0⟩  -- R549
  | .SEC_CHAL_LO => ⟨.abs, 0x280000C, 0, 1, 0, 1, false, false, .nobody, 0, 0, 0, 0⟩  -- R549
  | .SEC_CHAL_HI => ⟨.abs, 0x2800010, 0, 1, 0, 1, false, false, .nobody, 0, 0, 0, 0⟩  -- R549
  | .SEC_TOKEN_CTL => ⟨.abs, 0x2800014, 0, 1, 0, 1, true, false, .token, 0, 0, 0, 0⟩  -- R549
  | .SEC_TOKEN_RES => ⟨.abs, 0x2800018, 0, 1, 0, 1, true, false, .nobody, 0, 0, 0, 0⟩  -- R549
  | .SEC_TOKEN => ⟨.abs, 0x2800100, 4, 45, 0, 1, true, false, .token, 0xFFFFFFFF, 0, 0, 0⟩  -- R549
  -- UMW: chapter 18
  | .UMW_STAT => ⟨.abs, 0x2801000, 0, 1, 0, 1, false, false, .nobody, 0, 0, 0, 0⟩  -- R550
  | .UMW_BASE_VER => ⟨.abs, 0x2801004, 0, 1, 0, 1, false, false, .nobody, 0, 0, 0, 0⟩  -- R550
  | .UMW_SIDE_VER => ⟨.abs, 0x2801008, 0, 1, 0, 1, false, false, .nobody, 0, 0, 0, 0⟩  -- R550
  | .UMW_HASH => ⟨.abs, 0x2801020, 4, 8, 0, 1, false, false, .nobody, 0, 0, 0, 0⟩  -- R550
  | .UMW_REGION_VER => ⟨.abs, 0x2801200, 4, 128, 0, 1, false, false, .nobody, 0, 0, 0, 0⟩  -- R550
  -- UPD: chapter 18
  | .UPD_STAT => ⟨.abs, 0x2802000, 0, 1, 0, 1, false, false, .nobody, 0, 0, 0, 0⟩  -- R551
  | .UPD_CFG => ⟨.abs, 0x2802004, 0, 1, 0, 1, false, false, .r7_10_rfe, 0xFFFF, 0, 0, 0x258⟩  -- R551
  | .UPD_PIECES => ⟨.abs, 0x2802008, 0, 1, 0, 1, false, false, .nobody, 0, 0, 0, 0⟩  -- R551
  | .UPD_TRIAL_LEFT => ⟨.abs, 0x280200C, 0, 1, 0, 1, false, false, .nobody, 0, 0, 0, 0⟩  -- R551
  | .UPD_SIDE => ⟨.abs, 0x2802010, 4, 2, 0, 1, false, false, .any, 0, 0x1A0, 0, 0⟩  -- R551
  | .UPD_VER => ⟨.abs, 0x2802018, 4, 2, 0, 1, false, false, .nobody, 0, 0, 0, 0⟩  -- R551

/-- The SYS registers. -/
def regsSYS : List RegName :=
  [.SYS_ID, .SYS_STATUS, .SYS_RESET_CAUSE, .SYS_POWER, .SYS_EVT, .SYS_UPTIME, .SYS_TEMP]

/-- The PARK registers. -/
def regsPARK : List RegName :=
  [.PARK_LANE_DECL, .PARK_LANE_STAT, .PARK_ENG_DECL, .PARK_ENG_STAT, .PARK_HOST]

/-- The RFE registers. -/
def regsRFE : List RegName :=
  [.RFE_CFG, .RFE_LEASE, .RFE_WDOG_PERIOD, .RFE_TOLERANCE, .RFE_STATE, .RFE_LEASE_LEFT, .RFE_CMD, .RFE_SWO_FRAME,
   .RFE_CMD_RES, .RFE_WDOG, .RFE_CLAIM, .RFE_EVT, .RFE_FO_COUNT, .RFE_LAST, .RFE_RESYNC, .RFE_WARM_LAT]

/-- The SLU registers. -/
def regsSLU : List RegName :=
  [.SLU_CFG, .SLU_STAT, .SLU_EVT, .SLU_MISMATCH, .SLU_PARERR, .SLU_SUMMARY, .SLU_EVMASK]

/-- The HAF registers. -/
def regsHAF : List RegName :=
  [.HAF_CFG, .HAF_STAT, .HAF_EVT, .HAF_TALLY]

/-- The ASY registers. -/
def regsASY : List RegName :=
  [.ASY_STATUS0, .ASY_STATUS1, .ASY_LIVE0, .ASY_LIVE1, .ASY_EVMASK0, .ASY_EVMASK1, .ASY_FIRST, .ASY_HIST_STAT,
   .ASY_HIST_SPOIL, .ASY_ISO_CFG, .ASY_CTL, .ASY_SIDE_STAT, .ASY_RECOV_COUNT, .ASY_FW, .ASY_SEV, .ASY_HIST]

/-- The EVT registers. -/
def regsEVT : List RegName :=
  [.EVT_STATUS, .EVT_ENABLE, .EVT_ACTIVE, .EVT_SET, .EVT_ROUTE]

/-- The MBX registers. -/
def regsMBX : List RegName :=
  [.MBX_MSG, .MBX_LOCK, .MBX_DOORBELL, .MBX_ACK, .MBX_CTL, .MBX_STAT, .MBX_EVT, .MBX_CFG]

/-- The STR registers. -/
def regsSTR : List RegName :=
  [.STR_ERR, .STR_ERR_ADDR, .STR_ID, .STR_LOCK, .STR_LOCK_STAT, .STR_EVT, .STR_MCFG, .STR_PATH, .STR_HP_STAT,
   .STR_SLICE, .STR_MRESET_LOG, .STR_PART_DEST, .STR_PART_HEADS, .STR_PART_MISC]

/-- The WIN registers. -/
def regsWIN : List RegName :=
  [.WIN_CTL, .WIN_ADDR_LO, .WIN_ADDR_HI, .WIN_STAT, .WIN_DATA]

/-- The TB registers. -/
def regsTB : List RegName :=
  [.TB_CFG, .TB_NS, .TB_SEC_LO, .TB_SEC_HI, .TB_RATE_LO, .TB_RATE_HI, .TB_STEP_LO, .TB_STEP_HI, .TB_STEP_FRAC,
   .TB_STEP_CTL, .TB_STEP_LIMIT, .TB_STAT, .TB_EVT, .TB_LAST_STEP_LO, .TB_LAST_STEP_HI, .TB_CMP_EVT, .TB_CMP_SKIP,
   .TB_CMP_LO, .TB_CMP_HI, .TB_CMP_PER, .TB_CMP_FRAC, .TB_CMP_CTL]

/-- The PTP registers. -/
def regsPTP : List RegName :=
  [.PTP_PORT_CFG, .PTP_INGRESS, .PTP_EGRESS, .PTP_ASYM, .PTP_TXTS_DATA, .PTP_TXTS_STAT, .PTP_TXTS_SPOIL,
   .PTP_PORT_EVT]

/-- The REF registers. -/
def regsREF : List RegName :=
  [.REF_CFG, .REF_TIMING, .REF_CAND_CFG, .REF_CAND_OFFSET, .REF_CAND_STAT, .REF_CAND_EVT, .REF_CAND_GLITCH,
   .REF_TB_OK, .REF_STAT, .REF_HIST, .REF_EVT, .REF_PHASE_LO, .REF_PHASE_HI, .REF_FREQ, .REF_CMD, .REF_CMD_RES,
   .REF_ALIGN_DELTA, .REF_PULSE_CFG, .REF_PULSE_OFFSET, .REF_CAD_DESC, .REF_CAD_FRAME]

/-- The TDM registers. -/
def regsTDM : List RegName :=
  [.TDM_CFG, .TDM_CTL, .TDM_STAT, .TDM_EVT, .TDM_GLITCH, .TDM_SPOIL, .TDM_FRAME, .TDM_START, .TDM_TRIG]

/-- The LANE registers. -/
def regsLANE : List RegName :=
  [.LANE_CFG, .LANE_CTL, .LANE_TXEQ, .LANE_RXEQ, .LANE_DET, .LANE_STAT, .LANE_EVT, .LANE_EYE, .LANE_TEST,
   .LANE_BER_ERR, .LANE_BER_TIME, .LANE_FILL, .LANE_QSTAT, .LANE_SUMMARY, .LANE_EVMASK]

/-- The NVL registers. -/
def regsNVL : List RegName :=
  [.NVL_CFG, .NVL_STAT, .NVL_EVT, .NVL_FEC_CORR, .NVL_FEC_UNCORR, .NVL_CRC_ERR, .NVL_HDR_ERR, .NVL_TX_DROP,
   .NVL_REMOTE, .NVL_PARTNER0, .NVL_PARTNER1, .NVL_PARTNER2, .NVL_PARTNER3, .NVL_SUMMARY, .NVL_EVMASK]

/-- The ETH registers. -/
def regsETH : List RegName :=
  [.ETH_PORT_CFG, .ETH_PORT_STAT, .ETH_PORT_EVT, .ETH_PORT_MAC_LO, .ETH_PORT_MAC_HI, .ETH_PORT_IP, .ETH_PORT_NH_LO,
   .ETH_PORT_NH_HI, .ETH_CTX_DATA, .ETH_CTX_CTL, .ETH_CTX_STAT, .ETH_CRX_DATA, .ETH_CRX_STAT, .ETH_CRX_SPOIL,
   .ETH_PAUSE_STAT, .ETH_SNAP, .ETH_CNT_HALF0, .ETH_CNT_HALF1, .ETH_MG_CFG, .ETH_MG_IP, .ETH_RRP_HOST,
   .ETH_RRP_HOST_IP, .ETH_WAKE_HIT, .ETH_CNT, .ETH_WAKE_CTL, .ETH_WAKE_MASK, .ETH_SUMMARY, .ETH_EVMASK, .ETH_RXF_CFG,
   .ETH_RXF_DST_E, .ETH_RXF_DST_W, .ETH_RXF_SRC_E, .ETH_RXF_SRC_W, .ETH_RXF_UDP, .ETH_RXF_MEDIA, .ETH_RXF_STAT,
   .ETH_RXF_EVT, .ETH_RXF_SKEW, .ETH_RXF_LOST, .ETH_RXF_SUMMARY, .ETH_RXF_EVMASK, .ETH_TXF_CFG, .ETH_TXF_DST_E,
   .ETH_TXF_DST_W, .ETH_TXF_UDP, .ETH_TXF_PKT, .ETH_TXF_SSRC, .ETH_TXF_STAT, .ETH_TXF_LATE, .ETH_TXF_MAXLATE]

/-- The SDI registers. -/
def regsSDI : List RegName :=
  [.SDI_CFG, .SDI_STAT, .SDI_EVT, .SDI_VPID, .SDI_TC, .SDI_CRC_ERR, .SDI_ANC_ERR, .SDI_SUMMARY, .SDI_EVMASK]

/-- The XPT registers. -/
def regsXPT : List RegName :=
  [.XPT_IN_CFG, .XPT_IN_DESC, .XPT_IN_PHASE, .XPT_IN_PERIOD, .XPT_IN_MSTAT, .XPT_IN_LOST, .XPT_IN_BSPOIL,
   .XPT_IN_SUMMARY, .XPT_IN_EVMASK, .XPT_GEN_CTL, .XPT_GEN_LEVEL, .XPT_OUT_CFG, .XPT_OUT_OFFSET, .XPT_OUT_DESC,
   .XPT_OUT_STAT, .XPT_OUT_TAKEN, .XPT_ROUTE, .XPT_CAP_CFG, .XPT_CAP_STAT, .XPT_OUT_SUMMARY, .XPT_OUT_EVMASK,
   .XPT_PRESET, .XPT_TAKE, .XPT_TTIME_LO, .XPT_TTIME_HI, .XPT_TAKE_RES, .XPT_TAKE_LEAD, .XPT_PEND, .XPT_SALVO_SEL,
   .XPT_SALVO_ENTRY, .XPT_SALVO_CTL, .XPT_SALVO_STAT]

/-- The SEAM registers. -/
def regsSEAM : List RegName :=
  [.SEAM_CFG, .SEAM_STAT, .SEAM_EVT, .SEAM_LEAD, .SEAM_WIN_LO, .SEAM_WIN_HI, .SEAM_EFFOFF, .SEAM_FILL, .SEAM_LATE,
   .SEAM_EARLY]

/-- The FSY registers. -/
def regsFSY : List RegName :=
  [.FSY_CFG, .FSY_PHASE, .FSY_STAT, .FSY_EVT, .FSY_REPEAT, .FSY_DROP, .FSY_BUDGET, .FSY_COUNT]

/-- The AUD registers. -/
def regsAUD : List RegName :=
  [.AUD_ROUTE, .AUD_DELAY, .AUD_DST_STAT, .AUD_DST_DESC, .AUD_DST_EVT, .AUD_SRC_DESC, .AUD_SRC_DELTA, .AUD_SRC_ERR,
   .AUD_DST_SUMMARY, .AUD_EVMASK, .AUD_CFG, .AUD_INDEX]

/-- The ALY registers. -/
def regsALY : List RegName :=
  [.ALY_HEAD_CFG, .ALY_HEAD_OFFSET, .ALY_HEAD_BG, .ALY_CURSOR, .ALY_FLIP, .ALY_HEAD_DESC, .ALY_FLIP_STAT, .ALY_EVT,
   .ALY_SUMMARY, .ALY_EVMASK, .ALY_LOAD_SEL, .ALY_LOAD_ADDR, .ALY_LOAD_DATA, .ALY_STORE_CFG, .ALY_STORE_STAT,
   .ALY_PROT_POS, .ALY_PROT_SIZE, .ALY_PROT_FLIP, .ALY_PROT_CRC, .ALY_PROT_ERR, .ALY_TILE_CFG, .ALY_TILE_DST,
   .ALY_TILE_SIZE, .ALY_TILE_CROP_XY, .ALY_TILE_CROP_WH, .ALY_TILE_STAT, .ALY_TILE_LATE]

/-- The HBM registers. -/
def regsHBM : List RegName :=
  [.HBM_CFG, .HBM_RH_CFG, .HBM_STAT, .HBM_EVT, .HBM_TEMP, .HBM_UNCORR, .HBM_MAP, .HBM_LATE, .HBM_PC_STAT,
   .HBM_PC_CORR, .HBM_PC_PAR, .HBM_PC_RFM, .HBM_FIXDLY, .HBM_SRAM_CORR, .HBM_SRAM_UNCORR]

/-- The HOP registers. -/
def regsHOP : List RegName :=
  [.HOP_CFG, .HOP_PUSH, .HOP_CTL, .HOP_POP, .HOP_STAT, .HOP_EVT, .HOP_SPOIL, .HOP_ECC]

/-- The SEC registers. -/
def regsSEC : List RegName :=
  [.SEC_STAT, .SEC_SERIAL_LO, .SEC_SERIAL_HI, .SEC_CHAL_LO, .SEC_CHAL_HI, .SEC_TOKEN_CTL, .SEC_TOKEN_RES, .SEC_TOKEN]

/-- The UMW registers. -/
def regsUMW : List RegName :=
  [.UMW_STAT, .UMW_BASE_VER, .UMW_SIDE_VER, .UMW_HASH, .UMW_REGION_VER]

/-- The UPD registers. -/
def regsUPD : List RegName :=
  [.UPD_STAT, .UPD_CFG, .UPD_PIECES, .UPD_TRIAL_LEFT, .UPD_SIDE, .UPD_VER]

end Sys2Proof.Machine
end

