-- ==== Sys2Proof/Machine/Slots.lean ====
section
/-!
DEFINITION. Slot words (R39 to R47): their tags and markers, the packing of samples and of ancillary words, black, the cutting of a copy into
merge blocks (R59, R60), and the distribution of a bonded stream (R52).
-/
namespace Sys2Proof.Machine

/-! ## Tags and markers (R39, R43, R47) -/

/-- The tag of a slot word: 0 VIDEO, 1 ANC, 2 MARK, 3 FILL/control. -/
def slotTag (x : W32) : Nat := x.toNat / 2 ^ 30

/-- The word is a MARK. -/
def isMark (x : W32) : Bool := slotTag x = 2

/-- The type of a MARK. -/
def markType (x : W32) : Nat := x.toNat / 2 ^ 27 % 8

/-- The line number of a MARK. -/
def markLine (x : W32) : Nat := x.toNat / 2 ^ 14 % 2 ^ 13

/-- The type-specific bits of a MARK. -/
def markSpec (x : W32) : Nat := x.toNat % 2 ^ 14

/-- The word is a MARK of a type. -/
def isType (t : Nat) (x : W32) : Bool := isMark x && decide (markType x = t)

/-- A subtype of tag 0b11 that R47 reserves: the word is treated as FILL and counted as MALFORMED. -/
def isReservedSub (x : W32) : Bool := decide (slotTag x = 3) && decide (2 ≤ x.toNat / 2 ^ 26 % 16)

/-- A MARK word. -/
def markWord (type line spec : Nat) : W32 := w32 (2 ^ 31 + type % 8 * 2 ^ 27 + line % 8192 * 2 ^ 14 + spec % 16384)

/-- Where a MARK stands among those of its line, in the order of R44: SOF, FORMAT, SOFLD, AUDIO_BLOCK by group, ANC vertical and horizontal,
SAL, EAL, EOF. DESIGN CHOICE: the key of R59 does not tell the blocks of two MARKs of one line apart; this place does, between line and
index (log entry 111). -/
def markPlace (x : W32) : Nat :=
  match markType x with
  | 0 => 0
  | 6 => 1
  | 1 => 2
  | 4 => 3 + markSpec x / 2 ^ 12
  | 5 => 7 + markSpec x / 2 ^ 13
  | 2 => 9
  | 3 => 10
  | _ => 11

/-- Two MARKs agree in type and line number (R53, R55). -/
def sameMark (x y : W32) : Bool := isMark x && isMark y && decide (markType x = markType y) && decide (markLine x = markLine y)

/-! ## Packing (R40, R42) -/

/-- A bit string cut into 30-bit VIDEO words, the last padded with zeros (R40). -/
def packBits (n : Nat) (bits : List Bool) : List W32 :=
  (List.range n).map fun i =>
    w32 (((List.range 30).foldl (fun v j => 2 * v + b2n (bits.getD (30 * i + j) false)) 0))

/-- The CRC-14 of a line's VIDEO words (R43). -/
def crc14 (ws : List W32) : Nat := crc 14 0x443 0x3FFF (ws.flatMap fun w => bitsMsb 30 (w.toNat % 2 ^ 30))

/-- Three 10-bit words in an ANC word (R39). -/
def ancWord (a b c : Nat) : W32 := w32 (2 ^ 30 + a % 1024 * 2 ^ 20 + b % 1024 * 2 ^ 10 + c % 1024)

/-- 10-bit words packed three per ANC word from [29:20] downwards, the unused positions of the last 0x000 (R42). -/
def packAnc : List Nat → List W32
  | [] => []
  | [a] => [ancWord a 0 0]
  | [a, b] => [ancWord a b 0]
  | a :: b :: c :: t => ancWord a b c :: packAnc t

/-- The 10-bit words of ANC words, in stream order. -/
def ancTens (ws : List W32) : List Nat :=
  ws.flatMap fun w => [w.toNat / 2 ^ 20 % 1024, w.toNat / 2 ^ 10 % 1024, w.toNat % 1024]

/-- An ST 291 packet at the front of 10-bit words, 0x000 in the place of a flag ignored (R42): its ten-bit words from DID to the checksum, and
what follows; or the run ends. -/
def nextAnc : Nat → List Nat → Option (List Nat × List Nat)
  | 0, _ => none
  | _ + 1, [] => none
  | fuel + 1, x :: t =>
    if x = 0 ∧ t.take 2 = [0x3FF, 0x3FF] then
      let body := t.drop 2
      let n := 4 + body.getD 2 0 % 256
      if body.length < n then none else some (body.take n, body.drop n)
    else nextAnc fuel t

/-- The packets of a run of 10-bit words. -/
def ancPackets : Nat → List Nat → List (List Nat)
  | 0, _ => []
  | fuel + 1, tens =>
    match nextAnc (tens.length + 1) tens with
    | some (p, rest) => p :: ancPackets fuel rest
    | none => []

/-- The checksum of a packet holds: the sum of its words' low nine bits, and bit 9 the inverse of bit 8. -/
def ancSumOk (p : List Nat) : Bool :=
  let body := p.dropLast
  let sum := body.foldl (fun n x => n + x % 512) 0 % 512
  decide (p.getLastD 0 % 512 = sum) && decide (p.getLastD 0 / 512 % 2 ≠ sum / 256 % 2)

/-- A packet's 10-bit words from its flag to its checksum, with a fresh checksum. -/
def ancMake (body : List Nat) : List Nat :=
  let sum := body.foldl (fun n x => n + x % 512) 0 % 512
  [0, 0x3FF, 0x3FF] ++ body ++ [sum + (if sum / 256 % 2 = 1 then 0 else 512)]

/-! ## Lines (R44, R45) -/

/-- The line number and the raster row of the i-th active line of a format, the fields or segments of a frame one after the other: the row within
the field added to the number of the field's first active line (R45). -/
def activeLine (f : Fmt) (i : Nat) : Nat × Nat :=
  if f.il || f.seg then
    let half := (rasterDims f.raster).2 / 2
    let fld := if i < half then 0 else 1
    let r := i % max 1 half
    (Config.firstLine f.code true fld + r, 2 * r + Config.fieldRow f.code fld)
  else (Config.firstLine f.code false 0 + i, i)

/-- The field or segment of the i-th active line. -/
def Fmt.fieldOf (f : Fmt) (i : Nat) : Nat := if (f.il || f.seg) ∧ (rasterDims f.raster).2 / 2 ≤ i then 1 else 0

/-- The active line of a format that has a line number, as its place among the frame's active lines (R45). -/
def activeIndex (f : Fmt) (l : Nat) : Option Nat :=
  let n := (rasterDims f.raster).2
  let two := f.il || f.seg
  let half := if two then n / 2 else n
  let a := Config.firstLine f.code two 0
  let b := Config.firstLine f.code two 1
  if a ≤ l ∧ l < a + half then some (l - a)
  else if two ∧ b ≤ l ∧ l < b + half then some (half + (l - b)) else none

/-- An active line: SAL, its VIDEO words, EAL (R43, R44). -/
def activeWords (l : Nat) (ws : List W32) : List W32 := markWord 2 l ws.length :: ws ++ [markWord 3 l (crc14 ws)]

/-- A run of ancillary packets of a line, each from its flag to its checksum, after the marker that covers it (R42 to R44). -/
def ancRun (horiz : Bool) (l : Nat) (packets : List (List Nat)) : List W32 :=
  if packets = [] then []
  else
    let ws := packAnc packets.flatten
    markWord 5 l (b2n horiz * 2 ^ 13 + ws.length) :: ws

/-- A packet from its DID to its checksum, with its flag. -/
def ancFlagged (p : List Nat) : List Nat := [0, 0x3FF, 0x3FF] ++ p

/-- The words of line `l` of a frame in the order of R44, from its ancillary words and, on an active line, its VIDEO words; its MARKs carry the
line number `num` (R45). -/
def numberedLine (f : Fmt) (tag l num : Nat) (anc : List W32) (video : Option (List W32)) : List W32 :=
  let tg := tag % 256 * 4
  (if l = 1 then [markWord 0 num (tg + 2 * b2n f.il + b2n f.seg), markWord 6 num f.code] else []) ++
  (if (f.il || f.seg) ∧ l = Config.fieldStart f.code then [markWord 1 num tg] else []) ++ anc ++
  (match video with
    | some ws => activeWords num ws
    | none => []) ++
  (if l = (rasterLines f.raster).1 then [markWord 7 num (rasterDims f.raster).2] else [])

/-- The words of line `l` of a frame. -/
def frameLine (f : Fmt) (tag l : Nat) (anc : List W32) (video : Option (List W32)) : List W32 := numberedLine f tag l l anc video

/-- A whole frame, line by line. -/
def frameOf (f : Fmt) (tag : Nat) (anc : Nat → List W32) (video : Nat → List W32) : List W32 :=
  (List.range (rasterLines f.raster).1).flatMap fun j => frameLine f tag (j + 1) (anc (j + 1)) ((activeIndex f (j + 1)).map video)

/-! ## Black (R54, R127) -/

/-- The code of black at sample `i` of a line (R41, R127): 16 × 2^(d − 8), and 128 × 2^(d − 8) for C′b and C′r. -/
def blackSample (f : Fmt) (i : Nat) : Nat :=
  let chroma := match f.sampling with
    | 0 => decide (i % 2 = 0)
    | 1 => decide (i % 3 ≠ 1)
    | _ => false
  (if chroma then 128 else 16) * 2 ^ (f.depth - 8)

/-- VIDEO word `i` of a black line of `n` samples (R40): bit b of its thirty is bit 30 i + b of the line's bit string. -/
def blackWord (f : Fmt) (i : Nat) : W32 :=
  w32 ((List.range 30).foldl (fun v j =>
    let b := 30 * i + j
    let k := b / f.depth
    2 * v + (if k < f.lineSamples then blackSample f k / 2 ^ (f.depth - 1 - b % f.depth) % 2 else 0)) 0)

/-! ## Merge blocks (R59, R60) -/

/-- The key of the block being cut: the latest SOF's tag and stamp, the latest MARK's line and place, the blocks cut since it, the V of its SAL,
and whether its line's EAL matches (R46, R59). -/
structure CutSt where
  tag      : Nat := 0
  line     : Nat := 0
  mark     : Nat := 0
  idx      : Nat := 0
  video    : Nat := 0
  lineGood : Bool := true
  sofAt    : Int := 0
deriving DecidableEq, Repr, Inhabited

/-- The first merge block of a copy's words, once it is complete: at most 64 words, up to the next MARK; an EOF is complete by itself. -/
def takeBlock : List RxWord → Option (List RxWord × List RxWord)
  | [] => none
  | h :: t =>
    if isType 7 h.w then some ([h], t)
    else
      let body := (t.takeWhile fun x => !isMark x.w).take 63
      let rest := t.drop body.length
      if body.length = 63 ∨ rest ≠ [] then some (h :: body, rest) else none

/-- The words of an active line after its SAL, and the MARK that ends it, once it has arrived. -/
def lineEnd (t : List RxWord) : Option (List W32 × W32) :=
  ((t.find? fun x => isMark x.w).map (·.w)).map fun e => ((t.takeWhile fun x => !isMark x.w).map (·.w), e)

/-- The EAL matches the line's VIDEO words (R46). -/
def ealMatches (ws : List W32) (e : W32) : Bool :=
  isType 3 e && decide (markSpec e = crc14 (ws.filter fun w => slotTag w = 0))

/-- The cutter's state at the front of a copy's words: a MARK gives a new key, another word continues the block run; none while an active line's
end has not arrived. -/
def CutSt.next (c : CutSt) (h : RxWord) (t : List RxWord) (sofAt : Int) : Option CutSt :=
  if !isMark h.w then some { c with idx := c.idx + 1 }
  else
    let base : CutSt := { c with line := markLine h.w, mark := markPlace h.w, idx := 0, video := 0 }
    match markType h.w with
    | 0 => some { base with tag := markSpec h.w / 4 % 256, lineGood := true, sofAt := sofAt }
    | 2 => (lineEnd t).map fun p => { base with video := markSpec h.w, lineGood := ealMatches p.1 p.2 }
    | 3 => some base
    | _ => some { base with lineGood := true }

/-- The next merge block of a copy's words, what remains and the cutter's state after it. -/
def cutBlock (c : CutSt) (sofAt : Int) (ws : List RxWord) : Option (Block × List RxWord × CutSt) :=
  match ws with
  | [] => none
  | h :: t =>
    match c.next h t sofAt, takeBlock ws with
    | some k, some (b, rest) =>
      let last := b.foldl (fun (m : Int) x => max m x.time) 0
      some ({ tag := k.tag, line := k.line, mark := k.mark, idx := k.idx, sof := isType 0 h.w, eof := isType 7 h.w,
              good := k.lineGood && b.all (fun x => !x.bad), words := b.map (·.w), stamp := (last / tickU).toNat,
              sofAt := k.sofAt, video := k.video }, rest, k)
    | _, _ => none

/-- The tick at which the last complete block of a copy's words was complete, or `t` where none is (R61, R124). -/
def lastComplete : Nat → List RxWord → Nat → Nat
  | 0, _, t => t
  | fuel + 1, ws, t =>
    match takeBlock ws with
    | some (b, rest) => lastComplete fuel rest (max t ((b.foldl (fun (m : Int) x => max m x.time) 0) / tickU).toNat)
    | none => t

/-- Blocks of which none but the last is followed by a MARK are joined: the words of one key's MARK, re-cut into blocks of 64 (R59). -/
def recut (k : Block) : Nat → Nat → List W32 → List Block
  | 0, _, _ => []
  | fuel + 1, i, ws => if ws = [] then [] else { k with idx := i, words := ws.take 64 } :: recut k fuel (i + 1) (ws.drop 64)

/-! ## Bonded streams (R52) -/

/-- The words of a stream between MARKs, as member `m` of `g` carries them: each MARK, with its member index in SOF and SOFLD, and every g-th
word after it; `k` words have been sent since the last MARK. -/
def memberWords (g m : Nat) : Nat → List W32 → List W32
  | _, [] => []
  | k, x :: t =>
    if isMark x then
      (if isType 0 x || isType 1 x then markWord (markType x) (markLine x) (m * 2 ^ 10 + markSpec x % 2 ^ 10) else x) :: memberWords g m 0 t
    else if slotTag x = 3 then x :: memberWords g m k t
    else (if k % max 1 g = m then [x] else []) ++ memberWords g m (k + 1) t

/-- The words of a converter's stream that feed slot `m` of a group of `g`, distributed as a sender does (R52); `k` words have gone since the last
MARK. -/
def memberRx (g m : Nat) : Nat → List RxWord → List RxWord
  | _, [] => []
  | k, x :: t =>
    if isMark x.w then x :: memberRx g m 0 t else (if k % max 1 g = m then [x] else []) ++ memberRx g m (k + 1) t

/-- A merge block of which no word was received (R291): its words after its MARK are all substitutes for words that no packet covered. -/
def unreceived (b : List RxWord) : Bool := (b.any fun x => x.gone) && b.all fun x => x.gone || isMark x.w

end Sys2Proof.Machine
end

