-- ==== Sys2Proof/Machine/Sparse.lean ====
section
/-!
DEFINITION. Sparse stores: lists of (key, value) pairs in ONE canonical form, keys strictly rising and no entry equal to
what its key reads as when it is not listed.  Registers, memories and every array of hidden state are held in one of these.
-/
namespace Sys2Proof.Machine

variable {κ α : Type}

/-- What key `k` reads as: its entry, or `d k` where the store lists none. -/
def Sparse.get [DecidableEq κ] (d : κ → α) : List (κ × α) → κ → α
  | [], k => d k
  | (k', v) :: m, k => if k' = k then v else Sparse.get d m k

/-- A pair put in before the first entry whose key does not come before `k`. -/
def Sparse.ins (lt : κ → κ → Bool) (k : κ) (v : α) : List (κ × α) → List (κ × α)
  | [] => [(k, v)]
  | (k', v') :: m => if lt k' k then (k', v') :: Sparse.ins lt k v m else (k, v) :: (k', v') :: m

/-- The store without key `k`. -/
def Sparse.erase [DecidableEq κ] (k : κ) (m : List (κ × α)) : List (κ × α) := m.filter fun e => e.1 ≠ k

/-- The store in which `k` reads as `v` and every other key reads as before. -/
def Sparse.put [DecidableEq κ] [DecidableEq α] (lt : κ → κ → Bool) (d : κ → α) (m : List (κ × α)) (k : κ) (v : α) :
    List (κ × α) :=
  if v = d k then Sparse.erase k m else Sparse.ins lt k v (Sparse.erase k m)

/-- The canonical form: keys strictly rising, no entry equal to its key's unlisted value. -/
abbrev Sparse.wf (lt : κ → κ → Bool) (d : κ → α) (m : List (κ × α)) : Prop :=
  m.Pairwise (fun a b => lt a.1 b.1 = true) ∧ ∀ e ∈ m, e.2 ≠ d e.1

/-- The order of natural keys. -/
def natLt (a b : Nat) : Bool := decide (a < b)

/-- An array of hidden state, indexed by a number, whose unlisted instances hold `d`. -/
abbrev SMap (α : Type) := List (Nat × α)

/-- Instance `k` of an array whose unlisted instances hold the type's default. -/
def SMap.at [Inhabited α] (m : SMap α) (k : Nat) : α := Sparse.get (fun _ => default) m k

/-- The array with instance `k` replaced. -/
def SMap.set [Inhabited α] [DecidableEq α] (m : SMap α) (k : Nat) (v : α) : SMap α :=
  Sparse.put natLt (fun _ => default) m k v

/-- The array with `f` applied to instance `k`. -/
def SMap.upd [Inhabited α] [DecidableEq α] (m : SMap α) (k : Nat) (f : α → α) : SMap α := m.set k (f (m.at k))

/-- An array whose listed instances are given. -/
def smapOf {α : Type} [Inhabited α] [DecidableEq α] (l : List (Nat × α)) : SMap α := l.foldl (fun m p => SMap.set m p.1 p.2) []

end Sys2Proof.Machine
end

