-- ==== Sys2Proof/Machine/State.lean ====
section
/-!
DEFINITION. The state of the EK1024: the register file, the state its registers do not show, the queue of waiting
commands and what has left the device.  Plain data throughout.
-/
namespace Sys2Proof.Machine

/-- No command of this block ends in a fault: no access of the EK1024 gives a bus error (R4) and its errors are state. -/
inductive Fault where
deriving DecidableEq, Repr

/-- Why a command has no meaning in the model. -/
inductive Refusal where
  /-- Raised by an arm of `exec` whose command has no meaning yet; safe, since nothing is claimed of it. -/
  | notModelled (mnemonic : String)
  /-- Raised by an access of the boot core inside the flash controller's range (R578), whose registers the spec does not
  give; safe, since the run stops there. -/
  | flashController
deriving DecidableEq, Repr

/-- A Side's condition as the referee, Assay and the power control hold it (R18, R164 to R167, R178, R182, R512, R514, R579): in reset,
powered down, isolated, WARM; HBM trained since its release; READY when it was parked COLD; latched; the tick of its release; its latest
heartbeat and the next moment for one; its latest watchdog service since release; since when its claim has differed; since when it
resynchronises; its quiet timer's ticks left as of a tick, and whether the timer stands still; the ticks of its releases; its supplies have
held good for 1 ms (R554); the level of SIDE_PG; since when SIDE_PWR_EN is high while they have not (R555); since when it has been in step as standby (R539);
the latest tick at which one of its heartbeat checks failed (R164); what its LOAD copies, as it began: the holder's content (0), nothing, its own
emptied (1), or nothing, its own kept (2) (R178, R182); and the tick at which LOAD ended (R179). -/
structure SideSt where
  inReset   : Bool := true
  cold      : Bool := false
  isolated  : Bool := false
  warm      : Bool := false
  trained   : Bool := false
  coldReady : Bool := false
  latched   : Bool := false
  released  : Nat := 0
  lastBeat  : Option Nat := none
  nextBeat  : Option Nat := none
  wdogAt    : Option Nat := none
  differ    : Option Nat := none
  resyncAt  : Option Nat := none
  quietLeft : Nat := 0
  quietAt   : Nat := 0
  held      : Bool := false
  releases  : List Nat := []
  powered   : Bool := false
  pg        : Bool := false
  pwrAt     : Option Nat := none
  stepSince : Option Nat := none
  failedAt  : Option Nat := none
  loadKind  : Nat := 0
  loadedAt  : Nat := 0
deriving DecidableEq, Repr, Inhabited


/-- One bank's copy of an input stream (R53 to R55, R59, R61): present from an SOF to its next absence; whether it has had an SOF since its
position joined; the completion stamp of its last block; the members of a bonded copy that have underrun, the words buffered for each
member, the member whose word comes next and the words that the last MARK still announces; the words reassembled and not yet cut, oldest
first; whether the SOF at their front has been measured; the cutter's state. -/
structure CopyRx where
  present : Bool := false
  started : Bool := false
  lastAt  : Nat := 0
  under   : List Nat := []
  members : SMap (List RxWord) := []
  turn    : Nat := 0
  left    : Nat := 0
  active  : Bool := false
  pos     : Nat := 0
  rx      : List RxWord := []
  sofDone : Bool := false
  cut     : CutSt := {}
deriving DecidableEq, Repr, Inhabited

/-- An input stream in the banks' receive logic (R50, R57, R66): its two copies, the format of its latest frame and the slots of its group, 0
before its first frame; the tags and stamps of its latest frames (newest first, at most 17), its phase in 2^-16 ns and its period over 16
frames in 2^-16 ns. -/
structure InRx where
  e      : CopyRx := {}
  w      : CopyRx := {}
  fmt    : Fmt := {}
  slots  : Nat := 0
  stamps : List (Nat × Int) := []
  phase  : Int := 0
  period : Int := 0
deriving DecidableEq, Repr, Inhabited

/-- One copy in a Side's merge logic (R62, R124): treated as ABSENT until its next SOF, with the tick of the ABSENT word; or its undecided blocks,
oldest first. -/
structure MergeQ where
  absent   : Bool := true
  absentAt : Nat := 0
  q        : List Block := []
deriving DecidableEq, Repr, Inhabited

/-- The merge of one input slot in one Side (R62 to R64): its copies, the last block decided, whether the input is lost, what was
last put to the crosspoint, whether a frame is in progress, when the last whole frame ended (R94), and what the Seam write port is reading
(R46): an active line, or that many words of an ANC marker. -/
structure Merge where
  e       : MergeQ := {}
  w       : MergeQ := {}
  last    : Option Block := none
  lost    : Bool := true
  emitted : Option (Bank × Block) := none
  inFrame : Bool := false
  whole   : Option Int := none
  active  : Bool := false
  anc     : Nat := 0
deriving DecidableEq, Repr, Inhabited

/-- A block on its way from the crosspoint to a destination (R124, R129): its source number and, for a Bench's copy, the Bench; the block, whose
stamp is the effective stamp; `black` for the black frame of a PRIMING Bench (R142). -/
structure Fed where
  src   : Nat
  bench : Option Nat := none
  black : Bool := false
  blk   : Block
deriving DecidableEq, Repr


/-- The current route of a destination (R73, R99): its source and the Bench it goes through; both before the last take, the frame
that take executed in (R129), and the cadence counter it was stamped against (R95, R114). -/
structure Route where
  src       : Nat := 1056
  bench     : Option Nat := none
  prev      : Nat := 1056
  prevBench : Option Nat := none
  taken     : Nat := 0
  cad       : Nat := 0
deriving DecidableEq, Repr, Inhabited

/-- Who committed a pending take (R83, R88): a requester with its SEQ, a salvo entry, or the command sequencer itself. -/
inductive TakeBy where
  | single (req seq : Nat)
  | salvo (number entry : Nat)
  | internal
deriving DecidableEq, Repr, Inhabited

/-- What a take does to its output's timing (R133 to R135): nothing, re-time it to the source, or return it to OUT_OFFSET. -/
inductive TakeTiming where
  | keep | retime | back
deriving DecidableEq, Repr, Inhabited

/-- A pending take (R81, R83, R89): its stamped frame, or the time base and time T of a timed take not yet stamped; the
cadence counter it is stamped against and the TAKE_LEAD of its commit; `runs` is the frame it executes in where a jump has ended its own (R582). -/
structure Pending where
  owner    : TakeBy
  dest     : Nat
  src      : Nat
  stamp    : Option Nat
  timeBase : Nat := 0
  time     : Nat := 0
  bench    : Option Nat := none
  timing   : TakeTiming := .keep
  fallback : Bool := false
  cad      : Nat := 0
  lead     : Nat := 1
  runs     : Option Nat := none
deriving DecidableEq, Repr, Inhabited

/-- The operation of a commit (R101). -/
inductive CommitOp where
  | take (dest src : Nat) (valid : Bool)
  | salvo (number : Nat) (entries : List (Nat × Nat))
  | cancelTake (dest : Nat)
  | cancelSalvo (number : Nat)
deriving DecidableEq, Repr, Inhabited

/-- A commit under validation (R77): its requester, its values as they stood at receipt and its commit tick. -/
structure Commit where
  req      : Req
  op       : CommitOp
  timed    : Bool
  timeBase : Nat
  time     : Nat
  seq      : Nat
  due      : Nat
deriving DecidableEq, Repr

/-- The timing of one output slot (R80, R92, R134, R136, R582): the OUT_OFFSET in force in word periods, the effective offset in
sixteenths of a tick while it is re-timed, the shift of its frame count, offsets delivered and not yet in force with their delivery
ticks, the lead of its source in sixteenths, and the run of untimed judgements. -/
structure OutTiming where
  offset  : Int := 0
  retimed : Option Int := none
  shift   : Int := 0
  offsets : List (Int × Nat) := []
  lead    : Int := 0
  untimed : Nat := 0
deriving DecidableEq, Repr, Inhabited

/-- Why an output shows its loss policy (R93, R94). -/
inductive LossCause where
  | none | lost | mismatch
deriving DecidableEq, Repr, Inhabited

/-- What an output slot shows in a Side (R94, R130): the number of the frame in progress and why it is not its source; the first line of that frame
that shows the source again; the line at which a jump ended the frame; whether the source was lost during it. -/
structure Shown where
  frame : Option Nat := none
  cause : LossCause := .none
  back  : Nat := 0
  cut   : Option Nat := none
  hit   : Bool := false
deriving DecidableEq, Repr, Inhabited

/-- A block written in a Seam store (R117, R125): the output frame, line, MARK and index of its position, its VIDEO and ANC words, its effective
stamp in 2^-16 ns, and the Bench whose copy it belongs to. -/
structure Placed where
  frame : Nat
  line  : Nat
  mark  : Nat
  idx   : Nat
  words : List W32
  time  : Int := 0
  bench : Option Nat := none
deriving DecidableEq, Repr

/-- The ring position of a capture tap in a Side (R96): the address at which the next frame goes and how many frames the ring holds
since it was restarted; when ENABLE last rose and last fell, in ticks (R114); and the last frame of a generator that it took. -/
structure Capture where
  next   : Nat := 0
  frames : Nat := 0
  onAt   : Nat := 0
  offAt  : Nat := 0
  seen   : Int := -1
deriving DecidableEq, Repr, Inhabited

/-- One of a Bench's three buffers (R143): the SOF stamp of the frame it holds and its place among the Bench's input frames, whether
that frame has been shown and whether it was received whole. -/
structure BenchBuf where
  stamp : Option Int := none
  seq   : Nat := 0
  shown : Bool := false
  whole : Bool := false
deriving DecidableEq, Repr, Inhabited

/-- The states of a Bench (R142). -/
inductive BenchState where
  | free | priming | running | holding
deriving DecidableEq, Repr, Inhabited

/-- A Bench (R137, R142, R143): its target (PHASE in 1/48 tick), its units and pages, its buffers, the next cadence frame k to be shown, the decision
made for it (`some none` where no frame was chosen), the buffer being shown and the one shown before it; the buffer that the frame arriving is
written into; the frame start at which the frame being shown began; the input frames counted, the place of the last one shown; and the
discontinuities of the copy, newest first, at most four (R146). -/
structure Bench where
  st      : BenchState := .free
  auto    : Bool := false
  input   : Nat := 0
  cad     : Nat := 0
  phase   : Int := 0
  units   : Nat := 0
  pages   : Nat := 0
  bufs    : List BenchBuf := [{}, {}, {}]
  k       : Nat := 0
  decided : Option (Option Nat) := none
  shown   : Option Nat := none
  before  : Option Nat := none
  wr      : Option Nat := none
  startAt : Int := 0
  seen    : Nat := 0
  lastSeq : Option Nat := none
  breaks  : List Int := []
deriving DecidableEq, Repr, Inhabited


/-- A Sluice (R155 to R160, R173, R174): the CRCs of the compare interval's units and whether it can no longer match; the line of the compare counter that it
covers and the index of the next unit within it; the two Sides' FIFOs, of units with their tags; how many units the lane has taken, and what the latest one was: gap
content (none) or a Side's; on an SDI lane the output frame, line and word pair that are due, the format last carried, and SDI_CFG as it stood at the frame's
start. -/
structure Sluice where
  crcA  : Nat := 0xFFFFFFFF
  crcB  : Nat := 0xFFFFFFFF
  bad   : Bool := false
  line  : Option (Int × Nat) := none
  idx   : Nat := 0
  fifoA : List (((Int × Nat) × Nat) × SlUnit) := []
  fifoB : List (((Int × Nat) × Nat) × SlUnit) := []
  taken : Nat := 0
  mode  : Option Side := none
  frame : Option Int := none
  row   : Nat := 1
  pair  : Nat := 0
  fmt   : Option Fmt := none
  cfg   : W32 := 2
deriving DecidableEq, Repr, Inhabited

/-- What a Side's output stage has ready for a transmit position (R52, R154, R233): the output frame it reads, the line and the words of that line
already taken from it, the words since its last MARK, and the words that wait for a data position. -/
structure TxQ where
  frame : Option Nat := none
  line  : Nat := 1
  count : Nat := 0
  turn  : Nat := 0
  q     : List W32 := []
deriving DecidableEq, Repr, Inhabited

/-- The Harif ring (R184 to R188, R568): the tick of the last good frame, whether the ring is lost, each station's update count with the
frames it has stood unchanged, the DSEQ executed last, the mode in force, this station's own update count, and the bypass. -/
structure Ring where
  lastGood : Nat := 0
  lost     : Bool := false
  counts   : List (Option Nat × Nat) := [(none, 0), (none, 0), (none, 0), (none, 0)]
  executed : Option Nat := none
  ext      : Bool := false
  up       : Nat := 0
  bypassed : Bool := true
deriving DecidableEq, Repr, Inhabited

/-- The junction sensors of a Side (R506, R561): the highest reading, its sensor, the two lines with their hysteresis, and the lowest reading. -/
structure Therm where
  max    : Int := 0
  sensor : Nat := 0
  trip   : Bool := false
  warn   : Bool := false
  min    : Int := 0
deriving DecidableEq, Repr, Inhabited

/-- A lane beside its registers (R205, R213, R216, R217, R219): the state it wakes from and the tick of its demand; whether it retrains after
a PLL unlock or a test; since when it is idle; the receive equaliser's values in use while EQ_MODE does not take LANE_RXEQ's; since when the
checker's count runs; the tick of the last write of LANE_DET; the transmit pattern's position and whether its next bit is sent inverted. -/
structure LaneSt where
  wakeFrom  : Nat := 3
  wakeAt    : Nat := 0
  retrain   : Bool := false
  idleSince : Option Nat := none
  rxUse     : W32 := 1044
  berAt     : Option Nat := none
  detAt     : Option Nat := none
  patPos    : Nat := 0
  inject    : Nat := 0
deriving DecidableEq, Repr, Inhabited

/-- A Nervor link beside its registers (R245 to R252): the tick at which it entered its state or last restarted its search; whether it has
locked since IDLE; when it last lost lock; RETRAIN asked for in LOCK; the partner's latest request and the answer to it; the two ends'
RX_READY; this end's own request, its tap, action and number, and whether the partner has acknowledged it; the tick of the partner's latest
complete report; whether the superframe in progress has held data positions, any but IDLE with STANDBY_GAP, and any data block; and the codewords,
corrected symbols and bad CRC judgements of the last millisecond with their ticks. -/
structure NvlSt where
  entered      : Nat := 0
  locked       : Bool := false
  lostAt       : Option Nat := none
  retrain      : Bool := false
  reqSeq       : Option Nat := none
  result       : Nat := 0
  ready        : Bool := false
  partnerReady : Bool := false
  ask          : Nat × Nat × Nat := (0, 0, 0)
  acked        : Bool := true
  reportAt     : Nat := 0
  anyCell      : Bool := false
  allGap       : Bool := true
  anyData      : Bool := false
  recent       : List (Nat × Nat × Nat × Nat) := []
deriving DecidableEq, Repr, Inhabited

/-- The bank's transmit side of a Nervor lane (R234 to R242, R247): the next block position of the superframe and the superframe count; the data
positions sent since the last CRC block, the channels' CRC-12 registers and which are to be sent inverted; the elastic buffer, of headers and
payloads; the scrambler; the bits of the codeword being filled; the run guard's last transmit unit and the length of its run; the ALARM bits
last sent and the superframe that carried them; the part of a report that is next, the superframe of the last report, a ROLL_REQ due, and the tick of the
last LANE_DATA. -/
structure NvlTx where
  pos     : Nat := 0
  sf      : Nat := 0
  sent    : Nat := 0
  crcs    : List Nat := [0xFFF, 0xFFF, 0xFFF, 0xFFF]
  poison  : List Bool := [false, false, false, false]
  buf     : List (Nat × BitVec 64) := []
  scr     : BitVec 58 := 0
  fec     : List Bool := []
  run     : Nat × Nat := (0, 0)
  alarm   : Option Nat := none
  alarmSf : Nat := 0
  roll    : Option Nat := none
  rollSf  : Nat := 0
  rollReq : Bool := false
  dataAt  : Nat := 0
deriving DecidableEq, Repr, Inhabited

/-- An SDI receive converter (R268 to R272): the format of the frame before, since raster lock, and whether it emits; its frame count; the ancillary
packets of the line in progress, with whether each stands in horizontal blanking, its position, whether it came in the C′b/C′r stream and its
words from DID to checksum; and whether the line of a pair's second link failed its CRC. -/
structure SdiSt where
  prev  : Option Fmt := none
  conv  : Bool := false
  tag   : Nat := 0
  anc   : List (Bool × Nat × Bool × List Nat) := []
  spoil : Bool := false
deriving DecidableEq, Repr, Inhabited


/-- The reordering hold of one copy of a flow (R291): the lowest sequence number neither received nor missing, and the numbers held above it. -/
structure SeqTrack where
  next : Option Nat := none
  held : List Nat := []
deriving DecidableEq, Repr, Inhabited

/-- A packet of a flow in the frames that R294 compares: its RTP timestamp and sequence number, its arrival tick on each copy, and
whether the Bank E copy came with a good checksum. -/
structure PktSeen where
  rtp  : Nat
  seq  : Nat
  e    : Option Nat
  w    : Option Nat
  good : Bool := false
deriving DecidableEq, Repr, Inhabited

/-- A packet that its copy's converter holds until it is released in sequence order (R291): its numbers, its marker, its arrival in 2^-16 ns, whether a check
of it failed, and what it carries. -/
structure FlowPkt where
  seq    : Nat
  rtp    : Nat
  marker : Bool
  time   : Int
  bad    : Bool
  rows   : List RowData := []
  anc    : List AncData := []
deriving DecidableEq, Repr, Inhabited

/-- Samples placed in a line of the frame in progress (R289): the active line, their first bit within it, the bits, their packet's arrival, and whether it failed a
check. -/
structure RowSeg where
  row  : Nat
  off  : Nat
  bits : List Bool
  time : Int
  bad  : Bool
deriving DecidableEq, Repr, Inhabited

/-- The converter of one copy of a -20 flow (R289 to R292): the packets held; the arrival of the first packet of each RTP timestamp; the frame in
progress, with its format and tag, the last raster line released and whether its EOF is due; its samples; and the ancillary packets waiting, by RTP timestamp and
line, with their arrival. -/
structure FlowConv where
  pkts  : List FlowPkt := []
  first : List (Nat × Int) := []
  rtp   : Option Nat := none
  fmt   : Fmt := {}
  tag   : Nat := 0
  done  : Nat := 0
  live  : Bool := false
  segs  : List RowSeg := []
  anc   : List (Nat × Nat × List Nat × Int) := []
deriving DecidableEq, Repr, Inhabited

/-- A receive flow (R291, R294, R325): its copies' sequence tracks and converters, their presence for flows that feed no input slot, the latest frame's RTP
timestamp, the packets compared for skew, and AUDIO_PLAN's channels and depth. -/
structure RxFlow where
  e        : SeqTrack := {}
  w        : SeqTrack := {}
  convE    : FlowConv := {}
  convW    : FlowConv := {}
  presentE : Bool := false
  presentW : Bool := false
  rtp      : Option Nat := none
  seen     : List PktSeen := []
  chans    : Nat := 0
  depth    : Nat := 24
deriving DecidableEq, Repr, Inhabited

/-- An audio transmit flow on one bank's port (R295, R330): the sample index it sends next, and how many packets it has built; AUDIO_PLAN's samples in
a packet and depth. -/
structure TxRun where
  frame   : Option Nat := none
  sent    : Nat := 0
  samples : Nat := 0
  depth   : Nat := 24
deriving DecidableEq, Repr, Inhabited

/-- The registers of a transmit flow as they stood at its output's frame start (R312's tables, R317, R320). -/
structure TxPar where
  cfg  : W32 := 0
  pkt  : W32 := 0
  udp  : W32 := 0
  ssrc : W32 := 0
  dstE : W32 := 0
  dstW : W32 := 0
deriving DecidableEq, Repr, Inhabited

/-- A packet that a Side has built and that waits for its launch (R295, R300, R302): its launch time and the instant it is ready, its RTP fields, its payload
header, the bytes it has in the launch FIFO, and the banks that have sent it. -/
structure TxPkt where
  launch : Int
  ready  : Int
  seq    : Nat
  rtp    : Nat
  marker : Bool
  par    : TxPar
  head   : List Byte
  size   : Nat
  sentE  : Bool := false
  sentW  : Bool := false
deriving DecidableEq, Repr, Inhabited

/-- A -20 or -40 transmit flow (R295 to R300): the frame it builds with its RTP timestamp and registers; the field and packet, or the line, that come next; how
many packets it has built; those that wait; and the ancillary packets gathered for the next -40 packet, with the read time of the last. -/
structure TxFlow where
  frame : Option Nat := none
  rtp   : Nat := 0
  par   : TxPar := {}
  fld   : Nat := 0
  j     : Nat := 0
  count : Nat := 0
  q     : List TxPkt := []
  pend  : List (Nat × List Nat) := []
  read  : Int := 0
deriving DecidableEq, Repr, Inhabited

/-- A Side's launch FIFO of 2 KiB for a transmit flow, and its backlog in HBM (R302). -/
structure TxBuf where
  fifo    : List Byte := []
  backlog : List Byte := []
deriving DecidableEq, Repr, Inhabited

/-- A block that waits for its place on a lane of a port (R154, R301): its header, its payload in each Side, and whether it is the first of its frame on the
lane. -/
structure EthBlk where
  hdr   : Nat
  a     : BitVec 64
  b     : BitVec 64
  first : Bool
deriving DecidableEq, Repr, Inhabited

/-- A port's MAC (R287, R301, R303, R304, R306): its counters, the entries of its control receive queue as unread words and whether the oldest is
partly read, the entry being written and those queued for transmission, the tick at which a control gap ends, when the frame being sent
ends in 2^-16 ns, and the tick at which a pause ends. -/
structure PortMac where
  cnt      : SMap Nat := []
  crx      : List (List W32) := []
  partly   : Bool := false
  ctxOpen  : List W32 := []
  ctx      : List (List W32) := []
  gapEnd   : Nat := 0
  busy     : Nat := 0
  pauseEnd : Nat := 0
deriving DecidableEq, Repr, Inhabited

/-- A network host (R309, R310): its waiting requests, each with its source UDP port; the SEQ and reply of the last executed; the events that gather
and the tick of the first; the outstanding NOTIFY with its SEQ, when it was last sent and how often again; the notify count. -/
structure RrpSt where
  wait    : List (List W32 × Nat) := []
  last    : Option (Nat × List W32) := none
  gather  : List Nat := []
  since   : Nat := 0
  notify  : Option (Nat × List Nat) := none
  sentAt  : Nat := 0
  retries : Nat := 0
  count   : Nat := 0
deriving DecidableEq, Repr, Inhabited


/-- One time base (R386): its time in units of 2^-48 ns since the PTP epoch, the RATE in force, and what takes effect at the next tick: the steps, each
relative or (true) to a time, in 2^-16 ns (R389), and after them a RATE (R387, R390). -/
structure TimeBase where
  t     : Nat := 0
  rate  : Int := 0
  steps : List (Bool × Int) := []
  next  : Option Int := none
deriving DecidableEq, Repr, Inhabited

/-- A pulse on a pulse line: the line, and the cadence times in 2^-16 ns at which it rises and falls (R401). -/
structure Pulse where
  line : Nat
  rise : Int
  fall : Int
deriving DecidableEq, Repr

/-- One compare unit (R399): armed, its target in 2^-16 ns, whether its next fire drives no pulse (armed past its target), the tick in which it was
armed or last fired, and its pulses. -/
structure CmpUnit where
  armed  : Bool := false
  target : Nat := 0
  past   : Bool := false
  setAt  : Nat := 0
  pulses : List Pulse := []
deriving DecidableEq, Repr, Inhabited

/-- The timestamp side of one port (R391, R402): calibrated since link-up, the transmit timestamp queue (whole entries of four
words, oldest first) and the count of entries committed to the port's control transmit queue. -/
structure PortTs where
  cal       : Bool := false
  queue     : List (List W32) := []
  committed : Nat := 0
deriving DecidableEq, Repr, Inhabited

/-- One cadence counter (R411): its 48-bit frame count, the index j of the frame start that began the frame in progress, the cadence phase, in
2^-16 ns, from the frame start of index `first` on, and the phase before it (R422). -/
structure Cadence where
  count : Nat := 0
  index : Nat := 0
  phi   : Int := 0
  prev  : Int := 0
  first : Nat := 0
deriving DecidableEq, Repr, Inhabited

/-- One reference candidate (R412 to R414): the instant of its last accepted event and its phase, both in 2^-16 ns; the ticks of
its glitches in the last second; since when it has met its conditions; when it qualified. -/
structure Cand where
  last     : Option Int := none
  e        : Int := 0
  glitches : List Nat := []
  okSince  : Option Nat := none
  qualAt   : Nat := 0
deriving DecidableEq, Repr, Inhabited

/-- A counter that has yet to jump by its share of a re-alignment (R422): the index of its eligible frame start and Δ reduced
to its frame period. -/
structure AlignJump where
  ctr   : Nat
  index : Nat
  delta : Int
deriving DecidableEq, Repr

/-- The hidden state of the reference selector (R411, R417, R421 to R424). -/
structure RefSel where
  phi       : Int := 0
  b         : Int := 0
  jumps     : List AlignJump := []
  lockedAt  : Nat := 0
  enteredAt : Nat := 0
deriving DecidableEq, Repr, Inhabited


/-- An audio packet of an input that waits to be de-embedded (R326): the stamp of its frame's SOF, its group, its place among the group's packets of
the frame, and its words from DID to checksum. -/
structure AudPkt where
  sofAt : Int := 0
  group : Nat := 0
  j     : Nat := 0
  words : List Nat := []
deriving DecidableEq, Repr, Inhabited

/-- The de-embedder of an input (R42, R326): the 10-bit words of the ancillary run in progress, the groups of the packets that the frame in progress
has brought, and the packets that wait. -/
structure AudRx where
  tens : List Nat := []
  seen : List Nat := []
  q    : List AudPkt := []
deriving DecidableEq, Repr, Inhabited

/-- A source channel of the audio matrix (R325): its origin (0 none, 1 de-embedder, 2 receive flow, 3 TDM slot), the input slot, flow
or port, the channel or slot within it and a flow's LINK_OFFSET, from AUDIO_PLAN; whether its samples arrive in time; the index of its last
sample; the samples that have arrived, newest first. -/
structure AudSrc where
  kind    : Nat := 0
  origin  : Nat := 0
  index   : Nat := 0
  delta   : Nat := 0
  present : Bool := false
  last    : Option Nat := none
  samples : List (Nat × W32) := []
deriving DecidableEq, Repr, Inhabited

/-- What a destination channel carries: a source and a tap of its delay line (R337). -/
structure Sig where
  src   : Nat := 16384
  delay : Nat := 0
deriving DecidableEq, Repr, Inhabited

/-- A change of a destination channel (R334, R335): none, the zero-crossing search that began at an index, the ramp that begins at one. -/
inductive AudChange where
  | steady
  | search (since : Nat) (goal : Sig)
  | ramp (start : Nat) (goal : Sig)
deriving DecidableEq, Repr, Inhabited

/-- A destination channel (R328): its use (0 none, 1 embedder, 2 packetiser, 3 TDM slot), owner, index and delay line from AUDIO_PLAN;
what it carries; a change asked for and not yet begun; the change in progress and the one that follows its ramp; the outgoing signal's
last sample; whether its source yields invalid silence; where the ramp after a return began; its last 8 192 samples, newest first. -/
structure AudDst where
  kind     : Nat := 0
  owner    : Nat := 0
  index    : Nat := 0
  delayMax : Nat := 0
  cur      : Sig := {}
  want     : Option Sig := none
  change   : AudChange := .steady
  after    : Option Sig := none
  prev     : W32 := 0
  lost     : Bool := false
  rampUp   : Option Nat := none
  hist     : List (Nat × W32) := []
deriving DecidableEq, Repr, Inhabited

/-- A TDM port (R338 to R346): the configuration taken at its last ARM, K and the next frame number once it has joined a group, the
misplaced frame syncs it has seen in a row with their bit count, the bits of its last transmit frame that the next carries at its start, and the
bits received in the frame before the one in progress. -/
structure TdmPort where
  cfg    : W32 := 0
  start  : Option Nat := none
  n      : Nat := 0
  misAt  : Nat := 0
  misRun : Nat := 0
  tail   : List Bool := []
  heard  : Option (List Bool) := none
deriving DecidableEq, Repr, Inhabited


/-- A head at work (R360): the tick at which a take gave it work, and the frame it composed last. -/
structure HeadRun where
  since : Option Nat := none
  last  : Option Nat := none
deriving DecidableEq, Repr, Inhabited

/-- A source frame in a tile buffer (R363): its source, SOF stamp, format, tag, whether it is eligible, and the blocks written. -/
structure TileFrame where
  src  : Nat := 1056
  sof  : Int := 0
  fmt  : Fmt := {}
  tag  : Nat := 0
  elig : Bool := false
  blks : List Block := []
deriving DecidableEq, Repr, Inhabited

/-- A tile feed in a Side (R363 to R365): its four buffers, the buffer shown and the newest eligible one, and the last frame of a
generator that it took. -/
structure TileRun where
  bufs   : List (Option TileFrame) := [none, none, none, none]
  shown  : Option Nat := none
  newest : Option Nat := none
  seen   : Int := -1
  late   : Bool := false
deriving DecidableEq, Repr, Inhabited

/-- A word of Side-held content outside HBM (R371): its KIND, item, copy and word offset. -/
structure AlyCell where
  kind : Nat
  item : Nat
  copy : Nat
  off  : Nat
deriving DecidableEq, Repr

/-- What waits for a head boundary (R374): a flip, by its bit in ALY_FLIP_STAT, or a value delivered to a register. -/
inductive AlyWait where
  | flip (head bit tick : Nat)
  | value (head : Nat) (key : RegKey) (v : W32) (tick : Nat)
deriving DecidableEq, Repr

/-- A pseudo-channel beside its registers (R437, R439, R443, R445 to R447): the refreshes owed; closed to requests; the delays in use; the
consecutive successful passes in FIXED; the corrections of this pass interval; the failed replays in a row; the activate table and the tick
of its window; the requests promoted, oldest first; the cadence times, in 2^-16 ns, of its last interval boundary and at which its latest refresh ends. -/
structure PcSt where
  owed     : Nat := 0
  closed   : Bool := false
  delays   : List Nat := []
  goodRun  : Nat := 0
  corr     : Nat := 0
  replays  : Nat := 0
  table    : List (Nat × Nat) := []
  rhAt     : Nat := 0
  promoted : List Nat := []
  boundAt  : Option Int := none
  busyTo   : Int := 0
deriving DecidableEq, Repr, Inhabited

/-- A Hopper (R453 to R456): the committed packets or entries, oldest first, each as its unread words; whether the oldest is partly read; the
words of the open one. -/
structure Hopper where
  items  : List (List W32) := []
  partly : Bool := false
  open_  : Option (List W32) := none
deriving DecidableEq, Repr, Inhabited

/-- A lock on a Strata target, requested or held (R476 to R478): its requester, its target, the tick of its grant, the beats counted and the tick of its
request. -/
structure Lock where
  req    : Nat := 0
  target : Nat := 0
  since  : Option Nat := none
  beats  : Nat := 0
  asked  : Nat := 0
deriving DecidableEq, Repr, Inhabited

/-- A transaction that waits at a target for another requester's lock to end (R475, R477): its master and requester, its target, its address, the word
it writes or none for a read, its byte enables, the words read ahead after a window read, the tick since which it waits, and, of a frame of
the service port, the opcode and the words. -/
structure Waiting where
  master : Nat
  req    : Req
  target : Nat
  addr   : W32
  data   : Option W32 := none
  be     : Fin 16 := 15
  ahead  : Fin 17 := 0
  since  : Nat := 0
  spi    : Option (Byte × List W32) := none
deriving DecidableEq, Repr


/-- A download session (R535, R537, R541): its KIND (1 firmware, 2 structure), its length in bytes and its hash; the pieces committed; VERIFIED;
once it is, the target image's header values, the slots that took it in FLASH0 and FLASH1, and what a structure image changes. -/
structure Session where
  kind     : Nat := 1
  len      : Nat := 0
  hash     : List W32 := []
  done     : List Nat := []
  verified : Bool := false
  target   : FwImage := {}
  slots    : List Nat := [1, 1]
  change   : Option Change := none
deriving DecidableEq, Repr, Inhabited


/-- A unit of an internal engine (R557, R558): given work, in E2, since when it is idle, and the tick at which it starts its work. -/
structure EngUnit where
  busy  : Bool := false
  deep  : Bool := false
  since : Nat := 0
  start : Nat := 0
deriving DecidableEq, Repr, Inhabited

/-- What leaves the device or the model's view of it: messages, frames, pulses. -/
inductive Emit where
  /-- An MSI-X message of host port `port` (R500). -/
  | msix (port vector : Nat)
  /-- The frame of TDM port `port` whose sample index is `index`, slot by slot on DOUT (R343). -/
  | tdmFrame (port index : Nat) (bits : List Bool)
  /-- Lane `lane` takes a unit of a Side from its Sluice: the header of a 66-bit block and its payload in two words, or an SDI word pair with
  header 0 (R154, R157). -/
  | unit (lane : Nat) (side : Side) (hdr : Nat) (words : List W32)
  /-- Lane `lane` takes a unit of gap content (R173, R174). -/
  | gap (lane : Nat) (hdr : Nat) (words : List W32)
  /-- A ring frame is forwarded (R184). -/
  | ringFrame (bytes : List Byte)
  /-- The line signal of a lane, bit by bit: scrambled and coded blocks (R239 to R241), or a test pattern (R218). -/
  | line (lane : Nat) (bits : List Bool)
  /-- An SDI lane sends a frame of an output: its format code, whether as level B-DL, whether with ST 352 (R273, R275). -/
  | sdiRaster (lane output code : Nat) (levelB vpid : Bool)
  /-- A frame that is not a flow's leaves a port (R303, R307), without its FCS. -/
  | frame (port : Nat) (bytes : List Byte)
  /-- A packet of transmit flow `flow` leaves a port, from its destination address to its last payload byte (R295, R296, R301). -/
  | packet (port flow : Nat) (bytes : List Byte)
  /-- A datagram to a network host's UDP port (R308, R310). -/
  | datagram (host udp : Nat) (words : List W32)
  /-- The service port sends data words on MISO after its sync byte (R467). -/
  | miso (words : List W32)
deriving DecidableEq, Repr

/-- The machine. Each field's default is its value right after reset: AO_RESET_N is low (R8, R562). -/
structure State where
  /-- the commands that are waiting, first in, first out -/
  pending : List Instr := []
  /-- the register file: every register that differs from its reset value -/
  regs : List (RegKey × W32) := []
  /-- Side A -/
  sideA : SideSt := {}
  /-- Side B -/
  sideB : SideSt := {}
  /-- PARTITION_PLAN's rights of requesters 1 to 7 (R469) -/
  rights : SMap Rights := []
  /-- PARTITION_PLAN names requester 7 as an ordinary partition (R469) -/
  plain7 : Bool := false
  /-- sources that have fired and whose destination is still to be asserted (R498) -/
  fired : List Nat := []
  /-- what has left the device, oldest first -/
  out : List Emit := []
  /-- the word last returned to each requester -/
  lastRead : SMap W32 := []
  /-- the model's own counter: how many fresh open values have been drawn -/
  freeCtr : Nat := 0
  /-- AO_RESET_N is low (R562) -/
  aoReset : Bool := true
  /-- what hardware has set in the ticked registers in the present tick: sticky bits and the growth of counts (R7) -/
  setNow : List (RegKey × W32) := []
  /-- the values of the twin registers in the routing snapshot (R32) -/
  twins : List (RegKey × W32) := []
  /-- twin writes accepted and not yet delivered, with their delivery ticks (R480) -/
  twinQ : List (RegKey × W32 × Nat) := []
  /-- SLOT_PLAN's input slots (R22, R51) -/
  inPlan : SMap InPlan := []
  /-- the input streams in the banks' receive logic, by lowest slot -/
  inRx : SMap InRx := []
  /-- the merge of input n in a Side, at 2 n + Side -/
  merges : SMap Merge := []
  /-- the blocks on their way to destination d in a Side, at 2 d + Side, oldest first -/
  feeds : SMap (List Fed) := []
  /-- SLOT_PLAN's output slots (R23) -/
  outPlan : SMap OutPlan := []
  /-- the current route of each destination, in the routing snapshot (R32, R73) -/
  routes : SMap Route := []
  /-- the pending takes, in the order of their commits (R83) -/
  takes : List Pending := []
  /-- the commits under validation (R77) -/
  commits : List Commit := []
  /-- the entries of each salvo, destination and source (R85) -/
  salvos : SMap (List (Nat × Nat)) := []
  /-- the timing of each output slot -/
  outs : SMap OutTiming := []
  /-- what output d shows in a Side, at 2 d + Side -/
  shown : SMap Shown := []
  /-- the Seam store of output d in a Side, at 2 d + Side -/
  stores : SMap (List Placed) := []
  /-- capture tap t in a Side, at 2 t + Side -/
  captures : SMap Capture := []
  /-- the Benches (R137) -/
  benches : SMap Bench := []
  /-- BENCH_PLAN's limits -/
  benchPlan : BenchPlan := {}
  /-- the blocks of Bench b's input from an SOF that has no buffer yet, in a Side, at 2 b + Side, oldest first -/
  benchIn : SMap (List Block) := []
  /-- the blocks that buffer i of Bench b holds in a Side's HBM, at 8 b + 4 Side + i, in the order of R44 -/
  benchMem : SMap (List Block) := []
  /-- the tick of the last write of XPT_TAKE_LEAD and the value before it (R81) -/
  leadOld : Option (Nat × Nat) := none
  /-- the tick at which the holder's lease expires (R163) -/
  leaseEnd : Nat := 0
  /-- until when expiry is suspended for a Side that was WARM or COLD (R182) -/
  grace : Option Nat := none
  /-- the pending planned switch-over: its counter and frame (R175) -/
  planned : Option (Nat × Nat) := none
  /-- since when a HOT, READY standby has been out of step (R161) -/
  outSince : Option Nat := none
  /-- the three voters' states, coded as RFE_STATE.STATE; each drives a select line to every Sluice (R162) -/
  voters : List Nat := [0, 0, 0]
  /-- the tick of the latest grant from BOOT or NONE (R167) -/
  grantAt : Option Nat := none
  /-- the Sluices in their compare intervals -/
  sluices : SMap Sluice := []
  /-- the Harif ring -/
  ring : Ring := {}
  /-- the privileged lines asserted from outside, with their context words (R506, R507) -/
  envLines : List (Nat × W32) := []
  /-- the severity recorded at each line's latest rise (R508) -/
  sevAt : SMap Nat := []
  /-- the junction sensors of each Side -/
  therm : SMap Therm := []
  /-- what Side sd has ready for transmit position p, at 2 p + sd; Nervor channel c of lane l is position 4 l + c -/
  txqs : SMap TxQ := []
  /-- the lanes beside their registers -/
  lanes : SMap LaneSt := []
  /-- the Nervor links beside their registers -/
  nvl : SMap NvlSt := []
  /-- the banks whose supplies have failed (R19) -/
  bankLost : List Bank := []
  /-- the banks' transmit sides of the Nervor lanes -/
  nvlTx : SMap NvlTx := []
  /-- the bypass buffer of each output position, lane 4 l + channel: the words of forwarded data blocks (R253, R255) -/
  bypassQ : SMap (List (W32 × W32)) := []
  /-- the SDI receive converters -/
  sdi : SMap SdiSt := []
  /-- PORT_PLAN: the ports of the structure, by port index (R282) -/
  portPlan : SMap PortPlan := []
  /-- the receive flows -/
  rxFlows : SMap RxFlow := []
  /-- audio transmit flow t on bank b's port, at 2 t + b -/
  txRuns : SMap TxRun := []
  /-- the -20 and -40 transmit flows -/
  txFlows : SMap TxFlow := []
  /-- a Side's launch FIFO and backlog of transmit flow t, at 2 t + Side -/
  txBufs : SMap TxBuf := []
  /-- the blocks of media frames that each lane of a port has still to send -/
  ethQ : SMap (List EthBlk) := []
  /-- the MAC of each port index -/
  macs : SMap PortMac := []
  /-- the network hosts -/
  rrp : SMap RrpSt := []
  /-- the host region is parked (R560) -/
  hostParked : Bool := true
  /-- ticks of the timing island since AO_RESET_N (R20); the cadence time is 4 ns × `tick` (R411) -/
  tick : Nat := 0
  /-- the four time bases (R386) -/
  tbs : SMap TimeBase := []
  /-- compare unit u of time base n at 32 n + u (R399) -/
  cmps : SMap CmpUnit := []
  /-- the timestamp side of each port index (R402) -/
  ports : SMap PortTs := []
  /-- the words left in the latch of requester r at port i, at 16 i + r (R402) -/
  txLatch : SMap (List W32) := []
  /-- the cadence counters (R28, R411) -/
  cads : SMap Cadence := []
  /-- the reference candidates (R409) -/
  cands : SMap Cand := []
  /-- the reference selector -/
  ref : RefSel := {}
  /-- the TDM trigger awaits its event (R341) -/
  trigArmed : Bool := false
  /-- the tick at which the TDM trigger's event occurred (R341) -/
  trigSignal : Option Nat := none
  /-- AUDIO_PLAN's audio time base (R323) -/
  audioTb : Nat := 0
  /-- AUDIO_PLAN's matrix rate is 96 kHz (R321) -/
  audioHi : Bool := false
  /-- the next sample index to be computed (R324) -/
  audNext : Nat := 0
  /-- the source channels -/
  audSrc : SMap AudSrc := []
  /-- the destination channels -/
  audDst : SMap AudDst := []
  /-- the TDM ports -/
  tdm : SMap TdmPort := []
  /-- the requester number to which AUDIO_PLAN assigns each TDM port -/
  tdmOwner : SMap Nat := []
  /-- the sample times of the latest 8 192 indices computed, newest first, in 2^-16 ns (R323, R329) -/
  audTimes : List (Nat × Int) := []
  /-- the de-embedders of the input slots -/
  audIn : SMap AudRx := []
  /-- ALLOY_PLAN's heads -/
  headPlan : SMap HeadPlan := []
  /-- the head to which ALLOY_PLAN assigns each tile feed (R361) -/
  tileHead : SMap (Option Nat) := []
  /-- the head to which ALLOY_PLAN assigns each pre-blend table (R368) -/
  preHead : SMap (Option Nat) := []
  /-- the heads at work (R360) -/
  headRun : SMap HeadRun := []
  /-- tile feed f in a Side, at 2 f + Side -/
  tiles : SMap TileRun := []
  /-- Side A's content outside HBM (R371) -/
  alyA : List (AlyCell × W32) := []
  /-- Side B's -/
  alyB : List (AlyCell × W32) := []
  /-- flips and values that wait for a head boundary (R374) -/
  alyWait : List AlyWait := []
  /-- ALY_CURSOR, ALY_HEAD_BG, ALY_TILE and protected geometry in force (R374, R377) -/
  alyLive : List (RegKey × W32) := []
  /-- the frame-store buffer being written by head h in a Side, at 2 h + Side (R379) -/
  alyStore : SMap (Option Nat) := []
  /-- Side A's HBM, by logical byte address (R433) -/
  hbmA : List Host.Cell := []
  /-- Side B's HBM -/
  hbmB : List Host.Cell := []
  /-- pseudo-channel p of a Side, at 2 p + Side -/
  hbmRun : SMap PcSt := []
  /-- the highest temperature a Side's stack has read since its reset -/
  hbmMax : SMap (Option Int) := []
  /-- Hopper q of a Side, at 64 Side + q -/
  hoppers : SMap Hopper := []
  /-- the capture taps that SLOT_PLAN names (R433) -/
  capPlan : List Nat := []
  /-- Side A's firmware and scratch SRAM, through T10 (R481) -/
  sramA : List Host.Cell := []
  /-- Side B's, through T11 -/
  sramB : List Host.Cell := []
  /-- the tick of the latest reading of a Side's stack's temperature sensor (R440) -/
  hbmTempAt : SMap (Option Nat) := []
  /-- one more than the sample index at which a Side's read of destination channel c's delay line came late, at 2 c + Side (R438) -/
  audLate : SMap Nat := []
  /-- the locks held and requested, in the order of their requests (R476) -/
  locks : List Lock := []
  /-- the transactions that wait for another requester's lock to end, in order of arrival (R473, R477) -/
  waiting : List Waiting := []
  /-- the master number from which each target port next looks for a transaction to grant (R475) -/
  grantNext : SMap Nat := []
  /-- each requester's prefetch buffer: the words from WIN_ADDR on (R483) -/
  winBuf : SMap (List W32) := []
  /-- the vectors of each host port whose mask bit in the MSI-X table is 0 (R465) -/
  msixOpen : SMap (BitVec 64) := []
  /-- the pending bits that are set, 64 × port + vector (R500) -/
  msixPend : List Nat := []
  /-- the vectors that are asserted, 64 × port + vector (R500) -/
  vecHigh : List Nat := []
  /-- FLASH0: the bytes that differ from what it held before (R525) -/
  flash0 : List Host.Cell := []
  /-- FLASH1's -/
  flash1 : List Host.Cell := []
  /-- the owner key hashes in OTP whose slots are USED, slot 0 first (R544) -/
  owners : List (List W32) := []
  /-- the SVN thermometer in OTP (R544) -/
  svn : Nat := 0
  /-- OTP has passed its check (R528) -/
  otpOk : Bool := false
  /-- the images of the structure record are loaded (R527) -/
  loaded : Bool := false
  /-- the update mailbox (R534) -/
  updMbx : Nat := 0
  /-- the download session that the journal holds (R537) -/
  session : Option Session := none
  /-- the parts of uncommitted pieces, at 128 × piece + part (R535) -/
  parts : SMap (List W32) := []
  /-- the Side whose slot was activated last (R539) -/
  updSide : Side := .A
  /-- a CONFIRM awaits its planned switch-over (R539) -/
  confirming : Bool := false
  /-- the image hash last loaded into Side A (0), Side B (1) and the lane microcode (2) (R547) -/
  fwHash : SMap (List W32) := []
  /-- the structure change that is running (R533) -/
  change : Option Change := none
  /-- the tick of its application, or of its step 1 (R531, R532) -/
  changeAt : Nat := 0
  /-- the reply mailbox of an attestation and the report words still to send (R547) -/
  attest : Option (Nat × List W32) := none
  /-- the requester number of an unlocked M7 and the tick at which the unlock ends (R545) -/
  unlock : Option (Nat × Nat) := none
  /-- the regions whose sensors have been read since AO_RESET_N (R575) -/
  tempSeen : List Nat := []
  /-- unit u of engine kind k, at 2048 k + u; the two Sides start a unit in the same tick (R558) -/
  engs : SMap EngUnit := []
deriving DecidableEq, Repr

/-- The machine right after reset: every register at its Reset column, no command waiting. -/
def State.reset : State := {}

end Sys2Proof.Machine
end

