-- ==== Sys2Proof/Machine/Ops.lean ====
section
/-!
DEFINITION. The named operations over the state: reading and writing registers and fields, sticky status and the events it
raises (R7, R497, R498), Spoil counts, denied accesses (R471), the Sides that run, and what leaves the device.
-/
namespace Sys2Proof.Machine

/-- What a meaning answers. -/
abbrev Out := Host.Outcome State Fault Refusal

/-! ## Keys -/

/-- The default severity of privileged line `l` (R506, R507). -/
def sevDefault (l : Nat) : Nat :=
  if l < 32 then [3, 2, 2, 2, 2, 3, 0, 1, 3, 3, 2, 1, 0, 0, 0, 0].getD (l % 16) 0
  else [1, 1, 1, 1, 0, 1, 0, 0, 0].getD (l - 32) 0

/-- The reset value of a register (R8); cadence counter 0 exists from reset (R30, R431), and each line has its own default severity. -/
def RegKey.reset (k : RegKey) : W32 :=
  if k.name = .REF_CAD_DESC ∧ k.i = 0 then w32 0x10891
  else if k.name = .ASY_SEV then w32 (sevDefault k.i)
  else w32 k.name.row.reset

/-- The order in which the register file lists its keys: name, first index, second index, bank. -/
def RegKey.lt (a b : RegKey) : Bool :=
  decide (a.name.ctorIdx < b.name.ctorIdx) || (decide (a.name.ctorIdx = b.name.ctorIdx) &&
    (decide (a.i < b.i) || (decide (a.i = b.i) &&
      (decide (a.j < b.j) || (decide (a.j = b.j) && decide (a.bank < b.bank))))))

/-- A register that stands alone. -/
abbrev R0 (n : RegName) : RegKey := { name := n }

/-- Instance `i` of a register. -/
abbrev R1 (n : RegName) (i : Nat) : RegKey := { name := n, i := i }

/-- Instance `i`, `j` of a register. -/
abbrev R2 (n : RegName) (i j : Nat) : RegKey := { name := n, i := i, j := j }

/-- Instance `i` of a register of a Side. -/
abbrev RS (n : RegName) (sd : Side) (i : Nat) : RegKey := { name := n, i := i, bank := sd.idx }

/-- Instance `i` of the copy that requester `r` has of a banked register (R581). -/
abbrev RB (n : RegName) (r : Req) (i : Nat) : RegKey := { name := n, i := i, bank := r.num }

/-! ## The register file -/

/-- What a register holds. -/
def State.rd (s : State) (k : RegKey) : W32 := Sparse.get RegKey.reset s.regs k

/-- The state with a register holding `v`. -/
def State.wr (s : State) (k : RegKey) (v : W32) : State :=
  { s with regs := Sparse.put RegKey.lt RegKey.reset s.regs k v }

/-- The value of a field of a register. -/
def State.fld (s : State) (k : RegKey) (f : Fld) : Nat := getF (s.rd k) f

/-- The state with a field of a register holding `v`. -/
def State.setF (s : State) (k : RegKey) (f : Fld) (v : Nat) : State := s.wr k (putF (s.rd k) f v)

/-- A one-bit field as a truth value. -/
def State.flag (s : State) (k : RegKey) (f : Fld) : Bool := s.fld k f != 0

/-- A register whose clock is the tick: the command sequencer's, the time bases', the PTP ports', the reference selector's and the TDM
ports' (R7). -/
def RegKey.ticked (k : RegKey) : Bool :=
  k.name.row.space = .seq || (k.name.row.space = .abs && decide (0x600000 ≤ k.name.row.base) && decide (k.name.row.base < 0x800000))

/-- What hardware has set in a ticked register in the present tick: the sticky bits, or how far a count has grown (R7). -/
def State.now (s : State) (k : RegKey) : W32 := Sparse.get (fun _ => 0#32) s.setNow k

/-- Hardware's set of this tick is noted for a ticked register. -/
def State.note (s : State) (k : RegKey) (v : W32) : State :=
  if k.ticked then { s with setNow := Sparse.put RegKey.lt (fun _ => 0#32) s.setNow k v } else s

/-- Add to a count in a field that saturates at its greatest value. -/
def State.addSat (s : State) (k : RegKey) (f : Fld) (n : Nat) : State :=
  let v := satU f.w (s.fld k f + n)
  (s.setF k f v).note k (s.now k + w32 ((v - s.fld k f) * 2 ^ f.lo))

/-- Add to a count that fills its register and wraps (R69). -/
def State.addWrap (s : State) (k : RegKey) (n : Nat) : State := (s.wr k (s.rd k + w32 n)).note k (s.now k + w32 n)

/-! ## The Sides -/

/-- A Side's condition. -/
def State.side (s : State) : Side → SideSt
  | .A => s.sideA
  | .B => s.sideB

/-- The state with a Side's condition replaced. -/
def State.setSide (s : State) (sd : Side) (x : SideSt) : State :=
  match sd with
  | .A => { s with sideA := x }
  | .B => { s with sideB := x }

/-- A Side runs: it is not in reset, COLD or isolated (R579). -/
def State.live (s : State) (sd : Side) : Bool :=
  !(s.side sd).inReset && !(s.side sd).cold && !(s.side sd).isolated

/-- Apply an effect in each Side that runs (R24: the fan-out delivers the same to both). -/
def State.eachSide (s : State) (f : Side → State → State) : State :=
  let s := if s.live .A then f .A s else s
  if s.live .B then f .B s else s

/-- A Side's crosspoint and Benches work: it runs, and is not WARM (R181). -/
def State.routing (s : State) (sd : Side) : Bool := s.live sd && !(s.side sd).warm

/-- Apply an effect of the crosspoint or the Benches in each Side where they work. -/
def State.eachRouting (s : State) (f : Side → State → State) : State :=
  let s := if s.routing .A then f .A s else s
  if s.routing .B then f .B s else s

/-- The phase of a Side's resynchronisation (R178). -/
def State.phase (s : State) (sd : Side) : Nat := s.fld (R1 .RFE_RESYNC sd.idx) ⟨0, 2⟩

/-- The Side that holds the lease, if one does (R192). -/
def State.holder (s : State) : Option Side :=
  match s.fld (R0 .RFE_STATE) ⟨0, 2⟩ with
  | 1 => some .A
  | 2 => some .B
  | _ => none

/-! ## Events (R497, R498) -/

/-- The number of source `x` of a Side. -/
def sideSrc (sd : Side) (x : Nat) : Nat := 640 * sd.idx + x

/-- The number of shared source `i`. -/
def sharedSrc (i : Nat) : Nat := 1280 + i

/-- An event source becomes ACTIVE: it fires (R498). -/
def State.fire (s : State) (e : Nat) : State := { s with fired := s.fired ++ [e] }

/-- A source can set: a source of a Side does not while that Side does not run. -/
def State.sourceSets (s : State) (e : Nat) : Bool :=
  if e < 640 then s.live .A else if e < 1280 then s.live .B else true

/-- A source sets its STATUS; it fires when it was not set and is enabled. -/
def State.setSource (s : State) (e : Nat) : State :=
  let st := s.rd (R1 .EVT_STATUS (e / 32))
  if bitOf st (e % 32) || !s.sourceSets e then s
  else
    let s := s.wr (R1 .EVT_STATUS (e / 32)) (st ||| bit1 (e % 32))
    if bitOf (s.rd (R1 .EVT_ENABLE (e / 32))) (e % 32) then s.fire e else s

/-- How the sticky bits of a register reach an event source: on any rise, or on a rise of their summary bit, the OR of the bits
a mask register selects. -/
inductive EvtWay where
  | anyRise (source : Nat)
  | summary (source : Nat) (mask : RegKey)
deriving DecidableEq, Repr

/-- The event source of each register of sticky status. -/
def evtWay (k : RegKey) : Option EvtWay :=
  match k.name with
  | .XPT_IN_MSTAT => some (.summary (640 * k.bank + 0) { name := .XPT_IN_EVMASK, bank := k.bank })
  | .XPT_OUT_STAT => some (.summary (640 * k.bank + 1) { name := .XPT_OUT_EVMASK, bank := k.bank })
  | .SEAM_EVT => some (.anyRise (640 * k.bank + 2))
  | .FSY_EVT => some (.anyRise (640 * k.bank + 3))
  | .AUD_DST_EVT => some (.summary (640 * k.bank + 4) { name := .AUD_EVMASK, bank := k.bank })
  | .ALY_EVT => some (.summary (640 * k.bank + 5) { name := .ALY_EVMASK, bank := k.bank })
  | .HBM_EVT => some (.anyRise (640 * k.bank + 6))
  | .HOP_EVT => some (.anyRise (640 * k.bank + 7))
  | .RFE_EVT => some (.anyRise (sharedSrc 76))
  | .SLU_EVT => some (.summary (sharedSrc 77) { name := .SLU_EVMASK })
  | .HAF_EVT => some (.anyRise (sharedSrc 78))
  | .LANE_EVT => some (.summary (sharedSrc 79) { name := .LANE_EVMASK })
  | .NVL_EVT => some (.summary (sharedSrc 80) { name := .NVL_EVMASK })
  | .SDI_EVT => some (.summary (sharedSrc 81) { name := .SDI_EVMASK })
  | .ETH_PORT_EVT => some (.summary (sharedSrc 82) { name := .ETH_EVMASK })
  | .ETH_RXF_EVT => some (.summary (sharedSrc 82) { name := .ETH_RXF_EVMASK })
  | .TB_EVT => some (.anyRise (sharedSrc 83))
  | .TB_CMP_EVT => some (.anyRise (sharedSrc 83))
  | .TB_CMP_SKIP => some (.anyRise (sharedSrc 83))
  | .PTP_PORT_EVT => some (.anyRise (sharedSrc 84))
  | .REF_EVT => some (.anyRise (sharedSrc 85))
  | .REF_CAND_EVT => some (.anyRise (sharedSrc 85))
  | .STR_EVT => some (.anyRise (sharedSrc 86))
  | .TDM_EVT => some (.anyRise (sharedSrc 87))
  | .MBX_EVT => some (.anyRise (sharedSrc 89))
  | _ => none

/-- The event that a change of a sticky register from `old` to `new` sets, if any. -/
def State.evtOfRise (s : State) (k : RegKey) (old new : W32) : State :=
  match evtWay k with
  | some (.anyRise e) => if new &&& ~~~old = 0 then s else s.setSource e
  | some (.summary e m) =>
    if old &&& s.rd m = 0 ∧ new &&& s.rd m ≠ 0 then s.setSource e else s
  | none => s

/-- Hardware sets sticky bits of a register, and the register's event follows. -/
def State.raiseW (s : State) (k : RegKey) (bits : W32) : State :=
  let old := s.rd k
  ((s.wr k (old ||| bits)).note k (s.now k ||| bits)).evtOfRise k old (old ||| bits)

/-- Hardware sets one sticky bit. -/
def State.raise (s : State) (k : RegKey) (f : Fld) : State := s.raiseW k f.mask

/-- Hardware sets a sticky bit when `c` holds. -/
def State.raiseIf (s : State) (c : Bool) (k : RegKey) (f : Fld) : State := if c then s.raise k f else s

/-- A write of 1s clears sticky bits (R6). -/
def State.clearW (s : State) (k : RegKey) (bits : W32) : State := s.wr k (s.rd k &&& ~~~bits)

/-! ## Emission, reads and open values -/

/-- Something leaves the device. -/
def State.emit (s : State) (e : Emit) : State := { s with out := s.out ++ [e] }

/-- A read returns a word to a requester. -/
def State.answer (s : State) (r : Req) (v : W32) : State := { s with lastRead := s.lastRead.set r.num v }

/-- The number of the next fresh open value, and the state after it is drawn. -/
def State.fresh (s : State) : Nat × State := (s.freeCtr, { s with freeCtr := s.freeCtr + 1 })

/-! ## Internal engines (R557, R558) -/

/-- The key of unit `u` of engine kind `k`. -/
def engIx (k u : Nat) : Nat := 2048 * k + u

/-- The tick at which unit `u` of kind `k` starts its work. -/
def State.engStart (s : State) (k u : Nat) : Nat := (s.engs.at (engIx k u)).start

/-- The unit has started its work. -/
def State.engStarted (s : State) (k u : Nat) : Bool := decide (s.engStart k u ≤ s.tick)

/-! ## Rights (R469, R471) -/

/-- A number lies in one of the inclusive ranges. -/
def inRanges (rs : List (Nat × Nat)) (x : Nat) : Bool := rs.any fun p => decide (p.1 ≤ x) && decide (x ≤ p.2)

/-- The requester holds every right of every partition except protected-layer ownership (R469). -/
def State.allRights (s : State) (r : Req) : Bool := r = .boot || (r = .service && !s.plain7)

/-- The rights PARTITION_PLAN gives a requester. -/
def State.rightsOf (s : State) (r : Req) : Rights := s.rights.at r.num

/-- Requesters 7 and 10. -/
def is7or10 (r : Req) : Bool := r = .service || r = .boot

/-- The requester holds destination `d`. -/
def State.holdsDest (s : State) (r : Req) (d : Nat) : Bool := s.allRights r || inRanges (s.rightsOf r).dest d

/-- The requester owns head `h`. -/
def State.holdsHead (s : State) (r : Req) (h : Nat) : Bool := s.allRights r || inRanges (s.rightsOf r).heads h

/-- The requester is the protected-layer owner of head `h`; no one holds this without PARTITION_PLAN (R469). -/
def State.holdsProt (s : State) (r : Req) (h : Nat) : Bool := inRanges (s.rightsOf r).prot h

/-- The requester holds lane `n`. -/
def State.holdsLane (s : State) (r : Req) (n : Nat) : Bool := s.allRights r || inRanges (s.rightsOf r).lanes n

/-- The requester holds the port of index `i`: its lanes, or the management port (R312). -/
def State.holdsPort (s : State) (r : Req) (i : Nat) : Bool :=
  s.allRights r || (if i < 128 then (s.portPlan.at i).lanes.all (inRanges (s.rightsOf r).lanes) && (s.portPlan.at i).present
    else (s.rightsOf r).mgPorts.contains (i - 128))

/-- The port's link is up. -/
def State.portUp (s : State) (i : Nat) : Bool := bitOf (s.rd (R1 .ETH_PORT_STAT i)) 0

/-- The requester holds time base `n`. -/
def State.holdsTb (s : State) (r : Req) (n : Nat) : Bool := s.allRights r || (s.rightsOf r).tbs.contains n

/-- The requester owns TDM port `p` (AUDIO_PLAN). -/
def State.holdsTdm (s : State) (r : Req) (p : Nat) : Bool := s.allRights r || s.tdmOwner.at p = r.num

/-- The requester is the reference owner. -/
def State.isRefOwner (s : State) (r : Req) : Bool := s.allRights r || (s.rightsOf r).refOwner

/-- The requester is the referee owner. -/
def State.isRfeOwner (s : State) (r : Req) : Bool := s.allRights r || (s.rightsOf r).rfeOwner

/-- An access is denied: DENIED is set, and the first one since it was cleared is recorded (R471, R486). -/
def State.denied (s : State) (r : Req) (win : Bool) (addr : Nat) : State :=
  let s' := if bitOf (s.rd (RB .STR_ERR r 0)) 0 then s
    else s.wr (RB .STR_ERR_ADDR r 0) (w32 (addr / 4 * 4 + b2n win))
  s'.raiseW (RB .STR_ERR r 0) (bit1 0)

/-- The word a denied read returns (R471). -/
def deniedWord : W32 := 0xFFFFFFFF#32

end Sys2Proof.Machine
end

