-- ==== Sys2Proof/Machine/Addr.lean ====
section
/-!
DEFINITION. Where a register lies in the requester view (R577 to R580) and which paths a requester has (R472).
-/
namespace Sys2Proof.Machine

/-- Strata's targets (R472); `strata` is Strata itself, which every master reaches. -/
inductive Target where
  | ao | timing | lanes | sideA | sideB | twin | hbmA | hbmB | flash | sec | sramA | sramB | strata
deriving DecidableEq, Repr

/-- The number of a target, T0 to T11; 12 for Strata itself. -/
def Target.num : Target → Nat
  | .ao => 0 | .timing => 1 | .lanes => 2 | .sideA => 3 | .sideB => 4 | .twin => 5 | .hbmA => 6 | .hbmB => 7
  | .flash => 8 | .sec => 9 | .sramA => 10 | .sramB => 11 | .strata => 12

/-- The target of a Side's private registers. -/
def Target.ofSide : Side → Target
  | .A => .sideA
  | .B => .sideB

/-- The master port of a requester (R463). -/
def reqMaster : Req → Nat
  | .hp0 => 0 | .hp1 => 1 | .net0 => 2 | .net1 => 2 | .net2 => 2 | .net3 => 2
  | .service => 3 | .fwA => 4 | .fwB => 5 | .boot => 6

/-- The paths of a master port, bit t for target Tt (R472). -/
def masterPaths : Nat → Nat
  | 0 => 0x2FF | 1 => 0x2FF | 2 => 0x2FF | 3 => 0x3FF | 4 => 0x44F | 5 => 0x897 | 6 => 0xFFF | 7 => 0xFFF
  | _ => 0

/-- A master port has a path to a target. -/
def pathOf (m : Nat) (t : Target) : Bool := t = .strata || decide (masterPaths m / 2 ^ t.num % 2 = 1)

/-- A requester has a path to a target. -/
def hasPath (r : Req) (t : Target) : Bool := pathOf (reqMaster r) t

/-- The address of a register in the requester view; a Side register is named through its Side (R579). -/
def RegKey.addr (k : RegKey) : Nat :=
  let r := k.name.row
  let o := r.base + k.i * r.stride + k.j * r.stride2
  match r.space with
  | .abs => o
  | .side => 0x1000000 + 0x800000 * (k.bank % 2) + o
  | .seq => 0x2000000 + o

/-- The address of a twin register in the twin window (R580). -/
def RegKey.twinAddr (k : RegKey) : Nat := 0x2000000 + k.name.row.base + k.i * k.name.row.stride + k.j * k.name.row.stride2

/-! ## Locked sequences (R476 to R478) -/

/-- The lock that a requester holds or waits for. -/
def State.lockOf (s : State) (r : Req) : Option Lock := s.locks.find? fun l => decide (l.req = r.num)

/-- Another requester holds a lock on the target, one of T0 to T11, so no transaction of this one is granted there (R476, R477). -/
def State.lockedOut (s : State) (r : Req) (t : Nat) : Bool :=
  decide (t < 12) && s.locks.any fun l => l.since.isSome && decide (l.target = t) && decide (l.req ≠ r.num)

/-- A transaction of a requester through master `m` is granted at a target: a beat of a locker at the target it holds is counted (R477), and the
port's round robin goes on from the next master (R475). -/
def State.countBeat (s : State) (m : Nat) (r : Req) (t : Nat) : State :=
  { s with
    grantNext := if t < 12 then s.grantNext.set t ((m + 1) % 8) else s.grantNext
    locks := s.locks.map fun l =>
      if t < 12 ∧ l.req = r.num ∧ l.target = t ∧ l.since.isSome = true then { l with beats := min 64 (l.beats + 1) } else l }

/-- The state without a requester's lock or request. -/
def State.dropLock (s : State) (r : Req) : State := { s with locks := s.locks.filter fun l => decide (l.req ≠ r.num) }

/-- A transaction of the requester waits at a target (R473, R477). -/
def State.hasWaiting (s : State) (r : Req) : Bool := s.waiting.any fun w => decide (w.req = r)

/-- A requester's transaction at a target waits: behind its own earlier ones, whose order holds (R473), or for another requester's lock (R477). -/
def State.mustWait (s : State) (r : Req) (t : Nat) : Bool := s.hasWaiting r || s.lockedOut r t

/-- A transaction waits. -/
def State.wait (s : State) (w : Waiting) : State := { s with waiting := s.waiting ++ [{ w with since := s.tick }] }

/-! ## Master resets (R463, R479, R489) -/

/-- Strata's part of a master reset of master `m` for the accesses of a requester: what is cut is logged, the lock goes, the prefetched words
and the transactions not yet granted are discarded. -/
def State.masterReset (s : State) (m : Nat) (r : Req) (cut : Cut) : State :=
  let lock := (s.lockOf r).isSome
  let lost := cut.reads.length + (s.winBuf.at r.num).length
  let waits := s.hasWaiting r
  let s := s.dropLock r
  let s : State := { s with winBuf := s.winBuf.set r.num [], waiting := s.waiting.filter fun w => decide (w.req ≠ r) }
  if cut.target = 15 ∧ cut.zero = 0 ∧ lost = 0 ∧ lock = false ∧ waits = false then s
  else
    let s := s.wr (R1 .STR_MRESET_LOG m) (w32 (m + 8 * (cut.target % 16) + 2 ^ 7 * min 16 cut.zero + 2 ^ 12 * min 16 lost +
      2 ^ 17 * b2n lock + 2 ^ 18 * r.num))
    s.raise (R0 .STR_EVT) F.STR_EVT_MRESET

/-! ## Accesses -/

/-- A write of `v` that needs a path to `t` and the right `ok`: it is denied at `addr` (R471), it waits (R473, R477), or it takes its effect. Nothing
answers while AO_RESET_N is low (R562). -/
def State.access (s : State) (r : Req) (t : Target) (ok : Bool) (addr : Nat) (v : W32) (f : State → State) : State :=
  if s.aoReset then s
  else if !(hasPath r t && ok) then s.denied r false addr
  else if s.mustWait r t.num then s.wait { master := reqMaster r, req := r, target := t.num, addr := w32 addr, data := some v }
  else f (s.countBeat (reqMaster r) r t.num)

/-- A read along a path: the bytes that `be` enables of the word go to the requester and its side effect happens, whichever they are (R3);
denied, the word is all ones (R471). -/
def State.readAccess (s : State) (r : Req) (be : Fin 16) (t : Target) (ok : Bool) (addr : Nat) (f : State → W32 × State) : State :=
  if s.aoReset then s
  else if !(hasPath r t && ok) then (s.denied r false addr).answer r (bytesOf be deniedWord)
  else if s.mustWait r t.num then s.wait { master := reqMaster r, req := r, target := t.num, addr := w32 addr, be := be }
  else
    let p := f (s.countBeat (reqMaster r) r t.num)
    p.2.answer r (bytesOf be p.1)

/-- An access to a register of a Side; while the Side does not run, the access has no effect and sets no bit (R579). -/
def State.sideAccess (s : State) (r : Req) (sd : Side) (ok : Bool) (addr : Nat) (v : W32) (f : State → State) : State :=
  s.access r (Target.ofSide sd) (ok || !s.live sd) addr v fun s => if s.live sd then f s else s

end Sys2Proof.Machine
end

