-- ==== Sys2Proof/Machine/LaneState.lean ====
section
/-!
DEFINITION. The lanes as the rest of the device sees them (R199 to R231): protocol, park state, test service, the positions a lane carries,
and whether a source position can deliver words.
-/
namespace Sys2Proof.Machine

/-- The rate code of a lane: LANE_CFG[n].RATE, where 15 to 31 are treated as 0 (R199). -/
def State.laneRate (s : State) (n : Nat) : Nat :=
  let r := s.fld (R1 .LANE_CFG n) F.LANE_CFG_RATE
  if 15 ≤ r then 0 else r

/-- The protocol of a lane, LANE_CFG[n].PROTO: 0 none, 1 Nervor Link, 2 SDI, 3 media Ethernet; none on a lane whose rate code turns it off (R199). -/
def State.laneProto (s : State) (n : Nat) : Nat := if s.laneRate n = 0 then 0 else s.fld (R1 .LANE_CFG n) F.LANE_CFG_PROTO

/-- LANE_STAT[n].PARK: 0 to 3 for L0 to L3. -/
def State.lanePark (s : State) (n : Nat) : Nat := s.fld (R1 .LANE_STAT n) F.LANE_STAT_PARK

/-- The lane reports LOS. -/
def State.laneLos (s : State) (n : Nat) : Bool := s.flag (R1 .LANE_STAT n) F.LANE_STAT_LOS

/-- The lane reports LOL. -/
def State.laneLol (s : State) (n : Nat) : Bool := s.flag (R1 .LANE_STAT n) F.LANE_STAT_LOL

/-- The bank of a lane (R11). -/
def laneBank (n : Nat) : Bank := if n < 256 then .E else .W

/-- The lane's modulation is PAM4 (R199). -/
def State.pam4 (s : State) (n : Nat) : Bool := s.laneRate n = 1 || s.laneRate n = 3

/-- The pattern that a code of LANE_TEST selects on the lane (R218). -/
def State.patternOf (s : State) (n code : Nat) : Nat :=
  if 10 ≤ code then 0 else if 6 ≤ code ∧ code ≤ 8 ∧ !s.pam4 n then 0 else code

/-- The transmit pattern in force. -/
def State.txPattern (s : State) (n : Nat) : Nat := s.patternOf n (s.fld (R1 .LANE_TEST n) F.LANE_TEST_TX_PAT)

/-- The checker's pattern in force. -/
def State.rxPattern (s : State) (n : Nat) : Nat := s.patternOf n (s.fld (R1 .LANE_TEST n) F.LANE_TEST_RX_PAT)

/-- The lane is out of service for a test (R221). -/
def State.inTest (s : State) (n : Nat) : Bool :=
  s.txPattern n != 0 || s.rxPattern n != 0 || s.fld (R1 .LANE_TEST n) F.LANE_TEST_LOOP != 0

/-- The port index of receive flow `r` in a bank (R282, R318). -/
def State.rxfPort (s : State) (b : Bank) (r : Nat) : Nat :=
  match b with
  | .E => s.fld (R1 .ETH_RXF_CFG r) F.ETH_RXF_CFG_PORT_E
  | .W => 64 + s.fld (R1 .ETH_RXF_CFG r) F.ETH_RXF_CFG_PORT_W

/-- The port index of transmit flow `t` in a bank (R320). -/
def State.txfPort (s : State) (b : Bank) (t : Nat) : Nat :=
  match b with
  | .E => s.fld (R1 .ETH_TXF_CFG t) F.ETH_TXF_CFG_PORT_E
  | .W => 64 + s.fld (R1 .ETH_TXF_CFG t) F.ETH_TXF_CFG_PORT_W

/-- Receive flow `r` is enabled in a bank. -/
def State.rxfEn (s : State) (b : Bank) (r : Nat) : Bool :=
  s.flag (R1 .ETH_RXF_CFG r) (match b with | .E => F.ETH_RXF_CFG_EN_E | .W => F.ETH_RXF_CFG_EN_W)

/-- Transmit flow `t` is enabled in a bank. -/
def State.txfEn (s : State) (b : Bank) (t : Nat) : Bool :=
  s.flag (R1 .ETH_TXF_CFG t) (match b with | .E => F.ETH_TXF_CFG_EN_E | .W => F.ETH_TXF_CFG_EN_W)

/-- Lanes `n` and `l` are one, or the two lanes of a 24G SDI lane pair (R201). -/
def State.sameSdi (s : State) (n l : Nat) : Bool := n = l || (s.flag (R1 .LANE_CFG n) F.LANE_CFG_PAIR && n / 2 = l / 2)

/-- A source position of bank `b` lies on lane `n`. -/
def State.posOnLane (s : State) (n : Nat) (b : Bank) : SrcPos → Bool
  | .nervor l _ => l = n
  | .sdi l => s.sameSdi n l
  | .flow r => (s.portPlan.at (s.rxfPort b r)).lanes.contains n

/-- A transmit position of bank `b` lies on lane `n`. -/
def State.txOnLane (s : State) (n : Nat) (b : Bank) : TxPos → Bool
  | .nervor l _ => l = n
  | .sdi l => s.sameSdi n l
  | .flow t => (s.portPlan.at (s.txfPort b t)).lanes.contains n

/-- The lane's receive side is in service: powered, with signal and lock, and not in test (R211, R213, R221). -/
def State.laneReceives (s : State) (n : Nat) : Bool :=
  !s.laneLos n && !s.laneLol n && !s.inTest n && decide (s.lanePark n ≤ 1)

/-- A source position can deliver words: a Nervor channel on a link that is UP (R245), an SDI lane with raster lock whose converter emits (R266, R272), an enabled flow
whose port is up (R283). -/
def State.posUsable (s : State) (b : Bank) : SrcPos → Bool
  | .nervor l c => s.laneReceives l && s.laneProto l = 1 && s.fld (R1 .NVL_STAT l) F.NVL_STAT_STATE = 3 &&
      decide (c < s.fld (R1 .NVL_STAT l) F.NVL_STAT_CHANNELS)
  | .sdi l => s.laneReceives l && s.laneProto l = 2 && s.flag (R1 .SDI_STAT l) F.SDI_STAT_RASTER_LOCK && (s.sdi.at l).conv
  | .flow r => s.rxfEn b r && s.portUp (s.rxfPort b r)

/-! ## Reordering (R291) -/

/-- A receive flow's type: 1 -20, 2 -40, 3 -30, 4 -31 (R318). -/
def State.rxfType (s : State) (r : Nat) : Nat := s.fld (R1 .ETH_RXF_CFG r) F.ETH_RXF_CFG_TYPE

/-- The modulus of a flow's sequence numbers. -/
def seqMod (type : Nat) : Nat := if type = 1 then 2 ^ 32 else 2 ^ 16

/-- `x` counted from `n`, modulo `m`. -/
def serialFrom (m n x : Nat) : Nat := (x + m - n % m) % m

/-- The hold moves up while the next number has been received. -/
def SeqTrack.advance (m : Nat) : Nat → SeqTrack → SeqTrack
  | 0, x => x
  | k + 1, x =>
    match x.next with
    | some n => if x.held.contains n then SeqTrack.advance m k { next := some ((n + 1) % m), held := x.held.filter fun h => h ≠ n } else x
    | none => x

/-- A packet numbered `p` arrives: the hold, the numbers then declared missing, and whether the packet came too late. -/
def SeqTrack.arrive (m : Nat) (x : SeqTrack) (p : Nat) : SeqTrack × Nat × Bool :=
  match x.next with
  | none => ({ next := some ((p + 1) % m), held := [] }, 0, false)
  | some n =>
    let d := serialFrom m n p
    if m / 2 ≤ d then (x, 0, true)
    else if x.held.contains p then (x, 0, false)
    else
      let x := { x with held := x.held ++ [p] }
      if d < 32 then (SeqTrack.advance m (x.held.length + 1) x, 0, false)
      else
        let n' := (n + (d - 31)) % m
        let old := x.held.filter fun h => serialFrom m n h < d - 31
        let x' := { next := some n', held := x.held.filter fun h => d - 31 ≤ serialFrom m n h : SeqTrack }
        (SeqTrack.advance m (x'.held.length + 1) x', d - 31 - old.length, false)

/-- The numbers declared missing when the copy is declared ABSENT. -/
def SeqTrack.flush (m : Nat) (x : SeqTrack) : Nat :=
  match x.next with
  | some n => (x.held.foldl (fun k h => max k (serialFrom m n h + 1)) 0) - x.held.length
  | none => 0

/-- A flow's copy in one bank. -/
def RxFlow.track (x : RxFlow) : Bank → SeqTrack
  | .E => x.e
  | .W => x.w

/-- The flow with a copy's track replaced. -/
def RxFlow.setTrack (x : RxFlow) (b : Bank) (t : SeqTrack) : RxFlow :=
  match b with
  | .E => { x with e := t }
  | .W => { x with w := t }

/-- The converter of a flow's copy. -/
def RxFlow.conv (x : RxFlow) : Bank → FlowConv
  | .E => x.convE
  | .W => x.convW

/-- The flow with a copy's converter replaced. -/
def RxFlow.setConv (x : RxFlow) (b : Bank) (c : FlowConv) : RxFlow :=
  match b with
  | .E => { x with convE := c }
  | .W => { x with convW := c }

/-- Missing numbers are counted and SEQ_GAP set. -/
def State.flowMissing (s : State) (r : Nat) (b : Bank) (n : Nat) : State :=
  if n = 0 then s
  else (s.addSat (R1 .ETH_RXF_LOST r) (match b with | .E => F.ETH_RXF_LOST_LOST_E | .W => F.ETH_RXF_LOST_LOST_W) n).raise (R1 .ETH_RXF_EVT r) F.ETH_RXF_EVT_SEQ_GAP

/-- A flow's copy is declared ABSENT: what it still waited for is missing, and its hold and its converter empty (R291, R319). -/
def State.flowCopyAbsent (s : State) (r : Nat) (b : Bank) : State :=
  let x := s.rxFlows.at r
  let s := s.raise (R1 .ETH_RXF_EVT r) (match b with | .E => F.ETH_RXF_EVT_ABSENT_E | .W => F.ETH_RXF_EVT_ABSENT_W)
  let s := s.flowMissing r b ((x.track b).flush (seqMod (s.rxfType r)))
  let y := (x.setTrack b {}).setConv b {}
  { s with rxFlows := s.rxFlows.set r (match b with | .E => { y with presentE := false } | .W => { y with presentW := false }) }

/-! ## Transmit taps (R203, R204) -/

/-- The taps of a word of LANE_TXEQ lie within their limits; an NRZ lane treats PRE2 as 0. -/
def tapsOk (pre2 pre1 post1 : Nat) : Bool :=
  decide (pre2 ≤ 8) && decide (pre1 ≤ 24) && decide (post1 ≤ 24) && decide (pre2 + pre1 + post1 ≤ 32)

/-- The taps in use are replaced. -/
def State.setTaps (s : State) (n pre2 pre1 post1 : Nat) : State :=
  let k := R1 .LANE_TXEQ n
  ((s.setF k F.LANE_TXEQ_PRE2 pre2).setF k F.LANE_TXEQ_PRE1 pre1).setF k F.LANE_TXEQ_POST1 post1

/-- A write of LANE_TXEQ[n]: applied as a whole, or ignored with EQ_BUSY while the partner trains the taps, or with EQ_RANGE. -/
def State.writeTxeq (s : State) (n : Nat) (v : W32) : State :=
  let pre2 := if s.pam4 n then getF v F.LANE_TXEQ_PRE2 else 0
  if s.flag (R1 .LANE_CTL n) F.LANE_CTL_TRAIN && s.laneProto n != 2 then s.raise (R1 .LANE_EVT n) F.LANE_EVT_EQ_BUSY
  else if tapsOk pre2 (getF v F.LANE_TXEQ_PRE1) (getF v F.LANE_TXEQ_POST1) then
    (s.setTaps n pre2 (getF v F.LANE_TXEQ_PRE1) (getF v F.LANE_TXEQ_POST1)).setF (R1 .LANE_TXEQ n) F.LANE_TXEQ_AMP (getF v F.LANE_TXEQ_AMP)
  else s.raise (R1 .LANE_EVT n) F.LANE_EVT_EQ_RANGE

end Sys2Proof.Machine
end

