-- ==== Sys2Proof/Machine/Time.lean ====
section
/-!
DEFINITION. Time bases, compare units, timestamps and the cadence counters (chapter 12 and R411).
-/
namespace Sys2Proof.Machine

/-! ## The values of time -/

/-- The cadence time in 2^-16 ns (R411): 4 ns in every tick. -/
def State.cadTime (s : State) : Int := (s.tick * tickU : Nat)

/-- One second in the unit of a time base, 2^-48 ns. -/
def tbSecond : Nat := 1000000000 * 2 ^ 48

/-- The modulus of a time base: 2^48 seconds (R386). -/
def tbMod : Nat := 2 ^ 48 * tbSecond

/-- Seconds of a time-base value. -/
def tbSec (t : Nat) : Nat := t / tbSecond

/-- Nanoseconds within the second. -/
def tbNs (t : Nat) : Nat := t % tbSecond / 2 ^ 48

/-- The fraction of a nanosecond, 16 bits. -/
def tbFrac (t : Nat) : Nat := t % 2 ^ 48 / 2 ^ 32

/-- N of R397 with 16 fraction bits: the time in 2^-16 ns, modulo 2^64 ns. -/
def tbN16 (t : Nat) : Nat := t / 2 ^ 32 % 2 ^ 80

/-- Time a is at or after time b (R397), both in 2^-16 ns modulo 2^64 ns. -/
def atOrAfter (a b : Nat) : Bool := decide ((a + 2 ^ 80 - b % 2 ^ 80) % 2 ^ 80 < 2 ^ 79)

/-- The value of time base `n` in 2^-16 ns. -/
def State.tbNow (s : State) (n : Nat) : Nat := tbN16 (s.tbs.at n).t

/-- The RTP media clock of rate `f` on a time base value (R398). -/
def mediaClock (f t : Nat) : Nat := t / 2 ^ 48 % 2 ^ 64 * f / 1000000000 % 2 ^ 32

/-- The reference candidate followed, when the selector follows one (R420). -/
def State.followed (s : State) : Option Nat :=
  let st := s.fld (R0 .REF_STAT) F.REF_STAT_STATE
  let sel := s.fld (R0 .REF_STAT) F.REF_STAT_SEL
  if (st = 1 ∨ st = 2 ∨ st = 4) ∧ sel < 10 then some sel else none

/-- The rate time base `n` advances at: RATE, less the absorbed rate while the selector follows it (R386, R420). -/
def State.tbRate (s : State) (n : Nat) : Int :=
  if s.followed = some (4 + n) then (s.tbs.at n).rate - Config.absorbedRate s.tick else (s.tbs.at n).rate

/-- A time base after one tick: 4 ns × (1 + RATE × 2^-48). -/
def State.tbAdvance (s : State) (n : Nat) : TimeBase :=
  let x := s.tbs.at n
  { x with t := (((x.t : Int) + 4 * (2 ^ 48 + s.tbRate n)) % (tbMod : Int)).toNat }

/-! ## Cadence counters -/

/-- The format of cadence counter `c`, from REF_CAD_DESC. -/
def State.cadFmt (s : State) (c : Nat) : Fmt :=
  let d := s.rd (R1 .REF_CAD_DESC c)
  { code := getF d F.REF_CAD_DESC_FORMAT, il := bitOf d 14, seg := bitOf d 15 }

/-- Cadence counter `c` exists. -/
def State.cadValid (s : State) (c : Nat) : Bool := s.flag (R1 .REF_CAD_DESC c) F.REF_CAD_DESC_VALID

/-- The counter a CADENCE field names: counter 0 where it names none (R30). -/
def State.cadOf (s : State) (c : Nat) : Nat := if s.cadValid c then c else 0

/-- The first counter whose format is `f`, if the structure gives it one (R29). -/
def State.cadFor (s : State) (f : Fmt) : Option Nat :=
  (List.range 32).find? fun c => s.cadValid c && s.cadFmt c = f

/-- The cadence time of the frame start of index `j` of a counter, at the phase that holds there (R411, R422). -/
def State.startOf (s : State) (c : Nat) (j : Int) : Int :=
  let x := s.cads.at c
  (if j < x.first then x.prev else x.phi) + (s.cadFmt c).startAt j

/-- The cadence time at which frame `k` of counter `c` starts, counting on from the frame in progress (R80, R411). -/
def State.cadStart (s : State) (c : Nat) (k : Int) : Int :=
  let x := s.cads.at c
  s.startOf c (x.index + (k - x.count))

/-- The output slots whose format counter `c` counts (R80, R111), by lowest slot. -/
def State.outsOn (s : State) (c : Nat) : List Nat :=
  (s.outPlan.filter fun p => s.cadFor p.2.fmt = some c).map (·.1)

/-- CADENCE_FRAME_START: the counter begins its next frame once the cadence time has reached it; its 48-bit count, whose low 32 bits REF_CAD_FRAME
reports, rises by one (R411, R431). -/
def execCadenceFrameStart (c : Fin 32) (s : State) : Out :=
  let x := s.cads.at c
  if s.cadValid c ∧ s.cadStart c (x.count + 1) ≤ s.cadTime then
    let n := (x.count + 1) % 2 ^ 48
    let s := { s with cads := s.cads.set c { x with count := n, index := x.index + 1 } }.wr (R1 .REF_CAD_FRAME c) (w32 n)
    .next (if s.trigArmed ∧ s.fld (R0 .TDM_TRIG) F.TDM_TRIG_SOURCE = 2 ∧
        s.cadOf (s.fld (R0 .TDM_TRIG) F.TDM_TRIG_CADENCE) = c.val then { s with trigSignal := some s.tick } else s)
  else .next s

/-! ## Rate and steps -/

/-- The limit of RATE, 1 000 ppm (R387). -/
def rateLimit : Int := 281474976711

/-- A write of TB_RATE_LO by the owner changes nothing by itself; while REFUSED it is ignored (R387, R389). -/
def State.writeRateLo (s : State) (n : Nat) (lo : W32) : State :=
  if s.flag (R1 .TB_STAT n) F.TB_STAT_REFUSED then s.raise (R1 .TB_EVT n) F.TB_EVT_HELD else s.wr (R1 .TB_RATE_LO n) lo

/-- A write of TB_RATE_HI by the owner: the whole RATE is taken, clamped, for the next tick; while REFUSED it is ignored (R387, R389). -/
def State.writeRate (s : State) (n : Nat) (hi : W32) : State :=
  if s.flag (R1 .TB_STAT n) F.TB_STAT_REFUSED then s.raise (R1 .TB_EVT n) F.TB_EVT_HELD
  else
    let v := hi.toNat % 256
    let s := s.wr (R1 .TB_RATE_HI n) (w32 v)
    let q := sext 40 (v * 2 ^ 32 + (s.rd (R1 .TB_RATE_LO n)).toNat)
    let c := max (-rateLimit) (min rateLimit q)
    let s := s.raiseIf (c != q) (R1 .TB_EVT n) F.TB_EVT_RATE_CLAMP
    { s with tbs := s.tbs.upd n fun x => { x with next := some c } }

/-- TB_RATE_WRITE. -/
def execTbRateWrite (r : Req) (n : Fin 4) (hi : W32) (s : State) : Out :=
  .next (s.access r .timing (s.holdsTb r n) (R1 .TB_RATE_HI n).addr hi fun s => s.writeRate n hi)

/-- TB_NS_READ: the nanoseconds, and the seconds and the fraction latched for the reader (R388). -/
def State.readNs (s : State) (r : Req) (n : Nat) : W32 × State :=
  let t := (s.tbs.at n).t
  let s := s.wr (RB .TB_SEC_LO r n) (w32 (tbSec t % 2 ^ 32))
  let s := s.wr (RB .TB_SEC_HI r n) (w32 (tbFrac t * 65536 + tbSec t / 2 ^ 32))
  (w32 (tbNs t), s)

/-- TB_NS_READ. -/
def execTbNsRead (r : Req) (n : Fin 4) (be : Fin 16) (s : State) : Out :=
  .next (s.readAccess r be .timing true (R1 .TB_NS n).addr fun s => s.readNs r n)

/-- A trigger of the TDM ports that names compare unit `u` of time base `n` is signalled (R341, R399). -/
def State.signalTrigger (s : State) (n u : Nat) : State :=
  let t := s.rd (R0 .TDM_TRIG)
  if s.trigArmed ∧ getF t F.TDM_TRIG_SOURCE = 1 ∧ getF t F.TDM_TRIG_TB = n ∧ getF t F.TDM_TRIG_UNIT = u then
    { s with trigSignal := some s.tick } else s

/-- The number of compare unit `u` of time base `n` among the units. -/
def cmpIx (n u : Nat) : Nat := 32 * n + u

/-- The period of a compare unit in 2^-16 ns (R400). -/
def State.cmpPeriod (s : State) (n u : Nat) : Nat :=
  (s.rd (R2 .TB_CMP_PER n u)).toNat * 65536 + s.fld (R2 .TB_CMP_FRAC n u) F.TB_CMP_FRAC_PER_FRAC

/-- The first target after a fire: T + PER, or after a forward step the first T + m × PER past the new time (R400). -/
def nextTarget (t per now : Nat) (skip : Bool) : Nat :=
  if skip then
    let d := (now + 2 ^ 80 - t) % 2 ^ 80
    (t + (d / per + 1) * per) % 2 ^ 80
  else (t + per) % 2 ^ 80

/-- The cadence time at which time base `n` stands at `t`, placed to 2^-6 ns (R401). -/
def State.cmpInstant (s : State) (n t : Nat) : Int := (s.cadTime + sext 80 ((t + 2 ^ 80 - s.tbNow n) % 2 ^ 80)) / 1024 * 1024

/-- A compare unit fires (R399 to R401): its event bit, the TDM trigger that names it, its pulse when it drives one, and either
its next target or, for a one-shot unit, EN cleared. `pulse` is false for a fire that drives none. -/
def State.cmpFire (s : State) (n u : Nat) (pulse skip : Bool) : State :=
  let x := s.cmps.at (cmpIx n u)
  let ctl := s.rd (R2 .TB_CMP_CTL n u)
  let per := s.cmpPeriod n u
  let periodic := bitOf ctl 1 && decide (per ≠ 0)
  let s := (s.raiseW (R1 .TB_CMP_EVT n) (bit1 u)).signalTrigger n u
  let width := max 1 (getF ctl F.TB_CMP_CTL_WIDTH)
  let rise := s.cmpInstant n x.target
  let p : Pulse := { line := getF ctl F.TB_CMP_CTL_LINE, rise := rise, fall := rise + (width * 1000 * nsU : Nat) }
  let tg := if periodic then nextTarget x.target per (s.tbNow n) skip else x.target
  let x' := { x with
    armed := periodic, past := false, setAt := s.tick, target := tg, pulses := if pulse && bitOf ctl 2 then x.pulses ++ [p] else x.pulses }
  let s := { s with cmps := s.cmps.set (cmpIx n u) x' }
  if periodic then s else s.setF (R2 .TB_CMP_CTL n u) F.TB_CMP_CTL_EN 0

/-- Every armed unit of time base `n` that a forward step has passed over fires at the step, without a pulse (R399). -/
def State.cmpPassed (s : State) (n old : Nat) : State :=
  (List.range 32).foldl (fun s u =>
    let x := s.cmps.at (cmpIx n u)
    if x.armed && !atOrAfter old x.target && atOrAfter (s.tbNow n) x.target then
      (s.cmpFire n u false true).raiseW (R1 .TB_CMP_SKIP n) (bit1 u)
    else s) s

/-- The step a write of TB_STEP_CTL asks for, in 2^-16 ns: the amount, or the difference to the time it names (R389). -/
def State.stepAmount (s : State) (n : Nat) (abs : Bool) : Int :=
  let v := (s.rd (R1 .TB_STEP_HI n)).toNat * 2 ^ 32 + (s.rd (R1 .TB_STEP_LO n)).toNat
  let f := s.fld (R1 .TB_STEP_FRAC n) F.TB_STEP_FRAC_FRAC
  if abs then ((v * 65536 + f : Nat) : Int) - ((s.tbs.at n).t / 2 ^ 32 : Nat) else sext 64 v * 65536 + f

/-- The matrix rate f (R321). -/
def State.audRate (s : State) : Nat := if s.audioHi then 96000 else 48000

/-- The sample index at the audio time base's present value (R323). -/
def State.audIndexNow (s : State) : Nat := tbN16 (s.tbs.at s.audioTb).t / 65536 * s.audRate / 1000000000

/-- A step of the audio time base makes the matrix skip or wait, and sets AUD_CFG.STEP in every Side that runs (R324). -/
def State.audioStepped (s : State) (n before : Nat) : State :=
  if n = s.audioTb ∧ s.audIndexNow ≠ before then
    let s := { s with audNext := max s.audNext (s.audIndexNow + 1) }
    s.eachSide fun sd s => s.raise (RS .AUD_CFG sd 0) F.AUD_CFG_STEP
  else s

/-- A step is applied at a tick: the time base moves by an amount, or with ABS to a time, its users follow, and TB_LAST_STEP reports whole
nanoseconds (R389, R390). -/
def State.applyStep (s : State) (n : Nat) (step : Bool × Int) : State :=
  let old := s.tbNow n
  let index := s.audIndexNow
  let t := (s.tbs.at n).t
  let d := if step.1 then step.2 - ((t / 2 ^ 32 : Nat) : Int) else step.2
  let t' := ((if step.1 then step.2 * 2 ^ 32 else (t : Int) + d * 2 ^ 32) % (tbMod : Int)).toNat
  let s := { s with tbs := s.tbs.upd n fun x => { x with t := t' } }
  let ns := twos 64 (d / 65536)
  let s := (s.wr (R1 .TB_LAST_STEP_LO n) (w32 (ns % 2 ^ 32))).wr (R1 .TB_LAST_STEP_HI n) (w32 (ns / 2 ^ 32))
  let s := s.setF (R1 .TB_STAT n) F.TB_STAT_SET 1
  let s := (s.raise (R1 .TB_EVT n) F.TB_EVT_STEP_DONE).audioStepped n index
  if 0 < d then s.cmpPassed n old else s

/-- What takes effect at a tick on time base `n`: its steps, then its new RATE (R387, R389, R390). -/
def State.settleTb (s : State) (n : Nat) : State :=
  let x := s.tbs.at n
  let s : State := if x.steps.isEmpty then s else
    x.steps.foldl (fun s p => s.applyStep n p) { s with tbs := s.tbs.upd n fun y => { y with steps := [] } }
  match x.next with
  | some q => { s with tbs := s.tbs.upd n fun y => { y with rate := q, next := none } }
  | none => s

/-- A step of time base `n` is taken for the next tick: by an amount, or with ABS to a time (R389). -/
def State.takeStep (s : State) (n : Nat) (abs : Bool) (d : Int) : State :=
  let p := (abs, if abs then ((s.tbs.at n).t / 2 ^ 32 : Nat) + d else d)
  { s with tbs := s.tbs.upd n fun x => { x with steps := x.steps ++ [p] } }

/-- A write of TB_STEP_CTL by the owner requests, refuses or holds a step (R389, R390). -/
def State.writeStep (s : State) (n : Nat) (ctl : W32) : State :=
  let abs := bitOf ctl 1
  let d := s.stepAmount n abs
  if bitOf ctl 0 then (s.setF (R1 .TB_STAT n) F.TB_STAT_REFUSED 0).takeStep n abs d
  else if s.flag (R1 .TB_STAT n) F.TB_STAT_REFUSED then s.raise (R1 .TB_EVT n) F.TB_EVT_HELD
  else if d.natAbs ≤ (s.rd (R1 .TB_STEP_LIMIT n)).toNat * 65536 then s.takeStep n abs d
  else (s.setF (R1 .TB_STAT n) F.TB_STAT_REFUSED 1).raise (R1 .TB_EVT n) F.TB_EVT_STEP_REFUSED

/-- TB_STEP. -/
def execTbStep (r : Req) (n : Fin 4) (ctl : W32) (s : State) : Out :=
  .next (s.access r .timing (s.holdsTb r n) (R1 .TB_STEP_CTL n).addr ctl fun s => s.writeStep n ctl)

/-! ## Compare units -/

/-- A write of TB_CMP_CTL: with EN = 1 the unit is armed with the target its registers hold, with EN = 0 it is disarmed (R399). -/
def State.writeCmpCtl (s : State) (n u : Nat) (ctl : W32) : State :=
  let s := s.wr (R2 .TB_CMP_CTL n u) (ctl &&& 0x1FFFFF#32)
  let x := s.cmps.at (cmpIx n u)
  if bitOf ctl 0 then
    let t := ((s.rd (R2 .TB_CMP_HI n u)).toNat * 2 ^ 32 + (s.rd (R2 .TB_CMP_LO n u)).toNat) * 65536 +
      s.fld (R2 .TB_CMP_FRAC n u) F.TB_CMP_FRAC_TFRAC
    let past := atOrAfter (s.tbNow n) t
    let s := { s with cmps := s.cmps.set (cmpIx n u) { x with armed := true, target := t, past := past, setAt := s.tick } }
    s.raiseIf past (R1 .TB_EVT n) F.TB_EVT_CMP_PAST
  else { s with cmps := s.cmps.set (cmpIx n u) { x with armed := false } }

/-- COMPARE_ARM. -/
def execCompareArm (r : Req) (n : Fin 4) (u : Fin 32) (ctl : W32) (s : State) : Out :=
  .next (s.access r .timing (s.holdsTb r n) (R2 .TB_CMP_CTL n u).addr ctl fun s => s.writeCmpCtl n u ctl)

/-- COMPARE_FIRE: an armed unit fires, in a tick after the one that armed it and once in a tick, when its time base is at or after its target; armed past
its target, without a pulse. -/
def execCompareFire (n : Fin 4) (u : Fin 32) (s : State) : Out :=
  let x := s.cmps.at (cmpIx n u)
  if x.armed && decide (x.setAt < s.tick) && atOrAfter (s.tbNow n) x.target then .next (s.cmpFire n u (!x.past) false) else .next s

/-- The longest time by which REF_PULSE_OFFSET delays an edge (R425, R430). -/
def maxPulseOffset : Int := 2 ^ 23 * 1024

/-- PULSE_END: the pulses of a unit that ended WIDTH µs after they began, and can no longer show on a ball that delays them, are over (R401, R425). -/
def execPulseEnd (n : Fin 4) (u : Fin 32) (s : State) : Out :=
  let x := s.cmps.at (cmpIx n u)
  .next { s with cmps := s.cmps.set (cmpIx n u) { x with pulses := x.pulses.filter fun p => decide (s.cadTime < p.fall + maxPulseOffset) } }

/-- The pulse that an armed unit will drive when its target comes (R401). -/
def State.pulseDue (s : State) (n u : Nat) : List Pulse :=
  let x := s.cmps.at (cmpIx n u)
  let ctl := s.rd (R2 .TB_CMP_CTL n u)
  let rise := s.cmpInstant n x.target
  if x.armed && !x.past && bitOf ctl 2 then
    [{ line := getF ctl F.TB_CMP_CTL_LINE, rise := rise, fall := rise + (max 1 (getF ctl F.TB_CMP_CTL_WIDTH) * 1000 * nsU : Nat) }] else []

/-- Pulse line PTRIG[l] of time base `n` is high at cadence time `t`: the OR of the pulses on it (R401). -/
def State.ptrig (s : State) (n l : Nat) (t : Int) : Bool :=
  (List.range 32).any fun u => ((s.cmps.at (cmpIx n u)).pulses ++ s.pulseDue n u).any fun p =>
    decide (p.line = l) && decide (p.rise ≤ t) && decide (t < p.fall)

/-! ## Timestamps -/

/-- The three words of a timestamp of time base `n` at the present tick (R392): VALID, CAL, fraction in 2^-6 ns. `adj` is the
port's latency correction in 2^-16 ns (R394). -/
def State.stampWords (s : State) (i n : Nat) (adj : Int) : List W32 :=
  let u := (((s.tbs.at n).t / 2 ^ 32 : Nat) : Int) + adj
  let q := (roundDiv u 1024 % ((2 ^ 48 * 1000000000 * 64 : Nat) : Int)).toNat
  let ns := q / 64
  let sec := ns / 1000000000
  let cal := b2n (s.ports.at i).cal
  [w32 (sec / 2 ^ 32 + n % 4 * 2 ^ 16 + 2 ^ 18 + cal * 2 ^ 19 + q % 64 * 2 ^ 20), w32 (sec % 2 ^ 32),
   w32 (ns % 1000000000)]

/-- A timestamp taken before the port is calibrated sets UNCAL (R391). -/
def State.noteUncal (s : State) (i : Nat) : State :=
  s.raiseIf (!(s.ports.at i).cal) (R1 .PTP_PORT_EVT i) F.PTP_PORT_EVT_UNCAL

/-- An entry of the transmit timestamp queue: 64 entries, the oldest overwritten when full (R402, R403). -/
def State.appendTxts (s : State) (i : Nat) (e : List W32) : State :=
  let p := s.ports.at i
  if p.queue.length < 64 then { s with ports := s.ports.set i { p with queue := p.queue ++ [e] } }
  else
    let s := { s with ports := s.ports.set i { p with queue := p.queue.drop 1 ++ [e] } }
    (s.addWrap (R1 .PTP_TXTS_SPOIL i) 1).raise (R1 .PTP_PORT_EVT i) F.PTP_PORT_EVT_TXTS_SPOIL

/-- The key of a requester's latch at a port. -/
def latchIx (r : Req) (i : Nat) : Nat := 16 * i + r.num

/-- A read of PTP_TXTS_DATA by the owner: the next word of the reader's latch, which takes the oldest entry when it is empty (R402). -/
def State.readTxts (s : State) (r : Req) (i : Nat) : W32 × State :=
  match s.txLatch.at (latchIx r i) with
  | w :: ws => (w, { s with txLatch := s.txLatch.set (latchIx r i) ws })
  | [] =>
    let p := s.ports.at i
    match p.queue with
    | [] => (0, s)
    | e :: q =>
      (e.headD 0, { s with ports := s.ports.set i { p with queue := q }, txLatch := s.txLatch.set (latchIx r i) (e.drop 1) })

/-- PTP_TXTS_READ: only the holder of the port reads it (R408, R470). -/
def execPtpTxtsRead (r : Req) (i : Fin 130) (be : Fin 16) (s : State) : Out :=
  .next (s.readAccess r be .timing (s.holdsPort r i) (RB .PTP_TXTS_DATA r i).addr fun s => s.readTxts r i)

/-- PORT_CALIBRATED: the latency measurement after link-up is complete, and timestamps carry CAL = 1 (R391). -/
def execPortCalibrated (i : Fin 130) (s : State) : Out :=
  if s.portUp i then .next { s with ports := s.ports.upd i fun p => { p with cal := true } } else .next s

end Sys2Proof.Machine
end

