-- ==== Sys2Proof/Machine/Reference.lean ====
section
/-!
DEFINITION. Reference selection and clean-up (chapter 13): candidates, their faults, the selector's states, re-alignment.
-/
namespace Sys2Proof.Machine

/-- The states of the selector, coded as REF_STAT.STATE (R417, R428). -/
def stFree : Nat := 0
/-- ACQUIRE. -/
def stAcquire : Nat := 1
/-- LOCKED. -/
def stLocked : Nat := 2
/-- HOLDOVER. -/
def stHoldover : Nat := 3
/-- SWITCHING. -/
def stSwitching : Nat := 4

/-- REF_STAT.STATE. -/
def State.refState (s : State) : Nat := s.fld (R0 .REF_STAT) F.REF_STAT_STATE

/-- REF_STAT.SEL. -/
def State.refSel (s : State) : Nat := s.fld (R0 .REF_STAT) F.REF_STAT_SEL

/-- The event period of a candidate as a fraction of 2^-16 ns (R410); none for a candidate its PARAM disables (R409). -/
def State.candPeriod (s : State) (c : Nat) : Option (Nat × Nat) :=
  let param := s.fld (R1 .REF_CAND_CFG c) F.REF_CAND_CFG_PARAM
  if c < 2 then
    let code := param % 32
    if 1 ≤ code ∧ code ≤ 13 then some ((rateFrac code).2 * 1000000000 * nsU, (rateFrac code).1) else none
  else if c < 4 then (if param % 2 = 1 then some (1000000000 * nsU, 1) else some (100 * nsU, 1))
  else if c < 8 then some (1001 * 1000000000 * nsU, 1)
  else
    let f := (s.inRx.at param).fmt
    if f.known then some (f.periodFrac.1 * nsU, f.periodFrac.2) else none

/-- A 10 MHz candidate. -/
def State.cand10M (s : State) (c : Nat) : Bool :=
  decide (2 ≤ c ∧ c < 4) && decide (s.fld (R1 .REF_CAND_CFG c) F.REF_CAND_CFG_PARAM % 2 = 0)

/-- `x` brought into −E/2 ≤ y < E/2 modulo E = a / b. -/
def wrapFrac (x : Int) (p : Nat × Nat) : Int := wrapHalf (x * p.2) p.1 / (p.2 : Int)

/-- The conditions a time base must meet to qualify and to stay (R413, R414): FOLLOW, SET and OK, and not REFUSED. -/
def State.tbOk (s : State) (n : Nat) : Bool :=
  s.flag (R1 .TB_CFG n) F.TB_CFG_FOLLOW && s.flag (R1 .TB_STAT n) F.TB_STAT_SET &&
  !s.flag (R1 .TB_STAT n) F.TB_STAT_REFUSED && bitOf (s.rd (R1 .REF_TB_OK n)) 0

/-- The latest SOF stamp of the input slot that a candidate names (R24, R409). -/
def State.candStamp (s : State) (c : Nat) : Option Int :=
  ((s.inRx.at (s.fld (R1 .REF_CAND_CFG c) F.REF_CAND_CFG_PARAM)).stamps.head?).map (·.2)

/-- The instant of a candidate's event: the edge, the time base's value in the tick, or the input slot's latest SOF stamp (R409, R412). -/
def State.candInstant (s : State) (c : Nat) (edge : Int) : Int :=
  if c < 4 then edge else if c < 8 then ((s.tbs.at (c - 4)).t / 2 ^ 32 : Nat) else (s.candStamp c).getD edge

/-- The phase e_c of an event (R412). -/
def State.candPhase (s : State) (c : Nat) (edge : Int) (p : Nat × Nat) : Int :=
  let off := sext 32 (s.rd (R1 .REF_CAND_OFFSET c)).toNat * nsU
  if 4 ≤ c ∧ c < 8 then wrapFrac (s.candInstant c edge - s.cadTime - s.ref.phi - off) p
  else wrapFrac (s.candInstant c edge - s.ref.phi - off) p

/-- The phase of a candidate now: that of its latest event, or of the present tick for a time base, which has one in every tick (R412). -/
def State.candNow (s : State) (c : Nat) : Int :=
  if 4 ≤ c ∧ c < 8 then ((s.candPeriod c).map fun p => s.candPhase c 0 p).getD 0 else (s.cands.at c).e

/-- The candidate is qualified. -/
def State.qualified (s : State) (c : Nat) : Bool := s.flag (R1 .REF_CAND_STAT c) F.REF_CAND_STAT_QUAL

/-- The priority of a candidate; 0 disables it. -/
def State.candPrio (s : State) (c : Nat) : Nat := s.fld (R1 .REF_CAND_CFG c) F.REF_CAND_CFG_PRIO

/-- Candidate `a` is better than candidate `b` (R415). -/
def State.better (s : State) (a b : Nat) : Bool :=
  decide (s.candPrio a < s.candPrio b) || (decide (s.candPrio a = s.candPrio b) && decide (a < b))

/-- The best qualified candidate (R415). -/
def State.bestCand (s : State) : Option Nat :=
  (List.range 10).foldl (fun o c =>
    if s.qualified c then
      match o with
      | none => some c
      | some b => if s.better c b then some c else some b
    else o) none

/-- The candidate to be followed under a mode: the best qualified in AUTO, FORCE_CAND while it is qualified in FORCED (R415, R417). -/
def State.toFollow (s : State) : Option Nat :=
  match s.fld (R0 .REF_CFG) F.REF_CFG_MODE with
  | 0 => s.bestCand
  | 1 =>
    let c := s.fld (R0 .REF_CFG) F.REF_CFG_FORCE_CAND
    if c < 10 ∧ s.qualified c then some c else none
  | _ => none

/-- The selector enters a state: REF_STAT, REF_HIST and STATE_CHANGE (R417). -/
def State.refEnter (s : State) (st : Nat) : State :=
  let s := s.setF (R0 .REF_STAT) F.REF_STAT_STATE st
  let s := s.raiseW (R0 .REF_HIST) (bit1 st)
  let s := s.raise (R0 .REF_EVT) F.REF_EVT_STATE_CHANGE
  { s with ref := { s.ref with enteredAt := s.tick } }

/-- REF_PHASE reports the phase of the followed candidate in whole nanoseconds (R421). -/
def State.reportPhase (s : State) (e : Int) : State :=
  let v := twos 64 (roundDiv e nsU)
  (s.wr (R0 .REF_PHASE_LO) (w32 (v % 2 ^ 32))).wr (R0 .REF_PHASE_HI) (w32 (v / 2 ^ 32))

/-- PREV takes the candidate that was followed until now, where one was. -/
def State.notePrev (s : State) : State := if s.refSel = 15 then s else s.setF (R0 .REF_STAT) F.REF_STAT_PREV s.refSel

/-- The selector starts to follow candidate `c`: b is set to its phase (R421). -/
def State.follow (s : State) (c : Nat) : State :=
  let s := s.notePrev
  let s := s.setF (R0 .REF_STAT) F.REF_STAT_SEL c
  let s := { s with ref := { s.ref with b := s.candNow c } }
  s.reportPhase (s.candNow c)

/-- A switch to candidate `c` begins (R417). -/
def State.switchTo (s : State) (c : Nat) (revert : Bool) : State :=
  let s := (s.follow c).raise (R0 .REF_EVT) F.REF_EVT_SWITCH
  (s.raiseIf revert (R0 .REF_EVT) F.REF_EVT_REVERT).refEnter stSwitching

/-- Holdover begins (R417, R423). -/
def State.enterHoldover (s : State) : State :=
  let s := s.notePrev
  let s := s.setF (R0 .REF_STAT) F.REF_STAT_SEL 15
  (s.raise (R0 .REF_EVT) F.REF_EVT_HOLDOVER).refEnter stHoldover

/-- TAKE_LEAD in lines (R104: 0 is treated as 1). -/
def State.takeLead (s : State) : Nat := max 1 (s.fld (R0 .XPT_TAKE_LEAD) ⟨0, 4⟩)

/-- A re-alignment begins (R422): Δ is the residual phase error; Φ and b move now, each counter at its next frame start that lies at
least TAKE_LEAD lines away. -/
def State.startAlign (s : State) (d : Int) : State :=
  let s := s.wr (R0 .REF_ALIGN_DELTA) (w32 (twos 32 (satS 32 (roundDiv d nsU))))
  let jumps := ((List.range 32).filter s.cadValid).map fun c =>
    let f := s.cadFmt c
    let x := s.cads.at c
    let first := s.cadTime + (f.linesTime s.takeLead : Nat)
    let k := if first ≤ s.cadStart c (x.count + 1) then (x.index + 1 : Nat)
      else
        let j := f.indexAt (first - x.phi)
        (if x.phi + f.startAt j = first then j else j + 1).toNat
    { ctr := c, index := k, delta := wrapHalfUp d f.period : AlignJump }
  let cads := jumps.foldl (fun m j => m.upd j.ctr fun x => { x with prev := x.phi, phi := x.phi + j.delta, first := j.index }) s.cads
  let cands := (List.range 10).foldl (fun m c =>
    match s.candPeriod c with
    | some p => m.upd c fun x => { x with e := wrapFrac (x.e - d) p }
    | none => m) s.cands
  let s : State := { s with cads := cads, cands := cands, ref := { s.ref with phi := s.ref.phi + d, b := s.ref.b - d, jumps := jumps } }
  let s := if s.refSel < 10 then s.reportPhase (s.candNow s.refSel) else s
  s.setF (R0 .REF_STAT) F.REF_STAT_ALIGN_PEND 1

/-- The selector leaves FREE or HOLDOVER for ACQUIRE; from FREE an automatic re-alignment begins when AUTO_ALIGN is 1 (R417, R422). -/
def State.acquire (s : State) (c : Nat) : State :=
  let fromFree := s.refState = stFree
  let s := (s.follow c).refEnter stAcquire
  if fromFree ∧ s.flag (R0 .REF_CFG) F.REF_CFG_AUTO_ALIGN ∧ s.ref.jumps = [] then s.startAlign (s.candNow c) else s

/-- What the selector does when the candidate to be followed may have changed: leave FREE or HOLDOVER, or in LOCKED follow a mode
that names another candidate, and none in FORCED when that one is not qualified (R415, R417). -/
def State.refReview (s : State) : State :=
  let st := s.refState
  match s.toFollow with
  | some c =>
    if st = stFree ∨ st = stHoldover then s.acquire c
    else if st = stLocked ∧ s.fld (R0 .REF_CFG) F.REF_CFG_MODE = 1 ∧ c ≠ s.refSel then s.switchTo c false
    else s
  | none => if st = stLocked ∧ s.fld (R0 .REF_CFG) F.REF_CFG_MODE = 1 then s.enterHoldover else s

/-- A candidate is disqualified; if it is followed, the selector switches or enters holdover (R414, R417). -/
def State.disqualify (s : State) (c : Nat) : State :=
  let s := s.setF (R1 .REF_CAND_STAT c) F.REF_CAND_STAT_QUAL 0
  let s := { s with cands := s.cands.upd c fun x => { x with okSince := none } }
  if s.followed = some c then
    match s.toFollow with
    | some c' => s.switchTo c' false
    | none => s.enterHoldover
  else s

/-- A fault of a candidate is recorded: its event bit and REF_CAND_STAT.FAULT. -/
def State.candFault (s : State) (c : Nat) (f : Fld) (code : Nat) : State :=
  (s.raise (R1 .REF_CAND_EVT c) f).setF (R1 .REF_CAND_STAT c) F.REF_CAND_STAT_FAULT code

/-- An edge that came too early: it is ignored and counted, it interrupts a qualification (R413), and a fourth within 1 s disqualifies the
candidate (R414). -/
def State.candGlitch (s : State) (c : Nat) : State :=
  let s := (s.addWrap (R1 .REF_CAND_GLITCH c) 1).candFault c F.REF_CAND_EVT_GLITCH 2
  let g := ((s.cands.at c).glitches.filter fun t => decide (s.tick < t + secTicks)) ++ [s.tick]
  let q := s.qualified c
  let s := { s with cands := s.cands.upd c fun x => { x with glitches := g, okSince := if q then x.okSince else none } }
  if 4 ≤ g.length then s.disqualify c else s

/-- An accepted event: its phase is stored, a phase step is handled, REF_PHASE follows the followed candidate (R412, R414, R421). A phase step
interrupts a qualification, and a time base that does not meet its conditions has none (R413). -/
def State.candAccept (s : State) (c : Nat) (edge : Int) (p : Nat × Nat) : State :=
  let x := s.cands.at c
  let e := s.candPhase c edge p
  let d := wrapFrac (e - x.e) p
  let th := max 1 (s.fld (R0 .REF_TIMING) F.REF_TIMING_STEP_TH) * 10 * nsU
  let step := x.last.isSome && s.flag (R1 .REF_CAND_STAT c) F.REF_CAND_STAT_PRESENT && decide (th < d.natAbs)
  let stopped := decide (4 ≤ c ∧ c < 8) && !s.tbOk (c - 4)
  let since := if stopped then none else if step && !s.qualified c then some s.tick else some (x.okSince.getD s.tick)
  let s := { s with cands := s.cands.set c { x with last := some (s.candInstant c edge), e := e, okSince := since } }
  let s := if stopped then s else s.setF (R1 .REF_CAND_STAT c) F.REF_CAND_STAT_PRESENT 1
  let s := s.raiseIf step (R1 .REF_CAND_EVT c) F.REF_CAND_EVT_PHASE_STEP
  if s.followed = some c then
    let s := if step then
        { s with ref := { s.ref with b := s.ref.b + d } }.raise (R0 .REF_EVT) F.REF_EVT_PHASE_STEP
      else s
    s.reportPhase e
  else s

/-- An edge of an input pin comes too early after the last one accepted: within half an event period, at 10 MHz within 40 ns (R414). -/
def State.candEarly (s : State) (c : Nat) (instant : Int) (p : Nat × Nat) : Bool :=
  match (s.cands.at c).last with
  | some l =>
    let d := instant - l
    decide (c < 4) && s.flag (R1 .REF_CAND_STAT c) F.REF_CAND_STAT_PRESENT &&
      (if s.cand10M c then decide (d * p.2 * 10 < 4 * (p.1 : Int)) else decide (d * p.2 * 2 < (p.1 : Int)))
  | none => false

/-- A candidate has an event: an edge, a tick, or an SOF stamp of the input slot that has not been measured yet. -/
def State.candHappens (s : State) (c : Nat) : Bool := decide (c < 8) || ((s.candStamp c).isSome && decide ((s.cands.at c).last ≠ s.candStamp c))

/-- REF_CAND_EVENT: an edge, an input slot's SOF stamp or a time base's tick is measured; `instant` is the cadence time of an edge, in
2^-16 ns (R409, R412, R414). -/
def execRefCandEvent (c : Fin 10) (instant : Int) (s : State) : Out :=
  match s.candPeriod c with
  | none => .next s
  | some p =>
    .next (if !s.candHappens c then s else if s.candEarly c instant p then s.candGlitch c else s.candAccept c instant p)

/-- Input slot `n` is declared lost (R64): by the merge of a Side that runs; with none running, when neither bank receives it. -/
def State.inputLost (s : State) (n : Nat) : Bool :=
  if s.live .A then (s.merges.at (2 * n)).lost else if s.live .B then (s.merges.at (2 * n + 1)).lost
  else !(s.inRx.at n).e.present && !(s.inRx.at n).w.present

/-- A candidate has stopped (R414): no edge within its limit, an input declared lost, or a time base that no longer meets its conditions. -/
def State.candStopped (s : State) (c : Nat) : Bool :=
  let param := s.fld (R1 .REF_CAND_CFG c) F.REF_CAND_CFG_PARAM
  if c < 4 then
    match (s.cands.at c).last, s.candPeriod c with
    | some l, some p =>
      if s.cand10M c then decide (l + 1000 * nsU ≤ s.cadTime) else decide (l * p.2 + 2 * p.1 ≤ s.cadTime * p.2)
    | _, _ => true
  else if c < 8 then !s.tbOk (c - 4)
  else s.inputLost param

/-- REF_CAND_STOP: STOP is set and the candidate is disqualified (R414). -/
def execRefCandStop (c : Fin 10) (s : State) : Out :=
  if s.flag (R1 .REF_CAND_STAT c) F.REF_CAND_STAT_PRESENT ∧ s.candStopped c then
    .next (((s.candFault c F.REF_CAND_EVT_STOP 1).setF (R1 .REF_CAND_STAT c) F.REF_CAND_STAT_PRESENT 0).disqualify c)
  else .next s

/-- REF_WINDOW_END: a 1 s window gave a frequency offset, in 0.01 ppm; outside ±TOL it is a rate fault (R413, R414). -/
def execRefWindowEnd (c : Fin 10) (freq : Int) (s : State) : Out :=
  let s := s.setF (R1 .REF_CAND_STAT c) F.REF_CAND_STAT_FREQ (twos 16 (satS 16 freq))
  let tol := max 1 (s.fld (R1 .REF_CAND_CFG c) F.REF_CAND_CFG_TOL) * 10
  if tol < freq.natAbs then .next ((s.candFault c F.REF_CAND_EVT_RATE 3).disqualify c) else .next s

/-- QUAL_TIME in ticks (R427). -/
def State.qualTicks (s : State) : Nat :=
  max 1 (min 600 (s.fld (R0 .REF_TIMING) F.REF_TIMING_QUAL_TIME)) * (secTicks / 10)

/-- REF_QUALIFY: a candidate that has met its conditions for QUAL_TIME qualifies, and the selector may follow it (R413, R417). -/
def execRefQualify (c : Fin 10) (s : State) : Out :=
  let x := s.cands.at c
  let long : Bool := match x.okSince with
    | some t => decide (t + s.qualTicks ≤ s.tick)
    | none => false
  if long ∧ s.candPrio c ≠ 0 ∧ !s.qualified c ∧ (c.val < 4 ∨ 8 ≤ c.val ∨ s.tbOk (c.val - 4) = true) then
    let s := s.setF (R1 .REF_CAND_STAT c) F.REF_CAND_STAT_QUAL 1
    let s := s.raise (R1 .REF_CAND_EVT c) F.REF_CAND_EVT_QUALIFIED
    .next { s with cands := s.cands.set c { x with qualAt := s.tick } }.refReview
  else .next s

/-- HOLDOFF in ticks (R427). -/
def State.holdoffTicks (s : State) : Nat :=
  max 1 (min 1000 (s.fld (R0 .REF_TIMING) F.REF_TIMING_HOLDOFF)) * secTicks

/-- REF_HOLDOFF_END: in AUTO with REVERT, LOCKED, a better candidate has been qualified for the hold-off: reversion begins (R416). -/
def execRefHoldoffEnd (c : Fin 10) (s : State) : Out :=
  if s.fld (R0 .REF_CFG) F.REF_CFG_MODE = 0 ∧ s.flag (R0 .REF_CFG) F.REF_CFG_REVERT ∧ s.refState = stLocked ∧
      s.bestCand = some c.val ∧ s.better c s.refSel ∧
      max (s.cands.at c).qualAt s.ref.lockedAt + s.holdoffTicks ≤ s.tick then
    .next (s.switchTo c true)
  else .next s

/-- REF_LOCK_MET: after 1 s in which the loop has held the lock condition, ACQUIRE or SWITCHING becomes LOCKED (R417). -/
def execRefLockMet (s : State) : Out :=
  if (s.refState = stAcquire ∨ s.refState = stSwitching) ∧ s.ref.enteredAt + secTicks ≤ s.tick then
    let s := s.refEnter stLocked
    .next { s with ref := { s.ref with lockedAt := s.tick } }.refReview
  else .next s

/-- HOLD_OSC is declared present: HOLD_MHZ 10 to 100 (R423). -/
def State.holdOscPresent (s : State) : Bool :=
  let m := s.fld (R0 .REF_CFG) F.REF_CFG_HOLD_MHZ
  decide (10 ≤ m) && decide (m ≤ 100)

/-- A write of REF_CFG by the reference owner moves the selector under its state table (R415, R417); where HOLD_MHZ declares no HOLD_OSC, the
local oscillator is AOCLK (R413, R423). -/
def State.writeRefCfg (s : State) (cfg : W32) : State :=
  let s := s.wr (R0 .REF_CFG) (cfg &&& 0x1FFFFFF#32)
  let s := if s.holdOscPresent then s else s.setF (R0 .REF_STAT) F.REF_STAT_OSC 1
  match getF cfg F.REF_CFG_MODE with
  | 3 =>
    if s.refState = stFree then s
    else (s.notePrev.setF (R0 .REF_STAT) F.REF_STAT_SEL 15).refEnter stFree
  | 2 => if s.refState = stFree ∨ s.refState = stHoldover then s else s.enterHoldover
  | _ => s.refReview

/-- REF_MODE_WRITE. -/
def execRefModeWrite (r : Req) (cfg : W32) (s : State) : Out :=
  .next (s.access r .timing (s.isRefOwner r) (R0 .REF_CFG).addr cfg fun s => s.writeRefCfg cfg)

/-- A write of REF_CMD by the reference owner: REALIGN is accepted only in LOCKED with none pending (R422, R430). -/
def State.writeRefCmd (s : State) (cmd : W32) : State :=
  if getF cmd F.REF_CMD_OP = 1 then
    if s.refState ≠ stLocked then s.setF (R0 .REF_CMD_RES) F.REF_CMD_RES_STATUS 3
    else if s.ref.jumps ≠ [] then s.setF (R0 .REF_CMD_RES) F.REF_CMD_RES_STATUS 4
    else (s.startAlign (s.candNow s.refSel)).setF (R0 .REF_CMD_RES) F.REF_CMD_RES_STATUS 1
  else s

/-- REALIGN. -/
def execRealign (r : Req) (cmd : W32) (s : State) : Out :=
  .next (s.access r .timing (s.isRefOwner r) (R0 .REF_CMD).addr cmd fun s => s.writeRefCmd cmd)

/-- HOLD_OSC_STOP: the synthesiser moves to AOCLK (R424). -/
def execHoldOscStop (s : State) : Out :=
  if s.flag (R0 .REF_STAT) F.REF_STAT_OSC then .next s
  else .next ((s.setF (R0 .REF_STAT) F.REF_STAT_OSC 1).raise (R0 .REF_EVT) F.REF_EVT_HOLD_OSC_LOST)

/-- HOLD_OSC_RETURN: HOLD_OSC, where HOLD_MHZ declares it, has run for 1 s, and the synthesiser returns to it (R424). -/
def execHoldOscReturn (s : State) : Out :=
  if s.holdOscPresent then .next (s.setF (R0 .REF_STAT) F.REF_STAT_OSC 0) else .next s

/-- REF_FREQ (R418, R428): 0 in FREE; the loop's offset otherwise, held from the entry to HOLDOVER. -/
def State.refFreq (s : State) : Int :=
  if s.refState = stFree then 0
  else if s.refState = stHoldover then Config.loopFreq s.ref.enteredAt
  else Config.loopFreq s.tick

/-- REF_PHASE while a time base is followed, whose phase is that of the present tick (R412, R421). -/
def State.phaseShown (s : State) : Option Nat :=
  (s.followed.filter fun c => decide (4 ≤ c ∧ c < 8)).map fun c => twos 64 (roundDiv (s.candNow c) nsU)

/-! ## Pulse outputs -/

/-- The time since the last whole multiple of `p` (both in 2^-16 ns) is less than `w`. -/
def inPulse (x : Int) (p w : Nat) : Bool := decide (x % (p : Int) < (w : Int))

/-- The level of ball PULSE[k] (R425); while AO_RESET_N is low it is low. -/
def State.pulseBall (s : State) (k : Nat) : Bool :=
  let c := s.rd (R1 .REF_PULSE_CFG k)
  let off := sext 24 (s.rd (R1 .REF_PULSE_OFFSET k)).toNat * 1024
  let w := max 1 (getF c F.REF_PULSE_CFG_WIDTH) * 1000 * nsU
  let tb := ((s.tbs.at (getF c F.REF_PULSE_CFG_TB)).t / 2 ^ 32 : Nat)
  let cad := s.cadOf (getF c F.REF_PULSE_CFG_CAD)
  let raw := match getF c F.REF_PULSE_CFG_SRC with
    | 1 =>
      let x := s.cads.at cad
      let t := s.cadTime - off
      (List.range 3).any fun j =>
        let e := s.cadStart cad (x.count + 1 - (j : Int))
        decide (e ≤ t) && decide (t < e + w)
    | 2 => inPulse (tb - off) (1000000000 * nsU) w
    | 3 =>
      let a := ((s.tbs.at s.audioTb).t / 2 ^ 32 : Nat)
      decide (((a : Int) - off) * 48000 % (1000000000 * nsU : Nat) * 2 < (1000000000 * nsU : Nat))
    | 4 => inPulse (tb - off) (100 * nsU) (50 * nsU)
    | 5 => s.ptrig (getF c F.REF_PULSE_CFG_TB) (getF c F.REF_PULSE_CFG_LINE) (s.cadTime - off)
    | _ => false
  !s.aoReset && (raw != bitOf c 13)

end Sys2Proof.Machine
end

