-- ==== Sys2Proof/Machine/Seam.lean ====
section
/-!
DEFINITION. The Seam's window and judgement, the planning of Benches, the timing of outputs, and the placing of blocks
(chapter 4; R80, R92, R582 of chapter 3).
-/
namespace Sys2Proof.Machine

/-! ## Sources and destinations -/

/-- The even head of a 4:4:4 pair owns the odd head number `h` (R358). -/
def State.oddHead (s : State) (h : Nat) : Bool := decide (h % 2 = 1) && (s.headPlan.at (h - 1)).pair

/-- R12, R13: the source number is allocated. -/
def State.srcAllocated (s : State) (x : Nat) : Bool :=
  if x < 1024 then decide ((s.inPlan.at x).slots = 1) || decide ((s.inPlan.at x).lowest = x)
  else if x < 1056 then !s.oddHead (x - 1024)
  else decide (x < 1120)

/-- R12, R13: the destination number is allocated. -/
def State.destAllocated (s : State) (d : Nat) : Bool :=
  if d < 1024 then decide ((s.outPlan.at d).slots = 1) || decide ((s.outPlan.at d).lowest = d)
  else if d < 1280 then (s.tileHead.at (d - 1024)).isSome
  else decide (d < 1344)

/-- The requester's right to route a destination (R74); no one routes a bypass output (R253). -/
def State.mayRoute (s : State) (r : Req) (d : Nat) : Bool :=
  if (s.outPlan.at d).bypass.isSome then false
  else if 1024 ≤ d ∧ d < 1280 then
    match s.tileHead.at (d - 1024) with
    | some h => s.holdsHead r h
    | none => s.allRights r
  else s.holdsDest r d

/-- R97: an input slot without a source position, an output slot without a transmit position. -/
def State.srcWithdrawn (s : State) (x : Nat) : Bool :=
  decide (x < 1024) && (s.inPlan.at x).srcE.isNone && (s.inPlan.at x).srcW.isNone

/-- R97: the destination is withdrawn. -/
def State.destWithdrawn (s : State) (d : Nat) : Bool :=
  decide (d < 1024) && (s.outPlan.at d).txE.isNone && (s.outPlan.at d).txW.isNone

/-- The format an input slot has last received, code 0 before its first frame (R66). -/
def State.inFmt (s : State) (n : Nat) : Fmt := (s.inRx.at n).fmt

/-- R75: the source matches output slot `d`. -/
def State.srcMatches (s : State) (x d : Nat) : Bool :=
  let o := s.outPlan.at d
  if x < 1024 then
    (s.inFmt x).code = 0 || (s.inFmt x = o.fmt && decide ((s.inPlan.at x).slots = o.slots))
  else if x < 1056 then
    let h := s.headPlan.at (x - 1024)
    h.present && h.fmt = o.fmt && decide ((if h.pair then 2 else 1) = o.slots)
  else true

/-! ## The window (R117 to R122) -/

/-- The rate class of a format in `g` slots (R118). -/
def rateClass (f : Fmt) (g : Nat) : Nat :=
  let r := rateFrac f.rate
  let bits := 101 * 32 * f.frameWords * r.1
  if g ≠ 1 then 3
  else if bits ≤ 100 * 1485000000 * r.2 then 0
  else if bits ≤ 100 * 2970000000 * r.2 then 1
  else if bits ≤ 100 * 5940000000 * r.2 then 2
  else 3

/-- The Bench units of a rate class (R118). -/
def classUnits (cls g : Nat) : Nat :=
  match cls with
  | 0 => 1 | 1 => 2 | 2 => 4 | _ => 8 * g

/-- The slot words that the stores of an output of `g` slots hold, pooled over its members (R117). -/
def storeWords (g : Nat) : Nat := 16384 * g

/-- The store rate of a class in Mb/s (R118). -/
def storeRate (cls g : Nat) : Nat :=
  match cls with
  | 0 => 1485 | 1 => 2970 | 2 => 5940 | _ => 12000 * g

/-- The store duration T_s of an output in word periods, rounded down: its bits divided by its store rate (R119). -/
def storeTime (cls g : Nat) : Nat := 32 * storeWords g * 375 / max 1 (storeRate cls g)

/-- The window W of an output in word periods: T_s less 2 µs, 750 word periods (R119). -/
def windowOf (cls g : Nat) : Nat := storeTime cls g - 750

/-- Centre and twice the half-width of the judgement window (R122); a CENTRE that leaves no width is treated as 0. -/
def windowAt (cls g centre : Nat) : Nat × Int :=
  let ts := storeTime cls g
  let c := if centre = 0 then ts / 2 else centre
  let h2 : Int := windowOf cls g - ((2 * c : Nat) - (ts : Int)).natAbs
  if h2 ≤ 0 then (ts / 2, (windowOf cls g : Int) - ((2 * (ts / 2) : Nat) - (ts : Int)).natAbs) else (c, h2)

/-- A twin register's value in the routing snapshot (R32). -/
def State.twin (s : State) (n : RegName) (i : Nat) : W32 := Sparse.get RegKey.reset s.twins (R1 n i)

/-- The window of output slot `d`. -/
def State.window (s : State) (d : Nat) : Nat × Int :=
  let o := s.outPlan.at d
  windowAt (rateClass o.fmt o.slots) o.slots (getF (s.twin .SEAM_CFG d) F.SEAM_CFG_CENTRE)

/-- A lead of `x` sixteenths of a tick lies in the window (R122); a word period is 32/3 of them. -/
def State.inWindow (s : State) (d : Nat) (x : Int) : Bool :=
  let w := s.window d
  decide ((2 * w.1 - w.2) * 32 ≤ 6 * x) && decide (6 * x ≤ (2 * w.1 + w.2) * 32)

/-- Word periods in sixteenths of a tick, rounded down. -/
def wpSixteenths (x : Int) : Int := x * 32 / 3

/-- Sixteenths of a tick in word periods, rounded to the nearest, halves towards +∞ (R134). -/
def sixteenthsWp (x : Int) : Int := roundDiv (x * 3) 32

/-! ## The timing of an output -/

/-- The cadence counter of a format; counter 0 where the structure gives it none (R30, R111). -/
def State.cadOfFmt (s : State) (f : Fmt) : Nat := (s.cadFor f).getD 0

/-- The counter of output slot `d`. -/
def State.outCad (s : State) (d : Nat) : Nat := s.cadOfFmt (s.outPlan.at d).fmt

/-- The effective offset X of an output in sixteenths of a tick (R134). -/
def OutTiming.x (o : OutTiming) : Int := o.retimed.getD (wpSixteenths o.offset)

/-- The start of frame `f` of output slot `d` under timing `o` (R80, R582). -/
def State.outStart (s : State) (d : Nat) (o : OutTiming) (f : Int) : Int :=
  s.cadStart (s.outCad d) (f + o.shift) + o.x * sixteenth

/-- The switch point of frame `f` (R79, R81). -/
def State.switchPoint (s : State) (d : Nat) (o : OutTiming) (f : Int) : Int :=
  s.outStart d o f + (s.outPlan.at d).fmt.switchAt

/-- The greatest frame number of a counter whose start lies at or before `t`. -/
def State.cadFrameAt (s : State) (c : Nat) (t : Int) : Int :=
  let x := s.cads.at c
  let new := (s.cadFmt c).indexAt (t - x.phi)
  (if x.first ≤ new then new else min ((s.cadFmt c).indexAt (t - x.prev)) ((x.first : Int) - 1)) - x.index + x.count

/-- The greatest output frame that starts at or before `t`. -/
def State.outFrameAt (s : State) (d : Nat) (o : OutTiming) (t : Int) : Int :=
  s.cadFrameAt (s.outCad d) (t - o.x * sixteenth) - o.shift

/-- The smallest counter frame whose start is at or after `t`. -/
def State.cadFrameFrom (s : State) (c : Nat) (t : Int) : Int :=
  let f := s.cadFrameAt c t
  if s.cadStart c f = t then f else f + 1

/-- The smallest output frame that starts at or after `t`. -/
def State.outFrameFrom (s : State) (d : Nat) (o : OutTiming) (t : Int) : Int :=
  s.cadFrameFrom (s.outCad d) (t - o.x * sixteenth) - o.shift

/-- The output's raster jumps at instant `j` to the timing `o'` in word of its offsets: the frame in progress ends there, and the first
frame at the new timing takes the next number (R92, R582). -/
def State.renumber (s : State) (d : Nat) (o o' : OutTiming) (j : Int) : OutTiming :=
  let ended := s.outFrameAt d o (j - 1)
  let g := s.cadFrameFrom (s.outCad d) (j - o'.x * sixteenth)
  { o' with shift := g - (ended + 1) }

/-! ## Lead and judgement (R121 to R123) -/

/-- The lead of an SOF at instant `t` for output slot `d` under timing `o`, in sixteenths of a tick, and the output frame it is
paired with (R121, R128). -/
def State.leadOf (s : State) (d : Nat) (o : OutTiming) (t : Int) : Int × Int :=
  let f := s.outFrameAt d o t
  let a := s.outStart d o f - t
  let b := s.outStart d o (f + 1) - t
  if (s.outPlan.at d).fmt.withinHalf (-a) then (a / sixteenth, f) else (b / sixteenth, f + 1)

/-- The centre of output `d`'s window in sixteenths of a tick. -/
def State.centre16 (s : State) (d : Nat) : Int := wpSixteenths (s.window d).1

/-- ALY_HEAD_OFFSET of head `h` as a time, limited to one frame period either way (R359). -/
def State.headOff (s : State) (h : Nat) : Int :=
  let lim : Int := (s.headPlan.at h).fmt.wordPeriods
  wpSixteenths (max (-lim) (min lim (sext 26 (s.twin .ALY_HEAD_OFFSET h).toNat))) * sixteenth

/-- The frame k of head `h` in progress (R359). -/
def State.headFrame (s : State) (h : Nat) : Int :=
  s.cadFrameAt (s.cadOfFmt (s.headPlan.at h).fmt) (s.cadTime - s.headOff h)

/-- The start O_h(k) of the frame of head `h` in progress, its S under R123 (R359). -/
def State.headStart (s : State) (h : Nat) : Int :=
  s.cadStart (s.cadOfFmt (s.headPlan.at h).fmt) (s.headFrame h) + s.headOff h

/-- A Bench's PHASE as a time, to 1/16 tick. -/
def Bench.off (b : Bench) : Int := b.phase / 3 * sixteenth

/-- The frame start O(k) of a Bench (R137). -/
def State.benchStart (s : State) (b : Bench) (k : Int) : Int := s.cadStart b.cad k + b.off

/-- PHASE = X − C of the Bench a take to output slot `d` needs (R138), in 1/48 tick, in which a word period is 32 and 1/16 tick is 3. -/
def State.benchPhase (s : State) (d : Nat) (o : OutTiming) : Int :=
  (match o.retimed with
    | some x => 3 * x
    | none => 32 * o.offset) - 32 * (s.window d).1

/-- The instant S a source is judged by, when it has one: the latest SOF stamp of an input, the frame start of a head, the frame start
of a Bench's copy (R121, R123). A generator has none and is always timed. -/
def State.srcStart (s : State) (x : Nat) (via : Option Nat) : Option Int :=
  match via with
  | some b =>
    let q := s.benches.at b
    some (s.benchStart q (s.cadFrameAt q.cad (s.cadTime - q.off)))
  | none =>
    if x < 1024 then (if (s.inFmt x).code = 0 then none else (s.inRx.at x).stamps.head?.map (·.2))
    else if x < 1056 then some (s.headStart (x - 1024))
    else none

/-- The lead of a source, when it has one. -/
def State.srcLead (s : State) (x : Nat) (via : Option Nat) (d : Nat) (o : OutTiming) : Option Int :=
  if 1056 ≤ x ∧ via = none then some (s.centre16 d) else (s.srcStart x via).map fun t => (s.leadOf d o t).1

/-- The source is timed for output slot `d` under timing `o` (R122, R123). -/
def State.timed (s : State) (x : Nat) (via : Option Nat) (d : Nat) (o : OutTiming) : Bool :=
  match s.srcLead x via d o with
  | some l => s.inWindow d l
  | none => true

/-! ## Bench budget (R135, R138 to R141, R435) -/

/-- The units a Bench on input `n` at counter `c` costs (R141). -/
def State.benchUnits (s : State) (n c : Nat) : Nat :=
  let g := (s.inPlan.at n).slots
  classUnits (rateClass (s.cadFmt c) g) g

/-- The pages it takes from the Bench pool (R435): three frames of 1.02 V + M words. -/
def State.benchPages (s : State) (c : Nat) : Nat :=
  let f := s.cadFmt c
  let bytes100 := 3 * 4 * (102 * f.frameWords + 100 * f.marks)
  (bytes100 + 100 * 2097152 - 1) / (100 * 2097152)

/-- The units in use (R153). -/
def State.unitsUsed (s : State) : Nat := s.benches.foldl (fun n p => n + p.2.units) 0

/-- The pages in use. -/
def State.pagesUsed (s : State) : Nat := s.benches.foldl (fun n p => n + p.2.pages) 0

/-- The contexts in use. -/
def State.contextsUsed (s : State) : Nat := (s.benches.filter fun p => p.2.st ≠ .free).length

/-- The users of a Bench: destinations whose current route or pending take goes through it (R139). -/
def State.benchDests (s : State) (b : Nat) : List Nat :=
  ((s.routes.filter fun p => p.2.bench = some b).map (·.1) ++ (s.takes.filter fun t => t.bench = some b).map (·.dest)).eraseDups

/-- The number of users of a Bench. -/
def State.benchUsers (s : State) (b : Nat) : Nat := (s.benchDests b).length

/-- The place of buffer `i` of Bench `b` in a Side. -/
def benchIx (b : Nat) (sd : Side) (i : Nat) : Nat := 8 * b + 4 * sd.idx + i

/-- The frames of a Bench are discarded in both Sides (R142). -/
def State.benchEmpty (s : State) (b : Nat) : State :=
  { s with
    benchIn := s.benchIn.filter fun p => p.1 / 2 ≠ b
    benchMem := s.benchMem.filter fun p => p.1 / 8 ≠ b }

/-- A Bench is allocated with a target: it is PRIMING, holds no frame, and its units and pages are reserved (R138, R142). -/
def State.benchAlloc (s : State) (b : Nat) (auto : Bool) (n c : Nat) (ph : Int) : State :=
  { s.benchEmpty b with benches := s.benches.set b { st := .priming, auto := auto, input := n, cad := c, phase := ph, units := s.benchUnits n c, pages := s.benchPages c, k := (s.cadFrameFrom c (s.cadTime - ph / 3 * sixteenth)).toNat } }

/-- A Bench becomes FREE when it has no user left and no pin (R139). -/
def State.benchRelease (s : State) (b : Nat) : State :=
  let q := s.benches.at b
  if q.st ≠ .free ∧ s.benchUsers b = 0 ∧ (q.auto ∨ getF (s.twin .FSY_CFG b) F.FSY_CFG_PIN = 0) then
    { s.benchEmpty b with benches := s.benches.set b {} } else s

/-- Release the Bench a route or take gave up. -/
def State.benchReleaseOf (s : State) (o : Option Nat) : State :=
  match o with
  | some b => s.benchRelease b
  | none => s

/-- The Bench a take uses: one that already has the target, or the highest-numbered FREE one if the budget allows (R138). DESIGN CHOICE: of several
that have the target, the lowest-numbered, which the spec leaves open (log entry 114). -/
def State.benchFor (s : State) (n c : Nat) (ph : Int) : Option Nat × State :=
  match s.benches.find? fun p => p.2.st ≠ .free ∧ p.2.input = n ∧ p.2.cad = c ∧ p.2.phase = ph with
  | some p => (some p.1, s)
  | none =>
    match ((List.range 1024).reverse).find? fun b => (s.benches.at b).st = .free with
    | none => (none, s)
    | some b =>
      if s.unitsUsed + s.benchUnits n c ≤ s.benchPlan.units ∧ s.contextsUsed + 1 ≤ s.benchPlan.contexts ∧
          s.pagesUsed + s.benchPages c ≤ s.benchPlan.pages then (some b, s.benchAlloc b true n c ph)
      else (none, s)

/-! ## The plan of a take (R133, R135, R138) -/

/-- What the checks of timing decide for a take: refused with UNTIMED_REFUSED, or accepted through a Bench or not, with a change of
the output's timing, and whether BENCH_NONE is set. -/
structure TakePlan where
  refused : Bool := false
  bench   : Option Nat := none
  timing  : TakeTiming := .keep
  noBench : Bool := false
deriving DecidableEq, Repr

/-- The UNTIMED policy of an output (R109: 3 is treated as 0). -/
def State.untimedPolicy (s : State) (d : Nat) : Nat :=
  let p := getF (s.twin .XPT_OUT_CFG d) F.XPT_OUT_CFG_UNTIMED
  if p = 3 then 0 else p

/-- A take judged on its own source (R133, R138). -/
def State.planDirect (s : State) (x d : Nat) (o : OutTiming) (noBench : Bool) : TakePlan :=
  if s.timed x none d o then { noBench := noBench }
  else if s.untimedPolicy d = 0 then { refused := true }
  else { timing := .retime, noBench := noBench || (decide (1024 ≤ x) && s.untimedPolicy d = 1) }

/-- A take that uses no Bench, judged first against OUT_OFFSET where the output is re-timed (R135, R138). -/
def State.planBack (s : State) (x d : Nat) (o : OutTiming) (noBench : Bool) : TakePlan :=
  if o.retimed.isSome ∧ s.timed x none d { o with retimed := none } then { timing := .back, noBench := noBench }
  else s.planDirect x d o noBench

/-- The plan of a take of source `x` to destination `d`; a Bench it allocates is reserved in the state. -/
def State.planTake (s : State) (x d : Nat) : TakePlan × State :=
  if 1024 ≤ d then ({}, s)
  else
    let o := s.outs.at d
    let sync := getF (s.twin .SEAM_CFG d) F.SEAM_CFG_SYNC = 1
    let hasFrame := decide (x < 1024) && decide ((s.inFmt x).code ≠ 0)
    let back := { o with retimed := none : OutTiming }
    if hasFrame ∧ sync then
      let p := s.benchFor x (s.outCad d) (s.benchPhase d o)
      match p.1 with
      | some b => ({ bench := some b }, p.2)
      | none => (s.planBack x d o true, s)
    else if o.retimed.isSome ∧ s.timed x none d back then ({ timing := .back }, s)
    else if 1024 ≤ x ∧ sync then
      let q := s.planDirect x d o false
      ({ q with noBench := q.timing = .retime }, s)
    else if s.timed x none d o then ({}, s)
    else if hasFrame ∧ s.untimedPolicy d = 1 then
      let p := s.benchFor x (s.outCad d) (s.benchPhase d o)
      match p.1 with
      | some b => ({ bench := some b }, p.2)
      | none => (s.planDirect x d o true, s)
    else (s.planDirect x d o false, s)

/-! ## Placing words (R124 to R131) -/

/-- The raster time of a block: the line's start, and for a block of an active line of `v` VIDEO words its share of the line (R125). -/
def rasterTime (f : Fmt) (line idx v : Nat) : Int :=
  let done := if v = 0 then 0 else min (64 * idx) v
  (((line - 1) * max 1 v + done) * f.periodFrac.1 * nsU / (f.periodFrac.2 * (rasterLines f.raster).1 * max 1 v) : Nat)

/-- A block goes from the crosspoint towards a destination (R73). -/
def State.feed (s : State) (sd : Side) (d : Nat) (x : Fed) : State :=
  { s with feeds := s.feeds.upd (2 * d + sd.idx) fun l => l ++ [x] }

/-- The blocks of a frame that starts at `t`, each complete at its raster time, as a head (R123) or a Bench (R137) gives them. -/
def cutFrame (f : Fmt) (t : Int) : Nat → CutSt → List RxWord → List Block
  | 0, _, _ => []
  | fuel + 1, c, ws =>
    match cutBlock c t ws with
    | some (k, rest, c') =>
      { k with stamp := ((t + rasterTime f k.line k.idx k.video) / tickU).toNat, sofAt := t } :: cutFrame f t fuel c' rest
    | none => []

/-- The blocks of a whole frame's words. -/
def frameBlocks (f : Fmt) (t : Int) (ws : List W32) : List Block := cutFrame f t ws.length {} (ws.map fun w => { w := w })

/-- The source of a route: the Bench whose copy it carries, or its source number (R129, R137). -/
def sameSource (x y : Nat × Option Nat) : Bool :=
  if x.2.isSome || y.2.isSome then decide (x.2 = y.2) else decide (x.1 = y.1)

/-- The frame a pending take executes in (R582). -/
def Pending.frame (t : Pending) : Option Nat := t.runs.orElse fun _ => t.stamp

/-- The source that owns a position of output frame `f`, line `l` (R129): that of the last take at or before it. -/
def State.ownerAt (s : State) (d : Nat) (f : Int) (line : Nat) : Nat × Option Nat :=
  let r := s.routes.at d
  let sw := (rasterLines (s.outPlan.at d).fmt.raster).2
  let from_ (k : Int) : Bool := decide (k < f) || (decide (k = f) && decide (sw ≤ line))
  let base := if from_ r.taken then (r.src, r.bench) else (r.prev, r.prevBench)
  (s.takes.filter fun t => t.dest = d).foldl (fun (a : (Nat × Option Nat) × Int) t =>
    match t.frame with
    | some k => if from_ k ∧ a.2 ≤ k then ((t.src, t.bench), (k : Int)) else a
    | none => a) (base, -1) |>.1

/-- A store with a block written at its position (R125); what the position held gives way. -/
def placeAt (l : List Placed) (p : Placed) : List Placed :=
  (l.filter fun q => ¬(q.frame = p.frame ∧ q.line = p.line ∧ q.mark = p.mark ∧ q.idx = p.idx)) ++ [p]

/-- SEAM_BLOCK_PLACE in one Side: a block on its way to output slot `d`, bound for the frame with which its source frame is paired (R128), is
written, or discarded because the position belongs to another source (R129), or because it is late or early (R125). -/
def State.placeBlock (s : State) (sd : Side) (d : Nat) (x : Fed) : State :=
  let o := s.outs.at d
  let pl := s.outPlan.at d
  let k := x.blk
  let f := (s.leadOf d o k.sofAt).2
  let due := s.outStart d o f + rasterTime pl.fmt k.line k.idx k.video
  let ts := wpSixteenths (storeTime (rateClass pl.fmt pl.slots) pl.slots) * sixteenth
  let at_ : Int := (k.stamp * tickU : Nat)
  if !sameSource (s.ownerAt d f k.line) (x.src, x.bench) then s
  else if due - 1000 * nsU < at_ then
    (s.addWrap (RS .SEAM_LATE sd d) 1).raise (RS .SEAM_EVT sd d) F.SEAM_EVT_LATE
  else if at_ < due - (ts - 1000 * nsU) then
    (s.addWrap (RS .SEAM_EARLY sd d) 1).raise (RS .SEAM_EVT sd d) F.SEAM_EVT_EARLY
  else
    let p : Placed := { frame := f.toNat, line := k.line, mark := k.mark, idx := k.idx, words := k.words.filter fun w => !isMark w || isType 4 w, time := at_, bench := x.bench }
    { s with stores := s.stores.upd (2 * d + sd.idx) fun l => placeAt l p }

/-- SEAM_BLOCK_PLACE: in every Side whose crosspoint works, the block that left the crosspoint for the output slot first reaches its Seam write port. -/
def execSeamBlockPlace (d : Fin 1024) (s : State) : Out :=
  .next (s.eachRouting fun sd s =>
    match s.feeds.at (2 * d + sd.idx) with
    | [] => s
    | x :: rest => { s with feeds := s.feeds.set (2 * d + sd.idx) rest }.placeBlock sd d x)

/-! ## The Bench's frames (R137, R142 to R147) -/

/-- 1 ms in 2^-16 ns. -/
def msU : Nat := 1000000 * nsU

/-- A sticky bit of a Bench is set in every Side where the Benches work. -/
def State.benchEvt (s : State) (b : Nat) (f : Fld) : State := s.eachRouting fun sd s => s.raise (RS .FSY_EVT sd b) f

/-- A frame is repeated: FSY_REPEAT and its event, in every Side where the Benches work. -/
def State.benchRepeat (s : State) (b : Nat) : State :=
  s.eachRouting fun sd s => (s.addWrap (RS .FSY_REPEAT sd b) 1).raise (RS .FSY_EVT sd b) F.FSY_EVT_REPEAT

/-- Blocks of the frame that a Bench is showing go to its users, each at its raster time after the frame's start O(k) (R123, R137). -/
def State.benchGive (s : State) (sd : Side) (b : Nat) (ks : List Block) : State :=
  let q := s.benches.at b
  let f := s.cadFmt q.cad
  let dests := s.benchDests b
  ks.foldl (fun (s : State) k =>
    let k := { k with stamp := ((q.startAt + rasterTime f k.line k.idx k.video) / tickU).toNat, sofAt := q.startAt }
    dests.foldl (fun (s : State) d => s.feed sd d { src := q.input, bench := some b, blk := k }) s) s

/-- A block of a Bench's input, in the frame that is being written, goes into its buffer if it arrives before the Bench reads its position, and
to the users of the frame being shown (R143); the EOF makes the frame whole. -/
def State.benchStore (s : State) (sd : Side) (b : Nat) (k : Block) : State :=
  let q := s.benches.at b
  match q.wr with
  | none => s
  | some i =>
    let showing := decide (q.shown = some i)
    let read := ((q.startAt + rasterTime (s.cadFmt q.cad) k.line k.idx k.video) / tickU).toNat
    let s := if k.eof then
        { s with benches := s.benches.upd b fun q => { q with bufs := q.bufs.modify i fun x => { x with whole := true } } }
      else s
    if showing ∧ read < k.stamp then s
    else
      let s := { s with benchMem := s.benchMem.upd (benchIx b sd i) fun l => l ++ [k] }
      if showing then s.benchGive sd b [k] else s

/-- A block of a Bench's input reaches it: an SOF, and what follows it, waits until its frame has been given a buffer (R143). -/
def State.benchTake (s : State) (sd : Side) (b : Nat) (k : Block) : State :=
  let ix := 2 * b + sd.idx
  if k.sof ∨ s.benchIn.at ix ≠ [] then { s with benchIn := s.benchIn.upd ix fun l => l ++ [k] } else s.benchStore sd b k

/-- The oldest frame that has not been shown or chosen and whose SOF stamp lies at or before `q` (R143). -/
def oldestReady (bufs : List BenchBuf) (q : Int) : Option Nat :=
  (List.range bufs.length).foldl (fun o i =>
    let x := bufs.getD i {}
    match x.stamp with
    | some t =>
      if x.shown ∨ q < t then o
      else
        match o with
        | none => some i
        | some j => if t < ((bufs.getD j {}).stamp).getD 0 then some i else some j
    | none => o) none

/-- A frame start of a Bench's copy is a discontinuity, where the frame is not the successor of the one before it (R146). -/
def Bench.breakAt (q : Bench) (c : Option Nat) (t : Int) : Bench :=
  let next := match c with
    | some i => decide (q.lastSeq.map (· + 1) = some (q.bufs.getD i {}).seq)
    | none => q.shown.isNone
  if next then q else { q with breaks := (t :: q.breaks).take 4 }

/-- BENCH_DECISION: at Q(k) = O(k) − 1 ms the Bench chooses the frame to show (R143); in HOLDING it chooses none (R144); the first frame
chosen ends PRIMING (R142). -/
def execBenchDecision (b : Fin 1024) (s : State) : Out :=
  let q := s.benches.at b
  let o := s.benchStart q q.k
  if q.st = .free ∨ q.decided.isSome ∨ s.cadTime < o - msU then .next s
  else
    let c := if q.st = .holding then none else oldestReady q.bufs (o - msU)
    let st := if q.st = .priming ∧ c.isSome then BenchState.running else q.st
    .next { s with benches := s.benches.set b { q.breakAt c o with decided := some c, st := st } }

/-- The buffer the next input frame goes into: not the one shown nor the one chosen; an empty one, else one already shown, else the
oldest never shown (R143). -/
def bufferFor (q : Bench) : Option Nat :=
  let free := (List.range q.bufs.length).filter fun i => q.shown ≠ some i ∧ q.decided ≠ some (some i)
  match free.find? fun i => (q.bufs.getD i {}).stamp.isNone with
  | some i => some i
  | none =>
    match free.find? fun i => (q.bufs.getD i {}).shown with
    | some i => some i
    | none => free.foldl (fun o i =>
        match o with
        | none => some i
        | some j => if ((q.bufs.getD i {}).stamp).getD 0 < ((q.bufs.getD j {}).stamp).getD 0 then some i else some j) none

/-- The blocks of the frame that waits for a buffer: the SOF and what follows it up to the next SOF. -/
def frameAhead : List Block → List Block
  | [] => []
  | k :: t => k :: t.takeWhile fun x => !x.sof

/-- In every Side where the Benches work, the frame at the head of what a Bench has received goes into the buffer being written, or is lost where there is
none. -/
def State.benchDrain (s : State) (b : Nat) : State :=
  s.eachRouting fun sd s =>
    let ix := 2 * b + sd.idx
    let ks := frameAhead (s.benchIn.at ix)
    ks.foldl (fun (s : State) k => s.benchStore sd b k) { s with benchIn := s.benchIn.upd ix fun l => l.drop ks.length }

/-- The SOF of a Bench's input that has no buffer yet. -/
def State.benchSof (s : State) (b : Nat) : Option Block :=
  ((s.benchIn.at (2 * b)).head?).orElse fun _ => (s.benchIn.at (2 * b + 1)).head?

/-- BENCH_FRAME_WRITE: at an SOF of the Bench's input its frame goes into a buffer; a frame never shown that it overwrites is dropped;
a frame in another format is not written and the Bench holds (R142, R143, R145). -/
def execBenchFrameWrite (b : Fin 1024) (s : State) : Out :=
  let q := s.benches.at b
  match s.benchSof b with
  | none => .next s
  | some k =>
    let q := { q with seen := q.seen + 1 }
    if q.st = .free then .next s
    else if s.inFmt q.input ≠ s.cadFmt q.cad then
      let st := if q.st = .running then BenchState.holding else q.st
      .next (({ s with benches := s.benches.set b { q with st := st, wr := none, lastSeq := none } }.benchEvt b F.FSY_EVT_FMT).benchDrain b)
    else
      match bufferFor q with
      | none => .next ({ s with benches := s.benches.set b { q with wr := none } }.benchDrain b)
      | some i =>
        let x := q.bufs.getD i {}
        let dropped := x.stamp.isSome && !x.shown
        let st := if q.st = .holding then BenchState.running else q.st
        let q' := { q with st := st, wr := some i, bufs := q.bufs.set i { stamp := some k.sofAt, seq := q.seen }, before := if q.before = some i then none else q.before }
        let s := { s with
          benches := s.benches.set b q'
          benchMem := (s.benchMem.set (benchIx b .A i) []).set (benchIx b .B i) [] }
        let s := s.benchDrain b
        .next (if dropped then s.eachRouting fun sd s =>
          (s.addWrap (RS .FSY_DROP sd b) 1).raise (RS .FSY_EVT sd b) F.FSY_EVT_DROP else s)

/-- The same position of a frame: two blocks with equal line, MARK and index. -/
def Block.sameSpot (a b : Block) : Bool := decide (a.line = b.line) && decide (a.mark = b.mark) && decide (a.idx = b.idx)

/-- The positions that a cut frame in buffer `i` did not receive are taken from the frame in buffer `j` (R144); those of the frame being shown go
to its users. -/
def State.benchPatch (s : State) (b i j : Nat) : State :=
  s.eachRouting fun sd s =>
    let got := s.benchMem.at (benchIx b sd i)
    let more := (s.benchMem.at (benchIx b sd j)).filter fun k => !got.any fun g => g.sameSpot k
    let s := { s with benchMem := s.benchMem.set (benchIx b sd i) (got ++ more) }
    if (s.benches.at b).shown = some i then s.benchGive sd b more else s

/-- The input of a Bench is lost (R144): it holds, and a frame that the loss cuts short while chosen or shown is completed from the frame
shown before it. -/
def State.benchHold (s : State) (b : Nat) : State :=
  let q := s.benches.at b
  let cut (o : Option Nat) : Option Nat := o.filter fun i => !(q.bufs.getD i {}).whole
  if q.st = .running then
    let s := { s with benches := s.benches.set b { q with st := .holding, wr := none, lastSeq := none } }.benchEvt b F.FSY_EVT_HOLD
    let patch (s : State) (i : Nat) (j : Option Nat) : State :=
      match j with
      | some j => s.benchPatch b i j
      | none => s
    let s := match cut q.shown with
      | some i => (patch s i q.before).benchEvt b F.FSY_EVT_PARTIAL
      | none => s
    match cut (q.decided.getD none) with
    | some i => (patch s i q.shown).benchEvt b F.FSY_EVT_PARTIAL
    | none => s
  else s

/-- The frame a Bench repeats: the one shown last, and while its input is lost the latest that it received whole (R143, R144). -/
def Bench.repeats (q : Bench) : Option Nat :=
  let whole := (List.range q.bufs.length).foldl (fun o i =>
    let x := q.bufs.getD i {}
    if !x.whole then o
    else
      match o with
      | none => some i
      | some j => if ((q.bufs.getD j {}).stamp).getD 0 < (x.stamp).getD 0 then some i else some j) none
  if q.st = .holding then whole.orElse fun _ => q.shown else q.shown

/-- An ancillary packet in a repeated copy (R147): captions, DID 0x61, are omitted, and a time code packet has its process bit set. -/
def repeatPacket (p : List Nat) : Option (List Nat) := if p.headD 0 % 256 = 0x61 then none else some (Config.atcRepeated p)

/-- The ancillary words of one MARK of a repeated copy (R147). -/
def repeatAnc (ws : List W32) : List W32 :=
  packAnc (((ancPackets (3 * ws.length + 1) (ancTens ws)).filterMap repeatPacket).flatMap ancFlagged)

/-- The blocks of a frame as a repeated copy carries them: those of each ancillary MARK anew, the others as they are (R147). -/
def repeatBlocks (ks : List Block) : List Block :=
  let anc (k : Block) : Bool := decide (k.mark = 7) || decide (k.mark = 8)
  ks.flatMap fun k =>
    if !anc k then [k]
    else if k.idx ≠ 0 then []
    else
      let run := ks.filter fun x => anc x && decide (x.line = k.line) && decide (x.mark = k.mark)
      let ws := repeatAnc ((run.flatMap (·.words)).filter fun w => slotTag w = 1)
      let mk := markWord 5 k.line ((k.mark - 7) * 2 ^ 13 + ws.length)
      recut k (ws.length + 2) 0 (mk :: ws)

/-- The black frame of a PRIMING Bench, with timing and silent audio (R142). -/
def blackFrame (f : Fmt) (k : Nat) : List W32 :=
  frameOf f k (fun l => ancRun true l (Config.silentAudio f.code k l)) fun _ => (List.range f.lineWords).map (blackWord f)

end Sys2Proof.Machine
end

