-- ==== Sys2Proof/Machine/Audio.lean ====
section
/-!
DEFINITION. The audio matrix and the TDM ports (chapter 10).
-/
namespace Sys2Proof.Machine

/-! ## Samples (R322) -/

/-- The 24-bit audio of a sample as a signed number. -/
def audVal (x : W32) : Int := sext 24 (x.toNat / 256)

/-- The V bit. -/
def audV (x : W32) : Bool := bitOf x 0

/-- Even parity over the bits of a number. -/
def parity (n : Nat) : Nat := (List.range 32).foldl (fun p i => (p + n / 2 ^ i) % 2) 0

/-- A sample word with its P bit set to even parity over [31:8] and [2:0], and [7:4] zero. -/
def mkSample (audio : Int) (low3 : Nat) : W32 :=
  let b := twos 24 audio * 256 + low3 % 8
  w32 (b + parity b * 8)

/-- Silence with V = 0. -/
def silence : W32 := 0

/-- Invalid silence. -/
def invalidSilence : W32 := mkSample 0 1

/-- The number this model gives the source of a FOLLOW channel for which AUDIO_PLAN assigns no channel: no channel, so invalid silence. -/
def noSource : Nat := 32767

/-! ## What a channel carries -/

/-- The generator tone at sample index `m` (R72): a 1 kHz sine at −20 dBFS, a tenth of full scale, whose second half period mirrors the first. -/
def State.toneSample (s : State) (m : Nat) : W32 :=
  let half := s.audRate / 2000
  let v : Int := (min 838861 (Config.toneLevel (m % half)) : Nat)
  mkSample (if m / half % 2 = 0 then v else -v) 0

/-- A channel number names a channel of the matrix (R321). -/
def State.audChannel (s : State) (x : Nat) : Bool := decide (x < (if s.audioHi then 8192 else 16384))

/-- The sample a source channel has for an index, if it has arrived. -/
def State.srcSample (s : State) (x i : Nat) : Option W32 := ((s.audSrc.at x).samples.find? fun p => p.1 = i).map (·.2)

/-- The input delay δ of a source channel in samples (R325). DEDUCED: of a de-embedder whose input has brought no format yet, P counts as 0 (log
entry 139). -/
def State.delta (s : State) (x : Nat) : Nat :=
  let a := s.audSrc.at x
  match a.kind with
  | 1 =>
    let f := (s.inRx.at a.origin).fmt
    let p := f.periodFrac.1 * s.audRate
    let q := f.periodFrac.2 * 1000000000
    (if f.known then (p + q - 1) / q else 0) + s.audRate / 1000
  | 2 => max 48 (min 4800 a.delta)
  | 3 => 2
  | _ => 0

/-- The sample of source `x` that the matrix uses at index `m` (R324, R325, R327); none where a channel's sample has not arrived. -/
def State.matrixSample (s : State) (x m : Nat) : Option W32 :=
  if x = 16384 then some silence
  else if x = 16385 then some (s.toneSample m)
  else if s.audChannel x ∧ (s.audSrc.at x).kind ≠ 0 then
    if s.delta x ≤ m then s.srcSample x (m - s.delta x) else none
  else none

/-- The sample a signal gives at index `m`: its source at its tap (R337); invalid silence where there is none. -/
def State.sigSample (s : State) (g : Sig) (m : Nat) : W32 :=
  if g.delay ≤ m then (s.matrixSample g.src (m - g.delay)).getD invalidSilence else invalidSilence

/-- The source of a FOLLOW channel with follow index `j` for video source `v` (R332). -/
def State.followSource (s : State) (v j : Nat) : Nat :=
  if v < 1024 then
    match s.audSrc.find? fun p => p.2.kind = 1 ∧ p.2.origin = v ∧ p.2.index = j with
    | some p => p.1
    | none => noSource
  else if 1056 ≤ v then
    let g := s.twin .XPT_GEN_CTL (v - 1056)
    if getF g F.XPT_GEN_CTL_TONE = 1 ∨ getF g F.XPT_GEN_CTL_TYPE = 5 then 16385 else 16384
  else 16384

/-- The channel takes its source from video: FOLLOW mode of an embedder channel (R332). -/
def State.following (s : State) (c : Nat) : Bool :=
  decide ((s.audDst.at c).kind = 1) && decide (getF (s.twin .AUD_ROUTE c) F.AUD_ROUTE_MODE = 0)

/-- The source AUD_ROUTE and the video route give a channel. -/
def State.routedSource (s : State) (c : Nat) : Nat :=
  if s.following c then s.followSource (s.routes.at (s.audDst.at c).owner).src (s.audDst.at c).index
  else getF (s.twin .AUD_ROUTE c) F.AUD_ROUTE_SOURCE

/-- The tap AUD_DELAY gives a channel, limited to the length of its line (R337). -/
def State.tapOf (s : State) (c : Nat) : Nat :=
  min (getF (s.twin .AUD_DELAY c) F.AUD_DELAY_DELAY) ((s.audDst.at c).delayMax * s.audRate / 1000)

/-- A change of a channel is asked for; it begins at the next sample boundary (R331, R332, R337). -/
def State.audWant (s : State) (c : Nat) (g : Sig) : State :=
  { s with audDst := s.audDst.upd c fun x => { x with want := some g } }

/-- A take of output slot `d` has executed: every FOLLOW channel of `d` changes to its new source (R332). -/
def State.followTake (s : State) (d : Nat) : State :=
  s.audDst.foldl (fun s p =>
    if s.following p.1 ∧ p.2.owner = d then s.audWant p.1 { src := s.routedSource p.1, delay := s.tapOf p.1 } else s) s

/-- AUD_ROUTE[c] as delivered by the command sequencer: a change to the source it gives, unless nothing changes (R331). -/
def State.audRouteDelivered (s : State) (c : Nat) : State :=
  s.audWant c { src := s.routedSource c, delay := s.tapOf c }

/-- AUD_DELAY[c] as delivered: the tap changes, clamped to the line (R337). -/
def State.audDelayDelivered (s : State) (c : Nat) : State :=
  let s := if s.tapOf c < getF (s.twin .AUD_DELAY c) F.AUD_DELAY_DELAY then
      s.eachSide fun sd s => s.raise (RS .AUD_DST_EVT sd c) F.AUD_DST_EVT_DELAY_CLAMP
    else s
  s.audWant c { src := s.routedSource c, delay := s.tapOf c }

/-! ## The sample boundary (R324, R327, R334 to R336) -/

/-- T of R335 in samples. -/
def State.audTimeout (s : State) : Nat :=
  let t := getF (s.twin .AUD_CFG 0) F.AUD_CFG_TIMEOUT
  max 1 (min 100 t) * (s.audRate / 1000)

/-- A zero crossing of the outgoing signal at index `k` of a search that began at `since` (R334). -/
def crossing (since k : Nat) (prev x : W32) : Bool :=
  audVal x = 0 || audV x || (decide (since < k) && decide (audVal prev ≠ 0) && decide ((audVal prev < 0) != (audVal x < 0)))

/-- One sample of a ramp from `a` to `b`, step `i` of `n` (R335). -/
def rampSample (a b : W32) (i n : Nat) : W32 :=
  mkSample ((audVal a * (n - i : Nat) + audVal b * i).tdiv n)
    (b.toNat / 2 % 4 * 2 + b2n (audV a || audV b))

/-- A channel's search has run its time: a ramp of N samples begins at S + T (R335). -/
def AudDst.beginRamp (x : AudDst) (t : Nat) : AudDst :=
  match x.change with
  | .search since g => { x with change := .ramp (since + t) g }
  | _ => x

/-- What one sample boundary does to a channel: its new state, its sample and the sticky bits it sets (R334 to R336). -/
structure AudStep where
  dst  : AudDst
  y    : W32
  bits : W32 := 0

/-- A change asked for begins, replaces the search's target, or waits for the ramp's end (R334, R336). -/
def AudDst.takeWant (x : AudDst) (m : Nat) : AudDst × W32 :=
  match x.want with
  | none => (x, 0)
  | some g =>
    let x := { x with want := none }
    match x.change with
    | .steady => if g = x.cur then (x, 0) else ({ x with change := .search m g }, 0)
    | .search since _ => ({ x with change := .search since g }, F.AUD_DST_EVT_RESTARTED.mask)
    | .ramp _ _ => ({ x with after := some g }, F.AUD_DST_EVT_RESTARTED.mask)

/-- A ramp that has ended leaves the channel with its target, and a change that waited for it begins (R335, R336). -/
def AudDst.endRamp (x : AudDst) (m n : Nat) : AudDst × W32 :=
  match x.change with
  | .ramp start g =>
    if start + n ≤ m then
      let ch := match x.after with
        | some g' => if g' = g then AudChange.steady else .search m g'
        | none => .steady
      ({ x with cur := g, change := ch, after := none }, F.AUD_DST_EVT_CHANGED.mask ||| F.AUD_DST_EVT_TIMEOUT.mask)
    else (x, 0)
  | _ => (x, 0)

/-- The channel's sample at index `m` under its change in progress. -/
def State.audCompute (s : State) (x : AudDst) (m : Nat) : AudStep :=
  let n := s.audRate / 1000
  let a := s.sigSample x.cur m
  match x.change with
  | .steady => { dst := { x with prev := a }, y := a }
  | .search since g =>
    if crossing since m x.prev a then
      let b := s.sigSample g m
      { dst := { x with cur := g, change := .steady, prev := b }, y := b, bits := F.AUD_DST_EVT_CHANGED.mask }
    else { dst := { x with prev := a }, y := a }
  | .ramp start g =>
    let y := rampSample a (s.sigSample g m) (m - start) n
    { dst := { x with prev := y }, y := y }

/-- A source that returns after invalid silence ramps up over N samples (R327). -/
def AudDst.returnRamp (x : AudDst) (m n : Nat) (have_ : Bool) (y : W32) : AudDst × W32 :=
  if !have_ then ({ x with lost := true, rampUp := none }, y)
  else
    let up := if x.lost then some m else x.rampUp
    match up with
    | some st =>
      if m < st + n then ({ x with lost := false, rampUp := some st }, rampSample silence y (m - st) n)
      else ({ x with lost := false, rampUp := none }, y)
    | none => ({ x with lost := false }, y)

/-- One channel at one sample boundary; before its section has started, invalid silence (R558). -/
def State.audChannelStep (s : State) (m c : Nat) (x : AudDst) : State :=
  let n := s.audRate / 1000
  let e := x.endRamp m n
  let w := e.1.takeWant m
  let x := match w.1.change with
    | .search since _ => if since + s.audTimeout ≤ m then w.1.beginRamp s.audTimeout else w.1
    | _ => w.1
  let st := s.audCompute x m
  let cur := st.dst.cur
  let has := decide (cur.delay ≤ m) && (s.matrixSample cur.src (m - cur.delay)).isSome
  let lostBit := if has then 0 else F.AUD_DST_EVT_SRC_LOST.mask
  let o := st.dst.returnRamp m n has st.y
  let q : AudDst × W32 := if s.engStarted 2 (c / 1024) then o else (o.1, invalidSilence)
  let s := { s with audDst := s.audDst.set c { q.1 with hist := ((m, q.2) :: q.1.hist).take 8192 } }
  s.eachSide fun sd s => s.raiseW (RS .AUD_DST_EVT sd c) (e.2 ||| w.2 ||| st.bits ||| lostBit)

/-- A source channel whose sample is needed at index `m`: late when it has not arrived (R327). -/
def State.audSourceStep (s : State) (m x : Nat) (a : AudSrc) : State :=
  if a.kind = 0 ∨ m < s.delta x then s
  else if (s.srcSample x (m - s.delta x)).isSome then { s with audSrc := s.audSrc.upd x fun a => { a with present := true } }
  else
    let s := { s with audSrc := s.audSrc.upd x fun a => { a with present := false } }
    if s.audDst.any fun p => p.2.cur.src = x then
      s.eachSide fun sd s => s.addSat (RS .AUD_SRC_ERR sd x) F.AUD_SRC_ERR_LATE 1
    else s

/-- SAMPLE_BOUNDARY: once the audio time base has reached t_m for the next index m, every source is judged and every destination channel
computed (R324). -/
def execSampleBoundary (s : State) : Out :=
  if s.audNext ≤ s.audIndexNow then
    let m := s.audNext
    let s := s.audSrc.foldl (fun s p => s.audSourceStep m p.1 p.2) s
    let s := s.audDst.foldl (fun s p => s.audChannelStep m p.1 p.2) s
    let s := { s with audNext := m + 1, audTimes := ((m, s.cadTime) :: s.audTimes).take 8192 }
    .next (s.eachSide fun sd s => s.wr (RS .AUD_INDEX sd 0) (w32 m))
  else .next s

/-- CHANGE_TIMEOUT: no crossing has come within T, so the ramp begins (R335). -/
def execChangeTimeout (c : Fin 16384) (s : State) : Out :=
  let x := s.audDst.at c
  match x.change with
  | .search since _ =>
    if since + s.audTimeout ≤ s.audNext then .next { s with audDst := s.audDst.set c (x.beginRamp s.audTimeout) } else .next s
  | _ => .next s

/-! ## Samples that arrive (R326, R327) -/

/-- The sample index whose period contains the tick of cadence time `t` (R326). -/
def State.audIndexAt (s : State) (t : Int) : Nat :=
  let back := (s.cadTime - t) * (2 ^ 48 + s.tbRate s.audioTb) / 2 ^ 48
  let v := ((tbN16 (s.tbs.at s.audioTb).t : Int) - back).toNat
  v / 65536 * s.audRate / 1000000000

/-- A sample of a source channel arrives with its capture index; it is discarded when its index has been used (R327). -/
def State.audArrive (s : State) (x i : Nat) (w : W32) : State :=
  let a := s.audSrc.at x
  if i + s.delta x < s.audNext then s
  else { s with audSrc := s.audSrc.set x { a with last := some i, samples := (i, w) :: a.samples } }

/-- The index a de-embedded sample takes: it numbers on while within 2 of the expected index, and re-anchors beyond that (R326); the
flag says that it re-anchored. -/
def anchor (last : Option Nat) (i : Nat) : Nat × Bool :=
  match last with
  | none => (i, false)
  | some p =>
    let d : Int := i - (p + 1 : Nat)
    if d.natAbs ≤ 2 then (p + 1, false) else (i, true)

/-- Sample `j` of the frame whose SOF stamp is `sof`, of channel `index` of input `n`: an index that repeats is dropped (R326). -/
def State.deembed (s : State) (n index : Nat) (sof : Int) (j : Nat) (w : W32) : State :=
  match s.audSrc.find? fun p => p.2.kind = 1 ∧ p.2.origin = n ∧ p.2.index = index with
  | some p =>
    let a := anchor p.2.last (s.audIndexAt sof + j)
    let s := if a.2 then s.eachSide fun sd s => s.addSat (RS .AUD_SRC_ERR sd p.1) F.AUD_SRC_ERR_ANCHOR 1 else s
    let s := { s with audSrc := s.audSrc.upd p.1 fun x => { x with last := some a.1 } }
    if p.2.samples.any fun q => q.1 = a.1 then s else s.audArrive p.1 a.1 w
  | none => s

/-- The packets that the ancillary words of a run complete, each with its group and its place among the group's packets of the frame (R326). -/
def AudRx.parse (sof : Int) : Nat → AudRx → AudRx
  | 0, x => x
  | fuel + 1, x =>
    match nextAnc (x.tens.length + 1) x.tens with
    | none => x
    | some (p, rest) =>
      let x := { x with tens := rest }
      AudRx.parse sof fuel (match Config.audioGroup p with
        | some g => { x with seen := x.seen ++ [g], q := x.q ++ [{ sofAt := sof, group := g, j := x.seen.count g, words := p }] }
        | none => x)

/-- A block leaves merge for the de-embedder (R326): its ancillary words go on with the run of the blocks before it, or begin a run at a MARK. -/
def AudRx.take (x : AudRx) (k : Block) : AudRx :=
  let x := if k.sof then { x with seen := [] } else x
  let tens := (if k.idx = 0 then [] else x.tens) ++ ancTens (k.words.filter fun w => slotTag w = 1)
  { x with tens := tens }.parse k.sofAt (tens.length + 1)

/-- The Side whose merge the model de-embeds from: both deliver the same (R326). -/
def State.audSide (s : State) : Side := if s.routing .A then .A else .B

/-- A block of input `n` reaches the de-embedder, where AUDIO_PLAN gives the input one. -/
def State.audTake (s : State) (sd : Side) (n : Nat) (k : Block) : State :=
  if sd = s.audSide ∧ (s.audSrc.any fun p => p.2.kind = 1 ∧ p.2.origin = n) = true then { s with audIn := s.audIn.upd n fun x => x.take k } else s

/-- DEEMBED_PACKET: the audio packet of input `n` that waits longest brings a sample of each of its group's four channels; one that fails its checksum
brings none (R326). -/
def execDeembedPacket (n : Fin 1024) (s : State) : Out :=
  match (s.audIn.at n).q with
  | [] => .next s
  | p :: rest =>
    let s := { s with audIn := s.audIn.upd n fun x => { x with q := rest } }
    if ancSumOk p.words then
      let ws := Config.audioSamples p.words
      .next ((List.range 4).foldl (fun (s : State) c => s.deembed n (4 * p.group + c) p.sofAt p.j (ws.getD c 0)) s)
    else .next s

/-! ## TDM ports (R338 to R346) -/

/-- TDM_STAT.STATE. -/
def State.tdmState (s : State) (p : Nat) : Nat := s.fld (R1 .TDM_STAT p) F.TDM_STAT_STATE

/-- The port's state changes. -/
def State.tdmTo (s : State) (p st : Nat) : State := s.setF (R1 .TDM_STAT p) F.TDM_STAT_STATE st

/-- The port drives its own clocks (R340). -/
def State.tdmMaster (s : State) (p : Nat) : Bool := bitOf (s.tdm.at p).cfg 0

/-- TDM_CFG within R339: at most 32 slots at 48 kHz and 16 at 96 kHz, width 3 as 2 (R354). -/
def State.tdmCfgIn (s : State) (c : W32) : W32 :=
  let c := putF c F.TDM_CFG_SLOTS (min (getF c F.TDM_CFG_SLOTS) (if s.audioHi then 15 else 31))
  putF c F.TDM_CFG_WIDTH (min (getF c F.TDM_CFG_WIDTH) 2)

/-- A write of TDM_CTL by the port's owner: ARM stops and arms, STOP stops (R341, R355); only ARM leaves RATE_STOP (R345). -/
def State.writeTdmCtl (s : State) (p : Nat) (w : W32) : State :=
  if bitOf w 1 ∧ s.tdmState p ≠ 4 then
    let w := putF (s.rd (R1 .TDM_STAT p) &&& ~~~F.TDM_STAT_ALIGNED.mask) F.TDM_STAT_STATE 0
    let w := if s.tdmMaster p then putF w F.TDM_STAT_BCLK_KHZ 0 else w
    { s with tdm := s.tdm.upd p fun x => { x with start := none, n := 0 } }.wr (R1 .TDM_STAT p) w
  else if bitOf w 0 then
    let cfg := s.tdmCfgIn (s.rd (R1 .TDM_CFG p))
    let s := { s with tdm := s.tdm.set p { cfg := cfg } }
    s.wr (R1 .TDM_STAT p) (putF (s.rd (R1 .TDM_STAT p) &&& ~~~F.TDM_STAT_ALIGNED.mask) F.TDM_STAT_STATE 1)
  else s

/-- TDM_ARM. -/
def execTdmArm (r : Req) (p : Fin 16) (s : State) : Out :=
  .next (s.access r .timing (s.holdsTdm r p) (R1 .TDM_CTL p).addr 1 fun s => s.writeTdmCtl p 1)

/-- TDM_STOP. -/
def execTdmStop (r : Req) (p : Fin 16) (s : State) : Out :=
  .next (s.access r .timing (s.holdsTdm r p) (R1 .TDM_CTL p).addr 2 fun s => s.writeTdmCtl p 2)

/-- The first index whose sample time lies at least 100 µs after tick `at_` (R342): one that the audio time base does not reach in the tick before. -/
def State.tdmFirstIndex (s : State) (at_ : Nat) : Nat :=
  let t : Int := (s.tbs.at s.audioTb).t + ((at_ : Int) + 100 * usTicks - 1 - (s.tick : Int)) * 4 * (2 ^ 48 + s.tbRate s.audioTb)
  t.toNat / 2 ^ 48 * s.audRate / 1000000000 + 1

/-- The trigger has fired at tick `at_`: every port that is ARMED joins one aligned group (R341, R342). -/
def State.tdmTrigger (s : State) (at_ : Nat) : State :=
  let k := s.tdmFirstIndex at_
  let s := { s with trigArmed := false, trigSignal := none }
  (List.range 16).foldl (fun s p =>
    if s.tdmState p = 1 ∧ (s.tdm.at p).start = none then
      { s with tdm := s.tdm.upd p fun x => { x with start := some k, n := 0 } }.wr (R1 .TDM_START p) (w32 k)
    else s) s

/-- The requester may write TDM_TRIG: 7, 10, or the owner of any port. -/
def State.holdsTrig (s : State) (r : Req) : Bool := is7or10 r || (s.tdmOwner.any fun p => p.2 = r.num)

/-- A write of TDM_TRIG: FIRE fires at once with SOURCE 0 or 3, or arms the trigger for its next event (R341, R355). -/
def State.writeTdmTrig (s : State) (w : W32) : State :=
  let s := s.wr (R0 .TDM_TRIG) (w &&& 0x3FFF#32)
  if bitOf w 31 then
    if getF w F.TDM_TRIG_SOURCE = 1 ∨ getF w F.TDM_TRIG_SOURCE = 2 then { s with trigArmed := true, trigSignal := none }
    else s.tdmTrigger s.tick
  else s

/-- TDM_FIRE. -/
def execTdmFire (r : Req) (w : W32) (s : State) : Out :=
  .next (s.access r .timing (s.holdsTrig r) (R0 .TDM_TRIG).addr (w ||| bit1 31) fun s => s.writeTdmTrig (w ||| bit1 31))

/-- TDM_TRIGGER: the event that the trigger waits for has occurred. -/
def execTdmTrigger (s : State) : Out :=
  match s.trigSignal with
  | some t => .next (if s.trigArmed then s.tdmTrigger t else s)
  | none => .next s

/-- The slots of a port's frame. -/
def State.tdmSlots (s : State) (p : Nat) : Nat := getF (s.tdm.at p).cfg F.TDM_CFG_SLOTS + 1

/-- The bit clocks of a slot of the port. -/
def State.tdmWidth (s : State) (p : Nat) : Nat :=
  match getF (s.tdm.at p).cfg F.TDM_CFG_WIDTH with
  | 0 => 16
  | 1 => 24
  | _ => 32

/-- The bit clocks of a frame of the port. -/
def State.tdmLen (s : State) (p : Nat) : Nat := s.tdmSlots p * s.tdmWidth p

/-- The bit clocks from the frame-sync edge to slot 0, modulo the frame length. -/
def State.tdmOffset (s : State) (p : Nat) : Nat := getF (s.tdm.at p).cfg F.TDM_CFG_OFFSET % s.tdmLen p

/-- The bits of a sample word that a slot carries, most significant first (R339). -/
def State.tdmBits (s : State) (p : Nat) (w : W32) : List Bool := bitsMsb (s.tdmWidth p) (w.toNat / 2 ^ (32 - s.tdmWidth p))

/-- A received slot as a sample: bits the slot does not carry are 0 and P is computed (R339). -/
def State.tdmIn (s : State) (p : Nat) (bits : List Bool) : W32 :=
  let w := w32 ((bits.take (s.tdmWidth p)).foldl (fun n b => 2 * n + b2n b) 0 * 2 ^ (32 - s.tdmWidth p))
  if s.tdmWidth p < 32 then mkSample (audVal w) 0 else w

/-- The destination channel of a port's slot, if AUDIO_PLAN gives one. -/
def State.tdmDst (s : State) (p slot : Nat) : Option (Nat × AudDst) := s.audDst.find? fun e => e.2.kind = 3 ∧ e.2.owner = p ∧ e.2.index = slot

/-- The Side whose samples DOUT carries: the lease holder, while QUIET is 0 and its matrix delivers (R338). -/
def State.tdmDriver (s : State) : Option Side :=
  s.holder.filter fun sd => !s.flag (R0 .RFE_STATE) F.RFE_STATE_QUIET && s.routing sd && decide (s.phase sd ≠ 1)

/-- A Side's delay line of a destination channel holds the sample that index `m` puts out: it fills from the end of the Side's LOAD on
(R179, R337), and a late read gives none (R438). -/
def State.delayHeld (s : State) (sd : Side) (c m : Nat) : Bool :=
  let d := (s.audDst.at c).cur.delay
  decide (s.audLate.at (2 * c + sd.idx) ≠ m + 1) && (decide (d = 0) || decide (s.audIndexAt ((s.side sd).loadedAt * tickU : Nat) + d ≤ m))

/-- The sample of a destination channel that a Side puts out at index `m`: invalid silence where it holds none. -/
def State.dstSample (s : State) (sd : Side) (c m : Nat) : W32 :=
  if s.delayHeld sd c m then (((s.audDst.at c).hist.find? fun h => h.1 = m).map (·.2)).getD invalidSilence else invalidSilence

/-- The nominal bit clock of a port in kHz (R339). -/
def State.tdmNominal (s : State) (p : Nat) : Nat := s.tdmLen p * (s.audRate / 1000)

/-- The first frame of a port that has joined a group: frame 0 with index K, or, for a slave whose first edge comes more than half a sample
period late, the index of the period that contains its edge (R342). -/
def State.tdmFirst (s : State) (p k : Nat) : State :=
  let now2 := tbN16 (s.tbs.at s.audioTb).t * s.audRate * 2
  let late := decide ((2 * k + 1) * 1000000000 * 65536 < now2) && !s.tdmMaster p
  let s := if late then
      let s := { s with tdm := s.tdm.upd p fun x => { x with start := some s.audIndexNow } }
      (s.raise (R1 .TDM_EVT p) F.TDM_EVT_ALIGN_LOST).setF (R1 .TDM_STAT p) F.TDM_STAT_ALIGNED 0
    else s.setF (R1 .TDM_STAT p) F.TDM_STAT_ALIGNED 1
  let s := if s.tdmMaster p then s.setF (R1 .TDM_STAT p) F.TDM_STAT_BCLK_KHZ (s.tdmNominal p) else s
  (s.tdmTo p 2).raise (R1 .TDM_EVT p) F.TDM_EVT_START

/-- A sample of slot `k` of port `p` arrives with its index. -/
def State.tdmArrive (s : State) (p k i : Nat) (bits : List Bool) : State :=
  match s.audSrc.find? fun e => e.2.kind = 3 ∧ e.2.origin = p ∧ e.2.index = k with
  | some e => s.audArrive e.1 i (s.tdmIn p bits)
  | none => s

/-- The bits received since the frame sync before, in the frame of index `i`: each slot that has ended gives its sample, one that began in the frame
before that with that frame's index (R339, R343). -/
def State.tdmHear (s : State) (p i : Nat) (prev din : List Bool) : State :=
  let w := s.tdmWidth p
  (List.range (s.tdmSlots p)).foldl (fun (s : State) k =>
    let a := s.tdmOffset p + k * w
    if a + w ≤ s.tdmLen p then s.tdmArrive p k i (din.drop a)
    else if prev = [] then s
    else s.tdmArrive p k (i - 1) ((prev ++ din).drop a)) s

/-- The transmit samples of index `i`: what DOUT's slots carry, and whether they are missing or have been discarded, of the 64 frames that the port
holds (R338, R344). -/
def State.tdmSamples (s : State) (p i : Nat) : List W32 × Bool × Bool :=
  let ready := s.tdmDriver.isSome && decide (i < s.audNext)
  let gone := ready && decide (i + 64 < s.audNext)
  let used := (List.range (s.tdmSlots p)).any fun k => (s.tdmDst p k).isSome
  ((List.range (s.tdmSlots p)).map fun k => match s.tdmDst p k, s.tdmDriver with
    | some d, some sd => if ready && !gone then s.dstSample sd d.1 i else invalidSilence
    | _, _ => invalidSilence, !ready && used, gone && used)

/-- One frame of a running port (R343, R344): the bits of DIN up to its sync are taken in, DOUT carries the destination samples of index K + n or
invalid silence, and the frame count advances in either case. Before the first frame's slots DOUT is low. -/
def State.tdmFrame (s : State) (p : Nat) (din : List Bool) : State :=
  let x := s.tdm.at p
  let i := x.start.getD 0 + x.n
  let s := match x.heard with
    | some prev => s.tdmHear p (i - 1) prev din
    | none => s
  let o := s.tdmSamples p i
  let off := s.tdmOffset p
  let stream := o.1.flatMap (s.tdmBits p)
  let s := s.emit (.tdmFrame p i ((if x.tail = [] then List.replicate off false else x.tail) ++ stream.take (s.tdmLen p - off)))
  let s := if o.2.1 then (s.addSat (R1 .TDM_SPOIL p) F.TDM_SPOIL_UNDER 1).raise (R1 .TDM_EVT p) F.TDM_EVT_UNDERRUN
    else if o.2.2 then (s.addSat (R1 .TDM_SPOIL p) F.TDM_SPOIL_OVER 1).raise (R1 .TDM_EVT p) F.TDM_EVT_OVERRUN
    else s
  let s := s.wr (R1 .TDM_FRAME p) (w32 x.n)
  { s with tdm := s.tdm.upd p fun y => { y with
      n := y.n + 1, misRun := 0, tail := stream.drop (s.tdmLen p - off), heard := some (if x.heard.isSome then din else []) } }

/-- TDM_FRAME_SYNC: a frame sync of a port that runs, or the first one of a port that has joined a group: a master's at or after t_K, a slave's
at or after t_K − 1/(2f). `din` are the bits received since the frame sync before. -/
def execTdmFrameSync (p : Fin 16) (din : List Bool) (s : State) : Out :=
  match s.tdmState p, (s.tdm.at p).start with
  | 2, some _ => .next (s.tdmFrame p din)
  | 1, some k =>
    let now2 := tbN16 (s.tbs.at s.audioTb).t * s.audRate * 2
    if (2 * k) * 1000000000 * 65536 ≤ now2 + (if s.tdmMaster p then 0 else 1000000000 * 65536) then .next ((s.tdmFirst p k).tdmFrame p din) else .next s
  | _, _ => .next s

/-- A slave port that is clocked: RUNNING. -/
def State.tdmChecks (s : State) (p : Nat) : Bool := decide (s.tdmState p = 2) && !s.tdmMaster p

/-- TDM_GLITCH: a BCLK edge `ago` 2^-16 ns after the last accepted one: earlier than 0.4 of the nominal bit period, it is ignored and counted
(R345). -/
def execTdmGlitch (p : Fin 16) (ago : Nat) (s : State) : Out :=
  if s.tdmChecks p ∧ ago * s.tdmLen p * s.audRate * 10 < 4 * 1000000000 * nsU then
    .next ((s.addWrap (R1 .TDM_GLITCH p) 1).raise (R1 .TDM_EVT p) F.TDM_EVT_GLITCH)
  else .next s

/-- An aligned member loses its alignment. -/
def State.tdmUnalign (s : State) (p : Nat) : State :=
  if s.flag (R1 .TDM_STAT p) F.TDM_STAT_ALIGNED then
    (s.setF (R1 .TDM_STAT p) F.TDM_STAT_ALIGNED 0).raise (R1 .TDM_EVT p) F.TDM_EVT_ALIGN_LOST
  else s

/-- FS_ERR: a frame sync at bit count `at_`, not the frame boundary, is ignored; the fourth in a row at one count re-frames the port there (R345). -/
def execFsErr (p : Fin 16) (at_ : Nat) (s : State) : Out :=
  if s.tdmChecks p ∧ at_ % s.tdmLen p ≠ 0 then
    let x := s.tdm.at p
    let run := if x.misAt = at_ then x.misRun + 1 else 1
    let s := s.raise (R1 .TDM_EVT p) F.TDM_EVT_FS_ERR
    if 4 ≤ run then
      let s := { s with tdm := s.tdm.set p { x with misAt := at_, misRun := 0, heard := none } }
      .next ((s.raise (R1 .TDM_EVT p) F.TDM_EVT_REFRAME).tdmUnalign p)
    else .next { s with tdm := s.tdm.set p { x with misAt := at_, misRun := run } }
  else .next s

/-- TDM_CLOCK_MISSING: `bclk` ns after the last accepted BCLK edge and `fs` ns after the last frame sync at a frame boundary: two frame periods without
either put the port in HOLD (R345). -/
def execTdmClockMissing (p : Fin 16) (bclk fs : Nat) (s : State) : Out :=
  if s.tdmChecks p ∧ 2 * 1000000000 ≤ max bclk fs * s.audRate then
    .next (((s.tdmTo p 3).setF (R1 .TDM_STAT p) F.TDM_STAT_BCLK_KHZ 0).raise (R1 .TDM_EVT p) F.TDM_EVT_HOLD)
  else .next s

/-- A measured bit clock lies within 1 % of nominal. -/
def State.tdmRateOk (s : State) (p khz : Nat) : Bool :=
  decide (99 * s.tdmNominal p ≤ 100 * khz) && decide (100 * khz ≤ 101 * s.tdmNominal p)

/-- The port enters RATE_STOP (R345). -/
def State.tdmRateStop (s : State) (p khz : Nat) : State :=
  ((s.tdmTo p 4).setF (R1 .TDM_STAT p) F.TDM_STAT_BCLK_KHZ khz).raise (R1 .TDM_EVT p) F.TDM_EVT_RATE_CHANGE

/-- RATE_CHANGE: BCLK measured over 1 ms at `khz` is reported; more than 1 % from nominal, it puts the port in RATE_STOP (R345, R355). -/
def execRateChange (p : Fin 16) (khz : Nat) (s : State) : Out :=
  if !s.tdmChecks p then .next s
  else if s.tdmRateOk p khz then .next (s.setF (R1 .TDM_STAT p) F.TDM_STAT_BCLK_KHZ khz) else .next (s.tdmRateStop p khz)

/-- The index that the aligned group of a port has reached: that of a running member with the same K, or the present index (R346). -/
def State.tdmGroupIndex (s : State) (p : Nat) : Nat :=
  match (List.range 16).find? fun q => q ≠ p ∧ s.tdmState q = 2 ∧ (s.tdm.at q).start = (s.tdm.at p).start ∧
      s.flag (R1 .TDM_STAT q) F.TDM_STAT_ALIGNED with
  | some q => (s.tdm.at q).start.getD 0 + (s.tdm.at q).n
  | none => s.audIndexNow

/-- CLK_BACK: after 1 ms of clock the port leaves HOLD with the index of the sample period of its frame sync, or enters RATE_STOP when
the clock is back at another rate (R346). -/
def execClkBack (p : Fin 16) (khz : Nat) (s : State) : Out :=
  if s.tdmState p = 3 then
    if s.tdmRateOk p khz then
      let x := s.tdm.at p
      let i := s.audIndexNow
      let keep := i = s.tdmGroupIndex p
      let k := x.start.getD 0
      let x' := if k ≤ i then { x with n := i - k, heard := none } else { x with start := some i, n := 0, heard := none }
      let s := { s with tdm := s.tdm.set p x' }
      let s := ((s.tdmTo p 2).setF (R1 .TDM_STAT p) F.TDM_STAT_BCLK_KHZ khz).raise (R1 .TDM_EVT p) F.TDM_EVT_CLK_BACK
      .next (if keep then s else s.tdmUnalign p)
    else .next (s.tdmRateStop p khz)
  else .next s

end Sys2Proof.Machine
end

