-- ==== Sys2Proof/Machine/Memory.lean ====
section
/-!
DEFINITION. Byte memories in one canonical form: HBM, the firmware SRAM and the flashes.  A byte that nothing has written
reads as `emptyByte` (DESIGN CHOICE, assumption 5).
-/
namespace Sys2Proof.Machine

/-- What a byte of memory that nothing has written reads as. -/
def emptyByte (_ : Nat) : Byte := 0

/-- The byte at an address. -/
def memByte (m : List Host.Cell) (a : Nat) : Byte := Sparse.get emptyByte m a

/-- The memory with one byte written. -/
def memPut (m : List Host.Cell) (a : Nat) (b : Byte) : List Host.Cell := Sparse.put natLt emptyByte m a b

/-- The canonical form of a memory. -/
abbrev Memory.wf (m : List Host.Cell) : Prop := Sparse.wf natLt emptyByte m

/-- The little-endian word at an address (R2). -/
def memWord (m : List Host.Cell) (a : Nat) : W32 :=
  w32 ((memByte m a).toNat + (memByte m (a + 1)).toNat * 0x100 + (memByte m (a + 2)).toNat * 0x10000 +
    (memByte m (a + 3)).toNat * 0x1000000)

/-- The memory with a little-endian word written. -/
def memPutWord (m : List Host.Cell) (a : Nat) (w : W32) : List Host.Cell :=
  memPut (memPut (memPut (memPut m a (w.extractLsb' 0 8)) (a + 1) (w.extractLsb' 8 8)) (a + 2) (w.extractLsb' 16 8)) (a + 3) (w.extractLsb' 24 8)

/-- Words written one after another. -/
def memPutWords (m : List Host.Cell) (a : Nat) : List W32 → List Host.Cell
  | [] => m
  | w :: ws => memPutWords (memPutWord m a w) (a + 4) ws

/-- A Side's HBM. -/
def State.hbm (s : State) : Side → List Host.Cell
  | .A => s.hbmA
  | .B => s.hbmB

/-- The state with a Side's HBM replaced. -/
def State.setHbm (s : State) (sd : Side) (m : List Host.Cell) : State :=
  match sd with
  | .A => { s with hbmA := m }
  | .B => { s with hbmB := m }

end Sys2Proof.Machine
end

