-- ==== Sys2Proof/Machine/Takes.lean ====
section
/-!
DEFINITION. Presets, takes, salvos, output frames and capture taps (chapter 3).
-/
namespace Sys2Proof.Machine

/-! ## Twin registers as delivered -/

/-- A twin register takes a value: in the routing snapshot and in every Side that runs (R32, R480). -/
def State.deliver (s : State) (k : RegKey) (v : W32) : State :=
  let s := { s with twins := Sparse.put RegKey.lt RegKey.reset s.twins k v }
  s.eachSide fun sd s => s.wr { k with bank := 2 * k.bank + sd.idx } v

/-! ## Destinations -/

/-- The cadence counter against which a take of a destination committed now is stamped (R80, R95). -/
def State.destCad (s : State) (d : Nat) : Nat :=
  if d < 1024 then s.outCad d
  else if d < 1280 then
    match s.tileHead.at (d - 1024) with
    | some h => s.cadOfFmt (s.headPlan.at h).fmt
    | none => 0
  else s.cadOf (getF (s.twin .XPT_CAP_CFG (d - 1280)) F.XPT_CAP_CFG_CADENCE)

/-- The switch point of frame `f` of a destination, stamped against counter `c` (R79, R95). -/
def State.destSwitch (s : State) (d c : Nat) (f : Int) : Int :=
  if d < 1024 then s.switchPoint d (s.outs.at d) f else s.cadStart c f

/-- The smallest frame of a destination whose switch point lies at or after `t`. -/
def State.destFrameFrom (s : State) (d : Nat) (t : Int) : Nat :=
  (if d < 1024 then s.outFrameFrom d (s.outs.at d) (t - (s.outPlan.at d).fmt.switchAt)
   else s.cadFrameFrom (s.destCad d) t).toNat

/-- The TAKE_LEAD of a commit whose commit tick is now: a write of XPT_TAKE_LEAD in this tick does not apply to it (R81). -/
def State.commitLead (s : State) : Nat :=
  match s.leadOld with
  | some p => if s.tick ≤ p.1 then p.2 else s.takeLead
  | none => s.takeLead

/-- `n` line periods of a destination's format (R81). -/
def State.leadTime (s : State) (n d : Nat) : Int := ((s.cadFmt (s.destCad d)).linesTime n : Nat)

/-- The commit deadline seen from now under a TAKE_LEAD of `n`: a take reaches the frames whose switch point lies at or after this. -/
def State.leadBound (s : State) (n d : Nat) : Int := s.cadTime + s.leadTime n d

/-- A sticky bit of an output slot is set in every Side that runs; tile feeds and capture taps have none. -/
def State.outEvt (s : State) (d : Nat) (f : Fld) : State :=
  if d < 1024 then s.eachSide fun sd s => s.raise (RS .XPT_OUT_STAT sd d) f else s

/-- A sticky bit of an output's Seam is set in every Side that runs. -/
def State.seamEvt (s : State) (d : Nat) (f : Fld) : State :=
  if d < 1024 then s.eachSide fun sd s => s.raise (RS .SEAM_EVT sd d) f else s

/-! ## Pending takes -/

/-- A salvo none of whose entries is pending any longer is DONE (R88). -/
def State.salvoLeave (s : State) (n : Nat) : State :=
  let st := s.fld (R1 .XPT_SALVO_STAT n) F.XPT_SALVO_STAT_STATE
  let left := s.takes.any fun t => match t.owner with
    | .salvo m _ => m == n
    | _ => false
  if (st = 1 ∨ st = 2) ∧ !left then
    (s.setF (R1 .XPT_SALVO_STAT n) F.XPT_SALVO_STAT_STATE 3).setSource (sharedSrc 75)
  else s

/-- A pending take leaves: its Bench is given up and its salvo may be done. -/
def State.takeLeave (s : State) (p : Pending) : State :=
  let s := { s with takes := s.takes.erase p }
  let s := s.benchReleaseOf p.bench
  match p.owner with
  | .salvo n _ => s.salvoLeave n
  | _ => s

/-- A pending take is replaced by a later one for the same destination and frame (R83). -/
def State.superseded (s : State) (p : Pending) : State :=
  let s := s.outEvt p.dest F.XPT_OUT_STAT_SUPERSEDED
  let s := match p.owner with
    | .single r q =>
      let k : RegKey := { name := .XPT_TAKE_RES, bank := r }
      let s := if s.fld k F.XPT_TAKE_RES_SEQ = q then s.setF k F.XPT_TAKE_RES_STATUS 3 else s
      s.setSource (sharedSrc 74)
    | .salvo n _ => (s.raise (R1 .XPT_SALVO_STAT n) F.XPT_SALVO_STAT_SUPERSEDED).setSource (sharedSrc 74)
    | .internal => s
  s.takeLeave p

/-- A stamped take joins the pending ones, replacing one for the same destination and frame (R83); what the replaced one held is given up once the
new take holds its own (R139). -/
def State.addTake (s : State) (p : Pending) : State :=
  let old : List Pending := match p.stamp with
    | some _ => s.takes.filter fun (t : Pending) => t.dest = p.dest ∧ t.stamp = p.stamp
    | none => []
  let s : State := { s with takes := s.takes ++ [p] }
  let s := old.foldl State.superseded s
  if 1024 ≤ p.src ∧ p.src < 1056 then
    { s with headRun := s.headRun.upd (p.src - 1024) fun h => if h.since = none then { h with since := some s.tick } else h }
  else s

/-- The single takes of requesters that are pending (R88). -/
def State.singles (s : State) : List Pending :=
  s.takes.filter fun t => match t.owner with
    | .single _ _ => true
    | _ => false

/-- The salvos that are pending or executing (R88). -/
def State.salvosPending (s : State) : List Nat :=
  (List.range 256).filter fun n =>
    let st := s.fld (R1 .XPT_SALVO_STAT n) F.XPT_SALVO_STAT_STATE
    decide (st = 1 ∨ st = 2)

/-! ## Stamps (R81, R87, R89, R91) -/

/-- The frame in which each of several takes committed together executes: for the output slots of one format, the smallest frame whose
switch point meets its bound on all of them (R87). -/
def State.groupFrame (s : State) (ds : List Nat) (bound : Nat → Int) (d : Nat) : Nat :=
  if d < 1024 then
    (ds.filter fun x => x < 1024 ∧ (s.outPlan.at x).fmt = (s.outPlan.at d).fmt).foldl
      (fun m x => max m (s.destFrameFrom x (bound x))) (s.destFrameFrom d (bound d))
  else s.destFrameFrom d (bound d)

/-- Time T minus the time base's value, signed, in 2^-16 ns (R89, R397). -/
def State.timeToGo (s : State) (n t : Nat) : Int := sext 80 (t * 65536 + 2 ^ 80 - s.tbNow n)

/-- A timed take is due to be stamped: T − V ≤ 100 ms (R89). -/
def State.stampDue (s : State) (n t : Nat) : Bool := decide (s.timeToGo n t ≤ (100 * msU : Nat))

/-- The cadence time at which time base `n` will read T, at its current rate (R89), to 1/16 tick (R80). -/
def State.timePos (s : State) (n t : Nat) : Int :=
  (s.cadTime + s.timeToGo n t * 2 ^ 48 / (2 ^ 48 + s.tbRate n)) / sixteenth * sixteenth

/-- The stamp of a timed take among the destinations committed with it under a TAKE_LEAD of `lead`, and whether it came too late and was stamped by
the lead rule (R89, R91). -/
def State.timedFrame (s : State) (ds : List Nat) (lead n t d : Nat) : Nat × Bool :=
  let pos := s.timePos n t
  let f := s.groupFrame ds (fun _ => pos) d
  let same := if d < 1024 then ds.filter fun x => x < 1024 ∧ (s.outPlan.at x).fmt = (s.outPlan.at d).fmt else [d]
  let late := same.any fun x => decide (s.destSwitch x (s.destCad x) f < s.leadBound lead x)
  if late then (s.groupFrame ds (s.leadBound lead) d, true) else (f, false)

/-! ## Receipt of a commit (R77, R78) -/

/-- A requester's XPT_TAKE_RES. -/
abbrev takeRes (r : Req) : RegKey := RB .XPT_TAKE_RES r 0

/-- T of a timed take: the requester's XPT_TTIME. -/
def State.ttime (s : State) (r : Req) : Nat := (s.rd (RB .XPT_TTIME_HI r 0)).toNat * 2 ^ 32 + (s.rd (RB .XPT_TTIME_LO r 0)).toNat

/-- A commit is received: ignored with OVERRUN while the requester's last is being validated; otherwise BUSY until its commit tick. -/
def State.receive (s : State) (r : Req) (op : CommitOp) (timed : Bool) (tb seq ticks : Nat) : State :=
  if s.flag (takeRes r) F.XPT_TAKE_RES_BUSY then s.raise (takeRes r) F.XPT_TAKE_RES_OVERRUN
  else
    let s := s.setF (takeRes r) F.XPT_TAKE_RES_BUSY 1
    { s with commits := s.commits ++ [{ req := r, op := op, timed := timed, timeBase := tb, time := s.ttime r, seq := seq, due := s.tick + ticks }] }

/-- The word of a write of XPT_TAKE (R101). -/
def takeWord (op target : Nat) (timed : Bool) (tb : Nat) (seq : Byte) : W32 :=
  let w := putF (putF 0 F.XPT_TAKE_TARGET target) F.XPT_TAKE_OP op
  putF (putF (putF w F.XPT_TAKE_TIMED (b2n timed)) F.XPT_TAKE_TB tb) F.XPT_TAKE_SEQ seq.toNat

/-- The access that every commit is: a write of XPT_TAKE through T5. -/
def State.commitAccess (s : State) (r : Req) (v : W32) (f : State → State) : State :=
  s.access r .twin true (R0 .XPT_TAKE).addr v f

/-- A single take: the preset's SOURCE and VALID are taken as they stand. -/
def State.receiveTake (s : State) (r : Req) (d : Nat) (timed : Bool) (tb seq : Nat) : State :=
  let p := s.rd (R1 .XPT_PRESET d)
  s.receive r (.take d (getF p F.XPT_PRESET_SOURCE) (bitOf p 11)) timed tb seq 2

/-- A salvo: its entries are taken as they stand; n entries take ceil(n / 16) ticks more. -/
def State.receiveSalvo (s : State) (r : Req) (n : Nat) (timed : Bool) (tb seq : Nat) : State :=
  let es := s.salvos.at n
  s.receive r (.salvo n es) timed tb seq (2 + (es.length + 15) / 16)

/-- TAKE. -/
def execTake (r : Req) (d : Fin 2048) (timed : Bool) (tb : Fin 4) (seq : Byte) (s : State) : Out :=
  .next (s.commitAccess r (takeWord 0 d timed tb seq) fun s => s.receiveTake r d timed tb seq.toNat)

/-- SALVO_COMMIT. -/
def execSalvoCommit (r : Req) (n : Fin 256) (timed : Bool) (tb : Fin 4) (seq : Byte) (s : State) : Out :=
  .next (s.commitAccess r (takeWord 1 n timed tb seq) fun s => s.receiveSalvo r n timed tb seq.toNat)

/-- TAKE_CANCEL. -/
def execTakeCancel (r : Req) (d : Fin 2048) (seq : Byte) (s : State) : Out :=
  .next (s.commitAccess r (takeWord 2 d false 0 seq) fun s => s.receive r (.cancelTake d) false 0 seq.toNat 2)

/-- SALVO_CANCEL. -/
def execSalvoCancel (r : Req) (n : Fin 256) (seq : Byte) (s : State) : Out :=
  .next (s.commitAccess r (takeWord 3 n false 0 seq) fun s => s.receive r (.cancelSalvo n) false 0 seq.toNat 2)

/-! ## The commit tick (R82 to R88) -/

/-- A result: the status code of R82 and the failing entry. -/
structure Verdict where
  status : Nat
  entry  : Nat := 0
deriving DecidableEq, Repr

/-- The first entry that satisfies a failing condition. -/
def firstBad (es : List (Nat × Nat)) (bad : Nat × Nat → Bool) : Option Nat := es.findIdx? bad

/-- The later of two entries that name the same destination. -/
def firstDup (es : List (Nat × Nat)) : Option Nat :=
  (List.range es.length).find? fun i => (es.take i).any fun e => e.1 = (es.getD i (0, 0)).1

/-- The plans of all entries in order, each seeing the Benches the earlier ones reserved; or the first that is refused. -/
def State.planAll (s : State) : List (Nat × Nat) → List TakePlan → Except Nat (List TakePlan × State)
  | [], acc => .ok (acc.reverse, s)
  | e :: es, acc =>
    let p := s.planTake e.2 e.1
    if p.1.refused then .error acc.length else State.planAll p.2 es (p.1 :: acc)

/-- The checks of R82 before the timing judgement, on destination and source numbers. -/
def State.checkNumbers (s : State) (r : Req) (es : List (Nat × Nat)) : Option Verdict :=
  match firstBad es fun e => !s.destAllocated e.1 || !s.srcAllocated e.2 with
  | some i => some { status := 5, entry := i }
  | none =>
  match firstBad es fun e => !s.mayRoute r e.1 with
  | some i => some { status := 7, entry := i }
  | none =>
  match firstBad es fun e => s.destWithdrawn e.1 || s.srcWithdrawn e.2 with
  | some i => some { status := 10, entry := i }
  | none =>
  match firstBad es fun e => decide (e.1 < 1024) && !s.srcMatches e.2 e.1 with
  | some i => some { status := 8, entry := i }
  | none => none

/-- Accepted entries become pending takes; BENCH_NONE and TIME_LATE are reported; the verdict is ACCEPTED or LATE_TIME. -/
def State.acceptEntries (s : State) (c : Commit) (owner : Nat → TakeBy) (es : List (Nat × Nat)) (ps : List TakePlan) : Verdict × State :=
  let ds := es.map (·.1)
  let now := !c.timed || s.stampDue c.timeBase c.time
  let stampOf (d : Nat) : Option Nat × Bool :=
    if !c.timed then (some (s.groupFrame ds (s.leadBound s.commitLead) d), false)
    else if now then
      let q := s.timedFrame ds s.commitLead c.timeBase c.time d
      (some q.1, q.2)
    else (none, false)
  let stamps := ds.map stampOf
  let late := stamps.any (·.2)
  let s' := (List.range es.length).foldl (fun (s : State) i =>
    let e := es.getD i (0, 0)
    let p := ps.getD i {}
    let s := if p.noBench then s.seamEvt e.1 F.SEAM_EVT_BENCH_NONE else s
    s.addTake { owner := owner i, dest := e.1, src := e.2, stamp := (stamps.getD i (none, false)).1, timeBase := c.timeBase, time := c.time, bench := p.bench, timing := p.timing, cad := s.destCad e.1, lead := s.commitLead }) s
  ({ status := if late then 2 else 1 }, s')

/-- The commit of one take (R82). -/
def State.commitTake (s : State) (c : Commit) (d src : Nat) (valid : Bool) : Verdict × State :=
  if !s.destAllocated d then ({ status := 5 }, s)
  else if !valid then ({ status := 6 }, s)
  else
    match s.checkNumbers c.req [(d, src)] with
    | some v => ({ v with entry := 0 }, s)
    | none =>
      match s.planAll [(d, src)] [] with
      | .error _ => ({ status := 9 }, s)
      | .ok (ps, s1) =>
        let f := if c.timed then (s.timedFrame [d] s.commitLead c.timeBase c.time d).1 else s.groupFrame [d] (s.leadBound s.commitLead) d
        let stamped := !c.timed || s.stampDue c.timeBase c.time
        let replaced := (s.singles.filter fun t => stamped ∧ t.dest = d ∧ t.stamp = some f).length
        if 4096 < s.singles.length - replaced + 1 then ({ status := 14 }, s)
        else s1.acceptEntries c (fun _ => .single c.req.num c.seq) [(d, src)] ps

/-- The commit of a salvo, accepted or refused as a whole (R82, R86, R87). -/
def State.commitSalvo (s : State) (c : Commit) (n : Nat) (es : List (Nat × Nat)) : Verdict × State :=
  let st := s.fld (R1 .XPT_SALVO_STAT n) F.XPT_SALVO_STAT_STATE
  let owned := s.fld (R1 .XPT_SALVO_STAT n) F.XPT_SALVO_STAT_OWNER = c.req.num
  match firstBad es fun e => !s.destAllocated e.1 || !s.srcAllocated e.2 with
  | some i => ({ status := 5, entry := i }, s)
  | none =>
  if !owned then ({ status := 7 }, s)
  else
    match s.checkNumbers c.req es with
    | some v => (v, s)
    | none =>
      match s.planAll es [] with
      | .error i => ({ status := 9, entry := i }, s)
      | .ok (ps, s1) =>
        match firstDup es with
        | some i => ({ status := 11, entry := i }, s)
        | none =>
          if es = [] then ({ status := 12 }, s)
          else if st = 1 ∨ st = 2 then ({ status := 13 }, s)
          else
            let ds := es.map (·.1)
            let stamped := !c.timed || s.stampDue c.timeBase c.time
            let frame (d : Nat) : Nat := if c.timed then (s.timedFrame ds s.commitLead c.timeBase c.time d).1 else s.groupFrame ds (s.leadBound s.commitLead) d
            let survives (t : Pending) : Bool := !(stamped && es.any fun e => t.dest = e.1 ∧ t.stamp = some (frame e.1))
            let others := s.salvosPending.filter fun m => s.takes.any fun t => match t.owner with
              | .salvo k _ => k == m && survives t
              | _ => false
            if 256 < others.length + 1 then ({ status := 14 }, s)
            else
              let a := s1.acceptEntries c (fun i => .salvo n i) es ps
              (a.1, a.2.setF (R1 .XPT_SALVO_STAT n) F.XPT_SALVO_STAT_STATE 1)

/-- The pending take that a cancel names: the requester's unstamped one of latest T, else the one of latest stamp (R84). -/
def latestOf (ts : List Pending) : Option Pending :=
  ts.foldl (fun o t =>
    match o with
    | none => some t
    | some b =>
      match b.stamp, t.stamp with
      | none, none => if b.time ≤ t.time then some t else some b
      | none, some _ => some b
      | some _, none => some t
      | some x, some y => if x ≤ y then some t else some b) none

/-- The switch point at which a stamped take executes (R582). -/
def State.pendingSwitch (s : State) (t : Pending) : Option Int := t.frame.map fun f => s.destSwitch t.dest t.cad f

/-- A stamped take lies within TAKE_LEAD of its switch point (R84). -/
def State.tooLate (s : State) (t : Pending) : Bool :=
  (s.pendingSwitch t).any fun p => decide (p - s.leadTime s.commitLead t.dest ≤ s.cadTime)

/-- The take of a list with the earliest switch point. -/
def State.firstOf (s : State) (ts : List Pending) : Option Pending :=
  ts.foldl (fun o t =>
    match o.bind s.pendingSwitch, s.pendingSwitch t with
    | some a, some b => if b < a then some t else o
    | none, some _ => some t
    | _, none => o) none

/-- The cancel of a take (R84). -/
def State.cancelTake (s : State) (r : Req) (d : Nat) : Verdict × State :=
  if !s.destAllocated d then ({ status := 5 }, s)
  else if !s.mayRoute r d then ({ status := 7 }, s)
  else
    match latestOf (s.takes.filter fun t => decide (t.dest = d) && (match t.owner with
      | .single q _ => q == r.num
      | _ => false)) with
    | none => ({ status := 16 }, s)
    | some t => if s.tooLate t then ({ status := 15 }, s) else ({ status := 4 }, s.takeLeave t)

/-- The cancel of a salvo (R84). -/
def State.cancelSalvo (s : State) (r : Req) (n : Nat) : Verdict × State :=
  let st := s.fld (R1 .XPT_SALVO_STAT n) F.XPT_SALVO_STAT_STATE
  if s.fld (R1 .XPT_SALVO_STAT n) F.XPT_SALVO_STAT_OWNER ≠ r.num then ({ status := 7 }, s)
  else if st ≠ 1 ∧ st ≠ 2 then ({ status := 16 }, s)
  else
    let mine (t : Pending) : Bool := match t.owner with
      | .salvo m _ => m == n
      | _ => false
    if st = 2 ∨ (s.firstOf (s.takes.filter mine)).any s.tooLate then ({ status := 15 }, s)
    else
      let gone := s.takes.filter mine
      let s := s.setF (R1 .XPT_SALVO_STAT n) F.XPT_SALVO_STAT_STATE 0
      let s := { s with takes := s.takes.filter fun t => !mine t }
      ({ status := 4 }, gone.foldl (fun s t => s.benchReleaseOf t.bench) s)

/-- One commit reaches its commit tick: it is checked and stamped or refused, and its result is reported (R82, R103). -/
def State.commitOne (s : State) (c : Commit) : State :=
  let s := { s with commits := s.commits.filter fun x => x ≠ c }
  let p := match c.op with
    | .take d src v => s.commitTake c d src v
    | .salvo n es => s.commitSalvo c n es
    | .cancelTake d => s.cancelTake c.req d
    | .cancelSalvo n => s.cancelSalvo c.req n
  let k := takeRes c.req
  let s := (p.2.setF k F.XPT_TAKE_RES_SEQ c.seq).setF k F.XPT_TAKE_RES_STATUS p.1.status
  let s := (s.setF k F.XPT_TAKE_RES_ENTRY p.1.entry).setF k F.XPT_TAKE_RES_BUSY 0
  s.setSource (sharedSrc (63 + c.req.num))

/-- COMMIT_TICK: every commit whose commit tick has come, in ascending order of requester number (R33, R78). -/
def execCommitTick (s : State) : Out :=
  let due := s.commits.filter fun c => c.due ≤ s.tick
  .next (([1, 2, 3, 4, 5, 6, 7, 8, 9, 10].flatMap fun n => due.filter fun c => c.req.num = n).foldl State.commitOne s)

/-- TIMED_TAKE_STAMP: timed takes and salvos whose T has come within 100 ms are stamped (R89 to R91). DESIGN CHOICE: one stamped onto a frame that
another pending take of its destination holds replaces that one, as a newly accepted take does under R83, whichever was committed first (log
entry 115). -/
def execTimedTakeStamp (s : State) : Out :=
  let due := s.takes.filter fun t => t.stamp.isNone && s.stampDue t.timeBase t.time
  let groupOf (t : Pending) : List Nat := match t.owner with
    | .salvo n _ => (due.filter fun u => match u.owner with
        | .salvo m _ => m == n
        | _ => false).map (·.dest)
    | _ => [t.dest]
  let stamped := due.map fun t => (t, s.timedFrame (groupOf t) t.lead t.timeBase t.time t.dest)
  .next (stamped.foldl (fun s p =>
    let s := { s with takes := s.takes.filter fun t => t ≠ p.1 }
    let s := if p.2.2 then s.outEvt p.1.dest F.XPT_OUT_STAT_TIME_LATE else s
    s.addTake { p.1 with stamp := some p.2.1 }) s)

/-! ## Execution (R129, R134, R135, R139, R582) -/

/-- The line of frame `f` at which a jump at instant `j` ends it: the first that does not begin before `j`. -/
def State.lineAtJump (s : State) (d : Nat) (o : OutTiming) (f j : Int) : Nat :=
  ((List.range (rasterLines (s.outPlan.at d).fmt.raster).1).filter fun l => s.outStart d o f + (s.outPlan.at d).fmt.lineAt (l + 1) < j).length + 1

/-- Frame `ended` of an output ends at instant `j`: its lines end there, and a take stamped for it whose switch point had not come executes in the
frame that follows (R582). -/
def State.endFrame (s : State) (d : Nat) (ended j : Int) : State :=
  let o := s.outs.at d
  let cut := s.lineAtJump d o ended j
  let s := { s with
    takes := s.takes.map fun (t : Pending) =>
      match t.frame with
      | some f => if t.dest = d ∧ (f : Int) ≤ ended ∧ j ≤ s.switchPoint d o f then { t with runs := some (ended + 1).toNat } else t
      | none => t }
  s.eachSide fun sd s => { s with shown := s.shown.upd (2 * d + sd.idx) fun h => if h.frame = some ended.toNat then { h with cut := some cut } else h }

/-- The raster of an output jumps at instant `j` to a new timing (R92, R134, R582): its frames are numbered on and the frame in progress ends there. -/
def State.jumpTo (s : State) (d : Nat) (o' : OutTiming) (j : Int) : State :=
  let o := s.outs.at d
  let s := s.endFrame d (s.outFrameAt d o (j - 1)) j
  { s with outs := s.outs.set d (s.renumber d o o' j) }

/-- A re-alignment has moved the frame start of index `j` of counter `c`: the frame before it of output `d` ends where the next begins (R422, R582). -/
def State.alignCut (s : State) (c d j : Nat) : State :=
  let x := s.cads.at c
  let o := s.outs.at d
  let f : Int := x.count + ((j : Int) - x.index) - o.shift
  s.endFrame d (f - 1) (s.outStart d o f)

/-- What a take does to its output's timing at the switch point `j` (R134, R135). -/
def State.retimeAt (s : State) (t : Pending) (j : Int) : State :=
  let d := t.dest
  let o := s.outs.at d
  let jump (o' : OutTiming) : State :=
    ((s.jumpTo d o' j).outEvt d F.XPT_OUT_STAT_TIMING_BREAK).seamEvt d F.SEAM_EVT_RETIME
  match t.timing with
  | .keep => s
  | .back => jump { o with retimed := none }
  | .retime =>
    match s.srcLead t.src t.bench d o with
    | none => s
    | some l =>
      let p := (s.outPlan.at d).fmt.period / sixteenth
      jump { o with retimed := some (wrapHalf (o.x + s.centre16 d - l) p) }

/-- The pending take of a destination that executes first: in the earliest frame, one that a jump has deferred ahead of one stamped for the
frame (R582), among equals the one of the lower stamp, then the one committed first. -/
def earliestOf (ts : List Pending) : Option Pending :=
  let key (t : Pending) : Nat × Nat := (t.frame.getD 0, t.stamp.getD 0)
  ts.foldl (fun o t =>
    match o with
    | none => if t.stamp.isSome then some t else none
    | some b =>
      if t.stamp.isSome ∧ ((key t).1 < (key b).1 ∨ ((key t).1 = (key b).1 ∧ (key t).2 < (key b).2)) then some t else some b) none

/-- The cause for which a source is lost to output `d` in a Side (R93). -/
def State.lossCause (s : State) (sd : Side) (d x : Nat) : LossCause :=
  if x < 1024 then
    if (s.merges.at (2 * x + sd.idx)).lost ∨ s.srcWithdrawn x then .lost
    else if !s.srcMatches x d then .mismatch else .none
  else .none

/-- A whole frame of source `x` that is neither lost nor mismatched ended before the switch point of output frame `f` (R94). -/
def State.wholeBefore (s : State) (sd : Side) (d x : Nat) (f : Int) : Bool :=
  decide (1024 ≤ x) || ((s.merges.at (2 * x + sd.idx)).whole.any fun e => decide (e < s.switchPoint d (s.outs.at d) f))

/-- In the frame in progress an output returns to its source from the switch line on, where that line is still to come (R94). -/
def State.returnIn (s : State) (sd : Side) (d : Nat) : State :=
  let ix := 2 * d + sd.idx
  let h := s.shown.at ix
  let x := (s.routes.at d).src
  match h.frame with
  | none => s
  | some f =>
    if h.cause ≠ .none ∧ s.lossCause sd d x = .none ∧ s.wholeBefore sd d x f then
      { s with shown := s.shown.set ix { h with cause := .none, back := (rasterLines (s.outPlan.at d).fmt.raster).2, hit := false } }
    else s

/-- A take executes at its switch point in frame `f`: the route moves, with all that follows (R129). DESIGN CHOICE: XPT_OUT_TAKEN reports the frame
in which it executes, also where a jump has deferred it past its stamp (R113, R582; log entry 116). -/
def State.executeTake (s : State) (t : Pending) (f : Nat) : State :=
  let old := s.routes.at t.dest
  let s := { s with takes := s.takes.filter fun x => x ≠ t }
  let new : Route := { src := t.src, bench := t.bench, prev := old.src, prevBench := old.bench, taken := f, cad := t.cad }
  let s := { s with routes := s.routes.set t.dest new }
  let s := s.benchReleaseOf old.bench
  let s := if t.dest < 1024 then
      let lead := (s.srcLead t.src t.bench t.dest (s.outs.at t.dest)).getD 0
      let s := s.retimeAt t (s.destSwitch t.dest t.cad f)
      let lead := if t.timing = .keep then lead else (s.srcLead t.src t.bench t.dest (s.outs.at t.dest)).getD 0
      let s := { s with outs := s.outs.upd t.dest fun o => { o with untimed := 0, lead := lead } }
      s.eachSide fun sd s =>
        let s := { s with shown := s.shown.upd (2 * t.dest + sd.idx) fun h => { h with hit := false } }
        (s.wr (RS .XPT_OUT_TAKEN sd t.dest) (w32 f)).returnIn sd t.dest
    else s
  let s := s.outEvt t.dest F.XPT_OUT_STAT_TOOK
  let s := if t.fallback then s.outEvt t.dest F.XPT_OUT_STAT_FALLBACK else s
  let s := match t.owner with
    | .salvo n _ => (s.setF (R1 .XPT_SALVO_STAT n) F.XPT_SALVO_STAT_STATE 2).salvoLeave n
    | _ => s
  if t.dest < 1024 then s.followTake t.dest else s

/-- TAKE_EXECUTE: the earliest pending take of a destination executes once its switch point has come. -/
def execTakeExecute (d : Fin 1344) (s : State) : Out :=
  match earliestOf (s.takes.filter fun t => t.dest = d.val) with
  | none => .next s
  | some t =>
    let f := t.frame.getD 0
    if s.destSwitch d t.cad f ≤ s.cadTime then .next (s.executeTake t f) else .next s

/-! ## Salvos (R85, R106) -/

/-- The salvo a requester has selected. -/
def State.selected (s : State) (r : Req) : Nat := s.fld (RB .XPT_SALVO_SEL r 0) ⟨0, 8⟩

/-- A salvo's XPT_SALVO_STAT. -/
abbrev salvoStat (n : Nat) : RegKey := R1 .XPT_SALVO_STAT n

/-- Salvo `n` is pending, executing, or between the receipt and the commit tick of a commit of it (R85). -/
def State.salvoBusy (s : State) (n : Nat) : Bool :=
  let st := s.fld (salvoStat n) F.XPT_SALVO_STAT_STATE
  decide (st = 1 ∨ st = 2) || s.commits.any fun c => match c.op with
    | .salvo m _ => m == n
    | _ => false

/-- A write that edits the selected salvo: the owner is tested first, then the state (R85). -/
def State.salvoEdit (s : State) (r : Req) (free : Bool) (addr : Nat) (f : Nat → State → State) : State :=
  let n := s.selected r
  let o := s.fld (salvoStat n) F.XPT_SALVO_STAT_OWNER
  if o = r.num ∨ (free ∧ o = 0) then
    if s.salvoBusy n then s.raise (salvoStat n) F.XPT_SALVO_STAT_BUSY_WR else f n s
  else (s.raise (salvoStat n) F.XPT_SALVO_STAT_DENIED).denied r false addr

/-- The salvo is emptied and given an owner, in EDIT. -/
def State.salvoEmpty (s : State) (n owner : Nat) : State :=
  let s := { s with salvos := s.salvos.set n [] }
  let k := salvoStat n
  ((s.setF k F.XPT_SALVO_STAT_COUNT 0).setF k F.XPT_SALVO_STAT_OWNER owner).setF k F.XPT_SALVO_STAT_STATE 0

/-- A write of XPT_SALVO_CTL. -/
def State.writeSalvoCtl (s : State) (r : Req) (op : Nat) : State :=
  match op with
  | 1 => s.salvoEdit r true (R0 .XPT_SALVO_CTL).addr fun n s => s.salvoEmpty n r.num
  | 2 => s.salvoEdit r false (R0 .XPT_SALVO_CTL).addr fun n s => s.salvoEmpty n 0
  | _ => s

/-- SALVO_CLEAR. -/
def execSalvoClear (r : Req) (s : State) : Out :=
  .next (s.access r .twin true (R0 .XPT_SALVO_CTL).addr 1 fun s => s.writeSalvoCtl r 1)

/-- SALVO_RELEASE. -/
def execSalvoRelease (r : Req) (s : State) : Out :=
  .next (s.access r .twin true (R0 .XPT_SALVO_CTL).addr 2 fun s => s.writeSalvoCtl r 2)

/-- A write of XPT_SALVO_ENTRY: one entry is appended, up to 1 024. -/
def State.writeSalvoEntry (s : State) (r : Req) (dest src : Nat) : State :=
  s.salvoEdit r false (R0 .XPT_SALVO_ENTRY).addr fun n s =>
    if 1024 ≤ (s.salvos.at n).length then s.raise (salvoStat n) F.XPT_SALVO_STAT_FULL_ERR
    else
      let s := { s with salvos := s.salvos.set n (s.salvos.at n ++ [(dest, src)]) }
      s.setF (salvoStat n) F.XPT_SALVO_STAT_COUNT (s.salvos.at n).length

/-- SALVO_APPEND. -/
def execSalvoAppend (r : Req) (dest src : Fin 2048) (s : State) : Out :=
  .next (s.access r .twin true (R0 .XPT_SALVO_ENTRY).addr (w32 (dest + 2 ^ 11 * src)) fun s => s.writeSalvoEntry r dest src)

/-! ## Output timing and loss (R92 to R94, R127) -/

/-- XPT_OUT_OFFSET limited to one frame period, in word periods (R92). -/
def State.clampOffset (s : State) (d : Nat) (v : Int) : Int :=
  let lim : Int := (s.outPlan.at d).fmt.wordPeriods
  max (-lim) (min lim v)

/-- The jump point of an offset delivered at tick `t`: the first frame start of the old or the new timing that lies TAKE_LEAD line periods
after it (R92). -/
def State.jumpPoint (s : State) (d : Nat) (o' : OutTiming) (t : Nat) : Int :=
  let o := s.outs.at d
  let b : Int := (t * tickU : Nat) + s.leadTime s.takeLead d
  min (s.outStart d o (s.outFrameFrom d o b)) (s.outStart d o' (s.outFrameFrom d o' b))

/-- OFFSET_JUMP: at its jump point a newly written OUT_OFFSET comes into force; on a re-timed output it ends the re-timing (R92, R135). -/
def execOffsetJump (d : Fin 1024) (s : State) : Out :=
  let o := s.outs.at d
  match o.offsets with
  | [] => .next s
  | (v, t) :: rest =>
    let o' : OutTiming := { o with offset := v, retimed := none, offsets := rest }
    let j := s.jumpPoint d o' t
    if j ≤ s.cadTime then
      let moved := o'.x ≠ o.x
      let s : State := if moved then s.jumpTo d o' j else { s with outs := s.outs.set d o' }
      let s := if moved then s.outEvt d F.XPT_OUT_STAT_OFFSET_STEP else s
      let s := if o.retimed.isSome then s.seamEvt d F.SEAM_EVT_RETIME else s
      .next (if moved ∧ o.retimed.isSome then s.outEvt d F.XPT_OUT_STAT_TIMING_BREAK else s)
    else .next s

/-- REALIGN_JUMP: at its eligible frame start, which the re-alignment has moved by its share of Δ, a counter jumps, every output slot on it with it; once
every counter has jumped the re-alignment is done (R422). -/
def execRealignJump (c : Fin 32) (s : State) : Out :=
  match s.ref.jumps.find? fun j => j.ctr = c.val ∧ s.startOf c j.index ≤ s.cadTime with
  | none => .next s
  | some j =>
    let s := (s.outsOn c).foldl (fun (s : State) d => s.alignCut c d j.index) s
    let s := s.eachSide fun sd s => (s.outsOn c).foldl (fun s d => s.raise (RS .XPT_OUT_STAT sd d) F.XPT_OUT_STAT_OFFSET_STEP) s
    let s := { s with ref := { s.ref with jumps := s.ref.jumps.filter fun x => x.ctr ≠ c.val } }
    if s.ref.jumps = [] then
      let s := (s.setF (R0 .REF_STAT) F.REF_STAT_ALIGN_PEND 0).raise (R0 .REF_EVT) F.REF_EVT_ALIGN_DONE
      .next (if s.fld (R0 .REF_CMD_RES) F.REF_CMD_RES_STATUS = 1 then s.setF (R0 .REF_CMD_RES) F.REF_CMD_RES_STATUS 2 else s)
    else .next s

/-- The VIDEO words that a line of a store holds, each with its place in the line (R59, R127). -/
def lineVideo (l : List Placed) (f line : Nat) : List (Nat × W32) :=
  (l.filter fun p => p.frame = f ∧ p.line = line ∧ p.mark = 9).flatMap fun p =>
    let first := if p.idx = 0 then 0 else 64 * p.idx - 1
    let ws := p.words.filter fun w => slotTag w = 0
    (List.range ws.length).map fun i => (first + i, ws.getD i 0)

/-- The VIDEO positions of active line `line` of output frame `f` that hold no word when the line is read (R127); a generator writes every block
(R123). -/
def State.lineMissing (s : State) (sd : Side) (d f line : Nat) : Nat :=
  let own := s.ownerAt d f line
  if own.2 = none ∧ 1056 ≤ own.1 then 0
  else
    let v := (s.outPlan.at d).fmt.lineWords
    let got := lineVideo (s.stores.at (2 * d + sd.idx)) f line
    ((List.range v).filter fun i => !got.any fun p => p.1 = i).length

/-- The positions a finished frame did not get in the lines that were read from its source (R127): added to SEAM_FILL. -/
def State.fillFrame (s : State) (sd : Side) (d f : Nat) (h : Shown) : State :=
  let ix := 2 * d + sd.idx
  let fm := (s.outPlan.at d).fmt
  let lines := ((List.range (rasterDims fm.raster).2).map fun i => (activeLine fm i).1).filter fun l =>
    h.back ≤ l ∧ !(h.cut.any fun c => decide (c ≤ l))
  let missing := (lines.map (s.lineMissing sd d f)).sum
  let s : State := { s with stores := s.stores.upd ix fun l => l.filter fun p => f < p.frame }
  if 0 < missing then
    (s.addWrap (RS .SEAM_FILL sd d) missing).raise (RS .SEAM_EVT sd d) F.SEAM_EVT_FILL
  else s

/-- An output follows its source, or repeats it through a Bench under HOLD (R94, R144). -/
def State.shows (s : State) (d : Nat) (c : LossCause) : Bool :=
  decide (c = .none) || (decide (getF (s.twin .XPT_OUT_CFG d) F.XPT_OUT_CFG_LOSS = 1) && (s.routes.at d).bench.isSome)

/-- An output slot starts frame `f` in a Side: the frame before it is closed, and its source or its loss policy is applied (R94, R130). -/
def State.startFrame (s : State) (sd : Side) (d f : Nat) : State :=
  let ix := 2 * d + sd.idx
  let sh : Shown := s.shown.at ix
  let r : Route := s.routes.at d
  let s : State := match sh.frame with
    | some p => if s.shows d sh.cause then s.fillFrame sd d p sh else s
    | none => s
  let now : LossCause := s.lossCause sd d r.src
  let was : LossCause := if sh.hit then .lost else sh.cause
  let cause : LossCause := if now ≠ .none then now else if was ≠ .none ∧ !s.wholeBefore sd d r.src f then was else .none
  let s : State := { s with shown := s.shown.set ix { frame := some f, cause := cause } }
  let s := if cause = .lost ∧ (sh.cause ≠ .lost ∨ sh.hit) then s.raise (RS .XPT_OUT_STAT sd d) F.XPT_OUT_STAT_LOST
    else if cause = .mismatch ∧ sh.cause ≠ .mismatch then s.raise (RS .XPT_OUT_STAT sd d) F.XPT_OUT_STAT_FMT_MISMATCH else s
  if cause ≠ .none ∧ getF (s.twin .XPT_OUT_CFG d) F.XPT_OUT_CFG_LOSS = 1 ∧ r.bench = none then
    s.raise (RS .XPT_OUT_STAT sd d) F.XPT_OUT_STAT_HOLD_NO_BENCH
  else s

/-! ## Capture taps (R95, R96, R114, R115) -/

/-- The first byte of a tap's ring. -/
def capBase (t : Nat) : Nat := 0x400000000 + t * 0x10000000

/-- A whole frame of tap `t` in a Side, which began at cadence frame `fr` of the tap's counter: its four-word header and its words go into the ring,
or OVER is set where they would pass its end. DESIGN CHOICE: the next frame then starts at the ring's first word as the first of DEPTH + 1 frames,
which the spec leaves open for ONESHOT (log entry 117). -/
def State.captureFrame (s : State) (sd : Side) (t code tag : Nat) (fr : Int) (words : List W32) : State :=
  let cfg := s.twin .XPT_CAP_CFG t
  let k := RS .XPT_CAP_STAT sd t
  let c := s.captures.at (2 * t + sd.idx)
  if s.flag k F.XPT_CAP_STAT_DONE then s
  else
    let bytes := 4 * (4 + words.length)
    if 0x10000000 < c.next + bytes then
      ({ s with captures := s.captures.set (2 * t + sd.idx) { c with next := 0, frames := 0 } }).raise k F.XPT_CAP_STAT_OVER
    else
      let hdr := [w32 words.length, w32 (fr.toNat % 2 ^ 32), w32 (code % 16384 * 2 ^ 18 + tag % 256 * 2 ^ 10), 0]
      let s := s.setHbm sd (memPutWords (s.hbm sd) (capBase t + c.next) (hdr ++ words))
      let s := (s.setF k F.XPT_CAP_STAT_TAG tag).setF k F.XPT_CAP_STAT_INDEX c.frames
      let last := decide (getF cfg F.XPT_CAP_CFG_DEPTH ≤ c.frames)
      let s := if last ∧ bitOf cfg 11 then s.setF k F.XPT_CAP_STAT_DONE 1 else s
      let c' : Capture := if last then { c with next := 0, frames := 0 } else { c with next := c.next + bytes, frames := c.frames + 1 }
      { s with captures := s.captures.set (2 * t + sd.idx) c' }

/-- A frame that starts at `t` is written: it began while ENABLE was 1 (R114). -/
def State.captures_ (s : State) (sd : Side) (tap : Nat) (t : Int) : Bool :=
  let c := s.captures.at (2 * tap + sd.idx)
  decide ((c.onAt * tickU : Nat) ≤ t) && (bitOf (s.twin .XPT_CAP_CFG tap) 12 || decide (t < (c.offAt * tickU : Nat)))

/-- The switch point of the last take of a tile feed or capture tap, if one has executed (R95). -/
def State.feedSwitch (s : State) (d : Nat) : Option Int :=
  let r := s.routes.at d
  if r.taken = 0 then none else some (s.cadStart r.cad r.taken)

/-- A frame of source `x` that starts at `t` and ends at `e` reaches a tile feed or a capture tap (R95): one of the current source that starts at or
after the switch point, or one of the source before it that ends before. -/
def State.feedCarries (s : State) (d x : Nat) (t e : Int) : Bool :=
  let r := s.routes.at d
  match s.feedSwitch d with
  | none => decide (x = r.src)
  | some sp => (decide (x = r.src) && decide (sp ≤ t)) || (decide (x = r.prev) && decide (e < sp))

/-- XPT_CAP_CFG as delivered: a 0-to-1 write of ENABLE restarts the ring and clears DONE (R114). -/
def State.capCfgDelivered (s : State) (t : Nat) (v : W32) : State :=
  let old := s.twin .XPT_CAP_CFG t
  let s := s.deliver (R1 .XPT_CAP_CFG t) v
  if !bitOf old 12 ∧ bitOf v 12 then
    s.eachSide fun sd s =>
      ({ s with captures := s.captures.upd (2 * t + sd.idx) fun c => { onAt := s.tick, seen := c.seen } }).setF (RS .XPT_CAP_STAT sd t) F.XPT_CAP_STAT_DONE 0
  else if bitOf old 12 ∧ !bitOf v 12 then
    s.eachSide fun sd s => { s with captures := s.captures.upd (2 * t + sd.idx) fun c => { c with offAt := s.tick } }
  else s

/-- CAPTURE_ENABLE. -/
def execCaptureEnable (r : Req) (t : Fin 64) (v : W32) (s : State) : Out :=
  .next (s.access r .twin (s.holdsDest r (1280 + t)) (R1 .XPT_CAP_CFG t).twinAddr v fun s => s.capCfgDelivered t (v &&& 0x1F1F#32))

end Sys2Proof.Machine
end

