-- ==== Sys2Proof/Machine/Input.lean ====
section
/-!
DEFINITION. Input streams and bank merge (chapter 2), the judgement of the source in use, the Bench's output frames, pins
(R122, R123, R136, R140 to R144), withdrawn slots (R97, R98), and the delivered audio routes (R331, R337).
-/
namespace Sys2Proof.Machine

/-! ## The judgement of the source in use (R122, R123, R136) -/

/-- The command sequencer commits a take of its own, stamped by the lead rule (R97, R136). -/
def State.internalTake (s : State) (d x : Nat) (p : TakePlan) (fallback : Bool) : State :=
  let s := if p.noBench then s.seamEvt d F.SEAM_EVT_BENCH_NONE else s
  s.addTake { owner := .internal, dest := d, src := x, stamp := some (s.groupFrame [d] (s.leadBound s.commitLead) d), bench := p.bench, timing := p.timing, fallback := fallback, cad := s.destCad d, lead := s.commitLead }

/-- Output slot `d` judges a lead of its current source: DRIFT at the first untimed judgement, and after 8 in a row an internal take under
BENCH or SWITCH while no take for `d` is pending (R136). -/
def State.judge (s : State) (d : Nat) (lead : Int) : State :=
  let o := s.outs.at d
  let ok := s.inWindow d lead
  let run := if ok then 0 else o.untimed + 1
  let s := { s with outs := s.outs.set d { o with lead := lead, untimed := run } }
  let s := if !ok && decide (o.untimed = 0) then s.seamEvt d F.SEAM_EVT_DRIFT else s
  if 8 ≤ run ∧ s.untimedPolicy d ≠ 0 ∧ !(s.takes.any fun t => t.dest = d) then
    let x := (s.routes.at d).src
    let q := s.planTake x d
    q.2.internalTake d x q.1 false
  else s

/-- Every output slot whose current route is source `x`, or Bench `via` whatever it reads, judges it by the frame start `t`. -/
def State.judgeAll (s : State) (x : Nat) (via : Option Nat) (t : Int) : State :=
  s.routes.foldl (fun (s : State) p =>
    if p.1 < 1024 ∧ sameSource (p.2.src, p.2.bench) (x, via) then s.judge p.1 (s.leadOf p.1 (s.outs.at p.1) t).1 else s) s

/-! ## Copies of an input (R53 to R57, R61) -/

/-- One bank's copy of an input. -/
def InRx.copy (x : InRx) : Bank → CopyRx
  | .E => x.e
  | .W => x.w

/-- The input with one copy replaced. -/
def InRx.setCopy (x : InRx) (b : Bank) (c : CopyRx) : InRx :=
  match b with
  | .E => { x with e := c }
  | .W => { x with w := c }

/-- One bank's copy of input `n`. -/
def State.copyRx (s : State) (n : Nat) (b : Bank) : CopyRx := (s.inRx.at n).copy b

/-- The state with one copy of input `n` replaced. -/
def State.setCopyRx (s : State) (n : Nat) (b : Bank) (c : CopyRx) : State :=
  { s with inRx := s.inRx.upd n fun x => x.setCopy b c }

/-- The source position of an input slot in a bank. -/
def InPlan.pos (p : InPlan) : Bank → Option SrcPos
  | .E => p.srcE
  | .W => p.srcW

/-- The input slot exists, is the lowest of its group and has a source position in the bank. -/
def State.hasCopy (s : State) (n : Nat) (b : Bank) : Bool := s.srcAllocated n && ((s.inPlan.at n).pos b).isSome

/-- A status bit of an input is set in every Side whose crosspoint works. -/
def State.inBit (s : State) (n : Nat) (f : Fld) : State := s.eachRouting fun sd s => s.raise (RS .XPT_IN_MSTAT sd n) f

/-! ## Words from the converters (R46, R47, R53 to R55) -/

/-- Words of a copy its bank holds ABSENT are discarded up to the next SOF (R61); before the stream's first SOF that is MALFORMED (R46). -/
def State.trimRx (s : State) (n : Nat) (b : Bank) : State :=
  let c := s.copyRx n b
  if c.present then s
  else
    let rest := c.rx.dropWhile fun x => !isType 0 x.w
    let s := if !c.started && decide (rest.length < c.rx.length) then s.inBit n F.XPT_IN_MSTAT_MALFORMED else s
    s.setCopyRx n b { c with rx := rest }

/-- A member of a copy of a bonded group underruns (R54); its buffered words are dropped where `lost`. -/
def State.memberUnder (s : State) (n : Nat) (b : Bank) (m : Nat) (lost : Bool) : State :=
  let c := s.copyRx n b
  let s := if c.under.contains m then s
    else (s.setCopyRx n b { c with under := c.under ++ [m] }).inBit n F.XPT_IN_MSTAT_BOND_UNDERRUN
  let c := s.copyRx n b
  if lost then s.setCopyRx n b { c with members := c.members.set m [] } else s

/-- The members of a copy that deliver. -/
def CopyRx.live (c : CopyRx) (g : Nat) : List Nat := (List.range g).filter fun m => !c.under.contains m

/-- The words buffered for a member. -/
def CopyRx.buf (c : CopyRx) (m : Nat) : List RxWord := c.members.at m

/-- A member of a copy with 1 024 words buffered waits for member `m`, which has none (R54). -/
def CopyRx.waitsFor (c : CopyRx) (g m : Nat) : Bool := (c.buf m).isEmpty && (c.live g).any fun k => decide (1024 ≤ (c.buf k).length)

/-- A converter gives words of slot `n`, which may be a member of a bonded group, in a bank: FILL goes no further, a reserved subtype is FILL
and MALFORMED (R47); a stream of one slot takes the words, a bonded member's buffer holds at most 1 024, those of an underrun member
the latest (R53, R55). -/
def State.pushWords (s : State) (n : Nat) (b : Bank) (ws : List RxWord) : State :=
  let p := s.inPlan.at n
  if (p.pos b).isNone then s
  else
    let low := if p.slots = 1 then n else p.lowest
    let s := if ws.any fun x => isReservedSub x.w then s.inBit low F.XPT_IN_MSTAT_MALFORMED else s
    let ws := ws.filter fun x => slotTag x.w ≠ 3
    let c := s.copyRx low b
    if p.slots = 1 then (s.setCopyRx low b { c with rx := c.rx ++ ws }).trimRx low b
    else
      let m := n - low
      let buf := c.buf m ++ ws
      let buf := if c.under.contains m then buf.drop (buf.length - 1024) else buf
      let c := { c with members := c.members.set m buf }
      let s := s.setCopyRx low b c
      if buf.length ≤ 1024 then s
      else ((c.live p.slots).filter fun k => (c.buf k).isEmpty).foldl (fun (s : State) k => s.memberUnder low b k false) s

/-- A converter gives the words of a source position of a bank, for the slots that it feeds: a Nervor slot channel those of its slot, an SDI lane
or a receive flow its whole stream, distributed over the slots of a group (R52, R53, R261). -/
def State.pushPos (s : State) (b : Bank) (p : SrcPos) (ws : List RxWord) : State :=
  if ws = [] then s
  else s.inPlan.foldl (fun (s : State) e =>
    if e.2.pos b = some p then
      match p with
      | .nervor _ _ => s.pushWords e.1 b ws
      | _ => s.pushWords e.1 b (if e.2.slots = 1 then ws else memberRx e.2.slots (e.1 - e.2.lowest) 0 ws)
    else s) s

/-- The substitute for a word of an underrun member (R54): black within an active line, else an ANC word of zeros. -/
def CopyRx.substitute (c : CopyRx) (f : Fmt) : RxWord :=
  { w := if c.active then blackWord f c.pos else w32 (2 ^ 30), bad := true, time := (c.rx.getLast?.map (·.time)).getD 0 }

/-- What one step of reassembly comes to: nothing to do; the copy with a word more, `spoil` of them substitutes; or members whose MARK does not
match (DESIGN CHOICE, log entry 112: they underrun). -/
inductive BondStep where
  | wait (c : CopyRx)
  | went (c : CopyRx) (spoil : Nat)
  | apart (c : CopyRx) (ms : List Nat)

/-- The MARK group at the front of the members that deliver is taken: one MARK with member index 0, from which the words that follow are counted
(R52, R53); an underrun member in whose buffer the same MARK stands first rejoins (R55), and reassembly waits for that. -/
def CopyRx.takeMark (c : CopyRx) (g : Nat) : BondStep :=
  let live := c.live g
  let cut := live.foldl (fun (ms : SMap (List RxWord)) m => ms.set m ((SMap.at ms m).dropWhile fun x => !isMark x.w)) c.members
  let c := { c with members := cut }
  match (live.map fun m => (m, (c.buf m).head?)) with
  | [] => .wait c
  | (m0, h0) :: _ =>
    match h0 with
    | none => .wait c
    | some h =>
      if live.any fun m => (c.buf m).isEmpty then .wait c
      else
        let odd := live.filter fun m => !((c.buf m).head?.any fun x => sameMark x.w h.w)
        if odd ≠ [] then .apart c (odd.filter fun m => m ≠ m0)
        else if c.under.any fun u => (c.buf u).any fun x => sameMark x.w h.w then .wait c
        else
          let ty := markType h.w
          let w := if ty = 0 ∨ ty = 1 then markWord ty (markLine h.w) (markSpec h.w % 2 ^ 10) else h.w
          let bad := live.any fun m => (c.buf m).head?.any (·.bad)
          let time := live.foldl (fun (t : Int) m => max t (((c.buf m).head?.map (·.time)).getD 0)) 0
          let popped := live.foldl (fun (ms : SMap (List RxWord)) m => ms.set m ((SMap.at ms m).drop 1)) c.members
          .went { c with
            members := popped, turn := 0, pos := 0, active := ty = 2
            left := if ty = 2 then markSpec h.w else if ty = 5 then markSpec h.w % 2 ^ 13 else 0
            rx := c.rx ++ [{ w := w, bad := bad, time := time }] } 0

/-- One step of the reassembly of a copy of `g` members (R52 to R54): the next word in round-robin order, a substitute in the place of an underrun
member's, or the next MARK group. -/
def CopyRx.bondStep (c : CopyRx) (g : Nat) (f : Fmt) : BondStep :=
  let live := c.live g
  let m := c.turn % max 1 g
  let atMark (k : Nat) : Bool := (c.buf k).head?.any fun x => isMark x.w
  let went (x : RxWord) (c : CopyRx) (k : Nat) : BondStep :=
    .went { c with turn := (m + 1) % max 1 g, pos := c.pos + 1, left := c.left - 1, rx := c.rx ++ [x] } k
  if live = [] then .wait c
  else if live.all atMark then c.takeMark g
  else if c.under.contains m then
    if 0 < c.left then went (c.substitute f) c 1
    else if live.any fun k => !(c.buf k).isEmpty && !atMark k then .went { c with turn := (m + 1) % max 1 g } 0
    else .wait c
  else
    match c.buf m with
    | [] => .wait c
    | h :: t => if isMark h.w then c.takeMark g else went h { c with members := c.members.set m t } 0

/-- Reassembly as far as it goes. -/
def State.bondRun (g n : Nat) (b : Bank) : Nat → State → State
  | 0, s => s
  | fuel + 1, s =>
    match (s.copyRx n b).bondStep g (s.inRx.at n).fmt with
    | .wait c => s.setCopyRx n b c
    | .went c k => State.bondRun g n b fuel ((s.setCopyRx n b c).eachRouting fun sd s => s.addWrap (RS .XPT_IN_BSPOIL sd n) k)
    | .apart c ms => State.bondRun g n b fuel (ms.foldl (fun (s : State) m => s.memberUnder n b m false) (s.setCopyRx n b c))

/-- The bank reassembles a bonded copy before the fan-out (R53). -/
def State.reassemble (s : State) (n : Nat) (b : Bank) : State :=
  let g := (s.inPlan.at n).slots
  if g = 1 then s
  else
    let c := s.copyRx n b
    let held := c.members.foldl (fun k p => k + p.2.length) 0
    (State.bondRun g n b ((held + 2) * (g + 1)) s).trimRx n b

/-! ## The merge procedure (R58 to R64) -/

/-- One copy of a merge. -/
def Merge.copy (m : Merge) : Bank → MergeQ
  | .E => m.e
  | .W => m.w

/-- The merge with one copy replaced. -/
def Merge.setCopy (m : Merge) (b : Bank) (q : MergeQ) : Merge :=
  match b with
  | .E => { m with e := q }
  | .W => { m with w := q }

/-- The source position is an SDI lane. -/
def SrcPos.isSdi : SrcPos → Bool
  | .sdi _ => true
  | _ => false

/-- The bank-selection mode of an input (R58, R65); an input fed from an SDI lane is single-homed in that lane's bank (R22). -/
def State.inMode (s : State) (n : Nat) : Nat :=
  let p := s.inPlan.at n
  if p.srcE.any SrcPos.isSdi then 3 else if p.srcW.any SrcPos.isSdi then 4 else getF (s.twin .XPT_IN_CFG n) F.XPT_IN_CFG_MODE

/-- The mode excludes a copy. -/
def excludes (mode : Nat) : Bank → Bool
  | .E => mode = 4
  | .W => mode = 3

/-- Two keys of one frame: the SOF block first, then line, then the MARK's place in its line, then index (R59). -/
def Block.beforeInFrame (a b : Block) : Bool :=
  if a.sof != b.sof then a.sof
  else decide (a.line < b.line) || (decide (a.line = b.line) &&
    (decide (a.mark < b.mark) || (decide (a.mark = b.mark) && decide (a.idx < b.idx))))

/-- Frame tag `a` is later than `b` (R43). -/
def tagLater (a b : Nat) : Bool := let d := (a + 256 - b % 256) % 256; decide (1 ≤ d) && decide (d ≤ 127)

/-- The key of `a` comes before or equals that of `b` (R59); tags exactly 128 apart are unordered. -/
def Block.keyLe (a b : Block) : Bool :=
  if a.tag = b.tag then !b.beforeInFrame a else tagLater b.tag a.tag

/-- Which of two head keys is decided first; with tags 128 apart, the one fewer frames after the last key decided, else Bank E's (R62). -/
def firstHead (last : Option Block) (e w : Block) : Block :=
  if (e.tag + 256 - w.tag) % 256 = 128 then
    match last with
    | none => e
    | some l => if (e.tag + 256 - l.tag) % 256 ≤ (w.tag + 256 - l.tag) % 256 then e else w
  else if e.keyLe w then e else w

/-- What merge takes when a copy has the key: the table of R58. -/
def choose (mode : Nat) (e w : Option Block) : Option (Bank × Block) :=
  let pe := e.map fun x => (Bank.E, x)
  let pw := w.map fun x => (Bank.W, x)
  let isGood (o : Option Block) : Bool := match o with
    | some x => x.good
    | none => false
  match mode with
  | 1 => pe.orElse fun _ => pw
  | 2 => pw.orElse fun _ => pe
  | 3 => pe
  | 4 => pw
  | _ => if isGood e then pe else if isGood w then pw else pe.orElse fun _ => pw

/-- The Seam write port reads one word: what it is inside of, and whether the word is discarded as MALFORMED (R46, R47). -/
def readWord (m : Merge) (x : W32) : Merge × Bool :=
  match slotTag x with
  | 0 => (m, !m.active)
  | 1 => ({ m with anc := m.anc - 1 }, decide (m.anc = 0))
  | 2 =>
    match markType x with
    | 2 => ({ m with active := true, anc := 0 }, false)
    | 5 => ({ m with active := false, anc := x.toNat % 2 ^ 13 }, false)
    | 4 => (m, false)
    | 6 => (m, false)
    | _ => ({ m with active := false, anc := 0 }, false)
  | _ => (m, decide (2 ≤ x.toNat / 2 ^ 26 % 16))

/-- The Seam write port reads the words of an emitted block: its new state, the words it keeps and whether it discarded any. -/
def readWords (m : Merge) (ws : List W32) : Merge × List W32 × Bool :=
  ws.foldl (fun p x =>
    let q := readWord p.1 x
    (q.1, if q.2 then p.2.1 else p.2.1 ++ [x], p.2.2 || q.2)) (m, [], false)

/-- What a merge's run leaves behind beside its own state: MSTAT bits, the blocks counted in XPT_IN_LOST, whether a frame became whole, and the
blocks put to the crosspoint. -/
structure MergeOut where
  m     : Merge
  bits  : W32 := 0
  lost  : Nat := 0
  ended : Bool := false
  outs  : List Block := []

/-- The MSTAT bit of a bank's use. -/
def usedBit : Bank → W32
  | .E => F.XPT_IN_MSTAT_USED_E.mask
  | .W => F.XPT_IN_MSTAT_USED_W.mask

/-- A block goes to the crosspoint with its effective stamp (R94: a frame is whole when emitted from its SOF to its EOF; R124). -/
def MergeOut.emitBlock (o : MergeOut) (p : Bank × Block) (eff : Nat) (now : Int) : MergeOut :=
  let r := readWords o.m p.2.words
  let inF := p.2.sof || r.1.inFrame
  let fin := inF && p.2.eof
  { o with
    m := { r.1 with emitted := some p, inFrame := inF && !p.2.eof, whole := if fin then some now else r.1.whole }
    bits := o.bits ||| usedBit p.1 ||| (if r.2.2 then F.XPT_IN_MSTAT_MALFORMED.mask else 0)
    ended := o.ended || fin
    outs := o.outs ++ [{ p.2 with words := r.2.1, stamp := eff }] }

/-- The effective stamp of a decision: the latest stamp among the head blocks and ABSENT words examined (R124). -/
def Merge.effStamp (m : Merge) (mode : Nat) : Nat :=
  let of (b : Bank) (q : MergeQ) : Nat :=
    if excludes mode b then 0 else if q.absent then q.absentAt else (q.q.head?.map (·.stamp)).getD 0
  max (of .E m.e) (of .W m.w)

/-- One key is decided (R62). -/
def MergeOut.decide_ (o : MergeOut) (mode : Nat) (k : Block) (now : Int) : MergeOut :=
  let has (q : MergeQ) : Option Block := q.q.head?.filter fun x => x.keyLe k && k.keyLe x
  let e := if excludes mode .E then none else has o.m.e
  let w := if excludes mode .W then none else has o.m.w
  let good (x : Option Block) : Bool := match x with
    | some x => x.good
    | none => false
  let anyGood := good e || good w
  let differ := good e && good w && decide (crc32w ((e.map (·.words)).getD []) ≠ crc32w ((w.map (·.words)).getD []))
  let eff := o.m.effStamp mode
  let o := match choose mode e w with
    | some p => o.emitBlock p eff now
    | none => o
  let drop (q : MergeQ) : MergeQ := { q with q := q.q.filter fun x => !x.keyLe k }
  { o with
    m := { o.m with e := drop o.m.e, w := drop o.m.w, last := some k }
    lost := o.lost + b2n (!anyGood)
    bits := o.bits ||| (if anyGood then 0 else F.XPT_IN_MSTAT_LOST.mask) ||| (if differ then F.XPT_IN_MSTAT_DIFFER.mask else 0) }

/-- The merge procedure, from one wait to the next (R62); `fuel` bounds the blocks held. -/
def MergeOut.run (mode : Nat) (now : Int) : Nat → MergeOut → MergeOut
  | 0, o => o
  | fuel + 1, o =>
    let out (b : Bank) : Bool := excludes mode b || (o.m.copy b).absent
    if out .E && out .W then
      if o.m.lost then o
      else { o with m := { o.m with lost := true, last := none, inFrame := false, whole := none }, bits := o.bits ||| F.XPT_IN_MSTAT_LOST.mask }
    else
      match out .E, o.m.e.q, out .W, o.m.w.q with
      | true, _, _, w :: _ => MergeOut.run mode now fuel (o.decide_ mode w now)
      | _, e :: _, true, _ => MergeOut.run mode now fuel (o.decide_ mode e now)
      | false, e :: _, false, w :: _ => MergeOut.run mode now fuel (o.decide_ mode (firstHead o.m.last e w) now)
      | _, _, _, _ => o

/-- The destinations that take the blocks of input `n` directly: by their current route, by the route before it, or by a pending take (R129). -/
def State.takers (s : State) (n : Nat) : List Nat :=
  let now := (s.routes.filter fun p => (p.2.src = n ∧ p.2.bench = none) ∨ (p.2.prev = n ∧ p.2.prevBench = none)).map (·.1)
  (now ++ (s.takes.filter fun (t : Pending) => t.src = n ∧ t.bench = none).map (·.dest)).eraseDups

/-- A block of input `n` leaves merge for its destinations, and for the Benches that read the input (R129, R137), with the input timing stamp of
its frame (R24). -/
def State.crosspoint (s : State) (sd : Side) (n : Nat) (k : Block) : State :=
  let at_ := (((s.inRx.at n).stamps.find? fun p => p.1 = k.tag).map (·.2)).getD k.sofAt
  let k := { k with sofAt := at_ }
  let s := s.audTake sd n k
  let s := (s.takers n).foldl (fun (s : State) d => s.feed sd d { src := n, blk := k }) s
  s.benches.foldl (fun (s : State) p => if p.2.st ≠ .free ∧ p.2.input = n then s.benchTake sd p.1 k else s) s

/-- The outputs of a Side whose source an input is are marked as having lost it in their frame in progress (R130). -/
def State.markLoss (s : State) (sd : Side) (n : Nat) : State :=
  s.routes.foldl (fun (s : State) p =>
    if p.1 < 1024 ∧ p.2.src = n then { s with shown := s.shown.upd (2 * p.1 + sd.idx) fun h => { h with hit := true } } else s) s

/-- The merge of input `n` in a Side proceeds as far as it can; its status, counts and consequences follow. -/
def State.mergeRun (s : State) (sd : Side) (n : Nat) (m : Merge) (bits : W32) : State :=
  let mode := s.inMode n
  let shut (b : Bank) (m : Merge) : Merge := if excludes mode b then m.setCopy b {} else m
  let m := shut .W (shut .E m)
  let o := MergeOut.run mode s.cadTime (m.e.q.length + m.w.q.length + 2) { m := m, bits := bits }
  let wasLost := (s.merges.at (2 * n + sd.idx)).lost
  let s := { s with merges := s.merges.set (2 * n + sd.idx) o.m }
  let s := (s.addWrap (RS .XPT_IN_LOST sd n) o.lost).raiseW (RS .XPT_IN_MSTAT sd n) o.bits
  let s := o.outs.foldl (fun (s : State) k => s.crosspoint sd n k) s
  if o.m.lost ∧ !wasLost then
    s.benches.foldl (fun (s : State) p => if p.2.input = n then s.benchHold p.1 else s) (s.markLoss sd n)
  else s

/-- The words held in a copy's queue. -/
def MergeQ.held (q : MergeQ) : Nat := q.q.foldl (fun n b => n + b.words.length) 0

/-- A block, or an ABSENT word, of one copy reaches a Side's merge (R61 to R64). -/
def State.mergeArrive (s : State) (sd : Side) (n : Nat) (b : Bank) (x : Option Block) : State :=
  let m := s.merges.at (2 * n + sd.idx)
  match x with
  | none => s.mergeRun sd n (m.setCopy b { absentAt := s.tick }) 0
  | some k =>
    let q := m.copy b
    let mode := s.inMode n
    let bad := if k.good then 0 else if b = .E then F.XPT_IN_MSTAT_BAD_E.mask else F.XPT_IN_MSTAT_BAD_W.mask
    if excludes mode b ∨ ((q.absent ∨ m.lost) ∧ !k.sof) then s.raiseW (RS .XPT_IN_MSTAT sd n) bad
    else
      let q := if q.absent then { absent := false, q := [k] } else { q with q := q.q ++ [k] }
      let m := { (m.setCopy b q) with lost := false }
      let other := m.copy b.other
      let overflow := decide (4096 * (s.inPlan.at n).slots < q.held) && !excludes mode b.other && !other.absent && other.q.isEmpty
      let m := if overflow then m.setCopy b.other {} else m
      s.mergeRun sd n m (bad ||| if overflow then F.XPT_IN_MSTAT_MERGE_OVF.mask else 0)

/-- The MSTAT bit of a declared absence. -/
def absentBit : Bank → W32
  | .E => F.XPT_IN_MSTAT_ABSENT_E.mask
  | .W => F.XPT_IN_MSTAT_ABSENT_W.mask

/-- The receive flow whose copy a source position is reports that the copy was declared ABSENT (R319). -/
def State.flowAbsent (s : State) (b : Bank) : Option SrcPos → State
  | some (.flow r) => s.flowCopyAbsent r b
  | _ => s

/-- The receive logic of a bank declares a copy ABSENT; its words not yet cut go, and the ABSENT word reaches merge in every Side that runs
(R61). -/
def State.copyAbsent (s : State) (n : Nat) (b : Bank) : State :=
  let c := s.copyRx n b
  if c.present then
    let s := s.flowAbsent b ((s.inPlan.at n).pos b)
    let s := s.setCopyRx n b { c with present := false, rx := [], sofDone := false, cut := {} }
    s.eachRouting fun sd s => (s.raiseW (RS .XPT_IN_MSTAT sd n) (absentBit b)).mergeArrive sd n b none
  else s

/-- Phase of an SOF stamp against the input's cadence counter, to 1/16 tick (R57). -/
def State.phaseOf (s : State) (n : Nat) (stamp : Int) : Int :=
  let c := s.cadOf (getF (s.twin .XPT_IN_CFG n) F.XPT_IN_CFG_CADENCE)
  wrapHalf (stamp - s.cadStart c (s.cadFrameAt c stamp)) (s.cadFmt c).period / sixteenth * sixteenth

/-- A frame of another format begins: no frame of it is whole yet (R94). -/
def State.forgetWhole (s : State) (n : Nat) : State :=
  { s with merges := (s.merges.upd (2 * n) fun m => { m with whole := none }).upd (2 * n + 1) fun m => { m with whole := none } }

/-- The stamps of an input's frames after that of the frame of a tag: a frame has one, the leading copy's (R57). -/
def noteStamp (l : List (Nat × Int)) (tag : Nat) (t : Int) : List (Nat × Int) :=
  if l.any fun p => p.1 = tag then l.map fun p => if p.1 = tag then (tag, t) else p else ((tag, t) :: l).take 17

/-- An SOF of one copy, of format `f` and frame tag `tag`, stamped `stamp`: the format is judged (R50), the copy leaves ABSENT (R61), the phase and
period are measured from the Bank E copy while it is present and from Bank W's otherwise (R57), and the outputs that show the input judge it
(R122). -/
def State.sofArrives (s : State) (n : Nat) (b : Bank) (f : Fmt) (tag : Nat) (stamp : Int) : State :=
  let x := s.inRx.at n
  let g := (s.inPlan.at n).slots
  let fits := f.carried g
  let anyBefore := x.e.present || x.w.present
  let leads := (b = .E || !x.e.present) && fits
  let c := x.copy b
  let c' := if fits then { c with
      present := true, started := true, sofDone := true, lastAt := if c.present then c.lastAt else (stamp / tickU).toNat }
    else { c with started := true }
  let stamps := if !leads then x.stamps else if anyBefore then noteStamp x.stamps tag stamp else [(tag, stamp)]
  let base := if stamps.length = 17 then (stamps.find? fun p => p.1 = (tag + 240) % 256).map (·.2) else none
  let period := match base with
    | some t => stamp - t
    | none => if anyBefore then x.period else 0
  let x' := { x.setCopy b c' with
    fmt := f, slots := g, stamps := stamps
    phase := if leads then s.phaseOf n stamp else x.phase, period := if leads then period else x.period }
  let s := { s with inRx := s.inRx.set n x' }
  let s := if x.slots ≠ 0 ∧ x.fmt ≠ f then (s.forgetWhole n).inBit n F.XPT_IN_MSTAT_FMT_CHANGE else s
  if !fits then
    let rest := (x.copy b).rx.drop 1
    let s := (s.inBit n F.XPT_IN_MSTAT_SIZE_ERR).copyAbsent n b
    (s.setCopyRx n b { s.copyRx n b with rx := rest }).trimRx n b
  else if leads then s.judgeAll n none stamp else s

/-- The SOF at the front of a copy's words that has not been measured yet, with the word after it. -/
def CopyRx.newSof (c : CopyRx) : Option (RxWord × RxWord) :=
  match c.rx with
  | h :: g :: _ => if isType 0 h.w && !c.sofDone then some (h, g) else none
  | _ => none

/-- INPUT_SOF: the SOF that stands at the front of a copy's words is stamped to 1/16 tick (R24) and its frame's format taken from the FORMAT marker
that follows (R44, R50); a frame without one keeps the format before it (DESIGN CHOICE, log entry 113). -/
def execInputSof (n : Fin 1024) (b : Bank) (s : State) : Out :=
  if !s.hasCopy n b then .next s
  else
    let s := s.reassemble n b
    match (s.copyRx n b).newSof with
    | some (h, g) =>
      let code := if isType 6 g.w then markSpec g.w else (s.inRx.at n).fmt.code
      .next (s.sofArrives n b { code := code, il := bitOf h.w 1, seg := bitOf h.w 0 } (markSpec h.w / 4 % 256)
        (h.time / sixteenth * sixteenth))
    | none => .next s

/-- MERGE_BLOCK: the next block of a copy is cut and reaches merge; an SOF's once it has been measured. Words of a copy that its bank holds
ABSENT never do (R59 to R62), nor does a block of which no word was received (R291). -/
def execMergeBlock (n : Fin 1024) (b : Bank) (s : State) : Out :=
  if !s.hasCopy n b then .next s
  else
    let s := s.reassemble n b
    let c := s.copyRx n b
    if !c.present || c.newSof.isSome then .next s
    else
      let at_ := (((s.inRx.at n).stamps.head?).map (·.2)).getD 0
      match cutBlock c.cut at_ c.rx with
      | some (k, rest, cut) =>
        let gone := (takeBlock c.rx).any fun p => unreceived p.1
        let s := s.setCopyRx n b { c with
          rx := rest, cut := cut, lastAt := if gone then c.lastAt else k.stamp, sofDone := c.sofDone && !k.sof }
        if gone then .next s else .next (s.eachRouting fun sd s => s.mergeArrive sd n b (some k))
      | none => .next s

/-- GAP of an input in ticks; 0 is treated as 1 µs (R65). -/
def State.gapTicks (s : State) (n : Nat) : Nat := max 1 (getF (s.twin .XPT_IN_CFG n) F.XPT_IN_CFG_GAP) * usTicks

/-- GAP_TIMEOUT: no block of the copy has been complete for GAP microseconds (R61). -/
def execGapTimeout (n : Fin 1024) (b : Bank) (s : State) : Out :=
  let c := s.copyRx n b
  if c.present ∧ lastComplete c.rx.length c.rx c.lastAt + s.gapTicks n ≤ s.tick then .next (s.copyAbsent n b) else .next s

/-! ## Bonded members (R54, R55) -/

/-- BOND_UNDERRUN: another member has 1 024 words buffered waiting for the member (R54); a lost source position underruns its member at once. -/
def execBondUnderrun (n : Fin 1024) (b : Bank) (m : Fin 16) (s : State) : Out :=
  let g := (s.inPlan.at n).slots
  if s.hasCopy n b ∧ 1 < g ∧ m < g ∧ (s.copyRx n b).waitsFor g m then .next (s.memberUnder n b m false) else .next s

/-- The MARK that the members that deliver have reached. -/
def CopyRx.mark (c : CopyRx) (g : Nat) : Option W32 :=
  let heads := (c.live g).map fun m => (c.buf m).head?.filter fun x => isMark x.w
  match heads with
  | some h :: t => if t.all fun o => o.any fun x => sameMark x.w h.w then some h.w else none
  | _ => none

/-- BOND_REJOIN: at a MARK group that its own MARK matches, an underrun member delivers again, from that MARK on (R55). -/
def execBondRejoin (n : Fin 1024) (b : Bank) (m : Fin 16) (s : State) : Out :=
  let g := (s.inPlan.at n).slots
  if s.hasCopy n b ∧ 1 < g then
    let s := s.reassemble n b
    let c := s.copyRx n b
    match c.mark g with
    | some w =>
      let rest := (c.buf m).dropWhile fun x => !sameMark x.w w
      if c.under.contains m.val ∧ rest ≠ [] then
        .next (s.setCopyRx n b { c with under := c.under.filter fun y => y ≠ m.val, members := c.members.set m rest })
      else .next s
    | none => .next s
  else .next s

/-- The source position of slot `n` in a bank is lost: a stream of one slot goes ABSENT, a member of a bonded group underruns (R54, R61). -/
def State.posLost (s : State) (n : Nat) (b : Bank) : State :=
  let p := s.inPlan.at n
  if p.slots = 1 then s.copyAbsent n b else s.memberUnder p.lowest b (n - p.lowest) true

/-- Every input slot whose source position in some bank satisfies `f` loses it. -/
def State.posLostWhere (s : State) (f : Bank → SrcPos → Bool) : State :=
  s.inPlan.foldl (fun (s : State) p =>
    let s := if p.2.srcE.any (f .E) then s.posLost p.1 .E else s
    if p.2.srcW.any (f .W) then s.posLost p.1 .W else s) s

/-- The source positions of a lane are ABSENT (R211, R221, R245). -/
def State.laneLost (s : State) (n : Nat) : State := s.posLostWhere fun b p => s.posOnLane n b p

/-- XPT_IN_CFG[n] as delivered: a new MODE takes effect on what merge holds (R58, R62). -/
def State.inCfgDelivered (s : State) (n : Nat) (v : W32) : State :=
  let s := s.deliver (R1 .XPT_IN_CFG n) v
  s.eachRouting fun sd s => s.mergeRun sd n (s.merges.at (2 * n + sd.idx)) 0

/-! ## The Bench's output frames and pins (R140, R142 to R144) -/

/-- BENCH_FRAME_START: at O(k) the Bench emits its chosen frame; it repeats the frame shown last, or is black while PRIMING, where none
was chosen (R142 to R144); before its context has started it emits nothing (R558). The outputs routed through it judge its copy (R123). -/
def execBenchFrameStart (b : Fin 1024) (s : State) : Out :=
  let q := s.benches.at b
  let t := s.benchStart q q.k
  if q.st = .free ∨ s.cadTime < t then .next s
  else if t < (s.engStart 0 b * tickU : Nat) then .next { s with benches := s.benches.set b { q with k := q.k + 1, decided := none } }
  else
    let give (s : State) (ks : Side → List Block) : State := s.eachRouting fun sd s => s.benchGive sd b (ks sd)
    let q := { q with k := q.k + 1, startAt := t }
    let s := match q.decided.getD none, q.repeats with
      | some i, _ =>
        let q' := { q with
          bufs := q.bufs.modify i fun x => { x with shown := true }, shown := some i, before := q.shown, decided := none
          lastSeq := if q.st = BenchState.holding then none else some (q.bufs.getD i {}).seq }
        give { s with benches := s.benches.set b q' } fun sd => s.benchMem.at (benchIx b sd i)
      | none, some i =>
        let s := { s with benches := s.benches.set b { q with decided := none, shown := some i } }
        (give s fun sd => repeatBlocks (s.benchMem.at (benchIx b sd i))).benchRepeat b
      | none, none =>
        let f := s.cadFmt q.cad
        let s := { s with benches := s.benches.set b { q with decided := none } }
        (give s fun _ => frameBlocks f t (blackFrame f (q.k - 1))).benchEvt b F.FSY_EVT_START
    .next (s.judgeAll q.input (some b) t)

/-- The requester owns Bench `b`; a Bench outside every range has no owner. -/
def State.holdsBench (s : State) (r : Req) (b : Nat) : Bool :=
  inRanges (s.rightsOf r).benches b || (s.allRights r && s.rights.any fun p => inRanges p.2.benches b)

/-- The input a pin names is the lowest slot of its stream and has a source position (R140). -/
def State.pinInput (s : State) (n : Nat) : Bool :=
  s.srcAllocated n && ((s.inPlan.at n).srcE.isSome || (s.inPlan.at n).srcW.isSome)

/-- FSY_CFG[b] and FSY_PHASE[b] as delivered: the Bench is pinned, re-targeted or unpinned, or the write is ignored (R140). DESIGN CHOICE: a pin
that exceeds the limit of contexts alone is refused with NO_UNITS too, which the spec gives for units and pages (log entry 143). -/
def State.fsyDelivered (s : State) (b : Nat) (cfg phase : W32) : State :=
  let store (s : State) : State := (s.deliver (R1 .FSY_CFG b) cfg).deliver (R1 .FSY_PHASE b) phase
  let q := s.benches.at b
  let n := getF cfg F.FSY_CFG_INPUT
  let c := s.cadOf (getF cfg F.FSY_CFG_CADENCE)
  let ph := 32 * sext 26 phase.toNat
  let units := s.benchUnits n c
  let pages := s.benchPages c
  if q.st ≠ .free ∧ q.auto then s.benchEvt b F.FSY_EVT_WR_BUSY
  else if q.st = .free then
    if getF cfg F.FSY_CFG_PIN = 0 then store s
    else if !s.pinInput n then s.benchEvt b F.FSY_EVT_BAD_INPUT
    else if s.benchPlan.units < s.unitsUsed + units ∨ s.benchPlan.pages < s.pagesUsed + pages ∨
        s.benchPlan.contexts < s.contextsUsed + 1 then s.benchEvt b F.FSY_EVT_NO_UNITS
    else (store s).benchAlloc b false n c ph
  else if q.input = n ∧ q.cad = c ∧ q.phase = ph then (store s).benchRelease b
  else if q.input ≠ n ∧ !s.pinInput n then s.benchEvt b F.FSY_EVT_BAD_INPUT
  else if s.benchPlan.units < s.unitsUsed - q.units + units ∨ s.benchPlan.pages < s.pagesUsed - q.pages + pages then
    s.benchEvt b F.FSY_EVT_NO_UNITS
  else ((store s).benchAlloc b false n c ph).benchRelease b

/-- FSY_CFG_WRITE: a write of FSY_CFG by the owner of the Bench, as delivered. -/
def execFsyCfgWrite (r : Req) (b : Fin 1024) (v : W32) (s : State) : Out :=
  .next (s.access r .twin (s.holdsBench r b) (R1 .FSY_CFG b).twinAddr v fun s =>
    s.fsyDelivered b (v &&& 0xFFFF#32) (s.twin .FSY_PHASE b))

/-! ## Withdrawn slots (R97, R98) -/

/-- The fallback source of a destination (R97). -/
def State.fallbackOf (s : State) (d : Nat) : Nat :=
  if d < 1024 then 1056 + getF (s.twin .XPT_OUT_CFG d) F.XPT_OUT_CFG_FALLBACK else 1056

/-- SLOT_PLAN has changed from that of `s0`: pending takes of withdrawn destinations are discarded, those of withdrawn sources execute with
the fallback in its place, and every destination whose source has now been withdrawn is taken to its fallback (R97). -/
def State.withdraw (s s0 : State) : State :=
  let s := (s.takes.filter fun t => s.destWithdrawn t.dest).foldl State.takeLeave s
  let hit := s.takes.filter fun t => s.srcWithdrawn t.src
  let s := { s with takes := s.takes.map fun t =>
      if s.srcWithdrawn t.src then { t with src := s.fallbackOf t.dest, bench := none, timing := .keep, fallback := true } else t }
  let s := hit.foldl (fun (s : State) t => s.benchReleaseOf t.bench) s
  s.routes.foldl (fun (s : State) p =>
    if s.srcWithdrawn p.2.src ∧ !s0.srcWithdrawn p.2.src then s.internalTake p.1 (s.fallbackOf p.1) {} true else s) s

/-! ## Delivered audio routes (R331, R337) -/

/-- The requester holds the destination of an audio channel: its output slot, its transmit flow or its TDM port (R348). -/
def State.holdsAudDst (s : State) (r : Req) (c : Nat) : Bool :=
  let x := s.audDst.at c
  s.allRights r || (match x.kind with
    | 1 => s.holdsDest r x.owner
    | 2 => inRanges (s.rightsOf r).txFlows x.owner
    | 3 => s.holdsTdm r x.owner
    | _ => false)

/-- AUD_ROUTE_CHANGE: a write of AUD_ROUTE[c] by the channel's holder, as delivered. -/
def execAudRouteChange (r : Req) (c : Fin 16384) (v : W32) (s : State) : Out :=
  .next (s.access r .twin (s.holdsAudDst r c) (R1 .AUD_ROUTE c).twinAddr v fun s =>
    (s.deliver (R1 .AUD_ROUTE c) (v &&& 0xFFFF#32)).audRouteDelivered c)

/-- AUD_DELAY_CHANGE: a write of AUD_DELAY[c] by the channel's holder, as delivered. -/
def execAudDelayChange (r : Req) (c : Fin 16384) (v : W32) (s : State) : Out :=
  .next (s.access r .twin (s.holdsAudDst r c) (R1 .AUD_DELAY c).twinAddr v fun s =>
    (s.deliver (R1 .AUD_DELAY c) (v &&& 0x1FFFF#32)).audDelayDelivered c)

end Sys2Proof.Machine
end

