-- ==== Sys2Proof/Machine/Generator.lean ====
section
/-!
DEFINITION. The generators' patterns (R71, R72), and the frames that capture taps write (R96).
-/
namespace Sys2Proof.Machine

/-- A 10-bit code at another depth (R72). -/
def depthCode (depth c : Nat) : Nat := if depth < 10 then c / 2 ^ (10 - depth) else c * 2 ^ (depth - 10)

/-- The samples of one row of `width` pixels, each given as its 10-bit Y′, C′b, C′r or G′, B′, R′ codes, in the order of R41. -/
def rowSamples (f : Fmt) (pix : Nat → Nat × Nat × Nat) : List Nat :=
  let width := (rasterDims f.raster).1
  ((List.range width).flatMap fun x =>
    let p := pix x
    match f.sampling with
    | 0 => [if x % 2 = 0 then p.2.1 else p.2.2, p.1]
    | 1 => [p.2.1, p.1, p.2.2]
    | _ => [p.2.2, p.1, p.2.1]).map (depthCode f.depth)

/-- A pixel of level `y` without colour. -/
def grey (f : Fmt) (y : Nat) : Nat × Nat × Nat := if f.sampling = 2 then (y, y, y) else (y, 0x200, 0x200)

/-- A row of the ramp at the format's own depth: luma from black, 0x040, to white, 0x3AC, linearly across the active width, chroma at the zero code
(R72); where the line passes between two codes, which of them is not given. -/
def rampRow (f : Fmt) : List Nat :=
  let width := (rasterDims f.raster).1
  let k (c : Nat) : Nat := depthCode f.depth c
  let luma (x : Nat) : Nat :=
    let n := (k 0x3AC - k 0x40) * x
    let d := max 1 (width - 1)
    k 0x40 + n / d + (if n % d = 0 then 0 else b2n (Config.rampUp f.code x))
  (List.range width).flatMap fun x =>
    match f.sampling with
    | 0 => [k 0x200, luma x]
    | 1 => [k 0x200, luma x, k 0x200]
    | _ => [luma x, luma x, luma x]

/-- The 64 bits of the frame-identity code of generator `g` in frame `k` (R72). -/
def identityBits (g k code : Nat) : List Bool :=
  let v := g % 2 ^ 6 * 2 ^ 46 + k % 2 ^ 32 * 2 ^ 14 + code % 2 ^ 14
  bitsMsb 64 (v * 2 ^ 12 + (Config.identityCrc v).toNat)

/-- TYPE as it acts: 6 and 7 are black. -/
def genType (ctl : W32) : Nat := if 6 ≤ getF ctl F.XPT_GEN_CTL_TYPE then 0 else getF ctl F.XPT_GEN_CTL_TYPE

/-- The samples of active row `i` of generator `g` in frame `k`. -/
def State.genRow (s : State) (g : Nat) (f : Fmt) (k i : Nat) : List Nat :=
  let ctl := s.twin .XPT_GEN_CTL g
  let lvl := (s.twin .XPT_GEN_LEVEL g).toNat
  match genType ctl with
  | 1 => Config.barsRow f.code i
  | 2 => rampRow f
  | 3 => rowSamples f fun _ => (lvl / 2 ^ 20 % 2 ^ 10, lvl / 2 ^ 10 % 2 ^ 10, lvl % 2 ^ 10)
  | 4 =>
    let bits := identityBits g k f.code
    rowSamples f fun x => grey f (if i < 8 ∧ bits.getD (x * 64 / (rasterDims f.raster).1) false = true then 0x3AC else 0x40)
  | _ => rowSamples f fun _ => grey f 0x40

/-- The format a generator produces for a capture tap (R71); 525 and 625 lines are interlaced (R49). -/
def State.genFmt (s : State) (g : Nat) : Fmt :=
  let c := getF (s.twin .XPT_GEN_CTL g) F.XPT_GEN_CTL_FORMAT
  let f : Fmt := { code := if c = 0 then 0x891 else c }
  { f with il := f.raster = 1 || f.raster = 2 }

/-- The VIDEO words of the i-th active line of a generator in frame `k`. -/
def State.genVideo (s : State) (g : Nat) (f : Fmt) (k i : Nat) : List W32 :=
  packBits f.lineWords ((s.genRow g f k (activeLine f i).2).flatMap fun v => bitsMsb f.depth v)

/-- The generator embeds its tone (R72). -/
def State.genTone (s : State) (g : Nat) : Bool := bitOf (s.twin .XPT_GEN_CTL g) 3 || genType (s.twin .XPT_GEN_CTL g) = 5

/-- The ancillary packets of line `l` of a generator's frame `k`: those of its tone in four audio groups (R72). -/
def State.genPackets (s : State) (g : Nat) (f : Fmt) (k l : Nat) : List (List Nat) :=
  if s.genTone g then Config.tonePackets f.code k l else []

/-- The words of frame `k` of generator `g` in a format (R44). -/
def State.genFrame (s : State) (g : Nat) (f : Fmt) (k : Nat) : List W32 :=
  frameOf f k (fun l => ancRun true l (s.genPackets g f k l)) (s.genVideo g f k)

/-- The first whole frame of what reached a tap: its SOF and EOF blocks, its words, and what follows; a frame cut short is passed over. -/
def frameOut : Nat → List Fed → Option (Fed × Fed × List W32 × List Fed)
  | 0, _ => none
  | fuel + 1, l =>
    match l.dropWhile fun x => !x.blk.sof with
    | [] => none
    | h :: t =>
      let body := t.takeWhile fun x => !x.blk.sof
      let upto := body.takeWhile fun x => !x.blk.eof
      match body.find? fun x => x.blk.eof with
      | some e => some (h, e, (h :: (upto ++ [e])).flatMap fun x => x.blk.words, t.drop (upto.length + 1))
      | none => frameOut fuel (t.drop body.length)

/-- The format code that a frame's FORMAT marker gives. -/
def codeOf (ws : List W32) : Nat := ((ws.find? (isType 6)).map markSpec).getD 0

/-- The last frame of a counter that has ended. -/
def State.lastEnded (s : State) (c : Nat) : Int := s.cadFrameAt c s.cadTime - 1

/-- CAPTURE_FRAME in one Side: the frame of the tap's source that has ended is written if the tap carries it (R95) and it began while ENABLE was 1
(R114). A generator's frames are the machine's own, at the frame starts of the tap's counter (R71). -/
def State.captureStep (s : State) (sd : Side) (t : Nat) : State :=
  let d := 1280 + t
  let r := s.routes.at d
  let ix := 2 * d + sd.idx
  match frameOut ((s.feeds.at ix).length + 1) (s.feeds.at ix) with
  | some (h, e, ws, rest) =>
    let s := { s with feeds := s.feeds.set ix rest }
    let at_ := h.blk.sofAt
    if s.feedCarries d h.src at_ (e.blk.stamp * tickU : Nat) && s.captures_ sd t at_ then
      s.captureFrame sd t (codeOf ws) h.blk.tag (s.cadFrameAt r.cad at_) ws
    else s
  | none =>
    if 1056 ≤ r.src then
      let k := s.lastEnded r.cad
      let f := s.genFmt (r.src - 1056)
      let c := s.captures.at (2 * t + sd.idx)
      let at_ := s.cadStart r.cad k
      if k ≤ c.seen ∨ k < 0 ∨ !f.known then s
      else
        let s := { s with captures := s.captures.set (2 * t + sd.idx) { c with seen := k } }
        if (s.feedSwitch d).all (fun sp => decide (sp ≤ at_)) && s.captures_ sd t at_ then
          s.captureFrame sd t f.code (k.toNat % 256) k (s.genFrame (r.src - 1056) f k.toNat)
        else s
    else s

/-- CAPTURE_FRAME: a frame of the tap's source ends. -/
def execCaptureFrame (t : Fin 64) (s : State) : Out := .next (s.eachRouting fun sd s => s.captureStep sd t)

end Sys2Proof.Machine
end

