-- ==== Sys2Proof/Machine/Alloy.lean ====
section
/-!
DEFINITION. The Alloy compositor (chapter 11): loads and flips of Side-held content, tile feeds, and the frames of the heads.
-/
namespace Sys2Proof.Machine

/-! ## Side-held content (R368 to R372) -/

/-- Content outside HBM that nothing has loaded (R375): transparent images, identity tables. -/
def alyEmpty (c : AlyCell) : W32 :=
  match c.kind with
  | 3 => w32 ((c.off % 1024 * 4095 + 511) / 1023)
  | 4 => w32 (c.off % 4096)
  | _ => 0

/-- The order of content words. -/
def AlyCell.lt (a b : AlyCell) : Bool :=
  decide (a.kind < b.kind) || (decide (a.kind = b.kind) &&
    (decide (a.item < b.item) || (decide (a.item = b.item) &&
      (decide (a.copy < b.copy) || (decide (a.copy = b.copy) && decide (a.off < b.off))))))

/-- A Side's content outside HBM. -/
def State.aly (s : State) : Side → List (AlyCell × W32)
  | .A => s.alyA
  | .B => s.alyB

/-- The state with a Side's content outside HBM replaced. -/
def State.setAly (s : State) (sd : Side) (m : List (AlyCell × W32)) : State :=
  match sd with
  | .A => { s with alyA := m }
  | .B => { s with alyB := m }

/-- The first byte of a copy of a head's graphics bitmap (R371). -/
def gfxBase (h copy : Nat) : Nat := 0x200000000 + h * 0x5000000 + copy * 0x2800000

/-- A word of one copy of content in a Side. -/
def State.content (s : State) (sd : Side) (kind item copy off : Nat) : W32 :=
  if kind = 0 then memWord (s.hbm sd) (gfxBase item copy + 4 * off)
  else Sparse.get alyEmpty (s.aly sd) { kind := kind, item := item, copy := copy, off := off }

/-- The state with a word of content written; a table's word keeps its low 12 bits (R372). -/
def State.putContent (s : State) (sd : Side) (kind item copy off : Nat) (v : W32) : State :=
  if kind = 0 then s.setHbm sd (memPutWord (s.hbm sd) (gfxBase item copy + 4 * off) v)
  else
    let v := if kind = 3 ∨ kind = 4 then v &&& 0xFFF#32 else v
    s.setAly sd (Sparse.put AlyCell.lt alyEmpty (s.aly sd) { kind := kind, item := item, copy := copy, off := off } v)

/-- The bit of ALY_FLIP_STAT for a KIND (R374, R382). -/
def flipBit (kind : Nat) : Nat :=
  match kind with
  | 0 => 0 | 1 => 1 | 2 => 3 | _ => 2

/-- The copy of a KIND that is in front in a Side. -/
def State.front (s : State) (sd : Side) (h kind : Nat) : Nat := b2n (bitOf (s.rd (RS .ALY_FLIP_STAT sd h)) (flipBit kind))

/-- A flip awaits its head boundary (R374). -/
def State.flipPending (s : State) (h bit : Nat) : Bool :=
  s.alyWait.any fun w => match w with
    | .flip x b _ => x == h && b == bit
    | _ => false

/-- The size of an item of content in words (R371); an INDEX that names none has none. -/
def State.contentSize (s : State) (kind h index : Nat) : Nat :=
  let d := rasterDims (s.headPlan.at h).fmt.raster
  match kind with
  | 0 => d.1 * d.2
  | 1 => 4096
  | 2 => if index < (s.headPlan.at h).rects then 65536 else 0
  | 3 => 3072
  | _ => 12288

/-- The item number of a load's content: the head, a rectangle of it, or a table. -/
def itemOf (kind h index : Nat) : Nat :=
  match kind with
  | 2 => 4 * h + index
  | 3 => index
  | _ => h

/-- A sticky bit of a head in every Side that runs. -/
def State.alyEvt (s : State) (h : Nat) (f : Fld) : State := s.eachSide fun sd s => s.raise (RS .ALY_EVT sd h) f

/-- A requester's copy of a load-port register, in the routing snapshot. -/
def State.loadReg (s : State) (n : RegName) (r : Req) : W32 := Sparse.get RegKey.reset s.twins (RB n r 0)

/-- A word delivered to ALY_LOAD_DATA (R372 to R374, R383). -/
def State.loadWord (s : State) (r : Req) (v : W32) : State :=
  let sel := s.loadReg .ALY_LOAD_SEL r
  let addr := (s.loadReg .ALY_LOAD_ADDR r).toNat % 2 ^ 24
  let kind := getF sel F.ALY_LOAD_SEL_KIND
  let index := getF sel F.ALY_LOAD_SEL_INDEX
  let h := getF sel F.ALY_LOAD_SEL_HEAD
  let owns := match kind with
    | 2 => s.holdsProt r h
    | 3 => match s.preHead.at index with
      | some p => s.holdsHead r p
      | none => false
    | _ => s.holdsHead r h
  let hd := if kind = 3 then (s.preHead.at index).getD h else h
  if 5 ≤ kind then s
  else if !owns then
    let s := s.denied r false (R0 .ALY_LOAD_DATA).twinAddr
    if kind = 2 then s.alyEvt h F.ALY_EVT_PROT_REJECT else s
  else if s.flipPending hd (flipBit kind) then s.alyEvt hd F.ALY_EVT_LOAD_PENDING
  else if s.contentSize kind h index ≤ addr then s.alyEvt hd F.ALY_EVT_LOAD_RANGE
  else
    let s := s.eachSide fun sd s => s.putContent sd kind (itemOf kind h index) (1 - s.front sd hd kind) addr v
    s.deliver (RB .ALY_LOAD_ADDR r 0) (w32 ((addr + 1) % 2 ^ 24))

/-- ALY_LOAD_DATA. -/
def execAlyLoadData (r : Req) (v : W32) (s : State) : Out :=
  .next (s.access r .twin true (R0 .ALY_LOAD_DATA).twinAddr v fun s => s.loadWord r v)

/-! ## Flips and settings that wait for the head boundary (R374, R377) -/

/-- A flip is requested: it is pending in every Side that runs until its head boundary. -/
def State.askFlip (s : State) (h bit : Nat) : State :=
  if s.flipPending h bit ∨ s.oddHead h then s
  else
    let s := { s with alyWait := s.alyWait ++ [AlyWait.flip h bit s.tick] }
    s.eachSide fun sd s => s.wr (RS .ALY_FLIP_STAT sd h) (s.rd (RS .ALY_FLIP_STAT sd h) ||| bit1 (4 + bit))

/-- A write of ALY_FLIP[h], as delivered: each selected content is flipped. -/
def State.flipDelivered (s : State) (h : Nat) (v : W32) : State :=
  let s := if bitOf v 0 then s.askFlip h 0 else s
  let s := if bitOf v 1 then s.askFlip h 1 else s
  if bitOf v 2 then s.askFlip h 2 else s

/-- FLIP_GFX. -/
def execFlipGfx (r : Req) (h : Fin 32) (s : State) : Out :=
  .next (s.access r .twin (s.holdsHead r h) (R1 .ALY_FLIP h).twinAddr (bit1 0) fun s => s.flipDelivered h (bit1 0))

/-- FLIP_CURSOR. -/
def execFlipCursor (r : Req) (h : Fin 32) (s : State) : Out :=
  .next (s.access r .twin (s.holdsHead r h) (R1 .ALY_FLIP h).twinAddr (bit1 1) fun s => s.flipDelivered h (bit1 1))

/-- FLIP_LUT. -/
def execFlipLut (r : Req) (h : Fin 32) (s : State) : Out :=
  .next (s.access r .twin (s.holdsHead r h) (R1 .ALY_FLIP h).twinAddr (bit1 2) fun s => s.flipDelivered h (bit1 2))

/-- A protected rectangle's geometry: column, line, width, height, and whether it is drawn (R377, R384). -/
structure ProtRect where
  x  : Nat
  y  : Nat
  w  : Nat
  h  : Nat
  on : Bool
deriving DecidableEq, Repr

/-- The geometry that ALY_PROT_POS and ALY_PROT_SIZE give. -/
def protRect (pos size : W32) : ProtRect :=
  let w := min 512 (getF size F.ALY_PROT_SIZE_W)
  let h := min 128 (getF size F.ALY_PROT_SIZE_H)
  { x := getF pos F.ALY_PROT_POS_X, y := getF pos F.ALY_PROT_POS_Y, w := w, h := h, on := bitOf size 31 && decide (0 < w ∧ 0 < h) }

/-- The rectangle stays on the head raster. -/
def State.protFits (s : State) (h : Nat) (p : ProtRect) : Bool :=
  let d := rasterDims (s.headPlan.at h).fmt.raster
  !p.on || (decide (p.x + p.w ≤ d.1) && decide (p.y + p.h ≤ d.2))

/-- A twin register with two indices. -/
def State.twin2 (s : State) (n : RegName) (i j : Nat) : W32 := Sparse.get RegKey.reset s.twins (R2 n i j)

/-- A write of ALY_PROT_FLIP[h], as delivered: refused as a whole when new geometry leaves the raster, else requested with the geometry
as it stands (R377). -/
def State.protFlipDelivered (s : State) (h : Nat) (v : W32) : State :=
  if !bitOf v 0 ∨ s.oddHead h ∨ s.flipPending h 3 then s
  else
    let rs := List.range (s.headPlan.at h).rects
    if rs.all fun r => s.protFits h (protRect (s.twin2 .ALY_PROT_POS h r) (s.twin2 .ALY_PROT_SIZE h r)) then
      let geo := rs.flatMap fun r =>
        [AlyWait.value h (R2 .ALY_PROT_POS h r) (s.twin2 .ALY_PROT_POS h r) s.tick,
         AlyWait.value h (R2 .ALY_PROT_SIZE h r) (s.twin2 .ALY_PROT_SIZE h r) s.tick]
      { s with alyWait := s.alyWait ++ geo }.askFlip h 3
    else s.alyEvt h F.ALY_EVT_PROT_GEOM

/-- ALY_PROT_FLIP. -/
def execAlyProtFlip (r : Req) (h : Fin 32) (s : State) : Out :=
  .next (s.access r .twin (s.holdsProt r h) (R1 .ALY_PROT_FLIP h).twinAddr (bit1 0) fun s => s.protFlipDelivered h (bit1 0))

/-- A register that waits for the head boundary takes a value in the snapshot and the Sides, and waits (R374). -/
def State.headValueDelivered (s : State) (h : Nat) (k : RegKey) (v : W32) : State :=
  let s := s.deliver k v
  { s with alyWait := s.alyWait ++ [AlyWait.value h k v s.tick] }

/-- ALY_STORE_CFG[h] as delivered: clearing FREEZE clears FROZEN (R379). -/
def State.storeCfgDelivered (s : State) (h : Nat) (v : W32) : State :=
  let s := s.deliver (R1 .ALY_STORE_CFG h) v
  if bitOf v 1 then s else s.eachSide fun sd s => s.setF (RS .ALY_STORE_STAT sd h) F.ALY_STORE_STAT_FROZEN 0

/-- The value in force of a setting that takes effect at head boundaries. -/
def State.live2 (s : State) (k : RegKey) : W32 := Sparse.get RegKey.reset s.alyLive k

/-- The geometry of rectangle `r` in force. -/
def State.protLive (s : State) (h r : Nat) : ProtRect :=
  protRect (s.live2 (R2 .ALY_PROT_POS h r)) (s.live2 (R2 .ALY_PROT_SIZE h r))

/-! ## Pixels (R366 to R370) -/

/-- Three components of a pixel. -/
abbrev Pix := Nat × Nat × Nat

/-- A function of each component. -/
def mapPix (f : Nat → Nat → Nat) (p : Pix) : Pix := (f 0 p.1, f 1 p.2.1, f 2 p.2.2)

/-- The blend over of one component (R369). -/
def blend (sv alpha d : Nat) : Nat := (sv * alpha + d * (255 - alpha) + 127) / 255

/-- The blend over of a pixel. -/
def overPix (sv : Pix) (alpha : Nat) (d : Pix) : Pix := (blend sv.1 alpha d.1, blend sv.2.1 alpha d.2.1, blend sv.2.2 alpha d.2.2)

/-- A pre-blend table's map of a 16-bit component (R368). -/
def preBlend (L : Nat → Nat) (u : Nat) : Nat :=
  let i := u / 64
  let a := u % 64
  ((L i * (64 - a) + L (min (i + 1) 1023) * a) * 16 + 32) / 64

/-- The entries of pre-blend table `t` for component `c`, for head `h`; a table not assigned to the head acts as the identity. -/
def State.preTable (s : State) (sd : Side) (h t c i : Nat) : Nat :=
  if s.preHead.at t = some h then (s.content sd 3 t (s.front sd h 3) (c * 1024 + i)).toNat else (i * 4095 + 511) / 1023

/-- A background component of 10 bits as 16-bit linear (R369). -/
def bgLinear (b : Nat) : Nat := b * 64 + b / 16

/-- A protected component as a 12-bit code (R370). -/
def protCode (p : Nat) : Nat := p * 16 + p / 16

/-- The three colour bytes of a word whose alpha is the top byte (`argb`) or the bottom byte, and its alpha. -/
def colourOf (argb : Bool) (w : W32) : Pix × Nat :=
  let b (i : Nat) := w.toNat / 2 ^ (8 * i) % 256
  if argb then ((b 2, b 1, b 0), b 3) else ((b 3, b 2, b 1), b 0)

/-- An 8-bit RGBA pixel blended over `d` through the head's GFX_PRE table (R366, R367). -/
def State.overGfx (s : State) (sd : Side) (h : Nat) (q : Pix × Nat) (d : Pix) : Pix :=
  let t := getF (s.twin .ALY_HEAD_CFG h) F.ALY_HEAD_CFG_GFX_PRE
  overPix (mapPix (fun c v => preBlend (s.preTable sd h t c) (v * 257)) q.1) q.2 d

/-- VIDEO word `i` of a line of a tile's frame; a position left unwritten is black (R363). -/
def TileFrame.word (fr : TileFrame) (line i : Nat) : W32 :=
  let first (k : Block) : Nat := if k.idx = 0 then 0 else 64 * k.idx - 1
  let video (k : Block) : List W32 := k.words.filter fun w => slotTag w = 0
  match fr.blks.find? fun k => k.line = line ∧ k.mark = 9 ∧ first k ≤ i ∧ i < first k + (video k).length with
  | some k => (video k).getD (i - first k) 0
  | none => blackWord fr.fmt i

/-- Sample `j` of raster row `row` of a tile's frame (R40), normalised to 16 bits: its bits at the top (R367; DEDUCED, log entry 141); fields and
segments are woven (R362). -/
def TileFrame.sample (fr : TileFrame) (row j : Nat) : Nat :=
  let d := fr.fmt.depth
  let line := (((List.range (rasterDims fr.fmt.raster).2).map (activeLine fr.fmt)).find? fun l => l.2 = row).map (·.1)
  let bit (b : Nat) : Nat := (fr.word (line.getD 0) (b / 30)).toNat / 2 ^ (29 - b % 30) % 2
  (List.range d).foldl (fun v i => 2 * v + bit (j * d + i)) 0 * 2 ^ (16 - d)

/-- The three components of a pixel of a tile's frame: Y′, C′b, C′r or R′, G′, B′ (R41); of 4:2:2, the chroma of its pair. -/
def TileFrame.pixel (fr : TileFrame) (row x : Nat) : Nat × Nat × Nat :=
  let at_ := fr.sample row
  match fr.fmt.sampling with
  | 0 => (at_ (2 * x + 1), at_ (4 * (x / 2)), at_ (4 * (x / 2) + 2))
  | 1 => (at_ (3 * x + 1), at_ (3 * x), at_ (3 * x + 2))
  | _ => (at_ (3 * x), at_ (3 * x + 1), at_ (3 * x + 2))

/-- The part of a source's raster that a tile takes: the crop rectangle within the raster, or all of it (R362). -/
def cropRect (xy wh : W32) (w h : Nat) : Nat × Nat × Nat × Nat :=
  let cw := wh.toNat % 8192
  let ch := wh.toNat / 65536 % 8192
  let x := xy.toNat % 8192
  let y := xy.toNat / 65536 % 8192
  if cw = 0 ∨ ch = 0 then (0, 0, w, h) else (x, y, min (x + cw) w - x, min (y + ch) h - y)

/-- The code a tile shows at (x, y) of its rectangle of size `dst` (R362). DESIGN CHOICE: the geometry is the one in force when the frame is shown
(log entry 118). -/
def State.tilePix (s : State) (f : Nat) (fr : TileFrame) (dst : Nat × Nat) (x y : Nat) : Pix :=
  let r := rasterDims fr.fmt.raster
  Config.scaledPix fr.pixel (cropRect (s.live2 (R1 .ALY_TILE_CROP_XY f)) (s.live2 (R1 .ALY_TILE_CROP_WH f)) r.1 r.2) dst x y

/-- A tile blended over `d` at pixel (x, y) of the head (R366, R367). -/
def State.overTile (s : State) (sd : Side) (h f x y : Nat) (d : Pix) : Pix :=
  let cfg := s.live2 (R1 .ALY_TILE_CFG f)
  let dst := s.live2 (R1 .ALY_TILE_DST f)
  let size := s.live2 (R1 .ALY_TILE_SIZE f)
  let x0 := dst.toNat % 8192
  let y0 := dst.toNat / 65536 % 8192
  if !s.flag (RS .ALY_TILE_STAT sd f) F.ALY_TILE_STAT_SHOWING ∨ x < x0 ∨ y < y0 ∨ x0 + size.toNat % 8192 ≤ x ∨
      y0 + size.toNat / 65536 % 8192 ≤ y then d
  else
    let t := s.tiles.at (2 * f + sd.idx)
    match t.shown.bind fun i => t.bufs.getD i none with
    | none => d
    | some fr =>
      let m := getF cfg F.ALY_TILE_CFG_MATRIX
      let p := s.tilePix f fr (size.toNat % 8192, size.toNat / 65536 % 8192) (x - x0) (y - y0)
      let rgb := if fr.fmt.sampling = 2 then p else mapPix (fun _ v => min 65535 v) (Config.toRgb (if m = 3 then 0 else m) p)
      overPix (mapPix (fun c v => preBlend (s.preTable sd h (getF cfg F.ALY_TILE_CFG_PRE) c) v) rgb) (getF cfg F.ALY_TILE_CFG_ALPHA) d

/-- The tile feeds of a head. -/
def State.tilesOf (s : State) (h : Nat) : List Nat := (List.range 256).filter fun f => s.tileHead.at f = some h

/-- The enabled tiles of a head from the bottom up: ascending Z, equal Z by number (R366). -/
def State.tileOrder (s : State) (h : Nat) : List Nat :=
  let on := (s.tilesOf h).filter fun f => bitOf (s.live2 (R1 .ALY_TILE_CFG f)) 0
  (List.range 64).flatMap fun z => on.filter fun f => getF (s.live2 (R1 .ALY_TILE_CFG f)) F.ALY_TILE_CFG_Z = z

/-- Layers 1 to 4 of a pixel in 16-bit linear (R366). -/
def State.linearPix (s : State) (sd : Side) (h x y : Nat) : Pix :=
  let cfg := s.twin .ALY_HEAD_CFG h
  let bg := s.live2 (R1 .ALY_HEAD_BG h)
  let base : Pix := (bgLinear (getF bg F.ALY_HEAD_BG_R), bgLinear (getF bg F.ALY_HEAD_BG_G), bgLinear (getF bg F.ALY_HEAD_BG_B))
  let p := (s.tileOrder h).foldl (fun d f => s.overTile sd h f x y d) base
  let w := (rasterDims (s.headPlan.at h).fmt.raster).1
  let p := if bitOf cfg 0 then s.overGfx sd h (colourOf false (s.content sd 0 h (s.front sd h 0) (y * w + x))) p else p
  let cur := s.live2 (R1 .ALY_CURSOR h)
  let cx : Int := x - sext 13 (getF cur F.ALY_CURSOR_X)
  let cy : Int := y - sext 13 (getF cur F.ALY_CURSOR_Y)
  if bitOf cfg 1 ∧ 0 ≤ cx ∧ cx < 64 ∧ 0 ≤ cy ∧ cy < 64 then
    s.overGfx sd h (colourOf true (s.content sd 1 h (s.front sd h 1) (cy.toNat * 64 + cx.toNat))) p
  else p

/-- The pixel of rectangle `r` at (x, y) of the rectangle, in a copy of its content. -/
def State.protPix (s : State) (sd : Side) (h r copy x y : Nat) : Pix × Nat :=
  let q := colourOf false (s.content sd 2 (4 * h + r) copy (y * 512 + x))
  (mapPix (fun _ v => protCode v) q.1, q.2)

/-- The 12-bit R′G′B′ code of a pixel of a head, after the post-blend table and the protected layer (R370). -/
def State.headPix (s : State) (sd : Side) (h x y : Nat) : Pix :=
  let lin := s.linearPix sd h x y
  let p := mapPix (fun c v => (s.content sd 4 h (s.front sd h 4) (c * 4096 + v / 16)).toNat) lin
  (List.range (s.headPlan.at h).rects).foldl (fun d r =>
    let g := s.protLive h r
    if g.on ∧ g.x ≤ x ∧ x < g.x + g.w ∧ g.y ≤ y ∧ y < g.y + g.h then
      let q := s.protPix sd h r (s.front sd h 2) (x - g.x) (y - g.y)
      overPix q.1 q.2 d
    else d) p

/-- The CRC of a rectangle over its pixels of alpha 255, from a copy of its content (R378). -/
def State.protCrc (s : State) (sd : Side) (h r copy : Nat) (g : ProtRect) : W32 :=
  let bits := (List.range g.h).flatMap fun y => (List.range g.w).flatMap fun x =>
    let q := s.protPix sd h r copy x y
    if q.2 = 255 then bitsMsb 12 q.1.1 ++ bitsMsb 12 q.1.2.1 ++ bitsMsb 12 q.1.2.2 else []
  w32 (Nat.xor (crc 32 0x04C11DB7 0xFFFFFFFF bits) 0xFFFFFFFF)

/-! ## A head's frame as slot words (R39 to R44, R379) -/

/-- A value in 2^-`sh` of a code, rounded to a code of `depth` bits; which way a half goes is free (R370). -/
def roundCode (depth sh v : Nat) : Nat :=
  let up := if v % 2 ^ sh = 2 ^ sh / 2 ∧ sh ≠ 0 then Config.halfUp v else decide (2 ^ sh / 2 < v % 2 ^ sh)
  min (2 ^ depth - 1) (v / 2 ^ sh + b2n up)

/-- The co-sited chroma filter with the taps 1/4, 1/2, 1/4 (R370). -/
def chromaTaps (a b c : Nat) : Nat := a + 2 * b + c

/-- The samples of a line of a head from its 12-bit R′G′B′ codes, in the order of R41 (R370). -/
def headLine (f : Fmt) (m : Nat) (pix : List Pix) : List Nat :=
  let code (v : Nat) : Nat := if f.depth < 12 then roundCode f.depth (12 - f.depth) v else v * 2 ^ (f.depth - 12)
  if f.sampling = 2 then pix.flatMap fun p => [code p.1, code p.2.1, code p.2.2]
  else
    let ys := pix.map (Config.fromRgb m f.depth)
    let yc (v : Nat) : Nat := roundCode f.depth 16 v
    if f.sampling = 1 then ys.flatMap fun p => [yc p.2.1, yc p.1, yc p.2.2]
    else
      (List.range (ys.length / 2)).flatMap fun i =>
        let p := ys.getD (2 * i) (0, 0, 0)
        let q := ys.getD (2 * i + 1) (0, 0, 0)
        let o := if i = 0 then mapPix (fun _ v => Config.chromaBefore v) p else ys.getD (2 * i - 1) (0, 0, 0)
        let c (v : Nat) : Nat := roundCode f.depth 18 v
        [c (chromaTaps o.2.1 p.2.1 q.2.1), yc p.1, c (chromaTaps o.2.2 p.2.2 q.2.2), yc q.1]

/-- The VIDEO words of the i-th active line of a head. -/
def State.headVideo (s : State) (sd : Side) (h i : Nat) : List W32 :=
  let f := (s.headPlan.at h).fmt
  let m := getF (s.twin .ALY_HEAD_CFG h) F.ALY_HEAD_CFG_MATRIX
  let pix := (List.range (rasterDims f.raster).1).map fun x => s.headPix sd h x (activeLine f i).2
  packBits f.lineWords ((headLine f (if m = 3 then 0 else m) pix).flatMap fun v => bitsMsb f.depth v)

/-- The words of frame `k` of a head, which carries no ancillary data, in the order of R44. -/
def State.headWords (s : State) (sd : Side) (h k : Nat) : List W32 :=
  frameOf (s.headPlan.at h).fmt k (fun _ => []) (s.headVideo sd h)

/-- The words of frame `k` of a head after the header of R96. -/
def State.headFrameWords (s : State) (sd : Side) (h k : Nat) : List W32 :=
  let ws := s.headWords sd h k
  [w32 ws.length, w32 k, w32 ((s.headPlan.at h).fmt.code * 2 ^ 18 + k % 256 * 2 ^ 10), 0] ++ ws

/-- The first byte of a frame-store buffer (R379). -/
def State.storeBase (s : State) (h b : Nat) : Nat :=
  0x300000000 + h * 0x4000000 + b * (if (s.headPlan.at h).pair then 0x4000000 else 0x2000000)

/-- The frame store at the start of frame `k`: the frame before it is whole; frame `k` is written unless the store is frozen (R379). -/
def State.storeFrame (s : State) (sd : Side) (h k : Nat) : State :=
  let cfg := s.twin .ALY_STORE_CFG h
  let ix := 2 * h + sd.idx
  let kst := RS .ALY_STORE_STAT sd h
  let cur := s.alyStore.at ix
  let s := match cur with
    | some b => s.setF kst F.ALY_STORE_STAT_INDEX b
    | none => s
  if !bitOf cfg 0 then { s with alyStore := s.alyStore.set ix none }
  else if bitOf cfg 1 then { s with alyStore := s.alyStore.set ix none }.setF kst F.ALY_STORE_STAT_FROZEN 1
  else
    let b := match cur with
      | some b => 1 - b
      | none => 1 - s.fld kst F.ALY_STORE_STAT_INDEX
    let s := s.setHbm sd (memPutWords (s.hbm sd) (s.storeBase h b) (s.headFrameWords sd h k))
    { s with alyStore := s.alyStore.set ix (some b) }

/-! ## Tile feeds (R362 to R365) -/

/-- The instant a tile frame becomes eligible, and the last at which its blocks are written (R363). -/
def TileFrame.due (fr : TileFrame) : Int := fr.sof + fr.fmt.period + msU

/-- The buffer that holds the frame of a source with SOF stamp `sof` while it is being written, or a free one for it: not the one shown,
not the newest eligible one, not one still being written (R363). -/
def TileRun.bufferFor (t : TileRun) (now sof : Int) : Option Nat :=
  let ix := List.range t.bufs.length
  match ix.find? fun i => (t.bufs.getD i none).any fun fr => fr.sof = sof ∧ !fr.elig with
  | some i => some i
  | none => ix.find? fun i => t.shown ≠ some i ∧ t.newest ≠ some i ∧ !((t.bufs.getD i none).any fun fr => !fr.elig && decide (now < fr.due))

/-- The buffer of the newest eligible frame whose eligible instant lies at or before `t` (R364). -/
def TileRun.newestAt (r : TileRun) (t : Int) : Option Nat :=
  let due (i : Nat) : Option Int := (r.bufs.getD i none).bind fun fr => if fr.elig && decide (fr.due ≤ t) then some fr.due else none
  (List.range r.bufs.length).foldl (fun b i =>
    match due i, b.bind due with
    | some d, some e => if e < d then some i else b
    | some _, none => some i
    | none, _ => b) none

/-- The format in which a source gives its frames to a tile feed (R71, R363). -/
def State.feedFmt (s : State) (x : Nat) : Fmt :=
  if x < 1024 then s.inFmt x else if x < 1056 then (s.headPlan.at (x - 1024)).fmt else s.genFmt (x - 1056)

/-- Blocks of a source frame are written in a tile buffer (R363). -/
def State.tileWrite (s : State) (sd : Side) (f : Nat) (fr : TileFrame) (ks : List Block) : State :=
  let t := s.tiles.at (2 * f + sd.idx)
  match t.bufferFor s.cadTime fr.sof with
  | none => s
  | some i =>
    let old := match t.bufs.getD i none with
      | some o => if o.sof = fr.sof ∧ !o.elig then o else fr
      | none => fr
    { s with tiles := s.tiles.set (2 * f + sd.idx) { t with bufs := t.bufs.set i (some { old with blks := old.blks ++ ks }) } }

/-- A block of a frame of the feed's source is written, or discarded as late (R95, R363). -/
def State.tileBlock (s : State) (sd : Side) (f : Nat) (x : Fed) : State :=
  let k := x.blk
  let fr : TileFrame := { src := x.src, sof := k.sofAt, fmt := s.feedFmt x.src, tag := k.tag }
  if !s.feedCarries (1024 + f) x.src k.sofAt (k.stamp * tickU : Nat) then s
  else if fr.due < (k.stamp * tickU : Nat) then
    let s := s.addWrap (RS .ALY_TILE_LATE sd f) 1
    match s.tileHead.at f with
    | some h => s.raise (RS .ALY_EVT sd h) F.ALY_EVT_TILE_LATE
    | none => s
  else s.tileWrite sd f fr [k]

/-- The frame of a generator in progress reaches a tile feed, block by block at its frame start plus τ (R71, R363). -/
def State.tileGen (s : State) (sd : Side) (f : Nat) : State :=
  let r := s.routes.at (1024 + f)
  let t := s.tiles.at (2 * f + sd.idx)
  let fm := s.genFmt (r.src - 1056)
  let k := s.cadFrameAt r.cad s.cadTime
  let at_ := s.cadStart r.cad k
  if r.src < 1056 ∨ k ≤ t.seen ∨ k < 0 ∨ !fm.known ∨ (s.feedSwitch (1024 + f)).any (fun sp => decide (at_ < sp)) then s
  else
    let s := { s with tiles := s.tiles.set (2 * f + sd.idx) { t with seen := k } }
    s.tileWrite sd f { src := r.src, sof := at_, fmt := fm, tag := k.toNat % 256 } (frameBlocks fm at_ (s.genFrame (r.src - 1056) fm k.toNat))

/-- TILE_BLOCK: in every Side that runs, the block that left the crosspoint for the feed first reaches its scaler; of a generator, the frame in
progress. -/
def execTileBlock (f : Fin 256) (s : State) : Out :=
  .next (s.eachSide fun sd s =>
    let ix := 2 * (1024 + f.val) + sd.idx
    match s.feeds.at ix with
    | [] => s.tileGen sd f
    | x :: rest => { s with feeds := s.feeds.set ix rest }.tileBlock sd f x)

/-- A frame of feed `f` is discarded: its SOF precedes the switch point of a take that its eligible instant follows (R364). -/
def State.feedCut (s : State) (f : Nat) (fr : TileFrame) : Bool :=
  match s.feedSwitch (1024 + f) with
  | some sp => decide (fr.sof < sp) && decide (sp < fr.due)
  | none => false

/-- TILE_FRAME_ELIGIBLE: every frame of the feed whose eligible instant has come becomes eligible; one whose SOF precedes the switch point of
a take that its eligible instant follows is discarded (R364). -/
def execTileFrameEligible (f : Fin 256) (s : State) : Out :=
  .next (s.eachSide fun sd s =>
    let t := s.tiles.at (2 * f + sd.idx)
    let ready := (List.range t.bufs.length).filter fun i => (t.bufs.getD i none).any fun fr => !fr.elig && decide (fr.due ≤ s.cadTime)
    let t' := ready.foldl (fun (t : TileRun) i =>
      match t.bufs.getD i none with
      | none => t
      | some fr =>
        if s.feedCut f fr then { t with bufs := t.bufs.set i none }
        else
          let newer := match t.newest.bind fun j => t.bufs.getD j none with
            | some o => decide (o.due ≤ fr.due)
            | none => true
          { t with bufs := t.bufs.set i (some { fr with elig := true }), newest := if newer then some i else t.newest }) t
    { s with tiles := s.tiles.set (2 * f + sd.idx) t' })

/-- The geometry of a tile is in error (R362). -/
def State.tileGeomErr (s : State) (h f : Nat) (fr : Option TileFrame) : Bool :=
  let dst := s.live2 (R1 .ALY_TILE_DST f)
  let size := s.live2 (R1 .ALY_TILE_SIZE f)
  let head := rasterDims (s.headPlan.at h).fmt.raster
  let w := size.toNat % 8192
  let ht := size.toNat / 65536 % 8192
  let off := decide (w < 8 ∨ ht < 8) || decide (head.1 < dst.toNat % 8192 + w) || decide (head.2 < dst.toNat / 65536 % 8192 + ht)
  let factor := match fr with
    | some fr =>
      let d := rasterDims fr.fmt.raster
      let c := cropRect (s.live2 (R1 .ALY_TILE_CROP_XY f)) (s.live2 (R1 .ALY_TILE_CROP_WH f)) d.1 d.2
      decide (c.2.2.1 < w ∨ 32 * w < c.2.2.1 ∨ c.2.2.2 < ht ∨ 32 * ht < c.2.2.2)
    | none => false
  off || factor

/-- The buffer tile `f` shows in the head frame that starts at `t`: the newest eligible frame, else what it showed (R364). -/
def TileRun.pick (r : TileRun) (t : Int) : Option Nat :=
  match r.newestAt t with
  | some i => some i
  | none => r.shown

/-- No frame became eligible in the span of `p` that ends at `t` (R365). -/
def TileRun.stale (r : TileRun) (p t : Int) : Bool :=
  !(r.bufs.any fun b => b.any fun x => x.elig && decide (t - p < x.due) && decide (x.due ≤ t))

/-- What tile `f` shows in the head frame that starts at `t` (R362, R364, R365); one whose buffer was read late is not drawn in it (R438). -/
def State.tileFrame (s : State) (sd : Side) (h f : Nat) (t : Int) : State :=
  let ix := 2 * f + sd.idx
  let q := s.tiles.at ix
  let pick := q.pick t
  let fr := pick.bind fun i => q.bufs.getD i none
  let k := RS .ALY_TILE_STAT sd f
  let cfg := s.live2 (R1 .ALY_TILE_CFG f)
  let geom := s.tileGeomErr h f fr
  let stale := q.stale (4 * ((s.headPlan.at h).fmt.period : Nat)) t
  let old := s.rd k
  let shows := bitOf cfg 0 && fr.isSome && !geom && !(stale && bitOf cfg 23) && !q.late
  let s := { s with tiles := s.tiles.set ix { q with shown := pick, late := false } }
  let s := s.wr k (w32 (b2n shows + 2 * b2n stale + 4 * b2n geom + 8 * ((fr.map (·.tag)).getD 0 % 256)))
  let s := s.raiseIf (stale && !bitOf old 1) (RS .ALY_EVT sd h) F.ALY_EVT_TILE_STALE
  s.raiseIf (geom && !bitOf old 2) (RS .ALY_EVT sd h) F.ALY_EVT_TILE_GEOM

/-! ## The frame of a head (R360, R364 to R366, R378, R379) -/

/-- A head has work: a destination routed from it, an enabled tile, or an enabled frame store (R360). -/
def State.headWork (s : State) (h : Nat) : Bool :=
  (s.routes.any fun p => p.2.src = 1024 + h) || (s.takes.any fun t => t.src = 1024 + h) || !(s.tileOrder h).isEmpty ||
    bitOf (s.twin .ALY_STORE_CFG h) 0

/-- The blocks of frame `k` of a head, which starts at `t`, go to the destinations routed from it, each complete at its raster time (R359). -/
def State.headGive (s : State) (sd : Side) (h : Nat) (t : Int) (k : Nat) : State :=
  let ks := frameBlocks (s.headPlan.at h).fmt t (s.headWords sd h k)
  (s.takers (1024 + h)).foldl (fun (s : State) d => ks.foldl (fun (s : State) b => s.feed sd d { src := 1024 + h, blk := b }) s) s

/-- HEAD_FRAME: at O_h(k) the outputs routed from the head judge it (R123); a head with work composes frame k from the tile frames then
eligible, checks its protected rectangles (`bad` lists those whose rendered codes an upset has changed) and writes its frame store. -/
def execHeadFrame (h : Fin 32) (bad : List Nat) (s : State) : Out :=
  let pl := s.headPlan.at h
  let t := s.headStart h
  let k := (s.headFrame h).toNat
  let run := s.headRun.at h
  if !pl.present ∨ s.oddHead h ∨ run.last = some k then .next s
  else
    let s := s.judgeAll (1024 + h) none t
    let work := s.headWork h
    let soon : Bool := match run.since with
      | some c => decide (t < ((c + 10 * usTicks) * tickU : Nat))
      | none => false
    let early := decide (t < (s.engStart 1 h * tickU : Nat))
    let s := { s with headRun := s.headRun.set h { since := if work then run.since else none, last := some k } }
    if !work ∨ soon ∨ early then .next s
    else .next (s.eachSide fun sd s =>
      let s := (s.tilesOf h).foldl (fun (s : State) f => s.tileFrame sd h f t) s
      let hit := (List.range pl.rects).any fun r => (s.protLive h r).on && bad.contains r
      let s := if hit then (s.addWrap (RS .ALY_PROT_ERR sd h) 1).raise (RS .ALY_EVT sd h) F.ALY_EVT_PROT_CRC else s
      let s := (s.storeFrame sd h k)
      s.headGive sd h t k)

/-! ## The head boundary (R374, R377, R378) -/

/-- A waiting flip takes effect in a Side: the copies are exchanged and PENDING clears; the protected flip computes the reference CRCs. -/
def State.flipNow (s : State) (sd : Side) (h bit : Nat) : State :=
  let k := RS .ALY_FLIP_STAT sd h
  let s := s.wr k ((s.rd k ^^^ bit1 bit) &&& ~~~(bit1 (4 + bit)))
  if bit = 3 then
    (List.range (s.headPlan.at h).rects).foldl (fun (s : State) r =>
      let g := s.protLive h r
      if g.on then s.wr { name := .ALY_PROT_CRC, i := h, j := r, bank := sd.idx } (s.protCrc sd h r (s.front sd h 2) g) else s) s
  else s

/-- The head and the tick of something that waits. -/
def AlyWait.at_ : AlyWait → Nat × Nat
  | .flip h _ t => (h, t)
  | .value h _ _ t => (h, t)

/-- Tile `f` under a geometry that has just taken effect: GEOM_ERR follows it, its rise is an event, and a tile in error is not drawn (R362). -/
def State.tileGeomNow (s : State) (sd : Side) (h f : Nat) : State :=
  let q := s.tiles.at (2 * f + sd.idx)
  let k := RS .ALY_TILE_STAT sd f
  let geom := s.tileGeomErr h f (q.shown.bind fun i => q.bufs.getD i none)
  let old := s.flag k F.ALY_TILE_STAT_GEOM_ERR
  let s := s.setF k F.ALY_TILE_STAT_GEOM_ERR (b2n geom)
  let s := if geom then s.setF k F.ALY_TILE_STAT_SHOWING 0 else s
  s.raiseIf (geom && !old) (RS .ALY_EVT sd h) F.ALY_EVT_TILE_GEOM

/-- What waits for head `h` and was delivered at least one line period before the frame in progress began (R374). -/
def State.headDue (s : State) (h : Nat) (w : AlyWait) : Bool :=
  decide (w.at_.1 = h) && decide ((w.at_.2 * tickU : Nat) + ((s.headPlan.at h).fmt.linesTime 1 : Nat) ≤ s.headStart h)

/-- HEAD_BOUNDARY: at the frame start of the head in progress, what was delivered at least one line period before it takes effect. -/
def execHeadBoundary (h : Fin 32) (s : State) : Out :=
  let due := s.headDue h
  let now := s.alyWait.filter due
  let s := { s with alyWait := s.alyWait.filter fun w => !due w }
  let s := now.foldl (fun (s : State) w => match w with
    | .value _ k v _ => { s with alyLive := Sparse.put RegKey.lt RegKey.reset s.alyLive k v }
    | .flip _ _ _ => s) s
  let s := now.foldl (fun (s : State) w => match w with
    | .flip x b _ => s.eachSide fun sd s => s.flipNow sd x b
    | .value _ _ _ _ => s) s
  .next (if now.isEmpty then s else s.eachSide fun sd s => (s.tilesOf h).foldl (fun (s : State) f => s.tileGeomNow sd h f) s)

end Sys2Proof.Machine
end

