-- ==== Sys2Proof/Machine/Crypto.lean ====
section
/-!
DEFINITION. SHA-256 (FIPS 180-4) and the verification of ECDSA signatures on P-256 (FIPS 186), which R521, R535 and R545 name.
-/
namespace Sys2Proof.Machine

/-! ## SHA-256 -/

/-- The round constants. -/
def shaK : List W32 :=
  [0x428A2F98, 0x71374491, 0xB5C0FBCF, 0xE9B5DBA5, 0x3956C25B, 0x59F111F1, 0x923F82A4, 0xAB1C5ED5] ++
  [0xD807AA98, 0x12835B01, 0x243185BE, 0x550C7DC3, 0x72BE5D74, 0x80DEB1FE, 0x9BDC06A7, 0xC19BF174] ++
  [0xE49B69C1, 0xEFBE4786, 0x0FC19DC6, 0x240CA1CC, 0x2DE92C6F, 0x4A7484AA, 0x5CB0A9DC, 0x76F988DA] ++
  [0x983E5152, 0xA831C66D, 0xB00327C8, 0xBF597FC7, 0xC6E00BF3, 0xD5A79147, 0x06CA6351, 0x14292967] ++
  [0x27B70A85, 0x2E1B2138, 0x4D2C6DFC, 0x53380D13, 0x650A7354, 0x766A0ABB, 0x81C2C92E, 0x92722C85] ++
  [0xA2BFE8A1, 0xA81A664B, 0xC24B8B70, 0xC76C51A3, 0xD192E819, 0xD6990624, 0xF40E3585, 0x106AA070] ++
  [0x19A4C116, 0x1E376C08, 0x2748774C, 0x34B0BCB5, 0x391C0CB3, 0x4ED8AA4A, 0x5B9CCA4F, 0x682E6FF3] ++
  [0x748F82EE, 0x78A5636F, 0x84C87814, 0x8CC70208, 0x90BEFFFA, 0xA4506CEB, 0xBEF9A3F7, 0xC67178F2]

/-- The initial hash. -/
def shaInit : List W32 := [0x6A09E667, 0xBB67AE85, 0x3C6EF372, 0xA54FF53A, 0x510E527F, 0x9B05688C, 0x1F83D9AB, 0x5BE0CD19]

/-- The words that a block of 16 words expands to. -/
def shaSchedule (block : List W32) : List W32 :=
  (List.range 48).foldl (fun (w : List W32) i =>
    let at_ (k : Nat) : W32 := w.getD (i + k) 0
    let s0 := (at_ 1).rotateRight 7 ^^^ (at_ 1).rotateRight 18 ^^^ (at_ 1) >>> 3
    let s1 := (at_ 14).rotateRight 17 ^^^ (at_ 14).rotateRight 19 ^^^ (at_ 14) >>> 10
    w ++ [at_ 0 + s0 + at_ 9 + s1]) block

/-- One round over the eight working variables. -/
def shaRound (v : List W32) (kw : W32 × W32) : List W32 :=
  match v with
  | [a, b, c, d, e, f, g, h] =>
    let t1 := h + (e.rotateRight 6 ^^^ e.rotateRight 11 ^^^ e.rotateRight 25) + ((e &&& f) ^^^ (~~~e &&& g)) + kw.1 + kw.2
    let t2 := (a.rotateRight 2 ^^^ a.rotateRight 13 ^^^ a.rotateRight 22) + ((a &&& b) ^^^ (a &&& c) ^^^ (b &&& c))
    [t1 + t2, a, b, c, d + t1, e, f, g]
  | _ => v

/-- The hash after one block. -/
def shaBlock (h block : List W32) : List W32 :=
  List.zipWith (· + ·) h ((shaK.zip (shaSchedule block)).foldl shaRound h)

/-- The bytes of a message as big-endian words, one block after another. -/
def shaWords : List Byte → List W32
  | a :: b :: c :: d :: bs => w32 (((a.toNat * 256 + b.toNat) * 256 + c.toNat) * 256 + d.toNat) :: shaWords bs
  | _ => []

/-- The message with its padding. -/
def shaPad (m : List Byte) : List Byte :=
  let n := m.length
  m ++ [0x80#8] ++ List.replicate ((119 - n % 64) % 64) 0#8 ++ (List.range 8).map fun i => BitVec.ofNat 8 (8 * n / 256 ^ (7 - i))

/-- The blocks of a padded message, `n` of them. -/
def shaFold : Nat → List W32 → List W32 → List W32
  | 0, h, _ => h
  | n + 1, h, ws => shaFold n (shaBlock h (ws.take 16)) (ws.drop 16)

/-- The 32 bytes of the SHA-256 of a message. -/
def sha256 (m : List Byte) : List Byte :=
  let p := shaPad m
  (shaFold (p.length / 64) shaInit (shaWords p)).flatMap fun w => (wordBytes w).map (BitVec.ofNat 8)

/-! ## Words and bytes -/

/-- The bytes of little-endian words (R2). -/
def leBytes (ws : List W32) : List Byte := ws.flatMap fun w => [w.extractLsb' 0 8, w.extractLsb' 8 8, w.extractLsb' 16 8, w.extractLsb' 24 8]

/-- Bytes as little-endian words. -/
def leWords : List Byte → List W32
  | a :: b :: c :: d :: bs => w32 (a.toNat + 256 * (b.toNat + 256 * (c.toNat + 256 * d.toNat))) :: leWords bs
  | _ => []

/-- The big-endian number that bytes write. -/
def beNat (bs : List Byte) : Nat := bs.foldl (fun n b => n * 256 + b.toNat) 0

/-- The SHA-256 of little-endian words, as eight such words. -/
def shaOfWords (ws : List W32) : List W32 := leWords (sha256 (leBytes ws))

/-! ## ECDSA on P-256 -/

/-- The prime of the field. -/
def p256P : Nat := 0xFFFFFFFF00000001000000000000000000000000FFFFFFFFFFFFFFFFFFFFFFFF

/-- The order of the base point. -/
def p256N : Nat := 0xFFFFFFFF00000000FFFFFFFFFFFFFFFFBCE6FAADA7179E84F3B9CAC2FC632551

/-- The coefficient b. -/
def p256B : Nat := 0x5AC635D8AA3A93E7B3EBBD55769886BC651D06B0CC53B0F63BCE3C3E27D2604B

/-- The base point. -/
def p256G : Nat × Nat :=
  (0x6B17D1F2E12C4247F8BCE6E563A440F277037D812DEB33A0F4A13945D898C296,
   0x4FE342E2FE1A7F9B8EE7EB4A7C0F9E162BCE33576B315ECECBB6406837BF51F5)

/-- b ^ e modulo m, for exponents of at most 256 bits. -/
def powMod (m b e : Nat) : Nat :=
  (List.range 256).foldl (fun r i => let q := r * r % m; if e.testBit (255 - i) then q * b % m else q) 1

/-- The inverse modulo a prime. -/
def invMod (m x : Nat) : Nat := powMod m (x % m) (m - 2)

/-- The sum of two points of the curve; `none` is the point at infinity. -/
def ecAdd : Option (Nat × Nat) → Option (Nat × Nat) → Option (Nat × Nat)
  | none, q => q
  | p, none => p
  | some (x1, y1), some (x2, y2) =>
    let P := p256P
    if x1 = x2 ∧ (y1 + y2) % P = 0 then none
    else
      let l := if x1 = x2 then (3 * x1 * x1 + P - 3) * invMod P (2 * y1) % P else (y2 + P - y1) * invMod P (x2 + P - x1) % P
      let x3 := (l * l + 2 * P - x1 - x2) % P
      some (x3, (l * (x1 + P - x3) + P - y1) % P)

/-- k times a point. -/
def ecMul (k : Nat) (q : Nat × Nat) : Option (Nat × Nat) :=
  (List.range 256).foldl (fun r i => let d := ecAdd r r; if k.testBit (255 - i) then ecAdd d (some q) else d) none

/-- A point lies on the curve. -/
def onCurve (q : Nat × Nat) : Bool :=
  decide (q.1 < p256P) && decide (q.2 < p256P) && decide (q.2 * q.2 % p256P = (q.1 * q.1 * q.1 + (p256P - 3) * q.1 + p256B) % p256P)

/-- The ECDSA signature `r`, `t` of the digest `e` verifies under the public key `q`. -/
def ecdsaVerify (q : Nat × Nat) (r t e : Nat) : Bool :=
  if !onCurve q ∨ r = 0 ∨ p256N ≤ r ∨ t = 0 ∨ p256N ≤ t then false
  else
    let w := invMod p256N t
    match ecAdd (ecMul (e * w % p256N) p256G) (ecMul (r * w % p256N) q) with
    | some (x, _) => x % p256N = r
    | none => false

/-- A public key and a signature, each as 16 little-endian words holding two big-endian numbers, over the SHA-256 of words (R521, R545). -/
def signatureOk (key sig msg : List W32) : Bool :=
  let k := leBytes key
  let g := leBytes sig
  ecdsaVerify (beNat (k.take 32), beNat (k.drop 32)) (beNat (g.take 32)) (beNat (g.drop 32)) (beNat (sha256 (leBytes msg)))

end Sys2Proof.Machine
end

