-- ==== Sys2Proof/Machine/Output.lean ====
section
/-!
DEFINITION. The output stage (R44, R52, R71, R94, R127, R131, R132, R146, R329): the words of an output's lines as they are read from its
Seam store, from a generator, or from the loss policy, with the embedder's audio.
-/
namespace Sys2Proof.Machine

/-! ## Embedded audio (R132, R328, R329) -/

/-- The audio groups of output slot `d` that the matrix embeds. -/
def State.embedGroups (s : State) (d : Nat) : List Nat :=
  (List.range 4).filter fun g => s.audDst.any fun p => p.2.kind = 1 ∧ p.2.owner = d ∧ p.2.index / 4 = g

/-- Destination sample `m` of channel `c` of a group of output slot `d` in a Side: invalid silence for a sample that its delay line took in before the Side's
LOAD ended (R179). -/
def State.embedSample (s : State) (sd : Side) (d g c m : Nat) : W32 :=
  match s.audDst.find? fun p => p.2.kind = 1 ∧ p.2.owner = d ∧ p.2.index = 4 * g + c with
  | none => invalidSilence
  | some p => s.dstSample sd p.1 m

/-- The start of line `l` of output frame `f`; line 0 is the line before the first. -/
def State.lineStart (s : State) (d : Nat) (f : Int) (l : Nat) : Int :=
  let fm := (s.outPlan.at d).fmt
  s.outStart d (s.outs.at d) f + (if l = 0 then -(fm.lineAt 2 : Int) else (fm.lineAt l : Int))

/-- The sample indices that fall in line `l` of output frame `f`: it is the first line that starts at or after t_m + 2 µs (R329), oldest first. -/
def State.samplesOn (s : State) (d : Nat) (f : Int) (l : Nat) : List Nat :=
  let lo := s.lineStart d f (l - 1)
  let hi := s.lineStart d f l
  ((s.audTimes.filter fun p => lo < p.2 + 2000 * nsU ∧ p.2 + 2000 * nsU ≤ hi).map (·.1)).reverse

/-- The AUDIO_BLOCK markers of the embedder on a line: one before a packet with a sample of m mod (f / 1 000) = 0 (R329). -/
def State.embedMarks (s : State) (d : Nat) (f : Int) (l : Nat) : List W32 :=
  let n := s.audRate / 1000
  (s.embedGroups d).flatMap fun g =>
    ((s.samplesOn d f l).filter fun m => m % n = 0).map fun m => markWord 4 l (g * 2 ^ 12 + m / n % 4096)

/-- The embedder's packets on a line (R329). -/
def State.embedPackets (s : State) (sd : Side) (d : Nat) (f : Int) (l : Nat) : List (List Nat) :=
  let ms := s.samplesOn d f l
  (s.embedGroups d).flatMap fun g =>
    Config.audioPackets (s.outPlan.at d).fmt.code g f.toNat l (ms.map fun m => (m, (List.range 4).map fun c => s.embedSample sd d g c m))

/-! ## Ancillary data of the source (R131, R132, R146) -/

/-- The words of one ancillary MARK of a line as the store holds them, cut where a block was not written (R127). -/
def storedAnc (l : List Placed) (f line mark : Nat) : List (List W32) :=
  let at_ (i : Nat) : Option Placed := l.find? fun p => p.frame = f ∧ p.line = line ∧ p.mark = mark ∧ p.idx = i
  ((List.range 130).foldl (fun (a : List (List W32) × List W32) i =>
    match at_ i with
    | some p => (a.1, a.2 ++ p.words)
    | none => if a.2 = [] then a else (a.1 ++ [a.2], [])) ([], [])).1

/-- The ancillary packets, from DID to checksum, that a line of the store holds whole and with a good checksum. -/
def storedPackets (l : List Placed) (f line mark : Nat) : List (List Nat) :=
  ((storedAnc l f line mark).flatMap fun ws => ancPackets (3 * ws.length + 1) (ancTens ws)).filter ancSumOk

/-- The gain of a Bench copy's embedded audio at an instant, in 2^-16 ns out of 1 ms: it ramps to zero over the last 1 ms before a discontinuity and
up over the first 1 ms after it; where two ramps overlap the lower applies (R146). -/
def Bench.gainAt (q : Bench) (t : Int) : Nat := q.breaks.foldl (fun g b => min g (t - b).natAbs) msU

/-- A packet of a Bench's copy as the output carries it: its samples at the gain in force, and its audio frame number that of the output's sequence
(R146). -/
def State.benchPacket (s : State) (d b : Nat) (f : Int) (t : Int) (p : List Nat) : List Nat :=
  let g := (s.benches.at b).gainAt t
  let body := Config.audioNumbered (s.outPlan.at d).fmt.code f.toNat p.dropLast
  ancMake (if g < msU then Config.audioScaled g body else body)

/-- The packet passes to the output: it is no payload identifier, which the output stage regenerates (R131), nor of an audio group that the matrix
embeds (R132). -/
def State.ancPasses (s : State) (d : Nat) (p : List Nat) : Bool :=
  !Config.isPayloadId p && !((Config.audioGroup p).any fun g => (s.embedGroups d).contains g)

/-- The source's packets of one kind, vertical (7) or horizontal (8), on a line of output frame `f`, from flag to checksum. -/
def State.sourcePackets (s : State) (sd : Side) (d : Nat) (f line mark : Nat) : List (List Nat) :=
  let own := s.ownerAt d f line
  let st := s.stores.at (2 * d + sd.idx)
  let ps := if own.2 = none ∧ 1056 ≤ own.1 then
      (if mark = 8 then (s.genPackets (own.1 - 1056) (s.outPlan.at d).fmt (f + (s.outs.at d).shift).toNat line).map (·.drop 3) else [])
    else storedPackets st f line mark
  (ps.filter (s.ancPasses d)).map fun p =>
    match own.2 with
    | some b =>
      let t := ((st.find? fun q => q.frame = f ∧ q.line = line ∧ q.mark = mark).map (·.time)).getD 0
      s.benchPacket d b f t p
    | none => ancFlagged p

/-- The AUDIO_BLOCK markers of the source on a line, for the groups that pass (R132). -/
def State.sourceMarks (s : State) (sd : Side) (d f line : Nat) : List W32 :=
  (((s.stores.at (2 * d + sd.idx)).filter fun p => p.frame = f ∧ p.line = line ∧ 3 ≤ p.mark ∧ p.mark ≤ 6).flatMap (·.words)).filter fun w =>
    isType 4 w && !(s.embedGroups d).contains (markSpec w / 2 ^ 12)

/-! ## Lines (R44, R127, R131) -/

/-- A line of the frame in progress is black: its source is lost and the policy is not the Bench's repeats, or the source returns further down
(R94). -/
def State.lineBlack (s : State) (sd : Side) (d line : Nat) : Bool :=
  let h := s.shown.at (2 * d + sd.idx)
  !s.shows d h.cause || decide (line < h.back)

/-- The VIDEO words of the i-th active line, number `line`, of output frame `f`: the owner's, with black in the positions that hold no word. -/
def State.outVideo (s : State) (sd : Side) (d f line i : Nat) : List W32 :=
  let fm := (s.outPlan.at d).fmt
  let own := s.ownerAt d f line
  if s.lineBlack sd d line then (List.range fm.lineWords).map (blackWord fm)
  else if own.2 = none ∧ 1056 ≤ own.1 then s.genVideo (own.1 - 1056) fm (f + (s.outs.at d).shift).toNat i
  else
    let got := lineVideo (s.stores.at (2 * d + sd.idx)) f line
    (List.range fm.lineWords).map fun j => ((got.find? fun p => p.1 = j).map (·.2)).getD (blackWord fm j)

/-- The ancillary packets of a line of output frame `f`, from flag to checksum: the vertical ones, and the horizontal ones with the payload
identifier and the embedder's packets. -/
def State.outPackets (s : State) (sd : Side) (d f line : Nat) (vpid : Bool) : List (List Nat) × List (List Nat) :=
  let fm := (s.outPlan.at d).fmt
  let src (mark : Nat) := if s.lineBlack sd d line then [] else s.sourcePackets sd d f line mark
  let own := if vpid then (Config.payloadId fm.code fm.il fm.seg line).toList.map ancMake else []
  (src 7, own ++ src 8 ++ s.embedPackets sd d f line)

/-- The ancillary words of a line of output frame `f`. -/
def State.outAnc (s : State) (sd : Side) (d f line : Nat) (vpid : Bool) : List W32 :=
  let marks := if s.lineBlack sd d line then [] else s.sourceMarks sd d f line
  let p := s.outPackets sd d f line vpid
  marks ++ s.embedMarks d f line ++ ancRun false line p.1 ++ ancRun true line p.2

/-- Line `line` of output frame `f` in a Side, in the order of R44. -/
def State.outLine (s : State) (sd : Side) (d f line : Nat) (vpid : Bool) : List W32 :=
  let fm := (s.outPlan.at d).fmt
  frameLine fm f line (s.outAnc sd d f line vpid) ((activeIndex fm line).map (s.outVideo sd d f line))

/-- The words of line `l` of output frame `f` that have been put out by instant `t`: none of a line that has not begun, or of one after a jump that ended the
frame (R92), and the share of the line in progress. DESIGN CHOICE: the words of a line are put out evenly over its period, which the spec leaves open (log
entry 119). -/
def State.lineBy (s : State) (sd : Side) (d f l : Nat) (t : Int) (vpid : Bool) : List W32 :=
  let fm := (s.outPlan.at d).fmt
  let stop := ((s.shown.at (2 * d + sd.idx)).cut).getD ((rasterLines fm.raster).1 + 1)
  let at_ := s.lineStart d f l
  if stop ≤ l ∨ t < at_ then []
  else
    let ws := s.outLine sd d f l vpid
    ws.take ((ws.length * (t - at_).toNat) / max 1 fm.linePeriod + 1)

/-- A lost source under FOLLOW: a Nervor or Ethernet position sends nothing of the output (R94). -/
def State.outQuiet (s : State) (sd : Side) (d : Nat) : Bool :=
  decide ((s.shown.at (2 * d + sd.idx)).cause ≠ .none) && decide (getF (s.twin .XPT_OUT_CFG d) F.XPT_OUT_CFG_LOSS = 2)

/-- The words of the frame in progress that a transmit position has not taken yet enter its queue, line by line, distributed over the members of a
group (R52, R154). -/
def State.readLines (s : State) (sd : Side) (low m g f : Nat) (t : Int) : Nat → TxQ → TxQ
  | 0, q => q
  | fuel + 1, q =>
    let fm := (s.outPlan.at low).fmt
    if (rasterLines fm.raster).1 < q.line then q
    else
      let ws := if s.outQuiet sd low then [] else s.lineBy sd low f q.line t true
      let new := ws.drop q.count
      let q' := { q with
        count := ws.length, q := q.q ++ memberWords g m q.turn new, turn := new.foldl (fun k w => if isMark w then 0 else k + 1) q.turn }
      if s.lineStart low f (q.line + 1) ≤ t then s.readLines sd low m g f t fuel { q' with line := q.line + 1, count := 0 } else q'

/-- What output slot `d` has ready for its transmit position in a Side by instant `t`. -/
def State.readOut (s : State) (sd : Side) (d : Nat) (q : TxQ) (t : Int) : TxQ :=
  let p := s.outPlan.at d
  let low := if p.slots = 1 then d else p.lowest
  match (s.shown.at (2 * low + sd.idx)).frame with
  | none => q
  | some f =>
    let q := if q.frame = some f then q else { q with frame := some f, line := 1, count := 0, turn := 0 }
    s.readLines sd low (d - low) p.slots f t ((rasterLines (s.outPlan.at low).fmt.raster).1 + 1) q

end Sys2Proof.Machine
end

