-- ==== Sys2Proof/Machine/Assay.lean ====
section
/-!
DEFINITION. The referee's view of the Sides (R160, R163, R165), and Assay's lines, history and quiet timers (chapter 17).  What the
referee does about a rise is in `Referee.lean`.
-/
namespace Sys2Proof.Machine

/-! ## The Sides as the referee sees them -/

/-- The lease period in ticks (R163, R191). -/
def State.leaseTicks (s : State) : Nat := max 100 (min 100000 (s.fld (R0 .RFE_LEASE) F.RFE_LEASE_PERIOD)) * usTicks

/-- The watchdog period in ticks (R191). -/
def State.wdogTicks (s : State) : Nat := max 10 (min 100000 (s.fld (R0 .RFE_WDOG_PERIOD) F.RFE_WDOG_PERIOD_WDOG)) * usTicks

/-- A Side is READY (R165). -/
def State.ready (s : State) (sd : Side) : Bool :=
  let x := s.side sd
  if x.cold then x.coldReady
  else !x.inReset && !x.isolated && (match x.lastBeat with
    | some t => decide (s.tick ≤ t + s.leaseTicks)
    | none => false)

/-- The standby class: 0 HOT, 1 WARM, 2 COLD (R192). -/
def State.standbyClass (s : State) : Nat := s.fld (R0 .RFE_STATE) F.RFE_STATE_CLASS

/-- A lane transmits a lane stream that its Sluice compares (R160, R221). -/
def State.transmitting (s : State) (l : Nat) : Bool :=
  let st := s.rd (R1 .LANE_STAT l)
  decide (s.laneProto l ≠ 0) && bitOf st 5 && decide (getF st F.LANE_STAT_PARK ≤ 1) &&
    !s.inTest l

/-- The transmitting lanes that take part in the Side judgement (R160). -/
def State.judgedLanes (s : State) : List Nat :=
  (List.range 512).filter fun l => s.transmitting l && !s.flag (R1 .SLU_CFG l) F.SLU_CFG_STEP_EXCL

/-- A Side is standby and in step (R160). -/
def State.inStep (s : State) (sd : Side) : Bool :=
  decide (s.holder = some sd.other) && s.live sd && !(s.side sd).warm && decide (s.phase sd = 0 ∨ s.phase sd = 3) &&
    s.judgedLanes.all fun l => s.flag (R1 .SLU_STAT l) F.SLU_STAT_STEP_OK

/-- What a Side's claim should be differs from what it is (R166): 1 it claims without the lease, 2 it holds without a claim. -/
def State.claimDiffers (s : State) (sd : Side) : Nat :=
  let claims := bitOf (s.rd (R1 .RFE_CLAIM sd.idx)) 0
  let holds := decide (s.holder = some sd)
  if claims && !holds then 1 else if holds && !claims then 2 else 0

/-- The referee notes since when each Side's claim has differed. -/
def State.noteClaims (s : State) : State :=
  let upd (s : State) (sd : Side) : State :=
    let x := s.side sd
    if s.claimDiffers sd = 0 then s.setSide sd { x with differ := none }
    else if x.differ.isNone then s.setSide sd { x with differ := some s.tick } else s
  upd (upd s .A) .B

/-- A conflict of a Side's claim is in force: it has differed for more than 100 µs (R166). -/
def State.inConflict (s : State) (sd : Side) : Bool :=
  match (s.side sd).differ with
  | some t => decide (t + 100 * usTicks < s.tick)
  | none => false

/-- RFE_WDOG has not been serviced for twice its period, since the later of the last service and the release (R506). -/
def State.wdogLapsed (s : State) (sd : Side) : Bool :=
  let x := s.side sd
  decide ((match x.wdogAt with
    | some t => max t x.released
    | none => x.released) + 2 * s.wdogTicks ≤ s.tick)

/-! ## Lines (R505 to R508) -/

/-- The Side of a line and its number j within the Side (R505). -/
def lineSide (l : Nat) : Side := if l < 16 then .A else .B

/-- Assay samples the line (R506). -/
def State.sampled (s : State) (l : Nat) : Bool :=
  if s.aoReset ∨ 41 ≤ l then false
  else if 32 ≤ l then true
  else
    let x := s.side (lineSide l)
    let j := l % 16
    if x.cold then j = 5 ∨ j = 14
    else if x.inReset || x.isolated then j = 4 ∨ j = 5 ∨ j = 8 ∨ j = 9 ∨ j = 14
    else true

/-- The lowest bit set of a register's instances 0 to 31, by a test. -/
def State.lowestPc (s : State) (sd : Side) (f : W32 → Bool) : Option Nat :=
  (List.range 32).find? fun p => f (s.rd (RS .HBM_PC_STAT sd p))

/-- The context word of a line that is asserted by the device's own state, or from outside; none while it is not (R506, R507). -/
def State.lineCtx (s : State) (l : Nat) : Option W32 :=
  let given : Option W32 := (s.envLines.find? fun p => p.1 = l).map (·.2)
  if l < 32 then
    let sd := lineSide l
    let th := s.therm.at sd.idx
    let heat := w32 (twos 8 th.max + 256 * th.sensor)
    match l % 16 with
    | 3 => (s.lowestPc sd fun x => getF x F.HBM_PC_STAT_MODE = 2).map w32
    | 5 => if th.trip then some heat else none
    | 6 => if s.wdogLapsed sd then some 0 else none
    | 7 =>
      if s.holder = some sd.other ∧ s.ready sd ∧ s.phase sd = 0 ∧ !s.inStep sd then
        some (w32 ((s.judgedLanes.find? fun n => !s.flag (R1 .SLU_STAT n) F.SLU_STAT_STEP_OK).getD 0))
      else none
    | 13 => if s.inConflict sd then some (w32 (s.claimDiffers sd)) else none
    | 14 => if th.warn then some heat else none
    | 15 => if s.flag (RS .HBM_STAT sd 0) F.HBM_STAT_HOT then some (w32 (s.fld (RS .HBM_TEMP sd 0) F.HBM_TEMP_TEMP)) else none
    | _ => given
  else
    match l with
    | 35 =>
      let st := s.fld (R0 .REF_STAT) F.REF_STAT_STATE
      let c := s.fld (R0 .REF_STAT) F.REF_STAT_SEL
      if st = 3 ∨ (st = 0 ∧ s.fld (R0 .REF_CFG) F.REF_CFG_MODE ≠ 3) then
        some (w32 (if c = 15 then s.fld (R0 .REF_STAT) F.REF_STAT_PREV else c))
      else none
    | 38 => if s.flag (R0 .REF_STAT) F.REF_STAT_OSC ∧ s.fld (R0 .REF_CFG) F.REF_CFG_HOLD_MHZ ≠ 0 then some 0 else none
    | 39 => if !s.flag (R0 .HAF_STAT) F.HAF_STAT_RING_OK ∧ s.fld (R0 .RFE_CFG) F.RFE_CFG_MODE = 1 then some 0 else none
    | _ => given

/-- The register and bit of a line in ASY_STATUS, ASY_LIVE or ASY_EVMASK (R518). -/
def lineBit (lo hi : RegName) (l : Nat) : RegKey × Nat := if l < 32 then (R0 lo, l) else (R0 hi, l - 32)

/-- A line's bit in a pair of registers. -/
def State.lineFlag (s : State) (lo hi : RegName) (l : Nat) : Bool := bitOf (s.rd (lineBit lo hi l).1) (lineBit lo hi l).2

/-- The limits of a line's severity (R506, R507). -/
def sevRange (l : Nat) : Nat × Nat :=
  if l < 32 then
    match l % 16 with
    | 0 => (3, 3) | 1 => (2, 3) | 2 => (1, 3) | 3 => (2, 3) | 4 => (2, 3) | 5 => (3, 3) | 6 => (0, 2) | 7 => (0, 1)
    | 8 => (3, 3) | 9 => (3, 3) | 10 => (2, 3) | 11 => (1, 1) | _ => (0, 0)
  else if l < 41 then (0, 1) else (0, 0)

/-- The severity in force of a line (R508). -/
def State.sevOf (s : State) (l : Nat) : Nat := (s.rd (R1 .ASY_SEV l)).toNat % 4

/-! ## Quiet timers (R512) -/

/-- QUIET in ticks (R520). -/
def State.quietTicks (s : State) : Nat := max 1 (min 60000 (s.fld (R0 .ASY_ISO_CFG) F.ASY_ISO_CFG_QUIET)) * msTicks

/-- The ticks left on a Side's quiet timer. -/
def State.quietNow (s : State) (sd : Side) : Nat :=
  let x := s.side sd
  if x.held then x.quietLeft else x.quietLeft - (s.tick - x.quietAt)

/-- A line of the Side that is live stops the quiet timer: its latest rise had severity 2 or 3. -/
def State.quietHeld (s : State) (sd : Side) : Bool :=
  (List.range 16).any fun j =>
    let l := 16 * sd.idx + j
    s.lineFlag .ASY_LIVE0 .ASY_LIVE1 l && decide (2 ≤ s.sevAt.at l)

/-- The quiet timer of an isolated Side is brought up to now, restarted at its full value if `restart`. -/
def State.quietUpdate (s : State) (sd : Side) (restart : Bool) : State :=
  let x := s.side sd
  if x.isolated then
    s.setSide sd { x with quietLeft := if restart then s.quietTicks else s.quietNow sd, quietAt := s.tick, held := s.quietHeld sd }
  else s

/-! ## Rises (R509 to R511) -/

/-- A line that rises: its number, context word and severity. -/
structure Rise where
  line : Nat
  ctx  : W32
  sev  : Nat
deriving DecidableEq, Repr

/-- The rises of one cycle in Assay's order: higher severity first, then lower line number (R509). -/
def riseOrder (rs : List Rise) : List Rise :=
  [3, 2, 1, 0].flatMap fun v => (List.range 48).flatMap fun l => rs.filter fun r => r.sev = v ∧ r.line = l

/-- One rise is latched and recorded (R509 to R511). -/
def State.recordRise (s : State) (r : Rise) (same : Bool) : State :=
  let st := R0 .ASY_HIST_STAT
  let q := (s.fld st F.ASY_HIST_STAT_SEQ + 1) % 65536
  let head := (s.fld st F.ASY_HIST_STAT_HEAD + 1) % 32
  let full := decide (s.fld st F.ASY_HIST_STAT_COUNT = 32)
  let n := (s.tbs.at 0).t / 2 ^ 48 % 2 ^ 64
  let ws := [w32 (r.line + 64 * r.sev + 256 * b2n same + 512 + 65536 * q), w32 (n % 2 ^ 32), w32 (n / 2 ^ 32), r.ctx]
  let put (s : State) (f : Nat → RegKey) : State := (List.range 4).foldl (fun (s : State) w => s.wr (f w) (ws.getD w 0)) s
  let s := put s fun w => R2 .ASY_HIST head w
  let s := ((s.setF st F.ASY_HIST_STAT_HEAD head).setF st F.ASY_HIST_STAT_SEQ q).addSat st F.ASY_HIST_STAT_COUNT (b2n !full)
  let s := if full then s.addWrap (R0 .ASY_HIST_SPOIL) 1 else s
  let s := if bitOf (s.rd (R1 .ASY_FIRST 0)) 9 then s else put s fun w => R1 .ASY_FIRST w
  let b := lineBit .ASY_STATUS0 .ASY_STATUS1 r.line
  let s := s.wr b.1 (s.rd b.1 ||| bit1 b.2)
  let s := { s with sevAt := s.sevAt.set r.line r.sev }
  if s.lineFlag .ASY_EVMASK0 .ASY_EVMASK1 r.line then s.setSource (sharedSrc 88) else s

/-- Assay samples every line in one referee cycle; `pulses` are lines asserted for that cycle alone. What rises is latched, ordered and
recorded (R505, R509 to R512); the rises are returned for the referee. -/
def State.sample (s : State) (pulses : List (Nat × W32)) : List Rise × State :=
  let level (l : Nat) : Option W32 :=
    if s.sampled l then
      match pulses.find? fun p => p.1 = l with
      | some p => some p.2
      | none => s.lineCtx l
    else none
  let lv := (List.range 48).filterMap fun l => (level l).map fun c => (l, c)
  let rises := lv.filterMap fun p =>
    if s.lineFlag .ASY_LIVE0 .ASY_LIVE1 p.1 ∧ !(pulses.any fun q => q.1 = p.1) then none
    else some { line := p.1, ctx := p.2, sev := s.sevOf p.1 : Rise }
  let on := lv.filter fun p => (s.lineCtx p.1).isSome
  let word (lo : Nat) : W32 := w32 ((on.filter fun p => lo ≤ p.1 ∧ p.1 < lo + 32).foldl (fun n p => n + 2 ^ (p.1 - lo)) 0)
  let s := (s.quietUpdate .A false).quietUpdate .B false
  let s := (s.wr (R0 .ASY_LIVE0) (word 0)).wr (R0 .ASY_LIVE1) (word 32)
  let rs := riseOrder rises
  let s := rs.foldl (fun (s : State) r => s.recordRise r (decide (1 < rs.length))) s
  let again (sd : Side) : Bool := rs.any fun r => decide (r.line < 32 ∧ lineSide r.line = sd ∧ 2 ≤ r.sev)
  (rs, (s.quietUpdate .A (again .A)).quietUpdate .B (again .B))

/-- ASY_SIDE_STAT.DEGRADED of a Side (R508). -/
def State.degraded (s : State) (sd : Side) : Bool :=
  (List.range 16).any fun j =>
    let l := 16 * sd.idx + j
    s.lineFlag .ASY_STATUS0 .ASY_STATUS1 l && decide (1 ≤ s.sevAt.at l)

/-- ASY_HIST_STAT.DEGRADED_SHARED (R508). -/
def State.degradedShared (s : State) : Bool :=
  (List.range 9).any fun i => s.lineFlag .ASY_STATUS0 .ASY_STATUS1 (32 + i) && decide (s.sevAt.at (32 + i) = 1)

end Sys2Proof.Machine
end

