-- ==== Sys2Proof/Machine/Referee.lean ====
section
/-!
DEFINITION. The referee and its voters, resynchronisation, standby depth and the Harif ring (chapter 5), and what Assay's rises, its timers
and the firmware lines do (chapter 17).
-/
namespace Sys2Proof.Machine

/-! ## Being in step (R160, R161) -/

/-- Since when a Side has been in step. -/
def State.noteStep (s : State) (sd : Side) (now : Bool) : State :=
  let x := s.side sd
  s.setSide sd { x with stepSince := if now then some (x.stepSince.getD s.tick) else none }

/-- The standby's being in step is brought up to date, with STEP_LOST, STEP_GAINED, the end of COMPARE and the run that R161 limits. DESIGN
CHOICE: the resynchronisation of a Side that holds the lease, which is never in step, ends where COMPARE would begin; the spec does not say what its
PHASE then reads (log entry 122). -/
def State.updateStep (s : State) : State :=
  let st := R0 .RFE_STATE
  let was := s.flag st F.RFE_STATE_STEP_A || s.flag st F.RFE_STATE_STEP_B
  let a := s.inStep .A
  let b := s.inStep .B
  let s := (s.setF st F.RFE_STATE_STEP_A (b2n a)).setF st F.RFE_STATE_STEP_B (b2n b)
  let s := if was && !(a || b) then s.raise (R0 .RFE_EVT) F.RFE_EVT_STEP_LOST
    else if !was && (a || b) then s.raise (R0 .RFE_EVT) F.RFE_EVT_STEP_GAINED else s
  let done (s : State) (sd : Side) (now : Bool) : State :=
    if now && decide (s.phase sd = 3) then
      let k := R1 .RFE_RESYNC sd.idx
      let us := (s.tick - ((s.side sd).resyncAt.getD s.tick)) / usTicks
      let s := (s.setF k F.RFE_RESYNC_PHASE 0).setF k F.RFE_RESYNC_LAST_US (satU 24 us)
      s.setSide sd { s.side sd with resyncAt := none }
    else s
  let ended (sd : Side) (in_ : Bool) : Bool := in_ || decide (s.holder = some sd)
  let s := ((done (done s .A (ended .A a)) .B (ended .B b)).noteStep .A a).noteStep .B b
  match s.holder with
  | some x =>
    let y := x.other
    if !(a || b) && s.ready y && decide (s.standbyClass = 0) && decide (s.phase y = 0) then
      if s.outSince.isNone then { s with outSince := some s.tick } else s
    else { s with outSince := none }
  | none => { s with outSince := none }

/-- The slowest active output format (R178): the one with the longest frame period, or that of counter 0. -/
def State.slowestFmt (s : State) : Fmt :=
  match s.outPlan.filter fun p => p.2.txE.isSome || p.2.txW.isSome with
  | [] => s.cadFmt 0
  | p :: t => t.foldl (fun m q => if m.period < q.2.fmt.period then q.2.fmt else m) p.2.fmt

/-- Its frame period. -/
def State.slowestPeriod (s : State) : Nat := s.slowestFmt.period

/-- L_W, three frames of it, as a fraction of nanoseconds (R181). -/
def State.warmLat (s : State) : Nat × Nat := (3 * s.slowestFmt.periodFrac.1, s.slowestFmt.periodFrac.2)

/-- A lane that no longer transmits takes no part in the comparison: its Sluice's status but for its selection is cleared (R160, R197). -/
def State.sluiceStop (s : State) (l : Nat) : State :=
  if s.transmitting l then s
  else
    let q := s.sluices.at l
    let s := s.wr (R1 .SLU_STAT l) (s.rd (R1 .SLU_STAT l) &&& F.SLU_STAT_SEL.mask)
    { s with sluices := s.sluices.set l { fmt := q.fmt } }

/-! ## Side resets (R18, R167, R178, R371) -/

/-- An index of an array that holds both Sides' instances, 2 n + Side, belongs to a Side. -/
def ofSide (sd : Side) (i : Nat) : Bool := decide (i % 2 = sd.idx)

/-- Everything a Side holds returns to its reset value: its registers and its streams, stores, rings and content. -/
def State.clearSide (s : State) (sd : Side) : State :=
  { s with
    regs := s.regs.filter fun (e : RegKey × W32) => !(decide (e.1.name.row.space = Space.side) && ofSide sd e.1.bank)
    merges := s.merges.filter fun e => !ofSide sd e.1
    shown := s.shown.filter fun e => !ofSide sd e.1
    stores := s.stores.filter fun e => !ofSide sd e.1
    captures := s.captures.filter fun e => !ofSide sd e.1
    feeds := s.feeds.filter fun e => !ofSide sd e.1
    txqs := s.txqs.filter fun e => !ofSide sd e.1
    txBufs := s.txBufs.filter fun e => !ofSide sd e.1
    benchIn := s.benchIn.filter fun e => !ofSide sd e.1
    benchMem := s.benchMem.filter fun e => !ofSide sd (e.1 / 4)
    tiles := s.tiles.filter fun e => !ofSide sd e.1
    alyStore := s.alyStore.filter fun e => !ofSide sd e.1
    hbmRun := s.hbmRun.filter fun e => !ofSide sd e.1
    hbmMax := s.hbmMax.set sd.idx none
    hbmTempAt := s.hbmTempAt.set sd.idx none
    audLate := s.audLate.filter fun e => !ofSide sd e.1
    hoppers := s.hoppers.filter fun e => !ofSide sd (e.1 / 64) }.setAly sd []

/-- A Side is reset: the boot core will load its firmware again, and it resynchronises (R167, R529). -/
def State.resetSide (s : State) (sd : Side) : State :=
  let x := s.side sd
  let s := (s.clearSide sd).masterReset (4 + sd.idx) (Req.ofSide sd) {}
  let s := s.setSide sd { inReset := true, isolated := x.isolated, latched := x.latched, quietLeft := x.quietLeft, quietAt := x.quietAt, held := x.held, releases := x.releases, powered := x.powered, pg := x.pg, pwrAt := x.pwrAt, differ := x.differ }
  (s.setF (R1 .RFE_RESYNC sd.idx) F.RFE_RESYNC_PHASE 0).noteClaims.updateStep

/-- A Side is isolated: held in reset until Assay releases it (R512). -/
def State.isolate (s : State) (sd : Side) : State :=
  let x := s.side sd
  if x.isolated then s
  else (s.setSide sd { x with isolated := true, quietLeft := s.quietTicks, quietAt := s.tick, held := s.quietHeld sd }).resetSide sd

/-- A Side begins to resynchronise: LOAD, from the holder where the other Side is, else without copying (R178); `kept`: its own content stays
(R182). -/
def State.startResync (s : State) (sd : Side) (kept : Bool) : State :=
  let s := s.setF (R1 .RFE_RESYNC sd.idx) F.RFE_RESYNC_PHASE 1
  let kind := if kept then 2 else if s.holder = some sd.other then 0 else 1
  (s.setSide sd { s.side sd with resyncAt := some s.tick, loadKind := kind }).updateStep

/-- The Benches start in PRIMING (R178, R182). -/
def State.primeBenches (s : State) : State :=
  { s with benches := s.benches.map fun p =>
      if p.2.st = .free then p
      else (p.1, { p.2 with st := .priming, bufs := [{}, {}, {}], decided := none, shown := none }) }

/-! ## The lease (R163, R167, R171, R182) -/

/-- The holder's lease is renewed to the full period (R163). -/
def State.renew (s : State) : State := { s with leaseEnd := s.tick + s.leaseTicks, grace := none }

/-- What at least two of the three voters carry (R162). -/
def voteOf (v : List Nat) : Option Nat := v.find? fun x => decide (2 ≤ v.count x)

/-- Every Sluice follows the value that at least two of its three select lines carry; where none does, or it names no Side, it keeps its selection
(R162). -/
def State.drive (s : State) : State :=
  let follow (s : State) (y : Nat) : State := (List.range 512).foldl (fun (s : State) l =>
    let s' := s.setF (R1 .SLU_STAT l) F.SLU_STAT_SEL y
    if s.fld (R1 .SLU_STAT l) F.SLU_STAT_SEL = y then s' else s'.raise (R1 .SLU_EVT l) F.SLU_EVT_FLIP) s
  match voteOf s.voters with
  | some 1 => follow s 0
  | some 2 => follow s 1
  | _ => s

/-- The Side that the majority of the Sluices' own selections name (R169). -/
def State.sluicesName (s : State) : Side :=
  if 2 * ((List.range 512).filter fun l => s.flag (R1 .SLU_STAT l) F.SLU_STAT_SEL).length ≤ 512 then .A else .B

/-- The three voters enter a state, and drive their select lines. -/
def State.vote (s : State) (st : Nat) : State :=
  ({ s.setF (R0 .RFE_STATE) F.RFE_STATE_STATE st with voters := [st, st, st] } : State).drive

/-- The lease goes to a Side, and every Sluice selects it. -/
def State.select (s : State) (y : Side) : State := ((s.vote (y.idx + 1)).renew).noteClaims

/-- L_W in ticks (R181). -/
def State.warmTicks (s : State) : Nat := s.warmLat.1 * nsU / (s.warmLat.2 * tickU)

/-- A standby takes the class in force: WARM it idles, COLD it is powered down (R181, R183). -/
def State.settleStandby (s : State) (y : Side) : State :=
  let x := s.side y
  if x.inReset || x.isolated || x.cold then s
  else
    match s.standbyClass with
    | 1 =>
      let s : State := { s with hbmRun := s.hbmRun.map fun (e : Nat × PcSt) => if ofSide y e.1 then (e.1, { e.2 with owed := 0, closed := false, boundAt := none }) else e }
      let s := (List.range 32).foldl (fun (s : State) p =>
        (s.setF (RS .HBM_PC_STAT y p) F.HBM_PC_STAT_OWED 0).setF (RS .HBM_PC_STAT y p) F.HBM_PC_STAT_CATCH_UP 0) s
      let s : State := { s with shown := s.shown.filter fun e => !ofSide y e.1, txqs := s.txqs.filter fun e => !ofSide y e.1 }
      ((s.setSide y { x with warm := true }).setF (RS .HBM_STAT y 0) F.HBM_STAT_SELF_REFRESH 1).updateStep
    | 2 =>
      let r := s.ready y
      let s := (s.clearSide y).setHbm y []
      (s.setSide y { x with cold := true, warm := false, coldReady := r, inReset := false, trained := false, resyncAt := none, powered := false, pwrAt := none }).updateStep
    | _ => s

/-- A WARM Side restarts its crosspoint, and its HBM leaves self-refresh (R182, R183). -/
def State.wakeSide (s : State) (y : Side) (kept : Bool) : State :=
  ((s.setSide y { s.side y with warm := false }).setF (RS .HBM_STAT y 0) F.HBM_STAT_SELF_REFRESH 0).startResync y kept

/-- A side that was parked takes the lease (R182): WARM it restarts its crosspoint and Benches; COLD it is powered and loaded again, without
content. Expiry is suspended until its first heartbeat, for its class's latency and one lease period. -/
def State.wakeHolder (s : State) (y : Side) : State :=
  let x := s.side y
  if x.cold then
    let s := s.setSide y { x with cold := false, coldReady := false, inReset := true, lastBeat := none, nextBeat := none, pwrAt := some s.tick }
    let s := s.raise (R0 .RFE_EVT) F.RFE_EVT_CONTENT_LOST
    { s with grace := some (s.tick + 2 * secTicks + s.leaseTicks) }
  else if x.warm then
    let s := s.primeBenches.wakeSide y true
    { s with grace := some (s.tick + s.warmTicks + s.leaseTicks) }
  else s

/-- A pending planned switch-over is discarded because the lease moves for another cause (R176). -/
def State.preempt (s : State) : State :=
  match s.planned with
  | none => s
  | some _ =>
    let s := { s with planned := none }
    (s.setF (R0 .RFE_CMD_RES) F.RFE_CMD_RES_PENDING 0).setF (R0 .RFE_CMD_RES) F.RFE_CMD_RES_STATUS 9

/-- Flip to Y (R167): the lease passes from X, the move is recorded, and every Sluice selects Y. -/
def State.flipTo (s : State) (y : Side) (cause line : Nat) : State :=
  let lacks := s.flag (R0 .RFE_STATE) F.RFE_STATE_QUIET || (List.range 512).any fun l =>
    s.transmitting l && (s.flag (R1 .SLU_STAT l) F.SLU_STAT_GAP ||
      !s.flag (R1 .SLU_STAT l) (if y = .A then F.SLU_STAT_ALIGNED_A else F.SLU_STAT_ALIGNED_B))
  let s := if cause = 5 then s else s.preempt
  let s := s.addWrap (R0 .RFE_FO_COUNT) 1
  let s := s.wr (R0 .RFE_LAST) (w32 (cause + 8 * y.other.idx + 16 * b2n lacks + 32 * line))
  let s := s.raise (R0 .RFE_EVT) (if cause = 5 then F.RFE_EVT_PLANNED else F.RFE_EVT_FAILOVER)
  ((s.select y).wakeHolder y).updateStep

/-- The lease is revoked and no Side holds it: NONE (R167). -/
def State.enterNone (s : State) : State :=
  let s := (s.vote 3).raise (R0 .RFE_EVT) F.RFE_EVT_NONE
  let s := { s with grace := none }
  s.preempt.noteClaims.updateStep

/-- External decisions are followed (R186, R188). -/
def State.extActive (s : State) : Bool := s.flag (R0 .RFE_STATE) F.RFE_STATE_EXT_ACTIVE

/-- Severity-2 errors and parity failures move the lease (R187). -/
def State.localFo (s : State) : Bool := !s.extActive || s.flag (R0 .RFE_CFG) F.RFE_CFG_LOCAL_FO

/-- An error of severity 2 or 3 of a Side, on a line (R167, R168, R508); one of severity 2 only raises its events where LOCAL_FO says so
(R187). -/
def State.sideError (s : State) (x : Side) (sev line : Nat) : State :=
  let y := x.other
  if (s.side x).isolated then s
  else if sev != 3 && !s.localFo then
    s.raiseIf (decide (s.holder = some x) && !s.ready y) (R0 .RFE_EVT) F.RFE_EVT_NO_STANDBY
  else if s.holder = some x then
    if sev = 3 then
      let s := s.isolate x
      if s.ready y then s.flipTo y 1 line else s.enterNone
    else if s.ready y then (s.flipTo y 2 line).resetSide x
    else s.raise (R0 .RFE_EVT) F.RFE_EVT_NO_STANDBY
  else if sev = 3 then s.isolate x
  else s.resetSide x

/-- The referee acts on the rises of one cycle: the standby's event of highest rank first, then the holder's (R168). -/
def State.act (s : State) (rs : List Rise) : State :=
  let top (x : Side) : Option Rise := rs.find? fun r => decide (r.line < 32 ∧ lineSide r.line = x ∧ 2 ≤ r.sev)
  let one (s : State) (x : Side) : State := match top x with
    | some r => s.sideError x r.sev r.line
    | none => s
  match s.holder with
  | some x => one (one s x.other) x
  | none => one (one s .A) .B

/-- A line whose condition a heartbeat check covers (R508): fabric parity, an uncorrectable or exhausted HBM, a PLL unlocked. -/
def checkLine (l : Nat) : Bool := decide (l < 32) && decide (1 ≤ l % 16) && decide (l % 16 ≤ 4)

/-- A heartbeat check of a Side has failed (R164): one of its lines rose, or stood until now. -/
def State.noteFails (s : State) (old : W32) (rs : List Rise) : State :=
  let failed (sd : Side) : Bool := rs.any (fun r => checkLine r.line && decide (lineSide r.line = sd)) ||
    (List.range 32).any fun l => checkLine l && decide (lineSide l = sd) && bitOf old l && !bitOf (s.rd (R0 .ASY_LIVE0)) l
  let put (s : State) (sd : Side) : State := if failed sd then s.setSide sd { s.side sd with failedAt := some s.tick } else s
  put (put s .A) .B

/-- One sampling cycle: Assay records what rises and the referee acts on it. -/
def State.cycle (s : State) (pulses : List (Nat × W32)) : State :=
  let old := s.rd (R0 .ASY_LIVE0)
  let p := s.sample pulses
  (p.2.noteFails old p.1).act p.1

/-! ## Heartbeats and expiry (R163 to R165, R167) -/

/-- The holder's lease has expired (R163, R182). -/
def State.expired (s : State) : Bool :=
  match s.grace with
  | some t => decide (t ≤ s.tick)
  | none => decide (s.leaseEnd ≤ s.tick)

/-- The lease of the holder expires where it is due (R167). -/
def State.expire (s : State) : State :=
  match s.holder with
  | none => s
  | some x =>
    if !s.expired then s
    else
      let s := s.raise (R0 .RFE_EVT) F.RFE_EVT_EXPIRY
      if s.ready x.other then (s.flipTo x.other 4 0).resetSide x else s.enterNone

/-- A check of a Side's heartbeat fails in the present cycle: the watchdog's, or one whose line stands (R164, R508). -/
def State.failing (s : State) (sd : Side) : Bool :=
  let x := s.side sd
  (match x.wdogAt with
    | some t => decide (t + s.wdogTicks < s.tick)
    | none => true) || (List.range 32).any fun l => checkLine l && decide (lineSide l = sd) && (s.lineCtx l).isSome

/-- A Side's heartbeat grants it the lease in BOOT or NONE; Side A where both become READY in one cycle (R167). A parked Side wakes (R182). -/
def State.grant (s : State) (sd : Side) : State :=
  let s := ((s.select sd).raise (R0 .RFE_EVT) F.RFE_EVT_GRANT).wakeHolder sd
  ({ s with grantAt := some s.tick } : State).settleStandby sd.other

/-- HEARTBEAT: at its moment a Side sends a heartbeat, if every check has passed since the moment before; the operands say whether those outside
State did. DEDUCED: "since its previous heartbeat" is taken as since the previous moment for one, or a passed fault would silence the Side for
good (log entry 123). -/
def execHeartbeat (sd : Side) (fabricOk clocksOk hbmOk : Bool) (s : State) : Out :=
  let x := s.side sd
  let period := s.leaseTicks / 8
  let since : Bool := match x.nextBeat, x.failedAt with
    | some t, some f => decide (t < f + period)
    | _, _ => false
  let ok := fabricOk && clocksOk && hbmOk && !s.failing sd && !since
  let due : Bool := match x.nextBeat with
    | some t => decide (t ≤ s.tick)
    | none => ok
  if x.inReset || x.isolated || x.cold || !x.trained || !due then .next s
  else
    let s := s.setSide sd { x with nextBeat := some (x.nextBeat.getD s.tick + period), lastBeat := if ok then some s.tick else x.lastBeat }
    if !ok then .next s
    else if s.holder = some sd then .next s.renew.updateStep
    else if s.holder = none ∨ (sd = .A ∧ s.grantAt = some s.tick ∧ x.lastBeat.isNone) then .next (s.grant sd).updateStep
    else .next (if x.lastBeat.isNone then (s.settleStandby sd).updateStep else s.updateStep)

/-- LEASE_EXPIRY: the errors of the cycle act first (R167, R168, R182). -/
def execLeaseExpiry (s : State) : Out := .next (s.cycle []).expire

/-! ## Assay's commands (R509 to R516) -/

/-- The lines asserted from outside take new levels; those of failed banks stand. A rail that leaves its limits sets RAIL_FAIL, and a Side whose
rail does is no longer powered and has no SIDE_PG (R554, R555, R574). -/
def State.setLines (s : State) (asserted : List (Nat × W32)) : State :=
  let old := s.envLines
  let kept := old.filter fun p => decide (p.1 = 32 ∧ s.bankLost.contains Bank.E) || decide (p.1 = 33 ∧ s.bankLost.contains Bank.W)
  let s : State := { s with envLines := kept ++ asserted.filter fun p => decide (p.1 < 41) && kept.all fun q => decide (q.1 ≠ p.1) }
  let on (l : Nat) : Bool := s.envLines.any fun p => p.1 = l
  let rose : Bool := [8, 9, 24, 25, 32, 33, 37, 40].any fun l => on l && old.all fun p => decide (p.1 ≠ l)
  let s := s.raiseIf rose (R0 .SYS_EVT) F.SYS_EVT_RAIL_FAIL
  let s := if on 8 || on 9 then s.setSide .A { s.sideA with powered := false, pg := false } else s
  if on 24 || on 25 then s.setSide .B { s.sideB with powered := false, pg := false } else s

/-- ASSAY_LINE_RISE: Assay samples the lines in one cycle; `asserted` are those then asserted from outside the device's own state, with
their context words. -/
def execAssayLineRise (asserted : List (Nat × W32)) (s : State) : Out := .next ((s.setLines asserted).cycle [])

/-- A release of an isolated Side (R513): the boot core restarts it. -/
def State.release (s : State) (sd : Side) : State :=
  let x := s.side sd
  let s := s.addSat (R1 .ASY_RECOV_COUNT sd.idx) F.ASY_RECOV_COUNT_COUNT 1
  s.setSide sd { x with isolated := false, latched := false, quietLeft := 0, held := false, inReset := true, releases := s.tick :: x.releases }

/-- QUIET_TIMER_EXPIRY: an isolated Side's quiet timer reaches 0: the Side is released, or latched at the recovery limit (R512, R514). -/
def execQuietTimerExpiry (sd : Side) (s : State) : Out :=
  let x := s.side sd
  if !x.isolated || x.latched || x.held || decide (s.quietNow sd ≠ 0) then .next s
  else
    let cfg := s.rd (R0 .ASY_ISO_CFG)
    let limit := getF cfg F.ASY_ISO_CFG_LIMIT
    let window := max 1 (getF cfg F.ASY_ISO_CFG_WINDOW) * 10 * secTicks
    let recent := x.releases.filter fun t => decide (s.tick < t + window)
    if limit ≠ 0 ∧ limit ≤ recent.length then .next (s.setSide sd { x with latched := true })
    else .next (s.release sd)

/-- Requesters 7 and 10 and the referee owner (R518, R520). -/
def State.asyAdmin (s : State) (r : Req) : Bool := is7or10 r || s.isRfeOwner r

/-- A latched Side is released, and its record of releases emptied (R514). -/
def State.unlatch (s : State) (sd : Side) : State :=
  if (s.side sd).latched then
    let s := s.release sd
    s.setSide sd { s.side sd with releases := [] }
  else s

/-- ASSAY_FIRST is emptied (R511). -/
def State.clearFirst (s : State) : State := (List.range 4).foldl (fun (s : State) w => s.wr (R1 .ASY_FIRST w) 0) s

/-- A write of ASY_CTL. -/
def State.writeAsyCtl (s : State) (v : W32) : State :=
  let s := if bitOf v 0 then s.clearFirst else s
  let s := if bitOf v 1 then s.unlatch .A else s
  if bitOf v 2 then s.unlatch .B else s

/-- UNLATCH_A. -/
def execUnlatchA (r : Req) (s : State) : Out :=
  .next (s.access r .ao (s.asyAdmin r) (R0 .ASY_CTL).addr (bit1 1) fun s => s.writeAsyCtl (bit1 1))

/-- UNLATCH_B. -/
def execUnlatchB (r : Req) (s : State) : Out :=
  .next (s.access r .ao (s.asyAdmin r) (R0 .ASY_CTL).addr (bit1 2) fun s => s.writeAsyCtl (bit1 2))

/-- FIRST_CLR. -/
def execFirstClr (r : Req) (s : State) : Out :=
  .next (s.access r .ao (s.asyAdmin r) (R0 .ASY_CTL).addr (bit1 0) fun s => s.writeAsyCtl (bit1 0))

/-- A write of ASY_FW[i] by the firmware of Side i: the lines of the bits that are 1 are asserted for one cycle (R516). -/
def State.writeAsyFw (s : State) (i : Nat) (v : W32) : State :=
  let ctx := w32 (getF v F.ASY_FW_CTX)
  let line (b l : Nat) : List (Nat × W32) := if bitOf v b then [(16 * i + l, ctx)] else []
  s.cycle (line 0 10 ++ line 1 11 ++ line 2 12)

/-- The requester is the firmware of the Side of index `i`. -/
def isFw (r : Req) (i : Nat) : Bool := (r = .fwA && i == 0) || (r = .fwB && i == 1)

/-- FW_FATAL. -/
def execFwFatal (r : Req) (i : Fin 2) (ctx : W32) (s : State) : Out :=
  .next (s.access r .ao (isFw r i) (R1 .ASY_FW i).addr (w32 (ctx.toNat % 2 ^ 24 * 256 + 1)) fun s => s.writeAsyFw i (w32 (ctx.toNat % 2 ^ 24 * 256 + 1)))

/-- FW_DEGRADE. -/
def execFwDegrade (r : Req) (i : Fin 2) (ctx : W32) (s : State) : Out :=
  .next (s.access r .ao (isFw r i) (R1 .ASY_FW i).addr (w32 (ctx.toNat % 2 ^ 24 * 256 + 2)) fun s => s.writeAsyFw i (w32 (ctx.toNat % 2 ^ 24 * 256 + 2)))

/-- FW_NOTICE. -/
def execFwNotice (r : Req) (i : Fin 2) (ctx : W32) (s : State) : Out :=
  .next (s.access r .ao (isFw r i) (R1 .ASY_FW i).addr (w32 (ctx.toNat % 2 ^ 24 * 256 + 4)) fun s => s.writeAsyFw i (w32 (ctx.toNat % 2 ^ 24 * 256 + 4)))

/-! ## The watchdog and claims (R164, R166, R194, R506) -/

/-- A write of RFE_WDOG[i]: only KEY 0xC0DE is a service; one that comes after the period has passed ends a failure of the watchdog check
(R164). -/
def State.writeWdog (s : State) (i : Nat) (v : W32) : State :=
  let sd := if i = 0 then Side.A else Side.B
  let x := s.side sd
  let lapsed : Bool := x.wdogAt.any fun t => decide (t + s.wdogTicks < s.tick)
  if v.toNat % 65536 = 0xC0DE then s.setSide sd { x with wdogAt := some s.tick, failedAt := if lapsed then some s.tick else x.failedAt } else s

/-- WATCHDOG_SERVICE. -/
def execWatchdogService (r : Req) (i : Fin 2) (v : W32) (s : State) : Out :=
  .next (s.access r .ao (isFw r i) (R1 .RFE_WDOG i).addr v fun s => s.writeWdog i v)

/-- WATCHDOG_EXPIRY: after twice the period without service the WATCHDOG line asserts, when it is sampled. -/
def execWatchdogExpiry (sd : Side) (s : State) : Out := .next (if s.wdogLapsed sd then s.cycle [] else s)

/-- A write of RFE_CLAIM[i]. -/
def State.writeClaim (s : State) (i : Nat) (v : W32) : State := (s.wr (R1 .RFE_CLAIM i) (v &&& 1#32)).noteClaims

/-- CLAIM_CONFLICT: a claim has differed from the referee's view for more than 100 µs (R166). -/
def execClaimConflict (sd : Side) (s : State) : Out :=
  if s.inConflict sd then
    .next ((s.raise (R0 .RFE_EVT) (if sd = .A then F.RFE_EVT_CONFLICT_A else F.RFE_EVT_CONFLICT_B)).cycle [])
  else .next s

/-! ## Voters (R162, R169) -/

/-- The three voters come to next states that are not all the same (R169). Where two agree the majority acts and the odd voter is loaded from
it; where all three differ they are reloaded with the Side that the majority of the Sluices name, and its lease is renewed. -/
def State.revote (s : State) (a b c : Nat) : State :=
  let s := (s.raise (R0 .RFE_EVT) F.RFE_EVT_VOTE_MISMATCH).setF (R0 .RFE_STATE) F.RFE_STATE_VOTE_DEGRADED 1
  let was := s.holder
  let v := voteOf [a, b, c]
  let new := v.getD (s.sluicesName.idx + 1)
  if new = s.fld (R0 .RFE_STATE) F.RFE_STATE_STATE ∧ v.isSome then s.vote new
  else if new = 1 ∨ new = 2 then
    (s.select (if new = 1 then .A else .B)).raiseIf was.isNone (R0 .RFE_EVT) F.RFE_EVT_GRANT
  else (s.vote new).noteClaims

/-- VOTE_MISMATCH: the voters' next states differ; line 34 is asserted for the cycle (R169, R506). -/
def execVoteMismatch (a b c : Fin 4) (s : State) : Out :=
  if s.aoReset ∨ (a = b ∧ b = c) then .next s
  else .next ((s.revote a b c).updateStep.cycle [(34, if (voteOf [a.val, b.val, c.val]).isSome then 1 else 2)])

/-! ## The holder's parity failures and steps (R161, R167) -/

/-- A parity failure of the holder at a Sluice with the other's unit clean moves the lease, after the errors of the cycle (R167, R168). -/
def State.parityFail (s : State) (x : Side) : State :=
  let s := s.cycle []
  if s.holder = some x && s.localFo && s.ready x.other then (s.flipTo x.other 3 0).resetSide x else s

/-- STANDBY_STEP_TIMEOUT: a HOT standby out of step for 8 frames of the slowest active output format is reset (R161). -/
def execStandbyStepTimeout (s : State) : Out :=
  match s.holder, s.outSince with
  | some x, some t =>
    if s.standbyClass = 0 ∧ s.ready x.other ∧ s.phase x.other = 0 ∧ t + 8 * s.slowestPeriod / tickU ≤ s.tick then
      .next (s.resetSide x.other)
    else .next s
  | _, _ => .next s

/-! ## The referee's commands (R175 to R177, R193) -/

/-- The status of the latest referee command. -/
def State.cmdRes (s : State) (st : Nat) (pending : Bool) : State :=
  (s.setF (R0 .RFE_CMD_RES) F.RFE_CMD_RES_STATUS st).setF (R0 .RFE_CMD_RES) F.RFE_CMD_RES_PENDING (b2n pending)

/-- The frame that a planned switch-over names (R175). -/
def State.swoFrame (s : State) (c : Nat) : Int :=
  let named := (s.rd (R0 .RFE_SWO_FRAME)).toNat
  let cur := s.cadFrameAt c s.cadTime
  if named = 0 then s.cadFrameFrom c (s.cadTime + (100 * usTicks * tickU : Nat))
  else cur + sext 32 (named + 2 ^ 32 - (cur % 2 ^ 32).toNat)

/-- A reset of a Side by command (R177). DESIGN CHOICE: while no Side holds the lease the Side is reset at once, with DONE; the spec speaks of the
standby and the holder only (log entry 124). -/
def State.cmdReset (s : State) (x : Side) : State :=
  if s.holder = some x then
    if s.inStep x.other then ((s.flipTo x.other 7 0).resetSide x).cmdRes 2 false
    else s.cmdRes 4 s.planned.isSome
  else (s.resetSide x).cmdRes 2 s.planned.isSome

/-- A write of RFE_CMD (R175, R177, R193). -/
def State.writeRfeCmd (s : State) (v : W32) : State :=
  let pend := s.planned.isSome
  match getF v F.RFE_CMD_OP with
  | 1 =>
    let c := s.cadOf (getF v F.RFE_CMD_CADENCE)
    let f := s.swoFrame c
    if pend then s.cmdRes 7 true
    else if s.cadStart c f < s.cadTime + (100 * usTicks * tickU : Nat) then s.cmdRes 8 false
    else { s with planned := some (c, f.toNat) }.cmdRes 1 true
  | 2 => if pend then { s with planned := none }.cmdRes 5 false else s.cmdRes 6 false
  | 3 => s.cmdReset .A
  | 4 => s.cmdReset .B
  | _ => s

/-- The referee owner and requesters 7 and 10 command the referee (R190). -/
def State.rfeAdmin (s : State) (r : Req) : Bool := s.isRfeOwner r || is7or10 r

/-- PLANNED_SWITCHOVER. -/
def execPlannedSwitchover (r : Req) (c : Fin 32) (s : State) : Out :=
  .next (s.access r .ao (s.rfeAdmin r) (R0 .RFE_CMD).addr (w32 (1 + 8 * c.val)) fun s => s.writeRfeCmd (w32 (1 + 8 * c.val)))

/-- SWITCHOVER_CANCEL. -/
def execSwitchoverCancel (r : Req) (s : State) : Out :=
  .next (s.access r .ao (s.rfeAdmin r) (R0 .RFE_CMD).addr 2 fun s => s.writeRfeCmd 2)

/-- RESET_SIDE_A. -/
def execResetSideA (r : Req) (s : State) : Out :=
  .next (s.access r .ao (s.rfeAdmin r) (R0 .RFE_CMD).addr 3 fun s => s.writeRfeCmd 3)

/-- RESET_SIDE_B. -/
def execResetSideB (r : Req) (s : State) : Out :=
  .next (s.access r .ao (s.rfeAdmin r) (R0 .RFE_CMD).addr 4 fun s => s.writeRfeCmd 4)

/-- SWITCHOVER_DUE: at the named frame start, after the errors and an expiry of the cycle (R168), the lease flips to a standby in step, or the request
is refused (R175). DESIGN CHOICE: with no holder it is refused with NOT_IN_STEP, where the state table has no row (log entry 125). -/
def execSwitchoverDue (s : State) : Out :=
  let s := if s.planned.any fun p => decide (s.cadStart p.1 p.2 ≤ s.cadTime) then (s.cycle []).expire else s
  match s.planned with
  | none => .next s
  | some (c, f) =>
    if s.cadTime < s.cadStart c f then .next s
    else
      let s := { s with planned := none }
      match s.holder with
      | some x =>
        if s.inStep x.other then .next (((s.flipTo x.other 5 0).settleStandby x).cmdRes 2 false)
        else .next (s.cmdRes 3 false)
      | none => .next (s.cmdRes 3 false)

/-! ## Standby depth (R181 to R183) -/

/-- The class that RFE_TOLERANCE selects (R181). -/
def State.wantedClass (s : State) : Nat :=
  let v := s.rd (R0 .RFE_TOLERANCE)
  let unit := match getF v F.RFE_TOLERANCE_UNIT with
    | 0 => 1 | 1 => 1000 | _ => 1000000
  let d := getF v F.RFE_TOLERANCE_VALUE * unit
  if d * s.warmLat.2 < s.warmLat.1 then 0 else if d < 2000000000 then 1 else 2

/-- The class is recomputed; a change takes effect on the standby at once (R181, R183). -/
def State.classUpdate (s : State) : State :=
  let new := s.wantedClass
  if new = s.standbyClass then s
  else
    let s := (s.setF (R0 .RFE_STATE) F.RFE_STATE_CLASS new).raise (R0 .RFE_EVT) F.RFE_EVT_CLASS_CHANGE
    match s.holder with
    | none => s
    | some x =>
      let y := x.other
      let q := s.side y
      if q.cold && new != 2 then s.setSide y { q with cold := false, coldReady := false, inReset := true, lastBeat := none, nextBeat := none, pwrAt := some s.tick }
      else if q.warm && new = 0 then s.wakeSide y false
      else s.settleStandby y

/-- STANDBY_CLASS_SET: a write of RFE_TOLERANCE. -/
def execStandbyClassSet (r : Req) (v : W32) (s : State) : Out :=
  .next (s.access r .ao (s.isRfeOwner r) (R0 .RFE_TOLERANCE).addr v fun s =>
    (s.wr (R0 .RFE_TOLERANCE) (v &&& 0x3FFFFF#32)).classUpdate)

/-! ## Resynchronisation (R178, R179) -/

/-- V: the volume of Side-held content in use, in bytes, both copies (R371). -/
def State.contentVolume (s : State) : Nat :=
  8 * (s.headPlan.foldl (fun n p =>
    if p.2.present then
      let d := rasterDims p.2.fmt.raster
      n + d.1 * d.2 + 4096 + 12288 + 65536 * p.2.rects + 3072 * (s.preHead.filter fun q => q.2 = some p.1).length
    else n) 0)

/-- Twin registers of the routing snapshot go into a Side (R32, R178). -/
def State.loadTwins (s : State) (sd : Side) : State :=
  s.twins.foldl (fun (s : State) e => s.wr { e.1 with bank := 2 * e.1.bank + sd.idx } e.2) s

/-- The graphics bitmaps of a Side's HBM are those of the other (R371, R375). -/
def copyGraphics (dst src : List Host.Cell) : List Host.Cell :=
  let inGfx (a : Nat) : Bool := decide (0x200000000 ≤ a ∧ a < 0x300000000)
  (src.filter fun e => inGfx e.1).foldl (fun m e => memPut m e.1 e.2) (dst.filter fun e => !inGfx e.1)

/-- The holder's Side-held content is copied (R178). -/
def State.copyContent (s : State) (sd x : Side) : State :=
  let s := (s.setAly sd (s.aly x)).setHbm sd (copyGraphics (s.hbm sd) (s.hbm x))
  (List.range 32).foldl (fun (s : State) h =>
    let s := s.wr (RS .ALY_FLIP_STAT sd h) (s.rd (RS .ALY_FLIP_STAT x h))
    (List.range 4).foldl (fun (s : State) r =>
      s.wr { name := .ALY_PROT_CRC, i := h, j := r, bank := sd.idx } (s.rd { name := .ALY_PROT_CRC, i := h, j := r, bank := x.idx })) s) s

/-- The packets that wait in a Side's launch FIFOs as LOAD ends: the other Side's where it runs, and none where it does not (R178, R302). -/
def State.loadBufs (s : State) (sd : Side) : State :=
  if s.live sd.other ∧ s.phase sd.other ≠ 1 then
    { s with txBufs := s.txFlows.foldl (fun m e => m.set (2 * e.1 + sd.idx) (s.txBufs.at (2 * e.1 + sd.other.idx))) s.txBufs }
  else { s with txBufs := [], txFlows := smapOf (s.txFlows.map fun e => (e.1, { e.2 with q := [] })) }

/-- RESYNC_LOAD_DONE: the snapshot and twin registers, and the holder's content when another Side holds the lease, have been loaded; the Side
enters FILL (R178). With no holder its Benches start in PRIMING and its content is empty. -/
def execResyncLoadDone (sd : Side) (s : State) : Out :=
  let x := s.side sd
  let copying := x.loadKind = 0 && decide (s.holder = some sd.other)
  let need := 100 * usTicks + (if copying then s.contentVolume / 256 else 0)
  if s.phase sd ≠ 1 ∨ !s.live sd ∨ s.tick < x.resyncAt.getD 0 + need then .next s
  else
    let s := s.loadTwins sd
    let s := if copying then s.copyContent sd sd.other
      else if x.loadKind = 2 then s
      else if s.holder.isNone || s.holder = some sd then (s.setHbm sd (copyGraphics (s.hbm sd) [])).primeBenches
      else s.setHbm sd (copyGraphics (s.hbm sd) [])
    let s := (s.loadBufs sd).setSide sd { s.side sd with loadedAt := s.tick }
    .next (s.setF (R1 .RFE_RESYNC sd.idx) F.RFE_RESYNC_PHASE 2).updateStep

/-- Every output with a transmit position has begun a frame in a Side (R178). -/
def State.allBegun (s : State) (sd : Side) : Bool :=
  s.outPlan.all fun p => (p.2.txE.isNone && p.2.txW.isNone) || p.2.bypass.isSome ||
    ((s.shown.at (2 * (if p.2.slots = 1 then p.1 else p.2.lowest) + sd.idx)).frame).isSome

/-- RESYNC_FILL_DONE: every output has presented units, and the Side enters COMPARE (R178). -/
def execResyncFillDone (sd : Side) (s : State) : Out :=
  if s.phase sd = 2 ∧ s.allBegun sd then .next (s.setF (R1 .RFE_RESYNC sd.idx) F.RFE_RESYNC_PHASE 3).updateStep else .next s

/-! ## The Harif ring (R184 to R189) -/

/-- Byte `i` of a ring frame. -/
def ringByte (bs : List Byte) (i : Nat) : Nat := (bs.getD i 0).toNat

/-- The frame's CRC is good (R184). -/
def ringGood (bs : List Byte) : Bool :=
  decide (bs.length = 1250) && decide (crc32 (((bs.drop 1).take 1245).map (·.toNat)) =
    ringByte bs 1246 + ringByte bs 1247 * 0x100 + ringByte bs 1248 * 0x10000 + ringByte bs 1249 * 0x1000000)

/-- This station's number, when it is one of a crosspoint card (R188). -/
def State.station (s : State) : Option Nat :=
  let n := s.fld (R0 .HAF_CFG) F.HAF_CFG_STATION
  if n = 1 ∨ n = 2 then some n else none

/-- RFE_STATE as a byte pair of this station's record (R185). -/
def State.ringRecord (s : State) : List Byte :=
  let b (n : Nat) : Byte := BitVec.ofNat 8 n
  let st := s.rd (R0 .RFE_STATE)
  let fo := (s.rd (R0 .RFE_FO_COUNT)).toNat
  [b s.ring.up, b (st.toNat % 8),
   b (b2n (s.ready .A) + 2 * b2n (s.ready .B) + 4 * b2n (bitOf st 5) + 8 * b2n (bitOf st 6) + 16 * b2n s.sideA.isolated + 32 * b2n s.sideB.isolated),
   b s.standbyClass, b (s.fld (R0 .RFE_LAST) F.RFE_LAST_CAUSE), b (s.ring.executed.getD 0), b (fo % 256), b (fo / 256 % 256)] ++
    List.replicate 56 0

/-- The frame forwarded: with this station's record replaced and the CRC made again when ENABLE is 1, else unchanged (R184, R198). DESIGN CHOICE: the
CRC is made new and good also where the frame arrived with a bad one, which the spec leaves open (log entry 126). -/
def State.ringForward (s : State) (bs : List Byte) : List Byte :=
  match s.station with
  | some n =>
    if s.flag (R0 .HAF_CFG) F.HAF_CFG_ENABLE then
      let at_ := 4 + 64 * n
      let body := bs.take at_ ++ s.ringRecord ++ (bs.drop (at_ + 64)).take (1246 - at_ - 64)
      let c := crc32 ((body.drop 1).map (·.toNat))
      body ++ [BitVec.ofNat 8 c, BitVec.ofNat 8 (c / 0x100), BitVec.ofNat 8 (c / 0x10000), BitVec.ofNat 8 (c / 0x1000000)]
    else bs
  | none => bs

/-- QUIET is set or cleared (R186). -/
def State.setQuiet (s : State) (q : Bool) : State := s.setF (R0 .RFE_STATE) F.RFE_STATE_QUIET (b2n q)

/-- A decision is executed, after the errors and an expiry of the cycle (R168, R186); an inadmissible one is a disagreement. -/
def State.decide_ (s : State) (code : Nat) : State :=
  let s := (s.cycle []).expire
  let side (y : Side) : State :=
    if s.ready y then
      let s := s.setQuiet false
      match s.holder with
      | some x => if x = y then s else (s.flipTo y 6 0).settleStandby x
      | none => s
    else (s.raise (R0 .RFE_EVT) F.RFE_EVT_EXT_DISAGREE).cycle [(34, 3)]
  match code with
  | 1 => side .A
  | 2 => side .B
  | 3 => (s.setQuiet true).raise (R0 .RFE_EVT) F.RFE_EVT_QUIET
  | _ => s.setQuiet false

/-- The records' update counts are followed; a record unchanged for 3 ring frames becomes stale (R185). -/
def State.ringCounts (s : State) (bs : List Byte) : State :=
  let upd := (List.range 4).map fun i =>
    let old := s.ring.counts.getD i (none, 0)
    let c := ringByte bs (4 + 64 * i)
    if old.1 = some c then (some c, min 3 (old.2 + 1)) else (some c, 0)
  let newly := (List.range 4).any fun i => decide ((upd.getD i (none, 0)).2 = 3 ∧ (s.ring.counts.getD i (none, 0)).2 < 3)
  let seen := (List.range 4).foldl (fun n i => n + b2n (decide ((upd.getD i (none, 0)).2 < 3)) * 2 ^ i) 0
  let s := { s with ring := { s.ring with counts := upd } }
  let s := s.setF (R0 .HAF_STAT) F.HAF_STAT_SEEN seen
  if newly then s.raise (R0 .HAF_EVT) F.HAF_EVT_STALE else s

/-- The record of the deciding controller: byte 5 is 1 and it is not stale; station 0's first (R185). -/
def State.controller (s : State) (bs : List Byte) : Option Nat :=
  [0, 3].find? fun i => decide (ringByte bs (4 + 64 * i + 5) = 1) && decide ((s.ring.counts.getD i (none, 0)).2 < 3)

/-- The tally of this station is copied (R189). -/
def State.ringTally (s : State) (n : Nat) (bs : List Byte) : State :=
  let base := if n = 1 then 260 else 388
  let word (k : Nat) : W32 := w32 (ringByte bs (base + 4 * k) + ringByte bs (base + 4 * k + 1) * 0x100 +
    ringByte bs (base + 4 * k + 2) * 0x10000 + ringByte bs (base + 4 * k + 3) * 0x1000000)
  let change := (List.range 32).any fun k => decide (s.rd (R1 .HAF_TALLY k) ≠ word k)
  let s := (List.range 32).foldl (fun (s : State) k => s.wr (R1 .HAF_TALLY k) (word k)) s
  if change then s.raise (R0 .HAF_EVT) F.HAF_EVT_TALLY else s

/-- The ring is lost: its events are set, QUIET is cleared and the referee acts as in INTERNAL mode (R188). -/
def State.ringLost (s : State) : State :=
  let s := (s.raise (R0 .HAF_EVT) F.HAF_EVT_RING_LOST).raise (R0 .RFE_EVT) F.RFE_EVT_EXT_TIMEOUT
  ((s.setQuiet false).setF (R0 .RFE_STATE) F.RFE_STATE_EXT_ACTIVE 0).cycle []

/-- A whole ring frame is forwarded and read; the code of a decision that is to be executed (R184 to R189). In EXTERNAL mode without a valid station number
it has the effect of a lost ring (R188). -/
def State.ringTake (s : State) (bytes : List Byte) : State × Option Nat :=
  let s := { s with ring := { s.ring with up := (s.ring.up + 1) % 256 } }
  let s := s.emit (.ringFrame (s.ringForward bytes))
  if !ringGood bytes then (s.raise (R0 .HAF_EVT) F.HAF_EVT_CRC_ERR, none)
  else
    let ext := s.flag (R0 .RFE_CFG) F.RFE_CFG_MODE
    let astray := ext && s.station.isNone
    let wasLost := s.ring.lost
    let s := if wasLost && !astray then s.raise (R0 .HAF_EVT) F.HAF_EVT_RING_BACK else s
    let s := { s with ring := { s.ring with lastGood := s.tick, lost := astray, ext := ext } }
    let s := s.setF (R0 .HAF_STAT) F.HAF_STAT_RING_OK 1
    let s := s.ringCounts bytes
    let s := s.setF (R0 .RFE_STATE) F.RFE_STATE_EXT_ACTIVE (b2n (ext && s.station.isSome))
    match s.station with
    | none => (if ext && !wasLost then s.ringLost else s, none)
    | some n =>
      let s := s.ringTally n bytes
      match s.controller bytes with
      | none => (s, none)
      | some c =>
        let code := ringByte bytes (4 + 64 * c + 2 * n - 1)
        let dseq := ringByte bytes (4 + 64 * c + 2 * n)
        let fresh := decide (s.ring.executed ≠ some dseq)
        let st := R0 .HAF_STAT
        let s := if s.fld st F.HAF_STAT_DSEQ ≠ dseq then s.raise (R0 .HAF_EVT) F.HAF_EVT_DECISION else s
        let s := (s.setF st F.HAF_STAT_DECISION (if code < 4 then code else 0)).setF st F.HAF_STAT_DSEQ dseq
        if ext && fresh then ({ s with ring := { s.ring with executed := some dseq } }, some code) else (s, none)

/-- RING_FRAME: a whole ring frame arrives. -/
def execRingFrame (bytes : List Byte) (s : State) : Out :=
  if s.aoReset ∨ s.ring.bypassed then .next s
  else
    let r := s.ringTake bytes
    .next (match r.2 with
      | some code => r.1.decide_ code
      | none => r.1)

/-- RING_TIMEOUT: no good ring frame for TIMEOUT ms (R188). -/
def execRingTimeout (s : State) : Out :=
  let t := max 1 (s.fld (R0 .HAF_CFG) F.HAF_CFG_TIMEOUT) * msTicks
  if s.aoReset ∨ s.tick < s.ring.lastGood + t then .next s
  else
    let wasLost := s.ring.lost
    let s := { s with ring := { s.ring with lost := true } }.setF (R0 .HAF_STAT) F.HAF_STAT_RING_OK 0
    .next (if wasLost then s else s.ringLost)

end Sys2Proof.Machine
end

