-- ==== Sys2Proof/Machine/Memories.lean ====
section
/-!
DEFINITION. The HBM controllers and the SRAM of the Sides (chapter 14): training, refresh, row disturbance, parity, ECC and scrub.
-/
namespace Sys2Proof.Machine

/-- Pseudo-channel `p` of a Side. -/
def State.pc (s : State) (sd : Side) (p : Nat) : PcSt := s.hbmRun.at (2 * p + sd.idx)

/-- The state with a pseudo-channel replaced; OWED follows (R439). -/
def State.setPc (s : State) (sd : Side) (p : Nat) (x : PcSt) : State :=
  { s with hbmRun := s.hbmRun.set (2 * p + sd.idx) x }.setF (RS .HBM_PC_STAT sd p) F.HBM_PC_STAT_OWED (min 8 x.owed)

/-- A sticky bit of HBM_EVT. -/
def State.hbmEvt (s : State) (sd : Side) (f : Fld) : State := s.raise (RS .HBM_EVT sd 0) f

/-- The eight delays of HBM_FIXDLY[p] (R444). -/
def State.fixdly (s : State) (sd : Side) (p : Nat) : List Nat :=
  (List.range 8).map fun k => (s.rd { name := .HBM_FIXDLY, i := p, j := k, bank := sd.idx }).toNat

/-- A pseudo-channel's MODE: 0 TRAINED, 1 FIXED, 2 EXHAUSTED. -/
def State.pcMode (s : State) (sd : Side) (p : Nat) : Nat := s.fld (RS .HBM_PC_STAT sd p) F.HBM_PC_STAT_MODE

/-- HBM_START_TRAINING_DONE: the delays found are written to HBM_FIXDLY; the heartbeat hardware starts and the Side resynchronises (R164,
R178, R444). -/
def execHbmStartTrainingDone (sd : Side) (delays : List (List Nat)) (s : State) : Out :=
  let x := s.side sd
  if !s.live sd || x.trained then .next s
  else
    let s := (List.range 32).foldl (fun (s : State) p =>
      let ds := delays.getD p []
      let s := (List.range 8).foldl (fun (s : State) k =>
        s.wr { name := .HBM_FIXDLY, i := p, j := k, bank := sd.idx } (w32 (ds.getD k 0 % 128))) s
      s.setPc sd p { s.pc sd p with delays := ds }) s
    let s := s.setF (RS .HBM_STAT sd 0) F.HBM_STAT_READY 1
    .next ((s.setSide sd { x with trained := true }).startResync sd false)

/-! ## Refresh (R439 to R442) -/

/-- The refresh interval of a Side's stack (R439). -/
def State.refreshInterval (s : State) (sd : Side) : Int := (if s.flag (RS .HBM_STAT sd 0) F.HBM_STAT_HOT then 1950 else 3900) * nsU

/-- The next interval boundary of a pseudo-channel: a refresh interval after the last one, or after the reading that doubled the rate; the first falls
at any time (R439, R440). -/
def State.boundaryAt (s : State) (sd : Side) (x : PcSt) : Int :=
  match x.boundAt with
  | some t => t + s.refreshInterval sd
  | none => s.cadTime

/-- HBM_REFRESH_BOUNDARY: at an interval boundary one more refresh is owed; one that finds eight owed closes the pseudo-channel. -/
def execHbmRefreshBoundary (sd : Side) (p : Fin 32) (s : State) : Out :=
  let x := s.pc sd p
  let t := s.boundaryAt sd x
  if !s.live sd || s.flag (RS .HBM_STAT sd 0) F.HBM_STAT_SELF_REFRESH || decide (s.cadTime < t) then .next s
  else .next (s.setPc sd p { x with owed := x.owed + 1, closed := x.closed || decide (8 ≤ x.owed), boundAt := some t })

/-- HBM_REFRESH_ISSUE: an owed refresh, of 410 ns, is issued once the one before it has ended; a closed pseudo-channel reopens below eight owed, and
catch-up ends at none. -/
def execHbmRefreshIssue (sd : Side) (p : Fin 32) (s : State) : Out :=
  let x := s.pc sd p
  if !s.live sd || x.owed = 0 || decide (s.cadTime < x.busyTo) then .next s
  else
    let owed := x.owed - 1
    let k := RS .HBM_PC_STAT sd p.val
    let catching := s.flag k F.HBM_PC_STAT_CATCH_UP && owed != 0
    let s := s.setPc sd p { x with
      owed := owed, closed := catching || (x.closed && decide (8 ≤ owed)), busyTo := s.cadTime + 410 * nsU }
    .next (s.setF k F.HBM_PC_STAT_CATCH_UP (b2n catching))

/-- HBM_TEMP_READ: every 100 µs; at 85 °C the stack moves to the doubled rate and pseudo-channels with refreshes owed enter catch-up; at 82 °C it returns
(R440, R441). -/
def execHbmTempRead (sd : Side) (temp : Int) (s : State) : Out :=
  if !s.live sd || (s.hbmTempAt.at sd.idx).any (fun t => decide (s.tick < t + 100 * usTicks)) then .next s
  else
    let st := RS .HBM_STAT sd 0
    let kt := RS .HBM_TEMP sd 0
    let mx := match s.hbmMax.at sd.idx with
      | some m => max m temp
      | none => temp
    let s := { s with hbmMax := s.hbmMax.set sd.idx (some mx), hbmTempAt := s.hbmTempAt.set sd.idx (some s.tick) }
    let s := (s.setF kt F.HBM_TEMP_TEMP (twos 8 temp)).setF kt F.HBM_TEMP_MAX (twos 8 mx)
    let hot := s.flag st F.HBM_STAT_HOT
    if !hot && decide (85 ≤ temp) then
      let s := (s.setF st F.HBM_STAT_HOT 1).hbmEvt sd F.HBM_EVT_HOT_ON
      let s := (List.range 32).foldl (fun (s : State) p => s.setPc sd p { s.pc sd p with boundAt := some s.cadTime }) s
      let owing := (List.range 32).filter fun p => (s.pc sd p).owed ≠ 0
      let s := owing.foldl (fun (s : State) p =>
        (s.setPc sd p { s.pc sd p with closed := true }).setF (RS .HBM_PC_STAT sd p) F.HBM_PC_STAT_CATCH_UP 1) s
      .next ((if owing.isEmpty then s else s.hbmEvt sd F.HBM_EVT_CATCH_UP).cycle [])
    else if hot && decide (temp ≤ 82) then
      .next (((s.setF st F.HBM_STAT_HOT 0).hbmEvt sd F.HBM_EVT_HOT_OFF).cycle [])
    else .next s

/-! ## Retraining (R445, R446) -/

/-- A pass of pseudo-channel `p` ends: `found` holds the new settings, or nothing when a byte lane had no passing setting. -/
def State.retrain (s : State) (sd : Side) (p : Nat) (found : Option (List Nat)) : State :=
  let k := RS .HBM_PC_STAT sd p
  let x := { s.pc sd p with corr := 0 }
  let fails := s.fld k F.HBM_PC_STAT_FAILS
  match s.pcMode sd p, found with
  | 0, some ds => (s.setPc sd p { x with delays := ds }).setF k F.HBM_PC_STAT_FAILS 0
  | 0, none =>
    let s := s.hbmEvt sd F.HBM_EVT_TRAIN_FAIL
    if fails < 2 then (s.setPc sd p x).setF k F.HBM_PC_STAT_FAILS (fails + 1)
    else
      let s := s.setPc sd p { x with delays := s.fixdly sd p, goodRun := 0 }
      ((s.setF k F.HBM_PC_STAT_FAILS 3).setF k F.HBM_PC_STAT_MODE 1).hbmEvt sd F.HBM_EVT_FIXED
  | 1, some ds =>
    if x.goodRun + 1 = 16 then
      ((s.setPc sd p { x with delays := ds, goodRun := 0 }).setF k F.HBM_PC_STAT_FAILS 0).setF k F.HBM_PC_STAT_MODE 0
    else s.setPc sd p { x with goodRun := x.goodRun + 1 }
  | 1, none => (s.setPc sd p { x with goodRun := 0 }).hbmEvt sd F.HBM_EVT_TRAIN_FAIL
  | _, _ => s

/-- HBM_RETRAIN_PASS. -/
def execHbmRetrainPass (sd : Side) (p : Fin 32) (found : Option (List Nat)) (s : State) : Out :=
  .next (if s.live sd then s.retrain sd p found else s)

/-- HBM_SELF_REFRESH_EXIT: the stack leaves self-refresh with one pass on every pseudo-channel (R442). -/
def execHbmSelfRefreshExit (sd : Side) (found : List (Option (List Nat))) (s : State) : Out :=
  let st := RS .HBM_STAT sd 0
  if s.live sd && s.flag st F.HBM_STAT_SELF_REFRESH then
    let s := (List.range 32).foldl (fun (s : State) p => s.retrain sd p (found.getD p none)) s
    .next (s.setF st F.HBM_STAT_SELF_REFRESH 0)
  else .next s

/-- The error condition of a pseudo-channel in FIXED: it is EXHAUSTED, and the line is driven (R446). -/
def State.errorCondition (s : State) (sd : Side) (p : Nat) : State :=
  if s.pcMode sd p = 1 then
    ((s.setF (RS .HBM_PC_STAT sd p) F.HBM_PC_STAT_MODE 2).hbmEvt sd F.HBM_EVT_EXHAUSTED).cycle []
  else s

/-! ## Parity and ECC (R447 to R449, R451) -/

/-- Line j of a Side. -/
def lineOf (sd : Side) (j : Nat) : Nat := 16 * sd.idx + j

/-- `n` uncorrectable reads of a pseudo-channel (R448). -/
def State.uncorr (s : State) (sd : Side) (p n : Nat) : State :=
  if n = 0 then s
  else ((s.addWrap (RS .HBM_UNCORR sd 0) n).hbmEvt sd F.HBM_EVT_UNCORR).errorCondition sd p

/-- PAR_ALERT: the buffered commands are replayed; when three replays in a row have failed they are uncorrectable, `reads` of them reads
(R447). -/
def execParAlert (sd : Side) (p : Fin 32) (ok : Bool) (reads : Nat) (s : State) : Out :=
  if !s.live sd then .next s
  else
    let k := RS .HBM_PC_PAR sd p.val
    let s := ((s.addSat k F.HBM_PC_PAR_ALERTS 1).addSat k F.HBM_PC_PAR_REPLAYS 1).hbmEvt sd F.HBM_EVT_PAR_ALERT
    let x := s.pc sd p
    if ok then .next (s.setPc sd p { x with replays := 0 })
    else if x.replays + 1 < 3 then .next (s.setPc sd p { x with replays := x.replays + 1 })
    else
      let s := (s.setPc sd p { x with replays := 0 }).uncorr sd p reads
      .next (s.cycle [(lineOf sd 2, w32 (p.val + 256))])

/-- HBM_UNCORR_READ. -/
def execHbmUncorrRead (sd : Side) (p : Fin 32) (s : State) : Out :=
  .next (if s.live sd then (s.uncorr sd p 1).cycle [(lineOf sd 2, w32 p.val)] else s)

/-- HBM_SCRUB: the patrol reads a backed page on a pseudo-channel: corrections of the controller and of the stack are counted, and
uncorrectable reads act as any (R448, R449). -/
def execHbmScrub (sd : Side) (p : Fin 32) (ctrl odie uncorr : Nat) (s : State) : Out :=
  if !s.live sd || !s.flag (RS .HBM_CFG sd 0) F.HBM_CFG_SCRUB_EN then .next s
  else
    let k := RS .HBM_PC_CORR sd p.val
    let s := (s.addSat k F.HBM_PC_CORR_CTRL ctrl).addSat k F.HBM_PC_CORR_ODIE odie
    let x := s.pc sd p
    let s := s.setPc sd p { x with corr := x.corr + ctrl + odie }
    let s := if 64 < x.corr + ctrl + odie then s.errorCondition sd p else s
    .next (if uncorr = 0 then s else (s.uncorr sd p uncorr).cycle [(lineOf sd 2, w32 p.val)])

/-- SRAM_SCRUB: corrected words are counted; an uncorrectable word, at an offset in its area, drives the core-fatal line from firmware and
scratch and is poisoned elsewhere (R451). -/
def execSramScrub (sd : Side) (area : SramArea) (corrected : Nat) (uncorr : Option Nat) (s : State) : Out :=
  if !s.live sd then .next s
  else
    let s := s.addWrap (RS .HBM_SRAM_CORR sd 0) corrected
    match uncorr with
    | none => .next s
    | some off =>
      let s := (s.addWrap (RS .HBM_SRAM_UNCORR sd 0) 1).hbmEvt sd F.HBM_EVT_SRAM_UNCORR
      .next (if area = .firmware then s.cycle [(lineOf sd 0, w32 (1 + off % 2 ^ 24 * 256))] else s)

/-! ## Requests and row disturbance (R437, R438, R443) -/

/-- HBM_REQUEST_PROMOTE: a request, named by a number, that has waited longer than AGE is promoted; `waited` is in units of 100 ns. -/
def execHbmRequestPromote (sd : Side) (p : Fin 32) (id waited : Nat) (s : State) : Out :=
  let age := max 1 (s.fld (RS .HBM_CFG sd 0) F.HBM_CFG_AGE)
  let x := s.pc sd p
  .next (if s.live sd && decide (age < waited) && !x.promoted.contains id then s.setPc sd p { x with promoted := x.promoted ++ [id] } else s)

/-- What a Side's consumer uses in place of a late read of class `k` (R438): the oldest block of a Bench's copy that waits for output slot `user` is
discarded, so that its positions are black (R127); tile `user` is not drawn in the next head frame; the latest sample of destination channel
`user` is invalid silence. -/
def State.lateUse (s : State) (sd : Side) (k user : Nat) : State :=
  match k with
  | 0 =>
    let ix := 2 * user + sd.idx
    match (s.feeds.at ix).findIdx? fun x => x.bench.isSome with
    | some i => { s with feeds := s.feeds.upd ix fun l => l.eraseIdx i }
    | none => s
  | 2 => { s with tiles := s.tiles.upd (2 * user + sd.idx) fun t => { t with late := true } }
  | 3 =>
    match (s.audDst.at user).hist.head? with
    | some h => { s with audLate := s.audLate.set (2 * user + sd.idx) (h.1 + 1) }
    | none => s
  | _ => s

/-- LATE: a read of class `k` for a user returns after its use time (R438). -/
def execLate (sd : Side) (k : Fin 6) (user : Nat) (s : State) : Out :=
  .next (if s.live sd then ((s.addWrap (RS .HBM_LATE sd k) 1).hbmEvt sd F.HBM_EVT_LATE).lateUse sd k user else s)

/-- The index of the lowest count in an activate table, the lowest-numbered among equals. -/
def lowestEntry (t : List (Nat × Nat)) : Nat :=
  (List.range t.length).foldl (fun b i => if (t.getD i (0, 0)).2 < (t.getD b (0, 0)).2 then i else b) 0

/-- The activate table after an activate of `row`, and the entry it counts in (R443). -/
def activateTable (t : List (Nat × Nat)) (row : Nat) : List (Nat × Nat) × Nat :=
  match t.findIdx? fun e => e.1 = row with
  | some i => (t.modify i fun e => (e.1, e.2 + 1), i)
  | none =>
    if t.length < 128 then (t ++ [(row, 1)], t.length)
    else
      let i := lowestEntry t
      (t.modify i fun e => (row, e.2 + 1), i)

/-- HBM_ACTIVATE. -/
def execHbmActivate (sd : Side) (p : Fin 32) (row : Nat) (s : State) : Out :=
  if !s.live sd then .next s
  else
    let x := s.pc sd p
    let th := max 128 (min 16384 (s.fld (RS .HBM_RH_CFG sd 0) F.HBM_RH_CFG_THRESH))
    let a := activateTable x.table row
    if th ≤ (a.1.getD a.2 (0, 0)).2 then
      let s := s.setPc sd p { x with table := a.1.modify a.2 fun e => (e.1, 0) }
      .next (s.addWrap (RS .HBM_PC_RFM sd p) 1)
    else .next (s.setPc sd p { x with table := a.1 })

/-- HBM_RH_WINDOW: the table empties at the start of every 32 ms window. -/
def execHbmRhWindow (sd : Side) (p : Fin 32) (s : State) : Out :=
  let x := s.pc sd p
  .next (if s.live sd && decide (x.rhAt + 32 * msTicks ≤ s.tick) then s.setPc sd p { x with table := [], rhAt := s.tick } else s)

end Sys2Proof.Machine
end

