-- ==== Sys2Proof/Machine/Hoppers.lean ====
section
/-!
DEFINITION. Hoppers (R452 to R457).
-/
namespace Sys2Proof.Machine

/-- The words of a Hopper (R452). -/
def hopperWords : Nat := 16384

/-- The words in use: a packet holds a length slot beside its words, an entry none (R453, R456). -/
def Hopper.used (h : Hopper) (fixed : Bool) : Nat :=
  let slot := if fixed then 0 else 1
  h.items.foldl (fun n x => n + slot + x.length) 0 + (match h.open_ with
    | some x => slot + x.length
    | none => 0)

/-- The free words (R462). -/
def Hopper.free (h : Hopper) (fixed : Bool) : Nat := hopperWords - h.used fixed

/-- What a push, commit or pop leaves: the Hopper, the bits of HOP_EVT it sets, the items lost, and whether something became visible while
nothing was waiting. -/
structure HopOut where
  h     : Hopper
  bits  : W32 := 0
  lost  : Nat := 0
  shown : Bool := false
deriving Repr

/-- An item becomes visible to the consumer. -/
def Hopper.show (h : Hopper) (x : List W32) : HopOut :=
  { h := { h with items := h.items ++ [x], open_ := none }, shown := h.items.isEmpty }

/-- Room for `need` words: the oldest item that is not partly read gives way (R455). -/
def Hopper.makeRoom (h : Hopper) (fixed : Bool) (need : Nat) : Option (Hopper × Nat) :=
  if need ≤ h.free fixed then some (h, 0)
  else if h.partly then
    match h.items with
    | a :: _ :: rest => some ({ h with items := a :: rest }, 1)
    | _ => none
  else
    match h.items with
    | _ :: rest => some ({ h with items := rest }, 1)
    | _ => none

/-- A push of one word (R453, R455, R456). `entry` is the words of an entry in fixed-entry mode. -/
def Hopper.push (h : Hopper) (entry : Option Nat) (v : W32) : HopOut :=
  let fixed := entry.isSome
  let cur := h.open_.getD []
  if !fixed && decide (cur.length + 1 = 16384) then
    { h := { h with open_ := none }, bits := F.HOP_EVT_TOO_LONG.mask, lost := 1 }
  else
    let need := if fixed ∨ h.open_.isSome then 1 else 2
    match h.makeRoom fixed need with
    | none => { h := { h with open_ := none }, bits := F.HOP_EVT_DISCARD.mask, lost := 1 }
    | some (h, n) =>
      let spoil : W32 := if n = 0 then 0 else F.HOP_EVT_SPOIL.mask
      let x := cur ++ [v]
      if entry = some x.length then { h.show x with bits := spoil, lost := n }
      else { h := { h with open_ := some x }, bits := spoil, lost := n }

/-- COMMIT in packet mode: the open packet becomes visible (R453). -/
def Hopper.commit (h : Hopper) : HopOut :=
  match h.open_ with
  | some (a :: x) => h.show (a :: x)
  | _ => { h := h }

/-- ABORT in packet mode: the open packet is discarded (R453). -/
def Hopper.abort (h : Hopper) : Hopper := { h with open_ := none }

/-- The next word of the oldest visible item, removed; 0 when none waits (R454). -/
def Hopper.pop (h : Hopper) : W32 × Hopper :=
  match h.items with
  | (a :: []) :: rest => (a, { h with items := rest, partly := false })
  | (a :: x) :: rest => (a, { h with items := x :: rest, partly := true })
  | _ => (0, h)

/-- HOP_STAT of a Hopper (R462). -/
def Hopper.stat (h : Hopper) (fixed : Bool) : W32 :=
  w32 (h.free fixed % 2 ^ 15 + ((h.items.head?.getD []).length % 2 ^ 14) * 2 ^ 15 + b2n h.open_.isSome * 2 ^ 29)

/-! ## The Hoppers of a Side -/

/-- The index of Hopper `q` of a Side. -/
def hopIx (sd : Side) (q : Nat) : Nat := 64 * sd.idx + q

/-- The mode of a Hopper: 0 off, 1 packet, 2 fixed-entry; 3 acts as 0 (R462). -/
def State.hopMode (s : State) (sd : Side) (q : Nat) : Nat :=
  let m := s.fld (RS .HOP_CFG sd q) F.HOP_CFG_MODE
  if m = 3 then 0 else m

/-- The words of an entry, in fixed-entry mode. -/
def State.hopEntry (s : State) (sd : Side) (q : Nat) : Option Nat :=
  if s.hopMode sd q = 2 then some (s.fld (RS .HOP_CFG sd q) F.HOP_CFG_ENTRY + 1) else none

/-- The outcome of an operation goes into the state, with its events. -/
def State.hopPut (s : State) (sd : Side) (q : Nat) (o : HopOut) : State :=
  let s := { s with hoppers := s.hoppers.set (hopIx sd q) o.h }
  let s := (s.addWrap (RS .HOP_SPOIL sd q) o.lost).raiseW (RS .HOP_EVT sd q) o.bits
  if o.shown then s.setSource (sideSrc sd (64 + q)) else s

/-- The requester may produce into, or consume from, a Hopper (R452). -/
def State.hopAdmits (s : State) (r : Req) (sd : Side) (q : Nat) (f : Fld) : Bool :=
  let n := s.fld (RS .HOP_CFG sd q) f
  n = 0 || n = r.num

/-- A write of HOP_PUSH. -/
def State.hopPushW (s : State) (sd : Side) (q : Nat) (v : W32) : State :=
  if s.hopMode sd q = 0 then s else s.hopPut sd q ((s.hoppers.at (hopIx sd q)).push (s.hopEntry sd q) v)

/-- A write of HOP_CTL: COMMIT and ABORT act in packet mode. -/
def State.hopCtlW (s : State) (sd : Side) (q : Nat) (v : W32) : State :=
  if s.hopMode sd q ≠ 1 then s
  else
    let s := if bitOf v 0 then s.hopPut sd q (s.hoppers.at (hopIx sd q)).commit else s
    if bitOf v 1 then { s with hoppers := s.hoppers.upd (hopIx sd q) Hopper.abort } else s

/-- A read of HOP_POP; `ecc` is how the word came out of its check (R457). -/
def State.hopPopR (s : State) (sd : Side) (q : Nat) (ecc : Ecc) : W32 × State :=
  let h := s.hoppers.at (hopIx sd q)
  let p := h.pop
  let s := { s with hoppers := s.hoppers.set (hopIx sd q) p.2 }
  let k := RS .HOP_ECC sd q
  if h.items.isEmpty then (p.1, s)
  else
    match ecc with
    | .clean => (p.1, s)
    | .corrected => (p.1, s.addSat k F.HOP_ECC_CORR 1)
    | .uncorrectable => (p.1, (s.addSat k F.HOP_ECC_UNCORR 1).raise (RS .HOP_EVT sd q) F.HOP_EVT_UNCORR)

/-- A write of HOP_CFG: MODE 0 empties and resets the Hopper; any other write is accepted only while MODE is 0 (R452). -/
def State.hopCfgW (s : State) (sd : Side) (q : Nat) (v : W32) : State :=
  let v := v &&& 0x3FFF#32
  let m := getF v F.HOP_CFG_MODE
  if m = 0 ∨ m = 3 then { s with hoppers := s.hoppers.set (hopIx sd q) {} }.wr (RS .HOP_CFG sd q) v
  else if s.hopMode sd q = 0 then s.wr (RS .HOP_CFG sd q) v
  else s.raise (RS .HOP_EVT sd q) F.HOP_EVT_CFG_BUSY

/-- The Side's own firmware, requester 7 and requester 10 configure its memories (R458). -/
def memAdmin (r : Req) (sd : Side) : Bool := is7or10 r || r = Req.ofSide sd

/-- HOP_PUSH. -/
def execHopPush (r : Req) (sd : Side) (q : Fin 64) (v : W32) (s : State) : Out :=
  .next (s.sideAccess r sd (s.hopAdmits r sd q F.HOP_CFG_PROD) (RS .HOP_PUSH sd q).addr v fun s => s.hopPushW sd q v)

/-- HOP_COMMIT. -/
def execHopCommit (r : Req) (sd : Side) (q : Fin 64) (s : State) : Out :=
  .next (s.sideAccess r sd (s.hopAdmits r sd q F.HOP_CFG_PROD) (RS .HOP_CTL sd q).addr 1 fun s => s.hopCtlW sd q 1)

/-- HOP_ABORT. -/
def execHopAbort (r : Req) (sd : Side) (q : Fin 64) (s : State) : Out :=
  .next (s.sideAccess r sd (s.hopAdmits r sd q F.HOP_CFG_PROD) (RS .HOP_CTL sd q).addr 2 fun s => s.hopCtlW sd q 2)

/-- A read that a Side answers; while the Side does not run it reads 0 (R579). -/
def State.sideRead (s : State) (r : Req) (be : Fin 16) (sd : Side) (ok : Bool) (addr : Nat) (f : State → W32 × State) : State :=
  s.readAccess r be (Target.ofSide sd) (ok || !s.live sd) addr fun s => if s.live sd then f s else (0, s)

/-- HOP_POP. -/
def execHopPop (r : Req) (sd : Side) (q : Fin 64) (ecc : Ecc) (be : Fin 16) (s : State) : Out :=
  .next (s.sideRead r be sd (s.hopAdmits r sd q F.HOP_CFG_CONS) (RS .HOP_POP sd q).addr fun s => s.hopPopR sd q ecc)

/-- HOP_CFG_WRITE. -/
def execHopCfgWrite (r : Req) (sd : Side) (q : Fin 64) (v : W32) (s : State) : Out :=
  .next (s.sideAccess r sd (memAdmin r sd) (RS .HOP_CFG sd q).addr v fun s => s.hopCfgW sd q v)

end Sys2Proof.Machine
end

