-- ==== Sys2Proof/Machine/Nervor.lean ====
section
/-!
DEFINITION. Nervor Link (chapter 7), the receive side: the link states, the control channel, the partner table, CRC judgements, FEC counts and bypass.
-/
namespace Sys2Proof.Machine

/-- Lane `n`'s link beside its registers. -/
def State.link (s : State) (n : Nat) : NvlSt := s.nvl.at n

/-- The state with a link replaced. -/
def State.setLink (s : State) (n : Nat) (x : NvlSt) : State := { s with nvl := s.nvl.set n x }

/-- NVL_STAT[n].STATE: 0 IDLE, 1 LOCK, 2 TRAIN, 3 UP. -/
def State.linkState (s : State) (n : Nat) : Nat := s.fld (R1 .NVL_STAT n) F.NVL_STAT_STATE

/-- FEC is in use under FEC_MODE (R236, R257). -/
def State.fecOn (s : State) (n : Nat) : Bool :=
  match s.fld (R1 .NVL_CFG n) F.NVL_CFG_FEC_MODE with
  | 1 => true
  | 2 => false
  | _ => s.laneRate n = 1

/-- The slot channels of a Nervor lane (R257). -/
def State.nvlChannels (s : State) (n : Nat) : Nat :=
  if s.laneProto n ≠ 1 then 0 else if s.laneRate n = 1 then 4 else if s.laneRate n = 2 then 2 else 0

/-- The link enters a state. -/
def State.linkTo (s : State) (n st : Nat) : State :=
  (s.setF (R1 .NVL_STAT n) F.NVL_STAT_STATE st).setLink n { s.link n with entered := s.tick }

/-- The three locks of R244 are reported gained or lost. -/
def State.linkLocks (s : State) (n : Nat) (on : Bool) : State :=
  let k := R1 .NVL_STAT n
  ((s.setF k F.NVL_STAT_CW_LOCK (b2n (on && s.fecOn n))).setF k F.NVL_STAT_BLOCK_LOCK (b2n on)).setF k F.NVL_STAT_SF_LOCK (b2n on)

/-- The link leaves UP: its lane's source positions are ABSENT, and DOWN is set where R245 sets it. -/
def State.linkDown (s : State) (n : Nat) (down : Bool) : State :=
  if s.linkState n = 3 then (s.raiseIf down (R1 .NVL_EVT n) F.NVL_EVT_DOWN).laneLost n else s

/-- IDLE to LOCK: the lane is in L0 or L1 and LOS is clear (R245). -/
def State.nvlStart (s : State) (n : Nat) : State :=
  if s.laneProto n = 1 ∧ s.linkState n = 0 ∧ s.lanePark n ≤ 1 ∧ !s.laneLos n then s.linkTo n 1 else s

/-- LOCK, TRAIN or UP to IDLE: LOS, or the lane enters L2 or L3 (R245). -/
def State.nvlIdle (s : State) (n : Nat) : State :=
  if s.linkState n = 0 then s
  else
    let s := ((s.linkDown n true).linkTo n 0).linkLocks n false
    s.setLink n { s.link n with locked := false, retrain := false, lostAt := none }

/-- The link restarts its search in LOCK. -/
def State.nvlSearch (s : State) (n : Nat) : State := (s.linkTo n 1).linkLocks n false

/-- A roll-call report becomes due, from its part 0 (R247). -/
def State.sendReport (s : State) (n : Nat) : State := { s with nvlTx := s.nvlTx.upd n fun x => { x with roll := some 0 } }

/-- A ROLL_REQ becomes due (R247). -/
def State.askReport (s : State) (n : Nat) : State := { s with nvlTx := s.nvlTx.upd n fun x => { x with rollReq := true } }

/-- The link enters UP. -/
def State.linkUp (s : State) (n : Nat) : State :=
  ((((s.linkTo n 3).raise (R1 .NVL_EVT n) F.NVL_EVT_UP).sendReport n).askReport n)

/-- The link enters TRAIN. DESIGN CHOICE: the partner's last REQ_SEQ is forgotten at a new training, so that its first request there is applied
whatever its number; the spec does not say (log entry 121). -/
def State.linkTrain (s : State) (n : Nat) : State :=
  let s := s.linkTo n 2
  s.setLink n { s.link n with
    retrain := false, reqSeq := none, result := 0, ready := false, partnerReady := false, ask := (0, 0, (s.link n).ask.2.2), acked := true }

/-- RETRAIN: UP goes to TRAIN; in LOCK the next superframe lock does (R245). -/
def State.nvlRetrain (s : State) (n : Nat) : State :=
  match s.linkState n with
  | 3 => (s.linkDown n false).linkTrain n
  | 1 => s.setLink n { s.link n with retrain := true }
  | _ => s

/-! ## Lock and training (R244, R245, R248) -/

/-- LOCK_FAIL: 1 ms in LOCK since entry or restart without superframe lock. -/
def execLockFail (n : Fin 512) (s : State) : Out :=
  if s.linkState n = 1 ∧ (s.link n).entered + msTicks ≤ s.tick then
    .next ((s.raise (R1 .NVL_EVT n) F.NVL_EVT_LOCK_FAIL).nvlSearch n)
  else .next s

/-- SF_LOCK: superframe lock leads to TRAIN or to UP. -/
def execSfLock (n : Fin 512) (s : State) : Out :=
  if s.linkState n ≠ 1 ∨ s.laneLol n then .next s
  else
    let x := s.link n
    let long : Bool := match x.lostAt with
      | some t => decide (t + msTicks < s.tick)
      | none => false
    let train := s.flag (R1 .LANE_CTL n) F.LANE_CTL_TRAIN && (!x.locked || long || x.retrain)
    let s := (s.linkLocks n true).setLink n { x with locked := true, lostAt := none, retrain := false }
    .next (if train then s.linkTrain n else s.linkUp n)

/-- SF_LOCK_LOST: the link returns to LOCK. -/
def execSfLockLost (n : Fin 512) (s : State) : Out :=
  if s.linkState n = 2 ∨ s.linkState n = 3 then
    let s := ((s.linkDown n true).linkTo n 1).setF (R1 .NVL_STAT n) F.NVL_STAT_SF_LOCK 0
    .next (s.setLink n { s.link n with lostAt := some s.tick })
  else .next s

/-- BLOCK_LOCK_LOST: 16 invalid headers within 64 blocks. -/
def execBlockLockLost (n : Fin 512) (s : State) : Out := .next (s.setF (R1 .NVL_STAT n) F.NVL_STAT_BLOCK_LOCK 0)

/-- A control message whose CRC-8 is good, as CODE, PART and body (R247). -/
def ctrlMsg (m : BitVec 56) : Option (Nat × Nat × Nat) :=
  let p := m.toNat
  if crc 8 0x07 0 (bitsMsb 48 (p / 256)) = p % 256 then some (p / 2 ^ 52, p / 2 ^ 48 % 16, p / 256 % 2 ^ 40) else none

/-- A control message arrives: one that fails its CRC-8 is counted and discarded, a ROLL_REQ is answered with a report, and one of another code
does nothing here. -/
def State.onCtrl (s : State) (n code : Nat) (m : BitVec 56) (f : Nat → State → State) : State :=
  if s.laneProto n ≠ 1 ∨ !s.flag (R1 .NVL_STAT n) F.NVL_STAT_BLOCK_LOCK then s
  else
    match ctrlMsg m with
    | none => (s.addSat (R1 .NVL_HDR_ERR n) F.NVL_HDR_ERR_CTRL 1).raise (R1 .NVL_EVT n) F.NVL_EVT_CTRL_ERR
    | some (c, _, body) => if c = code then f body s else if c = 5 then s.sendReport n else s

/-- The taps after a request, and the answer: 1 updated, 2 at limit, 3 not updated (R248). -/
def State.tapRequest (s : State) (n tap action : Nat) : State × Nat :=
  let k := R1 .LANE_TXEQ n
  let a := s.fld k F.LANE_TXEQ_PRE2
  let b := s.fld k F.LANE_TXEQ_PRE1
  let c := s.fld k F.LANE_TXEQ_POST1
  let step (x : Nat) : Option Nat := if action = 1 then some (x + 1) else if 0 < x then some (x - 1) else none
  if !s.flag (R1 .LANE_CTL n) F.LANE_CTL_TRAIN ∨ (tap = 1 ∧ !s.pam4 n) then (s, 3)
  else if action = 3 then (s.setTaps n 0 4 8, 1)
  else if action = 0 ∨ tap = 0 then
    let d := s.fresh
    (d.2, (Config.holdAnswer d.1).toNat)
  else
    let new := match tap with
      | 1 => (step a).map fun x => (x, b, c)
      | 2 => (step b).map fun x => (a, x, c)
      | _ => (step c).map fun x => (a, b, x)
    match new with
    | some (a, b, c) => if tapsOk a b c then (s.setTaps n a b c, 1) else (s, 2)
    | none => (s, 2)

/-- This end's receiver asks for its next change, once the partner has acknowledged the one before and while it is not ready; which change its
measurements ask for is open (R248). -/
def State.askTap (s : State) (n : Nat) : State :=
  let x := s.link n
  if x.ready || !x.acked then s
  else
    let d := s.fresh
    let q := (Config.nextTap d.1).toNat
    d.2.setLink n { x with ask := (q / 4, q % 4, (x.ask.2.2 + 1) % 256), acked := false }

/-- A TRAIN message's body in state TRAIN: its request is applied once, its acknowledgement lets this end ask again, and the link goes UP when both
ends are ready. DESIGN CHOICE: in any other state the message is ignored, where the spec does not say (log entry 121). -/
def State.trainMsg (s : State) (n body : Nat) (ready : Bool) : State :=
  if s.linkState n ≠ 2 then s
  else
    let seq := body / 2 ^ 28 % 256
    let s :=
      if (s.link n).reqSeq = some seq then s
      else
        let p := s.tapRequest n (body / 2 ^ 38) (body / 2 ^ 36 % 4)
        p.1.setLink n { p.1.link n with reqSeq := some seq, result := p.2 }
    let x := s.link n
    let s := s.setLink n { x with
      ready := ready, partnerReady := body / 2 ^ 17 % 2 = 1, acked := x.acked || decide (body / 2 ^ 18 % 256 = x.ask.2.2) }
    let s := s.askTap n
    if (s.link n).ready ∧ (s.link n).partnerReady then (s.setF (R1 .LANE_STAT n) F.LANE_STAT_TRAINED 1).linkUp n else s

/-- NVL_TRAIN_MSG; `ready` is whether this end's receiver needs no further change. -/
def execNvlTrainMsg (n : Fin 512) (msg : BitVec 56) (ready : Bool) (s : State) : Out :=
  .next (s.onCtrl n 1 msg fun body s => s.trainMsg n body ready)

/-- TRAIN_TIMEOUT: 3.5 ms in TRAIN. -/
def execTrainTimeout (n : Fin 512) (s : State) : Out :=
  if s.linkState n = 2 ∧ (s.link n).entered + 7 * msTicks / 2 ≤ s.tick then
    let s := s.raise (R1 .NVL_EVT n) F.NVL_EVT_TRAIN_TIMEOUT
    .next (if s.flag (R1 .NVL_STAT n) F.NVL_STAT_SF_LOCK then s.linkUp n else s.nvlSearch n)
  else .next s

/-! ## NVL_CFG (R245, R257) -/

/-- A write of NVL_CFG[n]: a changed FEC_MODE restarts the search, RETRAIN retrains, ROLL_REQ asks for a report. On a lane of another protocol
the page ignores writes. -/
def State.writeNvlCfg (s : State) (n : Nat) (v : W32) : State :=
  if s.laneProto n ≠ 1 then s
  else
    let mode := getF v F.NVL_CFG_FEC_MODE
    let s :=
      if mode = s.fld (R1 .NVL_CFG n) F.NVL_CFG_FEC_MODE then s
      else
        let s := s.setF (R1 .NVL_CFG n) F.NVL_CFG_FEC_MODE mode
        let s := s.setF (R1 .NVL_STAT n) F.NVL_STAT_FEC_ON (b2n (s.fecOn n))
        if s.linkState n = 0 then s else (s.linkDown n true).nvlSearch n
    let s := if bitOf v F.NVL_CFG_RETRAIN.lo then s.nvlRetrain n else s
    if bitOf v F.NVL_CFG_ROLL_REQ.lo && s.linkState n = 3 then s.askReport n else s

/-- A word of NVL_CFG[n] with the present FEC_MODE and another bit set. -/
def State.nvlCfgWith (s : State) (n : Nat) (f : Fld) : W32 := putF f.mask F.NVL_CFG_FEC_MODE (s.fld (R1 .NVL_CFG n) F.NVL_CFG_FEC_MODE)

/-- RETRAIN. -/
def execRetrain (r : Req) (n : Fin 512) (s : State) : Out :=
  .next (s.access r .lanes (s.holdsLane r n) (R1 .NVL_CFG n).addr (s.nvlCfgWith n F.NVL_CFG_RETRAIN) fun s => s.writeNvlCfg n (s.nvlCfgWith n F.NVL_CFG_RETRAIN))

/-- NVL_FEC_MODE_WRITE. -/
def execNvlFecModeWrite (r : Req) (n : Fin 512) (mode : Fin 4) (s : State) : Out :=
  .next (s.access r .lanes (s.holdsLane r n) (R1 .NVL_CFG n).addr (w32 mode) fun s => s.writeNvlCfg n (w32 mode))

/-- ROLL_REQ. -/
def execRollReq (r : Req) (n : Fin 512) (s : State) : Out :=
  .next (s.access r .lanes (s.holdsLane r n) (R1 .NVL_CFG n).addr (s.nvlCfgWith n F.NVL_CFG_ROLL_REQ) fun s => s.writeNvlCfg n (s.nvlCfgWith n F.NVL_CFG_ROLL_REQ))

/-! ## The partner table (R251, R252) -/

/-- A superframe of the lane in ticks, as a fraction (R236). -/
def State.superframe (s : State) (n : Nat) : Nat × Nat :=
  let mhz := if s.laneRate n = 1 then 56250 else 28125
  if s.fecOn n then (1024 * 66 * 272 * 250, mhz * 257) else (1024 * 66 * 250, mhz)

/-- `k` superframes have passed since a tick. -/
def State.superframesSince (s : State) (n k t : Nat) : Bool :=
  let f := s.superframe n
  decide (k * f.1 ≤ (s.tick - t) * f.2)

/-- A complete report, from the bodies of its three parts, enters or changes the partner table. -/
def State.report (s : State) (n b0 b1 b2 : Nat) : State :=
  let bank := b2 / 64 % 2
  let port := b1 % 256 + b2 / 128 % 2 * 256
  let w0 := w32 (b0 / 2 ^ 36 + 16 + bank * 32 + port * 64 + b0 % 2 ^ 16 * 2 ^ 16)
  let w1 := w32 (b2 / 256)
  let w2 := w32 (b1 / 256)
  let w3 := w32 (b0 / 2 ^ 16 % 2 ^ 12 + b0 / 2 ^ 28 % 256 * 2 ^ 12)
  let valid := s.flag (R1 .NVL_PARTNER0 n) F.NVL_PARTNER0_VALID
  let used := s.linkState n = 3 || (s.link n).lostAt.any fun t => !s.superframesSince n 1 t
  let same := s.rd (R1 .NVL_PARTNER0 n) = w0 && s.rd (R1 .NVL_PARTNER1 n) = w1 && s.rd (R1 .NVL_PARTNER2 n) = w2 && s.rd (R1 .NVL_PARTNER3 n) = w3
  if !used then s
  else
    let s := s.setLink n { s.link n with reportAt := s.tick }
    if valid && same then s
    else
      let s := (((s.wr (R1 .NVL_PARTNER0 n) w0).wr (R1 .NVL_PARTNER1 n) w1).wr (R1 .NVL_PARTNER2 n) w2).wr (R1 .NVL_PARTNER3 n) w3
      let s := s.raise (R1 .NVL_EVT n) (if valid then F.NVL_EVT_CHANGE else F.NVL_EVT_APPEAR)
      s.raiseIf (decide (bank ≠ (laneBank n).idx)) (R1 .NVL_EVT n) F.NVL_EVT_BANK_MISMATCH

/-- ROLL_CALL: parts 0, 1 and 2 in consecutive CTRL positions. -/
def execRollCall (n : Fin 512) (m0 m1 m2 : BitVec 56) (s : State) : Out :=
  match ctrlMsg m0, ctrlMsg m1, ctrlMsg m2 with
  | some (4, 0, b0), some (4, 1, b1), some (4, 2, b2) =>
    if s.laneProto n ≠ 1 ∨ !s.flag (R1 .NVL_STAT n) F.NVL_STAT_BLOCK_LOCK then .next s else .next (s.report n b0 b1 b2)
  | _, _, _ => .next (((s.onCtrl n 4 m0 fun _ s => s).onCtrl n 4 m1 fun _ s => s).onCtrl n 4 m2 fun _ s => s)

/-- GONE: 256 superframes without a complete report. -/
def execGone (n : Fin 512) (s : State) : Out :=
  let k := R1 .NVL_PARTNER0 n.val
  if s.flag k F.NVL_PARTNER0_VALID ∧ s.superframesSince n 256 (s.link n).reportAt then
    .next ((s.setF k F.NVL_PARTNER0_VALID 0).raise (R1 .NVL_EVT n) F.NVL_EVT_GONE)
  else .next s

/-! ## Blocks (R232 to R240, R246) -/

/-- The CRC-12 register after a payload, bit 63 first (R234). -/
def crc12Step (r : Nat) (p : BitVec 64) : Nat := crc 12 0x80F r (bitsMsb 64 p.toNat)

/-- The CRC-12 of a channel's payloads (R234). -/
def crc12 (ps : List (BitVec 64)) : Nat := ps.foldl crc12Step 0xFFF

/-- The cells of a channel among the positions that a CRC block covers: positions 45 onwards of the rows' data positions (R235). -/
def channelCells (chans c : Nat) (cells : List NvlCell) : List NvlCell :=
  (cells.zipIdx 45).filterMap fun p => if p.2 % chans = c then some p.1 else none

/-- The header of a cell is invalid (R232). -/
def NvlCell.invalid (x : NvlCell) : Bool := decide (x.hdr = 0) || decide (x.hdr = 3)

/-- The judgement of a channel (R237): COUNT agrees, its CRC-12 matches, and no position is bad of itself. -/
def channelGood (payload : BitVec 56) (chans c : Nat) (cells : List NvlCell) : Bool :=
  let mine := channelCells chans c cells
  decide (payload.toNat / 2 ^ 48 = cells.length % 256) && mine.all (fun x => !x.invalid && !x.uncorr) &&
    decide (payload.toNat / 2 ^ (36 - 12 * c) % 4096 = crc12 (mine.map (·.payload)))

/-- The field of NVL_CRC_ERR for a channel. -/
def crcErrField (c : Nat) : Fld := ⟨8 * c, 8⟩

/-- The slot words of a channel's cells, in order: two of each block but IDLE ones (R232, R233), bad as the channel was judged (R237). -/
def State.cellWords (s : State) (good : Bool) (cells : List NvlCell) : List RxWord :=
  (cells.filter fun x => x.hdr ≠ 2).flatMap fun x =>
    let t := s.cadTime - (x.ago : Int)
    [{ w := x.payload.extractLsb' 32 32, bad := !good, time := t }, { w := x.payload.extractLsb' 0 32, bad := !good, time := t }]

/-- The CRC-12 of an output channel is to be sent inverted (R238, R254). -/
def State.poisonTx (s : State) (l c : Nat) : State := { s with nvlTx := s.nvlTx.upd l fun x => { x with poison := x.poison.set c true } }

/-- The transmit position of an output slot in a bank. -/
def OutPlan.pos (p : OutPlan) : Bank → Option TxPos
  | .E => p.txE
  | .W => p.txW

/-- A bad judgement of a source position poisons the bypass outputs that forward it (R254). -/
def State.poisonBypass (s : State) (b : Bank) (q : SrcPos) : State :=
  s.outPlan.foldl (fun (s : State) e =>
    match e.2.bypass, e.2.pos b with
    | some i, some (.nervor l c) => if (s.inPlan.at i).pos b = some q then s.poisonTx l c else s
    | _, _ => s) s

/-- One codeword or one CRC judgement enters what the last millisecond holds (R249, R250). -/
def State.noteRecent (s : State) (n words syms bad : Nat) : State :=
  let x := s.link n
  s.setLink n { x with recent := (s.tick, words, syms, bad) :: x.recent.filter fun e => decide (s.tick < e.1 + msTicks) }

/-- A channel's positions are judged, and its words go on to the slot that it feeds while the link is UP (R24, R237, R245). -/
def State.judgeChannel (s : State) (n c : Nat) (good : Bool) (cells : List NvlCell) : State :=
  let b := laneBank n
  let s := if good then s
    else (((s.addSat (R1 .NVL_CRC_ERR n) (crcErrField c) 1).raise (R1 .NVL_EVT n) F.NVL_EVT_CRC_ERR).noteRecent n 0 0 1).poisonBypass b (.nervor n c)
  if s.posUsable b (.nervor n c) then s.pushPos b (.nervor n c) (s.cellWords good cells) else s

/-- What a superframe has held so far (R246): a data position, one that is not IDLE with STANDBY_GAP, and a data block. -/
def State.noteCells (s : State) (n : Nat) (cells : List NvlCell) : State :=
  let x := s.link n
  let gap (y : NvlCell) : Bool := decide (y.hdr = 2) && y.payload.getLsbD 55
  s.setLink n { x with
    anyCell := x.anyCell || !cells.isEmpty, allGap := x.allGap && cells.all gap, anyData := x.anyData || cells.any fun y => y.hdr = 1 }

/-- NVL_CRC_BLOCK: the positions it covers are judged and their words delivered; `unknown` control blocks of unknown type came since the one
before. -/
def execNvlCrcBlock (n : Fin 512) (payload : BitVec 56) (cells : List NvlCell) (unknown : Nat) (s : State) : Out :=
  let k := R1 .NVL_STAT n.val
  if s.laneProto n ≠ 1 ∨ !s.flag k F.NVL_STAT_SF_LOCK then .next s
  else
    let chans := s.fld k F.NVL_STAT_CHANNELS
    let invalid := (cells.filter NvlCell.invalid).length
    let s := s.setF k F.NVL_STAT_BLOCK_LOCK 1
    let s := s.addSat (R1 .NVL_HDR_ERR n) F.NVL_HDR_ERR_HDR (invalid + unknown)
    let s := (s.raiseIf (decide (0 < unknown)) (R1 .NVL_EVT n) F.NVL_EVT_CTRL_ERR).noteCells n cells
    .next ((List.range chans).foldl (fun (s : State) c =>
      s.judgeChannel n c (channelGood payload chans c cells) (channelCells chans c cells)) s)

/-- NVL_CODEWORD: up to 7 symbols are corrected and counted; more are uncorrectable (R240). -/
def execNvlCodeword (n : Fin 512) (errors : Nat) (s : State) : Out :=
  if s.laneProto n ≠ 1 ∨ !s.flag (R1 .NVL_STAT n) F.NVL_STAT_FEC_ON then .next s
  else if errors ≤ 7 then .next ((s.addWrap (R1 .NVL_FEC_CORR n) errors).noteRecent n 1 errors 0)
  else .next (((s.addWrap (R1 .NVL_FEC_UNCORR n) 1).raise (R1 .NVL_EVT n) F.NVL_EVT_UNCORR).noteRecent n 1 0 0)

/-- ALARM: the partner's bits are shown; a rise is an event (R249). -/
def execAlarm (n : Fin 512) (msg : BitVec 56) (s : State) : Out :=
  .next (s.onCtrl n 2 msg fun body s =>
    let k := R1 .NVL_STAT n.val
    let new := body / 2 ^ 35
    let rose := (List.range 5).any fun i => new.testBit i && !(s.fld k F.NVL_STAT_REMOTE_ALARM).testBit i
    (s.setF k F.NVL_STAT_REMOTE_ALARM new).raiseIf rose (R1 .NVL_EVT n) F.NVL_EVT_REMOTE_ALARM)

/-- LANE_DATA: the partner's values are stored (R250). -/
def execLaneData (n : Fin 512) (msg : BitVec 56) (s : State) : Out :=
  .next (s.onCtrl n 3 msg fun body s =>
    s.wr (R1 .NVL_REMOTE n) (w32 (body / 2 ^ 30 + body / 2 ^ 20 % 2 ^ 10 * 2 ^ 10 + body / 2 ^ 12 % 2 ^ 8 * 2 ^ 20)))

/-- PEER_GAP: a superframe ends (R246). -/
def execPeerGap (n : Fin 512) (s : State) : Out :=
  let k := R1 .NVL_STAT n.val
  let x := s.link n
  let s' := s.setLink n { x with anyCell := false, allGap := true, anyData := false }
  if s.laneProto n ≠ 1 ∨ !s.flag k F.NVL_STAT_SF_LOCK then .next s
  else if x.anyCell ∧ x.allGap then
    .next (if s.flag k F.NVL_STAT_PEER_GAP then s' else (s'.setF k F.NVL_STAT_PEER_GAP 1).raise (R1 .NVL_EVT n) F.NVL_EVT_PEER_GAP)
  else if x.anyData then .next (s'.setF k F.NVL_STAT_PEER_GAP 0)
  else .next s'

/-! ## Bypass (R253 to R255) -/

/-- NVL_BYPASS_FORWARD: a data block of the bound input enters the bypass buffer, of 8 blocks, of the output's position of the same bank; the bank
puts it in that position's next data block, whatever the Sides do. -/
def execNvlBypassForward (d : Fin 1024) (b : Bank) (first second : W32) (s : State) : Out :=
  let p := s.outPlan.at d
  match p.bypass, p.pos b with
  | some i, some (.nervor l c) =>
    let q := s.bypassQ.at (4 * l + c)
    if s.aoReset ∨ !((s.inPlan.at i).pos b).any (s.posUsable b) ∨ 8 ≤ q.length then .next s
    else .next { s with bypassQ := s.bypassQ.set (4 * l + c) (q ++ [(first, second)]) }
  | _, _ => .next s

end Sys2Proof.Machine
end

