-- ==== Sys2Proof/Machine/Lanes.lean ====
section
/-!
DEFINITION. Lanes and banks (chapter 6): detectors, quad PLLs, park states, equalisers, test patterns and the checker.
-/
namespace Sys2Proof.Machine

/-- LANE_QSTAT of quad `q`; the four pages of a quad return the same value (R231). -/
def qstat (q : Nat) : RegKey := R1 .LANE_QSTAT (4 * q)

/-- The lanes of a quad. -/
def quadLanes (q : Nat) : List Nat := [4 * q, 4 * q + 1, 4 * q + 2, 4 * q + 3]

/-- A lane beside its registers. -/
def State.lane (s : State) (n : Nat) : LaneSt := s.lanes.at n

/-- The state with a lane replaced. -/
def State.setLane (s : State) (n : Nat) (x : LaneSt) : State := { s with lanes := s.lanes.set n x }

/-- A field of LANE_STAT[n] is set. -/
def State.laneStat (s : State) (n : Nat) (f : Fld) (v : Nat) : State := s.setF (R1 .LANE_STAT n) f v

/-- A bit of LANE_EVT[n] is set. -/
def State.laneEvt (s : State) (n : Nat) (f : Fld) : State := s.raise (R1 .LANE_EVT n) f

/-! ## Ports (R282, R283) -/

/-- A bit of ETH_PORT_EVT[i]. -/
def State.portEvt (s : State) (i : Nat) (f : Fld) : State := s.raise (R1 .ETH_PORT_EVT i) f

/-- The flows that the tables configure. -/
def State.rxListed (s : State) : List Nat := s.regs.filterMap fun e => if e.1.name = .ETH_RXF_CFG then some e.1.i else none

/-- The bank of a media port's index (R282). -/
def portBank (i : Nat) : Bank := if i < 64 then .E else .W

/-- The port's link goes down: its flow copies are ABSENT and its calibration is gone. -/
def State.portDown (s : State) (i : Nat) : State :=
  if !s.portUp i then s
  else
    let s := (s.setF (R1 .ETH_PORT_STAT i) F.ETH_PORT_STAT_LINK 0).portEvt i F.ETH_PORT_EVT_LINK_DOWN
    let s : State := { s with ports := s.ports.upd i fun p => { p with cal := false } }
    let on (s : State) (b : Bank) : SrcPos → Bool
      | .flow r => s.rxfPort b r = i
      | _ => false
    let s := if i < 128 then s.posLostWhere fun b p => b = portBank i && on s b p else s
    if 128 ≤ i then s
    else s.rxListed.foldl (fun (s : State) r =>
      let x := s.rxFlows.at r
      let b := portBank i
      let here : Bool := match b with | .E => x.presentE | .W => x.presentW
      if s.rxfPort b r = i ∧ s.rxfType r ≠ 1 ∧ here then s.flowCopyAbsent r b else s) s

/-- The port that a media Ethernet lane belongs to. -/
def State.lanePort (s : State) (n : Nat) : Nat := 64 * (laneBank n).idx + s.fld (R1 .LANE_CFG n) F.LANE_CFG_PORT

/-! ## Demand (R214, R216) -/

/-- The source of an output slot is lost to it (R93), as merge in the lease holder's Side sees it, else in Side A's. -/
def State.srcGone (s : State) (d : Nat) : Bool := decide (s.lossCause (s.holder.getD .A) d (s.routes.at d).src ≠ .none)

/-- An output slot demands the lanes of its transmit positions: not when it follows a lost source, unless a take is pending (R216). -/
def State.outDemands (s : State) (d : Nat) (sdi : Bool) : Bool :=
  sdi || getF (s.twin .XPT_OUT_CFG d) F.XPT_OUT_CFG_LOSS != 2 || !s.srcGone d || s.takes.any fun t => t.dest = d

/-- The lane is demanded (R216). -/
def State.laneDemanded (s : State) (n : Nat) : Bool :=
  s.flag (R1 .LANE_CTL n) F.LANE_CTL_NOPARK || s.inTest n ||
  (s.laneProto n = 1 && s.flag (R1 .NVL_PARTNER0 n) F.NVL_PARTNER0_VALID) ||
  (!s.laneLos n && s.inPlan.any fun p => p.2.srcE.any (s.posOnLane n .E) || p.2.srcW.any (s.posOnLane n .W)) ||
  s.outPlan.any fun p => (p.2.txE.any (s.txOnLane n .E) || p.2.txW.any (s.txOnLane n .W)) && s.outDemands p.1 (s.laneProto n = 2)

/-- A declaration in nanoseconds (R576). -/
def declNs (w : W32) : Nat :=
  getF w F.PARK_LANE_DECL_VALUE * (match getF w F.PARK_LANE_DECL_UNIT with | 0 => 1 | 1 => 1000 | _ => 1000000)

/-- The deepest state that lane group `g` permits (R214): the wake times are 2 µs, 100 µs and 5 ms. -/
def State.groupDeepest (s : State) (g : Nat) : Nat :=
  let d := declNs (s.rd (R1 .PARK_LANE_DECL g))
  if d < 2000 then 0 else if d < 100000 then 1 else if d < 5000000 then 2 else 3

/-- The deepest state a lane's group permits the lane; an SDI lane is never in L1 (R213). -/
def State.laneDeepest (s : State) (n : Nat) : Nat :=
  let d := s.groupDeepest (s.fld (R1 .LANE_CFG n) F.LANE_CFG_GROUP)
  if s.laneProto n = 2 ∧ d = 1 then 0 else d

/-- The lane has been idle for 10 ms (R216). -/
def State.laneIdle (s : State) (n : Nat) : Bool :=
  !s.laneDemanded n && (s.lane n).idleSince.any fun t => decide (t + 10 * msTicks ≤ s.tick)

/-- Since when each lane in a structure is idle is brought up to date. -/
def State.noteDemand (s : State) : State :=
  (s.regs.filter fun e => decide (e.1.name = .LANE_CFG)).foldl (fun (s : State) e =>
    let n := e.1.i
    let x := s.lane n
    if s.laneDemanded n then (if x.idleSince.isNone then s else s.setLane n { x with idleSince := none })
    else if x.idleSince.isNone then s.setLane n { x with idleSince := some s.tick } else s) s

/-! ## Wakes (R213, R215, R217) -/

/-- The wake time of a state in ticks. -/
def wakeTicks : Nat → Nat
  | 1 => 2 * usTicks
  | 2 => 100 * usTicks
  | 3 => 5 * msTicks
  | _ => 0

/-- A wake begins. -/
def State.startWake (s : State) (n : Nat) : State :=
  let park := s.lanePark n
  if s.laneProto n = 0 ∨ park = 0 ∨ s.flag (R1 .LANE_STAT n) F.LANE_STAT_WAKING ∨ s.bankLost.contains (laneBank n) then s
  else (s.laneStat n F.LANE_STAT_WAKING 1).setLane n { s.lane n with wakeFrom := park, wakeAt := s.tick, idleSince := none }

/-- A lane that is demanded wakes. -/
def State.wakeIfDemanded (s : State) (n : Nat) : State := if s.laneDemanded n then s.startWake n else s

/-- The measured frequency offset, in 0.1 ppm (R227). -/
def State.laneFreq (s : State) (n : Nat) (freq : Int) : State := s.laneStat n F.LANE_STAT_FREQ (twos 16 (satS 16 freq))

/-- LOL ends, with its event. -/
def State.endLol (s : State) (n : Nat) : State :=
  if s.laneLol n then (s.laneStat n F.LANE_STAT_LOL 0).laneEvt n F.LANE_EVT_LOL_CLR else s

/-- The values of the receive equaliser as they stand when adaptation stops (R205). -/
def State.holdEq (s : State) (n : Nat) : State :=
  let m := s.fld (R1 .LANE_CTL n) F.LANE_CTL_EQ_MODE
  if (m = 0 ∨ m = 3) ∧ s.lanePark n = 0 then
    let d := s.fresh
    d.2.setLane n { d.2.lane n with rxUse := (Config.rxAdapted d.1).setWidth 32 }
  else s

/-- The lane enters a park state (R213): L2 and L3 switch its receiver off, its link goes to IDLE (R245) or its port's link down (R283), and its Sluice
no longer counts as transmitting. -/
def State.enterPark (s : State) (n st : Nat) : State :=
  let s := s.holdEq n
  let s := (s.laneStat n F.LANE_STAT_PARK st).laneStat n F.LANE_STAT_WAKING 0
  let s := s.laneStat n F.LANE_STAT_TX_ON (b2n (decide (st = 1)))
  if st = 1 then s
  else
    let s := ((((s.endLol n).laneFreq n 0).laneStat n F.LANE_STAT_TRAINED 0).nvlIdle n).sluiceStop n
    if s.laneProto n = 3 then s.portDown (s.lanePort n) else s

/-- The quad PLL is off. -/
def State.quadOff (s : State) (q : Nat) : State := (s.setF (qstat q) F.LANE_QSTAT_OFF 1).setF (qstat q) F.LANE_QSTAT_LOCK 0

/-- LANE_PARK: a lane idle for 10 ms enters the deepest permitted state; L3 only with its whole quad (R214 to R216). -/
def execLanePark (n : Fin 512) (s : State) : Out :=
  let q := n.val / 4
  let all3 := (quadLanes q).all fun m => s.laneProto m = 0 || (s.laneIdle m && s.laneDeepest m = 3)
  let target := if s.laneDeepest n = 3 ∧ !all3 then 2 else s.laneDeepest n
  if s.laneProto n = 0 ∨ !s.laneIdle n ∨ target ≤ s.lanePark n then .next s
  else if target = 3 then
    let s := (quadLanes q).foldl (fun (s : State) m => if s.laneProto m = 0 then s else s.enterPark m 3) s
    .next (s.quadOff q).updateStep
  else .next (s.enterPark n target).updateStep

/-- LANE_DEMAND: a demand wakes a parked lane; an entry that it meets ends (R217). -/
def execLaneDemand (n : Fin 512) (s : State) : Out := .next (s.wakeIfDemanded n)

/-- The lane carries its stream again. -/
def State.txOn (s : State) (n : Nat) : State :=
  s.laneStat n F.LANE_STAT_TX_ON (b2n (decide (s.fld (R1 .LANE_TEST n) F.LANE_TEST_LOOP ≠ 2)))

/-- An Ethernet port's PMD training leaves a lane with taps of the partner's choosing, within the limits (R204). -/
def State.pmdTrain (s : State) (n : Nat) : State :=
  let d := s.fresh
  let t := (Config.pmdTaps d.1).toNat
  let pre2 := if s.pam4 n then t % 16 else 0
  if tapsOk pre2 (t / 16 % 64) (t / 1024) then d.2.setTaps n pre2 (t / 16 % 64) (t / 1024) else d.2

/-- WAKE: a lane reaches L0; from L1, L2 or L3 with WAKE, and WAKE_LATE when it took longer than its wake time (R213, R217). A lane that
retrains after an unlock of its PLL or a test also reaches L0 here (R212, R221). -/
def execWake (n : Fin 512) (s : State) : Out :=
  let x := s.lane n
  let waking := s.flag (R1 .LANE_STAT n) F.LANE_STAT_WAKING
  if s.laneProto n = 0 ∨ !(waking ∨ x.retrain) ∨ !s.flag (qstat (n.val / 4)) F.LANE_QSTAT_LOCK then .next s
  else
    let proto := s.laneProto n
    let parked := decide (s.lanePark n ≠ 0)
    let trains := s.flag (R1 .LANE_CTL n) F.LANE_CTL_TRAIN &&
      ((proto = 3 && (x.retrain || 2 ≤ x.wakeFrom)) || (proto = 1 && (x.retrain || x.wakeFrom = 3)))
    let late := waking && decide (x.wakeAt + wakeTicks x.wakeFrom < s.tick)
    let s := ((s.laneStat n F.LANE_STAT_PARK 0).laneStat n F.LANE_STAT_WAKING 0).txOn n
    let s := if trains then s.laneStat n F.LANE_STAT_TRAINED 1 else s
    let s := if trains && proto = 3 then s.pmdTrain n else s
    let s := s.setLane n { x with retrain := false, idleSince := none }
    let s := (s.raiseIf (waking || parked) (R1 .LANE_EVT n) F.LANE_EVT_WAKE).raiseIf late (R1 .LANE_EVT n) F.LANE_EVT_WAKE_LATE
    .next (s.nvlStart n).updateStep

/-! ## Detectors (R209 to R211) -/

/-- The lane reports LOS: it reports no LOL, its positions are ABSENT and its link goes to IDLE. -/
def State.losSet (s : State) (n : Nat) : State :=
  if s.laneLos n then s
  else
    let s := (s.laneStat n F.LANE_STAT_LOS 1).laneEvt n F.LANE_EVT_LOS_SET
    (((s.endLol n).laneFreq n 0).laneLost n).nvlIdle n

/-- The assert threshold of a lane in mV (R209). -/
def State.losLevel (s : State) (n : Nat) : Nat := 10 * (s.fld (R1 .LANE_DET n) F.LANE_DET_LOS_TH + 2)

/-- A detector's time in µs, 0 acting as 1, has passed: `us` µs, all of them since LANE_DET was last written (R209, R226). -/
def State.detHeld (s : State) (n : Nat) (f : Fld) (us : Nat) : Bool :=
  let t := max 1 (s.fld (R1 .LANE_DET n) f)
  decide (t ≤ us) && !((s.lane n).detAt.any fun w => decide (s.tick < w + t * usTicks))

/-- LOS_ASSERT: over the last `us` µs the amplitude has stayed at or below `mv` mV. -/
def execLosAssert (n : Fin 512) (mv us : Nat) (s : State) : Out :=
  .next (if mv < s.losLevel n ∧ s.detHeld n F.LANE_DET_ASSERT us then s.losSet n else s)

/-- LOS_CLEAR: over the last `us` µs the amplitude has stayed at or above `mv` mV; the lane may be demanded now. While the bank has no supplies LOS
stays. -/
def execLosClear (n : Fin 512) (mv us : Nat) (s : State) : Out :=
  if !s.laneLos n ∨ s.bankLost.contains (laneBank n) ∨ mv < s.losLevel n + 5 * s.fld (R1 .LANE_DET n) F.LANE_DET_LOS_HYST ∨
      !s.detHeld n F.LANE_DET_CLEAR us then .next s
  else
    let s := (s.laneStat n F.LANE_STAT_LOS 0).laneEvt n F.LANE_EVT_LOS_CLR
    .next ((s.nvlStart n).wakeIfDemanded n)

/-- The lane reports LOL, and its positions are ABSENT. -/
def State.lolSet (s : State) (n : Nat) : State :=
  if s.laneLos n ∨ s.laneLol n ∨ 2 ≤ s.lanePark n then s
  else ((s.laneStat n F.LANE_STAT_LOL 1).laneEvt n F.LANE_EVT_LOL_SET).laneLost n

/-- A receive frequency offset in 0.1 ppm exceeds LOL_PPM × 10 ppm, 0 acting as 1 (R207, R210, R226). -/
def State.offFreq (s : State) (n : Nat) (freq : Int) : Bool := decide (100 * max 1 (s.fld (R1 .LANE_DET n) F.LANE_DET_LOL_PPM) < freq.natAbs)

/-- LOL_ASSERT: the state of the CDR and the frequency offset measured, in 0.1 ppm: without lock or beyond the limit the lane reports LOL. -/
def execLolAssert (n : Fin 512) (locked : Bool) (freq : Int) (s : State) : Out :=
  if s.laneLos n ∨ 2 ≤ s.lanePark n then .next s
  else .next ((if !locked || s.offFreq n freq then s.lolSet n else s).laneFreq n freq)

/-- LOL_CLEAR: the CDR has held lock for 50 µs with the offset measured; LOL ends where that is within the limit. -/
def execLolClear (n : Fin 512) (freq : Int) (s : State) : Out :=
  if s.laneLol n ∧ !s.offFreq n freq ∧ s.flag (qstat (n.val / 4)) F.LANE_QSTAT_LOCK then .next ((s.endLol n).laneFreq n freq) else .next s

/-! ## Quad PLLs (R212, R215) -/

/-- QPLL_UNLOCK: the quad's lanes transmit electrical idle and report LOL. -/
def execQpllUnlock (q : Fin 128) (s : State) : Out :=
  if !s.flag (qstat q) F.LANE_QSTAT_LOCK then .next s
  else
    let s := (s.setF (qstat q) F.LANE_QSTAT_LOCK 0).addSat (qstat q) F.LANE_QSTAT_UNLOCKS 1
    let s := (quadLanes q).foldl (fun (s : State) n =>
      let s := (s.laneEvt n F.LANE_EVT_QPLL_UNLOCK).laneStat n F.LANE_STAT_TX_ON 0
      let s := (s.laneLost n).lolSet n
      if s.laneProto n ≠ 0 ∧ s.lanePark n ≤ 1 then
        ((s.laneStat n F.LANE_STAT_TRAINED 0).setLane n { s.lane n with retrain := true }).sluiceStop n
      else s) s
    .next s.updateStep

/-- QPLL_RELOCK: the PLL locks, after an unlock or at a start; lanes of the quad in L3 that nothing wakes move to L2 (R215). -/
def execQpllRelock (q : Fin 128) (s : State) : Out :=
  let used := (quadLanes q).any fun n => s.laneProto n != 0
  if s.flag (qstat q) F.LANE_QSTAT_LOCK ∨ !used ∨ s.bankLost.contains (laneBank (4 * q)) then .next s
  else
    let s := (s.setF (qstat q) F.LANE_QSTAT_LOCK 1).setF (qstat q) F.LANE_QSTAT_OFF 0
    .next ((quadLanes q).foldl (fun (s : State) n =>
      if s.laneProto n ≠ 0 ∧ s.lanePark n = 3 ∧ !s.flag (R1 .LANE_STAT n) F.LANE_STAT_WAKING then s.laneStat n F.LANE_STAT_PARK 2 else s) s)

/-! ## Equalisers (R203 to R205, R224, R225) -/

/-- LANE_TXEQ_WRITE. -/
def execLaneTxeqWrite (r : Req) (n : Fin 512) (v : W32) (s : State) : Out :=
  .next (s.access r .lanes (s.holdsLane r n) (R1 .LANE_TXEQ n).addr v fun s =>
    if s.laneProto n = 0 then s else s.writeTxeq n v)

/-- The values in use that a read of LANE_RXEQ[n] returns (R205): in MANUAL the stored ones with CTLE at most 40, held ones while adaptation is
stopped, else values that adapt. -/
def State.readRxeq (s : State) (n : Nat) : W32 × State :=
  let m := s.fld (R1 .LANE_CTL n) F.LANE_CTL_EQ_MODE
  if m = 2 then
    let w := s.rd (R1 .LANE_RXEQ n)
    (putF w F.LANE_RXEQ_CTLE (min 40 (getF w F.LANE_RXEQ_CTLE)), s)
  else if m = 1 ∨ s.lanePark n ≠ 0 then ((s.lane n).rxUse, s)
  else
    let d := s.fresh
    ((Config.rxAdapted d.1).setWidth 32, d.2)

/-- A write of LANE_CTL[n]: FROZEN holds the values in use at the write, NOPARK demands the lane, and receive inversion is followed by a loss of
block lock, and of an Ethernet port's link (R205, R216, R224). -/
def State.writeLaneCtl (s : State) (n : Nat) (v : W32) : State :=
  let k := R1 .LANE_CTL n
  let old := s.rd k
  let v := v &&& 0x3F#32
  let s :=
    if getF v F.LANE_CTL_EQ_MODE = 1 ∧ getF old F.LANE_CTL_EQ_MODE ≠ 1 then
      let p := s.readRxeq n
      p.2.setLane n { p.2.lane n with rxUse := p.1 }
    else if getF old F.LANE_CTL_EQ_MODE = 2 ∧ getF v F.LANE_CTL_EQ_MODE ≠ 2 then
      s.setLane n { s.lane n with rxUse := (s.readRxeq n).1 }
    else s
  let s := s.wr k v
  let s :=
    if getF v F.LANE_CTL_RX_INV = getF old F.LANE_CTL_RX_INV then s
    else if s.laneProto n = 1 then s.setF (R1 .NVL_STAT n) F.NVL_STAT_BLOCK_LOCK 0
    else if s.laneProto n = 3 then s.portDown (s.lanePort n) else s
  s.wakeIfDemanded n

/-! ## Test service (R218 to R221) -/

/-- The errors that the checker has counted since it last synchronised or was read, in a measurement that no command carries (R219). -/
def State.foldErrors (s : State) (n : Nat) : State :=
  if s.flag (R1 .LANE_TEST n) F.LANE_TEST_SYNC then
    let d := s.fresh
    d.2.addWrap (R1 .LANE_BER_ERR n) (Config.bitErrors d.1).toNat
  else s

/-- A write of LANE_TEST[n]: the lane goes out of service or comes back, retraining. -/
def State.writeLaneTest (s : State) (n : Nat) (v : W32) : State :=
  let k := R1 .LANE_TEST n
  let old := s.rd k
  let was := s.inTest n
  let s := if getF v F.LANE_TEST_RX_PAT = getF old F.LANE_TEST_RX_PAT then s else s.foldErrors n
  let s := s.wr k ((v &&& 0x3FF#32) ||| (old &&& F.LANE_TEST_SYNC.mask))
  let s := if getF v F.LANE_TEST_RX_PAT = getF old F.LANE_TEST_RX_PAT then s else s.setF k F.LANE_TEST_SYNC 0
  let bad (f : Fld) : Bool := decide (6 ≤ getF v f) && decide (getF v f ≤ 8) && !s.pam4 n
  let s := s.raiseIf (bad F.LANE_TEST_TX_PAT || bad F.LANE_TEST_RX_PAT) (R1 .LANE_EVT n) F.LANE_EVT_TEST_BAD
  let s := if s.txPattern n = s.patternOf n (getF old F.LANE_TEST_TX_PAT) then s else s.setLane n { s.lane n with patPos := 0, inject := 0 }
  let s := if bitOf v F.LANE_TEST_INJECT.lo && s.txPattern n != 0 then s.setLane n { s.lane n with inject := (s.lane n).inject + 1 } else s
  let s := if s.lanePark n = 0 ∧ s.flag (qstat (n / 4)) F.LANE_QSTAT_LOCK ∧ (s.inTest n ∨ !(s.lane n).retrain) then s.txOn n else s
  if s.inTest n then (((s.laneLost n).sluiceStop n).wakeIfDemanded n).updateStep
  else if was then
    let s := if s.laneProto n = 1 ∨ s.laneProto n = 3 then
        ((s.laneStat n F.LANE_STAT_TX_ON 0).setLane n { s.lane n with retrain := true }).nvlRetrain n
      else s
    s.updateStep
  else s

/-- LANE_TEST_WRITE. -/
def execLaneTestWrite (r : Req) (n : Fin 512) (v : W32) (s : State) : Out :=
  .next (s.access r .lanes (s.holdsLane r n) (R1 .LANE_TEST n).addr v fun s =>
    if s.laneProto n = 0 then s else s.writeLaneTest n v)

/-- INJECT: INJECT is written with the other fields as they stand. -/
def execInject (r : Req) (n : Fin 512) (s : State) : Out :=
  .next (s.access r .lanes (s.holdsLane r n) (R1 .LANE_TEST n).addr (s.rd (R1 .LANE_TEST n) ||| F.LANE_TEST_INJECT.mask) fun s =>
    if s.laneProto n = 0 then s else s.writeLaneTest n (s.rd (R1 .LANE_TEST n) ||| F.LANE_TEST_INJECT.mask))

/-- CHECKER_SYNC: 64 error-free bits. -/
def execCheckerSync (n : Fin 512) (s : State) : Out :=
  let x := s.lane n
  if s.rxPattern n = 0 ∨ s.flag (R1 .LANE_TEST n) F.LANE_TEST_SYNC then .next s
  else .next ((s.setF (R1 .LANE_TEST n) F.LANE_TEST_SYNC 1).setLane n { x with berAt := some (x.berAt.getD s.tick) })

/-- CHECKER_SYNC_LOSS: more than 1 bit in 8 in error over 1 µs; `errors` counts the bits in error until then. -/
def execCheckerSyncLoss (n : Fin 512) (errors : Nat) (s : State) : Out :=
  if s.flag (R1 .LANE_TEST n) F.LANE_TEST_SYNC then
    .next ((s.addWrap (R1 .LANE_BER_ERR n) errors).setF (R1 .LANE_TEST n) F.LANE_TEST_SYNC 0)
  else .next s

/-- A read of LANE_BER_ERR[n]: the count is returned and cleared, and the time it covers latched. DESIGN CHOICE: that time runs from the first
synchronisation on through every loss of it and every change of pattern, as the count does; the spec does not say (log entry 127). -/
def State.readBer (s : State) (n : Nat) : W32 × State :=
  let x := s.lane n
  let us := match x.berAt with
    | some t => (s.tick - t) / usTicks
    | none => 0
  let v := s.rd (R1 .LANE_BER_ERR n)
  let s := (s.wr (R1 .LANE_BER_ERR n) 0).wr (R1 .LANE_BER_TIME n) (w32 (satU 32 us))
  (v, s.setLane n { x with berAt := x.berAt.map fun _ => s.tick })

/-- BER_READ; `errors` are the bits in error since the checker last synchronised or the count was last read. -/
def execBerRead (r : Req) (n : Fin 512) (errors : Nat) (be : Fin 16) (s : State) : Out :=
  .next (s.readAccess r be .lanes true (R1 .LANE_BER_ERR n).addr fun s =>
    if s.laneProto n = 0 then (0, s) else (if s.flag (R1 .LANE_TEST n) F.LANE_TEST_SYNC then s.addWrap (R1 .LANE_BER_ERR n) errors else s).readBer n)

/-! ## Elastic buffer and eye (R207, R208, R229) -/

/-- SLIP: the elastic buffer inserts or deletes a filler block or idle; in embedded clocking this is a slip. -/
def execSlip (n : Fin 512) (inserted : Bool) (s : State) : Out :=
  if s.laneProto n = 0 ∨ s.laneProto n = 2 ∨ 2 ≤ s.lanePark n then .next s
  else
    let s := s.addSat (R1 .LANE_FILL n) (if inserted then F.LANE_FILL_INS else F.LANE_FILL_DEL) 1
    .next (s.raiseIf (s.flag (R1 .LANE_CFG n) F.LANE_CFG_CLOCKING) (R1 .LANE_EVT n) F.LANE_EVT_SLIP)

/-- EYE_MEASURE: the measurement of each millisecond in L0; `freq` is the receive frequency then measured, while the lane reports it. -/
def execEyeMeasure (n : Fin 512) (height width : Fin 1024) (snr : Byte) (freq : Int) (s : State) : Out :=
  if s.laneProto n = 0 ∨ s.lanePark n ≠ 0 then .next s
  else
    let s := s.wr (R1 .LANE_EYE n) (w32 (height + 2 ^ 10 * width + 2 ^ 20 * snr.toNat))
    .next (if s.laneLos n then s else (if s.offFreq n freq then s.lolSet n else s).laneFreq n freq)

end Sys2Proof.Machine
end

