-- ==== Sys2Proof/Machine/Sdi.lean ====
section
/-!
DEFINITION. Native SDI lanes (chapter 8): rate and raster lock, the format of a frame, line and packet checks, and the slot words that a line gives.
-/
namespace Sys2Proof.Machine

/-- The frame rate is one of the /1.001 rates (R48). -/
def overRate (rate : Nat) : Bool := rate = 1 || rate = 4 || rate = 6 || rate = 9 || rate = 12

/-- The interface of R261 that carries a format, 1 to 5 for 1.5G, 3G, 6G, 12G and 24G; 0 where none does. -/
def sdiInterface (f : Fmt) : Nat :=
  let r := f.rate
  let slow : Bool := decide (1 ≤ r) && decide (r ≤ 5)
  let mid : Bool := decide (6 ≤ r) && decide (r ≤ 10)
  let fast : Bool := decide (11 ≤ r) && decide (r ≤ 13)
  let yc10 : Bool := f.sampling = 0 && f.depth = 10
  let full : Bool := (f.sampling = 1 || f.sampling = 2) && (f.depth = 10 || f.depth = 12)
  let prog : Bool := !f.il && !f.seg
  if f.il && f.seg then 0
  else if f.raster = 3 then if yc10 && prog && 8 ≤ r && r ≤ 10 then 1 else 0
  else if f.raster = 4 ∨ f.raster = 5 then
    if yc10 && slow && (!f.il || 3 ≤ r) then 1
    else if f.raster = 4 && prog && ((yc10 && 8 ≤ r && r ≤ 10) || (full && slow)) then 2 else 0
  else if f.raster = 6 ∨ f.raster = 7 then
    if !prog then 0
    else if yc10 && slow then 3
    else if (yc10 && mid) || (full && slow) then 4
    else if (full && mid) || (yc10 && fast) then 5 else 0
  else 0

/-- The raster of a structure, whose width is ambiguous between 1920 and 2048, and between 3840 and 4096 (R267). -/
def narrow (raster : Nat) : Nat := if raster = 5 then 4 else if raster = 7 then 6 else raster

/-- SDI_STAT[n].RATE: 0 while the lane reports LOS or LOL (R265). -/
def State.sdiRate (s : State) (n : Nat) : Nat :=
  if s.laneLos n || s.laneLol n then 0 else s.fld (R1 .SDI_STAT n) F.SDI_STAT_RATE

/-- A format of R261 has the interface and family of the signal on the lane; a lane pair carries 24G on two 12G links. -/
def State.sdiCarries (s : State) (n : Nat) (f : Fmt) : Bool :=
  let rate := s.sdiRate n
  let cls := (rate - 1) % 5 + 1
  let i := sdiInterface f
  rate != 0 && i != 0 && (i = cls || (s.flag (R1 .LANE_CFG n) F.LANE_CFG_PAIR && i = 5 && cls = 4)) && overRate f.rate = decide (6 ≤ rate)

/-- The code of a structure's raster and rate with a sampling and depth. -/
def structCode (f : Fmt) (samp depth : Nat) : Nat := narrow f.raster * 512 + f.rate * 16 + samp * 4 + depth

/-- The format derived from a structure (R267): sampling and depth from SDI_CFG; code 0 when no format of R261 has the structure. -/
def State.derivedFmt (s : State) (n : Nat) (f : Fmt) : Fmt :=
  let some_ := [0, 1, 2].any fun samp => [1, 2].any fun d => s.sdiCarries n { f with code := structCode f samp d }
  if some_ then
    let samp := s.fld (R1 .SDI_CFG n) F.SDI_CFG_ASSUME_SAMP
    let d := s.fld (R1 .SDI_CFG n) F.SDI_CFG_ASSUME_DEPTH
    { f with code := structCode f (if samp = 3 then 0 else samp) (if d = 2 then 2 else 1) }
  else {}

/-- The lanes of the stream that lane `n` carries. -/
def State.sdiLanes (s : State) (n : Nat) : List Nat :=
  if s.flag (R1 .LANE_CFG n) F.LANE_CFG_PAIR then [n / 2 * 2, n / 2 * 2 + 1] else [n]

/-- The converter of a stream stops, and resumes only after a complete frame (R270, R272). -/
def State.sdiStop (s : State) (n : Nat) : State :=
  (s.sdiLanes n).foldl (fun (s : State) m => { s with sdi := s.sdi.upd m fun x => { tag := x.tag } }) s

/-- SDI_RASTER_LOCK. -/
def execSdiRasterLock (n : Fin 512) (s : State) : Out :=
  let k := R1 .SDI_STAT n.val
  if s.laneProto n ≠ 2 ∨ !s.laneReceives n ∨ s.flag k F.SDI_STAT_RASTER_LOCK then .next s
  else .next (((s.setF k F.SDI_STAT_RASTER_LOCK 1).raise (R1 .SDI_EVT n) F.SDI_EVT_LOCK).sdiStop n)

/-- SDI_RASTER_UNLOCK. -/
def execSdiRasterUnlock (n : Fin 512) (s : State) : Out :=
  let k := R1 .SDI_STAT n.val
  if !s.flag k F.SDI_STAT_RASTER_LOCK then .next s
  else .next (((s.setF k F.SDI_STAT_RASTER_LOCK 0).raise (R1 .SDI_EVT n) F.SDI_EVT_UNLOCK).sdiStop n)

/-- SDI_FRAME: a frame begins whose structure is measured (`structure_`: raster, rate and flags), with a valid payload identifier and the format
it describes, or none, and with the time codes it carries (R267, R269, R272). -/
def execSdiFrame (n : Fin 512) (structure_ : Fmt) (levelB : Bool) (vpid : Option (W32 × Fmt)) (ltc vitc : Option (BitVec 27)) (s : State) : Out :=
  let k := R1 .SDI_STAT n.val
  let ke := R1 .SDI_EVT n.val
  if s.laneProto n ≠ 2 ∨ !s.flag k F.SDI_STAT_RASTER_LOCK then .next s
  else
    let derived := s.derivedFmt n structure_
    let agrees (f : Fmt) : Bool :=
      narrow f.raster = narrow structure_.raster && f.rate = structure_.rate && f.il = structure_.il && f.seg = structure_.seg && s.sdiCarries n f
    let ok : Bool := vpid.any fun v => agrees v.2
    let f : Fmt := match vpid with
      | some v => if agrees v.2 then v.2 else derived
      | none => derived
    let s := match vpid with
      | some v =>
        let s := s.wr (R1 .SDI_VPID n) v.1
        if ok then s else s.raise ke F.SDI_EVT_VPID_CONFLICT
      | none => s.raise ke F.SDI_EVT_VPID_MISSING
    let s := (s.setF k F.SDI_STAT_VPID_OK (b2n ok)).setF k F.SDI_STAT_LEVEL_B (b2n levelB)
    let s := ((s.setF k F.SDI_STAT_FORMAT f.code).setF k F.SDI_STAT_INTERLACED (b2n f.il)).setF k F.SDI_STAT_SEGMENTED (b2n f.seg)
    let sel := s.fld (R1 .SDI_CFG n) F.SDI_CFG_TC_SEL
    let s := match if sel = 0 then ltc else vitc with
      | some c => s.wr (R1 .SDI_TC n) (w32 (sel + 1 + 4 + 8 * c.toNat))
      | none => s.setF (R1 .SDI_TC n) F.SDI_TC_VALID 0
    let x := s.sdi.at n
    let s := s.raiseIf (x.prev.any fun p => decide (p ≠ f)) ke F.SDI_EVT_FMT
    .next { s with sdi := s.sdi.set n { x with prev := some f, conv := decide (x.prev = some f ∧ f.code ≠ 0), anc := [], spoil := false } }

/-! ## Slot words (R40 to R45, R268 to R270) -/

/-- The lane of a stream's first link (R270). -/
def State.sdiFirst (s : State) (n : Nat) : Nat := if s.flag (R1 .LANE_CFG n) F.LANE_CFG_PAIR then n / 2 * 2 else n

/-- Every link of the stream has raster lock. -/
def State.sdiLocked (s : State) (n : Nat) : Bool := (s.sdiLanes n).all fun m => s.flag (R1 .SDI_STAT m) F.SDI_STAT_RASTER_LOCK

/-- A packet before another in a line (R269): by the position of its flag, the Y′ stream before the C′b/C′r stream at equal positions. -/
def ancBefore (a b : Bool × Nat × Bool × List Nat) : Bool := decide (2 * a.2.1 + b2n a.2.2.1 ≤ 2 * b.2.1 + b2n b.2.2.1)

/-- The ancillary words of a line that its converter has extracted: its AUDIO_BLOCK markers, then the vertical and the horizontal run (R42, R44, R269). Which
packets begin a 1 ms audio block of the source is open. -/
def SdiSt.ancWords (x : SdiSt) (n line : Nat) : List W32 :=
  let ps := x.anc.mergeSort ancBefore
  let of (h : Bool) : List (List Nat) := (ps.filter fun p => p.1 = h).map fun p => ancFlagged p.2.2.2
  (Config.audioBlocks n x.tag line (ps.map (·.2.2.2))).map (fun b => markWord 4 line b.toNat) ++ ancRun false line (of false) ++ ancRun true line (of true)

/-- The slot words of line `count` of the frame, numbered `line` as the stream numbers it (R45, R268). -/
def SdiSt.lineWords (x : SdiSt) (n : Nat) (f : Fmt) (line count : Nat) (samples : List (BitVec 16)) : List W32 :=
  numberedLine f x.tag count line (x.ancWords n line)
    ((activeIndex f count).map fun _ => packBits f.lineWords ((samples.take f.lineSamples).flatMap fun v => bitsMsb f.depth v.toNat))

/-- Words that arrive over a duration that ends now, bad where the line's CRC failed (R24, R60, R124). DESIGN CHOICE: they arrive evenly (log entry
128). -/
def State.arriving (s : State) (ago : Nat) (bad : Bool) (ws : List W32) : List RxWord :=
  ws.zipIdx.map fun p => { w := p.1, bad := bad, time := s.cadTime - (ago : Int) + (ago * p.2 / max 1 ws.length : Nat) }

/-- SDI_LINE: a line with the line number `line` where raster lock counts `count` (R268): `samples` are its active samples in the order of R41, and
the last word of the EAV that opened it reached the ball `ago` 2^-16 ns before its end. The converter gives its words to the slots that the
lane feeds; the second link of a pair supplies only its CRC. -/
def execSdiLine (n : Fin 512) (line count : Nat) (crcOk : Bool) (samples : List (BitVec 16)) (ago : Nat) (s : State) : Out :=
  if s.laneProto n ≠ 2 ∨ !s.flag (R1 .SDI_STAT n) F.SDI_STAT_RASTER_LOCK then .next s
  else
    let s := s.raiseIf (line != count) (R1 .SDI_EVT n) F.SDI_EVT_LN_ERR
    let s := if crcOk then s else (s.addWrap (R1 .SDI_CRC_ERR n) 1).raise (R1 .SDI_EVT n) F.SDI_EVT_CRC_ERR
    let l := s.sdiFirst n
    if l ≠ n.val then .next { s with sdi := s.sdi.upd l fun x => { x with spoil := x.spoil || !crcOk } }
    else
      let x := s.sdi.at n
      let x := if count = 1 ∧ x.conv then { x with tag := (x.tag + 1) % 256 } else x
      let bad := !crcOk || x.spoil
      let out := { s with sdi := s.sdi.set n { x with anc := [], spoil := false } }
      match x.prev with
      | some f =>
        .next (if x.conv && s.sdiLocked n && s.laneReceives n then
            out.pushPos (laneBank n) (.sdi n) (s.arriving ago bad (x.lineWords n f line count samples)) else out)
      | none => .next out

/-- SDI_ANC_PACKET: a packet of the line in progress, from its DID to its checksum (R269): one whose checksum fails is dropped and counted, one of ST 352
is not passed on, another waits for its line's end. -/
def execSdiAncPacket (n : Fin 512) (horiz chroma : Bool) (pos : Nat) (words : List (BitVec 10)) (s : State) : Out :=
  let p := words.map (·.toNat)
  if s.laneProto n ≠ 2 ∨ !s.flag (R1 .SDI_STAT n) F.SDI_STAT_RASTER_LOCK then .next s
  else if !ancSumOk p then .next ((s.addSat (R1 .SDI_ANC_ERR n) F.SDI_ANC_ERR_RX_CSUM 1).raise (R1 .SDI_EVT n) F.SDI_EVT_ANC_CSUM)
  else if Config.isPayloadId p then .next s
  else .next { s with sdi := s.sdi.upd (s.sdiFirst n) fun x => { x with anc := x.anc ++ [(horiz, pos, chroma, p)] } }

/-- The planned interface of an SDI lane, 1 to 5 (R199). -/
def State.sdiPlanned (s : State) (n : Nat) : Nat := if 5 ≤ s.laneRate n ∧ s.laneRate n ≤ 14 then s.laneRate n % 5 + 1 else 0

/-- SDI_RATE_DETECT: the CDR locks to an accepted rate, coded as SDI_STAT.RATE (R263, R265). -/
def execSdiRateDetect (n : Fin 512) (rate : Fin 11) (s : State) : Out :=
  let k := R1 .SDI_STAT n.val
  if s.laneProto n ≠ 2 ∨ s.sdiPlanned n < (rate.val + 4) % 5 + 1 ∧ rate ≠ 0 ∨ s.fld k F.SDI_STAT_RATE = rate then .next s
  else .next ((s.setF k F.SDI_STAT_RATE rate).raise (R1 .SDI_EVT n) F.SDI_EVT_RATE)

/-- LINK_SKEW: the links of a dual-link pair are more than 1 µs apart (R270). -/
def execLinkSkew (n : Fin 512) (s : State) : Out :=
  if s.laneProto n = 2 ∧ s.flag (R1 .LANE_CFG n) F.LANE_CFG_PAIR then .next ((s.raise (R1 .SDI_EVT n) F.SDI_EVT_LINK_SKEW).sdiStop n) else .next s

end Sys2Proof.Machine
end

