-- ==== Sys2Proof/Machine/EthFrames.lean ====
section
/-!
DEFINITION. Ethernet frames as bytes (R284 to R286, R303): fields, IPv4 and UDP checksums, the FCS, PTP messages.  A frame begins at its
destination address.
-/
namespace Sys2Proof.Machine

/-- Byte `o` of a frame. -/
def byteAt (bs : List Byte) (o : Nat) : Nat := (bs.getD o 0).toNat

/-- Two bytes, most significant first. -/
def be16 (bs : List Byte) (o : Nat) : Nat := byteAt bs o * 256 + byteAt bs (o + 1)

/-- Four bytes, most significant first. -/
def be32 (bs : List Byte) (o : Nat) : Nat := be16 bs o * 65536 + be16 bs (o + 2)

/-- `n` bytes of a number, most significant first. -/
def beBytes (n v : Nat) : List Byte := (List.range n).map fun i => BitVec.ofNat 8 (v / 256 ^ (n - 1 - i))

/-- The frame with bytes replaced from `o` on. -/
def patch (bs : List Byte) (o : Nat) (new : List Byte) : List Byte := bs.take o ++ new ++ bs.drop (o + new.length)

/-- The sum of 16-bit words in ones' complement. -/
def onesSum (bs : List Byte) : Nat :=
  let n := (List.range ((bs.length + 1) / 2)).foldl (fun n i => n + be16 bs (2 * i)) 0
  let n := n % 65536 + n / 65536
  n % 65536 + n / 65536

/-- An 802.1Q tag stands after the addresses. -/
def hasTag (bs : List Byte) : Bool := be16 bs 12 = 0x8100

/-- The offset of the EtherType. -/
def typeOff (bs : List Byte) : Nat := if hasTag bs then 16 else 12

/-- The EtherType. -/
def etherType (bs : List Byte) : Nat := be16 bs (typeOff bs)

/-- The offset of what follows the EtherType. -/
def l3Off (bs : List Byte) : Nat := typeOff bs + 2

/-- The frame is IPv4. -/
def isIpv4 (bs : List Byte) : Bool := etherType bs = 0x0800 && byteAt bs (l3Off bs) / 16 = 4

/-- Bytes of the IPv4 header, options included. -/
def ipHeader (bs : List Byte) : Nat := byteAt bs (l3Off bs) % 16 * 4

/-- The IPv4 header checksum is correct. -/
def ipOk (bs : List Byte) : Bool := onesSum ((bs.drop (l3Off bs)).take (ipHeader bs)) = 65535

/-- The frame carries an IPv4 UDP datagram that is not a fragment (R285). -/
def isUdp (bs : List Byte) : Bool :=
  let o := l3Off bs
  isIpv4 bs && byteAt bs (o + 9) = 17 && be16 bs (o + 6) % 0x4000 = 0

/-- The offset of the UDP header. -/
def udpOff (bs : List Byte) : Nat := l3Off bs + ipHeader bs

/-- The source and destination IPv4 addresses. -/
def ipSrc (bs : List Byte) : Nat := be32 bs (l3Off bs + 12)

/-- The destination IPv4 address. -/
def ipDst (bs : List Byte) : Nat := be32 bs (l3Off bs + 16)

/-- The destination UDP port. -/
def udpDst (bs : List Byte) : Nat := be16 bs (udpOff bs + 2)

/-- The source UDP port. -/
def udpSrc (bs : List Byte) : Nat := be16 bs (udpOff bs)

/-- The UDP datagram's length. -/
def udpLen (bs : List Byte) : Nat := be16 bs (udpOff bs + 4)

/-- The ones' complement sum of the UDP pseudo-header and datagram. -/
def udpSum (bs : List Byte) : Nat :=
  onesSum ((bs.drop (l3Off bs + 12)).take 8 ++ [0, 17] ++ beBytes 2 (udpLen bs) ++ (bs.drop (udpOff bs)).take (udpLen bs))

/-- The UDP checksum is 0 or correct (R286). -/
def udpOk (bs : List Byte) : Bool := be16 bs (udpOff bs + 6) = 0 || udpSum bs = 65535

/-- The UDP payload. -/
def udpPayload (bs : List Byte) : List Byte := ((bs.drop (udpOff bs)).take (udpLen bs)).drop 8

/-- The IPv4 header checksum is written. -/
def putIpSum (bs : List Byte) : List Byte :=
  let z := patch bs (l3Off bs + 10) [0, 0]
  patch z (l3Off bs + 10) (beBytes 2 (65535 - onesSum ((z.drop (l3Off bs)).take (ipHeader bs))))

/-- The UDP checksum is written; 0 is sent as all ones. -/
def putUdpSum (bs : List Byte) : List Byte :=
  let z := patch bs (udpOff bs + 6) [0, 0]
  let c := 65535 - udpSum z
  patch z (udpOff bs + 6) (beBytes 2 (if c = 0 then 65535 else c))

/-- The FCS at the end of a received frame is good: CRC-32, least significant byte first. -/
def fcsOk (bs : List Byte) : Bool :=
  let n := bs.length - 4
  crc32 ((bs.take n).map (·.toNat)) = byteAt bs n + byteAt bs (n + 1) * 0x100 + byteAt bs (n + 2) * 0x10000 + byteAt bs (n + 3) * 0x1000000

/-- The destination address. -/
def macDst (bs : List Byte) : List Byte := bs.take 6

/-- The broadcast address. -/
def isBcast (bs : List Byte) : Bool := macDst bs = List.replicate 6 255

/-- A multicast address. -/
def isMcast (bs : List Byte) : Bool := byteAt bs 0 % 2 = 1 && !isBcast bs

/-- The words of a frame, four bytes each, first byte in [7:0], the last padded with 0 (R287). -/
def frameWords (bs : List Byte) : List W32 :=
  (List.range ((bs.length + 3) / 4)).map fun i =>
    w32 (byteAt bs (4 * i) + byteAt bs (4 * i + 1) * 0x100 + byteAt bs (4 * i + 2) * 0x10000 + byteAt bs (4 * i + 3) * 0x1000000)

/-- `n` bytes of words packed in the same way. -/
def wordsFrame (n : Nat) (ws : List W32) : List Byte :=
  (ws.flatMap fun w => [w.extractLsb' 0 8, w.extractLsb' 8 8, w.extractLsb' 16 8, w.extractLsb' 24 8]).take n

/-! ## PTP (R393 to R395, R402) -/

/-- The offset of a PTP message in the frame: EtherType 0x88F7, or IPv4 UDP to port 319 or 320. -/
def ptpOff (bs : List Byte) : Option Nat :=
  if etherType bs = 0x88F7 then some (l3Off bs)
  else if isUdp bs && (udpDst bs = 319 || udpDst bs = 320) then some (udpOff bs + 8) else none

/-- The messageType of the PTP message at `o`: 0 Sync, 1 Delay_Req. -/
def ptpType (bs : List Byte) (o : Nat) : Nat := byteAt bs o % 16

/-- The UDP checksum is recomputed where the frame is IPv4 UDP with a checksum that is not 0 (R394). -/
def fixUdpSum (bs : List Byte) : List Byte := if isUdp bs && be16 bs (udpOff bs + 6) != 0 then putUdpSum bs else bs

/-- The correctionField of the message at `o` with `d` added (R394). -/
def addCorrection (bs : List Byte) (o : Nat) (d : Int) : List Byte :=
  let c : Nat := be32 bs (o + 8) * 2 ^ 32 + be32 bs (o + 12)
  fixUdpSum (patch bs (o + 8) (beBytes 8 (twos 64 ((c : Int) + d))))

end Sys2Proof.Machine
end

