-- ==== Sys2Proof/Machine/Flows.lean ====
section
/-!
DEFINITION. The flow tables (R285, R289 to R302, R317 to R320): classification, reordering, conversion and skew of receive flows, the building of
packets of transmit flows, their sizes, launch times and booked rates, and writes of the tables.
-/
namespace Sys2Proof.Machine

/-! ## Receive flows -/

/-- The key and source filter of a flow's copy in a bank: destination address, destination UDP port, source address (0 for any). -/
def State.rxKey (s : State) (b : Bank) (r : Nat) : Nat × Nat × Nat :=
  let u := (s.rd (R1 .ETH_RXF_UDP r)).toNat
  match b with
  | .E => ((s.rd (R1 .ETH_RXF_DST_E r)).toNat, u % 65536, (s.rd (R1 .ETH_RXF_SRC_E r)).toNat)
  | .W => ((s.rd (R1 .ETH_RXF_DST_W r)).toNat, u / 65536, (s.rd (R1 .ETH_RXF_SRC_W r)).toNat)

/-- The transmit flows that the tables configure. -/
def State.txListed (s : State) : List Nat := s.regs.filterMap fun e => if e.1.name = .ETH_TXF_CFG then some e.1.i else none

/-- The flow that a UDP datagram on port `i` belongs to (R285): a flow with a source filter matches in preference to one without. -/
def State.classify (s : State) (i : Nat) (dst src udp : Nat) : Option Nat :=
  let b := portBank i
  let match_ (r : Nat) (filtered : Bool) : Bool :=
    let k := s.rxKey b r
    s.rxfEn b r && decide (s.rxfType r ≠ 0) && s.rxfPort b r = i && k.1 = dst && k.2.1 = udp &&
      (if filtered then k.2.2 != 0 && k.2.2 = src else k.2.2 = 0)
  if udp = 319 ∨ udp = 320 then none
  else
    match s.rxListed.find? fun r => match_ r true with
    | some r => some r
    | none => s.rxListed.find? fun r => match_ r false

/-- A count extended to 64 bits: the value congruent to `v` modulo 2^32 that lies within 2^31 of `near` (R290). -/
def extend32 (v near : Nat) : Nat := ((near : Int) + wrapHalf ((v : Int) - near) (2 ^ 32)).toNat

/-- The middle of a list of differences: the mean of the two middle ones where their number is even. -/
def median (xs : List Int) : Option Int :=
  let ys := xs.mergeSort fun a b => decide (a ≤ b)
  let n := ys.length
  if n = 0 then none else if n % 2 = 1 then some (ys.getD (n / 2) 0) else some ((ys.getD (n / 2 - 1) 0 + ys.getD (n / 2) 0) / 2)

/-- SKEW_MAX of a flow in ticks (R318). -/
def State.skewMax (s : State) (r : Nat) : Nat := min 100 (s.fld (R1 .ETH_RXF_CFG r) F.ETH_RXF_CFG_SKEW_MAX) * 10 * usTicks

/-- At an SOF the skew D becomes the median over the packets of the previous frame that arrived on both copies (R294). -/
def State.measureSkew (s : State) (r : Nat) : State :=
  let x := s.rxFlows.at r
  let ds := x.seen.filterMap fun p => if x.rtp = some p.rtp then p.e.bind fun e => p.w.map fun w => (w : Int) - (e : Int) else none
  match median ds with
  | none => s
  | some d =>
    let s := s.wr (R1 .ETH_RXF_SKEW r) (BitVec.ofInt 32 (4 * d))
    s.raiseIf (decide (s.skewMax r < d.natAbs)) (R1 .ETH_RXF_EVT r) F.ETH_RXF_EVT_SKEW_OVER

/-- A packet's arrival is noted for the skew, after the SOF that its RTP timestamp may begin. -/
def State.noteArrival (s : State) (r : Nat) (b : Bank) (rtp seq : Nat) (ok : Bool) : State :=
  let x := s.rxFlows.at r
  let newer : Bool := match x.rtp with
    | some t => decide (rtp ≠ t ∧ (rtp + 2 ^ 32 - t) % 2 ^ 32 < 2 ^ 31)
    | none => true
  let s := if newer then s.measureSkew r else s
  let keep := if newer then x.seen.filter fun p => x.rtp = some p.rtp else x.seen
  let put (p : PktSeen) : PktSeen := match b with
    | .E => { p with e := some s.tick, good := p.good || ok }
    | .W => { p with w := some s.tick }
  let seen := if keep.any fun p => p.rtp = rtp ∧ p.seq = seq then keep.map fun p => if p.rtp = rtp ∧ p.seq = seq then put p else p
    else keep ++ [put { rtp := rtp, seq := seq, e := none, w := none }]
  { s with rxFlows := s.rxFlows.set r { x with rtp := if newer then some rtp else x.rtp, seen := seen } }

/-- A 24-bit sample of an ST 2110-30 payload, or an AES3 subframe of -31 (R325). -/
def flowSample (type depth : Nat) (bs : List Byte) (o : Nat) : W32 :=
  if type = 4 then
    let w := be32 bs o
    let bit (i : Nat) : Nat := w / 2 ^ i % 2
    w32 (w % 2 ^ 24 * 256 + bit 27 * 8 + bit 26 * 4 + bit 25 * 2 + bit 24)
  else if depth = 16 then mkSample (sext 16 (be16 bs o) * 256) 0
  else mkSample (sext 24 (be16 bs o * 256 + byteAt bs (o + 2))) 0

/-- The samples of an audio packet go to the flow's source channels, those of its chosen copy (R294, R325): Bank E's, else Bank W's. -/
def State.audioPacket (s : State) (r : Nat) (rtp : Nat) (payload : List Byte) : State :=
  let x := s.rxFlows.at r
  let type := s.rxfType r
  let size := if type = 4 then 4 else if x.depth = 16 then 2 else 3
  let near := (s.tbs.at (s.fld (R1 .ETH_RXF_CFG r) F.ETH_RXF_CFG_TB)).t / 2 ^ 48 * s.audRate / 1000000000
  let first := extend32 rtp near
  if x.chans = 0 then s
  else
    (List.range (payload.length / (size * x.chans))).foldl (fun (s : State) k =>
      (List.range x.chans).foldl (fun (s : State) c =>
        match s.audSrc.find? fun p => p.2.kind = 2 ∧ p.2.origin = r ∧ p.2.index = c with
        | some p => s.audArrive p.1 (first + k) (flowSample type x.depth payload (size * (k * x.chans + c)))
        | none => s) s) s

/-! ### Packets of media flows (R289 to R292) -/

/-- The bytes before the RTP payload: the fixed header, the contributing sources and an extension. -/
def rtpHead (bs : List Byte) : Nat :=
  let o := 12 + 4 * (byteAt bs 0 % 16)
  if byteAt bs 0 / 16 % 2 = 1 then o + 4 + 4 * be16 bs (o + 2) else o

/-- The sample row data headers of a -20 payload from byte `o`, at most `k`: their lengths with row data that has no bytes yet, and where the samples begin. -/
def srdHeads : Nat → List Byte → Nat → List (Nat × RowData) × Nat
  | 0, _, o => ([], o)
  | k + 1, bs, o =>
    let h : Nat × RowData := (be16 bs o, { field := decide (32768 ≤ be16 bs (o + 2)), row := be16 bs (o + 2) % 32768, offset := be16 bs (o + 4) % 32768, bytes := [] })
    if be16 bs (o + 4) < 32768 then ([h], o + 6)
    else
      let r := srdHeads k bs (o + 6)
      (h :: r.1, r.2)

/-- The row data of a -20 packet, up to three headers (R288, R289). -/
def rowData (bs : List Byte) : List RowData :=
  let h := srdHeads 3 bs (rtpHead bs + 2)
  (h.1.foldl (fun (a : List RowData × Nat) p => (a.1 ++ [{ p.2 with bytes := (bs.drop a.2).take p.1 }], a.2 + p.1)) ([], h.2)).1

/-- A number from bits, most significant first. -/
def bitsNat (bits : List Bool) : Nat := bits.foldl (fun n b => 2 * n + b2n b) 0

/-- The bits of bytes, most significant first. -/
def byteBits (bs : List Byte) : List Bool := bs.flatMap fun b => bitsMsb 8 b.toNat

/-- The ancillary data packets of the bits of a -40 payload (R292): each 32 bits with its line number, then ten-bit words, to a whole 32-bit word. -/
def ancData : Nat → List Bool → List AncData
  | 0, _ => []
  | k + 1, bits =>
    if bits.length < 72 then []
    else
      let n := 4 + bitsNat ((bits.drop 52).take 10) % 256
      let ten (i : Nat) : Nat := bitsNat ((bits.drop (32 + 10 * i)).take 10)
      { line := bitsNat ((bits.drop 1).take 11), words := (List.range n).map ten } :: ancData k (bits.drop (32 + (10 * n + 31) / 32 * 32))

/-- A packet of a -20 or -40 flow, as its copy's converter holds it. The layout is that of RTP, ST 2110-20 and RFC 8331 (PRESUMED, log entry 129). -/
def flowPkt (type seq : Nat) (time : Int) (bad : Bool) (bs : List Byte) : FlowPkt :=
  { seq := seq, rtp := be32 bs 4, marker := decide (128 ≤ byteAt bs 1), time := time, bad := bad
    rows := if type = 1 then rowData bs else []
    anc := if type = 2 then ancData (byteAt bs (rtpHead bs + 4)) (byteBits (bs.drop (rtpHead bs + 8))) else [] }

/-- RTP timestamp `a` is later than `b`. -/
def rtpLater (a b : Nat) : Bool := decide (a ≠ b) && decide ((a + 2 ^ 32 - b) % 2 ^ 32 < 2 ^ 31)

/-- M of a packet, its RTP timestamp on the 90 kHz count that time base `n` gives now (R290). -/
def State.mediaCount (s : State) (n rtp : Nat) : Nat := extend32 rtp ((s.tbs.at n).t / 2 ^ 48 * 90000 / 1000000000)

/-- round(M × f / 90 000), low eight bits (R290). -/
def mediaTag (f : Fmt) (m : Nat) : Nat :=
  let r := rateFrac f.rate
  (2 * m * r.1 + 90000 * r.2) / (2 * 90000 * r.2) % 256

/-- The converter of copy `b` of flow `r`. -/
def State.flowConv (s : State) (r : Nat) (b : Bank) : FlowConv := (s.rxFlows.at r).conv b

/-- The state with that converter replaced. -/
def State.setFlowConv (s : State) (r : Nat) (b : Bank) (c : FlowConv) : State :=
  { s with rxFlows := s.rxFlows.upd r fun x => x.setConv b c }

/-- VIDEO word `j` of an active line from the samples placed in it: it needs all of its bits, else it is a substitute (R54, R289, R291). -/
def segWord (f : Fmt) (segs : List RowSeg) (j : Nat) : RxWord :=
  let n := min 30 (f.lineSamples * f.depth - 30 * j)
  let bit (b : Nat) : Option Bool := (segs.find? fun g => decide (g.off ≤ b ∧ b < g.off + g.bits.length)).map fun g => g.bits.getD (b - g.off) false
  if (List.range n).all fun i => (bit (30 * j + i)).isSome then
    let mine := segs.filter fun g => decide (g.off < 30 * j + n ∧ 30 * j < g.off + g.bits.length)
    { w := w32 ((List.range 30).foldl (fun v i => 2 * v + b2n (decide (i < n) && (bit (30 * j + i)).getD false)) 0)
      bad := mine.any (·.bad), time := mine.foldl (fun t g => max t g.time) 0 }
  else { w := blackWord f j, bad := true, gone := true }

/-- The words of raster line `l` of the frame in progress, released at `now` (R291): its ancillary data, then its samples; none of a line of which nothing
was received. -/
def FlowConv.lineRx (c : FlowConv) (l : Nat) (now : Int) : List RxWord :=
  let f := c.fmt
  let fld : List RxWord := if (f.il || f.seg) ∧ l = Config.fieldStart f.code then [{ w := markWord 1 l (c.tag * 4), time := now }] else []
  let packets := c.anc.filter fun p => c.rtp = some p.1 ∧ p.2.1 = l
  let at_ := packets.foldl (fun t p => max t p.2.2.2) 0
  let anc : List RxWord := (ancRun (activeIndex f l).isSome l (packets.map fun p => ancFlagged p.2.2.1)).map fun w => { w := w, time := at_ }
  let video : List RxWord := match activeIndex f l with
    | none => []
    | some i =>
      let segs := c.segs.filter fun g => g.row = i
      let ws := (List.range f.lineWords).map (segWord f segs)
      if ws.all fun x => x.gone then []
      else { w := markWord 2 l ws.length } :: ws ++ [{ w := markWord 3 l (crc14 (ws.map (·.w))), time := ws.foldl (fun t x => max t x.time) 0 }]
  fld ++ anc ++ video

/-- The lines of the frame in progress up to raster line `l` are released in key order (R291). -/
def State.releaseTo (s : State) (r : Nat) (b : Bank) (l : Nat) (now : Int) : State :=
  let c := s.flowConv r b
  if !c.live ∨ l ≤ c.done then s
  else
    let ws := (List.range (l - c.done)).flatMap fun k => c.lineRx (c.done + k + 1) now
    let keep (n : Nat) : Bool := decide (l < n)
    let c' := { c with done := l, segs := c.segs.filter fun g => keep (activeLine c.fmt g.row).1, anc := c.anc.filter fun p => c.rtp ≠ some p.1 || keep p.2.1 }
    (s.setFlowConv r b c').pushPos b (.flow r) ws

/-- The frame in progress ends: its lines are released, then its EOF. DESIGN CHOICE: it ends so too where its marker packet is missing and a later frame
begins (log entry 130). -/
def State.flowFrameEnd (s : State) (r : Nat) (b : Bank) (now : Int) : State :=
  if !(s.flowConv r b).live then s
  else
    let n := (rasterLines (s.flowConv r b).fmt.raster).1
    let s := s.releaseTo r b n now
    let c := s.flowConv r b
    (s.setFlowConv r b { c with live := false }).pushPos b (.flow r) [{ w := markWord 7 n (rasterDims c.fmt.raster).2, time := now }]

/-- A frame begins with the RTP timestamp of a packet (R290, R291): its format is ETH_RXF_MEDIA's, its SOF is stamped with the arrival of the first packet
received with that timestamp. -/
def State.flowFrameStart (s : State) (r : Nat) (b : Bank) (p : FlowPkt) : State :=
  let s := s.flowFrameEnd r b p.time
  let f := fmtOf (s.rd (R1 .ETH_RXF_MEDIA r)) 14
  let c := s.flowConv r b
  let tag := mediaTag f (s.mediaCount (s.fld (R1 .ETH_RXF_CFG r) F.ETH_RXF_CFG_TB) p.rtp)
  let at_ := ((c.first.find? fun q => q.1 = p.rtp).map (·.2)).getD p.time
  let s := s.setFlowConv r b { c with
    rtp := some p.rtp, fmt := f, tag := tag, done := 0, live := true, segs := [], anc := c.anc.filter fun q => q.1 = p.rtp || rtpLater q.1 p.rtp }
  s.pushPos b (.flow r) [{ w := markWord 0 1 (tag * 4 + 2 * b2n f.il + b2n f.seg), time := at_ }, { w := markWord 6 1 f.code, time := at_ }]

/-- The active line that a sample row data header names, the field bit selecting the second field or segment (R45, R289). -/
def RowData.index (x : RowData) (f : Fmt) : Nat := x.row + (if x.field ∧ (f.il || f.seg) then (rasterDims f.raster).2 / 2 else 0)

/-- Bits of a pixel in a line's bit string (R41). -/
def pixelBits (f : Fmt) : Nat := f.depth * (if f.sampling = 0 then 2 else 3)

/-- The samples of one header go to their bit offset in their line, after the release of the lines before it; those of a line already released are late
(R289, R291). -/
def State.flowRow (s : State) (r : Nat) (b : Bank) (p : FlowPkt) (x : RowData) : State :=
  let c := s.flowConv r b
  let i := x.index c.fmt
  if (rasterDims c.fmt.raster).2 ≤ i then s
  else
    let l := (activeLine c.fmt i).1
    if l ≤ c.done then s.raise (R1 .ETH_RXF_EVT r) F.ETH_RXF_EVT_LATE_PKT
    else
      let s := s.releaseTo r b (l - 1) p.time
      let c := s.flowConv r b
      s.setFlowConv r b { c with segs := c.segs ++ [{ row := i, off := x.offset * pixelBits c.fmt, bits := byteBits x.bytes, time := p.time, bad := p.bad }] }

/-- A packet of a -20 flow is released in sequence order (R289 to R291). -/
def State.videoRelease (s : State) (r : Nat) (b : Bank) (p : FlowPkt) : State :=
  let c := s.flowConv r b
  let s := if c.rtp.all fun t => rtpLater p.rtp t then s.flowFrameStart r b p else s
  let c := s.flowConv r b
  if c.rtp ≠ some p.rtp ∨ !c.live then s.raise (R1 .ETH_RXF_EVT r) F.ETH_RXF_EVT_LATE_PKT
  else
    let s := p.rows.foldl (fun (s : State) x => s.flowRow r b p x) s
    if !p.marker then s
    else
      let last := ((p.rows.getLast?).map fun x => x.index c.fmt).getD 0
      if (c.fmt.il || c.fmt.seg) ∧ last < (rasterDims c.fmt.raster).2 / 2 then s.releaseTo r b (activeLine c.fmt last).1 p.time
      else s.flowFrameEnd r b p.time

/-- A packet of a -40 flow is released (R292): each ancillary packet waits for its line in the frame of the same RTP timestamp of the -20 flow that it goes with; one
whose checksum fails is dropped, one for a line already released is late. -/
def State.ancRelease (s : State) (r : Nat) (b : Bank) (p : FlowPkt) : State :=
  let q := s.fld (R1 .ETH_RXF_MEDIA r) F.ETH_RXF_MEDIA_BIND
  p.anc.foldl (fun (s : State) a =>
    let c := s.flowConv q b
    let late := c.rtp.any fun t => decide (p.rtp = t ∧ (a.line ≤ c.done ∨ !c.live)) || rtpLater t p.rtp
    if !ancSumOk a.words then s
    else if late then s.raise (R1 .ETH_RXF_EVT r) F.ETH_RXF_EVT_LATE_PKT
    else s.setFlowConv q b { c with anc := c.anc ++ [(p.rtp, a.line, a.words, p.time)] }) s

/-- A packet of a -20 or -40 flow enters its converter's hold, and those that the hold releases leave it in sequence order (R291); `n` was the number due. -/
def State.flowHold (s : State) (r : Nat) (b : Bank) (type n : Nat) (p : FlowPkt) : State :=
  let c := s.flowConv r b
  let c := { c with
    pkts := c.pkts ++ [p], first := if c.first.any fun q => q.1 = p.rtp then c.first else ((p.rtp, p.time) :: c.first).take 4 }
  let m := seqMod type
  let due := ((s.rxFlows.at r).track b).next.getD 0
  let out := (c.pkts.filter fun q => decide (serialFrom m n q.seq < serialFrom m n due)).mergeSort fun x y => decide (serialFrom m n x.seq ≤ serialFrom m n y.seq)
  let s := s.setFlowConv r b { c with pkts := c.pkts.filter fun q => decide (serialFrom m n due ≤ serialFrom m n q.seq) }
  out.foldl (fun (s : State) q => if type = 1 then s.videoRelease r b q else s.ancRelease r b q) s

/-- A packet of flow `r` arrives in bank `b`, from its RTP header on; whether its FCS and its UDP checksum are good (R286, R289 to R294). -/
def State.flowPacket (s : State) (r : Nat) (b : Bank) (rtpBytes : List Byte) (fcs udp : Bool) : State :=
  let ok := fcs && udp
  let type := s.rxfType r
  let rtp := be32 rtpBytes 4
  let seq := if type = 1 then be16 rtpBytes (rtpHead rtpBytes) * 65536 + be16 rtpBytes 2 else be16 rtpBytes 2
  let s := s.raiseIf (!udp) (R1 .ETH_RXF_EVT r) F.ETH_RXF_EVT_CSUM
  let x := s.rxFlows.at r
  let n := (x.track b).next.getD seq
  let twice := (x.track b).held.contains seq
  let t := (x.track b).arrive (seqMod type) seq
  let x := x.setTrack b t.1
  let x := if type = 1 then x else match b with
    | .E => { x with presentE := true }
    | .W => { x with presentW := true }
  let s : State := { s with rxFlows := s.rxFlows.set r x }
  let s := s.flowMissing r b t.2.1
  if t.2.2 then s.raise (R1 .ETH_RXF_EVT r) F.ETH_RXF_EVT_LATE_PKT
  else
    let other := x.seen.any fun p => p.seq = seq && p.rtp = rtp && p.good
    let s := s.noteArrival r b rtp seq ok
    if type = 1 ∨ type = 2 then (if twice then s else s.flowHold r b type n (flowPkt type seq s.cadTime (!ok) rtpBytes))
    else if ok ∧ (b = .E ∨ !other) then s.audioPacket r rtp (rtpBytes.drop (rtpHead rtpBytes)) else s

/-- ETH_RXF_STAT of a flow: its copies' presence, and whether they are within SKEW_MAX (R318). -/
def State.rxfStat (s : State) (r : Nat) : W32 :=
  let x := s.rxFlows.at r
  let n := s.fld (R1 .ETH_RXF_MEDIA r) F.ETH_RXF_MEDIA_BIND
  let e := if s.rxfType r = 1 then (s.inRx.at n).e.present else x.presentE
  let w := if s.rxfType r = 1 then (s.inRx.at n).w.present else x.presentW
  let d := (sext 32 (s.rd (R1 .ETH_RXF_SKEW r)).toNat).natAbs
  w32 (b2n e + 2 * b2n w + 4 * b2n (e && w && decide (d ≤ 4 * s.skewMax r)))

/-! ## Sizes and booked rates of transmit flows (R295, R299, R300) -/

/-- Bytes of a pixel group of ST 2110-20 for a sampling and depth. -/
def pixelGroup (f : Fmt) : Nat :=
  if f.sampling = 0 then (match f.depth with | 8 => 4 | 10 => 5 | 12 => 6 | _ => 8)
  else match f.depth with | 8 => 3 | 10 => 15 | 12 => 9 | _ => 6

/-- A transmit flow's type: 1 -20, 2 -40, 3 -30, 4 -31 (R320). -/
def State.txType (s : State) (t : Nat) : Nat := s.fld (R1 .ETH_TXF_CFG t) F.ETH_TXF_CFG_TYPE

/-- The -20 flow whose ports and frames a flow has: itself, or the one that a -40 flow is bound to (R298). -/
def State.txVideo (s : State) (t : Nat) : Nat := if s.txType t = 2 then s.fld (R1 .ETH_TXF_STAT t) F.ETH_TXF_STAT_BIND else t

/-- The port index that a flow is sent on in a bank. -/
def State.txPort (s : State) (b : Bank) (t : Nat) : Nat := s.txfPort b (s.txVideo t)

/-- The output slot that a -20 flow is bound to, or through it a -40 flow. -/
def State.txOutput (s : State) (t : Nat) : Nat := s.fld (R1 .ETH_TXF_STAT (s.txVideo t)) F.ETH_TXF_STAT_BIND

/-- PAYLOAD of a word of ETH_TXF_PKT within its limits. -/
def payloadOf (pkt : W32) : Nat := max 180 (min 1428 (getF pkt F.ETH_TXF_PKT_PAYLOAD))

/-- Payload bytes of a full -20 packet, rounded down to whole pixel groups. -/
def fullPayload (pkt : W32) (f : Fmt) : Nat := payloadOf pkt / pixelGroup f * pixelGroup f

/-- Bytes of one line. -/
def lineBytes (f : Fmt) : Nat := f.lineSamples * f.depth / 8

/-- Packets of one line. -/
def linePackets (pkt : W32) (f : Fmt) : Nat := (lineBytes f + fullPayload pkt f - 1) / fullPayload pkt f

/-- Fields or segments of a frame. -/
def fields (f : Fmt) : Nat := if f.il || f.seg then 2 else 1

/-- Active lines of a frame, field or segment. -/
def fieldLines (f : Fmt) : Nat := (rasterDims f.raster).2 / fields f

/-- NPKT of a -20 flow: packets of a frame, field or segment (R295). -/
def packetsOf (pkt : W32) (f : Fmt) : Nat := linePackets pkt f * fieldLines f

/-- NPKT as ETH_TXF_STAT reports it. -/
def State.npkt (s : State) (t : Nat) : Nat := packetsOf (s.rd (R1 .ETH_TXF_PKT t)) (s.outPlan.at (s.txOutput t)).fmt

/-- The MAC rate of a port index in Gb/s (R281, R313). -/
def State.macRate (s : State) (i : Nat) : Nat :=
  match s.fld (R1 .ETH_PORT_STAT i) F.ETH_PORT_STAT_TYPE with
  | 1 => 25 | 2 => 50 | 3 => 100 | 4 => 200 | 5 => 400 | 6 => 10 | 7 => 1
  | _ => 0

/-- Bytes on the wire of a packet of `n` payload bytes: 62 of headers, FCS, preamble and gap, and the port's tag. -/
def State.wireBytes (s : State) (i n : Nat) : Nat := 86 + n + (if s.flag (R1 .ETH_PORT_CFG i) F.ETH_PORT_CFG_TAG then 4 else 0)

/-- Payload bytes of packet `k` of a line. -/
def packetBytes (pkt : W32) (f : Fmt) (k : Nat) : Nat := min (fullPayload pkt f) (lineBytes f - k * fullPayload pkt f)

/-- The booked rate of a transmit flow on port `i`, in bits per second × 10^4 (R299). -/
def State.txRate (s : State) (i t : Nat) : Nat :=
  let f := (s.outPlan.at (s.txOutput t)).fmt
  let pkt := s.rd (R1 .ETH_TXF_PKT t)
  let bits := if s.txType t = 1 then
      (List.range (linePackets pkt f)).foldl (fun n k => n + 8 * s.wireBytes i (packetBytes pkt f k)) 0 * (rasterDims f.raster).2
    else Config.txBooked t
  bits * (rateFrac f.rate).1 * 10001 / (rateFrac f.rate).2

/-- CTRL_PERIOD of a port in ticks (R313). -/
def State.ctrlPeriod (s : State) (i : Nat) : Nat := max 1 (s.fld (R1 .ETH_PORT_CFG i) F.ETH_PORT_CFG_CTRL_PERIOD) * 10 * usTicks

/-- The booked rate of port `i` with its control-gap reserve, in bits per second × 10^4. -/
def State.portBooked (s : State) (i : Nat) : Nat :=
  let b := portBank i
  let ts := s.txListed.filter fun t => s.txfEn b t && s.txPort b t = i
  ts.foldl (fun n t => n + s.txRate i t) 0 + 12800 * 10000 * secTicks / s.ctrlPeriod i

/-- The port keeps within 95 % of its MAC rate (R299). -/
def State.portFits (s : State) (i : Nat) : Bool := decide (s.portBooked i * 100 ≤ 95 * s.macRate i * 1000000000 * 10000)

/-- ETH_PORT_STAT.LOAD (R313). -/
def State.portLoad (s : State) (i : Nat) : Nat :=
  if s.macRate i = 0 ∨ 128 ≤ i then 0 else min 1023 (s.portBooked i * 1000 / (s.macRate i * 1000000000 * 10000))

/-! ## Frames of transmit flows (R94, R297, R300) -/

/-- Index of an audio transmit flow's run on a bank's port. -/
def runIx (t : Nat) (b : Bank) : Nat := 2 * t + b.idx

/-- The value of a time base at a cadence time, in ns and 2^-48 (R297). -/
def State.tbAt (s : State) (n : Nat) (t : Int) : Nat :=
  let x := s.tbs.at n
  (((x.t : Int) + (t - s.cadTime) * (2 ^ 48 + s.tbRate n) / 2 ^ 16) % (tbMod : Int)).toNat

/-- The RTP timestamp of a frame of output `d` on time base `n` (R297). -/
def State.rtpOf (s : State) (n d g : Nat) : Nat :=
  let v := s.tbAt n (s.outStart d (s.outs.at d) g)
  v * 90000 / (2 ^ 48 * 1000000000) % 2 ^ 32

/-- The output of a flow is lost and follows its source: its flows send nothing (R94, R300). -/
def State.flowMuted (s : State) (t : Nat) : Bool :=
  let d := s.txOutput t
  getF (s.twin .XPT_OUT_CFG d) F.XPT_OUT_CFG_LOSS = 2 && (s.shown.at (2 * d + (s.holder.getD Side.A).idx)).cause != LossCause.none

/-- The registers of a transmit flow as they stand. -/
def State.txPar (s : State) (t : Nat) : TxPar :=
  { cfg := s.rd (R1 .ETH_TXF_CFG t), pkt := s.rd (R1 .ETH_TXF_PKT t), udp := s.rd (R1 .ETH_TXF_UDP t), ssrc := s.rd (R1 .ETH_TXF_SSRC t)
    dstE := s.rd (R1 .ETH_TXF_DST_E t), dstW := s.rd (R1 .ETH_TXF_DST_W t) }

/-- The flow's copy is enabled in a bank. -/
def TxPar.en (p : TxPar) (b : Bank) : Bool := getF p.cfg (match b with | .E => F.ETH_TXF_CFG_EN_E | .W => F.ETH_TXF_CFG_EN_W) = 1

/-- The flow's destination in a bank. -/
def TxPar.dst (p : TxPar) : Bank → Nat
  | .E => p.dstE.toNat
  | .W => p.dstW.toNat

/-- A frame of output `d` begins: the flows bound to it take up their registers as they stand, and their frame's RTP timestamp; a muted flow builds
nothing of it (R297, R300, R312). -/
def State.openFlows (s : State) (d g : Nat) : State :=
  (s.txListed.filter fun t => (s.txType t = 1 ∨ s.txType t = 2) ∧ s.txOutput t = d).foldl (fun (s : State) t =>
    let p := s.txPar t
    let on := (p.en .E || p.en .W) && !s.flowMuted t
    { s with txFlows := s.txFlows.upd t fun x => { x with
        frame := if on then some g else none, par := p, rtp := s.rtpOf (s.fld (R1 .ETH_TXF_CFG (s.txVideo t)) F.ETH_TXF_CFG_TB) d g, fld := 0, j := 0, pend := [] } }) s

/-! ## Launch FIFOs (R302) -/

/-- Bytes enter a launch FIFO of 2 KiB; what it does not hold waits in HBM. -/
def TxBuf.push (x : TxBuf) (bs : List Byte) : TxBuf :=
  if x.backlog = [] then { fifo := x.fifo ++ bs.take (2048 - x.fifo.length), backlog := bs.drop (2048 - x.fifo.length) }
  else { x with backlog := x.backlog ++ bs }

/-- Bytes leave a launch FIFO, which fills up again from the backlog. -/
def TxBuf.pop (x : TxBuf) (n : Nat) : TxBuf :=
  let all := (x.fifo ++ x.backlog).drop n
  { fifo := all.take 2048, backlog := all.drop 2048 }

/-- `n` bytes from the `o`-th on. -/
def TxBuf.read (x : TxBuf) (o n : Nat) : List Byte := ((x.fifo ++ x.backlog).drop o).take n

/-- A packet of flow `t` is built: its payload enters the launch FIFO of every Side that runs (R295, R302). -/
def State.queuePkt (s : State) (t : Nat) (p : TxPkt) (pay : Side → List Byte) : State :=
  let s : State := { s with txFlows := s.txFlows.upd t fun x => { x with q := x.q ++ [p], count := x.count + 1 } }
  s.eachSide fun sd s => { s with txBufs := s.txBufs.upd (2 * t + sd.idx) fun x => x.push (pay sd) }

/-- Packets that every bank that needs them has sent leave the launch FIFO. -/
def State.dropSent (s : State) (t : Nat) : State :=
  let x := s.txFlows.at t
  let gone := x.q.takeWhile fun p => (p.sentE || !p.par.en .E) && (p.sentW || !p.par.en .W)
  let n := gone.foldl (fun n p => n + p.size) 0
  if gone = [] then s
  else
    let s : State := { s with txFlows := s.txFlows.set t { x with q := x.q.drop gone.length } }
    { s with txBufs := (s.txBufs.upd (2 * t) fun x => x.pop n).upd (2 * t + 1) fun x => x.pop n }

/-! ## Packets of -20 flows (R295, R300) -/

/-- The launch time, the Seam read time of the last word, the active line and the place within it of packet `j` of a field of frame `g`, in cadence
time. -/
def State.launchOf (s : State) (d : Nat) (par : TxPar) (g fld j : Nat) : Int × Int × Nat × Nat :=
  let f := (s.outPlan.at d).fmt
  let e := s.outStart d (s.outs.at d) g
  let tFrame := f.period / fields f
  let n := max 1 (packetsOf par.pkt f)
  let tro := getF par.pkt F.ETH_TXF_PKT_TRO * f.linePeriod
  let trs := if getF par.cfg F.ETH_TXF_CFG_SENDER = 1 then j * (fieldLines f * f.linePeriod) / n else j * tFrame / n
  let k := j % max 1 (linePackets par.pkt f)
  let i := fld * fieldLines f + j / max 1 (linePackets par.pkt f)
  let words := min f.lineWords (((k * fullPayload par.pkt f + packetBytes par.pkt f k) * 8 + 29) / 30)
  (e + fld * tFrame + tro + trs, e + (f.lineAt (activeLine f i).1 + words * f.linePeriod / max 1 f.lineWords : Nat), i, k)

/-- The bytes of a -20 packet's samples, from the Seam read of its line in a Side. -/
def State.packetSamples (s : State) (sd : Side) (d g i k : Nat) (pkt : W32) : List Byte :=
  let f := (s.outPlan.at d).fmt
  let bits := (s.outVideo sd d g (activeLine f i).1 i).flatMap fun w => bitsMsb 30 (w.toNat % 2 ^ 30)
  (List.range (packetBytes pkt f k)).map fun n => BitVec.ofNat 8 (bitsNat ((bits.drop (8 * (k * fullPayload pkt f + n))).take 8))

/-- The sample row data header of a -20 packet, after the high half of its sequence number (R288, R295). -/
def srdHeader (f : Fmt) (seq i k : Nat) (pkt : W32) : List Byte :=
  let second := f.fieldOf i = 1
  let row := if second then i - fieldLines f else i
  beBytes 2 (seq / 65536) ++ beBytes 2 (packetBytes pkt f k) ++ beBytes 2 (b2n second * 32768 + row % 32768) ++
    beBytes 2 (k * fullPayload pkt f * 8 / max 1 (pixelBits f) % 32768)

/-- The next packet of a -20 flow's frame is built once its last word has been read; none is left at the frame's end. -/
def State.buildVideo (s : State) (t d g : Nat) : Nat → State
  | 0 => s
  | fuel + 1 =>
    let x := s.txFlows.at t
    let f := (s.outPlan.at d).fmt
    let l := s.launchOf d x.par g x.fld x.j
    if fields f ≤ x.fld ∨ s.cadTime < l.2.1 then s
    else
      let seq := (Config.firstSeq t + x.count) % 2 ^ 32
      let marker := decide (packetsOf x.par.pkt f ≤ x.j + 1)
      let p : TxPkt := { launch := l.1, ready := l.2.1 + usTicks * tickU, seq := seq, rtp := x.rtp, marker := marker, par := x.par,
                         head := srdHeader f seq l.2.2.1 l.2.2.2 x.par.pkt, size := packetBytes x.par.pkt f l.2.2.2 }
      let s := s.queuePkt t p fun sd => s.packetSamples sd d g l.2.2.1 l.2.2.2 x.par.pkt
      let s : State := { s with txFlows := s.txFlows.upd t fun x => if marker then { x with fld := x.fld + 1, j := 0 } else { x with j := x.j + 1 } }
      State.buildVideo s t d g fuel

/-! ## Packets of -40 flows (R298) -/

/-- An ancillary packet as RFC 8331 carries it: its line, where it stands in it, and its words, to a whole 32-bit word (PRESUMED, log entry 129). -/
def ancBytes (f : Fmt) (l : Nat) (p : List Nat) : List Byte :=
  let chroma := (Config.audioGroup p).isSome
  let place := if (activeIndex f l).isSome then 0xFFE else 0xFFD
  let bits := [chroma] ++ bitsMsb 11 l ++ bitsMsb 12 place ++ List.replicate 8 false ++ p.flatMap (bitsMsb 10)
  let n := (bits.length + 31) / 32 * 4
  (List.range n).map fun i => BitVec.ofNat 8 (bitsNat ((List.range 8).map fun k => bits.getD (8 * i + k) false))

/-- The bytes of gathered packets. -/
def gathered (f : Fmt) (ps : List (Nat × List Nat)) : List Byte := ps.flatMap fun p => ancBytes f p.1 p.2

/-- The ancillary packets of a line of output `d` in a Side, as R298 gathers them. -/
def State.linePacketsOf (s : State) (sd : Side) (d g l : Nat) : List (List Nat) :=
  let ws := (s.outAnc sd d g l false).filter fun w => slotTag w = 1
  ancPackets (3 * ws.length + 1) (ancTens ws)

/-- The packets gathered leave as one -40 packet, whose launch time is the read time of its last ANC word plus 1 µs (R298). -/
def State.sendGathered (s : State) (t d : Nat) (marker : Bool) : State :=
  let x := s.txFlows.at t
  let f := (s.outPlan.at d).fmt
  if x.pend = [] then s
  else
    let bs := gathered f x.pend
    let seq := (Config.firstSeq t + x.count) % 2 ^ 32
    let fieldBits := if f.il then (if x.fld = 0 then 2 else 3) else 0
    let at_ := x.read + usTicks * tickU
    let p : TxPkt := { launch := at_, ready := at_, seq := seq % 65536, rtp := x.rtp, marker := marker, par := x.par,
                       head := beBytes 2 (seq / 65536) ++ beBytes 2 bs.length ++ beBytes 1 x.pend.length ++ beBytes 3 (fieldBits * 2 ^ 22), size := bs.length }
    let s := s.queuePkt t p fun _ => bs
    { s with txFlows := s.txFlows.upd t fun x => { x with pend := [] } }

/-- Line `l` ends a field of the frame: the line before the second field, or the last. -/
def endsField (f : Fmt) (l : Nat) : Bool := l = (rasterLines f.raster).1 || ((f.il || f.seg) && decide (l + 1 = Config.fieldStart f.code))

/-- The next line of a -40 flow's frame is gathered once it has been read: a packet that would pass PAYLOAD leaves first, and the rest at the end of the
field. -/
def State.buildAnc (s : State) (t d g : Nat) : Nat → State
  | 0 => s
  | fuel + 1 =>
    let x := s.txFlows.at t
    let f := (s.outPlan.at d).fmt
    let l := x.j + 1
    let at_ := s.lineStart d g l
    if (rasterLines f.raster).1 < l ∨ s.cadTime < at_ then s
    else
      let s := (s.linePacketsOf (s.holder.getD .A) d g l).foldl (fun (s : State) p =>
        let y := s.txFlows.at t
        let s := if payloadOf y.par.pkt < (gathered f (y.pend ++ [(l, p)])).length then s.sendGathered t d false else s
        { s with txFlows := s.txFlows.upd t fun x => { x with pend := x.pend ++ [(l, p)], read := at_ } }) s
      let s := if endsField f l then s.sendGathered t d true else s
      let s : State := { s with txFlows := s.txFlows.upd t fun x => { x with j := l, fld := if endsField f l then x.fld + 1 else x.fld } }
      State.buildAnc s t d g fuel

/-- The packet engines build what the Seam reads of the frame in progress have given a flow, once they have started (R558). -/
def State.buildFlow (s : State) (t : Nat) : State :=
  let d := s.txOutput t
  match (s.txFlows.at t).frame with
  | none => s
  | some g =>
    if !s.engStarted 3 (32 + t / 128) then s
    else if s.txType t = 1 then s.buildVideo t d g (fields (s.outPlan.at d).fmt * packetsOf (s.txFlows.at t).par.pkt (s.outPlan.at d).fmt + 1)
    else s.buildAnc t d g ((rasterLines (s.outPlan.at d).fmt.raster).1 + 1)

/-- Every flow bound to an output is built as far as the reads have gone. -/
def State.buildFlows (s : State) (d : Nat) : State :=
  (s.txListed.filter fun t => (s.txType t = 1 ∨ s.txType t = 2) ∧ s.txOutput t = d).foldl (fun (s : State) t => s.buildFlow t) s

/-! ## Frames on the wire (R295, R296) -/

/-- The destination address of an IPv4 destination (R295): the RFC 1112 mapping of a multicast one, else the port's next hop. -/
def State.macTo (s : State) (i dst : Nat) : List Byte :=
  if dst / 2 ^ 28 = 14 then [0x01, 0x00, 0x5E] ++ beBytes 3 (dst % 2 ^ 23)
  else beBytes 2 (s.fld (R1 .ETH_PORT_NH_HI i) ⟨0, 16⟩) ++ beBytes 4 (s.rd (R1 .ETH_PORT_NH_LO i)).toNat

/-- A port's MAC address. -/
def State.portMac (s : State) (i : Nat) : List Byte :=
  beBytes 2 (s.fld (R1 .ETH_PORT_MAC_HI i) ⟨0, 16⟩) ++ beBytes 4 (s.rd (R1 .ETH_PORT_MAC_LO i)).toNat

/-- A media packet on port `i` from its destination address on, with both checksums (R295, R296). -/
def State.mediaFrame (s : State) (i : Nat) (b : Bank) (t seq rtp : Nat) (marker : Bool) (par : TxPar) (body : List Byte) : List Byte :=
  let cfg := s.rd (R1 .ETH_PORT_CFG i)
  let tag := if getF cfg F.ETH_PORT_CFG_TAG = 1 then beBytes 2 0x8100 ++ beBytes 2 (getF cfg F.ETH_PORT_CFG_PCP * 2 ^ 13 + getF cfg F.ETH_PORT_CFG_VID) else []
  let free := (Config.ipFields t seq).toNat
  let rtpHdr := [0x80] ++ beBytes 1 (b2n marker * 128 + getF par.pkt F.ETH_TXF_PKT_PT) ++ beBytes 2 seq ++ beBytes 4 rtp ++ beBytes 4 par.ssrc.toNat
  let n := 8 + rtpHdr.length + body.length
  let ip := [0x45] ++ beBytes 1 (getF par.cfg F.ETH_TXF_CFG_DSCP * 4 + free % 4) ++ beBytes 2 (20 + n) ++ beBytes 2 (free / 8) ++
    beBytes 2 (free / 4 % 2 * 2 ^ 14) ++ [64, 17, 0, 0] ++ beBytes 4 (s.rd (R1 .ETH_PORT_IP i)).toNat ++ beBytes 4 (par.dst b)
  let udp := beBytes 2 (par.udp.toNat / 65536) ++ beBytes 2 par.udp.toNat ++ beBytes 2 n ++ [0, 0]
  putUdpSum (putIpSum (s.macTo i (par.dst b) ++ s.portMac i ++ tag ++ beBytes 2 0x0800 ++ ip ++ udp ++ rtpHdr ++ body))

/-- The payload of an audio packet of flow `t` from sample `m` on (R330): big-endian samples of 24 or 16 bits, or AES3 subframes. -/
def State.audioPayload (s : State) (sd : Side) (t m : Nat) (run : TxRun) (type : Nat) : List Byte :=
  let chans := (s.audDst.filter fun p => p.2.kind = 2 ∧ p.2.owner = t).length
  (List.range run.samples).flatMap fun k => (List.range chans).flatMap fun c =>
    let w := (((s.audDst.find? fun p => p.2.kind = 2 ∧ p.2.owner = t ∧ p.2.index = c).map fun p => s.dstSample sd p.1 (m + k)).getD invalidSilence).toNat
    if type = 4 then beBytes 4 (w / 256 + w / 8 % 2 * 2 ^ 27 + w / 4 % 2 * 2 ^ 26 + w / 2 % 2 * 2 ^ 25 + w % 2 * 2 ^ 24)
    else if run.depth = 16 then beBytes 2 (w / 2 ^ 16) else beBytes 3 (w / 256)

/-! ## Writes of the flow tables (R293, R299, R317) -/

/-- The requester holds receive flow `f`. -/
def State.holdsRx (s : State) (r : Req) (f : Nat) : Bool := s.allRights r || inRanges (s.rightsOf r).rxFlows f

/-- The requester holds transmit flow `f`. -/
def State.holdsTx (s : State) (r : Req) (f : Nat) : Bool := s.allRights r || inRanges (s.rightsOf r).txFlows f

/-- Flow `r` shares its key and source filter with another enabled flow on one port (R317). -/
def State.rxConflict (s : State) (r : Nat) : Bool :=
  let one (b : Bank) : Bool :=
    s.rxfEn b r && s.rxListed.any fun q => decide (q ≠ r) && s.rxfEn b q && s.rxfPort b q = s.rxfPort b r && s.rxKey b q = s.rxKey b r
  one .E || one .W

/-- The packet buffer that the enabled flows book, in bits × ticks per second, against 8 MiB (R294). -/
def State.rxBufferFits (s : State) : Bool :=
  let used := s.rxListed.foldl (fun n r =>
    if s.rxfEn .E r || s.rxfEn .W r then n + Config.rxBooked (s.rxfType r) (s.rd (R1 .ETH_RXF_MEDIA r)) * s.skewMax r else n) 0
  decide (used ≤ 8 * 2 ^ 23 * secTicks)

/-- The register of a flow's address field. -/
def FlowAddr.reg : FlowAddr → RegName
  | .dstE => .ETH_RXF_DST_E | .dstW => .ETH_RXF_DST_W | .srcE => .ETH_RXF_SRC_E | .srcW => .ETH_RXF_SRC_W | .udp => .ETH_RXF_UDP

/-- A write of a receive flow's address, as delivered: ignored where two flows would share a key; a copy whose key changed restarts its hold. -/
def State.writeFlowAddr (s : State) (f : Nat) (a : FlowAddr) (v : W32) : State :=
  let s' := s.wr (R1 a.reg f) v
  if s'.rxConflict f then s.raise (R1 .ETH_RXF_EVT f) F.ETH_RXF_EVT_ADDR_CONFLICT
  else
    let fresh (s : State) (b : Bank) (moved : Bool) : State :=
      if moved then { s with rxFlows := s.rxFlows.upd f fun x => (x.setTrack b {}).setConv b {} } else s
    fresh (fresh s' .E (s.rxKey .E f != s'.rxKey .E f)) .W (s.rxKey .W f != s'.rxKey .W f)

/-- FLOW_ADDR_WRITE. -/
def execFlowAddrWrite (r : Req) (f : Fin 4096) (reg : FlowAddr) (v : W32) (s : State) : Out :=
  .next (s.access r .lanes (s.holdsRx r f) (R1 reg.reg f).addr v fun s => s.writeFlowAddr f reg v)

/-- A write of ETH_RXF_CFG[f]: EN_E, EN_W, TB and SKEW_MAX. -/
def State.writeRxfCfg (s : State) (f : Nat) (v : W32) : State :=
  let k := R1 .ETH_RXF_CFG f
  let m : W32 := 0x03FE0018#32
  let s' := s.wr k ((s.rd k &&& ~~~m) ||| (v &&& m))
  if !s'.rxBufferFits then s.raise (R1 .ETH_RXF_EVT f) F.ETH_RXF_EVT_NO_BUF
  else if s'.rxConflict f then s.raise (R1 .ETH_RXF_EVT f) F.ETH_RXF_EVT_ADDR_CONFLICT
  else s'

/-- An audio flow's run on a bank's port starts, or stops; a -20 or -40 flow takes up its enables at its output's next frame start. -/
def State.startRun (s : State) (t : Nat) (b : Bank) : State :=
  let ix := runIx t b
  let x := s.txRuns.at ix
  if s.txType t = 1 ∨ s.txType t = 2 then s
  else if !s.txfEn b t then { s with txRuns := s.txRuns.set ix { x with frame := none } }
  else if x.frame.isSome then s
  else { s with txRuns := s.txRuns.set ix { x with frame := some s.audNext } }

/-- A write of ETH_TXF_CFG[t]: an enable that a port cannot carry is ignored with OVERBOOK (R299). -/
def State.writeTxfCfg (s : State) (t : Nat) (v : W32) : State :=
  let k := R1 .ETH_TXF_CFG t
  let m : W32 := 0x03FE0018#32
  let put (s : State) (v : W32) : State := s.wr k ((s.rd k &&& ~~~m) ||| (v &&& m))
  let enable (s : State) (b : Bank) : State :=
    let f := match b with | .E => F.ETH_TXF_CFG_EN_E | .W => F.ETH_TXF_CFG_EN_W
    let s' := s.setF k f (getF v f)
    let i := s.txPort b t
    if getF v f = 1 ∧ !s.txfEn b t ∧ !s'.portFits i then s.raise (R1 .ETH_PORT_EVT i) F.ETH_PORT_EVT_OVERBOOK else s'
  let others := putF (putF v F.ETH_TXF_CFG_EN_E (getF (s.rd k) F.ETH_TXF_CFG_EN_E)) F.ETH_TXF_CFG_EN_W (getF (s.rd k) F.ETH_TXF_CFG_EN_W)
  let s := enable (enable (put s others) .E) .W
  (s.startRun t .E).startRun t .W

/-- FLOW_ENABLE_WRITE: a write of ETH_RXF_CFG[f], or of ETH_TXF_CFG[f] when `tx`. -/
def execFlowEnableWrite (r : Req) (tx : Bool) (f : Fin 4096) (v : W32) (s : State) : Out :=
  if tx then .next (s.access r .lanes (s.holdsTx r f) (R1 .ETH_TXF_CFG f).addr v fun s => s.writeTxfCfg f v)
  else .next (s.access r .lanes (s.holdsRx r f) (R1 .ETH_RXF_CFG f).addr v fun s => s.writeRxfCfg f v)

end Sys2Proof.Machine
end

