-- ==== Sys2Proof/Machine/Ethernet.lean ====
section
/-!
DEFINITION. Ethernet ports (chapter 9): counters, reception, the control queues, PAUSE, launching of packets, the management ports, RRP datagrams
and NOTIFY, wake patterns, and link state.
-/
namespace Sys2Proof.Machine

/-- The MAC of a port index. -/
def State.mac (s : State) (i : Nat) : PortMac := s.macs.at i

/-- The state with a MAC replaced. -/
def State.setMac (s : State) (i : Nat) (x : PortMac) : State := { s with macs := s.macs.set i x }

/-- The port is in the structure. -/
def State.portPresent (s : State) (i : Nat) : Bool := (s.portPlan.at i).present

/-! ## Counters (R304, R305) -/

/-- The width of counter `k`. -/
def cntBits (k : Nat) : Nat := if k = 0 ∨ k = 2 ∨ k = 4 then 48 else 32

/-- Counter `k` of port `i` counts `n`, wrapping; when its most significant bit rises, its half-range bit is set. -/
def State.count (s : State) (i k n : Nat) : State :=
  let x := s.mac i
  let w := cntBits k
  let old := x.cnt.at k
  let new := (old + n) % 2 ^ w
  let s := s.setMac i { x with cnt := x.cnt.set k new }
  if old < 2 ^ (w - 1) ∧ 2 ^ (w - 1) ≤ new then
    let r := if k < 32 then R1 .ETH_CNT_HALF0 i else R1 .ETH_CNT_HALF1 i
    (s.wr r (s.rd r ||| bit1 (k % 32))).portEvt i F.ETH_PORT_EVT_CNT_HALF
  else s

/-- The size bin of a frame length (R304). -/
def sizeBin (n : Nat) : Nat :=
  if n ≤ 64 then 0 else if n ≤ 127 then 1 else if n ≤ 255 then 2 else if n ≤ 511 then 3 else if n ≤ 1023 then 4
  else if n ≤ 1518 then 5 else if n ≤ 2047 then 6 else 7

/-- 0 unicast, 1 multicast, 2 broadcast. -/
def castOf (bs : List Byte) : Nat := if isBcast bs then 2 else if isMcast bs then 1 else 0

/-- A frame received without error is counted; `len` is its length without a tag. -/
def State.countGood (s : State) (i octets len cast : Nat) : State :=
  (((s.count i 2 octets).count i 6 1).count i (7 + cast) 1).count i (12 + sizeBin len) 1

/-- A frame sent is counted. -/
def State.countTx (s : State) (i octets len cast : Nat) : State :=
  (((s.count i 4 octets).count i 32 1).count i (33 + cast) 1).count i (36 + sizeBin len) 1

/-- The word of a snapshot: counters 0 to 5 are three counters of two words each. -/
def cntWord (x : PortMac) (k : Nat) : W32 :=
  if k < 6 then w32 (if k % 2 = 0 then x.cnt.at k else x.cnt.at (k - 1) / 2 ^ 32) else w32 (x.cnt.at k)

/-- ETH_SNAP.GO: every counter of port `i` goes into the writer's own snapshot. -/
def State.snapshot (s : State) (r : Req) (i : Nat) : State :=
  (List.range 46).foldl (fun (s : State) k => s.wr { name := .ETH_CNT, i := i, j := k, bank := r.num } (cntWord (s.mac i) k)) s

/-- ETH_SNAP. -/
def execEthSnap (r : Req) (i : Fin 130) (s : State) : Out :=
  .next (s.access r .lanes true (RB .ETH_SNAP r i).addr 1 fun s => if s.portPresent i then s.snapshot r i else s)

/-! ## PAUSE (R306) -/

/-- Ticks of `q` quanta on a management port: one is 512 bit times. -/
def State.quantaTicks (s : State) (i q : Nat) : Nat := if s.macRate i = 10 then q * 64 / 5 else q * 128

/-- PAUSED is set or cleared. -/
def State.setPaused (s : State) (i : Nat) (b : Bool) : State := s.setF (R1 .ETH_PORT_STAT i) F.ETH_PORT_STAT_PAUSED (b2n b)

/-- A pause is in force. -/
def State.paused (s : State) (i : Nat) : Bool := s.flag (R1 .ETH_PORT_STAT i) F.ETH_PORT_STAT_PAUSED

/-- The tick at which the frame being sent ends. -/
def State.sendEnd (s : State) (i : Nat) : Nat := ((s.mac i).busy + tickU - 1) / tickU

/-- A good PAUSE frame is counted; a management port that honours it starts, replaces or ends a pause. -/
def State.pauseFrame (s : State) (i q : Nat) : State :=
  let s := s.count i 10 1
  if i < 128 ∨ !s.flag (R1 .ETH_PORT_CFG i) F.ETH_PORT_CFG_PAUSE_EN then s
  else if q = 0 then (s.setMac i { s.mac i with pauseEnd := 0 }).setPaused i false
  else (s.setMac i { s.mac i with pauseEnd := max s.tick (s.sendEnd i) + s.quantaTicks i q }).setPaused i true

/-- PAUSE_RECEIVE: a PAUSE frame of 64 bytes. -/
def execPauseReceive (i : Fin 130) (quanta : Fin 65536) (s : State) : Out :=
  if s.portPresent i ∧ s.portUp i then .next (((s.count i 0 64).countGood i 64 64 1).pauseFrame i quanta) else .next s

/-- PAUSE_EXPIRE. -/
def execPauseExpire (i : Fin 130) (s : State) : Out :=
  if s.paused i ∧ (s.mac i).pauseEnd ≤ s.tick then .next (s.setPaused i false) else .next s

/-! ## The control receive queue (R287, R392 to R394) -/

/-- The words of a control receive queue. -/
def crxWords : Nat := 16384

/-- The words in use. -/
def crxUsed (items : List (List W32)) : Nat := items.foldl (fun n e => n + e.length) 0

/-- An entry enters the queue: the oldest whole entries give way, but one that is partly read never does. The number lost is returned. -/
def crxPush (partly : Bool) (e : List W32) : Nat → List (List W32) → Nat → List (List W32) × Nat
  | 0, items, lost => (items, lost)
  | k + 1, items, lost =>
    if crxUsed items + e.length ≤ crxWords then (items ++ [e], lost)
    else if partly then (items, lost + 1) else crxPush partly e k (items.drop 1) (lost + 1)

/-- The time base on which a received frame is timestamped (R393). -/
def State.rxTb (s : State) (i : Nat) (bs : List Byte) : Nat :=
  let cfg := s.rd (R1 .PTP_PORT_CFG i)
  let own := getF cfg F.PTP_PORT_CFG_TB
  match ptpOff bs with
  | none => own
  | some o =>
    ((List.range 4).find? fun n =>
      s.fld (R1 .TB_CFG n) F.TB_CFG_DOMAIN = byteAt bs (o + 4) && s.flag (R1 .TB_CFG n) F.TB_CFG_FOLLOW &&
        (getF cfg F.PTP_PORT_CFG_TB_EN).testBit n).getD own

/-- A fraction of a tick in 2^-16 ns, as time base `n` measures it (R386, R391). -/
def State.fracOn (s : State) (n frac : Nat) : Int := (frac : Int) * (2 ^ 48 + s.tbRate n) / 2 ^ 48

/-- A frame enters port `i`'s control receive queue; `flags` are bits 16 to 18 of word 0. -/
def State.crxFrame (s : State) (i frac flags : Nat) (bytes : List Byte) : State :=
  let n := s.rxTb i bytes
  let stamp := s.stampWords i n (s.fracOn n frac - sext 32 (s.rd (R1 .PTP_INGRESS i)).toNat)
  let bs := bytes.take (bytes.length - 4)
  let bs := match ptpOff bs with
    | some o => if s.flag (R1 .PTP_PORT_CFG i) F.PTP_PORT_CFG_ASYM_EN && ptpType bs o = 0 then addCorrection bs o (sext 32 (s.rd (R1 .PTP_ASYM i)).toNat) else bs
    | none => bs
  let w0 := w32 (bs.length % 2 ^ 14 + flags % 8 * 2 ^ 16 + b2n (hasTag bs) * 2 ^ 19)
  let x := s.mac i
  let p := crxPush x.partly (w0 :: stamp ++ frameWords bs) (x.crx.length + 1) x.crx 0
  let s := (s.noteUncal i).setMac i { x with crx := p.1 }
  if p.2 = 0 then s else (s.addWrap (R1 .ETH_CRX_SPOIL i) p.2).portEvt i F.ETH_PORT_EVT_CRX_SPOIL

/-- The next word of the oldest entry, removed; 0 when none waits. -/
def State.readCrx (s : State) (i : Nat) : W32 × State :=
  let x := s.mac i
  match x.crx with
  | [a] :: rest => (a, s.setMac i { x with crx := rest, partly := false })
  | (a :: b :: l) :: rest => (a, s.setMac i { x with crx := (b :: l) :: rest, partly := true })
  | _ => (0, s)

/-- ETH_CRX_READ. -/
def execEthCrxRead (r : Req) (i : Fin 130) (be : Fin 16) (s : State) : Out :=
  .next (s.readAccess r be .lanes (s.holdsPort r i) (R1 .ETH_CRX_DATA i).addr fun s => s.readCrx i)

/-- ETH_CRX_STAT (R315). -/
def State.crxStat (s : State) (i : Nat) : W32 :=
  let x := s.mac i
  w32 ((x.crx.headD []).length % 65536 + x.crx.length % 65536 * 65536)

/-! ## RRP datagrams and NOTIFY (R308 to R310) -/

/-- The words of an RRP payload, each most significant byte first; a payload that is not whole words keeps its header alone. -/
def rrpWords (bs : List Byte) : List W32 :=
  let ws := (List.range (bs.length / 4)).map fun i => w32 (be32 bs (4 * i))
  if bs.length % 4 = 0 then ws else ws.take 1

/-- A NOTIFY_ACK for host `h`. -/
def State.notifyAck (s : State) (h seq : Nat) : State :=
  let x := s.rrp.at h
  match x.notify with
  | some (q, _) => if q = seq then { s with rrp := s.rrp.set h { x with notify := none } } else s
  | none => s

/-- NOTIFY_ACK. -/
def execNotifyAck (h : Fin 4) (seq : Byte) (s : State) : Out := .next (s.notifyAck h seq.toNat)

/-- The port index of host `h`. -/
def State.hostPort (s : State) (h : Nat) : Nat := 128 + s.fld (R1 .ETH_RRP_HOST h) F.ETH_RRP_HOST_PORT

/-- A datagram reaches the RRP port: it waits for its host, acknowledges a NOTIFY, or is discarded with RRP_REJECT. -/
def State.rrpArrive (s : State) (i : Nat) (bs : List Byte) : State :=
  let host := (List.range 4).find? fun h =>
    s.flag (R1 .ETH_RRP_HOST h) F.ETH_RRP_HOST_VALID && s.hostPort h = i && (s.rd (R1 .ETH_RRP_HOST_IP h)).toNat = ipSrc bs
  match host with
  | none => (s.count i 29 1).portEvt i F.ETH_PORT_EVT_RRP_REJECT
  | some h =>
    let ws := rrpWords (udpPayload bs)
    let w0 := (ws.headD 0).toNat
    let x := s.rrp.at h
    if w0 / 2 ^ 28 = 1 ∧ w0 / 2 ^ 24 % 16 = 7 then s.notifyAck h (w0 / 2 ^ 12 % 256)
    else if 4 ≤ x.wait.length then s.portEvt i F.ETH_PORT_EVT_RRP_REJECT
    else { s with rrp := s.rrp.set h { x with wait := x.wait ++ [(ws, udpSrc bs)] } }

/-- An event that is routed to host `h` fires: it gathers into the next NOTIFY, each source once (R310). -/
def State.gather (s : State) (h e : Nat) : State :=
  let x := s.rrp.at h
  if x.gather.contains e then s
  else { s with rrp := s.rrp.set h { x with gather := x.gather ++ [e], since := if x.gather.isEmpty then s.tick else x.since } }

/-- The NOTIFY of host `h` goes out. -/
def State.sendNotify (s : State) (h seq : Nat) (es : List Nat) : State :=
  let w0 := w32 (2 ^ 28 + 5 * 2 ^ 24 + seq % 256 * 2 ^ 12 + es.length % 2 ^ 12)
  s.emit (.datagram h (s.fld (R1 .ETH_RRP_HOST h) F.ETH_RRP_HOST_NPORT) (w0 :: Config.notifyWord :: es.map w32))

/-- NOTIFY_SEND: events gathered for 100 µs, at most 256, while no NOTIFY is outstanding. -/
def execNotifySend (h : Fin 4) (s : State) : Out :=
  let x := s.rrp.at h
  let due := decide (x.since + 100 * usTicks ≤ s.tick) || decide (256 ≤ x.gather.length)
  if x.gather.isEmpty ∨ x.notify.isSome ∨ !due then .next s
  else
    let es := x.gather.take 256
    let y := { x with gather := x.gather.drop 256, since := s.tick, notify := some (x.count, es), sentAt := s.tick, retries := 0, count := (x.count + 1) % 256 }
    .next ({ s with rrp := s.rrp.set h y }.sendNotify h x.count es)

/-- NOTIFY_RETRY: 1 ms without an acknowledgement: sent again up to 16 times, then dropped. -/
def execNotifyRetry (h : Fin 4) (s : State) : Out :=
  let x := s.rrp.at h
  match x.notify with
  | none => .next s
  | some (seq, es) =>
    if s.tick < x.sentAt + msTicks then .next s
    else if x.retries < 16 then
      .next ({ s with rrp := s.rrp.set h { x with sentAt := s.tick, retries := x.retries + 1 } }.sendNotify h seq es)
    else .next ({ s with rrp := s.rrp.set h { x with notify := none, since := s.tick } }.portEvt (s.hostPort h) F.ETH_PORT_EVT_NOTIFY_DROP)

/-! ## Management ports (R307, R311) -/

/-- Bit `b` of a wake pattern's mask selects frame byte `b`. -/
def State.wakeBit (s : State) (g k b : Nat) : Bool := bitOf (s.rd { name := .ETH_WAKE_MASK, i := g, j := 32 * k + b / 32 }) (b % 32)

/-- Wake pattern `k` of management port `g` matches a frame with a good FCS. -/
def State.wakeMatches (s : State) (g k : Nat) (bs : List Byte) : Bool :=
  let sel := (List.range 1024).filter (s.wakeBit g k)
  let bits := sel.flatMap fun b => bitsMsb 8 (byteAt bs b)
  s.fld { name := .ETH_WAKE_CTL, i := g, j := k } F.ETH_WAKE_CTL_ACTION != 0 && sel.all (fun b => decide (b < bs.length)) &&
    crc 16 0x1021 0xFFFF bits = s.fld { name := .ETH_WAKE_CTL, i := g, j := k } F.ETH_WAKE_CTL_CRC

/-- The wake patterns that match act (R311): ACTION 2 enables the port and wakes the host region. -/
def State.wakeFrame (s : State) (i : Nat) (bs : List Byte) : State :=
  let g := i - 128
  (List.range 8).foldl (fun (s : State) k =>
    if s.wakeMatches g k bs then
      let s := (s.wr (R1 .ETH_WAKE_HIT g) (s.rd (R1 .ETH_WAKE_HIT g) ||| bit1 k)).portEvt i F.ETH_PORT_EVT_WAKE
      if s.fld { name := .ETH_WAKE_CTL, i := g, j := k } F.ETH_WAKE_CTL_ACTION = 2 then
        { s.setF (R1 .ETH_MG_CFG g) F.ETH_MG_CFG_ENABLE 1 with hostParked := false }
      else s
    else s) s

/-- The IP address of a management port. -/
def State.mgIp (s : State) (i : Nat) : Nat := (s.rd (R1 .ETH_MG_IP (i - 128))).toNat

/-- A frame that is not a flow's is sent. -/
def State.sendFrame (s : State) (i : Nat) (bs : List Byte) : State :=
  let n := bs.length + 4
  (s.emit (.frame i bs)).countTx i n (if hasTag bs then n - 4 else n) (castOf bs)

/-- The answer to an ARP request. -/
def State.arpReply (s : State) (i : Nat) (bs : List Byte) : State :=
  let o := l3Off bs
  let them := (bs.drop (o + 8)).take 6
  let body := beBytes 2 1 ++ beBytes 2 0x0800 ++ beBytes 1 6 ++ beBytes 1 4 ++ beBytes 2 2 ++ s.portMac i ++ beBytes 4 (s.mgIp i) ++
    them ++ (bs.drop (o + 14)).take 4
  s.sendFrame i (them ++ s.portMac i ++ beBytes 2 0x0806 ++ body ++ List.replicate 18 0)

/-- The frame is admitted to the control receive queue (R285). -/
def State.crxAdmits (s : State) (i : Nat) (bs : List Byte) : Bool :=
  macDst bs = s.portMac i || (ptpOff bs).isSome || (isBcast bs && s.flag (R1 .ETH_PORT_CFG i) F.ETH_PORT_CFG_CRX_BCAST) ||
    (isMcast bs && s.flag (R1 .ETH_PORT_CFG i) F.ETH_PORT_CFG_CRX_MCAST)

/-- An accepted frame that no other rule takes is queued where it is admitted, and else discarded. -/
def State.queueFrame (s : State) (i frac flags : Nat) (bs : List Byte) : State :=
  if s.crxAdmits i bs then s.crxFrame i frac flags bs else s.count i 29 1

/-! ## Reception (R284 to R286) -/

/-- An accepted frame is classified; `bad` says that its FCS failed and DELIVER_BAD is 1. -/
def State.acceptFrame (s : State) (i frac : Nat) (bs : List Byte) (bad : Bool) : State :=
  let deliver := s.flag (R1 .ETH_PORT_CFG i) F.ETH_PORT_CFG_DELIVER_BAD
  if isIpv4 bs && !ipOk bs then
    let s := s.count i 26 1
    if deliver then s.queueFrame i frac (b2n bad + 2) bs else s
  else
    let udp := isUdp bs
    let uerr := udp && !udpOk bs
    let s := if uerr then s.count i 27 1 else s
    let flags := b2n bad + 4 * b2n uerr
    if i < 128 then
      match if udp then s.classify i (ipDst bs) (ipSrc bs) (udpDst bs) else none with
      | some r => if s.engStarted 3 (r / 128) then s.flowPacket r (portBank i) (udpPayload bs) (!bad) (!uerr) else s
      | none => (s.count i 28 1).queueFrame i frac flags bs
    else
      let g := i - 128
      let arp := etherType bs = 0x0806 && be16 bs (l3Off bs + 6) = 1 && be32 bs (l3Off bs + 24) = s.mgIp i
      if arp && !bad && s.flag (R1 .ETH_MG_CFG g) F.ETH_MG_CFG_ARP_EN then s.arpReply i bs
      else if udp && !uerr && !bad && ipDst bs = s.mgIp i && udpDst bs = s.fld (R1 .ETH_MG_CFG g) F.ETH_MG_CFG_RRP_PORT then s.rrpArrive i bs
      else s.queueFrame i frac flags bs

/-- The frame is addressed to the port, and its tag, if any, is the port's (R284). -/
def State.accepts (s : State) (i : Nat) (bs : List Byte) : Bool :=
  (macDst bs = s.portMac i || isBcast bs || isMcast bs) &&
    (!hasTag bs || (be16 bs 14 % 4096 = s.fld (R1 .ETH_PORT_CFG i) F.ETH_PORT_CFG_VID && be16 bs 16 != 0x8100))

/-- ETH_FRAME_RECEIVE: a frame from its destination address to its FCS, `frac` 2^-16 ns after the tick; `invalid`: it held an invalid block;
`corr` and `uncorr`: the FEC codewords corrected and uncorrectable since the frame before (R304). -/
def execEthFrameReceive (i : Fin 130) (bytes : List Byte) (invalid : Bool) (frac : Fin 262144) (corr uncorr : Nat) (s : State) : Out :=
  let mg := decide (128 ≤ i.val)
  let len := bytes.length - (if hasTag bytes then 4 else 0)
  let fcs := fcsOk bytes
  let s := if mg && s.portPresent i && fcs && !invalid then s.wakeFrame i bytes else s
  if !s.portPresent i || !s.portUp i || (mg && !s.flag (R1 .ETH_MG_CFG (i.val - 128)) F.ETH_MG_CFG_ENABLE) then .next s
  else
    let s := (if s.fld (R1 .ETH_PORT_STAT i) F.ETH_PORT_STAT_FEC = 0 then s else (s.count i 30 corr).count i 31 uncorr).count i 0 bytes.length
    let small := decide (len < 64)
    let large := decide (9216 < len)
    if invalid then .next (s.count i 25 1)
    else if small ∨ large then .next ((s.count i (if small then (if fcs then 21 else 22) else (if fcs then 23 else 24)) 1).count i 29 1)
    else
      let s := if fcs then s.countGood i bytes.length len (castOf bytes) else s.count i 20 1
      if !fcs && !s.flag (R1 .ETH_PORT_CFG i) F.ETH_PORT_CFG_DELIVER_BAD then .next s
      else if fcs && etherType bytes = 0x8808 then
        .next (if be16 bytes (l3Off bytes) = 1 then s.pauseFrame i (be16 bytes (l3Off bytes + 2)) else s.count i 11 1)
      else if s.accepts i bytes then .next (s.acceptFrame i frac bytes (!fcs))
      else .next (s.count i 29 1)

/-! ## The control transmit queue (R303) -/

/-- The words of a control transmit queue. -/
def ctxWords : Nat := 4096

/-- The free words; a queued entry is listed with its commit count in front. -/
def PortMac.ctxFree (x : PortMac) : Nat := ctxWords - x.ctx.foldl (fun n e => n + (e.length - 1)) 0

/-- A word is appended to the entry being written. -/
def State.ctxPush (s : State) (i : Nat) (v : W32) : State :=
  let x := s.mac i
  if x.ctxOpen.length ≤ ctxWords then s.setMac i { x with ctxOpen := x.ctxOpen ++ [v] } else s

/-- CTX_DATA. -/
def execCtxData (r : Req) (i : Fin 130) (v : W32) (s : State) : Out :=
  .next (s.access r .lanes (s.holdsPort r i) (R1 .ETH_CTX_DATA i).addr v fun s => if s.portPresent i then s.ctxPush i v else s)

/-- Words before the frame in an entry. -/
def ctxHead (w0 : W32) : Nat := if bitOf w0 16 then 3 else 1

/-- The frame of an entry. -/
def ctxBytes (e : List W32) : List Byte :=
  let w0 := e.headD 0
  wordsFrame (w0.toNat % 2 ^ 14) (e.drop (ctxHead w0))

/-- The launch time of a TIMED entry. -/
def ctxLaunch (e : List W32) : Option Nat :=
  if bitOf (e.headD 0) 16 then some ((e.getD 1 0).toNat + (e.getD 2 0).toNat * 2 ^ 32) else none

/-- The time base of an entry. -/
def ctxTb (e : List W32) : Nat := (e.headD 0).toNat / 2 ^ 17 % 4

/-- The time of base `n` in nanoseconds, modulo 2^64. -/
def State.tbWhole (s : State) (n : Nat) : Nat := (s.tbs.at n).t / 2 ^ 48 % 2 ^ 64

/-- The entry being written is discarded with CTX_ERR (R303). -/
def State.ctxBad (s : State) (i : Nat) (e : List W32) : Bool :=
  let w0 := e.headD 0
  let len := w0.toNat % 2 ^ 14
  let far : Bool := match ctxLaunch e with
    | some t => decide (1000000000 < sext 64 (t + 2 ^ 64 - s.tbWhole (ctxTb e)))
    | none => false
  e.isEmpty || decide ((if hasTag (ctxBytes e) then 1522 else 1518) < len + 4) || decide (e.length ≠ ctxHead w0 + (len + 3) / 4) || far ||
    decide ((s.mac i).ctxFree < e.length)

/-- COMMIT: the entry is queued or discarded. -/
def State.ctxCommit (s : State) (i : Nat) : State :=
  let x := s.mac i
  let e := x.ctxOpen
  if s.ctxBad i e then (s.setMac i { x with ctxOpen := [] }).portEvt i F.ETH_PORT_EVT_CTX_ERR
  else
    let p := s.ports.at i
    let s := s.setMac i { x with ctxOpen := [], ctx := x.ctx ++ [w32 (p.committed + 1) :: e] }
    { s with ports := s.ports.set i { p with committed := p.committed + 1 } }

/-- A write of ETH_CTX_CTL: COMMIT, then ABORT. -/
def State.writeCtxCtl (s : State) (i : Nat) (v : W32) : State :=
  if !s.portPresent i then s
  else
    let s := if bitOf v 0 then s.ctxCommit i else s
    if bitOf v 1 then s.setMac i { s.mac i with ctxOpen := [] } else s

/-- CTX_COMMIT. -/
def execCtxCommit (r : Req) (i : Fin 130) (s : State) : Out :=
  .next (s.access r .lanes (s.holdsPort r i) (R1 .ETH_CTX_CTL i).addr 1 fun s => s.writeCtxCtl i 1)

/-- CTX_ABORT. -/
def execCtxAbort (r : Req) (i : Fin 130) (s : State) : Out :=
  .next (s.access r .lanes (s.holdsPort r i) (R1 .ETH_CTX_CTL i).addr 2 fun s => s.writeCtxCtl i 2)

/-- ETH_CTX_STAT (R315). -/
def State.ctxStat (s : State) (i : Nat) : W32 :=
  let x := s.mac i
  w32 (x.ctxFree + x.ctx.length % 2 ^ 12 * 2 ^ 13)

/-- Time on the wire of a frame of `n` bytes with preamble and gap, in 2^-16 ns. -/
def State.wireTime (s : State) (i n : Nat) : Nat := (n + 20) * 8 * nsU / max 1 (s.macRate i)

/-- CONTROL_GAP: a control gap of 1 600 byte-times begins at a multiple of CTRL_PERIOD (R301). -/
def execControlGap (i : Fin 128) (s : State) : Out :=
  if s.portPresent i ∧ s.tick % s.ctrlPeriod i = 0 then
    .next (s.setMac i { s.mac i with gapEnd := s.tick + (1600 * 2 + s.macRate i - 1) / max 1 (s.macRate i) })
  else .next s

/-- What the bank changes in a frame that it sends (R303, R394, R395), and whether it wrote the time into it. `v` is the capture instant in
2^-16 ns on the entry's time base. -/
def State.finishFrame (s : State) (i : Nat) (e : List W32) (v : Nat) : List Byte × Bool :=
  let bs := ctxBytes e
  let bs := if bitOf (e.headD 0) 19 && isUdp bs then putUdpSum (putIpSum bs) else bs
  match ptpOff bs with
  | none => (bs, false)
  | some o =>
    let bs := if s.flag (R1 .PTP_PORT_CFG i) F.PTP_PORT_CFG_ASYM_EN && ptpType bs o = 1 then
        addCorrection bs o (-sext 32 (s.rd (R1 .PTP_ASYM i)).toNat) else bs
    if s.flag (R1 .PTP_PORT_CFG i) F.PTP_PORT_CFG_ONE_STEP && ptpType bs o = 0 && byteAt bs (o + 6) / 2 % 2 = 0 then
      let ns := v / 65536
      (addCorrection (patch bs (o + 34) (beBytes 6 (ns / 1000000000) ++ beBytes 4 (ns % 1000000000))) o ((v % 65536 : Nat) : Int), true)
    else (bs, false)

/-- The entry of the transmit timestamp queue for a frame sent with TS_REQ (R402). -/
def State.txtsEntry (s : State) (i n count : Nat) (adj : Int) (bs : List Byte) (oneStep : Bool) : List W32 :=
  let p := match ptpOff bs with
    | some o => be16 bs (o + 30) + ptpType bs o * 2 ^ 16
    | none => 0xF * 2 ^ 16
  w32 (p + n * 2 ^ 20 + b2n oneStep * 2 ^ 22 + count % 256 * 2 ^ 24) :: s.stampWords i n adj

/-- CONTROL_FRAME_SEND: the frame at the head of the queue is sent when its launch time has come: in a control gap on a media port, between other
frames on a management port (R303). -/
def execControlFrameSend (i : Fin 130) (frac : Fin 262144) (s : State) : Out :=
  let x := s.mac i
  match x.ctx with
  | [] => .next s
  | ce :: rest =>
    let e := ce.drop 1
    let n := ctxTb e
    let now := s.tick * tickU
    let len := (e.headD 0).toNat % 2 ^ 14 + 4
    let dur := s.wireTime i len
    let ahead : Int := match ctxLaunch e with
      | some t => sext 64 (t + 2 ^ 64 - s.tbWhole n)
      | none => 0
    let chance := if i.val < 128 then decide (now + dur ≤ x.gapEnd * tickU) && decide (s.tick < x.gapEnd) else !s.paused i
    if !s.portUp i || decide (now < x.busy) || !chance || decide (0 < ahead) then .next s
    else
      let adj := s.fracOn n frac + sext 32 (s.rd (R1 .PTP_EGRESS i)).toNat
      let v := (((s.tbs.at n).t / 2 ^ 32 : Nat) + adj).toNat
      let f := s.finishFrame i e v
      let s := s.setMac i { x with ctx := rest, busy := now + dur }
      let s := s.raiseIf (decide (ahead ≤ -4)) (R1 .ETH_PORT_EVT i) F.ETH_PORT_EVT_CTX_LATE
      let s := (s.sendFrame i f.1).count i 45 1
      .next (if bitOf (e.headD 0) 20 then (s.noteUncal i).appendTxts i (s.txtsEntry i n (ce.headD 0).toNat adj f.1 f.2) else s)

/-! ## Launching packets (R300, R301) -/

/-- A packet that may start: its flow, launch time, bytes of payload and type. -/
structure Launch where
  flow  : Nat
  at_   : Int
  bytes : Nat
  type  : Nat
deriving DecidableEq, Repr

/-- The bank has sent the packet, or need not. -/
def TxPkt.done (p : TxPkt) (b : Bank) : Bool := !p.par.en b || (match b with | .E => p.sentE | .W => p.sentW)

/-- The packet that a flow sends next in a bank, and the payload bytes before it. -/
def TxFlow.next (x : TxFlow) (b : Bank) : Option (TxPkt × Nat) :=
  let before := x.q.takeWhile fun p => p.done b
  (x.q[before.length]?).map fun p => (p, before.foldl (fun n q => n + q.size) 0)

/-- The packet has been sent in a bank. -/
def TxFlow.sent (x : TxFlow) (b : Bank) : TxFlow :=
  let k := (x.q.takeWhile fun p => p.done b).length
  { x with q := x.q.zipIdx.map fun p => if p.2 = k then (match b with | .E => { p.1 with sentE := true } | .W => { p.1 with sentW := true }) else p.1 }

/-- The packets of the port's flows that are ready and whose launch time has come; none before the packet engine has started (R558). -/
def State.launchable (s : State) (b : Bank) (flows : List Nat) : List Launch :=
  let now := s.cadTime
  (flows.filter fun t => s.engStarted 3 (32 + t / 128)).filterMap fun t =>
    let type := s.txType t
    if type = 1 ∨ type = 2 then
      ((s.txFlows.at t).next b).bind fun p => if p.1.launch ≤ now ∧ p.1.ready ≤ now then some { flow := t, at_ := p.1.launch, bytes := p.1.size, type := type : Launch } else none
    else
      let x := s.txRuns.at (runIx t b)
      x.frame.bind fun g =>
        let ns := (s.tbWhole s.audioTb : Int) - ((g + x.samples - 1) * 1000000000 / s.audRate : Nat) - 20000
        if x.samples ≠ 0 ∧ 0 ≤ ns then some { flow := t, at_ := now - ns * nsU, bytes := (s.audioPayload Side.A t g x type).length, type := type : Launch } else none

/-- The earliest launch time, the lowest flow number among equals. -/
def firstLaunch (ls : List Launch) : Option Launch :=
  ls.foldl (fun o l => match o with
    | none => some l
    | some m => if l.at_ < m.at_ ∨ (l.at_ = m.at_ ∧ l.flow < m.flow) then some l else some m) none

/-- The flows of a port with a copy to send. -/
def State.portFlows (s : State) (i : Nat) : List Nat :=
  let b := portBank i
  s.txListed.filter fun t => s.txPort b t = i ∧
    (if s.txType t = 1 ∨ s.txType t = 2 then (s.txFlows.at t).frame.isSome || (s.txFlows.at t).q != [] else s.txfEn b t) = true

/-- The bytes of a packet on its port in a Side, from its launch FIFO or the audio matrix (R295, R296, R302, R330). -/
def State.launchBytes (s : State) (sd : Side) (i : Nat) (b : Bank) (l : Launch) : List Byte :=
  if l.type = 1 ∨ l.type = 2 then
    match (s.txFlows.at l.flow).next b with
    | some (p, o) =>
      let pay := (s.txBufs.at (2 * l.flow + sd.idx)).read o p.size
      s.mediaFrame i b l.flow p.seq p.rtp p.marker p.par (p.head ++ pay ++ List.replicate (p.size - pay.length) 0)
    | none => []
  else
    let x := s.txRuns.at (runIx l.flow b)
    let g := x.frame.getD 0
    s.mediaFrame i b l.flow ((Config.firstSeq l.flow + x.sent) % 65536) (g % 2 ^ 32) false (s.txPar l.flow) (s.audioPayload sd l.flow g x l.type)

/-- A packet of a flow has passed its launch in a bank. -/
def State.launched (s : State) (b : Bank) (l : Launch) : State :=
  if l.type = 1 ∨ l.type = 2 then ({ s with txFlows := s.txFlows.upd l.flow fun x => x.sent b }).dropSent l.flow
  else { s with txRuns := s.txRuns.upd (runIx l.flow b) fun x => { x with sent := x.sent + 1, frame := x.frame.map (· + x.samples) } }

/-- A block's payload from its eight bytes, the first in [63:56]. -/
def pcsBlock (bs : List Byte) : BitVec 64 := BitVec.ofNat 64 ((List.range 8).foldl (fun n k => 256 * n + byteAt bs k) 0)

/-- The payload of an idle control block, and of an error control block. -/
def idleBlock : BitVec 64 := BitVec.ofNat 64 (0x1E * 2 ^ 56)

/-- An error control block: eight error characters (R174). -/
def errorBlock : BitVec 64 := BitVec.ofNat 64 (0x1E * 2 ^ 56 + (List.range 8).foldl (fun n _ => 128 * n + 0x1E) 0)

/-- The 66-bit blocks of a frame with its preamble and FCS, and an idle block after it, by the coding of IEEE 802.3 (PRESUMED, log entry 131). -/
def pcsFrame (bs : List Byte) : List (Nat × BitVec 64) :=
  let fcs := crc32 (bs.map (·.toNat))
  let body := bs ++ (beBytes 4 fcs).reverse
  let n := body.length / 8
  let ends : List Nat := [0x87, 0x99, 0xAA, 0xB4, 0xCC, 0xD2, 0xE1, 0xFF]
  [(2, pcsBlock [0x78, 0x55, 0x55, 0x55, 0x55, 0x55, 0x55, 0xD5])] ++ ((List.range n).map fun k => (1, pcsBlock ((body.drop (8 * k)).take 8))) ++
    [(2, pcsBlock (BitVec.ofNat 8 (ends.getD (body.length % 8) 0) :: body.drop (8 * n))), (2, idleBlock)]

/-- The blocks of a frame are dealt to the lanes of its port, from the first lane on (log entry 131). -/
def State.dealBlocks (s : State) (i : Nat) (a b : List Byte) : State :=
  let ls := (s.portPlan.at i).lanes
  let n := max 1 ls.length
  let fa := pcsFrame a
  let fb := pcsFrame b
  let k := (fa.length + n - 1) / n
  ls.zipIdx.foldl (fun (s : State) p =>
    let mine : List EthBlk := (List.range k).map fun j =>
      let x := fa.getD (j * n + p.2) (2, idleBlock)
      { hdr := x.1, a := x.2, b := (fb.getD (j * n + p.2) (2, idleBlock)).2, first := decide (j = 0) }
    { s with ethQ := s.ethQ.upd p.1 fun q => q ++ mine }) s

/-- The packets of a port's flows are built as far as the reads have gone. -/
def State.buildPort (s : State) (i : Nat) : State :=
  (s.portFlows i).foldl (fun (s : State) t => if s.txType t = 1 ∨ s.txType t = 2 then s.buildFlow t else s) s

/-- PACKET_LAUNCH: at a block boundary after the previous frame and its gap, the earliest packet that is ready starts, unless it would not end
before the next control gap; while the port sends gap content or its link is down, the packet passes unsent (R300). -/
def execPacketLaunch (i : Fin 128) (s : State) : Out :=
  let b := portBank i
  let x := s.mac i
  let now := s.tick * tickU
  if !s.portPresent i || decide (now < x.busy) || decide (s.tick < x.gapEnd) then .next s
  else
    let s := s.buildPort i
    match firstLaunch (s.launchable b (s.portFlows i)) with
    | none => .next s
    | some l =>
      let t := l.flow
      let bs := s.launchBytes (s.holder.getD .A) i b l
      let bytes := bs.length + 4
      let dur := s.wireTime i bytes
      let gap := (s.tick / s.ctrlPeriod i + 1) * s.ctrlPeriod i * tickU
      if gap < now + dur then .next s
      else
        let sent := s.portUp i && !((s.portPlan.at i).lanes.any fun n => s.flag (R1 .SLU_STAT n) F.SLU_STAT_GAP)
        let late := (s.cadTime - l.at_).toNat
        let act := match b with | .E => F.ETH_TXF_STAT_ACTIVE_E | .W => F.ETH_TXF_STAT_ACTIVE_W
        let s := s.dealBlocks i (s.launchBytes .A i b l) (s.launchBytes .B i b l)
        let s := (s.launched b l).setF (R1 .ETH_TXF_STAT t) act (b2n sent)
        if !sent then .next s
        else
          let s := s.setMac i { s.mac i with busy := now + dur }
          let s := (s.emit (.packet i t bs)).countTx i bytes (if hasTag bs then bytes - 4 else bytes) (castOf bs)
          let k := R1 .ETH_TXF_MAXLATE t
          let s := s.wr k (w32 (satU 32 (max (s.rd k).toNat (late / nsU))))
          .next (if usTicks * tickU < late then (s.addWrap (R1 .ETH_TXF_LATE t) 1).portEvt i F.ETH_PORT_EVT_TX_LATE else s)

/-- A flow has packets to send in a bank: it is enabled there, not muted, and its port sends (R94, R320). -/
def State.flowSends (s : State) (b : Bank) (t : Nat) : Bool :=
  let p := s.txPort b t
  s.txfEn b t && !s.flowMuted t && s.portUp p && !((s.portPlan.at p).lanes.any fun n => s.flag (R1 .SLU_STAT n) F.SLU_STAT_GAP)

/-- ETH_TXF_STAT[t]: BIND, NPKT, and the banks in which packets have left and go on leaving (R320). -/
def State.txfWord (s : State) (t : Nat) : W32 :=
  let w := s.rd (R1 .ETH_TXF_STAT t)
  let act (b : Bank) (f : Fld) (w : W32) : W32 := if s.flowSends b t then w else putF w f 0
  act .E F.ETH_TXF_STAT_ACTIVE_E (act .W F.ETH_TXF_STAT_ACTIVE_W w) ||| w32 (2 ^ 14 * (s.npkt t % 2 ^ 18))

/-! ## Links (R283) -/

/-- LINK_UP. -/
def execLinkUp (i : Fin 130) (s : State) : Out :=
  let k := R1 .ETH_PORT_STAT i.val
  if !s.portPresent i || s.portUp i || !(s.portPlan.at i).lanes.all s.laneReceives ||
      s.bankLost.contains (if i < 128 then portBank i else .E) then .next s
  else
    let s := ((s.setF k F.ETH_PORT_STAT_LINK 1).setF k F.ETH_PORT_STAT_LOCAL_FAULT 0).setF k F.ETH_PORT_STAT_REMOTE_FAULT 0
    .next (s.portEvt i F.ETH_PORT_EVT_LINK_UP)

/-- LINK_DOWN; with local fault detected or remote fault received, or neither. -/
def execLinkDown (i : Fin 130) (localFault remoteFault : Bool) (s : State) : Out :=
  let k := R1 .ETH_PORT_STAT i.val
  if !s.portPresent i then .next s
  else .next (((s.portDown i).setF k F.ETH_PORT_STAT_LOCAL_FAULT (b2n localFault)).setF k F.ETH_PORT_STAT_REMOTE_FAULT (b2n remoteFault))

end Sys2Proof.Machine
end

