-- ==== Sys2Proof/Machine/Events.lean ====
section
/-!
DEFINITION. Events (chapter 16): routes, the delivery of a source that fires, MSI-X vectors, and the writes of the event registers.
-/
namespace Sys2Proof.Machine

/-! ## Sources and routes (R497 to R499) -/

/-- The Side of an event source, where it is a source of a Side. -/
def sourceSide (e : Nat) : Option Side := if e < 640 then some .A else if e < 1280 then some .B else none

/-- A source is ACTIVE: its STATUS and its ENABLE are 1 (R498). -/
def State.active (s : State) (e : Nat) : Bool :=
  bitOf (s.rd (R1 .EVT_STATUS (e / 32))) (e % 32) && bitOf (s.rd (R1 .EVT_ENABLE (e / 32))) (e % 32)

/-- Where an event goes (R499). -/
inductive Dest where
  | none
  | vector (port v : Nat)
  | host (h : Nat)
  | aoIrq
  | cpu (r : Req)
deriving DecidableEq, Repr

/-- The destination that a route word gives source `e`. -/
def destOf (e : Nat) (w : W32) : Dest :=
  match getF w F.EVT_ROUTE_DEST with
  | 1 => .vector 0 (getF w F.EVT_ROUTE_VECTOR)
  | 2 => .vector 1 (getF w F.EVT_ROUTE_VECTOR)
  | 3 => .host (getF w F.EVT_ROUTE_HOST)
  | 4 => .aoIrq
  | 5 => match sourceSide e with
    | some sd => .cpu (Req.ofSide sd)
    | Option.none => .cpu (match getF w F.EVT_ROUTE_CPU with
      | 0 => .fwA | 1 => .fwB | _ => .boot)
  | _ => .none

/-- The destination of source `e`. -/
def State.dest (s : State) (e : Nat) : Dest := destOf e (s.rd (R1 .EVT_ROUTE e))

/-- The requester that a destination serves (R499). -/
def Dest.requester : Dest → Option Nat
  | .vector p _ => some (1 + p)
  | .host h => some (3 + h)
  | .cpu r => some r.num
  | _ => Option.none

/-- Some ACTIVE source is routed to a destination; an unrouted source's EVT_ROUTE is not listed. -/
def State.asserted (s : State) (d : Dest) : Bool :=
  s.regs.any fun (p : RegKey × W32) => decide (p.1.name = .EVT_ROUTE) && decide (p.1.i < 1536) && decide (destOf p.1.i p.2 = d) && s.active p.1.i

/-- AO_IRQ_N is driven low (R499). -/
def State.aoIrq (s : State) : Bool := !s.aoReset && s.asserted .aoIrq

/-- A processor's interrupt is asserted (R499). -/
def State.cpuIrq (s : State) (r : Req) : Bool := s.asserted (.cpu r)

/-! ## MSI-X (R500) -/

/-- A host port sends no message of a vector: it is masked, MSI-X is disabled or Bus Master Enable is 0. -/
def State.msixBlocked (s : State) (p v : Nat) : Bool :=
  !s.flag (R1 .STR_HP_STAT p) F.STR_HP_STAT_MSIX_EN || !s.flag (R1 .STR_HP_STAT p) F.STR_HP_STAT_BME || !(s.msixOpen.at p).getLsbD v

/-- A vector rises: its message is sent, or its pending bit is set. -/
def State.vectorRise (s : State) (p v : Nat) : State :=
  let x := 64 * p + v
  let s : State := { s with vecHigh := s.vecHigh ++ [x] }
  if s.msixBlocked p v then (if s.msixPend.contains x then s else { s with msixPend := s.msixPend ++ [x] })
  else s.emit (.msix p v)

/-- The assertion of every vector is recomputed: vectors that fell lose their pending bit, vectors that rose send their message. -/
def State.vectors (s : State) : State :=
  let keep := s.vecHigh.filter fun x => s.asserted (.vector (x / 64) (x % 64))
  let s : State := { s with vecHigh := keep, msixPend := s.msixPend.filter fun x => keep.contains x }
  (List.range 128).foldl (fun (s : State) x =>
    if !s.vecHigh.contains x && s.asserted (.vector (x / 64) (x % 64)) then s.vectorRise (x / 64) (x % 64) else s) s

/-- A source that has fired reaches its destination; levels follow from the registers themselves. -/
def State.deliverEvent (s : State) (e : Nat) : State :=
  match s.dest e with
  | .vector p v => if s.vecHigh.contains (64 * p + v) then s else s.vectorRise p v
  | .host h => s.gather h e
  | _ => s

/-- Every source that has fired reaches its destination, in the order in which they fired. -/
def State.flushEvents (s : State) : State := s.fired.foldl State.deliverEvent { s with fired := [] }

/-- EVENT_FIRE: the source that has fired first reaches its destination (R498 to R500). -/
def execEventFire (s : State) : Out :=
  match s.fired with
  | [] => .next s
  | e :: es => .next ({ s with fired := es }.deliverEvent e)

/-- MSIX_UNBLOCK: a host port's Bus Master Enable, MSI-X enable and mask bits take the given values (bit v of `masks`: vector v is masked);
a vector whose block is lifted while its pending bit is set sends its message. -/
def execMsixUnblock (p : Fin 2) (bme en : Bool) (masks : BitVec 64) (s : State) : Out :=
  let k := R1 .STR_HP_STAT p.val
  let s := s.flushEvents
  let s := (s.setF k F.STR_HP_STAT_BME (b2n bme)).setF k F.STR_HP_STAT_MSIX_EN (b2n en)
  let s : State := { s with msixOpen := s.msixOpen.set p (~~~masks) }
  .next ((List.range 64).foldl (fun (s : State) v =>
    let x := 64 * p.val + v
    if s.msixPend.contains x && !s.msixBlocked p v then
      { s with msixPend := s.msixPend.filter fun y => decide (y ≠ x) }.emit (.msix p v)
    else s) s)

/-! ## Writes (R501) -/

/-- The bits of a word that are set. -/
def bitsOf (v : W32) : List Nat := (List.range 32).filter fun j => bitOf v j

/-- The requester is the route requester of source `e`. -/
def State.isRouteReq (s : State) (r : Req) (e : Nat) : Bool := (s.dest e).requester == some r.num

/-- The requester is the firmware of the source's Side. -/
def isSourceFw (r : Req) (e : Nat) : Bool := match sourceSide e with
  | some sd => decide (r = Req.ofSide sd)
  | none => false

/-- A write of EVT_STATUS is admitted. -/
def State.mayStatus (s : State) (r : Req) (k : Nat) (v : W32) : Bool :=
  (bitsOf (v &&& s.rd (R1 .EVT_STATUS k))).all fun j => is7or10 r || s.isRouteReq r (32 * k + j) || isSourceFw r (32 * k + j)

/-- A write of EVT_ENABLE is admitted. -/
def State.mayEnable (s : State) (r : Req) (k : Nat) (v : W32) : Bool :=
  (bitsOf (v ^^^ s.rd (R1 .EVT_ENABLE k))).all fun j => is7or10 r || s.isRouteReq r (32 * k + j)

/-- The stored fields of EVT_ROUTE. -/
def routeMask : W32 := 0x1FFF#32

/-- A write of EVT_ROUTE is admitted. -/
def State.mayRoute_ (s : State) (r : Req) (e : Nat) (v : W32) : Bool :=
  decide (v &&& routeMask = s.rd (R1 .EVT_ROUTE e)) || is7or10 r || s.isRouteReq r e

/-- A 1 written to EVT_SET for source `e` is admitted: FW sources of a Side from its firmware and requester 10, SW sources from any (R497). -/
def maySet (r : Req) (e : Nat) : Bool :=
  if e < 1280 then decide (128 ≤ e % 640) && (isSourceFw r e || decide (r = .boot)) else decide (1408 ≤ e)

/-- EVT_STATUS[k] as written: 1s clear. -/
def State.writeEvtStatus (s : State) (k : Nat) (v : W32) : State := (s.flushEvents.clearW (R1 .EVT_STATUS k) v).vectors

/-- EVT_ENABLE[k] as written: sources enabled while their STATUS is 1 fire. -/
def State.writeEvtEnable (s : State) (k : Nat) (v : W32) : State :=
  let s := s.flushEvents
  let up := bitsOf (v &&& ~~~(s.rd (R1 .EVT_ENABLE k)) &&& s.rd (R1 .EVT_STATUS k))
  let s := s.wr (R1 .EVT_ENABLE k) v
  ((up.map (32 * k + ·)).foldl State.deliverEvent s).vectors

/-- EVT_ROUTE[e] as written. -/
def State.writeEvtRoute (s : State) (e : Nat) (v : W32) : State := (s.flushEvents.wr (R1 .EVT_ROUTE e) (v &&& routeMask)).vectors

/-- EVT_SET[k] as written. -/
def State.writeEvtSet (s : State) (k : Nat) (v : W32) : State := (bitsOf v).foldl (fun (s : State) j => s.setSource (32 * k + j)) s

/-- EVT_STATUS_WRITE. -/
def execEvtStatusWrite (r : Req) (k : Fin 48) (v : W32) (s : State) : Out :=
  .next (s.access r .ao (s.mayStatus r k v) (R1 .EVT_STATUS k).addr v fun s => s.writeEvtStatus k v)

/-- EVT_ENABLE_WRITE. -/
def execEvtEnableWrite (r : Req) (k : Fin 48) (v : W32) (s : State) : Out :=
  .next (s.access r .ao (s.mayEnable r k v) (R1 .EVT_ENABLE k).addr v fun s => s.writeEvtEnable k v)

/-- EVT_ROUTE_WRITE. -/
def execEvtRouteWrite (r : Req) (e : Fin 1536) (v : W32) (s : State) : Out :=
  .next (s.access r .ao (s.mayRoute_ r e v) (R1 .EVT_ROUTE e).addr v fun s => s.writeEvtRoute e v)

/-- EVT_SET_WRITE. -/
def execEvtSetWrite (r : Req) (k : Fin 48) (v : W32) (s : State) : Out :=
  .next (s.access r .ao ((bitsOf v).all fun j => maySet r (32 * k + j)) (R1 .EVT_SET k).addr v fun s => s.writeEvtSet k v)

end Sys2Proof.Machine
end

