-- ==== Sys2Proof/Machine/Mailbox.lean ====
section
/-!
DEFINITION. The mailboxes (chapter 16).
-/
namespace Sys2Proof.Machine

/-- The state of a mailbox: 0 FREE, 1 LOCKED, 2 FULL, 3 ACKED. -/
def State.mbxState (s : State) (b : Nat) : Nat := s.fld (R1 .MBX_STAT b) F.MBX_STAT_STATE

/-- The owner's requester number; 0 none. -/
def State.mbxOwner (s : State) (b : Nat) : Nat := s.fld (R1 .MBX_STAT b) F.MBX_STAT_OWNER

/-- The receiver's requester number; 0 none. -/
def State.mbxReceiver (s : State) (b : Nat) : Nat := s.fld (R1 .MBX_CFG b) F.MBX_CFG_RECEIVER

/-- The mailbox with another state. -/
def State.mbxTo (s : State) (b st : Nat) : State := s.setF (R1 .MBX_STAT b) F.MBX_STAT_STATE st

/-- A sticky bit of a mailbox. -/
def State.mbxEvt (s : State) (b : Nat) (f : Fld) : State := s.raise (R1 .MBX_EVT b) f

/-- The mailbox is released: its words and its acknowledge are 0, and it is FREE (R493). -/
def State.mbxFree (s : State) (b : Nat) : State :=
  let s := (List.range 16).foldl (fun (s : State) w => s.wr (R2 .MBX_MSG b w) 0) s
  ((s.wr (R1 .MBX_ACK b) 0).setF (R1 .MBX_STAT b) F.MBX_STAT_OWNER 0).mbxTo b 0

/-- A read of MBX_LOCK (R493). -/
def State.readMbxLock (s : State) (r : Req) (b : Nat) : W32 × State :=
  if s.mbxState b = 0 then (0, (s.setF (R1 .MBX_STAT b) F.MBX_STAT_OWNER r.num).mbxTo b 1)
  else if s.mbxOwner b = r.num then (0, s)
  else (w32 (s.mbxOwner b), s)

/-- The requester owns the mailbox. -/
def State.mbxOwns (s : State) (r : Req) (b : Nat) : Bool := decide (s.mbxOwner b = r.num)

/-- The requester is the mailbox's receiver. -/
def State.mbxReceives (s : State) (r : Req) (b : Nat) : Bool := decide (s.mbxReceiver b = r.num)

/-- The requester may read the message (R494). -/
def State.mayReadMsg (s : State) (r : Req) (b : Nat) : Bool := s.mbxOwns r b || s.mbxReceives r b || is7or10 r

/-- The owner writes a message word. -/
def State.writeMbxMsg (s : State) (b w : Nat) (v : W32) : State :=
  if s.mbxState b = 1 then s.wr (R2 .MBX_MSG b w) v else s.mbxEvt b F.MBX_EVT_WRITE_WHILE_FULL

/-- The owner writes the doorbell. -/
def State.writeDoorbell (s : State) (b : Nat) (v : W32) : State :=
  if !bitOf v 0 then s
  else if s.mbxState b = 1 then (s.mbxTo b 2).setSource (sharedSrc b)
  else s.mbxEvt b F.MBX_EVT_WRITE_WHILE_FULL

/-- The receiver acknowledges. -/
def State.writeMbxAck (s : State) (b : Nat) (v : W32) : State :=
  if s.mbxState b = 2 then ((s.wr (R1 .MBX_ACK b) ((v &&& 0xFFFFFF#32) ||| F.MBX_ACK_VALID.mask)).mbxTo b 3).setSource (sharedSrc (32 + b))
  else s.mbxEvt b F.MBX_EVT_ACK_ERR

/-- The owner, or requester 7 or 10 in its place, writes RELEASE. -/
def State.writeRelease (s : State) (r : Req) (b : Nat) (v : W32) : State :=
  if !bitOf v 0 then s
  else if s.mbxOwns r b then (if s.mbxState b = 2 then s.mbxEvt b F.MBX_EVT_REL_BUSY else s.mbxFree b)
  else if s.mbxState b = 0 then s
  else (s.mbxFree b).mbxEvt b F.MBX_EVT_FORCED

/-- RECEIVER is written; only a FREE mailbox takes it (R503). -/
def State.writeMbxCfg (s : State) (b : Nat) (v : W32) : State :=
  if s.mbxState b = 0 then
    (s.wr (R1 .MBX_CFG b) (v &&& 0xF#32)).setF (R1 .MBX_STAT b) F.MBX_STAT_RECEIVER (v.toNat % 16)
  else s

/-- MBX_LOCK_READ. -/
def execMbxLockRead (r : Req) (b : Fin 32) (be : Fin 16) (s : State) : Out :=
  .next (s.readAccess r be .ao true (R1 .MBX_LOCK b).addr fun s => s.readMbxLock r b)

/-- MBX_MSG_WRITE. -/
def execMbxMsgWrite (r : Req) (b : Fin 32) (w : Fin 16) (v : W32) (s : State) : Out :=
  .next (s.access r .ao (s.mbxOwns r b) (R2 .MBX_MSG b w).addr v fun s => s.writeMbxMsg b w v)

/-- MBX_DOORBELL. -/
def execMbxDoorbell (r : Req) (b : Fin 32) (v : W32) (s : State) : Out :=
  .next (s.access r .ao (s.mbxOwns r b) (R1 .MBX_DOORBELL b).addr v fun s => s.writeDoorbell b v)

/-- MBX_ACK_WRITE. -/
def execMbxAckWrite (r : Req) (b : Fin 32) (v : W32) (s : State) : Out :=
  .next (s.access r .ao (s.mbxReceives r b) (R1 .MBX_ACK b).addr v fun s => s.writeMbxAck b v)

/-- MBX_RELEASE. -/
def execMbxRelease (r : Req) (b : Fin 32) (v : W32) (s : State) : Out :=
  .next (s.access r .ao (s.mbxOwns r b || is7or10 r) (R1 .MBX_CTL b).addr v fun s => s.writeRelease r b v)

/-- MBX_CFG_WRITE. -/
def execMbxCfgWrite (r : Req) (b : Fin 32) (v : W32) (s : State) : Out :=
  .next (s.access r .ao (is7or10 r) (R1 .MBX_CFG b).addr v fun s => s.writeMbxCfg b v)

end Sys2Proof.Machine
end

