-- ==== Sys2Proof/Machine/Strata.lean ====
section
/-!
DEFINITION. Strata (chapter 15): locked sequences and bulk transfer through the window.
-/
namespace Sys2Proof.Machine

/-! ## Locked sequences (R476 to R478) -/

/-- A write of STR_LOCK by a requester. -/
def State.writeStrLock (s : State) (r : Req) (v : W32) : State :=
  let t := getF v F.STR_LOCK_TARGET
  if bitOf v 5 then s.dropLock r
  else if bitOf v 4 then
    if 12 ≤ t ∨ (s.lockOf r).isSome = true then s.raise (RB .STR_ERR r 0) F.STR_ERR_LOCK_ERR
    else { s with locks := s.locks ++ [{ req := r.num, target := t, asked := s.tick }] }
  else s

/-- STR_LOCK_STAT as a requester reads it. -/
def State.strLockStat (s : State) (r : Req) : W32 :=
  match s.lockOf r with
  | some l => w32 (l.target + 16 * b2n l.since.isNone + 32 * b2n l.since.isSome + 64 * l.beats)
  | none => 0

/-- STR_LOCK_GO. -/
def execStrLockGo (r : Req) (t : Fin 16) (s : State) : Out :=
  .next (s.access r .strata true (R0 .STR_LOCK).addr (w32 (t + 16)) fun s => s.writeStrLock r (w32 (t + 16)))

/-- STR_LOCK_RELEASE. -/
def execStrLockRelease (r : Req) (s : State) : Out :=
  .next (s.access r .strata true (R0 .STR_LOCK).addr 32 fun s => s.writeStrLock r 32)

/-- The QoS of the transactions of a master (R475, R488). -/
def State.qos (s : State) (m : Nat) : Nat := s.fld (R1 .STR_MCFG m) F.STR_MCFG_QOS

/-- The master port of a requester number. -/
def masterOfNum (n : Nat) : Nat := ((Req.ofNum n).map reqMaster).getD 0

/-- A lock request comes before another: it arrived earlier; in one cycle, its QoS is higher, or its requester number lower (R476). -/
def State.lockBefore (s : State) (a b : Lock) : Bool :=
  let qa := s.qos (masterOfNum a.req)
  let qb := s.qos (masterOfNum b.req)
  decide (a.asked < b.asked) || (decide (a.asked = b.asked) && (decide (qb < qa) || (decide (qa = qb) && decide (a.req < b.req))))

/-- The request for target `t` that is granted next. -/
def State.nextLock (s : State) (t : Nat) : Option Lock :=
  (s.locks.filter fun l => decide (l.target = t) && l.since.isNone).foldl (fun o l => match o with
    | none => some l
    | some b => if s.lockBefore l b then some l else some b) none

/-- STR_LOCK_GRANT: no requester holds a lock on the target, and the request that comes first is granted (R476). -/
def execStrLockGrant (t : Fin 12) (s : State) : Out :=
  if s.locks.any fun l => decide (l.target = t.val) && l.since.isSome then .next s
  else .next (match s.nextLock t with
    | some x => { s with locks := s.locks.map fun l => if l = x then { l with since := some s.tick } else l }
    | none => s)

/-- LOCK_FORCED: a lock of 64 beats or 2 µs is released by force. -/
def execLockForced (r : Req) (s : State) : Out :=
  match s.lockOf r with
  | some { since := some t, beats := n, .. } =>
    if 64 ≤ n ∨ t + 2 * usTicks ≤ s.tick then
      .next (((s.dropLock r).raise (RB .STR_ERR r 0) F.STR_ERR_LOCK_BROKEN).raise (R0 .STR_EVT) F.STR_EVT_LOCK_FORCED)
    else .next s
  | _ => .next s

/-! ## The flashes -/

/-- The byte of a flash (R482). -/
def State.flashByte (s : State) (f a : Nat) : Byte := if f = 0 then Sparse.get (Config.flashByte 0) s.flash0 a else Sparse.get (Config.flashByte 1) s.flash1 a

/-- The state with a byte of a flash written. -/
def State.putFlash (s : State) (f a : Nat) (b : Byte) : State :=
  if f = 0 then { s with flash0 := Sparse.put natLt (Config.flashByte 0) s.flash0 a b }
  else { s with flash1 := Sparse.put natLt (Config.flashByte 1) s.flash1 a b }

/-- The little-endian word of a flash. -/
def State.flashWord (s : State) (f a : Nat) : W32 :=
  w32 ((s.flashByte f a).toNat + (s.flashByte f (a + 1)).toNat * 0x100 + (s.flashByte f (a + 2)).toNat * 0x10000 +
    (s.flashByte f (a + 3)).toNat * 0x1000000)

/-- The state with little-endian words of a flash written from an address on. -/
def State.putFlashWords (s : State) (f a : Nat) (ws : List W32) : State :=
  (ws.zipIdx).foldl (fun (s : State) (p : W32 × Nat) =>
    (List.range 4).foldl (fun (s : State) j => s.putFlash f (a + 4 * p.2 + j) (p.1.extractLsb' (8 * j) 8)) s) s

/-! ## HBM's regions (R433) -/

/-- A number of bytes as whole pages of 2 MiB. -/
def pageBytes (n : Nat) : Nat := (n + 0x1FFFFF) / 0x200000 * 0x200000

/-- The bytes of one graphics copy of head `h`. -/
def State.gfxBytes (s : State) (h : Nat) : Nat := 4 * s.contentSize 0 h 0

/-- The bytes of one frame in head `h`'s frame store, header included (R379). -/
def State.storeBytes (s : State) (h : Nat) : Nat := 4 * (4 + (s.headPlan.at h).fmt.frameWords + (s.headPlan.at h).fmt.marks)

/-- The heads that ALLOY_PLAN defines. -/
def State.headsPresent (s : State) : List Nat := (List.range 32).filter fun h => (s.headPlan.at h).present

/-- HBM_MAP[r], the pages of the regions in the order of R433's table; the spec gives no size for the audio, tile and backlog regions. -/
def State.hbmMap (s : State) (r : Nat) : Nat :=
  let pages (f : Nat → Nat) : Nat := s.headsPresent.foldl (fun n h => n + 2 * (pageBytes (f h) / 0x200000)) 0
  match r with
  | 0 => pages s.gfxBytes
  | 1 => pages s.storeBytes
  | 2 => 128 * s.capPlan.length
  | 3 => s.benchPlan.pages
  | _ =>
    let any : Bool := match r with
      | 4 => s.audDst.any fun e => decide (e.2.delayMax ≠ 0)
      | 5 => s.tileHead.any fun e => e.2.isSome
      | _ => s.regs.any fun e => decide (e.1.name = .ETH_TXF_CFG) && getF e.2 F.ETH_TXF_CFG_SENDER = 0 && (getF e.2 F.ETH_TXF_CFG_TYPE = 1 || getF e.2 F.ETH_TXF_CFG_TYPE = 2)
    if any then (Config.hbmPages r ((List.range 8).map fun i => s.rd (R1 .UMW_HASH i))).toNat else 0

/-- What a logical address of HBM lies in. -/
inductive HbmPlace where
  | gfx (h : Nat)
  | store (h : Nat)
  | capture (t : Nat)
  | unbacked
deriving DecidableEq, Repr

/-- The region of a logical address, where a page backs it. -/
def State.hbmPlace (s : State) (a : Nat) : HbmPlace :=
  if 0x400000000 ≤ a then
    let t := (a - 0x400000000) / 0x10000000
    if t < 64 ∧ s.capPlan.contains t = true then .capture t else .unbacked
  else if 0x300000000 ≤ a then
    let x := (a - 0x300000000) / 0x4000000
    let o := (a - 0x300000000) % 0x4000000
    let h := if x % 2 = 1 ∧ (s.headPlan.at (x - 1)).pair = true then x - 1 else x
    let p := s.headPlan.at h
    let o' := if p.pair then o else o % 0x2000000
    if x < 32 ∧ p.present = true ∧ o' < pageBytes (s.storeBytes h) then .store h else .unbacked
  else if 0x200000000 ≤ a then
    let h := (a - 0x200000000) / 0x5000000
    let o := (a - 0x200000000) % 0x2800000
    if h < 32 ∧ (s.headPlan.at h).present = true ∧ o < pageBytes (s.gfxBytes h) then .gfx h else .unbacked
  else .unbacked

/-! ## The window (R481 to R483) -/

/-- The target of WIN_CTL.TARGET. -/
def winTarget : Nat → Option Target
  | 6 => some .hbmA | 7 => some .hbmB | 8 => some .flash | 10 => some .sramA | 11 => some .sramB
  | _ => none

/-- A requester's WIN_ADDR. -/
def State.winAddr (s : State) (r : Req) : Nat := s.fld (RB .WIN_ADDR_HI r 0) ⟨0, 8⟩ * 2 ^ 32 + s.fld (RB .WIN_ADDR_LO r 0) ⟨2, 30⟩ * 4

/-- The state with a requester's WIN_ADDR replaced. -/
def State.setWinAddr (s : State) (r : Req) (a : Nat) : State :=
  (s.wr (RB .WIN_ADDR_LO r 0) (w32 (a / 4 * 4 % 2 ^ 32))).wr (RB .WIN_ADDR_HI r 0) (w32 (a / 2 ^ 32 % 256))

/-- How a window access fares. -/
inductive WinVerdict where
  | unmapped | denied | unbacked (sd : Side) | twinOnly | idle | ok
deriving DecidableEq, Repr

/-- The check of an access to a Side's HBM (R482). -/
def State.winHbm (s : State) (r : Req) (sd : Side) (a : Nat) (write : Bool) : WinVerdict :=
  if !s.live sd then .idle
  else match s.hbmPlace a with
    | .capture t => if s.holdsDest r (1280 + t) then .ok else .denied
    | .store h => if s.holdsHead r h then .ok else .denied
    | .gfx h => if write then .twinOnly else if s.holdsHead r h then .ok else .denied
    | .unbacked => .unbacked sd

/-- The check of a window access that requester `r` makes through master `m` (R471, R481, R482). -/
def State.winCheck (s : State) (m : Nat) (r : Req) (t a : Nat) (write : Bool) : WinVerdict :=
  match winTarget t with
  | none => .unmapped
  | some .hbmA => if pathOf m .hbmA then s.winHbm r .A a write else .denied
  | some .hbmB => if pathOf m .hbmB then s.winHbm r .B a write else .denied
  | some .flash => if !pathOf m .flash || write || !is7or10 r then .denied else if 2 ^ 33 ≤ a then .unmapped else .ok
  | some x =>
    if 0x800000 ≤ a then .unmapped
    else if pathOf m x && (r = .boot || r = (if x = .sramA then Req.fwA else Req.fwB)) then .ok else .denied

/-- The word at an address of a window target. -/
def State.winWord (s : State) (t a : Nat) : W32 :=
  match winTarget t with
  | some .hbmA => memWord s.hbmA a
  | some .hbmB => memWord s.hbmB a
  | some .flash => s.flashWord (a / 2 ^ 32) (a % 2 ^ 32)
  | some .sramA => memWord s.sramA a
  | some .sramB => memWord s.sramB a
  | _ => 0

/-- The state with a word of a window target written. -/
def State.winPut (s : State) (t a : Nat) (v : W32) : State :=
  match winTarget t with
  | some .hbmA => { s with hbmA := memPutWord s.hbmA a v }
  | some .hbmB => { s with hbmB := memPutWord s.hbmB a v }
  | some .sramA => { s with sramA := memPutWord s.sramA a v }
  | some .sramB => { s with sramB := memPutWord s.sramB a v }
  | _ => s

/-- Words read ahead from an address, as far as the requester may read, at most `n`. -/
def State.readAhead (s : State) (m : Nat) (r : Req) (t : Nat) : Nat → Nat → List W32
  | 0, _ => []
  | n + 1, a => if s.winCheck m r t a false = .ok then s.winWord t a :: s.readAhead m r t n ((a + 4) % 2 ^ 40) else []

/-- What a window access that is not admitted sets. -/
def State.winRefuse (s : State) (r : Req) (a : Nat) : WinVerdict → State
  | .unmapped => s.raise (RB .STR_ERR r 0) F.STR_ERR_UNMAPPED
  | .denied => s.denied r true a
  | .unbacked sd => s.raise (RS .HBM_EVT sd 0) F.HBM_EVT_UNMAPPED
  | .twinOnly => s.raise (RB .SYS_STATUS r 0) F.SYS_STATUS_TWIN_ONLY
  | _ => s

/-- WIN_ADDR advances by 4, unless FIXED is 1. -/
def State.winAdvance (s : State) (r : Req) : State :=
  if s.flag (RB .WIN_CTL r 0) F.WIN_CTL_FIXED then s else s.setWinAddr r ((s.winAddr r + 4) % 2 ^ 40)

/-- A window read: the word, and the state in which Strata has read `ahead` words ahead. -/
def State.winRead (s : State) (m : Nat) (r : Req) (ahead : Nat) : W32 × State :=
  let t := s.fld (RB .WIN_CTL r 0) F.WIN_CTL_TARGET
  let a := s.winAddr r
  let v := s.winCheck m r t a false
  if v = .ok then
    let buf := s.winBuf.at r.num
    let w := buf.headD (s.winWord t a)
    let s := s.winAdvance r
    let fetches := !s.flag (RB .WIN_CTL r 0) F.WIN_CTL_FIXED && decide (6 ≤ t) && decide (t ≤ 8)
    let next := if fetches then
      let rest := buf.drop 1
      rest ++ s.readAhead m r t (ahead - rest.length) ((a + 4 + 4 * rest.length) % 2 ^ 40) else []
    (w, { s with winBuf := s.winBuf.set r.num next })
  else
    let s := (s.winRefuse r a v).winAdvance r
    (if v = .denied then deniedWord else 0, { s with winBuf := s.winBuf.set r.num ((s.winBuf.at r.num).drop 1) })

/-- A window write of a whole word. -/
def State.winWrite (s : State) (m : Nat) (r : Req) (w : W32) : State :=
  let t := s.fld (RB .WIN_CTL r 0) F.WIN_CTL_TARGET
  let a := s.winAddr r
  let v := s.winCheck m r t a true
  let s := if v = .ok then s.winPut t a w else s.winRefuse r a v
  let s := s.winAdvance r
  { s with winBuf := s.winBuf.set r.num ((s.winBuf.at r.num).drop 1) }

/-- A window write whose byte enables are not all set: the checks that come before the byte enables stand (R3). -/
def State.winPartial (s : State) (m : Nat) (r : Req) : State :=
  let a := s.winAddr r
  let v := s.winCheck m r (s.fld (RB .WIN_CTL r 0) F.WIN_CTL_TARGET) a true
  if v = .unmapped ∨ v = .denied then
    let s := (s.winRefuse r a v).winAdvance r
    { s with winBuf := s.winBuf.set r.num ((s.winBuf.at r.num).drop 1) }
  else s.raise (RB .SYS_STATUS r 0) F.SYS_STATUS_PARTIAL_WR

/-- A lock of another requester on the window's target makes the access wait (R477). -/
def State.winWaits (s : State) (r : Req) : Bool := s.lockedOut r (s.fld (RB .WIN_CTL r 0) F.WIN_CTL_TARGET)

/-- One window access. -/
def State.winAccess (s : State) (m : Nat) (r : Req) (data : Option W32) (full : Bool) (ahead : Nat) : W32 × State :=
  let s := s.countBeat m r (s.fld (RB .WIN_CTL r 0) F.WIN_CTL_TARGET)
  match data with
  | none => s.winRead m r ahead
  | some w => (0, if full then s.winWrite m r w else s.winPartial m r)

/-- WIN_DATA_ACCESS: a read (no word) or a write with its byte enables; after a read Strata has read up to `ahead` words ahead (R483). -/
def execWinDataAccess (r : Req) (data : Option W32) (be : Fin 16) (ahead : Fin 17) (s : State) : Out :=
  .next (
    if s.aoReset then s
    else if s.hasWaiting r ∨ s.winWaits r then
      s.wait { master := reqMaster r, req := r, target := s.fld (RB .WIN_CTL r 0) F.WIN_CTL_TARGET, addr := w32 (R0 .WIN_DATA).addr, data := data, be := be, ahead := ahead }
    else
      let p := s.winAccess (reqMaster r) r data (be = 15) ahead
      if data.isNone then p.2.answer r (bytesOf be p.1) else p.2)

/-- The register that a WIN_ADDR_WRITE names and the mask of its fields. -/
def WinReg.reg : WinReg → RegName × W32
  | .ctl => (.WIN_CTL, 0x1F#32)
  | .lo => (.WIN_ADDR_LO, 0xFFFFFFFC#32)
  | .hi => (.WIN_ADDR_HI, 0xFF#32)

/-- A write of WIN_CTL or WIN_ADDR discards the prefetched words (R483). -/
def State.writeWin (s : State) (r : Req) (g : WinReg) (v : W32) : State :=
  { s.wr (RB g.reg.1 r 0) (v &&& g.reg.2) with winBuf := s.winBuf.set r.num [] }

/-- WIN_ADDR_WRITE. -/
def execWinAddrWrite (r : Req) (reg : WinReg) (v : W32) (s : State) : Out :=
  .next (s.access r .strata true (R0 reg.reg.1).addr v fun s => s.writeWin r reg v)

end Sys2Proof.Machine
end

