-- ==== Sys2Proof/Machine/Boot.lean ====
section
/-!
DEFINITION. Full resets, the boot sequence, loading a structure and a Side's firmware, and region images (chapter 18).
-/
namespace Sys2Proof.Machine

/-! ## AO_RESET_N (R8, R554, R562) -/

/-- The device after a full reset of a cause: what OTP, the flashes and the world outside hold is not lost, everything else takes its reset value. -/
def State.fullReset (s : State) (cause : Nat) : State :=
  { State.reset with
    pending := s.pending
    out := s.out
    freeCtr := s.freeCtr
    envLines := s.envLines
    bankLost := s.bankLost
    flash0 := s.flash0
    flash1 := s.flash1
    owners := s.owners
    svn := s.svn
    session := s.session }.setF (R0 .SYS_RESET_CAUSE) F.SYS_RESET_CAUSE_CAUSE cause

/-- AO_RESET_ASSERT: a low that passes the filter. -/
def execAoResetAssert (s : State) : Out := .next (s.fullReset 1)

/-- AO_DIP. -/
def execAoDip (s : State) : Out := .next (s.fullReset 2)

/-- A new challenge (R545). -/
def State.newChallenge (s : State) : State :=
  let d := s.fresh
  let c := Config.challenge d.1
  (d.2.wr (R0 .SEC_CHAL_LO) (c.extractLsb' 0 32)).wr (R0 .SEC_CHAL_HI) (c.extractLsb' 32 32)

/-- AO_RESET_RELEASE: AO_RESET_N rises; the AO island and the host region start (R527). -/
def execAoResetRelease (s : State) : Out :=
  if s.aoReset then .next { s with aoReset := false, hostParked := false, tick := 0 }.newChallenge else .next s

/-! ## Boot headers (R526) -/

/-- A boot header: SEQ, the active slot, the slots confirmed (bit k: slot k), the boots since it was activated and the slot to revert to; and the
copy that holds it. -/
structure BootHdr where
  seq       : Nat := 0
  active    : Nat := 0
  confirmed : Nat := 0
  tries     : Nat := 0
  prev      : Nat := 0
  copy      : Nat := 1
deriving DecidableEq, Repr

/-- The first five words of copy `c` of a flash's boot header. -/
def State.hdrWords (s : State) (f c : Nat) : List W32 := (List.range 5).map fun i => s.flashWord f (0x1000 * c + 4 * i)

/-- The CRC-32 of a boot header's words 0 to 3. -/
def hdrCrc (ws : List W32) : W32 := w32 (crc32 ((leBytes (ws.take 4)).map (·.toNat)))

/-- A copy is valid: its CRC matches. -/
def hdrValid (ws : List W32) : Bool := decide (ws.getD 4 0 = hdrCrc ws)

/-- The header that words hold. -/
def hdrOf (ws : List W32) (copy : Nat) : BootHdr :=
  let w1 := (ws.getD 1 0).toNat
  { seq := (ws.getD 0 0).toNat, active := w1 % 2, confirmed := w1 / 2 % 4, tries := w1 / 8 % 8, prev := (ws.getD 2 0).toNat % 2, copy := copy }

/-- The boot header of a flash in force: the valid copy with the later SEQ; a flash with none reads as a header of zeros. -/
def State.bootHdr (s : State) (f : Nat) : BootHdr :=
  let a := s.hdrWords f 0
  let b := s.hdrWords f 1
  match hdrValid a, hdrValid b with
  | true, true => if (((a.getD 0 0) - (b.getD 0 0)).toNat) < 2 ^ 31 then hdrOf a 0 else hdrOf b 1
  | true, false => hdrOf a 0
  | false, true => hdrOf b 1
  | false, false => {}

/-- A new header is written into the copy that is not in force, with SEQ one greater. -/
def State.writeHdr (s : State) (f : Nat) (h : BootHdr) : State :=
  let old := s.bootHdr f
  let ws := [w32 (old.seq + 1), w32 (h.active % 2 + 2 * (h.confirmed % 4) + 8 * (h.tries % 8)), w32 (h.prev % 2), 0]
  s.putFlashWords f (0x1000 * (1 - old.copy)) (ws ++ [hdrCrc ws])

/-- Slot `k` is confirmed. -/
def BootHdr.isConfirmed (h : BootHdr) (k : Nat) : Bool := h.confirmed.testBit k

/-! ## Stages (R539, R541) -/

/-- UPD_STAT.STAGE. -/
def State.stage (s : State) : Nat := s.fld (R0 .UPD_STAT) F.UPD_STAT_STAGE

/-- The stage changes. -/
def State.toStage (s : State) (n : Nat) : State := (s.setF (R0 .UPD_STAT) F.UPD_STAT_STAGE n).setF (R0 .UPD_STAT) F.UPD_STAT_TRIAL_DONE 0

/-- The pieces of a session. -/
def Session.pieces (x : Session) : Nat := (x.len + 4095) / 4096

/-- UPD_PIECES and UPD_STAT.KIND report the session. -/
def State.noteSession (s : State) : State :=
  match s.session with
  | some x =>
    let s := s.wr (R0 .UPD_PIECES) (w32 (x.done.length % 2 ^ 16 + 2 ^ 16 * ((x.pieces - 1) % 2 ^ 16)))
    s.setF (R0 .UPD_STAT) F.UPD_STAT_KIND (b2n (decide (x.kind = 2)))
  | none => (s.wr (R0 .UPD_PIECES) 0).setF (R0 .UPD_STAT) F.UPD_STAT_KIND 0

/-- The flashes' Sides whose active slot holds the session's target. -/
def State.targetActive (s : State) (x : Session) : List Side :=
  [Side.A, Side.B].filter fun sd => x.kind = 1 ∧ x.slots.getD sd.idx 2 = (s.bootHdr sd.idx).active

/-- The journal's header is written again (R537). -/
def State.writeJournal (s : State) : State :=
  let d := s.fresh
  d.2.putFlashWords 0 0x2100000 ((List.range 1024).map fun k => Config.journalHeader d.1 k)

/-- The stage is rebuilt from the flashes (R541). -/
def State.rebuildStage (s : State) : State :=
  match s.session with
  | none => s.toStage 0
  | some x =>
    let on := s.targetActive x
    let unconf := [Side.A, Side.B].filter fun sd => !(s.bootHdr sd.idx).isConfirmed (s.bootHdr sd.idx).active
    let s : State := match unconf with
      | sd :: _ => { s with updSide := sd }
      | [] => s
    if !x.verified then (s.toStage 1).noteSession
    else if on.length = 2 ∧ unconf = [] then
      { s with svn := max s.svn x.target.svn, session := none }.writeJournal.noteSession.toStage 0
    else if unconf = [] then (s.toStage 2).noteSession
    else if on.length = 2 then (s.toStage 4).noteSession
    else if on.length = 1 then (s.toStage 3).noteSession
    else (s.toStage 0).noteSession

/-- BOOT_OTP_CHECKED: `ok` when OTP passes its check and its vendor root key hash is not blank; the boot headers and the journal are read (R527,
R528, R541). -/
def execBootOtpChecked (ok : Bool) (s : State) : Out :=
  if s.aoReset ∨ s.otpOk ∨ s.flag (R0 .SEC_STAT) F.SEC_STAT_OTP_BAD then .next s
  else if ok then .next { s with otpOk := true }.rebuildStage
  else .next (s.setF (R0 .SEC_STAT) F.SEC_STAT_OTP_BAD 1)

/-! ## Cadence counters of the structure (R28 to R30) -/

/-- A format in the order of R29: format code, INTERLACED, SEGMENTED. -/
def Fmt.order (f : Fmt) : Nat := f.code * 4 + b2n f.il * 2 + b2n f.seg

/-- REF_CAD_DESC of a counter with format `f` (R431). -/
def cadDesc (f : Fmt) : W32 := w32 (f.code % 16384 + 2 ^ 14 * b2n f.il + 2 ^ 15 * b2n f.seg + 2 ^ 16)

/-- The distinct formats that output slots and heads carry, in the order of R29. -/
def State.carriedFmts (s : State) : List Fmt :=
  let all := s.outPlan.map (fun e => e.2.fmt) ++ (s.headPlan.filter fun e => e.2.present).map fun e => e.2.fmt
  ((all.filter Fmt.known).foldl (fun (m : List (Nat × Fmt)) f => Sparse.ins natLt f.order f (Sparse.erase f.order m)) []).map (·.2)

/-- Counter `c` runs format `f`: one that ran it already goes on, another starts its count in the frame that the cadence phase gives now. -/
def State.startCad (s : State) (c : Nat) (f : Fmt) : State :=
  if s.rd (R1 .REF_CAD_DESC c) = cadDesc f then s
  else
    let x : Cadence := { count := 0, index := (f.indexAt (s.cadTime - s.ref.phi)).toNat, phi := s.ref.phi, prev := s.ref.phi }
    ({ s with cads := s.cads.set c x }.wr (R1 .REF_CAD_DESC c) (cadDesc f)).wr (R1 .REF_CAD_FRAME c) 0

/-- A base image numbers the counters of its formats from 0; with no format, counter 0 runs the stand-in (R29, R30). -/
def State.baseCads (s : State) : State :=
  let fs := s.carriedFmts
  let fs := if fs = [] then [standIn] else fs
  (List.range 32).foldl (fun (s : State) c => match fs[c]? with
    | some f => s.startCad c f
    | none => s.wr (R1 .REF_CAD_DESC c) 0) s

/-- An image that introduces a format gives it the lowest free number; the stand-in occupies counter 0, and takes it (R29). DESIGN CHOICE: of several
new formats the first in the order of R29 takes the lowest, which the spec leaves open (log entry 120). -/
def State.newCads (s : State) : State :=
  s.carriedFmts.foldl (fun (s : State) f =>
    if (s.cadFor f).isSome then s
    else match (List.range 32).find? fun c => !s.cadValid c with
      | some c => s.startCad c f
      | none => s) s

/-! ## Loading a structure (R522, R527) -/

/-- The registers to which plan sections write boot values, as their chapters state. -/
def bootRegs : List RegName :=
  [.LANE_CFG, .LANE_CTL, .LANE_TXEQ, .LANE_RXEQ, .LANE_DET, .LANE_QSTAT, .NVL_CFG, .SDI_CFG, .SLU_CFG, .STR_MCFG, .STR_SLICE,
   .STR_PART_DEST, .STR_PART_HEADS, .STR_PART_MISC, .PARK_LANE_DECL, .RFE_CFG, .RFE_LEASE, .RFE_WDOG_PERIOD, .RFE_TOLERANCE, .HAF_CFG,
   .EVT_ENABLE, .EVT_ROUTE, .MBX_CFG, .REF_CFG, .REF_TIMING, .REF_CAND_CFG, .REF_CAND_OFFSET, .REF_TB_OK, .REF_PULSE_CFG, .REF_PULSE_OFFSET,
   .ETH_PORT_CFG, .ETH_PORT_STAT, .ETH_PORT_MAC_LO, .ETH_PORT_MAC_HI, .ETH_PORT_IP, .ETH_PORT_NH_LO, .ETH_PORT_NH_HI, .ETH_MG_CFG, .ETH_MG_IP,
   .ETH_RRP_HOST, .ETH_RRP_HOST_IP, .ETH_WAKE_CTL, .ETH_WAKE_MASK, .ETH_RXF_CFG, .ETH_RXF_DST_E, .ETH_RXF_DST_W, .ETH_RXF_SRC_E,
   .ETH_RXF_SRC_W, .ETH_RXF_UDP, .ETH_RXF_MEDIA, .ETH_TXF_CFG, .ETH_TXF_DST_E, .ETH_TXF_DST_W, .ETH_TXF_UDP, .ETH_TXF_PKT, .ETH_TXF_SSRC,
   .ETH_TXF_STAT, .TDM_CFG, .XPT_TAKE_LEAD]

/-- The twin registers whose boot values plan sections give. -/
def bootTwins : List RegName :=
  [.XPT_IN_CFG, .XPT_OUT_CFG, .SEAM_CFG, .AUD_ROUTE, .AUD_DELAY, .ALY_HEAD_CFG, .ALY_HEAD_OFFSET, .ALY_HEAD_BG, .ALY_CURSOR, .ALY_STORE_CFG,
   .ALY_PROT_POS, .ALY_PROT_SIZE, .ALY_TILE_CFG, .ALY_TILE_DST, .ALY_TILE_SIZE, .ALY_TILE_CROP_XY, .ALY_TILE_CROP_WH]

/-- The compositor's settings that head boundaries put into force (R374, R377). -/
def headSettings : List RegName :=
  [.ALY_HEAD_BG, .ALY_CURSOR, .ALY_PROT_POS, .ALY_PROT_SIZE, .ALY_TILE_CFG, .ALY_TILE_DST, .ALY_TILE_SIZE, .ALY_TILE_CROP_XY, .ALY_TILE_CROP_WH]

/-- The registers of lanes that a region image's LANE_PLAN entries write. -/
def laneRegs : List RegName := [.LANE_CFG, .LANE_CTL, .LANE_TXEQ, .LANE_RXEQ, .LANE_DET, .LANE_QSTAT, .NVL_CFG, .SDI_CFG, .SLU_CFG]

/-- Boot values are written. -/
def State.bootWrites (s : State) (l : List (RegKey × W32)) : State := l.foldl (fun (s : State) p => s.wr p.1 p.2) s

/-- Boot values of twin registers go into the routing snapshot; the compositor's are in force at once, and a channel's route is asked for. -/
def State.bootTwinWrites (s : State) (l : List (RegKey × W32)) : State :=
  l.foldl (fun (s : State) p =>
    let s := s.deliver p.1 p.2
    let s : State := if headSettings.contains p.1.name then { s with alyLive := Sparse.put RegKey.lt RegKey.reset s.alyLive p.1 p.2 } else s
    if p.1.name = .AUD_ROUTE then s.audRouteDelivered p.1.i else if p.1.name = .AUD_DELAY then s.audDelayDelivered p.1.i else s) s

/-- The route of every output slot is its fallback, and that of every tile feed and capture tap is source 1056 (R99). -/
def State.bootRoutes (s : State) : State :=
  let ds := (s.twins.filter fun e => decide (e.1.name = .XPT_OUT_CFG) && decide (e.1.i < 1024)).map fun e => e.1.i
  { s with routes := smapOf (ds.map fun d => (d, { src := s.fallbackOf d, prev := s.fallbackOf d })) }

/-- Transmit flows that are enabled start. -/
def State.bootFlows (s : State) : State :=
  s.txListed.foldl (fun (s : State) t =>
    let s := if s.txfEn .E t then s.startRun t .E else s
    if s.txfEn .W t then s.startRun t .W else s) s

/-- A lane of the structure starts: its link's constants are set and it wakes as from L3 (R213, R527). -/
def State.laneBoot (s : State) (n : Nat) : State :=
  if s.laneProto n = 0 then s
  else
    let k := R1 .NVL_STAT n
    let s := (s.setF k F.NVL_STAT_CHANNELS (s.nvlChannels n)).setF k F.NVL_STAT_FEC_ON (b2n (s.laneProto n = 1 && s.fecOn n))
    (s.laneStat n F.LANE_STAT_PARK 3).startWake n

/-- ALLOY_PLAN takes effect. -/
def State.loadAlloy (s : State) (p : AlloyPlan) : State :=
  { s with headPlan := smapOf p.heads, tileHead := smapOf (p.tileHead.map fun q => (q.1, some q.2)), preHead := smapOf (p.preHead.map fun q => (q.1, some q.2)) }

/-- AUDIO_PLAN takes effect; a channel whose entry does not change keeps its state. -/
def State.loadAudio (s : State) (p : AudioPlan) : State :=
  let src := smapOf (p.src.map fun q =>
    let o := s.audSrc.at q.1
    let x := q.2
    (q.1, if o.kind = x.kind ∧ o.origin = x.origin ∧ o.index = x.index ∧ o.delta = x.delta then o
      else { kind := x.kind, origin := x.origin, index := x.index, delta := x.delta }))
  let dst := smapOf (p.dst.map fun q =>
    let o := s.audDst.at q.1
    let x := q.2
    (q.1, if o.kind = x.kind ∧ o.owner = x.owner ∧ o.index = x.index ∧ o.delayMax = x.delayMax then o
      else { kind := x.kind, owner := x.owner, index := x.index, delayMax := x.delayMax }))
  let s := { s with audSrc := src, audDst := dst, audioTb := p.tb % 4, audioHi := p.hi, tdmOwner := smapOf p.tdm }
  let s := p.rxFlows.foldl (fun (s : State) q => { s with rxFlows := s.rxFlows.upd q.1 fun x => { x with chans := q.2.1, depth := q.2.2 } }) s
  p.txFlows.foldl (fun (s : State) q =>
    let put (x : TxRun) : TxRun := { x with samples := q.2.1, depth := q.2.2 }
    { s with txRuns := (s.txRuns.upd (2 * q.1) put).upd (2 * q.1 + 1) put }) s

/-- The structure record in force has a new hash (R550). -/
def State.newRecord (s : State) : State :=
  let d := s.fresh
  (List.range 8).foldl (fun (s : State) k => s.wr (R1 .UMW_HASH k) (Config.recordHash d.1 k)) d.2

/-- The sections of the images take effect. -/
def State.loadStructure (s : State) (p : Structure_) : State :=
  let s := { s with
    loaded := true
    inPlan := smapOf p.inPlan
    outPlan := smapOf p.outPlan
    capPlan := p.capPlan
    portPlan := smapOf p.ports
    rights := smapOf p.rights
    plain7 := p.plain7
    updMbx := p.updMbx % 32
    benchPlan := p.bench }
  let s := ((s.loadAlloy p.alloy).loadAudio p.audio).baseCads
  let s := s.bootWrites (p.regs.filter fun e => bootRegs.contains e.1.name)
  let s := (s.bootTwinWrites (p.regs.filter fun e => bootTwins.contains e.1.name)).bootRoutes.bootFlows
  let s := (s.wr (R0 .UMW_BASE_VER) p.baseVer).wr (R0 .UMW_SIDE_VER) p.sideVer
  let s := p.regionVer.foldl (fun (s : State) q => s.wr (R1 .UMW_REGION_VER q.1) q.2) s
  let s := s.newRecord
  let s := (List.range 32).foldl (fun (s : State) b => s.setF (R1 .MBX_STAT b) F.MBX_STAT_RECEIVER (s.mbxReceiver b)) s
  let s := (List.range 512).foldl (fun (s : State) n => s.laneBoot n) s
  let s := s.setSide .A { s.sideA with pwrAt := some s.tick }
  (s.setSide .B { s.sideB with pwrAt := some s.tick }).classUpdate.vectors

/-! ## Region images (R97, R98, R531) -/

/-- A position of the quad's bank is replaced: the region's one where it gives one, else the present one unless it lay in the quad. -/
def mergePos {α : Type} (old new : Option α) (here : α → Bool) : Option α :=
  if new.isSome then new else match old with
    | some p => if here p then none else some p
    | none => none

/-- The input slots under a region's entries. -/
def State.regionIns (s : State) (q : Nat) (p : RegionPlan) : SMap InPlan :=
  let here (b : Bank) (x : SrcPos) : Bool := (quadLanes q).any fun n => s.posOnLane n b x
  let given := smapOf p.ins
  let keys := s.inPlan.map (·.1) ++ p.ins.map (·.1)
  keys.foldl (fun m n =>
    let o := s.inPlan.at n
    let g := given.at n
    let base : InPlan := if o.srcE.isSome ∨ o.srcW.isSome then o else if p.ins.any fun e => e.1 = n then g else o
    m.set n { base with srcE := mergePos o.srcE g.srcE (here .E), srcW := mergePos o.srcW g.srcW (here .W) }) s.inPlan

/-- The output slots under a region's entries. -/
def State.regionOuts (s : State) (q : Nat) (p : RegionPlan) : SMap OutPlan :=
  let here (b : Bank) (x : TxPos) : Bool := (quadLanes q).any fun n => s.txOnLane n b x
  let given := smapOf p.outs
  let keys := s.outPlan.map (·.1) ++ p.outs.map (·.1)
  keys.foldl (fun m n =>
    let o := s.outPlan.at n
    let g := given.at n
    let base : OutPlan := if s.outPlan.any fun e => e.1 = n then o else g
    m.set n { base with txE := mergePos o.txE g.txE (here .E), txW := mergePos o.txW g.txW (here .W) }) s.outPlan

/-- The ports under a region's entries: those whose lanes lie in the quad are replaced. -/
def State.regionPorts (s : State) (q : Nat) (p : RegionPlan) : SMap PortPlan :=
  let out := s.portPlan.filter fun e => !(e.2.lanes.any fun n => (quadLanes q).contains n)
  p.ports.foldl (fun m e => SMap.set m e.1 e.2) out

/-- The lane registers under a region's entries. -/
def regionRegs (q : Nat) (p : RegionPlan) : List (RegKey × W32) :=
  p.regs.filter fun e => laneRegs.contains e.1.name && (quadLanes q).contains e.1.i

/-- A region's entries are the quad's present ones. -/
def State.regionSame (s : State) (q : Nat) (p : RegionPlan) : Bool :=
  decide (s.regionIns q p = s.inPlan) && decide (s.regionOuts q p = s.outPlan) && decide (s.regionPorts q p = s.portPlan) &&
    (regionRegs q p).all fun e => decide (s.rd e.1 = e.2)

/-- A source position that has joined a slot of its own: its copy starts afresh (R61, R98). -/
def State.joinPositions (s s0 : State) : State :=
  s.inPlan.foldl (fun (s : State) p =>
    let one (s : State) (b : Bank) : State :=
      if p.2.slots = 1 ∧ (s0.inPlan.at p.1).pos b ≠ p.2.pos b then s.setCopyRx p.1 b {} else s
    one (one s .E) .W) s

/-- The region image of a quad takes effect: its lanes go to electrical idle, its entries are replaced, and its lanes wake as from L3. -/
def State.applyRegion (s : State) (q : Nat) (p : RegionPlan) : State :=
  if s.regionSame q p then s
  else
    let s0 := s
    let s := (quadLanes q).foldl (fun (s : State) n => (s.laneLost n).enterPark n 3) s
    let downs := (s.portPlan.filter fun e => e.2.lanes.any fun n => (quadLanes q).contains n).map (·.1)
    let s := downs.foldl (fun (s : State) i => s.portDown i) s
    let fresh := (p.outs.map (·.1)).filter fun d => !(s.outPlan.any fun e => e.1 = d)
    let s := State.newCads { s with inPlan := s0.regionIns q p, outPlan := s0.regionOuts q p, portPlan := s0.regionPorts q p }
    let s := (quadLanes q).foldl (fun (s : State) n => s.wr (R1 .LANE_CFG n) 0) s
    let s := s.bootWrites (regionRegs q p)
    let s := fresh.foldl (fun (s : State) d =>
      { s with routes := s.routes.set d { src := s.fallbackOf d, prev := s.fallbackOf d } }.setF (R1 .XPT_PRESET d) F.XPT_PRESET_VALID 0) s
    let s := s.joinPositions s0
    let s := (s.quadOff q).withdraw s0
    (((quadLanes q).foldl (fun (s : State) n => s.laneBoot n) s).updateStep).classUpdate

/-- A structure change ends with a result (R533). -/
def State.endChange (s : State) (code : Nat) : State :=
  let k := R0 .UMW_STAT
  { ((s.setF k F.UMW_STAT_BUSY 0).setF k F.UMW_STAT_STEP 0).setF k F.UMW_STAT_RESULT code with change := none }

/-- REGION_APPLY: the application tick has come. -/
def execRegionApply (s : State) : Out :=
  match s.change with
  | some (.region q p) =>
    if s.tick < s.changeAt then .next s
    else .next ((((s.applyRegion (q % 128) p).wr (R1 .UMW_REGION_VER (q % 128)) p.version).newRecord).endChange 0)
  | _ => .next s

end Sys2Proof.Machine
end

