-- ==== Sys2Proof/Machine/Rules.lean ====
section
/-!
DEFINITION. The Umwick compiler's rules (R523): what the manual states as a rejection by the compiler, judged on the structure that would
result, and the shapes that R22, R23 and R51 give a plan's entries.
-/
namespace Sys2Proof.Machine

/-! ## Slots and lanes (R22, R23, R49, R51, R200, R253, R263) -/

/-- A source position lies in a bank. -/
def SrcPos.inBank (b : Bank) : SrcPos → Bool
  | .nervor l _ => decide (l < 512) && decide (laneBank l = b)
  | .sdi l => decide (l < 512) && decide (laneBank l = b)
  | .flow r => decide (r < 4096)

/-- A transmit position lies in a bank. -/
def TxPos.inBank (b : Bank) : TxPos → Bool
  | .nervor l _ => decide (l < 512) && decide (laneBank l = b)
  | .sdi l => decide (l < 512) && decide (laneBank l = b)
  | .flow t => decide (t < 4096)

/-- A transmit position is an SDI lane's. -/
def TxPos.isSdi : TxPos → Bool
  | .sdi _ => true
  | _ => false

/-- A slot is a single one, or a member of a bonded group of R51, of which every slot says the same. -/
def lawfulGroup (n slots lowest : Nat) (same : Nat → Bool) : Bool :=
  decide (n < 1024) && (slots = 1 || ([2, 4, 8, 16].contains slots && lowest % slots = 0 && decide (lowest ≤ n) && decide (n < lowest + slots) &&
    (List.range slots).all fun k => same (lowest + k)))

/-- The input slots are as R22 and R51 have them: each position in its own bank, an SDI lane the only one. -/
def State.inLawful (s : State) : Bool :=
  s.inPlan.all fun e =>
    lawfulGroup e.1 e.2.slots e.2.lowest (fun m => decide ((s.inPlan.at m).slots = e.2.slots) && decide ((s.inPlan.at m).lowest = e.2.lowest)) &&
    e.2.srcE.all (SrcPos.inBank .E) && e.2.srcW.all (SrcPos.inBank .W) &&
    !(e.2.srcE.isSome && e.2.srcW.isSome && (e.2.srcE.any SrcPos.isSdi || e.2.srcW.any SrcPos.isSdi))

/-- An SDI lane's interface carries the format at the lane's rate and slot count (R261, R263). -/
def State.sdiSends (s : State) (l : Nat) (f : Fmt) (slots : Nat) : Bool :=
  let rate := s.sdiPlanned l
  let cls := (rate - 1) % 5 + 1
  let i := sdiInterface f
  let pair := s.flag (R1 .LANE_CFG l) F.LANE_CFG_PAIR
  let slow := decide (10 ≤ s.laneRate l)
  decide (s.laneProto l = 2) && i != 0 && (if i = 5 then (cls = 5 && !pair || cls = 4 && pair) && slots = 2 else cls = i && !pair && slots = 1) &&
    overRate f.rate = slow

/-- A transmit position carries a format: an SDI lane has its rule. -/
def State.txCarries (s : State) (f : Fmt) (slots : Nat) : TxPos → Bool
  | .sdi l => s.sdiSends l f slots
  | _ => true

/-- The output slots are as R23, R51 and R263 have them, and each format is one that R49 carries in its slots. -/
def State.outLawful (s : State) : Bool :=
  s.outPlan.all fun e =>
    lawfulGroup e.1 e.2.slots e.2.lowest (fun m => let o := s.outPlan.at m
      decide (o.slots = e.2.slots) && decide (o.lowest = e.2.lowest) && decide (o.fmt = e.2.fmt) && decide (o.bypass.isSome = e.2.bypass.isSome)) &&
    e.2.txE.all (TxPos.inBank .E) && e.2.txW.all (TxPos.inBank .W) &&
    !(e.2.txE.isSome && e.2.txW.isSome && (e.2.txE.any TxPos.isSdi || e.2.txW.any TxPos.isSdi)) &&
    (e.2.bypass.isSome || e.2.fmt.carried e.2.slots) && e.2.txE.all (s.txCarries e.2.fmt e.2.slots) && e.2.txW.all (s.txCarries e.2.fmt e.2.slots)

/-- A position is a slot channel of a Nervor lane with FEC off. -/
def State.plainSrc (s : State) : SrcPos → Bool
  | .nervor l _ => decide (s.laneProto l = 1) && !s.fecOn l
  | _ => false

/-- A transmit position is a slot channel of a Nervor lane with FEC off. -/
def State.plainTx (s : State) : TxPos → Bool
  | .nervor l _ => decide (s.laneProto l = 1) && !s.fecOn l
  | _ => false

/-- A bypass output has its input slot's bonding, Nervor channels with FEC off alone, and lies in no requester's destination range (R253). -/
def State.bypassLawful (s : State) : Bool :=
  s.outPlan.all fun e => match e.2.bypass with
    | none => true
    | some n =>
      let i := s.inPlan.at n
      decide (i.slots = e.2.slots) && i.srcE.all s.plainSrc && i.srcW.all s.plainSrc && e.2.txE.all s.plainTx && e.2.txW.all s.plainTx &&
        !(s.rights.any fun r => inRanges r.2.dest e.1)

/-- The rate family of a rate code (R199): 1 to 5 for F0, F1, F2, F3 and F4; 0 for none. -/
def rateFamily (rate : Nat) : Nat :=
  if rate = 0 then 0 else if rate ≤ 2 then 1 else if rate = 3 then 3 else if rate = 4 then 2 else if rate ≤ 9 then 4 else 5

/-- The lanes of a quad belong to one rate family (R200). -/
def State.quadLawful (s : State) (q : Nat) : Bool :=
  let fs := ((quadLanes q).map fun n => rateFamily (s.laneRate n)).filter (· ≠ 0)
  fs.all fun f => decide (f = fs.headD 0)

/-! ## Counters, ports, HBM, content and partitions (R29, R299, R321, R371, R373, R433) -/

/-- Every format that an output slot or a head carries has a counter: at most 32 are needed (R29). -/
def State.cadsLawful (s : State) : Bool := s.carriedFmts.all fun f => (s.cadFor f).isSome

/-- The booked rates of the flows bound to an output slot lie within its slots (R49, R299). DEDUCED: a slot word counts as 32 bits (log entry 137). -/
def State.outBooked (s : State) (d : Nat) (b : Bank) : Bool :=
  let ts := s.txListed.filter fun t => s.txfEn b t && decide (s.txType t = 1 ∨ s.txType t = 2) && decide (s.txOutput t = d)
  decide (ts.foldl (fun n t => n + s.txRate (s.txPort b t) t) 0 ≤ (s.outPlan.at d).slots * 371250000 * 32 * 10000)

/-- PORT_PLAN keeps both limits of R299. -/
def State.portsLawful (s : State) : Bool :=
  let on (i : Nat) : Bool := s.txListed.any fun t => s.txfEn (portBank i) t && decide (s.txPort (portBank i) t = i)
  (List.range 128).all (fun i => !on i || s.portFits i) && (s.outPlan.all fun e => s.outBooked e.1 .E && s.outBooked e.1 .W)

/-- The backed regions fit the 18 432 pages of a stack (R433). -/
def State.hbmLawful (s : State) : Bool := decide ((List.range 7).foldl (fun n r => n + s.hbmMap r) 0 ≤ 18432)

/-- No requester but 1 to 7 and 10 is a protected owner (R373). -/
def State.ownersLawful (s : State) : Bool := (s.rights.at 8).prot.isEmpty && (s.rights.at 9).prot.isEmpty

/-- ALLOY_PLAN has at most 16 protected rectangles (R371), of which a head has at most 4. -/
def AlloyPlan.lawful (p : AlloyPlan) : Bool :=
  decide (p.heads.foldl (fun n e => n + e.2.rects) 0 ≤ 16) && p.heads.all fun e => decide (e.1 < 32) && decide (e.2.rects ≤ 4)

/-- AUDIO_PLAN places origins of its own rate on channels that the rate has (R321). -/
def AudioPlan.lawful (p : AudioPlan) : Bool :=
  let top := if p.hi then 8192 else 16384
  p.src.all (fun e => decide (e.1 < top) && decide (e.2.hi = p.hi)) && p.dst.all fun e => decide (e.1 < top)

/-- The compiler's rules hold for the structure in force. -/
def State.lawful (s : State) : Bool :=
  s.inLawful && s.outLawful && s.bypassLawful && (List.range 128).all s.quadLawful && s.cadsLawful && s.portsLawful && s.hbmLawful && s.ownersLawful

/-- The compiler's rules hold for the structure that a base image would give. -/
def State.baseLawful (s : State) (p : Structure_) : Bool := p.alloy.lawful && p.audio.lawful && (s.loadStructure p).lawful

end Sys2Proof.Machine
end

