-- ==== Sys2Proof/Machine/Update.lean ====
section
/-!
DEFINITION. The update mailbox: downloads, firmware update, structure changes and attestation (chapter 18).
-/
namespace Sys2Proof.Machine

/-! ## Result codes (R536) -/

abbrev codeOk : Nat := 0
abbrev codeBusy : Nat := 1
abbrev codeBadCmd : Nat := 2
abbrev codeBadPart : Nat := 3
abbrev codeHash : Nat := 4
abbrev codeSession : Nat := 5
abbrev codeSignature : Nat := 6
abbrev codeRollback : Nat := 7
abbrev codeFormat : Nat := 8
abbrev codeState : Nat := 9
abbrev codeInUse : Nat := 10
abbrev codeNotInStep : Nat := 11
abbrev codeFlash : Nat := 12
abbrev codeSpace : Nat := 13
abbrev codeBase : Nat := 14

/-! ## Messages (R534, R535) -/

/-- Word `w` of the message in the update mailbox. -/
def State.msg (s : State) (w : Nat) : W32 := s.rd (R2 .MBX_MSG s.updMbx w)

/-- The message is acknowledged with a CODE; SEQ is word 0 [15:8]. -/
def State.ackMsg (s : State) (code : Nat) : State :=
  s.writeMbxAck s.updMbx (w32 (code % 2 ^ 16 + 2 ^ 16 * ((s.msg 0).toNat / 256 % 256)))

/-- The boot core handles the message that waits: one whose CMD is `cmd` takes its effect, one whose CMD is unknown is refused with BAD_CMD, and
no other is touched. An effect that has no code yet leaves the message waiting. -/
def State.onMsg (s : State) (cmd : Nat) (f : State → Option Nat × State) : State :=
  let c := (s.msg 0).toNat % 256
  if s.aoReset ∨ s.mbxState s.updMbx ≠ 2 ∨ s.mbxReceiver s.updMbx ≠ 10 then s
  else if c = 0 ∨ 10 < c then (s.ackMsg codeBadCmd).setF (R0 .UPD_STAT) F.UPD_STAT_RESULT codeBadCmd
  else if c ≠ cmd then s
  else
    let p := f s
    match p.1 with
    | some code => (p.2.ackMsg code).setF (R0 .UPD_STAT) F.UPD_STAT_RESULT (if cmd = 4 ∧ s.session.isSome then 0 else code)
    | none => p.2

/-- PART of the message. -/
def State.msgPart (s : State) : Nat := (s.msg 0).toNat / 256 % 256

/-- ARG of the message. -/
def State.msgArg (s : State) : Nat := (s.msg 0).toNat / 65536

/-- Words `a` to `a + n - 1` of the message. -/
def State.msgWords (s : State) (a n : Nat) : List W32 := (List.range n).map fun i => s.msg (a + i)

/-- A refusal. -/
def State.refuse (s : State) (code : Nat) : Option Nat × State := (some code, s)

/-! ## Downloads (R535, R537) -/

/-- The session is discarded. -/
def State.dropSession (s : State) : State := { s with session := none, parts := [] }.writeJournal.noteSession.toStage 0

/-- BEGIN: a session is opened, or the open one is resumed. -/
def State.updBegin (s : State) : Option Nat × State :=
  let kind := (s.msg 1).toNat
  let len := (s.msg 2).toNat
  let hash := s.msgWords 3 8
  if 3 ≤ s.stage then s.refuse codeState
  else if kind ≠ 1 ∧ kind ≠ 2 then s.refuse codeBadCmd
  else if 16773120 < len then s.refuse codeSpace
  else if s.session.any fun x => x.kind = kind ∧ x.hash = hash then (some codeOk, s)
  else (some codeOk, ({ s with session := some { kind := kind, len := len, hash := hash }, parts := [] }.writeJournal.noteSession).toStage 1)

/-- BEGIN. -/
def execUpdBegin (s : State) : Out := .next (s.onMsg 1 State.updBegin)

/-- DATA: a part of a piece is stored; a part sent again replaces the earlier one. -/
def State.updData (s : State) : Option Nat × State :=
  match s.session with
  | none => s.refuse codeSession
  | some x =>
    let p := s.msgPart
    if 68 < p ∨ x.pieces ≤ s.msgArg then s.refuse codeBadPart
    else (some codeOk, { s with parts := s.parts.set (128 * s.msgArg + p) (s.msgWords 1 (if p = 68 then 4 else 15)) })

/-- DATA. -/
def execUpdData (s : State) : Out := .next (s.onMsg 2 State.updData)

/-- The words of a piece, as far as its parts have arrived. -/
def State.pieceWords (s : State) (i : Nat) : List W32 := (List.range 69).flatMap fun p => s.parts.at (128 * i + p)

/-- PIECE_END: the piece's frame is written into the journal and read back; then its bit is set. -/
def State.updPieceEnd (flashOk : Bool) (s : State) : Option Nat × State :=
  match s.session with
  | none => s.refuse codeSession
  | some x =>
    let i := s.msgArg
    if x.pieces ≤ i then s.refuse codeBadPart
    else if x.done.contains i then (some codeOk, s)
    else
      let ws := s.pieceWords i
      if ws.length ≠ 1024 then s.refuse codeBadPart
      else if shaOfWords ws ≠ s.msgWords 1 8 then s.refuse codeHash
      else if !flashOk then s.refuse codeFlash
      else
        let s := s.putFlashWords 0 (0x2101000 + 4096 * i) ws
        let s : State := { s with
          session := some { x with done := i :: x.done }
          parts := s.parts.filter fun e => decide (e.1 / 128 ≠ i) }
        (some codeOk, s.writeJournal.noteSession)

/-- PIECE_END; `flashOk` when the flash takes the frame within three attempts. -/
def execUpdPieceEnd (flashOk : Bool) (s : State) : Out := .next (s.onMsg 3 (State.updPieceEnd flashOk))

/-- STATUS: the lowest piece not yet committed. -/
def State.updStatus (s : State) : Option Nat × State :=
  match s.session with
  | none => s.refuse codeSession
  | some x => (some (((List.range x.pieces).find? fun i => !x.done.contains i).getD x.pieces), s)

/-- STATUS. -/
def execUpdStatus (s : State) : Out := .next (s.onMsg 4 State.updStatus)

/-! ## Images (R521 to R523) -/

/-- The section types of an image's words behind its header; none where a header is malformed or its value runs past the end. -/
def sectionTypes : Nat → List W32 → Option (List Nat)
  | 0, _ => none
  | _ + 1, [] => some []
  | n + 1, t :: l :: ws =>
    let k := (l.toNat + 3) / 4
    if 65536 ≤ t.toNat ∨ ws.length < k then none
    else (sectionTypes n (ws.drop k)).map fun ts => t.toNat :: ts
  | _ + 1, [_] => none

/-- The sections of an image are allowed for its TYPE, none twice, and those required are present. -/
def sectionsOk (type : Nat) (ts : List Nat) : Bool :=
  decide ts.Nodup && match type with
    | 1 => ts.all (fun t => decide (1 ≤ t ∧ t ≤ 10)) && decide (ts.length = 10)
    | 2 => ts.all fun t => decide (1 ≤ t ∧ t ≤ 3)
    | 3 => ts.all fun t => decide (6 ≤ t ∧ t ≤ 8)
    | 4 => ts.all (fun t => decide (t = 16 ∨ t = 17)) && decide (ts.length = 2)
    | _ => false

/-- An image's TYPE. -/
def imageType (ws : List W32) : Nat := (ws.getD 0 0).toNat % 65536

/-- An image's SVN. -/
def imageSvn (ws : List W32) : Nat := (ws.getD 3 0).toNat / 256 % 128

/-- The signer's key hash of an image. -/
def imageKey (ws : List W32) : List W32 := shaOfWords ((ws.drop 4).take 16)

/-- The image's signature verifies over the image with its signature words set to 0. -/
def imageSigned (ws : List W32) : Bool :=
  signatureOk ((ws.drop 4).take 16) ((ws.drop 20).take 16) (ws.take 20 ++ List.replicate 16 0 ++ ws.drop 36)

/-- The vendor root key hash as words. -/
def vendorKey : List W32 := (List.range 8).map Config.vendorKeyHash

/-- The key may sign a structure image: it is the current owner's, or that of the owner before the latest transfer. -/
def State.ownerKey (s : State) (k : List W32) : Bool := (s.owners.reverse.take 2).contains k

/-- The checks of R523 on an image of `bytes` bytes, whose sections are judged by `secs`, in R523's order; the last is the Umwick compiler's. -/
def State.imageCode (s : State) (ws : List W32) (bytes : Nat) (secs : List Nat → Bool) (compilerOk : Bool) : Nat :=
  let w0 := (ws.getD 0 0).toNat
  let type := imageType ws
  if type = 0 ∨ 4 < type ∨ w0 / 65536 ≠ 1 ∨ (ws.getD 2 0).toNat ≠ bytes ∨ bytes ≠ 4 * ws.length ∨ ws.length < 40 then codeFormat
  else if !((sectionTypes (ws.length + 1) (ws.drop 40)).any secs) then codeFormat
  else if !(if type = 4 then decide (imageKey ws = vendorKey) else s.ownerKey (imageKey ws)) then codeSignature
  else if !imageSigned ws then codeSignature
  else if type = 4 ∧ imageSvn ws < s.svn then codeRollback
  else if !compilerOk then codeFormat
  else codeOk

/-! ## VERIFY (R538) -/

/-- The words of the whole package, from the journal. -/
def State.packageWords (s : State) (x : Session) : List W32 := (List.range (x.len / 4)).map fun i => s.flashWord 0 (0x2101000 + 4 * i)

/-- The bytes of the whole package. -/
def State.packageBytes (s : State) (x : Session) : List Byte := (List.range x.len).map fun i => s.flashByte 0 (0x2101000 + i)

/-- The first byte of a firmware slot. -/
def slotBase (k : Nat) : Nat := 0x100000 + 0x800000 * k

/-! ## Loading a Side's firmware (R525, R528, R529, R540, R543, R546) -/

/-- The words of the firmware image in slot `k` of a flash, as far as its LENGTH runs; none where no slot could hold it (R521, R525). -/
def State.slotWords (s : State) (f k : Nat) : List W32 :=
  let n := (s.flashWord f (slotBase k + 8)).toNat
  if n ≤ 0x800000 then (List.range (n / 4)).map fun i => s.flashWord f (slotBase k + 4 * i) else []

/-- The firmware image in slot `k` of a flash, as R523 judges it; one whose SVN is below the count in OTP does not pass (R546). -/
def State.slotImage (s : State) (f k : Nat) : FwImage :=
  let ws := s.slotWords f k
  { passes := decide (imageType ws = 4) && decide (s.imageCode ws (4 * ws.length) (sectionsOk 4) true = codeOk),
    version := ws.getD 1 0, svn := imageSvn ws, hash := shaOfWords ws }

/-- A Side's firmware settings: where the number stored in its flash is lower than the settings format that the image declares, the region is
erased to the firmware's defaults (R543). -/
def State.settingsRule (s : State) (sd : Side) (ws : List W32) : State :=
  if (s.flashWord sd.idx 0x10000).toNat < Config.settingsFormat ws then
    (s.putFlashWords sd.idx 0x10000 ((List.range 16384).map (Config.settingsDefault ws))).setF (R1 .UPD_SIDE sd.idx) F.UPD_SIDE_SETTINGS_RESET 1
  else s

/-- The firmware in slot `k` of a Side's flash is loaded, and the Side leaves reset. -/
def State.fwLoaded (s : State) (sd : Side) (k : Nat) : State :=
  let x := s.slotImage sd.idx k
  let s := s.settingsRule sd (s.slotWords sd.idx k)
  let s : State := { s with fwHash := s.fwHash.set sd.idx x.hash }
  let s := (s.wr (R1 .UPD_VER sd.idx) x.version).setF (R1 .UPD_SIDE sd.idx) F.UPD_SIDE_NO_FW 0
  s.setSide sd { s.side sd with inReset := false, released := s.tick }

/-- The boot header's rules at a start: an unconfirmed active slot that has been tried three times is reverted (R540). -/
def State.revertRule (s : State) (sd : Side) : State :=
  let h := s.bootHdr sd.idx
  if !h.isConfirmed h.active && decide (3 ≤ h.tries) then
    let s := s.writeHdr sd.idx { h with active := h.prev, tries := 0 }
    { (s.setF (R1 .UPD_SIDE sd.idx) F.UPD_SIDE_REVERTED 1).toStage 2 with confirming := false }
  else s

/-- The slot that a Side starts from: the active one where its image passes, else the other where that is confirmed and passes (R528). -/
def State.startSlot (s : State) (sd : Side) : Option Nat :=
  let h := s.bootHdr sd.idx
  if (s.slotImage sd.idx h.active).passes then some h.active
  else if h.isConfirmed (1 - h.active) && (s.slotImage sd.idx (1 - h.active)).passes then some (1 - h.active)
  else none

/-- A start of a Side: a boot of an unconfirmed active slot counts a try, a start from the other slot sets FALLBACK, and with neither the Side stays
in reset (R528, R540). -/
def State.startSide (s : State) (sd : Side) : State :=
  let h := s.bootHdr sd.idx
  match s.startSlot sd with
  | none => s.setF (R1 .UPD_SIDE sd.idx) F.UPD_SIDE_NO_FW 1
  | some k =>
    let s := if k ≠ h.active then s.setF (R1 .UPD_SIDE sd.idx) F.UPD_SIDE_FALLBACK 1
      else if h.isConfirmed h.active then s else s.writeHdr sd.idx { h with tries := h.tries + 1 }
    s.fwLoaded sd k

/-- A Side waits to be loaded: a structure is loaded, the Side is in reset with its supplies good, and no sensor of it is below −5 °C (R554, R561). -/
def State.mayStart (s : State) (sd : Side) : Bool :=
  let x := s.side sd
  s.loaded && x.inReset && !x.isolated && !x.cold && x.powered && decide (-5 ≤ (s.therm.at sd.idx).min)

/-- SIDE_FW_LOAD: the boot core reads the Side's active slot from its flash, verifies it and loads it (R529). -/
def execSideFwLoad (sd : Side) (s : State) : Out := .next (if s.mayStart sd then (s.revertRule sd).startSide sd else s)

/-! ## The images of the structure record (R523, R525, R527, R528) -/

/-- The image hash of the lane sequencer microcode: from FLASH0, or from FLASH1 where FLASH0's copy does not pass (R525). -/
def State.ucodeHash (s : State) : List W32 :=
  let x (f : Nat) : FwImage := s.slotImage f (s.bootHdr f).active
  if (x 0).passes then (x 0).hash else if (x 1).passes then (x 1).hash else []

/-- BOOT_IMAGES_LOADED: the images that the structure record names, `none` where no record holds images that pass R523 but for the compiler's rules
(R527, R528). A structure that breaks a compiler rule does not pass R523. -/
def execBootImagesLoaded (images : Option Structure_) (s : State) : Out :=
  if s.aoReset ∨ !s.otpOk ∨ s.loaded ∨ s.fld (R0 .UMW_STAT) F.UMW_STAT_STATE = 2 then .next s
  else match images with
    | none => .next (s.setF (R0 .UMW_STAT) F.UMW_STAT_STATE 2)
    | some p =>
      if s.baseLawful p then .next (State.loadStructure { s with fwHash := s.fwHash.set 2 s.ucodeHash } p)
      else .next (s.setF (R0 .UMW_STAT) F.UMW_STAT_STATE 2)

/-- A flash's active slot holds the base image of a package (R538). -/
def State.holdsBase (s : State) (f : Nat) (base : List W32) : Bool := decide ((s.slotImage f (s.bootHdr f).active).hash = base)

/-- A firmware package is verified: `built` is the target that its differences give on the base image, none where they are malformed. The encoding of
the differences is not given. -/
def State.verifyFirmware (s : State) (x : Session) (built : Option (List W32)) (flashOk : Bool) : Option Nat × State :=
  let pkg := s.packageWords x
  let c := if imageType pkg = 4 then s.imageCode pkg x.len (fun ts => decide (ts.length = 1)) true else codeFormat
  if c ≠ codeOk then s.refuse c
  else if !(s.holdsBase 0 ((pkg.drop 42).take 8) && s.holdsBase 1 ((pkg.drop 42).take 8)) then s.refuse codeBase
  else match built with
    | none => s.refuse codeFormat
    | some t =>
      let slots := [1 - (s.bootHdr 0).active, 1 - (s.bootHdr 1).active]
      if 0x200000 < t.length then s.refuse codeSpace
      else if !flashOk then s.refuse codeFlash
      else
        let s := (s.putFlashWords 0 (slotBase (slots.getD 0 1)) t).putFlashWords 1 (slotBase (slots.getD 1 1)) t
        let c := if imageType t = 4 then s.imageCode t (4 * t.length) (sectionsOk 4) true else codeFormat
        if shaOfWords t ≠ (pkg.drop 50).take 8 then s.refuse codeHash
        else if c ≠ codeOk then s.refuse c
        else
          let target : FwImage := { passes := true, version := t.getD 1 0, svn := imageSvn t, hash := shaOfWords t }
          (some codeOk, { s with session := some { x with verified := true, target := target, slots := slots } }.writeJournal.toStage 2)

/-- A Side image's plans take effect. -/
def State.loadSide (s : State) (p : SidePlan) : State :=
  let s : State := match p.bench with
    | some b => { s with benchPlan := b }
    | none => s
  let s : State := match p.alloy with
    | some a => (s.loadAlloy a).newCads
    | none => s
  match p.audio with
  | some a => s.loadAudio a
  | none => s

/-- The TYPE of an image with these plan sections (R521). -/
def Change.type : Change → Nat
  | .base _ => 1
  | .region _ _ => 2
  | .side _ => 3

/-- The compiler's rules hold for the structure that would result (R523). -/
def State.changeLawful (s : State) : Change → Bool
  | .base p => s.baseLawful p
  | .region q p => decide (q < 128) && (s.applyRegion q p).lawful
  | .side p => p.alloy.all AlloyPlan.lawful && p.audio.all AudioPlan.lawful && (s.loadSide p).lawful

/-- A structure image is verified; what its plan sections encode. -/
def State.verifyStructure (s : State) (x : Session) (change : Change) : Option Nat × State :=
  let ws := s.packageWords x
  let type := imageType ws
  let c := if type = 4 then codeFormat else s.imageCode ws x.len (sectionsOk type) (decide (change.type = type) && s.changeLawful change)
  if c ≠ codeOk then s.refuse c
  else (some codeOk, { s with session := some { x with verified := true, target := { passes := true, version := ws.getD 1 0, hash := shaOfWords ws }, change := some change } }.writeJournal.toStage 2)

/-- VERIFY. -/
def State.updVerify (built : Option (List W32)) (change : Change) (flashOk : Bool) (s : State) : Option Nat × State :=
  match s.session with
  | none => s.refuse codeSession
  | some x =>
    if s.stage ≠ 1 then s.refuse codeState
    else if s.flag (R0 .UMW_STAT) F.UMW_STAT_BUSY then s.refuse codeBusy
    else if !((List.range x.pieces).all fun i => x.done.contains i) then s.refuse codeBadPart
    else if leWords (sha256 (s.packageBytes x)) ≠ x.hash then s.refuse codeHash
    else if x.kind = 1 then s.verifyFirmware x built flashOk else s.verifyStructure x change

/-- VERIFY; what the package's differences build on the base image, what a structure image's plan sections encode,
and whether the flashes take what is written. -/
def execUpdVerify (built : Option (List W32)) (change : Change) (flashOk : Bool) (s : State) : Out :=
  .next (s.onMsg 5 (State.updVerify built change flashOk))

/-! ## ACTIVATE, CONFIRM, ABORT (R539) -/

/-- The standby, where it is READY. -/
def State.readyStandby (s : State) : Option Side :=
  match s.holder with
  | some x => if s.ready x.other then some x.other else none
  | none => none

/-- The new slot is marked active in a Side's flash, and the Side is reset by command (R177). -/
def State.activateOn (s : State) (x : Session) (y : Side) : State :=
  let h := s.bootHdr y.idx
  let k := x.slots.getD y.idx 1
  let keep := if k = 0 then h.confirmed / 2 * 2 else h.confirmed % 2
  let s := s.writeHdr y.idx { h with active := k, confirmed := keep, tries := 0, prev := h.active }
  { s with updSide := y }.cmdReset y

/-- ACTIVATE. -/
def State.updActivate (flashOk : Bool) (s : State) : Option Nat × State :=
  match s.session with
  | none => s.refuse codeSession
  | some x =>
    if x.kind ≠ 1 then s.refuse codeBadCmd
    else if s.stage ≠ 2 then s.refuse codeState
    else match s.readyStandby with
      | none => s.refuse codeState
      | some y =>
        if x.target.svn < s.svn then s.refuse codeRollback
        else if !flashOk then s.refuse codeFlash
        else (some codeOk, (s.activateOn x y).toStage 3)

/-- ACTIVATE. -/
def execUpdActivate (flashOk : Bool) (s : State) : Out := .next (s.onMsg 6 (State.updActivate flashOk))

/-- The active slot of a Side's flash is confirmed. -/
def State.confirmSlot (s : State) (y : Side) : State :=
  let h := s.bootHdr y.idx
  s.writeHdr y.idx { h with confirmed := if h.active = 0 then h.confirmed / 2 * 2 + 1 else h.confirmed % 2 + 2, tries := 0 }

/-- A cadence counter of the slowest active format (R175, R532). -/
def State.slowestCad (s : State) : Nat := ((List.range 32).find? fun n => (s.cadFmt n).period = s.slowestFmt.period).getD 0

/-- The boot core asks for a planned switch-over with RFE_SWO_FRAME 0. -/
def State.askSwitch (s : State) : State := (s.wr (R0 .RFE_SWO_FRAME) 0).writeRfeCmd (w32 (1 + 8 * s.slowestCad))

/-- CONFIRM: the first Side's slot is confirmed and a planned switch-over asked for; once it has happened the other Side is marked and reset. -/
def State.updConfirm (flashOk : Bool) (s : State) : Option Nat × State :=
  match s.session with
  | none => s.refuse codeSession
  | some x =>
    if x.kind ≠ 1 then s.refuse codeBadCmd
    else if s.stage ≠ 3 then s.refuse codeState
    else if s.confirming then
      if s.planned.isSome then (none, s)
      else
        let s : State := { s with confirming := false }
        if s.holder = some s.updSide then (some codeOk, (s.activateOn x s.updSide.other).toStage 4) else s.refuse codeNotInStep
    else if !s.flag (R0 .UPD_STAT) F.UPD_STAT_TRIAL_DONE then s.refuse codeState
    else if !flashOk then s.refuse codeFlash
    else
      let s := s.confirmSlot s.updSide
      if s.holder = some s.updSide then (some codeOk, (s.activateOn x s.updSide.other).toStage 4)
      else if s.planned.isSome then s.refuse codeNotInStep
      else
        let s := s.askSwitch
        if s.planned.isSome then (none, { s with confirming := true }) else s.refuse codeNotInStep

/-- CONFIRM. -/
def execUpdConfirm (flashOk : Bool) (s : State) : Out := .next (s.onMsg 7 (State.updConfirm flashOk))

/-- ABORT. -/
def State.updAbort (s : State) : Option Nat × State :=
  match s.session with
  | none => s.refuse codeSession
  | some _ =>
    if s.stage < 3 then (some codeOk, s.dropSession)
    else
      let y := s.updSide
      let h := s.bootHdr y.idx
      let s := s.writeHdr y.idx { h with active := h.prev, tries := 0 }
      (some codeOk, ({ s with confirming := false }.cmdReset y).toStage 2)

/-- ABORT. -/
def execUpdAbort (s : State) : Out := .next (s.onMsg 8 State.updAbort)

/-- UPD_CFG.TRIAL in ticks. -/
def State.trialTicks (s : State) : Nat := max 1 (s.fld (R0 .UPD_CFG) F.UPD_CFG_TRIAL) * secTicks

/-- The Side under trial has been in step for TRIAL. -/
def State.trialOver (s : State) : Bool := (s.side s.updSide).stepSince.any fun t => decide (t + s.trialTicks ≤ s.tick)

/-- UPD_TRIAL_LEFT: the in-step seconds still needed. -/
def State.trialLeft (s : State) : Nat :=
  if s.stage < 3 then 0
  else match (s.side s.updSide).stepSince with
    | some t => (t + s.trialTicks - s.tick + secTicks - 1) / secTicks
    | none => s.trialTicks / secTicks

/-- TRIAL_DONE. -/
def execTrialDone (s : State) : Out :=
  .next (if s.stage = 3 ∧ s.trialOver = true then s.setF (R0 .UPD_STAT) F.UPD_STAT_TRIAL_DONE 1 else s)

/-- SECOND_DONE: the second Side's slot is confirmed, the OTP count rises to the target's SVN, and the journal is cleared. -/
def execSecondDone (s : State) : Out :=
  match s.session with
  | some x =>
    if s.stage = 4 ∧ s.trialOver = true then
      let s := s.confirmSlot s.updSide
      .next { s with svn := max s.svn x.target.svn }.dropSession
    else .next s
  | none => .next s

/-! ## Structure changes (R531 to R533) -/

/-- An output slot transmits: it has a transmit position. -/
def State.outSends (s : State) (d : Nat) : Bool := (s.outPlan.at d).txE.isSome || (s.outPlan.at d).txW.isSome

/-- A head feeds an output slot that is transmitting. -/
def State.headFeeds (s : State) (h : Nat) : Bool := s.routes.any fun p => decide (p.1 < 1024) && decide (p.2.src = 1024 + h) && s.outSends p.1

/-- A destination channel feeds an output slot, transmit flow or TDM port that is transmitting. -/
def State.audFeeds (s : State) (x : AudDst) : Bool :=
  match x.kind with
  | 1 => s.outSends x.owner
  | 2 => s.txfEn .E x.owner || s.txfEn .W x.owner
  | 3 => decide (s.tdmState x.owner = 2)
  | _ => false

/-- A Side image changes something that is in use (R532). -/
def State.sideInUse (s : State) (p : SidePlan) : Bool :=
  (p.bench.any fun b => decide (b ≠ s.benchPlan) && s.benches.any fun e => decide (e.2.st ≠ .free)) ||
  (p.alloy.any fun a => (List.range 32).any fun h => decide ((smapOf a.heads).at h ≠ s.headPlan.at h) && s.headFeeds h) ||
  (p.audio.any fun a =>
    (s.audSrc.any fun e =>
      let n := (smapOf a.src).at e.1
      decide (n.kind ≠ e.2.kind ∨ n.origin ≠ e.2.origin ∨ n.index ≠ e.2.index ∨ n.delta ≠ e.2.delta) &&
        s.audDst.any fun q => decide (q.2.cur.src = e.1) && s.audFeeds q.2) ||
    (decide (a.hi ≠ s.audioHi) && s.audDst.any fun e => decide (e.2.kind ≠ 0)) ||
    s.audDst.any fun e =>
      let n := (smapOf a.dst).at e.1
      decide (n.kind ≠ e.2.kind ∨ n.owner ≠ e.2.owner ∨ n.index ≠ e.2.index ∨ n.delayMax ≠ e.2.delayMax) && s.audFeeds e.2)

/-- UMW_STAT while a change runs. -/
def State.changeStep (s : State) (n : Nat) : State := (s.setF (R0 .UMW_STAT) F.UMW_STAT_BUSY 1).setF (R0 .UMW_STAT) F.UMW_STAT_STEP n

/-- An APPLY that is refused. -/
def State.refuseApply (s : State) (code : Nat) : Option Nat × State := (some code, s.setF (R0 .UMW_STAT) F.UMW_STAT_RESULT code)

/-- APPLY: refused with BUSY while a structure change runs (R533). -/
def State.updApply (s : State) : Option Nat × State :=
  if s.flag (R0 .UMW_STAT) F.UMW_STAT_BUSY then s.refuseApply codeBusy
  else match s.session with
  | none => s.refuseApply codeSession
  | some x =>
    if x.kind ≠ 2 then s.refuseApply codeBadCmd
    else if s.stage ≠ 2 then s.refuseApply codeState
    else match x.change with
      | none => s.refuseApply codeState
      | some (.base _) => (some codeOk, s.newRecord.setF (R0 .UMW_STAT) F.UMW_STAT_RESULT codeOk)
      | some (.region q p) =>
        (some codeOk, { s with change := some (.region q { p with version := x.target.version }), changeAt := s.tick + 100 * usTicks }.changeStep 0)
      | some (.side p) =>
        match s.readyStandby with
        | none => s.refuseApply codeState
        | some y =>
          if s.sideInUse p then s.refuseApply codeInUse
          else
            let s : State := { s with change := some (.side { p with version := x.target.version }), changeAt := s.tick }
            (some codeOk, (s.changeStep 1).cmdReset y)

/-- APPLY. -/
def execUpdApply (s : State) : Out := .next (s.onMsg 9 State.updApply)

/-- The standby is in step. -/
def State.standbyInStep (s : State) : Bool := s.inStep .A || s.inStep .B

/-- A Side runs with the new structure of a Side image: it has started since APPLY (R532). -/
def State.startedNew (s : State) (sd : Side) : Bool := !(s.side sd).inReset && decide (s.changeAt ≤ (s.side sd).released)

/-- The new structure of a Side image comes into force with a holder that runs it; the other Side is reset unless it has started anew or waits to. -/
def State.sideInForce (s : State) (p : SidePlan) (x : Side) : State :=
  let s := (s.loadSide p).changeStep 3
  if (s.side x.other).inReset || s.startedNew x.other then s else s.cmdReset x.other

/-- SIDE_IMAGE_STEP: in step 1 a standby in step brings the planned switch-over of step 2; once a Side with the new structure holds the lease, by that
switch-over or a fail-over, the other is reset; the change ends when both hold it and the standby is in step (R532). -/
def execSideImageStep (s : State) : Out :=
  match s.change, s.holder with
  | some (.side p), some x =>
    match s.fld (R0 .UMW_STAT) F.UMW_STAT_STEP with
    | 3 =>
      if s.standbyInStep && s.startedNew x && s.startedNew x.other then
        .next ((((s.wr (R0 .UMW_SIDE_VER) p.version).newRecord).changeStep 4).endChange codeOk)
      else if s.startedNew x.other || (s.side x.other).inReset then .next s
      else .next (s.cmdReset x.other)
    | 0 => .next s
    | n =>
      if s.planned.isSome then .next s
      else if s.startedNew x then .next (s.sideInForce p x)
      else if n = 1 ∧ s.standbyInStep then .next (s.askSwitch.changeStep 2)
      else .next (s.changeStep 1)
  | _, _ => .next s

/-- SIDE_IMAGE_TIMEOUT: no standby in step within 10 s of step 1. -/
def execSideImageTimeout (s : State) : Out :=
  match s.change, s.holder with
  | some (.side _), some x =>
    let st := s.fld (R0 .UMW_STAT) F.UMW_STAT_STEP
    if (st = 1 ∨ st = 2) ∧ s.planned = none ∧ s.standbyInStep = false ∧ s.changeAt + 10 * secTicks ≤ s.tick then
      .next ((s.cmdReset x.other).endChange codeNotInStep)
    else .next s
  | _, _ => .next s

/-! ## Attestation (R547) -/

/-- The hash last loaded, or zeros. -/
def State.hashOf (s : State) (k : Nat) : List W32 := if s.fwHash.at k = [] then List.replicate 8 0 else s.fwHash.at k

/-- Words 0 to 43 of a report. -/
def State.reportWords (s : State) (nonce : List W32) : List W32 :=
  [w32 (1 + 60 * 2 ^ 16), Config.serial.extractLsb' 0 32, Config.serial.extractLsb' 32 32, w32 (s.svn % 128)] ++
    s.hashOf 0 ++ s.hashOf 1 ++ s.hashOf 2 ++ ((List.range 8).map fun k => s.rd (R1 .UMW_HASH k)) ++ nonce

/-- The whole report, signed with the device identity key. -/
def State.attestReport (s : State) (nonce : List W32) : List W32 :=
  let ws := s.reportWords nonce
  let e := beNat (sha256 (leBytes ws))
  ws ++ (List.range 16).map fun k => Config.attestSign e k

/-- The boot core locks a mailbox, writes the next group and rings. -/
def State.attestSend (s : State) (m : Nat) (ws : List W32) : State :=
  let s := (s.setF (R1 .MBX_STAT m) F.MBX_STAT_OWNER 10).mbxTo m 1
  let s := (List.range 16).foldl (fun (s : State) w => s.writeMbxMsg m w (ws.getD w 0)) s
  { s.writeDoorbell m 1 with attest := some (m, ws.drop 16) }

/-- ATTEST: the first group is sent. -/
def State.updAttest (s : State) : Option Nat × State :=
  let m := (s.msg 9).toNat
  if 32 ≤ m ∨ s.mbxState m ≠ 0 then s.refuse codeState
  else (some codeOk, s.attestSend m (s.attestReport (s.msgWords 1 8)))

/-- ATTEST: a new attestation, or the next group of the one in progress once the last is acknowledged. -/
def execUpdAttest (s : State) : Out :=
  match s.attest with
  | none => .next (s.onMsg 10 State.updAttest)
  | some (m, ws) =>
    if s.mbxState m = 0 then .next { s with attest := none }
    else if s.mbxState m = 3 ∧ s.mbxOwner m = 10 then
      let s := s.mbxFree m
      .next (if ws = [] then { s with attest := none } else s.attestSend m ws)
    else .next s

end Sys2Proof.Machine
end

