-- ==== Sys2Proof/Machine/Security.lean ====
section
/-!
DEFINITION. Tokens: owner keys and the debug unlock (chapter 18).
-/
namespace Sys2Proof.Machine

/-- Requesters 1 to 7 and 10 write their own copies (R545). -/
def tokenAdmits (r : Req) : Bool := r != .fwA && r != .fwB

/-- A requester's token, 45 words. -/
def State.token (s : State) (r : Req) : List W32 := (List.range 45).map fun k => s.rd (RB .SEC_TOKEN r k)

/-- KIND of a requester's token. -/
def State.tokenKind (s : State) (r : Req) : Nat := (s.rd (RB .SEC_TOKEN r 0)).toNat % 16

/-- The token names this device and the challenge in force. -/
def State.tokenFresh (s : State) (r : Req) : Bool :=
  let w (k : Nat) : W32 := s.rd (RB .SEC_TOKEN r k)
  w 1 == Config.serial.extractLsb' 0 32 && w 2 == Config.serial.extractLsb' 32 32 && w 3 == s.rd (R0 .SEC_CHAL_LO) && w 4 == s.rd (R0 .SEC_CHAL_HI)

/-- The token is signed by the current owner. -/
def State.tokenSigned (s : State) (r : Req) : Bool :=
  let t := s.token r
  let key := (t.drop 13).take 16
  s.owners.getLast? == some (shaOfWords key) && signatureOk key (t.drop 29) (t.take 29)

/-- A refusal for which the spec gives no code. -/
def State.openCode (s : State) : Nat × State := ((Config.tokenCode s.fresh.1).toNat, s.fresh.2)

/-- The debug unlock ends: a master reset of M7 (R463, R545). -/
def State.endUnlock (s : State) : State :=
  match s.unlock with
  | none => s
  | some (q, _) =>
    let s : State := { s with unlock := none }
    match Req.ofNum q with
    | some r => s.masterReset 7 r {}
    | none => s

/-- CLAIM acts: words 5 to 12 are burned into slot 0 (R545). -/
def State.actClaim (s : State) (r : Req) : Nat × State :=
  if !s.tokenFresh r ∨ s.owners ≠ [] then s.openCode
  else (codeOk, { s with owners := [(s.token r).drop 5 |>.take 8] })

/-- TRANSFER acts: words 5 to 12 are burned into the next slot. -/
def State.actTransfer (s : State) (r : Req) : Nat × State :=
  if !s.tokenFresh r then s.openCode
  else if !s.tokenSigned r then (codeSignature, s)
  else if 8 ≤ s.owners.length then s.openCode
  else (codeOk, { s with owners := s.owners ++ [(s.token r).drop 5 |>.take 8] })

/-- DEBUG_UNLOCK acts: M7 is enabled as requester REQ for MINUTES. -/
def State.actUnlock (s : State) (r : Req) : Nat × State :=
  let w0 := (s.rd (RB .SEC_TOKEN r 0)).toNat
  let q := w0 / 16 % 16
  let m := max 1 (min 1440 (w0 / 65536))
  if q = 0 ∨ 10 < q then (codeFormat, s)
  else if !s.tokenFresh r then s.openCode
  else if !s.tokenSigned r then (codeSignature, s)
  else (codeOk, { s.endUnlock with unlock := some (q, s.tick + m * 60 * secTicks) })

/-- A write of SEC_TOKEN_CTL: GO acts on the writer's token and renews the challenge, RELOCK ends an unlock. -/
def State.writeTokenCtl (s : State) (r : Req) (v : W32) : State :=
  let s := if bitOf v 0 then
      let p := match s.tokenKind r with
        | 1 => s.actUnlock r
        | 2 => s.actTransfer r
        | 3 => s.actClaim r
        | _ => s.openCode
      p.2.newChallenge.setF (RB .SEC_TOKEN_RES r 0) F.SEC_TOKEN_RES_CODE p.1
    else s
  if bitOf v 1 then s.endUnlock else s

/-- A write of GO by a requester whose token has the given KIND. -/
def State.goToken (s : State) (r : Req) (kind : Nat) : State :=
  s.access r .sec (tokenAdmits r) (R0 .SEC_TOKEN_CTL).addr 1 fun s => if s.tokenKind r = kind then s.writeTokenCtl r 1 else s

/-- CLAIM. -/
def execSecClaim (r : Req) (s : State) : Out := .next (s.goToken r 3)

/-- TRANSFER. -/
def execSecTransfer (r : Req) (s : State) : Out := .next (s.goToken r 2)

/-- DEBUG_UNLOCK. -/
def execDebugUnlock (r : Req) (s : State) : Out := .next (s.goToken r 1)

/-- RELOCK. -/
def execRelock (r : Req) (s : State) : Out :=
  .next (s.access r .sec (tokenAdmits r) (R0 .SEC_TOKEN_CTL).addr 2 fun s => s.writeTokenCtl r 2)

/-- DEBUG_UNLOCK_EXPIRY: the unlock's minutes have run out. -/
def execDebugUnlockExpiry (s : State) : Out :=
  match s.unlock with
  | some (_, t) => .next (if t ≤ s.tick then s.endUnlock else s)
  | none => .next s

/-- SEC_STAT as read. -/
def State.secStat (s : State) : W32 :=
  let d := match s.unlock with
    | some (q, t) => 2 ^ 12 + 2 ^ 13 * q + 2 ^ 17 * ((t - s.tick + 60 * secTicks - 1) / (60 * secTicks))
    | none => 0
  w32 ((s.rd (R0 .SEC_STAT)).toNat % 2 + 2 * (s.svn % 128) + 2 ^ 8 * (s.owners.length % 16) + d)

end Sys2Proof.Machine
end

