-- ==== Sys2Proof/Machine/Power.lean ====
section
/-!
DEFINITION. Supplies, temperatures and the Harif bypass (chapter 19).
-/
namespace Sys2Proof.Machine

/-! ## A Side's supplies (R554, R555) -/

/-- The lines of a Side's rails: CORE_SUPPLY and HBM_SUPPLY (R506). -/
def railLines (sd : Side) : List Nat := [16 * sd.idx + 8, 16 * sd.idx + 9]

/-- A line is asserted from outside. -/
def State.envLine (s : State) (l : Nat) : Bool := s.envLines.any fun p => p.1 = l

/-- SIDE_POWER_GOOD: SIDE_PG and the Side's rails have held good for 1 ms; while SIDE_PWR_EN is high the Side may leave reset. -/
def execSidePowerGood (sd : Side) (s : State) : Out :=
  let x := s.side sd
  if s.aoReset ∨ (railLines sd).any s.envLine then .next s
  else if !s.loaded ∨ x.cold then .next (s.setSide sd { x with pg := true })
  else .next (s.setSide sd { x with powered := true, pg := true, pwrAt := none })

/-- PG_LATE: SIDE_PG has not risen 50 ms after the enable; the Side keeps waiting. -/
def execPgLate (sd : Side) (s : State) : Out :=
  let x := s.side sd
  match x.pwrAt with
  | some t => if t + 50 * msTicks ≤ s.tick ∧ !x.pg then
      .next ((s.setSide sd { x with pwrAt := none }).raise (R0 .SYS_EVT) F.SYS_EVT_PG_LATE)
    else .next s
  | none => .next s

/-! ## A bank's supplies (R19, R554) -/

/-- The lanes of a bank. -/
def bankLanes (b : Bank) : List Nat := (List.range 256).map fun n => 256 * b.idx + n

/-- The line of a bank's supplies (R507). -/
def bankLine (b : Bank) : Nat := 32 + b.idx

/-- A bank's lanes lose signal and go to electrical idle, and its quad PLLs are off. -/
def State.bankOff (s : State) (b : Bank) : State :=
  let s := (bankLanes b).foldl (fun (s : State) n => if s.laneProto n = 0 then s else (s.losSet n).enterPark n 3) s
  ((List.range 64).foldl (fun (s : State) q => s.quadOff (64 * b.idx + q)) s).updateStep

/-- A bank's supplies have failed. -/
def State.bankFail (s : State) (b : Bank) (ctx : W32) : State :=
  let s : State := { s with bankLost := b :: s.bankLost, envLines := (bankLine b, ctx) :: s.envLines.filter fun p => decide (p.1 ≠ bankLine b) }
  let s := (s.raise (R0 .SYS_EVT) F.SYS_EVT_RAIL_FAIL).bankOff b
  if b = .E then (s.portDown 128).portDown 129 else s

/-- BANK_SUPPLY_RETURN: a bank's supplies have been good for 1 ms: its line falls and its lanes wake as from L3. -/
def execBankSupplyReturn (b : Bank) (s : State) : Out :=
  if !s.bankLost.contains b then .next s
  else
    let s : State := { s with bankLost := s.bankLost.filter fun (x : Bank) => decide (x ≠ b), envLines := s.envLines.filter fun p => decide (p.1 ≠ bankLine b) }
    .next (((bankLanes b).foldl (fun (s : State) n => s.startWake n) s).cycle [])

/-! ## Temperatures (R506, R561, R575) -/

/-- The highest of the readings and the number of the first sensor that has it. -/
def hottest (t : List Int) : Int × Nat :=
  let m := t.foldl max (t.headD 0)
  (m, (t.findIdx? fun x => x = m).getD 0)

/-- A Side's thermal lines: each sets at its limit and falls below 100 °C (R506). -/
def thermRead (x : Therm) (t : List Int) : Therm :=
  let h := hottest t
  { max := h.1, sensor := h.2, min := t.foldl min h.1, trip := decide (110 ≤ h.1) || (x.trip && decide (100 ≤ h.1)),
    warn := decide (105 ≤ h.1) || (x.warn && decide (100 ≤ h.1)) }

/-- SYS_TEMP of a region reports its highest sensor and the highest reading since AO_RESET_N. -/
def State.noteTemp (s : State) (k : Nat) (t : Int) : State :=
  let old := sext 8 (s.fld (R1 .SYS_TEMP k) F.SYS_TEMP_MAX)
  let top := if s.tempSeen.contains k then max old t else t
  let s : State := { s with tempSeen := if s.tempSeen.contains k then s.tempSeen else k :: s.tempSeen }
  (s.setF (R1 .SYS_TEMP k) F.SYS_TEMP_TEMP (twos 8 t)).setF (R1 .SYS_TEMP k) F.SYS_TEMP_MAX (twos 8 top)

/-- THERMAL_SENSOR_READ: the sensors of a region are read, as SYS_TEMP numbers the regions; a Side's drive its lines, another region's set
TEMP_HIGH at 105 °C. -/
def execThermalSensorRead (k : Fin 6) (readings : List Int) (s : State) : Out :=
  if s.aoReset ∨ readings = [] then .next s
  else
    let h := hottest readings
    let s := s.noteTemp k h.1
    if k.val < 2 then .next (({ s with therm := s.therm.upd k fun x => thermRead x readings } : State).cycle [])
    else .next (s.raiseIf (decide (105 ≤ h.1)) (R0 .SYS_EVT) F.SYS_EVT_TEMP_HIGH)

/-! ## The JTAG test access port (R569) -/

/-- The instructions of the test access port. -/
inductive TapInstr where
  | bypass | idcode | samplePreload | extest | extestPulse | extestTrain | clamp | highz | dap
deriving DecidableEq, Repr

/-- The instruction that acts when `i` is selected: those that take control of the balls do so only while AO_RESET_N is low, and act as BYPASS at
any other time; DAP reaches master M7, which is inert until it is unlocked (R463, R545). -/
def State.tapActs (s : State) (i : TapInstr) : TapInstr :=
  match i with
  | .extest | .extestPulse | .extestTrain | .clamp | .highz => if s.aoReset then i else .bypass
  | _ => i

/-- What IDCODE reads. -/
def jtagIdcode : W32 := 0x1EC24A8B#32

/-! ## The Harif bypass (R568) -/

/-- HARIF_BYPASS_OPEN: after AO_RESET_N has risen, the interface is locked to the commas and a ring frame starts. -/
def execHarifBypassOpen (s : State) : Out :=
  if s.aoReset then .next s else .next { s with ring := { s.ring with bypassed := false } }

/-- BYPASS_SUPPLY_LOSS: VDD_AO or VDDIO leaves its range; the bypass closes, without any reset. -/
def execBypassSupplyLoss (s : State) : Out := .next { s with ring := { s.ring with bypassed := true } }

end Sys2Proof.Machine
end

