-- ==== Sys2Proof/Machine/Park.lean ====
section
/-!
DEFINITION. Parking by declaration: lane groups, the internal engines and the host region (R556 to R560).
-/
namespace Sys2Proof.Machine

/-! ## Lane groups (R214, R559) -/

/-- The lanes of a lane group, from LANE_PLAN. -/
def State.groupLanes (s : State) (g : Nat) : List Nat :=
  ((s.regs.filter fun e => decide (e.1.name = .LANE_CFG)).map fun e => e.1.i).filter fun n =>
    s.laneProto n != 0 && decide (s.fld (R1 .LANE_CFG n) F.LANE_CFG_GROUP = g)

/-- The requester holds a group: its partition holds the group's lowest lane (R572). -/
def State.holdsGroup (s : State) (r : Req) (g : Nat) : Bool :=
  match s.groupLanes g with
  | n :: _ => s.holdsLane r n
  | [] => s.allRights r

/-- A parked lane that its group no longer permits in its state moves to the deepest permitted one: to L0 by a wake, from L3 once its quad's PLL
locks again, else at once (R213, R215, R559). -/
def State.laneLift (s : State) (n : Nat) : State :=
  let d := s.laneDeepest n
  if s.lanePark n ≤ d then s
  else if d = 0 then s.startWake n
  else if s.lanePark n = 3 ∧ !s.flag (qstat (n / 4)) F.LANE_QSTAT_LOCK then s
  else s.enterPark n d

/-- A write of PARK_LANE_DECL takes effect in its tick. -/
def State.writeLaneDecl (s : State) (g : Nat) (v : W32) : State :=
  let s := s.wr (R1 .PARK_LANE_DECL g) (v &&& 0x3FFFFF#32)
  ((s.groupLanes g).foldl (fun (s : State) n => s.laneLift n) s).updateStep

/-- PARK_LANE_DECL_WRITE. -/
def execParkLaneDeclWrite (r : Req) (g : Fin 64) (v : W32) (s : State) : Out :=
  .next (s.access r .ao (s.holdsGroup r g) (R1 .PARK_LANE_DECL g).addr v fun s => s.writeLaneDecl g v)

/-- PARK_LANE_STAT (R576). -/
def State.laneGroupStat (s : State) (g : Nat) : W32 :=
  let ls := s.groupLanes g
  w32 (s.groupDeepest g + 2 ^ 2 * ls.length + 2 ^ 12 * (ls.filter fun n => s.lanePark n != 0).length)

/-! ## Internal engines (R557 to R559) -/

/-- The units per Side of an engine kind. -/
def engUnits : Nat → Nat
  | 0 => 1024 | 1 => 32 | 2 => 16 | _ => 64

/-- A unit has work: it is not idle in the sense of R557. -/
def State.engWork (s : State) (k u : Nat) : Bool :=
  match k with
  | 0 => (s.benches.at u).st != .free
  | 1 => s.headWork u || (s.headRun.at u).since.isSome
  | 2 => s.audDst.any fun p => decide (p.1 / 1024 = u) && p.2.kind != 0
  | _ =>
    if u < 32 then s.rxListed.any fun f => decide (f / 128 = u) && (s.rxfEn .E f || s.rxfEn .W f)
    else s.txListed.any fun f => decide (f / 128 = u - 32) && (s.txfEn .E f || s.txfEn .W f)

/-- PARK_ENG_DECL permits E2: it declares 20 µs or more. -/
def State.engDeep (s : State) (k : Nat) : Bool := decide (20000 ≤ declNs (s.rd (R1 .PARK_ENG_DECL k)))

/-- The engine wake time in ticks: 20 µs where E2 is permitted, 0.1 µs otherwise (R558). -/
def State.engWake (s : State) (k : Nat) : Nat := if s.engDeep k then 20 * usTicks else usTicks / 10

/-- Since when each unit is idle is brought up to date: a unit whose work has ended enters E1 at once. -/
def State.noteIdle (s : State) : State :=
  { s with engs := s.engs.foldl (fun (m : SMap EngUnit) e =>
      if e.2.busy && !s.engWork (e.1 / 2048) (e.1 % 2048) then SMap.set m e.1 { e.2 with busy := false, since := s.tick } else m) s.engs }

/-- ENGINE_IDLE_DEEP: a unit that has been idle for 1 ms enters E2 when that is permitted. -/
def execEngineIdleDeep (k : Fin 4) (u : Fin 1024) (s : State) : Out :=
  let x := s.engs.at (engIx k u)
  if u.val < engUnits k ∧ !s.engWork k u ∧ !x.busy ∧ !x.deep ∧ s.engDeep k ∧ x.since + msTicks ≤ s.tick then
    .next { s with engs := s.engs.set (engIx k u) { x with deep := true } }
  else .next s

/-- ENGINE_DEMAND: a unit that has been given work starts it after the engine wake time, in both Sides. -/
def execEngineDemand (k : Fin 4) (u : Fin 1024) (s : State) : Out :=
  let x := s.engs.at (engIx k u)
  if u.val < engUnits k ∧ s.engWork k u ∧ !x.busy then
    .next { s with engs := s.engs.set (engIx k u) { busy := true, deep := false, since := s.tick, start := s.tick + s.engWake k } }
  else .next s

/-- A write of PARK_ENG_DECL takes effect in its tick: units in E2 that it no longer permits wake to E1 (R559). -/
def State.writeEngDecl (s : State) (k : Nat) (v : W32) : State :=
  let s := s.wr (R1 .PARK_ENG_DECL k) (v &&& 0x3FFFFF#32)
  if s.engDeep k then s
  else { s with engs := s.engs.foldl (fun (m : SMap EngUnit) e =>
      if e.1 / 2048 = k ∧ e.2.deep = true then SMap.set m e.1 { e.2 with deep := false } else m) s.engs }

/-- PARK_ENG_DECL_WRITE: requesters 7 and 10. -/
def execParkEngDeclWrite (r : Req) (k : Fin 4) (v : W32) (s : State) : Out :=
  .next (s.access r .ao (is7or10 r) (R1 .PARK_ENG_DECL k).addr v fun s => s.writeEngDecl k v)

/-- The idle units of a kind in a Side; in a Side that does not run every unit is idle. -/
def State.idleUnits (s : State) (sd : Side) (k : Nat) : Nat :=
  if s.live sd then ((List.range (engUnits k)).filter fun u => !s.engWork k u).length else engUnits k

/-- PARK_ENG_STAT (R576). -/
def State.engStat (s : State) (k : Nat) : W32 :=
  w32 (b2n (s.engDeep k) + 2 ^ 2 * s.idleUnits .A k + 2 ^ 13 * s.idleUnits .B k)

/-! ## Master resets of the host ports (R463, R479, R488, R563) -/

/-- A host port's master is reset: its accesses are cut, RESETS counts, its endpoint's Bus Master Enable, MSI-X enable, mask bits and pending bits
take the values that PCI Express gives them at a reset; `down`: its link is down. -/
def State.portReset (s : State) (p : Nat) (cut : Cut) (down : Bool) : State :=
  let k := R1 .STR_HP_STAT p
  let s := (s.masterReset p (if p = 0 then .hp0 else .hp1) cut).addSat k F.STR_HP_STAT_RESETS 1
  let s := (s.setF k F.STR_HP_STAT_BME 0).setF k F.STR_HP_STAT_MSIX_EN 0
  let s := if down then ((s.setF k F.STR_HP_STAT_LINK_UP 0).setF k F.STR_HP_STAT_SPEED 0).setF k F.STR_HP_STAT_WIDTH 0 else s
  { s with msixOpen := s.msixOpen.set p 0, msixPend := s.msixPend.filter fun x => decide (x / 64 ≠ p) }

/-- PCIE_LINK_UP: a host port completes link training; a port that is disabled, parked or without Bank E's supplies does not train. -/
def execPcieLinkUp (p : Fin 2) (speed width : Fin 6) (s : State) : Out :=
  let k := R1 .STR_HP_STAT p.val
  if s.aoReset ∨ s.hostParked ∨ s.bankLost.contains .E ∨ !bitOf (s.rd (R0 .PARK_HOST)) p.val then .next s
  else .next (((s.setF k F.STR_HP_STAT_LINK_UP 1).setF k F.STR_HP_STAT_SPEED speed).setF k F.STR_HP_STAT_WIDTH width)

/-! ## The host region (R560) -/

/-- One of the four enables is set. -/
def State.hostEnabled (s : State) : Bool :=
  s.flag (R0 .PARK_HOST) F.PARK_HOST_HP0_EN || s.flag (R0 .PARK_HOST) F.PARK_HOST_HP1_EN ||
    s.flag (R1 .ETH_MG_CFG 0) F.ETH_MG_CFG_ENABLE || s.flag (R1 .ETH_MG_CFG 1) F.ETH_MG_CFG_ENABLE

/-- The requests of network host `h` are cut: a master reset of M2 for its accesses. -/
def State.hostReset (s : State) (h : Nat) : State :=
  let r : Req := match h with | 0 => .net0 | 1 => .net1 | 2 => .net2 | _ => .net3
  { s.masterReset 2 r {} with rrp := s.rrp.upd h fun x => { x with wait := [] } }

/-- The host region parks while none of its enables is set, and wakes when one is: at parking both PCI Express hosts see link down, and the RRP
bridge is reset. -/
def State.hostPark (s : State) : State :=
  if s.hostEnabled then { s with hostParked := false }
  else if s.hostParked then s
  else
    let s := (s.portReset 0 {} true).portReset 1 {} true
    let s := (List.range 4).foldl (fun (s : State) h => s.hostReset h) s
    { s with hostParked := true }

/-- A write of PARK_HOST: a port whose enable falls goes down. -/
def State.writeParkHost (s : State) (v : W32) : State :=
  let old := s.rd (R0 .PARK_HOST)
  let s := s.wr (R0 .PARK_HOST) (v &&& 3#32)
  let off (p : Nat) : Bool := bitOf old p && !bitOf v p && s.flag (R1 .STR_HP_STAT p) F.STR_HP_STAT_LINK_UP && s.hostEnabled
  let s := if off 0 then s.portReset 0 {} true else s
  let s := if off 1 then s.portReset 1 {} true else s
  s.hostPark

/-- PARK_HOST_WRITE: requesters 7 and 10. -/
def execParkHostWrite (r : Req) (v : W32) (s : State) : Out :=
  .next (s.access r .ao (is7or10 r) (R0 .PARK_HOST).addr v fun s => s.writeParkHost v)

/-- A write of ETH_MG_CFG: the region may park or wake. -/
def State.writeMgCfg (s : State) (g : Nat) (v : W32) : State := (s.wr (R1 .ETH_MG_CFG g) (v &&& 0x3FFFF#32)).hostPark

/-- A write of ETH_RRP_HOST: with VALID cleared, the host's request in progress is cut (R463). -/
def State.writeRrpHost (s : State) (h : Nat) (v : W32) : State :=
  let was := s.flag (R1 .ETH_RRP_HOST h) F.ETH_RRP_HOST_VALID
  let s := s.wr (R1 .ETH_RRP_HOST h) (v &&& 0x3FFFF#32)
  if was && !s.flag (R1 .ETH_RRP_HOST h) F.ETH_RRP_HOST_VALID && !(s.rrp.at h).wait.isEmpty then s.hostReset h else s

end Sys2Proof.Machine
end

