-- ==== Sys2Proof/Machine/View.lean ====
section
/-!
DEFINITION. The requester view (chapter 20): what an address names, and the word that each register returns to a read.
-/
namespace Sys2Proof.Machine

/-! ## What an address names (R577 to R580) -/

/-- A register of a row at an address: its two indices. -/
def RegRow.hit (w : RegRow) (a : Nat) : Option (Nat × Nat) :=
  if a < w.base then none
  else
    let d := a - w.base
    let i := if w.stride = 0 then 0 else d / w.stride
    let e := if w.stride = 0 then d else d % w.stride
    let j := if w.stride2 = 0 then 0 else e / w.stride2
    let z := if w.stride2 = 0 then e else e % w.stride2
    if z = 0 ∧ i < w.count ∧ j < w.count2 then some (i, j) else none

/-- The register of a list that lies at an address. -/
def findReg (regs : List RegName) (a : Nat) : Option (RegName × Nat × Nat) :=
  regs.findSome? fun n => (n.row.hit a).map fun p => (n, p.1, p.2)

/-- A block of R578: its first and last address, its target and its registers. -/
structure RegBlock where
  lo     : Nat
  hi     : Nat
  target : Target
  regs   : List RegName

/-- The blocks of R578 outside the Sides and the twin window. -/
def regBlocks : List RegBlock :=
  [⟨0x0, 0xFFF, .ao, regsSYS⟩, ⟨0x1000, 0xFFFFF, .ao, regsPARK⟩, ⟨0x100000, 0x10FFFF, .ao, regsRFE⟩,
   ⟨0x110000, 0x11FFFF, .ao, regsSLU⟩, ⟨0x120000, 0x1FFFFF, .ao, regsHAF⟩, ⟨0x200000, 0x2FFFFF, .ao, regsASY⟩,
   ⟨0x300000, 0x3FFFFF, .ao, regsEVT⟩, ⟨0x400000, 0x4FFFFF, .ao, regsMBX⟩, ⟨0x500000, 0x5FFFFF, .strata, regsSTR ++ regsWIN⟩,
   ⟨0x600000, 0x603FFF, .timing, regsTB⟩, ⟨0x610000, 0x6FFFFF, .timing, regsPTP⟩, ⟨0x700000, 0x77FFFF, .timing, regsREF⟩,
   ⟨0x780000, 0x7FFFFF, .timing, regsTDM⟩, ⟨0x800000, 0x9FFFFF, .lanes, regsLANE⟩, ⟨0xA00000, 0xBFFFFF, .lanes, regsNVL⟩,
   ⟨0xC00000, 0xDFFFFF, .lanes, regsETH⟩, ⟨0xE00000, 0xFFFFFF, .lanes, regsSDI⟩,
   ⟨0x2800000, 0x28FFFFF, .sec, regsSEC ++ regsUMW ++ regsUPD⟩]

/-- The registers of the Side layout and of the command sequencer (R579). -/
def sideRegs : List RegName := regsXPT ++ regsSEAM ++ regsFSY ++ regsAUD ++ regsALY ++ regsHBM ++ regsHOP

/-- The summary and mask registers that every page of a block shows stand in its first page; ETH_RRP_HOST stands in both management
pages (R312, R578). -/
def pageShared (a : Nat) : Nat :=
  let page := 0x800000 ≤ a ∧ a < 0xC00000 ∨ 0xC00000 ≤ a ∧ a < 0xC82000 ∨ 0xE00000 ≤ a ∧ a < 0x1000000
  let o := a % 0x1000
  if page ∧ 0xF40 ≤ o then
    (if 0xE00000 ≤ a then 0xE00000 else if 0xC00000 ≤ a then 0xC00000 else if 0xA00000 ≤ a then 0xA00000 else 0x800000) + o
  else if a / 0x1000 = 0xC81 ∧ 0x90 ≤ o ∧ o < 0xB0 then a - 0x1000
  else a

/-- What an address names: nothing, the flash controller (R524), a place in a block that holds no register, or a register. -/
inductive Place where
  | unmapped
  | flash
  | hole (t : Target)
  | reg (t : Target) (k : RegKey)
deriving DecidableEq, Repr

/-- The place of an offset of the Side layout, as a requester sees it. -/
def sidePlace (r : Req) (t : Target) (o : Nat) : Place :=
  match findReg sideRegs o with
  | some (n, i, j) =>
    let w := n.row
    let own := if w.banked then r.num else 0
    match t with
    | .twin => if w.space = .abs then .hole t else .reg t { name := n, i := i, j := j, bank := own }
    | _ =>
      if w.space = .side then .reg t { name := n, i := i, j := j, bank := 2 * own + (if t = .sideA then 0 else 1) } else .hole t
  | none => .hole t

/-- The place of a word address in the view of a requester. -/
def locate (r : Req) (a : Nat) : Place :=
  if 0x1000000 ≤ a ∧ a < 0x1800000 then sidePlace r .sideA (a - 0x1000000)
  else if 0x1800000 ≤ a ∧ a < 0x2000000 then sidePlace r .sideB (a - 0x1800000)
  else if 0x2000000 ≤ a ∧ a < 0x2800000 then sidePlace r .twin (a - 0x2000000)
  else if 0x2900000 ≤ a ∧ a < 0x2A00000 then .flash
  else match regBlocks.find? fun b => decide (b.lo ≤ a) && decide (a ≤ b.hi) with
    | none => .unmapped
    | some b =>
      match findReg b.regs (pageShared a) with
      | some (n, i, j) => .reg b.target { name := n, i := if n = .WIN_DATA then 0 else i, j := j, bank := if n.row.banked then r.num else 0 }
      | none => .hole b.target

/-- The register of a page that belongs to no configured lane or port, or of a bonded member that has no configuration (R56, R578): it reads 0
and ignores writes. -/
def State.noPage (s : State) (k : RegKey) : Bool :=
  let b := k.name.row.base
  let own := b % 0x1000 < 0xF40
  if k.name.row.space ≠ .abs then
    [RegName.XPT_IN_CFG, .XPT_IN_PHASE, .XPT_IN_PERIOD, .XPT_IN_MSTAT, .XPT_IN_LOST, .XPT_IN_BSPOIL].contains k.name && !s.srcAllocated k.i
  else if 0x610000 ≤ b ∧ b < 0x700000 then !s.portPresent k.i
  else if 0x800000 ≤ b ∧ b < 0xA00000 then own && s.laneProto k.i = 0
  else if 0xA00000 ≤ b ∧ b < 0xC00000 then own && s.laneProto k.i ≠ 1
  else if 0xE00000 ≤ b then own && b < 0x1000000 && s.laneProto k.i ≠ 2
  else if b = 0xC80090 ∨ b = 0xC800A0 then !s.portPresent 128 && !s.portPresent 129
  else if 0xC80000 ≤ b ∧ b < 0xC82000 then !s.portPresent (128 + k.i)
  else if 0xC00000 ≤ b ∧ b < 0xC80000 then own && !s.portPresent k.i
  else false

/-! ## Summary registers -/

/-- The sticky register and the mask that a summary register summarises. -/
def summaryOf : RegName → Option (RegName × RegName)
  | .SLU_SUMMARY => some (.SLU_EVT, .SLU_EVMASK)
  | .LANE_SUMMARY => some (.LANE_EVT, .LANE_EVMASK)
  | .NVL_SUMMARY => some (.NVL_EVT, .NVL_EVMASK)
  | .SDI_SUMMARY => some (.SDI_EVT, .SDI_EVMASK)
  | .ETH_SUMMARY => some (.ETH_PORT_EVT, .ETH_EVMASK)
  | .ETH_RXF_SUMMARY => some (.ETH_RXF_EVT, .ETH_RXF_EVMASK)
  | .XPT_IN_SUMMARY => some (.XPT_IN_MSTAT, .XPT_IN_EVMASK)
  | .XPT_OUT_SUMMARY => some (.XPT_OUT_STAT, .XPT_OUT_EVMASK)
  | .AUD_DST_SUMMARY => some (.AUD_DST_EVT, .AUD_EVMASK)
  | .ALY_SUMMARY => some (.ALY_EVT, .ALY_EVMASK)
  | _ => none

/-- A summary register: bit j is 1 while a selected bit of instance 32 i + j is. -/
def State.summaryWord (s : State) (k : RegKey) (evt mask : RegName) : W32 :=
  let m := s.rd { name := mask, bank := k.bank }
  (List.range 32).foldl (fun w j => if s.rd { name := evt, i := 32 * k.i + j, bank := k.bank } &&& m = 0 then w else w ||| bit1 j) 0

/-! ## Words that other state gives -/

/-- The log2 of a group's slots. -/
def bondCode (slots : Nat) : Nat := if slots = 2 then 1 else if slots = 4 then 2 else if slots = 8 then 3 else if slots = 16 then 4 else 0

/-- The layout that XPT_IN_DESC and XPT_OUT_DESC share (R66, R111). -/
def descWord (f : Fmt) (slots member : Nat) (e w x : Bool) : W32 :=
  w32 (f.code % 2 ^ 14 + 2 ^ 14 * bondCode slots + 2 ^ 17 * member + 2 ^ 21 * b2n f.il + 2 ^ 22 * b2n f.seg +
    2 ^ 24 * b2n e + 2 ^ 25 * b2n w + 2 ^ 26 * b2n x)

/-- XPT_IN_DESC. -/
def State.inDesc (s : State) (n : Nat) : W32 :=
  let p := s.inPlan.at n
  let low := if p.slots = 1 then n else p.lowest
  let x := s.inRx.at low
  descWord x.fmt x.slots (if x.slots = 0 then 0 else n - low) x.e.present x.w.present false

/-- XPT_OUT_DESC. -/
def State.outDesc (s : State) (d : Nat) : W32 :=
  let p := s.outPlan.at d
  let low := if p.slots = 1 then d else p.lowest
  descWord p.fmt p.slots (d - low) p.txE.isSome p.txW.isSome (s.destWithdrawn d)

/-- XPT_ROUTE; a bypass output shows its input slot (R113, R253). -/
def State.routeWord (s : State) (d : Nat) : W32 :=
  let src := match (s.outPlan.at d).bypass with
    | some n => if d < 1024 then n else (s.routes.at d).src
    | none => (s.routes.at d).src
  w32 (src % 2 ^ 11 + 2 ^ 16 * min 15 (s.takes.filter fun (t : Pending) => t.dest = d).length)

/-- XPT_PEND (R105). -/
def State.pendWord (s : State) : W32 := w32 (s.salvosPending.length + 2 ^ 13 * s.singles.length)

/-- SEAM_STAT (R150). -/
def State.seamStat (s : State) (d : Nat) : W32 :=
  let p := s.outPlan.at d
  let o := s.outs.at d
  let b := (s.routes.at d).bench
  w32 (rateClass p.fmt p.slots % 4 + 4 * b2n (o.untimed != 0) + 8 * b2n (decide (o.x ≠ wpSixteenths o.offset)) + 16 * b2n b.isSome + 32 * b.getD 0)

/-- An edge of an output's window; 0 while the structure gives the output no format (R151). -/
def State.windowWord (s : State) (d : Nat) (x : Int) : W32 := if (s.outPlan.at d).fmt.code = 0 then 0 else w32 (twos 18 x)

/-- The number of a Bench's state (R152). -/
def BenchState.code : BenchState → Nat
  | .free => 0
  | .priming => 1
  | .running => 2
  | .holding => 3

/-- FSY_STAT (R152). -/
def State.fsyStat (s : State) (b : Nat) : W32 :=
  let q := s.benches.at b
  w32 (q.st.code + 4 * b2n q.auto + 8 * (s.benchUsers b % 2 ^ 11) + 2 ^ 14 * (q.units % 2 ^ 8))

/-- The number of a channel's change (R349). -/
def AudChange.code : AudChange → Nat
  | .steady => 0
  | .search _ _ => 1
  | .ramp _ _ => 2

/-- AUD_DST_STAT (R349). -/
def State.audDstStat (s : State) (c : Nat) : W32 :=
  let x := s.audDst.at c
  w32 (x.cur.src % 2 ^ 15 + 2 ^ 15 * b2n (s.following c) + 2 ^ 16 * x.change.code)

/-- AUD_DST_DESC (R349). -/
def State.audDstDesc (s : State) (c : Nat) : W32 :=
  let x := s.audDst.at c
  w32 (x.kind % 4 + 4 * (x.owner % 2 ^ 12) + 2 ^ 14 * (x.index % 2 ^ 6) + 2 ^ 20 * (x.delayMax % 2 ^ 11))

/-- AUD_SRC_DESC (R351). -/
def State.audSrcDesc (s : State) (c : Nat) : W32 :=
  let x := s.audSrc.at c
  w32 (x.kind % 4 + 4 * (x.origin % 2 ^ 12) + 2 ^ 14 * (x.index % 2 ^ 6) + 2 ^ 20 * b2n x.present)

/-- ALY_HEAD_DESC; the odd member of a pair reports the pair (R381). -/
def State.headDesc (s : State) (h : Nat) : W32 :=
  let g := if s.oddHead h then h - 1 else h
  let p := s.headPlan.at g
  if !p.present then 0
  else
    w32 (p.fmt.code % 2 ^ 14 + 2 ^ 14 * b2n p.fmt.il + 2 ^ 15 * b2n p.pair + 2 ^ 16 + 2 ^ 17 * ((s.tilesOf g).length % 2 ^ 7) +
      2 ^ 24 * (p.rects % 8))

/-- HBM_STAT (R459). -/
def State.hbmStat (s : State) (sd : Side) : W32 :=
  let n (m : Nat) : Nat := ((List.range 32).filter fun p => s.pcMode sd p = m).length
  (s.rd (RS .HBM_STAT sd 0) &&& 7#32) ||| w32 (8 * b2n (n 2 != 0) + 16 * n 1)

/-- Words that belong to a Side (R579). -/
def State.sideWord (s : State) (k : RegKey) : Option W32 :=
  let sd : Side := if k.bank % 2 = 0 then .A else .B
  let n := k.i
  match k.name with
  | .XPT_IN_DESC => some (s.inDesc n)
  | .XPT_IN_PHASE => some (w32 (twos 32 (roundDiv (s.inRx.at n).phase tickU)))
  | .XPT_IN_PERIOD => some (w32 (twos 32 (roundDiv (s.inRx.at n).period tickU)))
  | .XPT_OUT_DESC => some (s.outDesc n)
  | .XPT_ROUTE => some (s.routeWord n)
  | .SEAM_STAT => some (s.seamStat n)
  | .SEAM_LEAD => some (w32 (twos 32 (sixteenthsWp (s.outs.at n).lead)))
  | .SEAM_WIN_LO => some (s.windowWord n ((s.window n).1 - (s.window n).2 / 2))
  | .SEAM_WIN_HI => some (s.windowWord n ((s.window n).1 + (s.window n).2 / 2))
  | .SEAM_EFFOFF => some (w32 (twos 26 (sixteenthsWp (s.outs.at n).x)))
  | .FSY_STAT => some (s.fsyStat n)
  | .FSY_BUDGET => some (w32 (s.unitsUsed + 2 ^ 12 * (s.benchPlan.units % 2 ^ 12)))
  | .FSY_COUNT => some (w32 (s.contextsUsed + 2 ^ 11 * (s.benchPlan.contexts % 2 ^ 11)))
  | .AUD_DST_STAT => some (s.audDstStat n)
  | .AUD_DST_DESC => some (s.audDstDesc n)
  | .AUD_SRC_DESC => some (s.audSrcDesc n)
  | .AUD_SRC_DELTA => some (w32 (s.delta n % 2 ^ 13))
  | .AUD_CFG => some (s.rd k ||| w32 (2 ^ 7 * b2n s.audioHi + 2 ^ 8 * (s.audioTb % 4)))
  | .ALY_HEAD_DESC => some (s.headDesc n)
  | .HBM_STAT => some (s.hbmStat sd)
  | .HBM_MAP => some (w32 (s.hbmMap n % 2 ^ 16))
  | .HOP_STAT => some ((s.hoppers.at (hopIx sd n)).stat (s.hopMode sd n = 2))
  | _ => none

/-- A number of ticks in a unit, rounded up. -/
def upTo (ticks unit : Nat) : Nat := (ticks + unit - 1) / unit

/-- RFE_STATE: the stored fields with READY and ISO (R192). -/
def State.rfeState (s : State) : W32 :=
  (s.rd (R0 .RFE_STATE) &&& ~~~(0x198#32)) ||| w32 (8 * b2n (s.ready .A) + 16 * b2n (s.ready .B) + 2 ^ 7 * b2n s.sideA.isolated + 2 ^ 8 * b2n s.sideB.isolated)

/-- ASY_SIDE_STAT (R520). -/
def State.asySideStat (s : State) (sd : Side) : W32 :=
  let x := s.side sd
  w32 (b2n x.isolated + 2 * b2n x.latched + 4 * b2n (s.degraded sd) + 8 * b2n x.held +
    16 * (if x.isolated then upTo (s.quietNow sd) msTicks % 2 ^ 16 else 0))

/-- SYS_POWER (R574). -/
def State.sysPower (s : State) : W32 :=
  let good (sd : Side) : Bool := (s.side sd).pg && !((railLines sd).any s.envLine)
  let en (sd : Side) : Bool := s.loaded && !(s.side sd).cold
  w32 (b2n (!s.envLine 37) + 2 * b2n (!s.envLine 40) + 4 * b2n (good .A) + 8 * b2n (good .B) + 16 * b2n (!s.bankLost.contains .E) +
    32 * b2n (!s.bankLost.contains .W) + 2 ^ 6 * b2n (en .A) + 2 ^ 7 * b2n (en .B) + 2 ^ 8 * b2n (s.side .A).pg +
    2 ^ 9 * b2n (s.side .B).pg + 2 ^ 10 * b2n (!s.hostParked))

/-- Master `m` can issue (R488). -/
def State.masterActive (s : State) (m : Nat) : Bool :=
  match m with
  | 0 => !s.hostParked
  | 1 => !s.hostParked
  | 2 => !s.hostParked
  | 4 => s.live .A
  | 5 => s.live .B
  | 7 => s.unlock.isSome
  | _ => true

/-- UPD_SIDE: the stored flags with the boot header's values (R551). -/
def State.updSideWord (s : State) (i : Nat) : W32 :=
  let h := s.bootHdr i
  (s.rd (R1 .UPD_SIDE i) &&& 0x1E0#32) ||| w32 (h.active % 2 + 2 * b2n (h.isConfirmed h.active) + 4 * (h.tries % 8))

/-- UMW_STAT (R528, R550). -/
def State.umwStat (s : State) : W32 :=
  let st := s.fld (R0 .UMW_STAT) F.UMW_STAT_STATE
  putF (s.rd (R0 .UMW_STAT)) F.UMW_STAT_STATE (if st = 2 then 2 else if s.fld (R0 .RFE_STATE) F.RFE_STATE_STATE = 0 then 0 else 1)

/-- ETH_PAUSE_STAT: the quanta of a pause in progress (R315). -/
def State.pauseLeft (s : State) (i : Nat) : Nat :=
  let left := (s.mac i).pauseEnd - s.tick
  if !s.paused i then 0 else if s.macRate i = 10 then upTo (5 * left) 64 else upTo left 128

/-- Words of the AO and timing islands, of Strata and of the lane banks. -/
def State.sharedWord (s : State) (m : Nat) (r : Req) (k : RegKey) : Option W32 :=
  let n := k.i
  match k.name with
  | .SYS_POWER => some s.sysPower
  | .SYS_UPTIME => some (w32 (satU 32 (s.tick / secTicks)))
  | .PARK_LANE_STAT => some (s.laneGroupStat n)
  | .PARK_ENG_STAT => some (s.engStat n)
  | .PARK_HOST => some (s.rd k ||| w32 (4 * b2n s.hostParked))
  | .RFE_STATE => some s.rfeState
  | .RFE_LEASE_LEFT => some (if s.holder.isSome then w32 (min 0x1FFFF (upTo (s.grace.getD s.leaseEnd - s.tick) usTicks)) else 0)
  | .RFE_WARM_LAT => some (w32 (s.warmLat.1 / (1000 * s.warmLat.2)))
  | .ASY_SIDE_STAT => some (s.asySideStat (if n = 0 then .A else .B))
  | .ASY_HIST_STAT => some (s.rd k ||| w32 (2 ^ 11 * b2n s.degradedShared))
  | .EVT_ACTIVE => some (s.rd (R1 .EVT_STATUS n) &&& s.rd (R1 .EVT_ENABLE n))
  | .STR_ID => some (w32 (r.num + 16 * m))
  | .STR_LOCK_STAT => some (s.strLockStat r)
  | .STR_MCFG => some (s.rd k ||| w32 (16 * b2n (s.masterActive n)))
  | .STR_PATH => some (w32 (masterPaths n))
  | .WIN_STAT => some (w32 (s.winBuf.at r.num).length)
  | .PTP_TXTS_STAT => some (w32 ((s.ports.at n).queue.length + 2 ^ 7 * (s.txLatch.at (latchIx r n)).length))
  | .REF_PHASE_LO => s.phaseShown.map fun v => w32 (v % 2 ^ 32)
  | .REF_PHASE_HI => s.phaseShown.map fun v => w32 (v / 2 ^ 32)
  | .REF_FREQ => some (w32 (twos 32 s.refFreq))
  | .LANE_QSTAT => some (s.rd (R1 .LANE_QSTAT (n / 4 * 4)))
  | .SDI_STAT => some (putF (s.rd k) F.SDI_STAT_RATE (s.sdiRate n))
  | .ETH_PORT_STAT => some (putF (s.rd k) F.ETH_PORT_STAT_LOAD (s.portLoad n))
  | .ETH_CTX_STAT => some (s.ctxStat n)
  | .ETH_CRX_STAT => some (s.crxStat n)
  | .ETH_PAUSE_STAT => some (w32 (s.pauseLeft n % 2 ^ 16))
  | .ETH_RXF_STAT => some (s.rxfStat n)
  | .ETH_TXF_STAT => some (s.txfWord n)
  | .XPT_PEND => some s.pendWord
  | .SEC_STAT => some s.secStat
  | .SEC_SERIAL_LO => some (Config.serial.extractLsb' 0 32)
  | .SEC_SERIAL_HI => some (Config.serial.extractLsb' 32 32)
  | .UMW_STAT => some s.umwStat
  | .UPD_SIDE => some (s.updSideWord n)
  | .UPD_TRIAL_LEFT => some (w32 (s.trialLeft % 2 ^ 16))
  | _ => none

/-- The word that a register returns to a read of requester `r` through master `m`, its side effect aside. -/
def State.peek (s : State) (m : Nat) (r : Req) (k : RegKey) : W32 :=
  match summaryOf k.name with
  | some (evt, mask) => s.summaryWord k evt mask
  | none =>
    match s.sideWord k with
    | some v => v
    | none => (s.sharedWord m r k).getD (s.rd k)

end Sys2Proof.Machine
end

