-- ==== Sys2Proof/Machine/Bus.lean ====
section
/-!
DEFINITION. Register accesses through Strata (R3 to R7, R471, R480): who may write what, what a write of each register does, what a read returns
and does, the twin window, and the frames of the service port and of the remote register protocol.
-/
namespace Sys2Proof.Machine

/-! ## Rights (R469 to R471) -/

/-- The Side of a register of a Side. -/
def RegKey.side (k : RegKey) : Side := if k.bank % 2 = 0 then .A else .B

/-- A tile's registers belong to the owner of the head that it is assigned to (R361). -/
def State.holdsTile (s : State) (r : Req) (f : Nat) : Bool :=
  match s.tileHead.at f with
  | some h => s.holdsHead r h
  | none => s.allRights r

/-- A 1 in ASY_STATUS is admitted for line `l`. -/
def State.mayAsy (s : State) (r : Req) (l : Nat) : Bool :=
  s.asyAdmin r || (decide (l < 16) && decide (r = .fwA)) || (decide (16 ≤ l) && decide (l < 32) && decide (r = .fwB))

/-- The requester may write `v` to a register, by its owner class. -/
def State.mayWrite (s : State) (r : Req) (k : RegKey) (v : W32) : Bool :=
  let n := k.i
  match k.name.row.owner with
  | .nobody => true
  | .any => true
  | .load => true
  | .salvoSel => true
  | .asyStatus => (bitsOf (v &&& w32 k.name.row.w1c)).all fun j => s.mayAsy r (if k.name = .ASY_STATUS0 then j else 32 + j)
  | .audDst => s.holdsAudDst r n
  | .bench => s.holdsBench r n
  | .dest => s.holdsDest r n
  | .destAny => if 1024 ≤ n ∧ n < 1280 then s.holdsTile r (n - 1024) else s.holdsDest r n
  | .destCap => s.holdsDest r (1280 + n)
  | .evt => match k.name with
    | .EVT_STATUS => s.mayStatus r n v
    | .EVT_ENABLE => s.mayEnable r n v
    | .EVT_SET => (bitsOf v).all fun j => maySet r (32 * n + j)
    | _ => s.mayRoute_ r n v
  | .hbm => memAdmin r k.side
  | .hbmFix => r = .boot || r = Req.ofSide k.side
  | .head => s.holdsHead r n
  | .hopProd => s.hopAdmits r k.side n F.HOP_CFG_PROD
  | .lane => s.holdsLane r n || (decide (k.name = .SLU_CFG) && s.isRfeOwner r)
  | .laneGroup => s.holdsGroup r n
  | .mbx => match k.name with
    | .MBX_ACK => s.mbxReceives r n
    | .MBX_CTL => s.mbxOwns r n || is7or10 r
    | .MBX_EVT => s.mayReadMsg r n
    | _ => s.mbxOwns r n
  | .mgAny => s.holdsPort r 128 || s.holdsPort r 129
  | .mgPort => s.holdsPort r (128 + n)
  | .port => s.holdsPort r n
  | .prot => s.holdsProt r n
  | .r7_10 => is7or10 r
  | .r7_10_rfe => s.asyAdmin r
  | .refOwner => s.isRefOwner r
  | .rfeOwner => if k.name = .RFE_CMD ∨ k.name = .RFE_EVT then s.rfeAdmin r else s.isRfeOwner r
  | .rxFlow => s.holdsRx r n
  | .salvo => s.fld (salvoStat n) F.XPT_SALVO_STAT_OWNER = r.num
  | .sideFw => isFw r n
  | .tb => s.holdsTb r n
  | .tdmPort => s.holdsTdm r n
  | .tdmTrig => s.holdsTrig r
  | .tile => s.holdsTile r n
  | .token => tokenAdmits r
  | .txFlow => s.holdsTx r n

/-- The requester may read a register: the registers whose reads remove data, and mailbox messages, are their owners' (R452, R470, R494). -/
def State.mayRead (s : State) (r : Req) (k : RegKey) : Bool :=
  match k.name with
  | .MBX_MSG => s.mayReadMsg r k.i
  | .ETH_CRX_DATA => s.holdsPort r k.i
  | .PTP_TXTS_DATA => s.holdsPort r k.i
  | .HOP_POP => s.hopAdmits r k.side k.i F.HOP_CFG_CONS
  | _ => true

/-! ## Writes -/

/-- What a register holds after `v` is written: RW fields store, 1s clear W1C fields, the rest stands (R6). -/
def RegRow.stored (w : RegRow) (old v : W32) : W32 :=
  (old &&& ~~~(w32 w.rw) &&& ~~~(v &&& w32 w.w1c)) ||| (v &&& w32 w.rw)

/-- The sticky register that a mask register selects from. -/
def maskOf : RegName → Option RegName
  | .SLU_EVMASK => some .SLU_EVT
  | .LANE_EVMASK => some .LANE_EVT
  | .NVL_EVMASK => some .NVL_EVT
  | .SDI_EVMASK => some .SDI_EVT
  | .ETH_EVMASK => some .ETH_PORT_EVT
  | .ETH_RXF_EVMASK => some .ETH_RXF_EVT
  | .XPT_IN_EVMASK => some .XPT_IN_MSTAT
  | .XPT_OUT_EVMASK => some .XPT_OUT_STAT
  | .AUD_EVMASK => some .AUD_DST_EVT
  | .ALY_EVMASK => some .ALY_EVT
  | _ => none

/-- A written word without the 1s of W1C bits that hardware has set in the same cycle: they stay 1 (R7). -/
def State.clearable (s : State) (k : RegKey) (v : W32) : W32 := v &&& ~~~(s.now k &&& w32 k.name.row.w1c)

/-- A register takes a written value; a summary bit that a new mask raises sets its event. -/
def State.store (s : State) (k : RegKey) (v : W32) : State :=
  let old := s.rd k
  let s := s.wr k (k.name.row.stored old (s.clearable k v))
  match maskOf k.name with
  | some evt =>
    let rises := s.regs.any fun (p : RegKey × W32) =>
      decide (p.1.name = evt) && decide (p.1.bank = k.bank) && decide (p.2 &&& old = 0) && decide (p.2 &&& s.rd k ≠ 0)
    match evtWay { name := evt, bank := k.bank } with
    | some (.summary e _) => if rises then s.setSource e else s
    | _ => s
  | none => s

/-- A write of XPT_TAKE (R101). -/
def State.writeTake (s : State) (r : Req) (v : W32) : State :=
  let d := getF v F.XPT_TAKE_TARGET
  let timed := bitOf v 14
  let tb := getF v F.XPT_TAKE_TB
  let seq := getF v F.XPT_TAKE_SEQ
  match getF v F.XPT_TAKE_OP with
  | 0 => s.receiveTake r d timed tb seq
  | 1 => s.receiveSalvo r (d % 256) timed tb seq
  | 2 => s.receive r (.cancelTake d) false 0 seq 2
  | _ => s.receive r (.cancelSalvo (d % 256)) false 0 seq 2

/-- A write of XPT_TAKE_LEAD: a commit whose commit tick is now still has the value before it (R81). -/
def State.writeTakeLead (s : State) (k : RegKey) (v : W32) : State := { s with leadOld := some (s.tick, s.commitLead) }.store k v

/-- A write of REF_CAND_CFG: a candidate that is disabled loses its qualification (R413, R415). -/
def State.writeCandCfg (s : State) (k : RegKey) (v : W32) : State :=
  let s := s.store k v
  if s.candPrio k.i = 0 ∧ s.qualified k.i then s.disqualify k.i else s.refReview

/-- What a write of a register does, in the Strata target that holds it: `s` with the write's effect. -/
def State.writeReg (s : State) (r : Req) (k : RegKey) (v : W32) : State :=
  let n := k.i
  let sd := k.side
  match k.name with
  | .PARK_LANE_DECL => s.writeLaneDecl n v
  | .PARK_ENG_DECL => s.writeEngDecl n v
  | .PARK_HOST => s.writeParkHost v
  | .RFE_TOLERANCE => (s.store k v).classUpdate
  | .RFE_CMD => s.writeRfeCmd v
  | .RFE_WDOG => s.writeWdog n v
  | .RFE_CLAIM => s.writeClaim n v
  | .SLU_CFG =>
    let v := if s.holdsLane r n then v else (s.rd k &&& ~~~F.SLU_CFG_STEP_EXCL.mask) ||| (v &&& F.SLU_CFG_STEP_EXCL.mask)
    (s.store k v).updateStep
  | .LANE_DET => (s.store k v).setLane n { s.lane n with detAt := some s.tick }
  | .ASY_SEV => s.wr k (w32 (max (sevRange n).1 (min (sevRange n).2 (v.toNat % 4))))
  | .ASY_CTL => s.writeAsyCtl v
  | .ASY_FW => s.writeAsyFw n v
  | .EVT_STATUS => s.writeEvtStatus n v
  | .EVT_ENABLE => s.writeEvtEnable n v
  | .EVT_SET => s.writeEvtSet n v
  | .EVT_ROUTE => s.writeEvtRoute n v
  | .MBX_MSG => s.writeMbxMsg n k.j v
  | .MBX_DOORBELL => s.writeDoorbell n v
  | .MBX_ACK => s.writeMbxAck n v
  | .MBX_CTL => s.writeRelease r n v
  | .MBX_CFG => s.writeMbxCfg n v
  | .STR_LOCK => s.writeStrLock r v
  | .WIN_CTL => s.writeWin r .ctl v
  | .WIN_ADDR_LO => s.writeWin r .lo v
  | .WIN_ADDR_HI => s.writeWin r .hi v
  | .TB_RATE_LO => s.writeRateLo n v
  | .TB_RATE_HI => s.writeRate n v
  | .TB_STEP_CTL => s.writeStep n v
  | .TB_CMP_CTL => s.writeCmpCtl n k.j v
  | .REF_CFG => s.writeRefCfg v
  | .REF_CMD => s.writeRefCmd v
  | .REF_CAND_CFG => s.writeCandCfg k v
  | .TDM_CTL => s.writeTdmCtl n v
  | .TDM_TRIG => s.writeTdmTrig v
  | .LANE_CTL => s.writeLaneCtl n v
  | .LANE_TXEQ => s.writeTxeq n v
  | .LANE_TEST => s.writeLaneTest n v
  | .NVL_CFG => s.writeNvlCfg n v
  | .ETH_CTX_DATA => s.ctxPush n v
  | .ETH_CTX_CTL => s.writeCtxCtl n v
  | .ETH_SNAP => if bitOf v 0 then s.snapshot r n else s
  | .ETH_MG_CFG => s.writeMgCfg n v
  | .ETH_RRP_HOST => s.writeRrpHost n v
  | .ETH_RXF_DST_E => s.writeFlowAddr n .dstE v
  | .ETH_RXF_DST_W => s.writeFlowAddr n .dstW v
  | .ETH_RXF_SRC_E => s.writeFlowAddr n .srcE v
  | .ETH_RXF_SRC_W => s.writeFlowAddr n .srcW v
  | .ETH_RXF_UDP => s.writeFlowAddr n .udp v
  | .ETH_RXF_CFG => s.writeRxfCfg n v
  | .ETH_TXF_CFG => s.writeTxfCfg n v
  | .HOP_CFG => s.hopCfgW sd n v
  | .HOP_PUSH => s.hopPushW sd n v
  | .HOP_CTL => s.hopCtlW sd n v
  | .XPT_TAKE => s.writeTake r v
  | .XPT_TAKE_LEAD => s.writeTakeLead k v
  | .XPT_SALVO_ENTRY => s.writeSalvoEntry r (v.toNat % 2 ^ 11) (v.toNat / 2 ^ 11 % 2 ^ 11)
  | .XPT_SALVO_CTL => s.writeSalvoCtl r (v.toNat % 4)
  | .SEC_TOKEN_CTL => s.writeTokenCtl r v
  | _ => s.store k v

/-! ## The twin window (R480) -/

/-- The delivery tick of a twin write accepted now: the second tick from now, or a later one that fewer than two writes share. -/
def State.twinDue (s : State) : Nat :=
  match s.twinQ.getLast? with
  | none => s.tick + 2
  | some (_, _, t) =>
    let same := (s.twinQ.filter fun (p : RegKey × W32 × Nat) => p.2.2 = t).length
    max (s.tick + 2) (if same < 2 then t else t + 1)

/-- T5 accepts a write of a twin register. -/
def State.acceptTwin (s : State) (k : RegKey) (v : W32) : State := { s with twinQ := s.twinQ ++ [(k, v, s.twinDue)] }

/-- AUD_CFG as delivered: TIMEOUT is stored, and each Side's STEP stands unless a 1 is written. -/
def State.audCfgDelivered (s : State) (v : W32) : State :=
  let k := R0 .AUD_CFG
  let s : State := { s with twins := Sparse.put RegKey.lt RegKey.reset s.twins k (v &&& 0x7F#32) }
  s.eachSide fun sd s => s.wr (RS .AUD_CFG sd 0) (k.name.row.stored (s.rd (RS .AUD_CFG sd 0)) v)

/-- A tile's register as delivered waits for its head's boundary (R374). -/
def State.tileDelivered (s : State) (k : RegKey) (v : W32) : State :=
  match s.tileHead.at k.i with
  | some h => s.headValueDelivered h k v
  | none => s.deliver k v

/-- An accepted twin write reaches both Sides and the routing snapshot. -/
def State.deliverTwin (s : State) (k : RegKey) (w : W32) : State :=
  let n := k.i
  let v := w &&& w32 k.name.row.rw
  match k.name with
  | .XPT_IN_CFG => s.inCfgDelivered n v
  | .XPT_OUT_OFFSET =>
    let s := s.deliver k v
    { s with outs := s.outs.upd n fun o => { o with offsets := o.offsets ++ [(s.clampOffset n (sext 26 v.toNat), s.tick)] } }
  | .XPT_CAP_CFG => s.capCfgDelivered n v
  | .FSY_CFG => s.fsyDelivered n v (s.twin .FSY_PHASE n)
  | .FSY_PHASE => s.fsyDelivered n (s.twin .FSY_CFG n) v
  | .AUD_ROUTE => (s.deliver k v).audRouteDelivered n
  | .AUD_DELAY => (s.deliver k v).audDelayDelivered n
  | .AUD_CFG => s.audCfgDelivered w
  | .ALY_FLIP => s.flipDelivered n w
  | .ALY_PROT_FLIP => s.protFlipDelivered n w
  | .ALY_HEAD_BG => s.headValueDelivered n k v
  | .ALY_CURSOR => s.headValueDelivered n k v
  | .ALY_TILE_CFG => s.tileDelivered k v
  | .ALY_TILE_DST => s.tileDelivered k v
  | .ALY_TILE_SIZE => s.tileDelivered k v
  | .ALY_TILE_CROP_XY => s.tileDelivered k v
  | .ALY_TILE_CROP_WH => s.tileDelivered k v
  | .ALY_STORE_CFG => s.storeCfgDelivered n v
  | .ALY_LOAD_DATA => match Req.ofNum k.bank with
    | some r => s.loadWord r w
    | none => s
  | _ => s.deliver k v

/-- TWIN_WRITE_DELIVERY: the accepted writes whose delivery tick has come, at most two in a tick, in the order of acceptance. -/
def execTwinWriteDelivery (s : State) : Out :=
  let due := (s.twinQ.takeWhile fun (p : RegKey × W32 × Nat) => decide (p.2.2 ≤ s.tick)).take 2
  .next (due.foldl (fun (s : State) p => s.deliverTwin p.1 p.2.1) { s with twinQ := s.twinQ.drop due.length })

/-! ## One access -/

/-- How an access fares: it is performed, with the word a read returns; it waits for a lock (R477); or it is the boot core's at the flash
controller, whose registers the spec does not give (R524, R578). -/
inductive Beat where
  | done (v : W32) (s : State)
  | waits
  | flash

/-- The Side of a target, for a Side's registers. -/
def Target.side : Target → Option Side
  | .sideA => some .A
  | .sideB => some .B
  | _ => none

/-- The target is a Side that does not run (R579). -/
def State.idleTarget (s : State) (t : Target) : Bool := t.side.any fun sd => !s.live sd

/-- The write of a register, past the checks of path, rights and lock. -/
def State.performWrite (s : State) (m : Nat) (r : Req) (t : Target) (k : RegKey) (full : Bool) (v : W32) : State :=
  let w := k.name.row
  let s := s.countBeat m r t.num
  if w.twin && t.side.isSome then s.raise (RB .SYS_STATUS r 0) F.SYS_STATUS_TWIN_ONLY
  else if s.idleTarget t then s
  else if k.name = .WIN_DATA then (s.winAccess m r (some v) full 0).2
  else if t = .twin ∧ w.space = .side ∧ w.twin = false then s.raise (RB .STR_ERR r 0) F.STR_ERR_NOT_TWIN
  else if !full then s.raise (RB .SYS_STATUS r 0) F.SYS_STATUS_PARTIAL_WR
  else if s.noPage k then s
  else if w.twin then s.acceptTwin k v
  else s.writeReg r k v

/-- A write of word `v` at an address by requester `r` through master `m`, all byte enables set where `full`: the checks of R471 in their order,
then the effect. -/
def State.busWrite (s : State) (m : Nat) (r : Req) (addr : W32) (full : Bool) (v : W32) : Beat :=
  let a := addr.toNat / 4 * 4
  if s.aoReset then .done 0 s
  else match locate r a with
    | .unmapped => .done 0 (s.raise (RB .STR_ERR r 0) F.STR_ERR_UNMAPPED)
    | .flash => if pathOf m .flash && r = .boot then .flash else .done 0 (s.denied r false a)
    | .hole t =>
      if !pathOf m t then .done 0 (s.denied r false a)
      else if s.lockedOut r t.num then .waits
      else
        let s := s.countBeat m r t.num
        .done 0 (if full || s.idleTarget t then s else s.raise (RB .SYS_STATUS r 0) F.SYS_STATUS_PARTIAL_WR)
    | .reg t k =>
      let idle := s.idleTarget t && !k.name.row.twin
      if !(pathOf m t && (idle || s.mayWrite r k v)) then .done 0 (s.denied r false a)
      else if s.lockedOut r t.num || (decide (k.name = .WIN_DATA) && s.winWaits r) then .waits
      else .done 0 (s.performWrite m r t k full v)

/-- What a read of a register returns and does (R6); `ahead` words are read ahead after a window read. -/
def State.readReg (s : State) (m : Nat) (r : Req) (k : RegKey) (ahead : Nat) : W32 × State :=
  let n := k.i
  if s.noPage k then (0, s)
  else match k.name with
    | .MBX_LOCK => s.readMbxLock r n
    | .WIN_DATA => s.winAccess m r none true ahead
    | .TB_NS => s.readNs r n
    | .PTP_TXTS_DATA => s.readTxts r n
    | .LANE_RXEQ => s.readRxeq n
    | .LANE_BER_ERR => (s.foldErrors n).readBer n
    | .ETH_CRX_DATA => s.readCrx n
    | .HOP_POP => s.hopPopR k.side n .clean
    | _ =>
      if k.name.row.rc = 0 then (s.peek m r k, s)
      else (s.peek m r k - s.now k, s.wr k ((s.rd k &&& ~~~(w32 k.name.row.rc)) + s.now k))

/-- The register that a read through T5 reaches: the command sequencer's own, or that of the lease holder, or of Side A where no Side holds the
lease (R480, R580). -/
def State.readKey (s : State) (t : Target) (k : RegKey) : Target × RegKey :=
  if t = .twin ∧ k.name.row.space = .side then
    let sd := s.holder.getD .A
    (Target.ofSide sd, { k with bank := 2 * k.bank + sd.idx })
  else (t, k)

/-- A read at an address by requester `r` through master `m`. -/
def State.busRead (s : State) (m : Nat) (r : Req) (addr : W32) (ahead : Nat) : Beat :=
  let a := addr.toNat / 4 * 4
  if s.aoReset then .done 0 s
  else match locate r a with
    | .unmapped => .done 0 (s.raise (RB .STR_ERR r 0) F.STR_ERR_UNMAPPED)
    | .flash => if pathOf m .flash && r = .boot then .flash else .done deniedWord (s.denied r false a)
    | .hole t =>
      if !pathOf m t then .done deniedWord (s.denied r false a)
      else if s.lockedOut r t.num then .waits
      else .done 0 (s.countBeat m r t.num)
    | .reg t k =>
      let p := s.readKey t k
      let idle := s.idleTarget p.1
      if !(pathOf m t && (idle || s.mayRead r p.2)) then .done deniedWord (s.denied r false a)
      else if s.lockedOut r t.num || (decide (k.name = .WIN_DATA) && s.winWaits r) then .waits
      else
        let s := s.countBeat m r t.num
        if idle then .done 0 s
        else
          let q := s.readReg m r p.2 ahead
          .done q.1 q.2

/-- The target of an address, that of the window for WIN_DATA; 12 for Strata and for none. -/
def State.targetNum (s : State) (r : Req) (a : W32) : Nat :=
  match locate r (a.toNat / 4 * 4) with
  | .hole t => t.num
  | .reg t k => if k.name = .WIN_DATA then s.fld (RB .WIN_CTL r 0) F.WIN_CTL_TARGET else t.num
  | _ => 12

/-- What a command makes of one write, which waits where another requester's lock or its own earlier transactions stand before it (R473, R477). -/
def State.writeBeat (s : State) (m : Nat) (r : Req) (addr : W32) (be : Fin 16) (v : W32) : Out :=
  let w : Waiting := { master := m, req := r, target := s.targetNum r addr, addr := addr, data := some v, be := be }
  if !s.aoReset && s.hasWaiting r then .next (s.wait w)
  else
    match s.busWrite m r addr (be = 15) v with
    | .done _ s' => .next s'
    | .waits => .next (s.wait w)
    | .flash => .refused .flashController

/-- REG_WRITE: a write of one word, by a requester at its own port or, where `jtag`, through the unlocked debug access port, which issues as the
requester that its unlock names (R463, R471). -/
def execRegWrite (r : Req) (jtag : Bool) (addr v : W32) (be : Fin 16) (s : State) : Out :=
  if jtag && !(s.unlock.any fun p => decide (p.1 = r.num)) then .next s
  else s.writeBeat (if jtag then 7 else reqMaster r) r addr be v

/-- TWIN_WRITE_ACCEPT: a whole-word write at an offset of the twin window. -/
def execTwinWriteAccept (r : Req) (offset : BitVec 23) (v : W32) (s : State) : Out :=
  s.writeBeat (reqMaster r) r (w32 (0x2000000 + offset.toNat)) 15 v

/-! ## Frames of words (R308, R467) -/

/-- What a run of words comes to: the words read, and the state; or the run waits; or it ends at the flash controller. -/
inductive Run where
  | done (vs : List W32) (s : State)
  | waits
  | flash

/-- Writes at ascending addresses, or all at one. -/
def State.runWrites (m : Nat) (r : Req) (fixed : Bool) : List W32 → W32 → State → Run
  | [], _, s => .done [] s
  | v :: vs, a, s =>
    match s.busWrite m r a true v with
    | .done _ s => State.runWrites m r fixed vs (if fixed then a else a + 4#32) s
    | .waits => .waits
    | .flash => .flash

/-- `n` reads at ascending addresses, or all at one. -/
def State.runReads (m : Nat) (r : Req) (fixed : Bool) (ahead : Nat) : Nat → W32 → State → Run
  | 0, _, s => .done [] s
  | n + 1, a, s =>
    match s.busRead m r a ahead with
    | .done v s =>
      match State.runReads m r fixed ahead n (if fixed then a else a + 4#32) s with
      | .done vs s => .done (v :: vs) s
      | .waits => .waits
      | .flash => .flash
    | .waits => .waits
    | .flash => .flash

/-- A read whose data is discarded keeps its side effect. -/
def State.blindRead (s : State) (m : Nat) (r : Req) (a : W32) : State :=
  match s.busRead m r a 0 with
  | .done _ s => s
  | _ => s

/-- One frame of the service port (R467), unless one of its words waits for a lock. -/
def State.spiRun (s : State) (op : Byte) (addr : W32) (words : List W32) (ahead : Nat) : Option State :=
  let a := addr &&& 0xFFFFFFFC#32
  let fixed := op = 0x12#8 || op = 0x13#8
  if op = 0x02#8 ∨ op = 0x12#8 then
    match State.runWrites 3 .service fixed words a s with
    | .done _ s => some s
    | .waits => none
    | .flash => some s
  else if op = 0x03#8 ∨ op = 0x13#8 then
    match State.runReads 3 .service fixed ahead words.length a s with
    | .done vs s => some (((vs.getLast?).elim s (s.answer .service)).emit (.miso vs))
    | .waits => none
    | .flash => some s
  else some s

/-- SPI_FRAME: one frame of the service port: its opcode, its address and its words, which a read clocks out; `ahead` words are read ahead after
each window read. A frame one of whose words waits for a lock waits as a whole. -/
def execSpiFrame (op : Byte) (addr : W32) (words : List W32) (ahead : Fin 17) (s : State) : Out :=
  let w : Waiting := { master := 3, req := .service, target := s.targetNum .service addr, addr := addr, ahead := ahead, spi := some (op, words) }
  .next (if s.aoReset then s
    else if s.hasWaiting .service then s.wait w
    else (s.spiRun op addr words ahead).getD (s.wait w))

/-! ## Transactions that wait (R473, R475, R477) -/

/-- The rank of a waiting transaction at its target, the lowest first (R475): one that has waited 1 µs counts as QoS 15; the highest QoS wins; among equals
the masters take turns. -/
def State.rank (s : State) (w : Waiting) : Nat :=
  let q := if w.since + usTicks ≤ s.tick then 15 else s.qos w.master
  8 * (15 - q) + (w.master + 8 - s.grantNext.at w.target) % 8

/-- A waiting transaction can be granted: it is its requester's oldest and no lock of another requester holds its target. -/
def State.grantable (s : State) (w : Waiting) : Bool :=
  decide (s.waiting.find? (fun x => decide (x.req = w.req)) = some w) && !s.lockedOut w.req w.target

/-- The waiting transaction that is granted next. -/
def State.nextWaiting (s : State) : Option Waiting :=
  (s.waiting.filter s.grantable).foldl (fun o w => match o with
    | none => some w
    | some b => if s.rank w < s.rank b then some w else some b) none

/-- A waiting transaction is performed; one that meets another lock waits on in its place. -/
def State.perform (s : State) (w : Waiting) : State :=
  let t : State := { s with waiting := s.waiting.erase w }
  match w.spi with
  | some (op, ws) => (t.spiRun op w.addr ws w.ahead).getD s
  | none =>
    match w.data with
    | some v => match t.busWrite w.master w.req w.addr (w.be = 15) v with
      | .done _ u => u
      | .waits => s
      | .flash => t
    | none => match t.busRead w.master w.req w.addr w.ahead with
      | .done v u => u.answer w.req (bytesOf w.be v)
      | .waits => s
      | .flash => t

/-- At most `n` of the transactions whose targets have come free are granted, one after the other in the order of R475. -/
def State.serveWaiting (s : State) : Nat → State
  | 0 => s
  | n + 1 => match s.nextWaiting with
    | none => s
    | some w => State.serveWaiting (s.perform w) n

/-- SPI_TRUNC: a partly received write word is discarded, and a read in flight completes with its data discarded (R468). -/
def execSpiTrunc (inFlight : Option W32) (s : State) : Out :=
  if s.aoReset then .next s
  else
    let s := match inFlight with
      | some a => s.blindRead 3 .service (a &&& 0xFFFFFFFC#32)
      | none => s
    .next (s.raise (R0 .STR_EVT) F.STR_EVT_SPI_TRUNC)

/-! ## The remote register protocol (R308, R309) -/

/-- The header of a reply to a request header: VER 1, another OP, the same FIXED, SEQ and COUNT. -/
def rrpHeader (w : W32) (op : Nat) : W32 := (w &&& 0x008FFFFF#32) ||| w32 (0x10000000 + op * 0x1000000)

/-- A NAK of a request with an error code. -/
def rrpNak (w : W32) (code : Nat) : List W32 := [rrpHeader w 6, w32 code]

/-- The error code of a request, if it has one (R308). -/
def rrpError (ws : List W32) : Option Nat :=
  let w := ws.headD 0
  let op := w.toNat / 2 ^ 24 % 16
  let count := w.toNat % 2 ^ 12
  if w.toNat / 2 ^ 28 ≠ 1 then some 1
  else if op ≠ 1 ∧ op ≠ 2 then some 2
  else if count = 0 ∨ 256 < count ∨ ws.length ≠ (if op = 2 then 2 + count else 2) then some 3
  else if (ws.getD 1 0).toNat % 4 ≠ 0 then some 4
  else none

/-- The reply of host `h` to its oldest request, or nothing while it waits. -/
def State.rrpExecute (s : State) (r : Req) (ws : List W32) (ahead : Nat) : Option (List W32 × State) :=
  let w := ws.headD 0
  let a := ws.getD 1 0
  let fixed := bitOf w 23
  match rrpError ws with
  | some c => some (rrpNak w c, s)
  | none =>
    if w.toNat / 2 ^ 24 % 16 = 1 then
      match State.runReads 2 r fixed ahead (w.toNat % 2 ^ 12) a s with
      | .done vs s => some (rrpHeader w 3 :: a :: vs, (vs.getLast?).elim s (s.answer r))
      | _ => none
    else
      match State.runWrites 2 r fixed (ws.drop 2) a s with
      | .done _ s => some ([rrpHeader w 4, a], s)
      | _ => none

/-- RRP_REQUEST: host `h`'s oldest waiting request executes and is answered; one with the SEQ of the last
executed is answered from its kept reply. NOTIFY_ACK is taken on arrival. -/
def execRrpRequest (h : Fin 4) (ahead : Fin 17) (s : State) : Out :=
  let x := s.rrp.at h.val
  match x.wait with
  | [] => .next s
  | (ws, udp) :: rest =>
    let seq := (ws.headD 0).toNat / 2 ^ 12 % 256
    let kept := x.last.bind fun p => if p.1 = seq then some p.2 else none
    match kept with
    | some reply => .next ({ s with rrp := s.rrp.set h.val { x with wait := rest } }.emit (.datagram h.val udp reply))
    | none =>
      match s.rrpExecute (Req.ofHost h) ws ahead.val with
      | some (reply, s) =>
        let s : State := { s with rrp := s.rrp.upd h.val fun y =>
          { y with wait := y.wait.drop 1, last := if rrpError ws = none then some (seq, reply) else y.last } }
        .next (s.emit (.datagram h.val udp reply))
      | none => .next s

end Sys2Proof.Machine
end

