-- ==== Sys2Proof/Machine/Masters.lean ====
section
/-!
DEFINITION. Resets of the host ports (R463, R479, R563) and the failure of a bank's supplies (R19).
-/
namespace Sys2Proof.Machine

/-- The requester of a host port. -/
def portReq (p : Nat) : Req := if p = 0 then .hp0 else .hp1

/-- The read beats issued when a master is reset complete at their targets: their side effects stand, their data is discarded, and WIN_ADDR does not
advance for them (R479). -/
def State.cutReads (s : State) (m : Nat) (r : Req) (as : List W32) : State :=
  as.foldl (fun (s : State) a =>
    let t := s.blindRead m r a
    if t.winAddr r = s.winAddr r then t else t.setWinAddr r (s.winAddr r)) s

/-- A master reset of host port `p`; its link goes down where `down`. -/
def State.resetPort (s : State) (p : Nat) (cut : Cut) (down : Bool) : State := (s.cutReads p (portReq p) cut.reads).portReset p cut down

/-- PERST_ASSERT. -/
def execPerstAssert (p : Fin 2) (cut : Cut) (s : State) : Out := .next (if s.aoReset then s else s.resetPort p.val cut true)

/-- PCIE_LINK_DOWN. -/
def execPcieLinkDown (p : Fin 2) (cut : Cut) (s : State) : Out :=
  .next (if s.flag (R1 .STR_HP_STAT p.val) F.STR_HP_STAT_LINK_UP then s.resetPort p.val cut true else s)

/-- PCIE_HOT_RESET. -/
def execPcieHotReset (p : Fin 2) (cut : Cut) (s : State) : Out :=
  .next (if s.flag (R1 .STR_HP_STAT p.val) F.STR_HP_STAT_LINK_UP then s.resetPort p.val cut false else s)

/-- FUNCTION_LEVEL_RESET. -/
def execFunctionLevelReset (p : Fin 2) (cut : Cut) (s : State) : Out :=
  .next (if s.flag (R1 .STR_HP_STAT p.val) F.STR_HP_STAT_LINK_UP then s.resetPort p.val cut false else s)

/-- BANK_SUPPLY_FAIL: every lane of the bank loses signal; Bank E's supplies also serve the host lanes, which go down (R19). `ctx` is the context
word of the bank's line. -/
def execBankSupplyFail (b : Bank) (ctx : W32) (cut0 cut1 : Cut) (s : State) : Out :=
  if s.aoReset ∨ s.bankLost.contains b then .next s
  else
    let up (p : Nat) : Bool := s.flag (R1 .STR_HP_STAT p) F.STR_HP_STAT_LINK_UP
    let s := if b = .E ∧ up 0 then s.resetPort 0 cut0 true else s
    let s := if b = .E ∧ up 1 then s.resetPort 1 cut1 true else s
    .next ((s.bankFail b ctx).cycle [])

end Sys2Proof.Machine
end

