-- ==== Sys2Proof/Machine/Sluice.lean ====
section
/-!
DEFINITION. The Sluices (R154 to R161, R173, R174): the units that each Side presents to a lane, the choice among them, gap content, the compare
intervals; what the bank of a Nervor lane adds on the way to the line (R234 to R242, R246 to R251); test patterns (R218); and the start of an output's
frame.
-/
namespace Sys2Proof.Machine

/-! ## Units (R154, R155) -/

/-- Bytes of a word, most significant first, as the CRC takes them. -/
def crcUnit (r : Nat) (ws : List W32) : Nat := (ws.flatMap wordBytes).foldl crc32Step r

/-- The even-parity bit of a word. -/
def parityBit (w : W32) : Bool := (bitsMsb 32 w.toNat).foldl xor false

/-- A 66-bit block with its parity (R155). -/
def blockUnit (hdr : Nat) (p : BitVec 64) : SlUnit :=
  let ws := [p.extractLsb' 32 32, p.extractLsb' 0 32]
  { hdr := hdr, words := ws, par := ws.map parityBit }

/-- An SDI word pair with its parity (R155). -/
def pairUnit (p : BitVec 20) : SlUnit :=
  let ws := [w32 (p.toNat / 2 ^ 10), w32 (p.toNat % 2 ^ 10)]
  { hdr := 0, words := ws, par := ws.map parityBit }

/-- Every word agrees with its parity bit (R155, R158). -/
def SlUnit.clean (u : SlUnit) : Bool := decide (u.words.map parityBit = u.par)

/-- The unit as it reaches the Sluice, bits of it inverted. -/
def SlUnit.hit (u : SlUnit) (f : UnitFault) : SlUnit := { u with words := u.words.zipIdx.map fun p => p.1 ^^^ f.flips.getD p.2 0 }

/-- The 64 bits of a block. -/
def SlUnit.payload (u : SlUnit) : BitVec 64 := (u.words.getD 0 0 ++ u.words.getD 1 0 : BitVec 64)

/-- The unit holds an SOF word (R174). -/
def SlUnit.sof (u : SlUnit) : Bool := decide (u.hdr = 1) && u.words.any (isType 0)

/-- The payload of an IDLE block (R232, R234). -/
def idleCell (gap : Bool) : BitVec 64 := BitVec.ofNat 64 (0x2D * 2 ^ 56 + b2n gap * 2 ^ 55)

/-! ## What a Side presents (R154, R156, R233, R301) -/

/-- The output slots with a transmit position on lane `l`, none of them bypassed. -/
def State.laneOutputs (s : State) (l : Nat) : List (Nat × OutPlan) :=
  s.outPlan.filter fun p => p.2.bypass.isNone && (p.2.pos (laneBank l)).any (s.txOnLane l (laneBank l))

/-- The lowest slot of an output's group. -/
def lowOf (p : Nat × OutPlan) : Nat := if p.2.slots = 1 then p.1 else p.2.lowest

/-- A Side's output stage presents units to a lane: it runs, HOT, past LOAD, and each output on the lane has begun a frame (R161, R178). -/
def State.presents (s : State) (sd : Side) (l : Nat) : Bool :=
  s.routing sd && decide (s.phase sd ≠ 1) &&
    (s.laneOutputs l).all fun p => ((s.shown.at (2 * lowOf p + sd.idx)).frame).isSome

/-- The output slot of channel `c` of a Nervor lane. -/
def State.channelSlot (s : State) (l c : Nat) : Option (Nat × OutPlan) :=
  s.outPlan.find? fun p => decide (p.2.pos (laneBank l) = some (.nervor l c))

/-- The next block of channel `c` of a Nervor lane in a Side, and the words that it leaves (R233, R253). -/
def State.channelUnit (s : State) (sd : Side) (l c : Nat) : SlUnit × TxQ :=
  let q := s.txqs.at (2 * (4 * l + c) + sd.idx)
  match s.channelSlot l c with
  | none => (blockUnit 2 (idleCell false), q)
  | some p =>
    if p.2.bypass.isSome then (blockUnit 2 (idleCell false), q)
    else
      let q := s.readOut sd p.1 q s.cadTime
      match q.q with
      | [] => (blockUnit 2 (idleCell false), q)
      | [x] => (blockUnit 1 (x ++ (3 : BitVec 2) ++ (0 : BitVec 30) : BitVec 64), { q with q := [] })
      | x :: y :: r => (blockUnit 1 (x ++ y : BitVec 64), { q with q := r })

/-! ### SDI rasters (R273 to R276) -/

/-- The packets of a data stream that fit the space of their line, and how many do not (R274). -/
def fitAnc (space : Nat) (ps : List (List Nat)) : List (List Nat) × Nat :=
  let r := ps.foldl (fun (a : List (List Nat) × Nat × Nat) p =>
    if a.2.1 + p.length ≤ space then (a.1 ++ [p], a.2.1 + p.length, a.2.2) else (a.1, a.2.1, a.2.2 + 1)) ([], 0, 0)
  (r.1, r.2.2)

/-- The interface, level B, the link and whether the payload identifier is sent, of an SDI lane with SDI_CFG as at its frame's start (R273, R275). -/
def State.sdiOut (s : State) (l : Nat) (f : Fmt) (cfg : W32) : Nat × Bool × Nat × Bool :=
  (sdiInterface f, bitOf cfg F.SDI_CFG_TX_LEVEL_B.lo && decide (sdiInterface f = 2) && decide (f.sampling = 0),
    (if s.flag (R1 .LANE_CFG l) F.LANE_CFG_PAIR then l % 2 else 0), bitOf cfg F.SDI_CFG_VPID_INS.lo)

/-- The word pairs of line `row` of output frame `f` on an SDI lane in a Side, and the packets that did not fit (R273, R274). -/
def State.sdiRow (s : State) (sd : Side) (l d : Nat) (cfg : W32) (f row : Nat) : List (BitVec 20) × Nat :=
  let fm := (s.outPlan.at d).fmt
  let o := s.sdiOut l fm cfg
  let p := s.outPackets sd d f row false
  let audio (x : List Nat) : Bool := (Config.audioGroup (x.drop 3)).isSome
  let v := fitAnc (Config.ancSpace (o.1, o.2.1) fm.code row false false) p.1
  let y := fitAnc (Config.ancSpace (o.1, o.2.1) fm.code row true false) (p.2.filter fun x => !audio x)
  let c := fitAnc (Config.ancSpace (o.1, o.2.1) fm.code row true true) (p.2.filter audio)
  let video : List W32 := ((activeIndex fm row).map (s.outVideo sd d f row)).getD []
  (Config.sdiLine o (fm.code, fm.il, fm.seg) row video (v.1, y.1, c.1), v.2 + y.2 + c.2)

/-- The word pairs of a line of the flywheel raster: black, without ancillary data (R173). -/
def State.flywheelRow (s : State) (l : Nat) (f : Fmt) (cfg : W32) (row : Nat) : List (BitVec 20) :=
  let video : List W32 := if (activeIndex f row).isSome then (List.range f.lineWords).map (blackWord f) else []
  Config.sdiLine (s.sdiOut l f cfg) (f.code, f.il, f.seg) row video ([], [], [])

/-- A lane's raster begins a frame: SDI_CFG and the frame number are taken (R276, R278). -/
def State.sdiBegin (s : State) (l d : Nat) (q : Sluice) : Sluice :=
  { q with frame := some (s.outFrameAt d (s.outs.at d) s.cadTime), row := 1, pair := 0, cfg := s.rd (R1 .SDI_CFG l) }

/-- SDI_TX_FRAME: the lane's raster begins the frame of its output: SDI_CFG as it stands applies to it (R273, R278). -/
def execSdiTxFrame (n : Fin 512) (s : State) : Out :=
  match s.laneOutputs n with
  | [] => .next s
  | p :: _ =>
    if s.laneProto n ≠ 2 ∨ !s.transmitting n then .next s
    else
      let d := lowOf p
      let q := s.sdiBegin n d (s.sluices.at n)
      let o := s.sdiOut n (s.outPlan.at d).fmt q.cfg
      .next (({ s with sluices := s.sluices.set n q } : State).emit (.sdiRaster n d (s.outPlan.at d).fmt.code o.2.1 o.2.2.2))

/-! ## Choice (R156 to R158, R173, R174) -/

/-- The lanes that act as one Sluice group with lane `l` (R157). -/
def State.sluiceGroup (s : State) (l : Nat) : List Nat :=
  if s.laneProto l = 2 then s.sdiLanes l
  else if s.laneProto l = 3 then
    match s.portPlan.find? fun p => p.2.lanes.contains l with
    | some p => p.2.lanes
    | none => [l]
  else [l]

/-- The compare counter's frame and line now (R155). -/
def State.compareLine (s : State) (l : Nat) : Int × Nat :=
  let c := s.cadOf (s.fld (R1 .SLU_CFG l) F.SLU_CFG_CADENCE)
  let f := s.cadFrameAt c s.cadTime
  let fm := s.cadFmt c
  let t := (s.cadTime - s.cadStart c f).toNat
  (f, ((List.range (rasterLines fm.raster).1).filter fun j => decide (fm.lineAt (j + 1) ≤ t)).length)

/-- A compare interval ends (R159, R160). -/
def State.closeInterval (s : State) (l : Nat) : State :=
  let k := R1 .SLU_STAT l
  let q := s.sluices.at l
  let s : State := { s with sluices := s.sluices.set l { q with crcA := 0xFFFFFFFF, crcB := 0xFFFFFFFF, bad := false, line := none, idx := 0 } }
  if q.crcA = q.crcB ∧ !q.bad then
    let run := min 16 (s.fld k F.SLU_STAT_MATCH_RUN + 1)
    let s := s.setF k F.SLU_STAT_MATCH_RUN run
    if run = 16 then s.setF k F.SLU_STAT_STEP_OK 1 else s
  else
    let s := (s.addWrap (R1 .SLU_MISMATCH l) 1).raise (R1 .SLU_EVT l) F.SLU_EVT_MISMATCH
    (s.setF k F.SLU_STAT_STEP_OK 0).setF k F.SLU_STAT_MATCH_RUN 0

/-- COMPARE_INTERVAL_END: a line of the compare counter has ended; the Sides are judged, and Assay sees a change of the compare lines (R159 to R161). -/
def execCompareIntervalEnd (l : Fin 512) (s : State) : Out :=
  if !s.transmitting l then .next ((s.sluiceStop l).updateStep.cycle [])
  else
    match (s.sluices.at l).line with
    | some x => if s.compareLine l = x then .next s else .next ((s.closeInterval l).updateStep.cycle [])
    | none => .next s

/-- A Side's FIFO when a unit is due: units whose tags have passed go, and the Side's unit for the tag has entered unless it is late, behind at most 63 others (R156).
DESIGN CHOICE: a unit whose tag has passed is discarded; the spec does not say (log entry 132). -/
def fifoNext (fifo : List (((Int × Nat) × Nat) × SlUnit)) (tag : (Int × Nat) × Nat) (u : Option SlUnit) (late : Bool) :
    List (((Int × Nat) × Nat) × SlUnit) × Option SlUnit :=
  let f := fifo.filter fun x => decide (x.1 = tag)
  match u with
  | none => (f, none)
  | some u => if late then ((f ++ [(tag, u)]).take 64, none) else (f, some u)

/-- The block of an Ethernet lane that is due, in a Side. -/
def EthBlk.unit (b : EthBlk) : Side → SlUnit
  | .A => blockUnit b.hdr b.a
  | .B => blockUnit b.hdr b.b

/-- What a lane does next: each Side's unit, the unit of gap content, whether a lane in gap content may leave it here, and the state once the units have been
taken. -/
structure Due where
  a     : SlUnit
  b     : SlUnit
  gap   : SlUnit
  opens : Bool
  cut   : Bool
  after : State

/-- What is due on a Nervor lane: the next data position of its channel (R233, R246). DESIGN CHOICE: a lane of several channels leaves gap content at a unit with an
SOF word of any of them, and one without outputs at once (log entry 133). -/
def State.dueNervor (s : State) (l : Nat) : Due :=
  let c := (s.sluices.at l).taken % max 1 (s.nvlChannels l)
  let a := s.channelUnit .A l c
  let b := s.channelUnit .B l c
  let put (s : State) (sd : Side) (q : TxQ) : State :=
    if s.presents sd l then { s with txqs := s.txqs.set (2 * (4 * l + c) + sd.idx) q } else s
  let own := match s.holder with | some .B => b.1 | _ => a.1
  { a := a.1, b := b.1, gap := blockUnit 2 (idleCell true), opens := own.sof || (s.laneOutputs l).isEmpty, cut := false, after := put (put s .A a.2) .B b.2 }

/-- What is due on an SDI lane: the next word pair of its raster (R173, R273); packets that do not fit are counted as their line begins (R274). -/
def State.dueSdi (s : State) (l : Nat) : Due :=
  let d : Nat := ((s.laneOutputs l).head?.map lowOf).getD 0
  let q := s.sluices.at l
  let q := if q.frame.isNone then s.sdiBegin l d q else q
  let fm := (s.outPlan.at d).fmt
  let g := (q.frame.getD 0).toNat
  let a := s.sdiRow .A l d q.cfg g q.row
  let b := s.sdiRow .B l d q.cfg g q.row
  let fly := s.flywheelRow l (q.fmt.getD fm) q.cfg q.row
  let n := max a.1.length (max b.1.length fly.length)
  let own := match s.holder with | some .B => b | _ => a
  let at_ (ps : List (BitVec 20)) : SlUnit := pairUnit (ps.getD q.pair 0)
  let q' := if q.pair + 1 < n then { q with pair := q.pair + 1 }
    else if q.row < (rasterLines fm.raster).1 then { q with row := q.row + 1, pair := 0 }
    else s.sdiBegin l d q
  let s' : State := { s with sluices := s.sluices.set l q' }
  let s' := if q.pair = 0 ∧ own.2 ≠ 0 then
      (s'.addSat (R1 .SDI_ANC_ERR l) F.SDI_ANC_ERR_TX_DROP own.2).raise (R1 .SDI_EVT l) F.SDI_EVT_ANC_DROP else s'
  { a := at_ a.1, b := at_ b.1, gap := at_ fly, opens := decide (q.row = 1 ∧ q.pair = 0), cut := false, after := s' }

/-- What is due on an Ethernet lane: the next block of its port's frames, or an idle block (R173, R174). -/
def State.dueEth (s : State) (l : Nat) : Due :=
  match s.ethQ.at l with
  | [] => { a := blockUnit 2 idleBlock, b := blockUnit 2 idleBlock, gap := blockUnit 2 idleBlock, opens := true, cut := false, after := s }
  | x :: r => { a := x.unit .A, b := x.unit .B, gap := blockUnit 2 idleBlock, opens := x.first, cut := !x.first, after := { s with ethQ := s.ethQ.set l r } }

/-- What is due on a lane. -/
def State.due (s : State) (l : Nat) : Due :=
  match s.laneProto l with
  | 1 => s.dueNervor l
  | 2 => s.dueSdi l
  | _ => s.dueEth l

/-- A Side's FIFO at the next unit of lane `l`, when `f` befalls that unit on its way, and its unit there, if it is aligned (R156). -/
def State.stands (s : State) (l : Nat) (sd : Side) (f : UnitFault) : List (((Int × Nat) × Nat) × SlUnit) × Option SlUnit :=
  let q := s.sluices.at l
  let due := s.due l
  let own : SlUnit := match sd with | .A => due.a | .B => due.b
  fifoNext (match sd with | .A => q.fifoA | .B => q.fifoB) (q.line.getD (0, 0), q.idx) (if s.presents sd l then some (own.hit f) else none) f.late

/-- What a member of the lane's group that is one unit ahead has sent (R157). -/
def State.groupMode (s : State) (l : Nat) : Option (Option Side) :=
  ((s.sluiceGroup l).find? fun m => decide (m ≠ l ∧ (s.sluices.at m).taken = (s.sluices.at l).taken + 1)).map fun m => (s.sluices.at m).mode

/-- What a Sluice sends: gap content, or a Side's unit and whether it stands for the holder's (R157, R158, R174). -/
inductive Choice where
  | gap
  | unit (side : Side) (repair : Bool)
deriving DecidableEq, Repr

/-- The choice, from the two units that stand due (none where the Side is unaligned), whether the lane is in gap content, and whether it may leave it. -/
def State.choose (s : State) (l : Nat) (a b : Option SlUnit) (inGap opens : Bool) : Choice :=
  match s.holder with
  | none => .gap
  | some x =>
    let own := if x = .A then a else b
    let oth := if x = .A then b else a
    match own with
    | none => .gap
    | some u =>
      if s.flag (R0 .RFE_STATE) F.RFE_STATE_QUIET then .gap
      else
        let lead := s.groupMode l
        if (match lead with | some m => m.isNone | none => inGap && !opens) then .gap
        else if !u.clean && (oth.any (·.clean)) && s.flag (R1 .SLU_STAT l) F.SLU_STAT_STEP_OK then .unit x.other true
        else .unit x false

/-! ## The transmit side of a Nervor lane (R234 to R242, R246 to R251) -/

/-- A control message with its CRC-8 (R247). -/
def ctrlPayload (code part body : Nat) : BitVec 64 :=
  let m := code * 2 ^ 44 + part * 2 ^ 40 + body % 2 ^ 40
  BitVec.ofNat 64 (0x78 * 2 ^ 56 + m * 256 + crc 8 0x07 0 (bitsMsb 48 m))

/-- The ALARM bits of a lane (R249): the superframe lock, what the last millisecond held, a park within 1 ms, and gap content. -/
def State.alarmBits (s : State) (l : Nat) : Nat :=
  let recent := (s.link l).recent.filter fun e => decide (s.tick < e.1 + msTicks)
  let words : Nat := recent.foldl (fun n e => n + e.2.1) 0
  let syms : Nat := recent.foldl (fun n e => n + e.2.2.1) 0
  let parks := !s.laneDemanded l && (s.lane l).idleSince.any fun t => decide (t + 9 * msTicks ≤ s.tick)
  b2n (!s.flag (R1 .NVL_STAT l) F.NVL_STAT_SF_LOCK) * 16 + b2n (decide (words * 272 < syms * 100000)) * 8 +
    b2n (recent.any fun e => decide (e.2.2.2 ≠ 0)) * 4 + b2n parks * 2 + b2n (s.flag (R1 .SLU_STAT l) F.SLU_STAT_GAP)

/-- The body of part `k` of the EK1024's roll-call report (R251). -/
def rollBody (l k : Nat) : Nat :=
  match k with
  | 0 => 4 * 2 ^ 36 + Config.rollGen.toNat * 2 ^ 28 + 1024 * 2 ^ 16 + 0x1F
  | 1 => Config.serial.toNat / 2 ^ 32 * 256 + l % 256
  | _ => Config.serial.toNat % 2 ^ 32 * 256 + l / 256 * 128 + (laneBank l).idx * 64

/-- The body of a TRAIN message (R248). -/
def State.trainBody (s : State) (l : Nat) : Nat :=
  let x := s.link l
  x.ask.1 % 4 * 2 ^ 38 + x.ask.2.1 % 4 * 2 ^ 36 + x.ask.2.2 % 256 * 2 ^ 28 + x.result % 4 * 2 ^ 26 + x.reqSeq.getD 0 % 256 * 2 ^ 18 + b2n x.ready * 2 ^ 17

/-- The body of a LANE_DATA message (R250). -/
def State.laneDataBody (s : State) (l : Nat) : Nat :=
  let recent := (s.link l).recent.filter fun e => decide (s.tick < e.1 + msTicks)
  s.fld (R1 .LANE_EYE l) F.LANE_EYE_HEIGHT * 2 ^ 30 + min 1023 (recent.foldl (fun n e => n + e.2.2.1) 0) * 2 ^ 20 +
    min 255 (recent.foldl (fun n e => n + e.2.2.2) 0) * 2 ^ 12

/-- The message of the next CTRL position, and the transmit side after it (R247). DESIGN CHOICE: a report begun goes on before an ALARM that falls due between its
parts, which must stand in consecutive CTRL positions (log entry 134). -/
def State.ctrlNext (s : State) (l : Nat) (x : NvlTx) : BitVec 64 × NvlTx :=
  let bits := s.alarmBits l
  let up := decide (s.linkState l = 3)
  let x := if up && decide (x.rollSf + 64 ≤ x.sf) && x.roll.isNone then { x with roll := some 0 } else x
  if s.linkState l = 2 then (ctrlPayload 1 0 (s.trainBody l), x)
  else if (x.alarm ≠ some bits ∨ x.alarmSf + 64 ≤ x.sf) ∧ (x.roll = none ∨ x.roll = some 0) then
    (ctrlPayload 2 0 (bits * 2 ^ 35), { x with alarm := some bits, alarmSf := x.sf })
  else if up then
    match x.roll with
    | some k => (ctrlPayload 4 k (rollBody l k), { x with roll := if k < 2 then some (k + 1) else none, rollSf := x.sf })
    | none =>
      if x.rollReq then (ctrlPayload 5 0 0, { x with rollReq := false })
      else if x.dataAt + msTicks ≤ s.tick then (ctrlPayload 3 0 (s.laneDataBody l), { x with dataAt := s.tick })
      else (ctrlPayload 0 0 0, x)
  else (ctrlPayload 0 0 0, x)

/-- A block enters the transmit elastic buffer of 32 blocks; where it is full its oldest data block goes, which is reported (R242). -/
def NvlTx.put (x : NvlTx) (hdr : Nat) (p : BitVec 64) : NvlTx × Bool :=
  if x.buf.length < 32 then ({ x with buf := x.buf ++ [(hdr, p)] }, false)
  else
    let data (e : Nat × BitVec 64) : Bool := e.1 = 1 || e.2.toNat / 2 ^ 56 = 0x2D
    let i := x.buf.findIdx data
    ({ x with buf := x.buf.eraseIdx i ++ [(hdr, p)] }, true)

/-- Overhead block positions before the next data position enter the elastic buffer (R235): AM or FILLER, CTRL, FILLER, CRC. -/
def State.putOverhead (s : State) (l : Nat) : State :=
  let x := s.nvlTx.at l
  if x.pos % 16 ≠ 0 then s
  else
    let row := x.pos / 64
    let e : BitVec 64 × NvlTx := match x.pos % 64 / 16 with
      | 0 => if row = 0 then
          (BitVec.ofNat 64 (0x4B * 2 ^ 56 + x.sf % 65536 * 2 ^ 40 + b2n (s.fecOn l) * 2 ^ 39 + s.nvlChannels l * 2 ^ 36), x)
        else (BitVec.ofNat 64 (0x1E * 2 ^ 56), x)
      | 1 => s.ctrlNext l x
      | 2 => (BitVec.ofNat 64 (0x1E * 2 ^ 56), x)
      | _ => (BitVec.ofNat 64 (0x87 * 2 ^ 56), x)
    let y := e.2.put 2 e.1
    let s : State := { s with nvlTx := s.nvlTx.set l { y.1 with pos := (x.pos + 1) % 1024, sf := if x.pos = 1023 then x.sf + 1 else y.1.sf } }
    if y.2 then (s.addWrap (R1 .NVL_TX_DROP l) 1).raise (R1 .NVL_EVT l) F.NVL_EVT_TX_DROP else s

/-- A data position enters the elastic buffer. -/
def State.putData (s : State) (l hdr : Nat) (p : BitVec 64) : State :=
  let s := s.putOverhead l
  let x := s.nvlTx.at l
  let y := x.put hdr p
  let s : State := { s with nvlTx := s.nvlTx.set l { y.1 with pos := (x.pos + 1) % 1024, sf := if x.pos = 1023 then x.sf + 1 else x.sf } }
  if y.2 then (s.addWrap (R1 .NVL_TX_DROP l) 1).raise (R1 .NVL_EVT l) F.NVL_EVT_TX_DROP else s

/-- The CRC block of the data positions sent since the one before: a poisoned channel's CRC-12 is inverted (R234, R238). -/
def NvlTx.crcBlock (x : NvlTx) (chans : Nat) : BitVec 64 :=
  let field (c : Nat) : Nat := if chans ≤ c then 0 else if x.poison.getD c false then 4095 - x.crcs.getD c 0 % 4096 else x.crcs.getD c 0 % 4096
  BitVec.ofNat 64 (0x87 * 2 ^ 56 + x.sent % 256 * 2 ^ 48 + field 0 * 2 ^ 36 + field 1 * 2 ^ 24 + field 2 * 2 ^ 12 + field 3)

/-- The scrambler over a payload, bit 63 first (R239). -/
def scramble (r : BitVec 58) (p : BitVec 64) : BitVec 58 × List Bool :=
  (bitsMsb 64 p.toNat).foldl (fun (a : BitVec 58 × List Bool) b =>
    let o := (b ^^ a.1.getLsbD 57) ^^ a.1.getLsbD 38
    ((a.1 <<< 1) ||| (if o then 1 else 0), a.2 ++ [o])) (r, [])

/-- Line bits with their FEC parity: every 2 570 message bits make a codeword (R240). -/
def fecBits (on : Bool) (held bits : List Bool) : List Bool × List Bool :=
  if !on then ([], bits)
  else
    let all := held ++ bits
    if all.length < 2570 then (all, bits) else (all.drop 2570, bits.take (2570 - held.length) ++ Config.fecParity (all.take 2570) ++ all.drop 2570)

/-- The run guard (R241): after 31 identical transmit units of `w` bits, a complementary one. -/
def runGuard (w : Nat) : Nat → Nat × Nat → List Bool → (Nat × Nat) × List Bool
  | 0, r, _ => (r, [])
  | fuel + 1, r, bits =>
    if bits = [] then (r, [])
    else
      let u := bitsNat (bits.take w)
      let n := if r.2 = 0 then 1 else if u = r.1 then r.2 + 1 else 1
      let stuff := decide (n = 31)
      let t := runGuard w fuel (u, if stuff then 0 else n) (bits.drop w)
      (t.1, bits.take w ++ (if stuff then (bits.take w).map (!·) else []) ++ t.2)

/-- A block leaves the elastic buffer for the line: its COUNT and CRCs kept, scrambled, coded and guarded (R234, R238 to R241). -/
def State.lineBlock (s : State) (l hdr : Nat) (p : BitVec 64) : State :=
  let x := s.nvlTx.at l
  let chans := s.nvlChannels l
  let type := p.toNat / 2 ^ 56
  let isCrc := decide (hdr = 2 ∧ type = 0x87)
  let isData := decide (hdr = 1 ∨ type = 0x2D)
  let p := if isCrc then x.crcBlock chans else p
  let x := if isCrc then { x with sent := 0, crcs := [0xFFF, 0xFFF, 0xFFF, 0xFFF], poison := [false, false, false, false] }
    else if isData then
      let c := x.sent % max 1 chans
      { x with sent := x.sent + 1, crcs := x.crcs.set c (crc12Step (x.crcs.getD c 0xFFF) p) }
    else x
  let sc := scramble x.scr p
  let fe := fecBits (s.fecOn l) x.fec (bitsMsb 2 hdr ++ sc.2)
  let g := runGuard (if s.pam4 l then 2 else 1) (fe.2.length + 1) x.run fe.2
  ({ s with nvlTx := s.nvlTx.set l { x with scr := sc.1, fec := fe.1, run := g.1 } } : State).emit (.line l g.2)

/-- The line takes `n` blocks. DESIGN CHOICE: a FILLER is omitted while more than 24 blocks wait and doubled while fewer than 8 do (log entry 135). -/
def State.lineTake (s : State) (l : Nat) : Nat → State
  | 0 => s
  | n + 1 =>
    let x := s.nvlTx.at l
    match x.buf with
    | [] => s
    | (hdr, p) :: r =>
      let filler := decide (hdr = 2 ∧ p.toNat / 2 ^ 56 = 0x1E)
      let keep := filler && decide (x.buf.length < 8)
      if filler && decide (24 < x.buf.length) then State.lineTake { s with nvlTx := s.nvlTx.set l { x with buf := r } } l n
      else
        let s : State := { s with nvlTx := s.nvlTx.set l { x with buf := r } }
        let s := s.lineBlock l hdr p
        State.lineTake (if keep then s.lineBlock l hdr p else s) l n

/-- The bank's part of a Nervor data position: a bypass output's block replaces the Sides' IDLE, then the block goes towards the line (R242, R253, R254). -/
def State.nvlOut (s : State) (l c : Nat) (u : SlUnit) (n : Nat) : State :=
  let bypassed := (s.channelSlot l c).any fun p => p.2.bypass.isSome
  let q := s.bypassQ.at (4 * l + c)
  let s := match bypassed, q with
    | true, (x, y) :: r => ({ s with bypassQ := s.bypassQ.set (4 * l + c) r } : State).putData l 1 (x ++ y : BitVec 64)
    | _, _ => s.putData l u.hdr u.payload
  s.lineTake l n

/-! ## Test patterns (R218) -/

/-- The length and the tap of a PRBS (PRESUMED: the polynomials of ITU-T O.150 and IEEE 802.3, log entry 136). -/
def prbsTaps (code : Nat) : Nat × Nat :=
  match code with
  | 1 => (7, 6) | 2 => (9, 5) | 3 => (15, 14) | 4 => (23, 18) | 6 => (13, 12)
  | _ => (31, 28)

/-- Bit `i` of a pseudo-random sequence from a register of ones. -/
def prbsBit (code i : Nat) : Bool :=
  let t := prbsTaps code
  let r := (List.range i).foldl (fun r _ =>
    let b := (r / 2 ^ (t.1 - 1) + r / 2 ^ (t.2 - 1)) % 2
    (2 * r + b) % 2 ^ t.1) (2 ^ t.1 - 1)
  decide (r / 2 ^ (t.1 - 1) % 2 = 1)

/-- Bit `i` of a pattern before Gray coding, on a lane with two bits a symbol or one. -/
def patternBit (code : Nat) (pam4 : Bool) (i : Nat) : Bool :=
  match code with
  | 8 => Config.ssprq i
  | 9 => decide ((if pam4 then i / 2 else i) % 16 < 8)
  | _ => prbsBit code i

/-- The Gray coding of symbols of two bits. -/
def grayPairs : List Bool → List Bool
  | a :: b :: t => a :: (a ^^ b) :: grayPairs t
  | t => t

/-- `n` units of 66 bits of a lane's test pattern go out, one bit inverted for each INJECT (R218). -/
def State.sendPattern (s : State) (l n : Nat) : State :=
  let x := s.lane l
  let code := s.txPattern l
  if code = 0 ∨ !s.flag (R1 .LANE_STAT l) F.LANE_STAT_TX_ON then s
  else
    let bits := (List.range (66 * n)).map fun i => patternBit code (s.pam4 l) (x.patPos + i)
    let bits := if s.pam4 l && decide (code ≤ 7) then grayPairs bits else bits
    let bits := bits.zipIdx.map fun p => if p.2 < x.inject then !p.1 else p.1
    (s.setLane l { x with patPos := x.patPos + 66 * n, inject := x.inject - min x.inject (66 * n) }).emit (.line l bits)

/-! ## SLUICE_UNIT -/

/-- The first unit of a new line of the compare counter closes the interval before it (R159). -/
def State.openInterval (s : State) (l : Nat) : State :=
  let now := s.compareLine l
  let s := match (s.sluices.at l).line with
    | some x => if x = now then s else ((s.closeInterval l).updateStep).cycle []
    | none => s
  { s with sluices := s.sluices.upd l fun q => { q with line := some now } }

/-- The port of an Ethernet lane. -/
def State.lanePortOf (s : State) (l : Nat) : Option Nat := (s.portPlan.find? fun p => p.2.lanes.contains l).map (·.1)

/-- A unit of gap content leaves: its entry is an event, and cuts an Ethernet frame with an error block (R173, R174). -/
def State.sendGap (s : State) (l : Nat) (u : SlUnit) (cut : Bool) : State :=
  let k := R1 .SLU_STAT l
  let fresh := !s.flag k F.SLU_STAT_GAP
  let s := if fresh then s.raise (R1 .SLU_EVT l) F.SLU_EVT_GAP else s
  let s := s.setF k F.SLU_STAT_GAP 1
  if fresh && cut then
    let s := match s.lanePortOf l with
      | some i => if ((s.portPlan.at i).lanes.head?) = some l then s.count i 44 1 else s
      | none => s
    s.emit (.gap l 2 [errorBlock.extractLsb' 32 32, errorBlock.extractLsb' 0 32])
  else s.emit (.gap l u.hdr u.words)

/-- A unit that stands due fails parity (R158). -/
def unclean (u : Option SlUnit) : Bool := u.any fun u => !u.clean

/-- Lane `l` takes the units that stand due, and what is chosen leaves; the line takes `n` blocks. -/
def State.takeUnit (s : State) (l : Nat) (a b : UnitFault) (n : Nat) : State :=
  let k := R1 .SLU_STAT l
  let ke := R1 .SLU_EVT l
  let q := s.sluices.at l
  let due := s.due l
  let fa := s.stands l .A a
  let fb := s.stands l .B b
  let ua := fa.2
  let ub := fb.2
  let words (u : Option SlUnit) : List W32 := (u.map (·.words)).getD []
  let inGap := decide (q.taken = 0) || s.flag k F.SLU_STAT_GAP
  let c := s.choose l ua ub inGap due.opens
  let mode : Option Side := match c with
    | .gap => none
    | .unit _ _ => s.holder
  let chan := q.taken % max 1 (s.nvlChannels l)
  let s := due.after
  let s : State := { s with sluices := s.sluices.upd l fun y => { y with
    crcA := crcUnit y.crcA (words ua), crcB := crcUnit y.crcB (words ub), bad := y.bad || ua.isNone || ub.isNone || unclean ua || unclean ub
    idx := y.idx + 1, fifoA := fa.1, fifoB := fb.1, taken := y.taken + 1, mode := mode
    fmt := if mode.isSome then ((s.laneOutputs l).head?).map (fun p => (s.outPlan.at (lowOf p)).fmt) else y.fmt } }
  let s := (s.setF k F.SLU_STAT_ALIGNED_A (b2n ua.isSome)).setF k F.SLU_STAT_ALIGNED_B (b2n ub.isSome)
  let s := s.setF k F.SLU_STAT_UNIT (if s.laneProto l = 2 then 2 else 1)
  let s := if s.holder.isSome && (ua.isNone || ub.isNone) then s.raise ke F.SLU_EVT_UNALIGNED else s
  let s := if unclean ua then (s.addWrap (R1 .SLU_PARERR l) 1).raise ke F.SLU_EVT_PAR_A else s
  let s := if unclean ub then (s.addWrap (R1 .SLU_PARERR l) 1).raise ke F.SLU_EVT_PAR_B else s
  let sent : SlUnit := match c with
    | .gap => due.gap
    | .unit x _ => ((if x = .A then ua else ub)).getD due.gap
  let s : State := match c with
    | .gap => s.sendGap l due.gap due.cut
    | .unit x rep =>
      let s := s.setF k F.SLU_STAT_GAP 0
      let s := if rep then s.raise ke F.SLU_EVT_REPAIR else s
      let s := if !sent.clean && decide (s.laneProto l = 1) then s.poisonTx l chan else s
      s.emit (.unit l x sent.hdr sent.words)
  if s.laneProto l = 1 then s.nvlOut l chan sent n else s

/-- SLUICE_UNIT: the bank of lane `l` takes the next unit, and the line `n` blocks; `a` and `b` are what befalls the Sides' units on their way (R154 to R158, R173,
R174). A lane in test sends its pattern (R218, R221). -/
def execSluiceUnit (l : Fin 512) (a b : UnitFault) (n : Nat) (s : State) : Out :=
  if s.inTest l then .next (s.sendPattern l n)
  else if !s.transmitting l then .next s
  else
    let p := s.openInterval l
    let own (x : Side) : Option SlUnit := (p.stands l x (match x with | .A => a | .B => b)).2
    let s := p.takeUnit l a b n
    match s.holder with
    | none => .next s
    | some x => .next (if unclean (own x) && (own x.other).any (·.clean) then s.parityFail x else s)

/-! ## Frame starts (R94, R127, R130) -/

/-- The words of the frame that ends leave for the transmit queues of its Nervor positions. -/
def State.flushOut (s : State) (sd : Side) (d : Nat) : State :=
  s.outPlan.foldl (fun (s : State) p =>
    if lowOf p ≠ d ∨ p.2.bypass.isSome then s
    else
      [Bank.E, Bank.W].foldl (fun (s : State) b =>
        match p.2.pos b with
        | some (.nervor l c) =>
          let ix := 2 * (4 * l + c) + sd.idx
          if s.transmitting l then { s with txqs := s.txqs.set ix (s.readOut sd p.1 (s.txqs.at ix) s.cadTime) } else s
        | _ => s) s) s

/-- OUTPUT_FRAME_START: the output begins the frame its timing has reached, in every Side whose crosspoint works, once what is left of the frame before has gone to its transmit
positions and flows; its flows take up the new frame. -/
def execOutputFrameStart (d : Fin 1024) (s : State) : Out :=
  let f := s.outFrameAt d (s.outs.at d) s.cadTime
  let due (s : State) (sd : Side) : Bool := match (s.shown.at (2 * d + sd.idx)).frame with
    | some p => decide ((p : Int) < f)
    | none => decide (0 ≤ f)
  let any := (s.routing .A && due s .A) || (s.routing .B && due s .B)
  let s := if any then s.buildFlows d else s
  let s := s.eachRouting fun sd s => if due s sd then (s.flushOut sd d).startFrame sd d f.toNat else s
  .next (if any then s.openFlows d f.toNat else s)

end Sys2Proof.Machine
end

