-- ==== Sys2Proof/Machine/Ticks.lean ====
section
/-!
DEFINITION. The tick of the timing island (R20).
-/
namespace Sys2Proof.Machine

/-- The four time bases after one tick. -/
def State.tickBases (s : State) : SMap TimeBase :=
  (List.range 4).foldl (fun (m : SMap TimeBase) n => SMap.set m n (s.tbAdvance n)) s.tbs

/-- The tick count, and with it the cadence time, and the four time bases advance; then the steps and rates written before it take effect
(R386, R387, R389, R411). -/
def State.tickTime (s : State) : State :=
  let s : State := { s with tick := s.tick + 1, tbs := s.tickBases, setNow := [] }
  (List.range 4).foldl (fun (s : State) n => s.settleTb n) s

/-- TB_TICK: time advances (R386, R411); lanes and engine units whose demand has ended are idle from this tick on (R213, R557); and the transactions that
waited for a lock are granted where their target is free (R475, R477). Nothing advances while AO_RESET_N is low (R562). -/
def execTbTick (s : State) : Out :=
  .next (if s.aoReset then s else ((s.tickTime.noteDemand).noteIdle).serveWaiting s.waiting.length)

end Sys2Proof.Machine
end

