-- ==== Sys2Proof/Machine/Dispatch.lean ====
section
/-!
DEFINITION. The dispatch of commands: one arm per constructor of Instr, each a direct call of its meaning.
-/
namespace Sys2Proof.Machine

/-- The effect of a command on everything but the queue. -/
def exec (i : Instr) (s : State) : Host.Outcome State Fault Refusal :=
  match i with
  | .regWrite r jtag addr v be => Sys2Proof.Machine.execRegWrite r jtag addr v be s
  | .twinWriteAccept r offset v => Sys2Proof.Machine.execTwinWriteAccept r offset v s
  | .twinWriteDelivery => Sys2Proof.Machine.execTwinWriteDelivery s
  | .aoResetAssert => Sys2Proof.Machine.execAoResetAssert s
  | .aoResetRelease => Sys2Proof.Machine.execAoResetRelease s
  | .aoDip => Sys2Proof.Machine.execAoDip s
  | .bootOtpChecked ok => Sys2Proof.Machine.execBootOtpChecked ok s
  | .bootImagesLoaded images => Sys2Proof.Machine.execBootImagesLoaded images s
  | .sideFwLoad sd => Sys2Proof.Machine.execSideFwLoad sd s
  | .bankSupplyFail b ctx cut0 cut1 => Sys2Proof.Machine.execBankSupplyFail b ctx cut0 cut1 s
  | .bankSupplyReturn b => Sys2Proof.Machine.execBankSupplyReturn b s
  | .sidePowerGood sd => Sys2Proof.Machine.execSidePowerGood sd s
  | .pgLate sd => Sys2Proof.Machine.execPgLate sd s
  | .perstAssert p cut => Sys2Proof.Machine.execPerstAssert p cut s
  | .pcieLinkDown p cut => Sys2Proof.Machine.execPcieLinkDown p cut s
  | .pcieHotReset p cut => Sys2Proof.Machine.execPcieHotReset p cut s
  | .functionLevelReset p cut => Sys2Proof.Machine.execFunctionLevelReset p cut s
  | .thermalSensorRead k readings => Sys2Proof.Machine.execThermalSensorRead k readings s
  | .hbmStartTrainingDone sd delays => Sys2Proof.Machine.execHbmStartTrainingDone sd delays s
  | .heartbeat sd fabricOk clocksOk hbmOk => Sys2Proof.Machine.execHeartbeat sd fabricOk clocksOk hbmOk s
  | .leaseExpiry => Sys2Proof.Machine.execLeaseExpiry s
  | .assayLineRise asserted => Sys2Proof.Machine.execAssayLineRise asserted s
  | .sluiceUnit l a b n => Sys2Proof.Machine.execSluiceUnit l a b n s
  | .compareIntervalEnd l => Sys2Proof.Machine.execCompareIntervalEnd l s
  | .standbyStepTimeout => Sys2Proof.Machine.execStandbyStepTimeout s
  | .claimConflict sd => Sys2Proof.Machine.execClaimConflict sd s
  | .voteMismatch a b c => Sys2Proof.Machine.execVoteMismatch a b c s
  | .plannedSwitchover r c => Sys2Proof.Machine.execPlannedSwitchover r c s
  | .switchoverCancel r => Sys2Proof.Machine.execSwitchoverCancel r s
  | .resetSideA r => Sys2Proof.Machine.execResetSideA r s
  | .resetSideB r => Sys2Proof.Machine.execResetSideB r s
  | .switchoverDue => Sys2Proof.Machine.execSwitchoverDue s
  | .watchdogService r n v => Sys2Proof.Machine.execWatchdogService r n v s
  | .watchdogExpiry sd => Sys2Proof.Machine.execWatchdogExpiry sd s
  | .standbyClassSet r v => Sys2Proof.Machine.execStandbyClassSet r v s
  | .resyncLoadDone sd => Sys2Proof.Machine.execResyncLoadDone sd s
  | .resyncFillDone sd => Sys2Proof.Machine.execResyncFillDone sd s
  | .ringFrame bytes => Sys2Proof.Machine.execRingFrame bytes s
  | .ringTimeout => Sys2Proof.Machine.execRingTimeout s
  | .harifBypassOpen => Sys2Proof.Machine.execHarifBypassOpen s
  | .quietTimerExpiry sd => Sys2Proof.Machine.execQuietTimerExpiry sd s
  | .unlatchA r => Sys2Proof.Machine.execUnlatchA r s
  | .unlatchB r => Sys2Proof.Machine.execUnlatchB r s
  | .firstClr r => Sys2Proof.Machine.execFirstClr r s
  | .fwFatal r fw ctx => Sys2Proof.Machine.execFwFatal r fw ctx s
  | .fwDegrade r fw ctx => Sys2Proof.Machine.execFwDegrade r fw ctx s
  | .fwNotice r fw ctx => Sys2Proof.Machine.execFwNotice r fw ctx s
  | .take r d timed tb seq => Sys2Proof.Machine.execTake r d timed tb seq s
  | .salvoCommit r n timed tb seq => Sys2Proof.Machine.execSalvoCommit r n timed tb seq s
  | .takeCancel r d seq => Sys2Proof.Machine.execTakeCancel r d seq s
  | .salvoCancel r n seq => Sys2Proof.Machine.execSalvoCancel r n seq s
  | .commitTick => Sys2Proof.Machine.execCommitTick s
  | .timedTakeStamp => Sys2Proof.Machine.execTimedTakeStamp s
  | .takeExecute d => Sys2Proof.Machine.execTakeExecute d s
  | .salvoClear r => Sys2Proof.Machine.execSalvoClear r s
  | .salvoRelease r => Sys2Proof.Machine.execSalvoRelease r s
  | .salvoAppend r dest src => Sys2Proof.Machine.execSalvoAppend r dest src s
  | .offsetJump d => Sys2Proof.Machine.execOffsetJump d s
  | .outputFrameStart d => Sys2Proof.Machine.execOutputFrameStart d s
  | .captureFrame t => Sys2Proof.Machine.execCaptureFrame t s
  | .captureEnable r t v => Sys2Proof.Machine.execCaptureEnable r t v s
  | .regionApply => Sys2Proof.Machine.execRegionApply s
  | .inputSof n b => Sys2Proof.Machine.execInputSof n b s
  | .mergeBlock n b => Sys2Proof.Machine.execMergeBlock n b s
  | .gapTimeout n b => Sys2Proof.Machine.execGapTimeout n b s
  | .bondUnderrun n b m => Sys2Proof.Machine.execBondUnderrun n b m s
  | .bondRejoin n b m => Sys2Proof.Machine.execBondRejoin n b m s
  | .seamBlockPlace d => Sys2Proof.Machine.execSeamBlockPlace d s
  | .benchDecision b => Sys2Proof.Machine.execBenchDecision b s
  | .benchFrameWrite b => Sys2Proof.Machine.execBenchFrameWrite b s
  | .benchFrameStart b => Sys2Proof.Machine.execBenchFrameStart b s
  | .fsyCfgWrite r b v => Sys2Proof.Machine.execFsyCfgWrite r b v s
  | .sampleBoundary => Sys2Proof.Machine.execSampleBoundary s
  | .changeTimeout c => Sys2Proof.Machine.execChangeTimeout c s
  | .audRouteChange r c v => Sys2Proof.Machine.execAudRouteChange r c v s
  | .audDelayChange r c v => Sys2Proof.Machine.execAudDelayChange r c v s
  | .deembedPacket n => Sys2Proof.Machine.execDeembedPacket n s
  | .tdmArm r p => Sys2Proof.Machine.execTdmArm r p s
  | .tdmStop r p => Sys2Proof.Machine.execTdmStop r p s
  | .tdmFire r w => Sys2Proof.Machine.execTdmFire r w s
  | .tdmTrigger => Sys2Proof.Machine.execTdmTrigger s
  | .tdmFrameSync p din => Sys2Proof.Machine.execTdmFrameSync p din s
  | .tdmGlitch p ago => Sys2Proof.Machine.execTdmGlitch p ago s
  | .fsErr p at_ => Sys2Proof.Machine.execFsErr p at_ s
  | .tdmClockMissing p bclk fs => Sys2Proof.Machine.execTdmClockMissing p bclk fs s
  | .rateChange p khz => Sys2Proof.Machine.execRateChange p khz s
  | .clkBack p khz => Sys2Proof.Machine.execClkBack p khz s
  | .headFrame h bad => Sys2Proof.Machine.execHeadFrame h bad s
  | .tileBlock f => Sys2Proof.Machine.execTileBlock f s
  | .tileFrameEligible f => Sys2Proof.Machine.execTileFrameEligible f s
  | .alyLoadData r v => Sys2Proof.Machine.execAlyLoadData r v s
  | .flipGfx r h => Sys2Proof.Machine.execFlipGfx r h s
  | .flipCursor r h => Sys2Proof.Machine.execFlipCursor r h s
  | .flipLut r h => Sys2Proof.Machine.execFlipLut r h s
  | .alyProtFlip r h => Sys2Proof.Machine.execAlyProtFlip r h s
  | .headBoundary h => Sys2Proof.Machine.execHeadBoundary h s
  | .tbTick => Sys2Proof.Machine.execTbTick s
  | .cadenceFrameStart c => Sys2Proof.Machine.execCadenceFrameStart c s
  | .tbRateWrite r n hi => Sys2Proof.Machine.execTbRateWrite r n hi s
  | .tbNsRead r n be => Sys2Proof.Machine.execTbNsRead r n be s
  | .tbStep r n ctl => Sys2Proof.Machine.execTbStep r n ctl s
  | .compareArm r n u ctl => Sys2Proof.Machine.execCompareArm r n u ctl s
  | .compareFire n u => Sys2Proof.Machine.execCompareFire n u s
  | .pulseEnd n u => Sys2Proof.Machine.execPulseEnd n u s
  | .ptpTxtsRead r prt be => Sys2Proof.Machine.execPtpTxtsRead r prt be s
  | .portCalibrated prt => Sys2Proof.Machine.execPortCalibrated prt s
  | .refCandEvent c instant => Sys2Proof.Machine.execRefCandEvent c instant s
  | .refCandStop c => Sys2Proof.Machine.execRefCandStop c s
  | .refWindowEnd c freq => Sys2Proof.Machine.execRefWindowEnd c freq s
  | .refQualify c => Sys2Proof.Machine.execRefQualify c s
  | .refHoldoffEnd c => Sys2Proof.Machine.execRefHoldoffEnd c s
  | .refLockMet => Sys2Proof.Machine.execRefLockMet s
  | .refModeWrite r cfg => Sys2Proof.Machine.execRefModeWrite r cfg s
  | .realign r cmd => Sys2Proof.Machine.execRealign r cmd s
  | .realignJump c => Sys2Proof.Machine.execRealignJump c s
  | .holdOscStop => Sys2Proof.Machine.execHoldOscStop s
  | .holdOscReturn => Sys2Proof.Machine.execHoldOscReturn s
  | .losAssert n mv us => Sys2Proof.Machine.execLosAssert n mv us s
  | .losClear n mv us => Sys2Proof.Machine.execLosClear n mv us s
  | .lolAssert n locked freq => Sys2Proof.Machine.execLolAssert n locked freq s
  | .lolClear n freq => Sys2Proof.Machine.execLolClear n freq s
  | .qpllUnlock q => Sys2Proof.Machine.execQpllUnlock q s
  | .qpllRelock q => Sys2Proof.Machine.execQpllRelock q s
  | .lanePark n => Sys2Proof.Machine.execLanePark n s
  | .laneDemand n => Sys2Proof.Machine.execLaneDemand n s
  | .wake n => Sys2Proof.Machine.execWake n s
  | .laneTxeqWrite r n v => Sys2Proof.Machine.execLaneTxeqWrite r n v s
  | .laneTestWrite r n v => Sys2Proof.Machine.execLaneTestWrite r n v s
  | .inject r n => Sys2Proof.Machine.execInject r n s
  | .berRead r n errors be => Sys2Proof.Machine.execBerRead r n errors be s
  | .checkerSync n => Sys2Proof.Machine.execCheckerSync n s
  | .checkerSyncLoss n errors => Sys2Proof.Machine.execCheckerSyncLoss n errors s
  | .slip n inserted => Sys2Proof.Machine.execSlip n inserted s
  | .eyeMeasure n height width snr freq => Sys2Proof.Machine.execEyeMeasure n height width snr freq s
  | .lockFail n => Sys2Proof.Machine.execLockFail n s
  | .sfLock n => Sys2Proof.Machine.execSfLock n s
  | .sfLockLost n => Sys2Proof.Machine.execSfLockLost n s
  | .nvlTrainMsg n msg ready => Sys2Proof.Machine.execNvlTrainMsg n msg ready s
  | .trainTimeout n => Sys2Proof.Machine.execTrainTimeout n s
  | .retrain r n => Sys2Proof.Machine.execRetrain r n s
  | .nvlFecModeWrite r n mode => Sys2Proof.Machine.execNvlFecModeWrite r n mode s
  | .rollReq r n => Sys2Proof.Machine.execRollReq r n s
  | .rollCall n m0 m1 m2 => Sys2Proof.Machine.execRollCall n m0 m1 m2 s
  | .gone n => Sys2Proof.Machine.execGone n s
  | .nvlCrcBlock n payload cells unknown => Sys2Proof.Machine.execNvlCrcBlock n payload cells unknown s
  | .nvlCodeword n errors => Sys2Proof.Machine.execNvlCodeword n errors s
  | .alarm n msg => Sys2Proof.Machine.execAlarm n msg s
  | .laneData n msg => Sys2Proof.Machine.execLaneData n msg s
  | .peerGap n => Sys2Proof.Machine.execPeerGap n s
  | .nvlBypassForward d b first second => Sys2Proof.Machine.execNvlBypassForward d b first second s
  | .sdiRasterLock n => Sys2Proof.Machine.execSdiRasterLock n s
  | .sdiRasterUnlock n => Sys2Proof.Machine.execSdiRasterUnlock n s
  | .sdiFrame n structure_ levelB vpid ltc vitc => Sys2Proof.Machine.execSdiFrame n structure_ levelB vpid ltc vitc s
  | .sdiLine n line count crcOk samples ago => Sys2Proof.Machine.execSdiLine n line count crcOk samples ago s
  | .sdiAncPacket n horiz chroma pos words => Sys2Proof.Machine.execSdiAncPacket n horiz chroma pos words s
  | .sdiRateDetect n rate => Sys2Proof.Machine.execSdiRateDetect n rate s
  | .linkSkew n => Sys2Proof.Machine.execLinkSkew n s
  | .sdiTxFrame n => Sys2Proof.Machine.execSdiTxFrame n s
  | .ethFrameReceive prt bytes invalid frac corr uncorr => Sys2Proof.Machine.execEthFrameReceive prt bytes invalid frac corr uncorr s
  | .ethCrxRead r prt be => Sys2Proof.Machine.execEthCrxRead r prt be s
  | .packetLaunch prt => Sys2Proof.Machine.execPacketLaunch prt s
  | .controlGap prt => Sys2Proof.Machine.execControlGap prt s
  | .ctxData r prt v => Sys2Proof.Machine.execCtxData r prt v s
  | .ctxCommit r prt => Sys2Proof.Machine.execCtxCommit r prt s
  | .ctxAbort r prt => Sys2Proof.Machine.execCtxAbort r prt s
  | .controlFrameSend prt frac => Sys2Proof.Machine.execControlFrameSend prt frac s
  | .ethSnap r prt => Sys2Proof.Machine.execEthSnap r prt s
  | .pauseReceive prt quanta => Sys2Proof.Machine.execPauseReceive prt quanta s
  | .pauseExpire prt => Sys2Proof.Machine.execPauseExpire prt s
  | .rrpRequest h ahead => Sys2Proof.Machine.execRrpRequest h ahead s
  | .notifySend h => Sys2Proof.Machine.execNotifySend h s
  | .notifyRetry h => Sys2Proof.Machine.execNotifyRetry h s
  | .notifyAck h seq => Sys2Proof.Machine.execNotifyAck h seq s
  | .linkUp prt => Sys2Proof.Machine.execLinkUp prt s
  | .linkDown prt localFault remoteFault => Sys2Proof.Machine.execLinkDown prt localFault remoteFault s
  | .flowAddrWrite r f reg v => Sys2Proof.Machine.execFlowAddrWrite r f reg v s
  | .flowEnableWrite r tx f v => Sys2Proof.Machine.execFlowEnableWrite r tx f v s
  | .hbmRefreshBoundary sd p => Sys2Proof.Machine.execHbmRefreshBoundary sd p s
  | .hbmRefreshIssue sd p => Sys2Proof.Machine.execHbmRefreshIssue sd p s
  | .hbmTempRead sd temp => Sys2Proof.Machine.execHbmTempRead sd temp s
  | .hbmRetrainPass sd p found => Sys2Proof.Machine.execHbmRetrainPass sd p found s
  | .parAlert sd p ok reads => Sys2Proof.Machine.execParAlert sd p ok reads s
  | .hbmUncorrRead sd p => Sys2Proof.Machine.execHbmUncorrRead sd p s
  | .hbmRequestPromote sd p id waited => Sys2Proof.Machine.execHbmRequestPromote sd p id waited s
  | .late sd k user => Sys2Proof.Machine.execLate sd k user s
  | .hbmActivate sd p row => Sys2Proof.Machine.execHbmActivate sd p row s
  | .hbmRhWindow sd p => Sys2Proof.Machine.execHbmRhWindow sd p s
  | .hbmScrub sd p ctrl odie uncorr => Sys2Proof.Machine.execHbmScrub sd p ctrl odie uncorr s
  | .sramScrub sd area corrected uncorr => Sys2Proof.Machine.execSramScrub sd area corrected uncorr s
  | .hbmSelfRefreshExit sd found => Sys2Proof.Machine.execHbmSelfRefreshExit sd found s
  | .hopPush r sd q v => Sys2Proof.Machine.execHopPush r sd q v s
  | .hopCommit r sd q => Sys2Proof.Machine.execHopCommit r sd q s
  | .hopAbort r sd q => Sys2Proof.Machine.execHopAbort r sd q s
  | .hopPop r sd q ecc be => Sys2Proof.Machine.execHopPop r sd q ecc be s
  | .hopCfgWrite r sd q v => Sys2Proof.Machine.execHopCfgWrite r sd q v s
  | .strLockGo r t => Sys2Proof.Machine.execStrLockGo r t s
  | .strLockGrant t => Sys2Proof.Machine.execStrLockGrant t s
  | .strLockRelease r => Sys2Proof.Machine.execStrLockRelease r s
  | .lockForced r => Sys2Proof.Machine.execLockForced r s
  | .winDataAccess r data be ahead => Sys2Proof.Machine.execWinDataAccess r data be ahead s
  | .winAddrWrite r reg v => Sys2Proof.Machine.execWinAddrWrite r reg v s
  | .spiFrame op addr words ahead => Sys2Proof.Machine.execSpiFrame op addr words ahead s
  | .spiTrunc inFlight => Sys2Proof.Machine.execSpiTrunc inFlight s
  | .mbxLockRead r b be => Sys2Proof.Machine.execMbxLockRead r b be s
  | .mbxMsgWrite r b w v => Sys2Proof.Machine.execMbxMsgWrite r b w v s
  | .mbxDoorbell r b v => Sys2Proof.Machine.execMbxDoorbell r b v s
  | .mbxAckWrite r b v => Sys2Proof.Machine.execMbxAckWrite r b v s
  | .mbxRelease r b v => Sys2Proof.Machine.execMbxRelease r b v s
  | .mbxCfgWrite r b v => Sys2Proof.Machine.execMbxCfgWrite r b v s
  | .evtStatusWrite r k v => Sys2Proof.Machine.execEvtStatusWrite r k v s
  | .evtEnableWrite r k v => Sys2Proof.Machine.execEvtEnableWrite r k v s
  | .evtRouteWrite r e v => Sys2Proof.Machine.execEvtRouteWrite r e v s
  | .evtSetWrite r k v => Sys2Proof.Machine.execEvtSetWrite r k v s
  | .eventFire => Sys2Proof.Machine.execEventFire s
  | .msixUnblock p bme en masks => Sys2Proof.Machine.execMsixUnblock p bme en masks s
  | .updBegin => Sys2Proof.Machine.execUpdBegin s
  | .updData => Sys2Proof.Machine.execUpdData s
  | .updPieceEnd flashOk => Sys2Proof.Machine.execUpdPieceEnd flashOk s
  | .updStatus => Sys2Proof.Machine.execUpdStatus s
  | .updVerify built change flashOk => Sys2Proof.Machine.execUpdVerify built change flashOk s
  | .updActivate flashOk => Sys2Proof.Machine.execUpdActivate flashOk s
  | .updConfirm flashOk => Sys2Proof.Machine.execUpdConfirm flashOk s
  | .updAbort => Sys2Proof.Machine.execUpdAbort s
  | .updApply => Sys2Proof.Machine.execUpdApply s
  | .updAttest => Sys2Proof.Machine.execUpdAttest s
  | .trialDone => Sys2Proof.Machine.execTrialDone s
  | .secondDone => Sys2Proof.Machine.execSecondDone s
  | .sideImageStep => Sys2Proof.Machine.execSideImageStep s
  | .sideImageTimeout => Sys2Proof.Machine.execSideImageTimeout s
  | .secClaim r => Sys2Proof.Machine.execSecClaim r s
  | .secTransfer r => Sys2Proof.Machine.execSecTransfer r s
  | .debugUnlock r => Sys2Proof.Machine.execDebugUnlock r s
  | .relock r => Sys2Proof.Machine.execRelock r s
  | .debugUnlockExpiry => Sys2Proof.Machine.execDebugUnlockExpiry s
  | .parkLaneDeclWrite r g v => Sys2Proof.Machine.execParkLaneDeclWrite r g v s
  | .parkEngDeclWrite r k v => Sys2Proof.Machine.execParkEngDeclWrite r k v s
  | .parkHostWrite r v => Sys2Proof.Machine.execParkHostWrite r v s
  | .engineIdleDeep k u => Sys2Proof.Machine.execEngineIdleDeep k u s
  | .engineDemand k u => Sys2Proof.Machine.execEngineDemand k u s
  | .bypassSupplyLoss => Sys2Proof.Machine.execBypassSupplyLoss s
  | .pcieLinkUp p speed width => Sys2Proof.Machine.execPcieLinkUp p speed width s
  | .blockLockLost n => Sys2Proof.Machine.execBlockLockLost n s

end Sys2Proof.Machine
end

