-- ==== Sys2Proof/Safety.lean ====
section
/-!
DEFINITION. What a sound state is, and the words in which statements say when a command takes its effect and what it leaves alone.
-/
namespace Sys2Proof.Machine

/-! ## Sound states -/

/-- The locks are sound: each names one of T0 to T11, a requester holds or waits for at most one, and a target has at most one that is granted
(R476, R477). -/
def locksOk (ls : List Lock) : Prop :=
  (∀ l ∈ ls, l.target < 12) ∧
  ls.Pairwise (fun a b => a.req ≠ b.req) ∧
  ls.Pairwise fun a b => a.target = b.target → a.since = none ∨ b.since = none

/-- The twin writes that wait are in the order of their delivery ticks, and no three share one (R480). -/
def twinQOk (q : List (RegKey × W32 × Nat)) : Prop :=
  q.Pairwise (fun a b => a.2.2 ≤ b.2.2) ∧ ∀ t, (q.filter fun p => decide (p.2.2 = t)).length ≤ 2

/-- A sound state: every register store and every memory is in its canonical form, so that equal contents are equal data; the locks and the
twin writes are in order; and no prefetch buffer holds more than 16 words (R483). -/
structure State.Sound (s : State) : Prop where
  regs   : Sparse.wf RegKey.lt RegKey.reset s.regs
  twins  : Sparse.wf RegKey.lt RegKey.reset s.twins
  live   : Sparse.wf RegKey.lt RegKey.reset s.alyLive
  hbmA   : Memory.wf s.hbmA
  hbmB   : Memory.wf s.hbmB
  sramA  : Memory.wf s.sramA
  sramB  : Memory.wf s.sramB
  flash0 : Sparse.wf natLt (Config.flashByte 0) s.flash0
  flash1 : Sparse.wf natLt (Config.flashByte 1) s.flash1
  alyA   : Sparse.wf AlyCell.lt alyEmpty s.alyA
  alyB   : Sparse.wf AlyCell.lt alyEmpty s.alyB
  locks  : locksOk s.locks
  twinQ  : twinQOk s.twinQ
  winBuf : ∀ k, (s.winBuf.at k).length ≤ 16

/-! ## Accesses -/

/-- An access of a requester at a target is neither denied for want of a path nor made to wait (R471, R473, R477, R562). -/
def State.granted (s : State) (r : Req) (t : Target) : Prop :=
  s.aoReset = false ∧ hasPath r t = true ∧ s.mustWait r t.num = false

/-- The memory of a window target (R481). -/
def State.winMem (s : State) : Nat → List Host.Cell
  | 6 => s.hbmA
  | 7 => s.hbmB
  | 10 => s.sramA
  | 11 => s.sramB
  | _ => []

/-- A requester's WIN_CTL.TARGET. -/
def State.winTgt (s : State) (r : Req) : Nat := s.fld (RB .WIN_CTL r 0) F.WIN_CTL_TARGET

/-- Where a window access leaves WIN_ADDR (R481). -/
def State.winNext (s : State) (r : Req) : Nat :=
  if s.flag (RB .WIN_CTL r 0) F.WIN_CTL_FIXED then s.winAddr r else (s.winAddr r + 4) % 2 ^ 40

/-- The register is one that a requester's window advance writes. -/
def isWinAddr (r : Req) (k : RegKey) : Prop := k = RB .WIN_ADDR_LO r 0 ∨ k = RB .WIN_ADDR_HI r 0

/-! ## The update mailbox (R534) -/

/-- A message of command `cmd` waits for the boot core in the update mailbox. -/
def State.hasMsg (s : State) (cmd : Nat) : Prop :=
  s.aoReset = false ∧ s.mbxState s.updMbx = 2 ∧ s.mbxReceiver s.updMbx = 10 ∧ (s.msg 0).toNat % 256 = cmd

/-- In `t` the message that waited in `s` is acknowledged with a CODE and its SEQ. -/
def State.acked (s t : State) (code : Nat) : Prop :=
  t.mbxState s.updMbx = 3 ∧ t.fld (R1 .MBX_ACK s.updMbx) F.MBX_ACK_CODE = code % 2 ^ 16 ∧
    t.fld (R1 .MBX_ACK s.updMbx) F.MBX_ACK_SEQ = (s.msg 0).toNat / 256 % 256 ∧ t.flag (R1 .MBX_ACK s.updMbx) F.MBX_ACK_VALID = true

/-- The registers in which an acknowledge of the boot core shows. -/
def ackRegs : List RegName := [.MBX_ACK, .MBX_STAT, .UPD_STAT, .EVT_STATUS]

/-! ## Frames -/

/-- The registers outside `P` read the same in both states. -/
def State.regsSame (P : RegKey → Prop) (s t : State) : Prop := ∀ k, ¬ P k → t.rd k = s.rd k

/-- The parts of the state: its fields, by their names. What hardware has set in the present tick goes with the sources fired, the transactions that
wait and the arbiters' turns go with the locks. -/
inductive Part where
  | pending | regs | sideA | sideB | rights | plain7 | fired | out | lastRead | freeCtr | aoReset | twins | twinQ
  | inPlan | inRx | merges | feeds | outPlan | routes | takes | commits | salvos | outs | shown | stores | captures
  | benches | benchPlan | benchIn | benchMem | leadOld | leaseEnd | grace | planned | outSince | voters | grantAt
  | sluices | ring | envLines | sevAt | therm | txqs | lanes | nvl | bankLost | nvlTx | bypassQ | sdi | portPlan
  | rxFlows | txRuns | txFlows | txBufs | ethQ | macs | rrp | hostParked | tick | tbs | cmps | ports | txLatch | cads
  | cands | ref | trigArmed | trigSignal | audioTb | audioHi | audNext | audSrc | audDst | tdm | tdmOwner | audTimes
  | audIn | headPlan | tileHead | preHead | headRun | tiles | alyA | alyB | alyWait | alyLive | alyStore | hbmA | hbmB
  | hbmRun | hbmMax | hoppers | capPlan | sramA | sramB | hbmTempAt | audLate | locks | winBuf | msixOpen | msixPend
  | vecHigh | flash0 | flash1 | owners | svn | otpOk | loaded | updMbx | session | parts | updSide | confirming | fwHash
  | change | changeAt | attest | unlock | tempSeen | engs
deriving DecidableEq, Repr

/-- A part of the state is the same in both states. -/
def State.same (s t : State) : Part → Prop
  | .pending => t.pending = s.pending
  | .regs => t.regs = s.regs
  | .sideA => t.sideA = s.sideA
  | .sideB => t.sideB = s.sideB
  | .rights => t.rights = s.rights
  | .plain7 => t.plain7 = s.plain7
  | .fired => t.fired = s.fired ∧ t.setNow = s.setNow
  | .out => t.out = s.out
  | .lastRead => t.lastRead = s.lastRead
  | .freeCtr => t.freeCtr = s.freeCtr
  | .aoReset => t.aoReset = s.aoReset
  | .twins => t.twins = s.twins
  | .twinQ => t.twinQ = s.twinQ
  | .inPlan => t.inPlan = s.inPlan
  | .inRx => t.inRx = s.inRx
  | .merges => t.merges = s.merges
  | .feeds => t.feeds = s.feeds
  | .outPlan => t.outPlan = s.outPlan
  | .routes => t.routes = s.routes
  | .takes => t.takes = s.takes
  | .commits => t.commits = s.commits
  | .salvos => t.salvos = s.salvos
  | .outs => t.outs = s.outs
  | .shown => t.shown = s.shown
  | .stores => t.stores = s.stores
  | .captures => t.captures = s.captures
  | .benches => t.benches = s.benches
  | .benchPlan => t.benchPlan = s.benchPlan
  | .benchIn => t.benchIn = s.benchIn
  | .benchMem => t.benchMem = s.benchMem
  | .leadOld => t.leadOld = s.leadOld
  | .leaseEnd => t.leaseEnd = s.leaseEnd
  | .grace => t.grace = s.grace
  | .planned => t.planned = s.planned
  | .outSince => t.outSince = s.outSince
  | .voters => t.voters = s.voters
  | .grantAt => t.grantAt = s.grantAt
  | .sluices => t.sluices = s.sluices
  | .ring => t.ring = s.ring
  | .envLines => t.envLines = s.envLines
  | .sevAt => t.sevAt = s.sevAt
  | .therm => t.therm = s.therm
  | .txqs => t.txqs = s.txqs
  | .lanes => t.lanes = s.lanes
  | .nvl => t.nvl = s.nvl
  | .bankLost => t.bankLost = s.bankLost
  | .nvlTx => t.nvlTx = s.nvlTx
  | .bypassQ => t.bypassQ = s.bypassQ
  | .sdi => t.sdi = s.sdi
  | .portPlan => t.portPlan = s.portPlan
  | .rxFlows => t.rxFlows = s.rxFlows
  | .txRuns => t.txRuns = s.txRuns
  | .txFlows => t.txFlows = s.txFlows
  | .txBufs => t.txBufs = s.txBufs
  | .ethQ => t.ethQ = s.ethQ
  | .macs => t.macs = s.macs
  | .rrp => t.rrp = s.rrp
  | .hostParked => t.hostParked = s.hostParked
  | .tick => t.tick = s.tick
  | .tbs => t.tbs = s.tbs
  | .cmps => t.cmps = s.cmps
  | .ports => t.ports = s.ports
  | .txLatch => t.txLatch = s.txLatch
  | .cads => t.cads = s.cads
  | .cands => t.cands = s.cands
  | .ref => t.ref = s.ref
  | .trigArmed => t.trigArmed = s.trigArmed
  | .trigSignal => t.trigSignal = s.trigSignal
  | .audioTb => t.audioTb = s.audioTb
  | .audioHi => t.audioHi = s.audioHi
  | .audNext => t.audNext = s.audNext
  | .audSrc => t.audSrc = s.audSrc
  | .audDst => t.audDst = s.audDst
  | .tdm => t.tdm = s.tdm
  | .tdmOwner => t.tdmOwner = s.tdmOwner
  | .audTimes => t.audTimes = s.audTimes
  | .audIn => t.audIn = s.audIn
  | .headPlan => t.headPlan = s.headPlan
  | .tileHead => t.tileHead = s.tileHead
  | .preHead => t.preHead = s.preHead
  | .headRun => t.headRun = s.headRun
  | .tiles => t.tiles = s.tiles
  | .alyA => t.alyA = s.alyA
  | .alyB => t.alyB = s.alyB
  | .alyWait => t.alyWait = s.alyWait
  | .alyLive => t.alyLive = s.alyLive
  | .alyStore => t.alyStore = s.alyStore
  | .hbmA => t.hbmA = s.hbmA
  | .hbmB => t.hbmB = s.hbmB
  | .hbmRun => t.hbmRun = s.hbmRun
  | .hbmMax => t.hbmMax = s.hbmMax
  | .hoppers => t.hoppers = s.hoppers
  | .capPlan => t.capPlan = s.capPlan
  | .sramA => t.sramA = s.sramA
  | .sramB => t.sramB = s.sramB
  | .hbmTempAt => t.hbmTempAt = s.hbmTempAt
  | .audLate => t.audLate = s.audLate
  | .locks => t.locks = s.locks ∧ t.waiting = s.waiting ∧ t.grantNext = s.grantNext
  | .winBuf => t.winBuf = s.winBuf
  | .msixOpen => t.msixOpen = s.msixOpen
  | .msixPend => t.msixPend = s.msixPend
  | .vecHigh => t.vecHigh = s.vecHigh
  | .flash0 => t.flash0 = s.flash0
  | .flash1 => t.flash1 = s.flash1
  | .owners => t.owners = s.owners
  | .svn => t.svn = s.svn
  | .otpOk => t.otpOk = s.otpOk
  | .loaded => t.loaded = s.loaded
  | .updMbx => t.updMbx = s.updMbx
  | .session => t.session = s.session
  | .parts => t.parts = s.parts
  | .updSide => t.updSide = s.updSide
  | .confirming => t.confirming = s.confirming
  | .fwHash => t.fwHash = s.fwHash
  | .change => t.change = s.change
  | .changeAt => t.changeAt = s.changeAt
  | .attest => t.attest = s.attest
  | .unlock => t.unlock = s.unlock
  | .tempSeen => t.tempSeen = s.tempSeen
  | .engs => t.engs = s.engs

/-- What leaves the device from `s` to `t`. -/
def State.sent (s t : State) : List Emit := t.out.drop s.out.length

/-- What has left is still listed, and what leaves comes after it. -/
def State.sends (s t : State) : Prop := t.out = s.out ++ s.sent t

/-- It is a line signal of lane `l`. -/
def isLine (l : Nat) : Emit → Bool
  | .line m _ => decide (m = l)
  | _ => false

/-- It is gap content of lane `l`. -/
def isGap (l : Nat) : Emit → Bool
  | .gap m _ _ => decide (m = l)
  | _ => false

/-- From `s` to `t` no part of the state changes but those listed. -/
def State.changesOnly (ps : List Part) (s t : State) : Prop := ∀ p, p ∉ ps → s.same t p

/-- From `s` to `t` no register changes but those of the names `ns`, and no part of the state but those of `ps`. -/
def State.touches (ns : List RegName) (ps : List Part) (s t : State) : Prop :=
  s.regsSame (fun k => k.name ∈ ns) t ∧ s.changesOnly ps t

/-- From `s` to `t` no register changes but those of the names `ns` and the Side registers of the Sides in `xs`, and no part of the state but
those of `ps`. -/
def State.disturbs (xs : List Side) (ns : List RegName) (ps : List Part) (s t : State) : Prop :=
  s.regsSame (fun k => k.name ∈ ns ∨ k.name.row.space = .side ∧ ∃ x ∈ xs, ofSide x k.bank = true) t ∧ s.changesOnly ps t

/-- The shared registers that a move of the lease, or a Side's reset, can write. -/
def moveRegs : List RegName :=
  [.RFE_STATE, .RFE_EVT, .RFE_CMD_RES, .RFE_FO_COUNT, .RFE_LAST, .RFE_RESYNC, .SLU_STAT, .SLU_EVT, .STR_EVT, .STR_MRESET_LOG, .EVT_STATUS]

/-- The parts of the state that a move of the lease, or a Side's reset, can change. -/
def moveParts : List Part :=
  [.regs, .fired, .sideA, .sideB, .leaseEnd, .grace, .grantAt, .planned, .outSince, .voters, .benches, .merges, .shown, .stores, .captures, .feeds, .txqs,
   .txBufs, .benchIn, .benchMem, .tiles, .alyA, .alyB, .alyStore, .hbmRun, .hbmMax, .hbmTempAt, .audLate, .hoppers, .locks, .winBuf]

/-- The registers in which Assay records what rises. -/
def assayRegs : List RegName :=
  [.ASY_STATUS0, .ASY_STATUS1, .ASY_LIVE0, .ASY_LIVE1, .ASY_FIRST, .ASY_HIST, .ASY_HIST_STAT, .ASY_HIST_SPOIL]

/-- From `s` to `t` no register changes but those of `ks` and those of the names `ns`, and no part of the state but those of `ps`. -/
def State.alters (ks : List RegKey) (ns : List RegName) (ps : List Part) (s t : State) : Prop :=
  s.regsSame (fun k => k ∈ ks ∨ k.name ∈ ns) t ∧ s.changesOnly ps t

/-- The registers that the loss of source positions can write: those of the inputs, of their flows and of their Benches. -/
def absentRegs : List RegName := [.ETH_RXF_EVT, .ETH_RXF_LOST, .EVT_STATUS, .FSY_EVT, .XPT_IN_BSPOIL, .XPT_IN_LOST, .XPT_IN_MSTAT]

/-- The parts of the state that the loss of source positions can change. -/
def absentParts : List Part := [.regs, .fired, .inRx, .merges, .feeds, .shown, .benches, .benchIn, .benchMem, .audIn, .rxFlows]

/-- The registers in which the standby's being in step shows. -/
def stepRegs : List RegName := [.EVT_STATUS, .RFE_EVT, .RFE_RESYNC, .RFE_STATE]

/-- The parts of the state in which the standby's being in step shows. -/
def stepParts : List Part := [.regs, .fired, .sideA, .sideB, .outSince]

/-! ## What only some commands do -/

/-- The command resets the whole device. -/
def isFullReset : Instr → Bool
  | .aoDip | .aoResetAssert => true
  | _ => false

/-- The command loads or changes the structure: the full resets, the loading of the images, and a region's application (R527, R533). -/
def movesPlans : Instr → Bool
  | .aoDip | .aoResetAssert | .bootImagesLoaded .. | .regionApply => true
  | _ => false

/-- The command can change a route: a take executes, an output slot comes to be, or the device is reset (R73, R98, R99). -/
def movesRoutes : Instr → Bool
  | .takeExecute .. => true
  | c => movesPlans c

/-- The command can put the timing island's clock at 0: it is not the tick itself (R20). -/
def stopsTime : Instr → Bool
  | .aoDip | .aoResetAssert | .aoResetRelease => true
  | _ => false

end Sys2Proof.Machine
end

