-- ==== Sys2Proof/WellFormed.lean ====
section
/-!
DEFINITION. Which operands a command can have beyond what their types say: the ranges in which the outside of the device brings them.
-/
namespace Sys2Proof

open Sys2Proof.Machine

/-- What a master reset cuts names a target, or none and then no beats; at most one transaction of 16 beats is in progress (R473). -/
def Machine.Cut.ok (c : Cut) : Bool :=
  (decide (c.target ≤ 11) || (decide (c.target = 15) && decide (c.zero = 0) && c.reads.isEmpty)) && decide (c.zero ≤ 16) && decide (c.reads.length ≤ 16)

/-- The delays of a pseudo-channel: eight values of seven bits (R444). -/
def delaysOk (l : List Nat) : Bool := decide (l.length = 8) && l.all fun d => decide (d < 128)

/-- The operands are ones that the command can have. -/
def Instr.wellFormed (i : Instr) : Bool :=
  match i with
  | .regWrite _ _ _ _ _ => true
  | .twinWriteAccept _ _ _ => true
  | .twinWriteDelivery => true
  | .aoResetAssert => true
  | .aoResetRelease => true
  | .aoDip => true
  | .bootOtpChecked _ => true
  | .bootImagesLoaded _ => true
  | .sideFwLoad _ => true
  | .bankSupplyFail _ _ cut0 cut1 => cut0.ok && cut1.ok
  | .bankSupplyReturn _ => true
  | .sidePowerGood _ => true
  | .pgLate _ => true
  | .perstAssert _ cut => cut.ok
  | .pcieLinkDown _ cut => cut.ok
  | .pcieHotReset _ cut => cut.ok
  | .functionLevelReset _ cut => cut.ok
  | .thermalSensorRead _ readings => !readings.isEmpty && readings.all fun t => decide (-128 ≤ t ∧ t ≤ 127)
  | .hbmStartTrainingDone _ delays => decide (delays.length = 32) && delays.all delaysOk
  | .heartbeat _ _ _ _ => true
  | .leaseExpiry => true
  | .assayLineRise asserted => asserted.all fun l => decide (l.1 < 41)
  | .sluiceUnit _ _ _ _ => true
  | .compareIntervalEnd _ => true
  | .standbyStepTimeout => true
  | .claimConflict _ => true
  | .voteMismatch _ _ _ => true
  | .plannedSwitchover _ _ => true
  | .switchoverCancel _ => true
  | .resetSideA _ => true
  | .resetSideB _ => true
  | .switchoverDue => true
  | .watchdogService _ _ _ => true
  | .watchdogExpiry _ => true
  | .standbyClassSet _ _ => true
  | .resyncLoadDone _ => true
  | .resyncFillDone _ => true
  | .ringFrame _ => true
  | .ringTimeout => true
  | .harifBypassOpen => true
  | .quietTimerExpiry _ => true
  | .unlatchA _ => true
  | .unlatchB _ => true
  | .firstClr _ => true
  | .fwFatal _ _ _ => true
  | .fwDegrade _ _ _ => true
  | .fwNotice _ _ _ => true
  | .take _ _ _ _ _ => true
  | .salvoCommit _ _ _ _ _ => true
  | .takeCancel _ _ _ => true
  | .salvoCancel _ _ _ => true
  | .commitTick => true
  | .timedTakeStamp => true
  | .takeExecute _ => true
  | .salvoClear _ => true
  | .salvoRelease _ => true
  | .salvoAppend _ _ _ => true
  | .offsetJump _ => true
  | .outputFrameStart _ => true
  | .captureFrame _ => true
  | .captureEnable _ _ _ => true
  | .regionApply => true
  | .inputSof _ _ => true
  | .mergeBlock _ _ => true
  | .gapTimeout _ _ => true
  | .bondUnderrun _ _ _ => true
  | .bondRejoin _ _ _ => true
  | .seamBlockPlace _ => true
  | .benchDecision _ => true
  | .benchFrameWrite _ => true
  | .benchFrameStart _ => true
  | .fsyCfgWrite _ _ _ => true
  | .sampleBoundary => true
  | .changeTimeout _ => true
  | .audRouteChange _ _ _ => true
  | .audDelayChange _ _ _ => true
  | .deembedPacket _ => true
  | .tdmArm _ _ => true
  | .tdmStop _ _ => true
  | .tdmFire _ _ => true
  | .tdmTrigger => true
  | .tdmFrameSync _ din => decide (din.length ≤ 64)
  | .tdmGlitch _ _ => true
  | .fsErr _ _ => true
  | .tdmClockMissing _ _ _ => true
  | .rateChange _ _ => true
  | .clkBack _ _ => true
  | .headFrame _ bad => bad.all fun r => decide (r < 8)
  | .tileBlock _ => true
  | .tileFrameEligible _ => true
  | .alyLoadData _ _ => true
  | .flipGfx _ _ => true
  | .flipCursor _ _ => true
  | .flipLut _ _ => true
  | .alyProtFlip _ _ => true
  | .headBoundary _ => true
  | .tbTick => true
  | .cadenceFrameStart _ => true
  | .tbRateWrite _ _ _ => true
  | .tbNsRead _ _ _ => true
  | .tbStep _ _ _ => true
  | .compareArm _ _ _ _ => true
  | .compareFire _ _ => true
  | .pulseEnd _ _ => true
  | .ptpTxtsRead _ _ _ => true
  | .portCalibrated _ => true
  | .refCandEvent _ _ => true
  | .refCandStop _ => true
  | .refWindowEnd _ _ => true
  | .refQualify _ => true
  | .refHoldoffEnd _ => true
  | .refLockMet => true
  | .refModeWrite _ _ => true
  | .realign _ _ => true
  | .realignJump _ => true
  | .holdOscStop => true
  | .holdOscReturn => true
  | .losAssert _ _ _ => true
  | .losClear _ _ _ => true
  | .lolAssert _ _ _ => true
  | .lolClear _ _ => true
  | .qpllUnlock _ => true
  | .qpllRelock _ => true
  | .lanePark _ => true
  | .laneDemand _ => true
  | .wake _ => true
  | .laneTxeqWrite _ _ _ => true
  | .laneTestWrite _ _ _ => true
  | .inject _ _ => true
  | .berRead _ _ _ _ => true
  | .checkerSync _ => true
  | .checkerSyncLoss _ _ => true
  | .slip _ _ => true
  | .eyeMeasure _ _ _ _ _ => true
  | .lockFail _ => true
  | .sfLock _ => true
  | .sfLockLost _ => true
  | .nvlTrainMsg _ _ _ => true
  | .trainTimeout _ => true
  | .retrain _ _ => true
  | .nvlFecModeWrite _ _ _ => true
  | .rollReq _ _ => true
  | .rollCall _ _ _ _ => true
  | .gone _ => true
  | .nvlCrcBlock _ _ _ _ => true
  | .nvlCodeword _ _ => true
  | .alarm _ _ => true
  | .laneData _ _ => true
  | .peerGap _ => true
  | .nvlBypassForward _ _ _ _ => true
  | .sdiRasterLock _ => true
  | .sdiRasterUnlock _ => true
  | .sdiFrame _ _ _ _ _ _ => true
  | .sdiLine _ _ _ _ _ _ => true
  | .sdiAncPacket _ _ _ _ _ => true
  | .sdiRateDetect _ _ => true
  | .linkSkew _ => true
  | .sdiTxFrame _ => true
  | .ethFrameReceive _ _ _ _ _ _ => true
  | .ethCrxRead _ _ _ => true
  | .packetLaunch _ => true
  | .controlGap _ => true
  | .ctxData _ _ _ => true
  | .ctxCommit _ _ => true
  | .ctxAbort _ _ => true
  | .controlFrameSend _ _ => true
  | .ethSnap _ _ => true
  | .pauseReceive _ _ => true
  | .pauseExpire _ => true
  | .rrpRequest _ _ => true
  | .notifySend _ => true
  | .notifyRetry _ => true
  | .notifyAck _ _ => true
  | .linkUp _ => true
  | .linkDown _ _ _ => true
  | .flowAddrWrite _ _ _ _ => true
  | .flowEnableWrite _ _ _ _ => true
  | .hbmRefreshBoundary _ _ => true
  | .hbmRefreshIssue _ _ => true
  | .hbmTempRead _ _ => true
  | .hbmRetrainPass _ _ found => found.all delaysOk
  | .parAlert _ _ _ _ => true
  | .hbmUncorrRead _ _ => true
  | .hbmRequestPromote _ _ _ _ => true
  | .late _ _ _ => true
  | .hbmActivate _ _ _ => true
  | .hbmRhWindow _ _ => true
  | .hbmScrub _ _ _ _ _ => true
  | .sramScrub _ _ _ _ => true
  | .hbmSelfRefreshExit _ found => decide (found.length = 32) && found.all fun d => d.all delaysOk
  | .hopPush _ _ _ _ => true
  | .hopCommit _ _ _ => true
  | .hopAbort _ _ _ => true
  | .hopPop _ _ _ _ _ => true
  | .hopCfgWrite _ _ _ _ => true
  | .strLockGo _ _ => true
  | .strLockGrant _ => true
  | .strLockRelease _ => true
  | .lockForced _ => true
  | .winDataAccess _ _ _ _ => true
  | .winAddrWrite _ _ _ => true
  | .spiFrame _ _ _ _ => true
  | .spiTrunc _ => true
  | .mbxLockRead _ _ _ => true
  | .mbxMsgWrite _ _ _ _ => true
  | .mbxDoorbell _ _ _ => true
  | .mbxAckWrite _ _ _ => true
  | .mbxRelease _ _ _ => true
  | .mbxCfgWrite _ _ _ => true
  | .evtStatusWrite _ _ _ => true
  | .evtEnableWrite _ _ _ => true
  | .evtRouteWrite _ _ _ => true
  | .evtSetWrite _ _ _ => true
  | .eventFire => true
  | .msixUnblock _ _ _ _ => true
  | .updBegin => true
  | .updData => true
  | .updPieceEnd _ => true
  | .updStatus => true
  | .updVerify _ _ _ => true
  | .updActivate _ => true
  | .updConfirm _ => true
  | .updAbort => true
  | .updApply => true
  | .updAttest => true
  | .trialDone => true
  | .secondDone => true
  | .sideImageStep => true
  | .sideImageTimeout => true
  | .secClaim _ => true
  | .secTransfer _ => true
  | .debugUnlock _ => true
  | .relock _ => true
  | .debugUnlockExpiry => true
  | .parkLaneDeclWrite _ _ _ => true
  | .parkEngDeclWrite _ _ _ => true
  | .parkHostWrite _ _ => true
  | .engineIdleDeep _ _ => true
  | .engineDemand _ _ => true
  | .bypassSupplyLoss => true
  | .pcieLinkUp _ speed width => decide (1 ≤ speed.val) && [1, 2, 4].contains width.val
  | .blockLockLost _ => true

end Sys2Proof
end

