-- ==== Sys2Proof/Certificates/Slice0/Obligations.lean ====
section
/-!
DEFINITION. The statements about the model, for the provers: each a proposition, most of them over every state and every operand.
-/
open Sys2Proof Sys2Proof.Machine

set_option autoImplicit false

/-- Every step of a sound state gives a sound state: canonical registers and memories, ordered locks and twin writes, bounded prefetch (R476,
R477, R480, R483). -/
def Obligations.EveryStepKeepsTheStateSound : Prop :=
  ∀ s t : State, s.Sound → step s = .next t → t.Sound

/-- The state right after reset is sound, and registers hold the reset values their rules give (R8, R427, R503, R573, R191, R227, R431, R518,
R104). -/
def Obligations.TheStateAfterResetIsSound : Prop :=
  State.reset.Sound ∧ State.reset.pending = [] ∧ State.reset.aoReset = true ∧ State.reset.rd (R0 .SYS_ID) = 0x14EC24#32 ∧
  State.reset.rd (R0 .RFE_LEASE) = 2000#32 ∧ (∀ n, n < 512 → State.reset.laneLos n = true ∧ State.reset.lanePark n = 3) ∧
  State.reset.flag (R0 .REF_CFG) F.REF_CFG_AUTO_ALIGN = true ∧ State.reset.fld (R0 .REF_CFG) F.REF_CFG_BW = 10 ∧
  State.reset.fld (R1 .REF_CAD_DESC 0) F.REF_CAD_DESC_FORMAT = 0x0891 ∧ State.reset.flag (R1 .REF_CAD_DESC 0) F.REF_CAD_DESC_VALID = true ∧
  (∀ b, b < 32 → State.reset.rd (R1 .MBX_CFG b) = 10#32) ∧ State.reset.rd (R0 .ASY_EVMASK0) = 0xFFFFFFFF#32 ∧
  State.reset.rd (R0 .ASY_EVMASK1) = 0x1FF#32 ∧ State.reset.rd (R0 .XPT_TAKE_LEAD) = 1#32

/-- An address inside a block's range that holds no register reads as 0 and ignores writes, and no access ends in a bus error (R4). -/
def Obligations.AddressesWithoutARegisterReadZero : Prop :=
  ∀ (r : Req) (addr v : W32) (be : Fin 16) (ahead : Nat) (s : State),
    (∀ t, locate r (addr.toNat / 4 * 4) = .hole t → s.granted r t →
      (∃ u, s.busRead (reqMaster r) r addr ahead = .done 0#32 u ∧ s.changesOnly [.locks] u) ∧
      (∃ u, exec (.regWrite r false addr v be) s = .next u ∧ s.regsSame (· = RB .SYS_STATUS r 0) u ∧ s.changesOnly [.regs, .locks] u ∧
        (be = 15 → s.changesOnly [.locks] u))) ∧
    (locate r (addr.toNat / 4 * 4) ≠ .flash → (∀ jtag, ∃ u, exec (.regWrite r jtag addr v be) s = .next u) ∧
      (s.busRead (reqMaster r) r addr ahead = .waits ∨ ∃ w u, s.busRead (reqMaster r) r addr ahead = .done w u))

/-- After AO_RESET_N every output slot's route is its fallback, nothing is pending and every salvo is empty, and a Side's reset changes none of
it (R99). -/
def Obligations.RoutesStartAtTheirFallback : Prop :=
  (∀ (c : Instr) (s : State), isFullReset c = true →
    ∃ t, exec c s = .next t ∧ (∀ d, (t.routes.at d).src = if d < 1024 then t.fallbackOf d else 1056) ∧ t.takes = [] ∧ t.commits = [] ∧ t.salvosPending = [] ∧
      (∀ n, t.salvos.at n = [] ∧ t.fld (R1 .XPT_SALVO_STAT n) F.XPT_SALVO_STAT_OWNER = 0)) ∧
  (∀ (x : Structure_) (s : State), s.aoReset = false → s.otpOk = true → s.loaded = false → s.fld (R0 .UMW_STAT) F.UMW_STAT_STATE ≠ 2 →
    ∃ t, exec (.bootImagesLoaded (some x)) s = .next t ∧ t.takes = s.takes ∧ t.commits = s.commits ∧ t.salvos = s.salvos ∧
      s.regsSame (·.name ≠ .XPT_SALVO_STAT) t ∧
      ∀ d, (t.routes.at d).src = if s.baseLawful x then (if d < 1024 then t.fallbackOf d else 1056) else (s.routes.at d).src) ∧
  (∀ (sd : Side) (s : State), (s.resetSide sd).routes = s.routes ∧ (s.resetSide sd).takes = s.takes ∧ (s.resetSide sd).commits = s.commits ∧
    (s.resetSide sd).salvos = s.salvos ∧ s.regsSame (·.name ≠ .XPT_SALVO_STAT) (s.resetSide sd))

/-- Only takes, boot, region images and full resets move routes, only boot and region images move the plans, OTP is never unburned (R20, R73,
R98, R99, R527, R533, R544). -/
def Obligations.OnlyTheirCommandsMoveRoutesPlansAndTime : Prop :=
  ∀ (c : Instr) (s t : State), exec c s = .next t →
    t.pending = s.pending ∧ s.out <+: t.out ∧ s.owners <+: t.owners ∧ s.svn ≤ t.svn ∧
    (stopsTime c = false → t.tick = s.tick ∨ c = .tbTick ∧ t.tick = s.tick + 1) ∧
    (movesRoutes c = false → t.routes = s.routes) ∧
    (movesPlans c = false → t.inPlan = s.inPlan ∧ t.outPlan = s.outPlan ∧ t.portPlan = s.portPlan ∧ t.rights = s.rights)

/-- An SOF whose format fits brings its copy in and is measured; one whose format does not fit leaves the copy ABSENT with SIZE_ERR (R50, R57,
R61, R66, R68). -/
def Obligations.SofsAreJudgedAndMeasured : Prop :=
  (∀ (n : Fin 1024) (b : Bank) (h g : RxWord) (f : Fmt) (s u : State), s.hasCopy n b = true → u = s.reassemble n b → (u.copyRx n b).newSof = some (h, g) →
    f = { code := if isType 6 g.w then markSpec g.w else (u.inRx.at n).fmt.code, il := bitOf h.w 1, seg := bitOf h.w 0 } →
    Fmt.carried f (u.inPlan.at n).slots = true →
    ∃ t, exec (.inputSof n b) s = .next t ∧ (t.copyRx n b).present = true ∧ (t.inRx.at n).fmt = f ∧
      t.copyRx n b.other = s.copyRx n b.other ∧
      (b = .E ∨ (s.inRx.at n).e.present = false → (t.inRx.at n).phase = s.phaseOf n (h.time / sixteenth * sixteenth)) ∧
      (∀ m, m ≠ n.val → t.inRx.at m = s.inRx.at m) ∧
      s.touches [.XPT_IN_MSTAT, .XPT_IN_BSPOIL, .XPT_OUT_STAT, .SEAM_EVT, .XPT_TAKE_RES, .XPT_SALVO_STAT, .EVT_STATUS]
        [.regs, .fired, .inRx, .merges, .takes, .outs, .benches, .benchIn, .benchMem, .headRun] t) ∧
  (∀ (n : Fin 1024) (b : Bank) (h g : RxWord) (f : Fmt) (s u : State), s.hasCopy n b = true → u = s.reassemble n b → (u.copyRx n b).newSof = some (h, g) →
    f = { code := if isType 6 g.w then markSpec g.w else (u.inRx.at n).fmt.code, il := bitOf h.w 1, seg := bitOf h.w 0 } →
    Fmt.carried f (u.inPlan.at n).slots = false →
    ∃ t, exec (.inputSof n b) s = .next t ∧ (t.copyRx n b).present = false ∧ t.copyRx n b.other = s.copyRx n b.other ∧
      (∀ sd, s.routing sd = true → t.flag (RS .XPT_IN_MSTAT sd n) F.XPT_IN_MSTAT_SIZE_ERR = true ∧
        ((s.copyRx n b).present = true → t.rd (RS .XPT_IN_MSTAT sd n) &&& absentBit b ≠ 0)) ∧
      (∀ m, m ≠ n.val → t.inRx.at m = s.inRx.at m) ∧ s.touches absentRegs absentParts t) ∧
  (∀ (n : Fin 1024) (b : Bank) (s : State), s.hasCopy n b = true → ((s.reassemble n b).copyRx n b).newSof = none →
    exec (.inputSof n b) s = .next (s.reassemble n b)) ∧
  (∀ (n : Fin 1024) (b : Bank) (s : State), s.hasCopy n b = false → exec (.inputSof n b) s = .next s)

/-- Merge decides a key that both copies hold by mode and goodness alone; a timed-out copy goes ABSENT, and with both absent the input is lost
(R58, R59, R61, R62, R64, R69). -/
def Obligations.MergeDecidesByContent : Prop :=
  (∀ (n : Fin 1024) (sd : Side) (e w : Block) (rest : List RxWord) (cut : CutSt) (s u : State), s.hasCopy n .E = true → u = s.reassemble n .E →
    (u.copyRx n .E).present = true → (u.copyRx n .E).newSof = none →
    cutBlock (u.copyRx n .E).cut ((((u.inRx.at n).stamps.head?).map (·.2)).getD 0) (u.copyRx n .E).rx = some (e, rest, cut) →
    (takeBlock (u.copyRx n .E).rx).any (fun p => unreceived p.1) = false → s.routing sd = true →
    (s.merges.at (2 * n + sd.idx)).lost = false → (s.merges.at (2 * n + sd.idx)).e = { absent := false, q := [] } →
    (s.merges.at (2 * n + sd.idx)).w = { absent := false, q := [w] } → s.inMode n ≠ 3 → s.inMode n ≠ 4 →
    e.keyLe w = true → w.keyLe e = true →
    ∃ t, exec (.mergeBlock n .E) s = .next t ∧
      (t.merges.at (2 * n + sd.idx)).emitted = some (if s.inMode n = 1 then (.E, e) else if s.inMode n = 2 then (.W, w)
        else if e.good then (.E, e) else if w.good then (.W, w) else (.E, e)) ∧
      (t.merges.at (2 * n + sd.idx)).e.q = [] ∧ (t.merges.at (2 * n + sd.idx)).w.q = [] ∧
      t.rd (RS .XPT_IN_LOST sd n) = s.rd (RS .XPT_IN_LOST sd n) + (if e.good || w.good then 0 else 1) ∧ (t.copyRx n .E).rx = rest ∧
      s.touches [.XPT_IN_MSTAT, .XPT_IN_LOST, .XPT_IN_BSPOIL, .FSY_EVT, .EVT_STATUS]
        [.regs, .fired, .inRx, .merges, .feeds, .shown, .benches, .benchIn, .benchMem, .audIn] t) ∧
  (∀ (n : Fin 1024) (b : Bank) (s : State), (s.copyRx n b).present = true →
    lastComplete (s.copyRx n b).rx.length (s.copyRx n b).rx (s.copyRx n b).lastAt + s.gapTicks n ≤ s.tick →
    ∃ t, exec (.gapTimeout n b) s = .next t ∧ (t.copyRx n b).present = false ∧
      (∀ sd, s.routing sd = true → t.rd (RS .XPT_IN_MSTAT sd n) &&& absentBit b ≠ 0 ∧
        (((s.merges.at (2 * n + sd.idx)).copy b.other).absent = true → (s.merges.at (2 * n + sd.idx)).lost = false →
          (t.merges.at (2 * n + sd.idx)).lost = true ∧ t.flag (RS .XPT_IN_MSTAT sd n) F.XPT_IN_MSTAT_LOST = true)) ∧
      s.touches absentRegs absentParts t) ∧
  (∀ (n : Fin 1024) (b : Bank) (s : State), s.tick < (s.copyRx n b).lastAt + s.gapTicks n → exec (.gapTimeout n b) s = .next s) ∧
  (∀ (n : Fin 1024) (b : Bank) (s : State), s.hasCopy n b = true → (s.copyRx n b).present = false →
    exec (.mergeBlock n b) s = .next (s.reassemble n b)) ∧
  (∀ (n : Fin 1024) (b : Bank) (s : State), s.hasCopy n b = false → exec (.mergeBlock n b) s = .next s)

/-- A member without words while another has 1 024 underruns, its words are replaced and counted, and it rejoins at a matching MARK group (R52,
R53, R54, R55, R69). -/
def Obligations.BondedMembersUnderrunAndRejoin : Prop :=
  (∀ (n : Fin 1024) (b : Bank) (m : Fin 16) (s : State), s.hasCopy n b = true → 1 < (s.inPlan.at n).slots → m < (s.inPlan.at n).slots →
    (s.copyRx n b).waitsFor (s.inPlan.at n).slots m = true →
    ∃ t, exec (.bondUnderrun n b m) s = .next t ∧ (t.copyRx n b).under.contains m.val = true ∧ t.copyRx n b.other = s.copyRx n b.other ∧
      (∀ sd, s.routing sd = true → (s.copyRx n b).under.contains m.val = false → t.flag (RS .XPT_IN_MSTAT sd n) F.XPT_IN_MSTAT_BOND_UNDERRUN = true) ∧
      s.touches [.XPT_IN_MSTAT, .EVT_STATUS] [.regs, .fired, .inRx] t) ∧
  (∀ (n : Fin 1024) (b : Bank) (m : Fin 16) (s : State), s.hasCopy n b = false ∨ (s.inPlan.at n).slots ≤ m ∨
      (s.copyRx n b).waitsFor (s.inPlan.at n).slots m = false → exec (.bondUnderrun n b m) s = .next s) ∧
  (∀ (n : Fin 1024) (b : Bank) (g : Nat) (c : CopyRx) (s : State), c = s.copyRx n b → c.live g ≠ [] →
    ((c.live g).all fun k => (c.buf k).head?.any fun x => isMark x.w) = false → c.under.contains (c.turn % max 1 g) = true → 0 < c.left →
    ((State.bondRun g n b 1 s).copyRx n b).rx = c.rx ++ [c.substitute (s.inRx.at n).fmt] ∧
      ∀ sd, s.routing sd = true → (State.bondRun g n b 1 s).rd (RS .XPT_IN_BSPOIL sd n) = s.rd (RS .XPT_IN_BSPOIL sd n) + 1) ∧
  (∀ (n : Fin 1024) (b : Bank) (m : Fin 16) (w : W32) (s u : State), s.hasCopy n b = true → 1 < (s.inPlan.at n).slots → u = s.reassemble n b →
    (u.copyRx n b).mark (s.inPlan.at n).slots = some w → (u.copyRx n b).under.contains m.val = true →
    ((u.copyRx n b).buf m).any (fun x => sameMark x.w w) = true →
    ∃ t, exec (.bondRejoin n b m) s = .next t ∧ (t.copyRx n b).under = (u.copyRx n b).under.filter (fun k => k ≠ m.val) ∧
      (t.copyRx n b).buf m = ((u.copyRx n b).buf m).dropWhile (fun x => !sameMark x.w w) ∧ t.copyRx n b.other = s.copyRx n b.other ∧
      (∀ k, k ≠ n.val → t.inRx.at k = s.inRx.at k) ∧
      s.touches [.XPT_IN_MSTAT, .XPT_IN_BSPOIL, .EVT_STATUS] [.regs, .fired, .inRx] t) ∧
  (∀ (n : Fin 1024) (b : Bank) (m : Fin 16) (s u : State), s.hasCopy n b = true → 1 < (s.inPlan.at n).slots → u = s.reassemble n b →
    (u.copyRx n b).mark (s.inPlan.at n).slots = none ∨ (u.copyRx n b).under.contains m.val = false →
    exec (.bondRejoin n b m) s = .next u)

/-- A commit is received with its values as they stand, due at the second tick or later; while one is being validated another sets OVERRUN (R76,
R77, R78, R85). -/
def Obligations.CommitsAreReceivedOnePerRequester : Prop :=
  (∀ (r : Req) (d : Fin 2048) (timed : Bool) (tb : Fin 4) (seq : Byte) (s : State), s.granted r .twin → s.flag (takeRes r) F.XPT_TAKE_RES_BUSY = false →
    ∃ t, exec (.take r d timed tb seq) s = .next t ∧
      t.commits = s.commits ++ [{ req := r, op := .take d (s.fld (R1 .XPT_PRESET d) F.XPT_PRESET_SOURCE) (s.flag (R1 .XPT_PRESET d) F.XPT_PRESET_VALID), timed := timed, timeBase := tb, time := s.ttime r, seq := seq.toNat, due := s.tick + 2 }] ∧
      t.flag (takeRes r) F.XPT_TAKE_RES_BUSY = true ∧ s.regsSame (· = takeRes r) t ∧ s.changesOnly [.regs, .commits, .locks] t) ∧
  (∀ (r : Req) (n : Fin 256) (timed : Bool) (tb : Fin 4) (seq : Byte) (s : State), s.granted r .twin → s.flag (takeRes r) F.XPT_TAKE_RES_BUSY = false →
    ∃ t, exec (.salvoCommit r n timed tb seq) s = .next t ∧
      t.commits = s.commits ++ [{ req := r, op := .salvo n (s.salvos.at n), timed := timed, timeBase := tb, time := s.ttime r, seq := seq.toNat, due := s.tick + (2 + ((s.salvos.at n).length + 15) / 16) }] ∧
      t.flag (takeRes r) F.XPT_TAKE_RES_BUSY = true ∧ s.regsSame (· = takeRes r) t ∧ s.changesOnly [.regs, .commits, .locks] t) ∧
  (∀ (r : Req) (seq : Byte) (c : Instr) (op : CommitOp) (s : State), s.granted r .twin → s.flag (takeRes r) F.XPT_TAKE_RES_BUSY = false →
    (∃ d : Fin 2048, c = .takeCancel r d seq ∧ op = .cancelTake d) ∨ (∃ n : Fin 256, c = .salvoCancel r n seq ∧ op = .cancelSalvo n) →
    ∃ t, exec c s = .next t ∧
      t.commits = s.commits ++ [{ req := r, op := op, timed := false, timeBase := 0, time := s.ttime r, seq := seq.toNat, due := s.tick + 2 }] ∧
      t.flag (takeRes r) F.XPT_TAKE_RES_BUSY = true ∧ s.regsSame (· = takeRes r) t ∧ s.changesOnly [.regs, .commits, .locks] t) ∧
  (∀ (r : Req) (seq : Byte) (c : Instr) (s : State), s.granted r .twin → s.flag (takeRes r) F.XPT_TAKE_RES_BUSY = true →
    (∃ (d : Fin 2048) (timed : Bool) (tb : Fin 4), c = .take r d timed tb seq) ∨ (∃ (n : Fin 256) (timed : Bool) (tb : Fin 4), c = .salvoCommit r n timed tb seq) ∨
      (∃ d : Fin 2048, c = .takeCancel r d seq) ∨ (∃ n : Fin 256, c = .salvoCancel r n seq) →
    ∃ t, exec c s = .next t ∧ t.flag (takeRes r) F.XPT_TAKE_RES_OVERRUN = true ∧ s.regsSame (· = takeRes r) t ∧ s.changesOnly [.regs, .fired, .locks] t)

/-- At its commit tick a take is refused with the first failing check of R82 or stamped with the smallest frame that meets its lead (R81, R82,
R83, R84, R88, R103). -/
def Obligations.CommitTickJudgesATake : Prop :=
  (∀ (c : Commit) (d x : Nat) (v : Bool) (s : State), s.commits = [c] → c.due ≤ s.tick → c.op = .take d x v → c.seq < 256 → c.timed = false →
    ∃ t, exec .commitTick s = .next t ∧ t.commits = [] ∧ t.fld (takeRes c.req) F.XPT_TAKE_RES_SEQ = c.seq ∧
      t.flag (takeRes c.req) F.XPT_TAKE_RES_BUSY = false ∧
      (s.destAllocated d = false → t.fld (takeRes c.req) F.XPT_TAKE_RES_STATUS = 5 ∧ t.takes = s.takes) ∧
      (s.destAllocated d = true → v = false → t.fld (takeRes c.req) F.XPT_TAKE_RES_STATUS = 6 ∧ t.takes = s.takes) ∧
      (s.destAllocated d = true → v = true → s.srcAllocated x = false → t.fld (takeRes c.req) F.XPT_TAKE_RES_STATUS = 5 ∧ t.takes = s.takes) ∧
      (s.destAllocated d = true → v = true → s.srcAllocated x = true →
        (s.mayRoute c.req d = false → t.fld (takeRes c.req) F.XPT_TAKE_RES_STATUS = 7 ∧ t.takes = s.takes) ∧
        (s.mayRoute c.req d = true → s.destWithdrawn d = true ∨ s.srcWithdrawn x = true →
          t.fld (takeRes c.req) F.XPT_TAKE_RES_STATUS = 10 ∧ t.takes = s.takes) ∧
        (s.mayRoute c.req d = true → s.destWithdrawn d = false → s.srcWithdrawn x = false →
          (d < 1024 → s.srcMatches x d = false → t.fld (takeRes c.req) F.XPT_TAKE_RES_STATUS = 8 ∧ t.takes = s.takes) ∧
          (1024 ≤ d ∨ s.srcMatches x d = true → (s.planTake x d).1.refused = true → t.fld (takeRes c.req) F.XPT_TAKE_RES_STATUS = 9 ∧ t.takes = s.takes) ∧
          (1024 ≤ d ∨ s.srcMatches x d = true → (s.planTake x d).1.refused = false → s.singles.length < 4096 →
            t.fld (takeRes c.req) F.XPT_TAKE_RES_STATUS = 1 ∧
            ∃ p f, p ∈ t.takes ∧ p.owner = .single c.req.num c.seq ∧ p.dest = d ∧ p.src = x ∧ p.stamp = some f ∧
              (∀ q ∈ t.takes, q.dest = d → q.stamp = some f → q = p) ∧
              (d < 1024 → 0 ≤ s.outFrameFrom d (s.outs.at d) (s.leadBound s.commitLead d - (s.outPlan.at d).fmt.switchAt) →
                s.leadBound s.commitLead d ≤ s.switchPoint d (s.outs.at d) f ∧ s.switchPoint d (s.outs.at d) (f - 1) < s.leadBound s.commitLead d)))) ∧
      s.touches [.XPT_TAKE_RES, .XPT_OUT_STAT, .XPT_SALVO_STAT, .SEAM_EVT, .EVT_STATUS] [.regs, .fired, .takes, .commits, .benches, .benchIn, .benchMem, .headRun] t) ∧
  (∀ s : State, (∀ c ∈ s.commits, s.tick < c.due) → exec .commitTick s = .next s)

/-- At its commit tick a cancel removes its pending take or reports why not, and a salvo is accepted or refused as a whole (R84, R86, R87, R88,
R103). -/
def Obligations.CommitTickJudgesCancelsAndSalvos : Prop :=
  (∀ (c : Commit) (d : Nat) (s : State), s.commits = [c] → c.due ≤ s.tick → c.op = .cancelTake d → s.destAllocated d = true → s.mayRoute c.req d = true →
    ∃ t, exec .commitTick s = .next t ∧
      ((∀ p ∈ s.takes, p.dest = d → ∀ q, p.owner ≠ .single c.req.num q) → t.fld (takeRes c.req) F.XPT_TAKE_RES_STATUS = 16 ∧ t.takes = s.takes) ∧
      (∀ p q, p ∈ s.takes → p.dest = d → p.owner = .single c.req.num q → (∀ p' ∈ s.takes, p'.dest = d → (∃ q', p'.owner = .single c.req.num q') → p' = p) →
        (s.tooLate p = true → t.fld (takeRes c.req) F.XPT_TAKE_RES_STATUS = 15 ∧ t.takes = s.takes) ∧
        (s.tooLate p = false → t.fld (takeRes c.req) F.XPT_TAKE_RES_STATUS = 4 ∧ t.takes = s.takes.erase p)) ∧
      s.touches [.XPT_TAKE_RES, .XPT_SALVO_STAT, .EVT_STATUS] [.regs, .fired, .takes, .commits, .benches, .benchIn, .benchMem] t) ∧
  (∀ (c : Commit) (n : Fin 256) (es : List (Nat × Nat)) (s : State), s.commits = [c] → c.due ≤ s.tick → c.op = .salvo n es →
    ∃ t, exec .commitTick s = .next t ∧
      (∀ e i, es[i]? = some e → (s.destAllocated e.1 && s.srcAllocated e.2) = false → (∀ j e', j < i → es[j]? = some e' → (s.destAllocated e'.1 && s.srcAllocated e'.2) = true) →
        i < 1024 → t.fld (takeRes c.req) F.XPT_TAKE_RES_STATUS = 5 ∧ t.fld (takeRes c.req) F.XPT_TAKE_RES_ENTRY = i ∧ t.takes = s.takes ∧
          t.fld (salvoStat n) F.XPT_SALVO_STAT_STATE = s.fld (salvoStat n) F.XPT_SALVO_STAT_STATE) ∧
      ((∀ e ∈ es, s.destAllocated e.1 = true ∧ s.srcAllocated e.2 = true) → s.fld (salvoStat n) F.XPT_SALVO_STAT_OWNER ≠ c.req.num →
        t.fld (takeRes c.req) F.XPT_TAKE_RES_STATUS = 7 ∧ t.fld (takeRes c.req) F.XPT_TAKE_RES_ENTRY = 0 ∧ t.takes = s.takes ∧
          t.fld (salvoStat n) F.XPT_SALVO_STAT_STATE = s.fld (salvoStat n) F.XPT_SALVO_STAT_STATE) ∧
      s.touches [.XPT_TAKE_RES, .XPT_OUT_STAT, .XPT_SALVO_STAT, .SEAM_EVT, .EVT_STATUS] [.regs, .fired, .takes, .commits, .benches, .benchIn, .benchMem, .headRun] t) ∧
  (∀ (c : Commit) (n : Fin 256) (d x : Nat) (s : State), s.commits = [c] → c.due ≤ s.tick → c.op = .salvo n [(d, x)] → c.timed = false →
    s.fld (salvoStat n) F.XPT_SALVO_STAT_OWNER = c.req.num → s.fld (salvoStat n) F.XPT_SALVO_STAT_STATE = 0 → s.destAllocated d = true → s.srcAllocated x = true →
    s.mayRoute c.req d = true → s.destWithdrawn d = false → s.srcWithdrawn x = false → 1024 ≤ d ∨ s.srcMatches x d = true →
    (s.planTake x d).1.refused = false → s.salvosPending.length < 256 →
    ∃ t p, exec .commitTick s = .next t ∧ t.fld (takeRes c.req) F.XPT_TAKE_RES_STATUS = 1 ∧ t.fld (salvoStat n) F.XPT_SALVO_STAT_STATE = 1 ∧
      p ∈ t.takes ∧ p.owner = .salvo n 0 ∧ p.dest = d ∧ p.src = x ∧ p.stamp = some (s.destFrameFrom d (s.leadBound s.commitLead d)) ∧
      s.touches [.XPT_TAKE_RES, .XPT_OUT_STAT, .XPT_SALVO_STAT, .SEAM_EVT, .EVT_STATUS] [.regs, .fired, .takes, .commits, .benches, .benchIn, .benchMem, .headRun] t)

/-- A stamped take executes once the switch point of its frame has come: the route moves, and TOOK and the frame number are reported (R73, R81,
R89, R99, R112, R113, R582). -/
def Obligations.TakesExecuteAtTheirSwitchPoint : Prop :=
  (∀ (d : Fin 1344) (p : Pending) (f : Nat) (s : State), p ∈ s.takes → p.dest = d.val → p.stamp.isSome = true → p.frame = some f →
    (∀ q ∈ s.takes, q.dest = d.val → q ≠ p → q.stamp.isSome = true → ∀ g, q.frame = some g → f < g) → s.destSwitch d p.cad f ≤ s.cadTime →
    ∃ t, exec (.takeExecute d) s = .next t ∧
      t.routes.at d = { src := p.src, bench := p.bench, prev := (s.routes.at d).src, prevBench := (s.routes.at d).bench, taken := f, cad := p.cad } ∧
      (∀ e, e ≠ d.val → t.routes.at e = s.routes.at e) ∧ t.takes.length < s.takes.length ∧ (p.timing = .keep → p ∉ t.takes) ∧
      (∀ q ∈ s.takes, q ≠ p → q.dest ≠ d.val ∨ p.timing = .keep → q ∈ t.takes) ∧
      (d.val < 1024 → ∀ sd, s.live sd = true → t.flag (RS .XPT_OUT_STAT sd d) F.XPT_OUT_STAT_TOOK = true ∧ t.rd (RS .XPT_OUT_TAKEN sd d) = w32 f) ∧
      s.touches [.XPT_OUT_STAT, .XPT_OUT_TAKEN, .SEAM_EVT, .XPT_SALVO_STAT, .EVT_STATUS] [.regs, .fired, .routes, .takes, .outs, .shown, .benches, .benchIn, .benchMem, .audDst] t) ∧
  (∀ (d : Fin 1344) (s : State), (∀ p ∈ s.takes, p.dest = d.val → p.stamp.isSome = true → ∀ f, p.frame = some f → s.cadTime < s.destSwitch d p.cad f) →
    exec (.takeExecute d) s = .next s) ∧
  (∀ (p : Pending) (s : State), s.takes = [p] → p.stamp = none → p.src < 1024 →
    (s.stampDue p.timeBase p.time = true → p.dest < 1344 → ∃ t g, exec .timedTakeStamp s = .next t ∧ t.takes = [{ p with stamp := some g }] ∧
      s.touches [.XPT_OUT_STAT, .EVT_STATUS] [.regs, .fired, .takes] t) ∧
    (s.stampDue p.timeBase p.time = false → exec .timedTakeStamp s = .next s))

/-- CLEAR, RELEASE and appends act on the selected salvo for its owner alone, and not while it is pending, executing or being validated (R85,
R106, R107). -/
def Obligations.SalvosAreEditedByTheirOwner : Prop :=
  (∀ (r : Req) (s : State), s.granted r .twin → s.salvoBusy (s.selected r) = false →
    (s.fld (salvoStat (s.selected r)) F.XPT_SALVO_STAT_OWNER = r.num ∨ s.fld (salvoStat (s.selected r)) F.XPT_SALVO_STAT_OWNER = 0 →
      ∃ t, exec (.salvoClear r) s = .next t ∧ t.salvos.at (s.selected r) = [] ∧ t.fld (salvoStat (s.selected r)) F.XPT_SALVO_STAT_OWNER = r.num ∧
        t.fld (salvoStat (s.selected r)) F.XPT_SALVO_STAT_COUNT = 0 ∧ t.fld (salvoStat (s.selected r)) F.XPT_SALVO_STAT_STATE = 0 ∧
        (∀ m, m ≠ s.selected r → t.salvos.at m = s.salvos.at m) ∧ s.regsSame (· = salvoStat (s.selected r)) t ∧ s.changesOnly [.regs, .salvos, .locks] t) ∧
    (s.fld (salvoStat (s.selected r)) F.XPT_SALVO_STAT_OWNER = r.num →
      (∃ t, exec (.salvoRelease r) s = .next t ∧ t.salvos.at (s.selected r) = [] ∧ t.fld (salvoStat (s.selected r)) F.XPT_SALVO_STAT_OWNER = 0 ∧
        t.fld (salvoStat (s.selected r)) F.XPT_SALVO_STAT_COUNT = 0 ∧ (∀ m, m ≠ s.selected r → t.salvos.at m = s.salvos.at m) ∧
        s.regsSame (· = salvoStat (s.selected r)) t ∧ s.changesOnly [.regs, .salvos, .locks] t) ∧
      (∀ dest src : Fin 2048, (s.salvos.at (s.selected r)).length < 1024 →
        ∃ t, exec (.salvoAppend r dest src) s = .next t ∧ t.salvos.at (s.selected r) = s.salvos.at (s.selected r) ++ [(dest.val, src.val)] ∧
          t.fld (salvoStat (s.selected r)) F.XPT_SALVO_STAT_COUNT = (s.salvos.at (s.selected r)).length + 1 ∧
          (∀ m, m ≠ s.selected r → t.salvos.at m = s.salvos.at m) ∧ s.regsSame (· = salvoStat (s.selected r)) t ∧ s.changesOnly [.regs, .salvos, .locks] t) ∧
      (∀ dest src : Fin 2048, 1024 ≤ (s.salvos.at (s.selected r)).length →
        ∃ t, exec (.salvoAppend r dest src) s = .next t ∧ t.flag (salvoStat (s.selected r)) F.XPT_SALVO_STAT_FULL_ERR = true ∧
          s.regsSame (· = salvoStat (s.selected r)) t ∧ s.changesOnly [.regs, .fired, .locks] t))) ∧
  (∀ (r : Req) (c : Instr) (s : State), s.granted r .twin → (c = .salvoRelease r ∨ ∃ dest src : Fin 2048, c = .salvoAppend r dest src) ∨
      c = .salvoClear r ∧ s.fld (salvoStat (s.selected r)) F.XPT_SALVO_STAT_OWNER ≠ 0 →
    (s.fld (salvoStat (s.selected r)) F.XPT_SALVO_STAT_OWNER ≠ r.num →
      ∃ t, exec c s = .next t ∧ t.flag (salvoStat (s.selected r)) F.XPT_SALVO_STAT_DENIED = true ∧ t.flag (RB .STR_ERR r 0) F.STR_ERR_DENIED = true ∧
        s.regsSame (fun k => k = salvoStat (s.selected r) ∨ k = RB .STR_ERR r 0 ∨ k = RB .STR_ERR_ADDR r 0) t ∧ s.changesOnly [.regs, .fired, .locks] t) ∧
    (s.fld (salvoStat (s.selected r)) F.XPT_SALVO_STAT_OWNER = r.num → s.salvoBusy (s.selected r) = true →
      ∃ t, exec c s = .next t ∧ t.flag (salvoStat (s.selected r)) F.XPT_SALVO_STAT_BUSY_WR = true ∧
        s.regsSame (· = salvoStat (s.selected r)) t ∧ s.changesOnly [.regs, .fired, .locks] t))

/-- Outputs begin their frames, offsets come into force at their jump point, and capture taps write whole frames into their ring (R92, R94, R95,
R96, R114, R115). -/
def Obligations.OutputFramesOffsetsAndCaptures : Prop :=
  (∀ (d : Fin 1024) (f : Nat) (s : State), s.outFrameAt d (s.outs.at d) s.cadTime = f →
    ∃ t, exec (.outputFrameStart d) s = .next t ∧
      (∀ sd, s.routing sd = true → (∀ p, (s.shown.at (2 * d + sd.idx)).frame = some p → p < f) → (t.shown.at (2 * d + sd.idx)).frame = some f ∧
        ((s.routes.at d).src < 1024 → (s.merges.at (2 * (s.routes.at d).src + sd.idx)).lost = true → (s.shown.at (2 * d + sd.idx)).cause = .none →
          t.flag (RS .XPT_OUT_STAT sd d) F.XPT_OUT_STAT_LOST = true)) ∧
      s.touches [.XPT_OUT_STAT, .SEAM_EVT, .SEAM_FILL, .EVT_STATUS] [.regs, .fired, .shown, .stores, .txqs, .txFlows, .txBufs] t) ∧
  (∀ (d : Fin 1024) (v : Int) (at_ : Nat) (rest : List (Int × Nat)) (s : State), (s.outs.at d).offsets = (v, at_) :: rest →
    (s.cadTime < s.jumpPoint d { (s.outs.at d) with offset := v, retimed := none, offsets := rest } at_ → exec (.offsetJump d) s = .next s) ∧
    (s.jumpPoint d { (s.outs.at d) with offset := v, retimed := none, offsets := rest } at_ ≤ s.cadTime →
      ∃ t, exec (.offsetJump d) s = .next t ∧ (t.outs.at d).offset = v ∧ (t.outs.at d).retimed = none ∧ (t.outs.at d).offsets = rest ∧
        ((s.outs.at d).x ≠ wpSixteenths v → ∀ sd, s.live sd = true → t.flag (RS .XPT_OUT_STAT sd d) F.XPT_OUT_STAT_OFFSET_STEP = true) ∧
        (∀ e, e ≠ d.val → t.outs.at e = s.outs.at e ∧ ∀ p ∈ s.takes, p.dest = e → p ∈ t.takes) ∧
        s.touches [.XPT_OUT_STAT, .SEAM_EVT, .EVT_STATUS] [.regs, .fired, .outs, .takes, .shown] t)) ∧
  (∀ (p : Fin 64) (h e : Fed) (ws : List W32) (rest : List Fed) (sd : Side) (s : State), s.routing sd = true →
    frameOut ((s.feeds.at (2 * (1280 + p) + sd.idx)).length + 1) (s.feeds.at (2 * (1280 + p) + sd.idx)) = some (h, e, ws, rest) →
    ∃ t, exec (.captureFrame p) s = .next t ∧ t.feeds.at (2 * (1280 + p) + sd.idx) = rest ∧
      (s.feedCarries (1280 + p) h.src h.blk.sofAt (e.blk.stamp * tickU : Nat) = false → t.hbm sd = s.hbm sd) ∧
      (s.feedCarries (1280 + p) h.src h.blk.sofAt (e.blk.stamp * tickU : Nat) = true → s.captures_ sd p h.blk.sofAt = true →
        s.flag (RS .XPT_CAP_STAT sd p) F.XPT_CAP_STAT_DONE = false →
        ((s.captures.at (2 * p + sd.idx)).next + 16 + 4 * ws.length ≤ 0x10000000 →
          memWord (t.hbm sd) (capBase p + (s.captures.at (2 * p + sd.idx)).next) = w32 ws.length ∧
          memWord (t.hbm sd) (capBase p + (s.captures.at (2 * p + sd.idx)).next + 4) = w32 ((s.cadFrameAt (s.routes.at (1280 + p)).cad h.blk.sofAt).toNat % 2 ^ 32) ∧
          (∀ i, i < ws.length → memWord (t.hbm sd) (capBase p + (s.captures.at (2 * p + sd.idx)).next + 16 + 4 * i) = ws.getD i 0) ∧
          (∀ b, b < capBase p + (s.captures.at (2 * p + sd.idx)).next ∨ capBase p + (s.captures.at (2 * p + sd.idx)).next + 16 + 4 * ws.length ≤ b →
            memByte (t.hbm sd) b = memByte (s.hbm sd) b) ∧
          t.fld (RS .XPT_CAP_STAT sd p) F.XPT_CAP_STAT_TAG = h.blk.tag % 256) ∧
        (0x10000000 < (s.captures.at (2 * p + sd.idx)).next + 16 + 4 * ws.length →
          t.flag (RS .XPT_CAP_STAT sd p) F.XPT_CAP_STAT_OVER = true ∧ t.hbm sd = s.hbm sd)) ∧
      s.touches [.XPT_CAP_STAT, .EVT_STATUS] [.regs, .fired, .feeds, .captures, .hbmA, .hbmB] t) ∧
  (∀ (r : Req) (p : Fin 64) (v : W32) (s : State), s.granted r .twin → s.holdsDest r (1280 + p) = true → bitOf (s.twin .XPT_CAP_CFG p) 12 = false → bitOf v 12 = true →
    ∃ t, exec (.captureEnable r p v) s = .next t ∧ t.twin .XPT_CAP_CFG p = v &&& 0x1F1F#32 ∧
      (∀ sd, s.live sd = true → t.captures.at (2 * p + sd.idx) = { onAt := s.tick, seen := (s.captures.at (2 * p + sd.idx)).seen } ∧
        t.flag (RS .XPT_CAP_STAT sd p) F.XPT_CAP_STAT_DONE = false ∧ t.rd (RS .XPT_CAP_CFG sd p) = v &&& 0x1F1F#32) ∧
      s.touches [.XPT_CAP_CFG, .XPT_CAP_STAT] [.regs, .twins, .captures, .locks] t)

/-- A block bound for a Seam store is written if it is in time, else counted LATE or EARLY; one of another owner is dropped uncounted (R73,
R117, R119, R124, R125, R128, R129). -/
def Obligations.SeamBlocksAreWrittenOrCounted : Prop :=
  ∀ (d : Fin 1024) (sd : Side) (x : Fed) (rest : List Fed) (f due ts : Int) (s : State), s.routing sd = true → s.feeds.at (2 * d + sd.idx) = x :: rest →
    f = (s.leadOf d (s.outs.at d) x.blk.sofAt).2 →
    due = s.outStart d (s.outs.at d) f + rasterTime (s.outPlan.at d).fmt x.blk.line x.blk.idx x.blk.video →
    ts = wpSixteenths (storeTime (rateClass (s.outPlan.at d).fmt (s.outPlan.at d).slots) (s.outPlan.at d).slots) * sixteenth →
    (sameSource (s.ownerAt d f x.blk.line) (x.src, x.bench) = false →
      ∃ t, exec (.seamBlockPlace d) s = .next t ∧ t.feeds.at (2 * d + sd.idx) = rest ∧
        t.stores.at (2 * d + sd.idx) = s.stores.at (2 * d + sd.idx) ∧ t.rd (RS .SEAM_LATE sd d) = s.rd (RS .SEAM_LATE sd d) ∧ t.rd (RS .SEAM_EARLY sd d) = s.rd (RS .SEAM_EARLY sd d) ∧
        (∀ e, e / 2 ≠ d.val → t.stores.at e = s.stores.at e ∧ t.feeds.at e = s.feeds.at e) ∧
        s.touches [.SEAM_LATE, .SEAM_EARLY, .SEAM_EVT, .EVT_STATUS] [.regs, .fired, .feeds, .stores] t) ∧
    (sameSource (s.ownerAt d f x.blk.line) (x.src, x.bench) = true → due - 1000 * nsU < (x.blk.stamp * tickU : Nat) →
      ∃ t, exec (.seamBlockPlace d) s = .next t ∧ t.feeds.at (2 * d + sd.idx) = rest ∧
        t.rd (RS .SEAM_LATE sd d) = s.rd (RS .SEAM_LATE sd d) + 1 ∧ t.flag (RS .SEAM_EVT sd d) F.SEAM_EVT_LATE = true ∧ t.rd (RS .SEAM_EARLY sd d) = s.rd (RS .SEAM_EARLY sd d) ∧ t.stores.at (2 * d + sd.idx) = s.stores.at (2 * d + sd.idx) ∧
        (∀ e, e / 2 ≠ d.val → t.stores.at e = s.stores.at e ∧ t.feeds.at e = s.feeds.at e) ∧
        s.touches [.SEAM_LATE, .SEAM_EARLY, .SEAM_EVT, .EVT_STATUS] [.regs, .fired, .feeds, .stores] t) ∧
    (sameSource (s.ownerAt d f x.blk.line) (x.src, x.bench) = true → (x.blk.stamp * tickU : Nat) ≤ due - 1000 * nsU → (x.blk.stamp * tickU : Nat) < due - (ts - 1000 * nsU) →
      ∃ t, exec (.seamBlockPlace d) s = .next t ∧ t.feeds.at (2 * d + sd.idx) = rest ∧
        t.rd (RS .SEAM_EARLY sd d) = s.rd (RS .SEAM_EARLY sd d) + 1 ∧ t.flag (RS .SEAM_EVT sd d) F.SEAM_EVT_EARLY = true ∧ t.rd (RS .SEAM_LATE sd d) = s.rd (RS .SEAM_LATE sd d) ∧ t.stores.at (2 * d + sd.idx) = s.stores.at (2 * d + sd.idx) ∧
        (∀ e, e / 2 ≠ d.val → t.stores.at e = s.stores.at e ∧ t.feeds.at e = s.feeds.at e) ∧
        s.touches [.SEAM_LATE, .SEAM_EARLY, .SEAM_EVT, .EVT_STATUS] [.regs, .fired, .feeds, .stores] t) ∧
    (sameSource (s.ownerAt d f x.blk.line) (x.src, x.bench) = true → (x.blk.stamp * tickU : Nat) ≤ due - 1000 * nsU → due - (ts - 1000 * nsU) ≤ (x.blk.stamp * tickU : Nat) →
      ∃ t, exec (.seamBlockPlace d) s = .next t ∧ t.feeds.at (2 * d + sd.idx) = rest ∧
        t.rd (RS .SEAM_LATE sd d) = s.rd (RS .SEAM_LATE sd d) ∧ t.rd (RS .SEAM_EARLY sd d) = s.rd (RS .SEAM_EARLY sd d) ∧
        t.stores.at (2 * d + sd.idx) = placeAt (s.stores.at (2 * d + sd.idx))
          { frame := f.toNat, line := x.blk.line, mark := x.blk.mark, idx := x.blk.idx, words := x.blk.words.filter fun w => !isMark w || isType 4 w, time := (x.blk.stamp * tickU : Nat), bench := x.bench } ∧
        (∀ e, e / 2 ≠ d.val → t.stores.at e = s.stores.at e ∧ t.feeds.at e = s.feeds.at e) ∧
        s.touches [.SEAM_LATE, .SEAM_EARLY, .SEAM_EVT, .EVT_STATUS] [.regs, .fired, .feeds, .stores] t)

/-- A Bench chooses at O(k) − 1 ms, shows or repeats at O(k), writes each input frame into a free buffer, and holds on another format (R139,
R140, R142, R143, R144, R145, R153). -/
def Obligations.BenchesChooseShowRepeatAndDrop : Prop :=
  (∀ (b : Fin 1024) (s : State), (s.benches.at b).st ≠ .free → (s.benches.at b).decided = none →
    (s.cadTime < s.benchStart (s.benches.at b) (s.benches.at b).k - msU → exec (.benchDecision b) s = .next s) ∧
    (s.benchStart (s.benches.at b) (s.benches.at b).k - msU ≤ s.cadTime →
      ∃ t, exec (.benchDecision b) s = .next t ∧
        (t.benches.at b).decided = some (if (s.benches.at b).st = .holding then none
          else oldestReady (s.benches.at b).bufs (s.benchStart (s.benches.at b) (s.benches.at b).k - msU)) ∧
        ((s.benches.at b).st ≠ .priming → (t.benches.at b).st = (s.benches.at b).st) ∧
        (∀ e, e ≠ b.val → t.benches.at e = s.benches.at e) ∧ s.changesOnly [.benches] t)) ∧
  (∀ (b : Fin 1024) (c : Option Nat) (s : State), (s.benches.at b).st ≠ .free → (s.benches.at b).decided = some c →
    s.benchStart (s.benches.at b) (s.benches.at b).k ≤ s.cadTime → (s.engStart 0 b * tickU : Nat) ≤ s.benchStart (s.benches.at b) (s.benches.at b).k →
    ∃ t, exec (.benchFrameStart b) s = .next t ∧ (t.benches.at b).k = (s.benches.at b).k + 1 ∧ (t.benches.at b).decided = none ∧
      (∀ i, c = some i → (t.benches.at b).shown = some i) ∧
      (c = none → (t.benches.at b).shown = (s.benches.at b).repeats ∧ ((s.benches.at b).st ≠ .holding → (s.benches.at b).repeats = (s.benches.at b).shown) ∧
        ∀ sd, s.routing sd = true →
        ((s.benches.at b).repeats.isSome = true → t.rd (RS .FSY_REPEAT sd b) = s.rd (RS .FSY_REPEAT sd b) + 1 ∧ t.flag (RS .FSY_EVT sd b) F.FSY_EVT_REPEAT = true) ∧
        ((s.benches.at b).repeats = none → t.flag (RS .FSY_EVT sd b) F.FSY_EVT_START = true)) ∧
      s.touches [.FSY_EVT, .FSY_REPEAT, .SEAM_EVT, .XPT_OUT_STAT, .XPT_SALVO_STAT, .XPT_TAKE_RES, .EVT_STATUS]
        [.regs, .fired, .feeds, .takes, .outs, .benches, .benchIn, .benchMem, .headRun] t) ∧
  (∀ (b : Fin 1024) (k : Block) (i : Nat) (s : State), s.benchSof b = some k → (s.benches.at b).st ≠ .free →
    s.inFmt (s.benches.at b).input = s.cadFmt (s.benches.at b).cad → bufferFor (s.benches.at b) = some i →
    ∃ t, exec (.benchFrameWrite b) s = .next t ∧ ((t.benches.at b).bufs.getD i {}).stamp = some k.sofAt ∧ ((t.benches.at b).bufs.getD i {}).shown = false ∧
      (∀ j, j ≠ i → (t.benches.at b).bufs.getD j {} = (s.benches.at b).bufs.getD j {}) ∧
      (s.benches.at b).shown ≠ some i ∧ (s.benches.at b).decided ≠ some (some i) ∧
      (t.benches.at b).st = (if (s.benches.at b).st = .holding then .running else (s.benches.at b).st) ∧
      (∀ sd, s.routing sd = true → t.benchIn.at (2 * b + sd.idx) = (s.benchIn.at (2 * b + sd.idx)).drop (frameAhead (s.benchIn.at (2 * b + sd.idx))).length ∧
        t.benchMem.at (benchIx b sd i) = frameAhead (s.benchIn.at (2 * b + sd.idx))) ∧
      ((((s.benches.at b).bufs.getD i {}).stamp.isSome && !((s.benches.at b).bufs.getD i {}).shown) = true → ∀ sd, s.routing sd = true →
        t.rd (RS .FSY_DROP sd b) = s.rd (RS .FSY_DROP sd b) + 1 ∧ t.flag (RS .FSY_EVT sd b) F.FSY_EVT_DROP = true) ∧
      s.touches [.FSY_DROP, .FSY_EVT, .EVT_STATUS] [.regs, .fired, .benches, .benchIn, .benchMem] t) ∧
  (∀ (b : Fin 1024) (k : Block) (s : State), s.benchSof b = some k → (s.benches.at b).st ≠ .free → s.inFmt (s.benches.at b).input ≠ s.cadFmt (s.benches.at b).cad →
    ∃ t, exec (.benchFrameWrite b) s = .next t ∧ (t.benches.at b).bufs = (s.benches.at b).bufs ∧
      (t.benches.at b).st = (if (s.benches.at b).st = .running then .holding else (s.benches.at b).st) ∧
      (∀ sd, s.routing sd = true → t.flag (RS .FSY_EVT sd b) F.FSY_EVT_FMT = true) ∧ s.touches [.FSY_EVT, .EVT_STATUS] [.regs, .fired, .benches, .benchIn] t) ∧
  (∀ (r : Req) (b : Fin 1024) (v : W32) (s : State), s.granted r .twin → s.holdsBench r b = true → (s.benches.at b).st = .free →
    bitOf v 15 = true → s.pinInput (v.toNat % 1024) = true →
    s.unitsUsed + s.benchUnits (v.toNat % 1024) (s.cadOf (v.toNat / 1024 % 32)) ≤ s.benchPlan.units →
    s.pagesUsed + s.benchPages (s.cadOf (v.toNat / 1024 % 32)) ≤ s.benchPlan.pages → s.contextsUsed < s.benchPlan.contexts →
    ∃ t, exec (.fsyCfgWrite r b v) s = .next t ∧ (t.benches.at b).st = .priming ∧ (t.benches.at b).auto = false ∧
      (t.benches.at b).input = v.toNat % 1024 ∧ (t.benches.at b).cad = s.cadOf (v.toNat / 1024 % 32) ∧
      t.twin .FSY_CFG b = v &&& 0xFFFF#32 ∧ (∀ sd, s.live sd = true → t.rd (RS .FSY_CFG sd b) = v &&& 0xFFFF#32) ∧
      (∀ e, e ≠ b.val → t.benches.at e = s.benches.at e) ∧
      s.touches [.FSY_CFG, .FSY_PHASE] [.regs, .twins, .benches, .benchIn, .benchMem, .locks] t)

/-- A heartbeat with every check passed renews the holder's lease or, with no holder, is granted one; without it the lease expires (R162, R163,
R164, R165, R167, R180). -/
def Obligations.HeartbeatsGrantRenewAndLapse : Prop :=
  (∀ (sd : Side) (n : Nat) (s : State), s.live sd = true → (s.side sd).trained = true →
    (s.failing sd = false → s.holder = none → (s.side sd).nextBeat = none →
      ∃ t, exec (.heartbeat sd true true true) s = .next t ∧ t.holder = some sd ∧ t.voters = List.replicate 3 (sd.idx + 1) ∧
        (∀ l : Fin 512, t.fld (R1 .SLU_STAT l) F.SLU_STAT_SEL = sd.idx) ∧ t.leaseEnd = s.tick + s.leaseTicks ∧
        t.flag (R0 .RFE_EVT) F.RFE_EVT_GRANT = true ∧ (t.side sd).lastBeat = some s.tick ∧
        s.disturbs [sd.other] (.HBM_STAT :: moveRegs) (.hbmA :: .hbmB :: moveParts) t) ∧
    (s.failing sd = false → s.holder = some sd → (s.side sd).nextBeat = some n → n ≤ s.tick →
      (∀ f, (s.side sd).failedAt = some f → f + s.leaseTicks / 8 ≤ n) →
      ∃ t, exec (.heartbeat sd true true true) s = .next t ∧ t.holder = some sd ∧ t.leaseEnd = s.tick + s.leaseTicks ∧ t.grace = none ∧
        (t.side sd).lastBeat = some s.tick ∧ (t.side sd).nextBeat = some (n + s.leaseTicks / 8) ∧
        s.touches [.RFE_STATE, .RFE_EVT, .RFE_RESYNC, .EVT_STATUS] [.regs, .fired, .sideA, .sideB, .leaseEnd, .grace, .outSince] t) ∧
    (∀ a b c : Bool, (a && b && c && !s.failing sd) = false → (s.side sd).nextBeat = some n → n ≤ s.tick →
      ∃ t, exec (.heartbeat sd a b c) s = .next t ∧ (t.side sd).lastBeat = (s.side sd).lastBeat ∧ (t.side sd).nextBeat = some (n + s.leaseTicks / 8) ∧
        s.changesOnly [.sideA, .sideB] t)) ∧
  (∀ (sd : Side) (a b c : Bool) (n : Nat) (s : State), (s.side sd).inReset = true ∨ (s.side sd).nextBeat = some n ∧ s.tick < n →
    exec (.heartbeat sd a b c) s = .next s) ∧
  (∀ (x : Side) (s p : State), p = s.cycle [] → p.holder = some x →
    (p.expired = true → p.ready x.other = true → ∃ t, exec .leaseExpiry s = .next t ∧ t.holder = some x.other ∧ t.voters = List.replicate 3 (x.other.idx + 1) ∧
      (∀ l : Fin 512, t.fld (R1 .SLU_STAT l) F.SLU_STAT_SEL = x.other.idx) ∧
      t.flag (R0 .RFE_EVT) F.RFE_EVT_EXPIRY = true ∧ t.flag (R0 .RFE_EVT) F.RFE_EVT_FAILOVER = true ∧
      t.rd (R0 .RFE_FO_COUNT) = p.rd (R0 .RFE_FO_COUNT) + 1 ∧ t.fld (R0 .RFE_LAST) F.RFE_LAST_CAUSE = 4 ∧ (t.side x).inReset = true ∧
      p.disturbs [x] (.HBM_STAT :: moveRegs) moveParts t) ∧
    (p.expired = true → p.ready x.other = false → ∃ t, exec .leaseExpiry s = .next t ∧ t.holder = none ∧ t.flag (R0 .RFE_EVT) F.RFE_EVT_EXPIRY = true ∧
      t.flag (R0 .RFE_EVT) F.RFE_EVT_NONE = true ∧
      p.touches [.RFE_STATE, .RFE_EVT, .RFE_CMD_RES, .RFE_RESYNC, .EVT_STATUS] [.regs, .fired, .sideA, .sideB, .grace, .planned, .outSince, .voters] t) ∧
    (p.expired = false → exec .leaseExpiry s = .next p)) ∧
  (∀ s : State, (s.grace = none → s.expired = decide (s.leaseEnd ≤ s.tick)) ∧ (∀ g, s.grace = some g → s.expired = decide (g ≤ s.tick)))

/-- The referee's commands request, cancel and execute a switch-over, reset a Side, set the standby class and service the watchdog (R175, R176,
R177, R181, R183, R193, R194). -/
def Obligations.RefereeCommandsSwitchResetAndClass : Prop :=
  (∀ (r : Req) (c : Fin 32) (s : State), s.granted r .ao → s.rfeAdmin r = true →
    (s.planned = none → s.cadTime + (100 * usTicks * tickU : Nat) ≤ s.cadStart (s.cadOf c) (s.swoFrame (s.cadOf c)) →
      ∃ t, exec (.plannedSwitchover r c) s = .next t ∧ t.planned = some (s.cadOf c, (s.swoFrame (s.cadOf c)).toNat) ∧
        t.fld (R0 .RFE_CMD_RES) F.RFE_CMD_RES_STATUS = 1 ∧ t.flag (R0 .RFE_CMD_RES) F.RFE_CMD_RES_PENDING = true ∧
        s.touches [.RFE_CMD_RES] [.regs, .planned, .locks] t) ∧
    (s.planned = none → s.cadStart (s.cadOf c) (s.swoFrame (s.cadOf c)) < s.cadTime + (100 * usTicks * tickU : Nat) →
      ∃ t, exec (.plannedSwitchover r c) s = .next t ∧ t.fld (R0 .RFE_CMD_RES) F.RFE_CMD_RES_STATUS = 8 ∧ s.touches [.RFE_CMD_RES] [.regs, .locks] t) ∧
    (s.planned.isSome = true →
      ∃ t, exec (.plannedSwitchover r c) s = .next t ∧ t.fld (R0 .RFE_CMD_RES) F.RFE_CMD_RES_STATUS = 7 ∧ s.touches [.RFE_CMD_RES] [.regs, .locks] t) ∧
    (∃ t, exec (.switchoverCancel r) s = .next t ∧ t.planned = none ∧
      t.fld (R0 .RFE_CMD_RES) F.RFE_CMD_RES_STATUS = (if s.planned.isSome then 5 else 6) ∧ t.flag (R0 .RFE_CMD_RES) F.RFE_CMD_RES_PENDING = false ∧
      s.touches [.RFE_CMD_RES] [.regs, .planned, .locks] t)) ∧
  (∀ (r : Req) (x : Side) (c : Instr) (s : State), c = (match x with | .A => .resetSideA r | .B => .resetSideB r) → s.granted r .ao → s.rfeAdmin r = true →
    (s.holder ≠ some x → ∃ t, exec c s = .next t ∧ (t.side x).inReset = true ∧ t.holder = s.holder ∧ t.fld (R0 .RFE_CMD_RES) F.RFE_CMD_RES_STATUS = 2 ∧
      s.disturbs [x] moveRegs moveParts t) ∧
    (s.holder = some x → s.inStep x.other = true → ∃ t, exec c s = .next t ∧ (t.side x).inReset = true ∧ t.holder = some x.other ∧
      t.fld (R0 .RFE_LAST) F.RFE_LAST_CAUSE = 7 ∧ t.fld (R0 .RFE_CMD_RES) F.RFE_CMD_RES_STATUS = 2 ∧ s.disturbs [x] (.HBM_STAT :: moveRegs) moveParts t) ∧
    (s.holder = some x → s.inStep x.other = false → ∃ t, exec c s = .next t ∧ t.fld (R0 .RFE_CMD_RES) F.RFE_CMD_RES_STATUS = 4 ∧
      s.touches [.RFE_CMD_RES] [.regs, .locks] t)) ∧
  (∀ (c f : Nat) (s : State), s.planned = some (c, f) →
    (s.cadTime < s.cadStart c f → exec .switchoverDue s = .next s) ∧
    (∀ (x : Side) (p : State), s.cadStart c f ≤ s.cadTime → p = (s.cycle []).expire → p.planned = some (c, f) → p.holder = some x →
      (p.inStep x.other = true → ∃ t, exec .switchoverDue s = .next t ∧ t.holder = some x.other ∧ t.planned = none ∧
        t.flag (R0 .RFE_EVT) F.RFE_EVT_PLANNED = true ∧ t.fld (R0 .RFE_LAST) F.RFE_LAST_CAUSE = 5 ∧ t.fld (R0 .RFE_CMD_RES) F.RFE_CMD_RES_STATUS = 2 ∧
        p.disturbs [x] (.HBM_STAT :: moveRegs) (.hbmA :: .hbmB :: moveParts) t) ∧
      (p.inStep x.other = false → ∃ t, exec .switchoverDue s = .next t ∧ t.holder = some x ∧ t.planned = none ∧
        t.fld (R0 .RFE_CMD_RES) F.RFE_CMD_RES_STATUS = 3 ∧ p.touches [.RFE_CMD_RES] [.regs, .planned] t))) ∧
  (∀ (r : Req) (v : W32) (s : State), s.granted r .ao → s.isRfeOwner r = true →
    ∃ t, exec (.standbyClassSet r v) s = .next t ∧ t.rd (R0 .RFE_TOLERANCE) = v &&& 0x3FFFFF#32 ∧
      t.standbyClass = (s.wr (R0 .RFE_TOLERANCE) (v &&& 0x3FFFFF#32)).wantedClass ∧
      (t.standbyClass ≠ s.standbyClass → t.flag (R0 .RFE_EVT) F.RFE_EVT_CLASS_CHANGE = true) ∧
      s.disturbs [.A, .B] (.RFE_TOLERANCE :: moveRegs) (.hbmA :: .hbmB :: moveParts) t) ∧
  (∀ (r : Req) (i : Fin 2) (v : W32) (s : State), s.granted r .ao → isFw r i = true →
    ∃ t, exec (.watchdogService r i v) s = .next t ∧
      (t.side (if i.val = 0 then .A else .B)).wdogAt = (if v.toNat % 65536 = 0xC0DE then some s.tick else (s.side (if i.val = 0 then .A else .B)).wdogAt) ∧
      s.changesOnly [.sideA, .sideB, .locks] t)

/-- A Sluice sends the holder's unit, the other Side's where it repairs, or gap content; intervals that match 16 times running set STEP_OK
(R156, R157, R158, R159, R160, R161, R167, R174). -/
def Obligations.SluicesSendRepairAndCompare : Prop :=
  (∀ (l : Fin 512) (fa fb : UnitFault) (n : Nat) (s : State), s.transmitting l = false → s.inTest l = false → exec (.sluiceUnit l fa fb n) s = .next s) ∧
  (∀ (l : Fin 512) (fa fb : UnitFault) (n : Nat) (ua ub : Option SlUnit) (s p : State), s.transmitting l = true → s.inTest l = false → p = s.openInterval l →
    ua = (p.stands l .A fa).2 → ub = (p.stands l .B fb).2 →
    (p.holder = none ∨ p.holder = some .A ∧ ua = none ∨ p.holder = some .B ∧ ub = none →
      ∃ t, exec (.sluiceUnit l fa fb n) s = .next t ∧ p.sends t ∧ (p.sent t).head?.any (isGap l) = true ∧ (p.sent t).tail.all (isLine l) = true ∧
        t.flag (R1 .SLU_STAT l) F.SLU_STAT_GAP = true ∧
        p.touches [.SLU_STAT, .SLU_EVT, .SLU_PARERR, .NVL_TX_DROP, .NVL_EVT, .SDI_ANC_ERR, .SDI_EVT, .ETH_CNT_HALF0, .ETH_CNT_HALF1, .ETH_PORT_EVT, .EVT_STATUS]
          [.regs, .fired, .out, .sluices, .txqs, .nvlTx, .bypassQ, .ethQ, .macs] t) ∧
    (∀ (x : Side) (u : SlUnit), p.holder = some x → p.flag (R0 .RFE_STATE) F.RFE_STATE_QUIET = false → (if x = .A then ua else ub) = some u → p.groupMode l = none →
      (u.clean = true → (p.sluices.at l).taken ≠ 0 ∧ p.flag (R1 .SLU_STAT l) F.SLU_STAT_GAP = false ∨ (p.due l).opens = true →
        ∃ t, exec (.sluiceUnit l fa fb n) s = .next t ∧ p.sends t ∧ (p.sent t).head? = some (.unit l x u.hdr u.words) ∧ (p.sent t).tail.all (isLine l) = true ∧
          t.flag (R1 .SLU_STAT l) F.SLU_STAT_GAP = false ∧
          p.touches [.SLU_STAT, .SLU_EVT, .SLU_PARERR, .NVL_TX_DROP, .NVL_EVT, .SDI_ANC_ERR, .SDI_EVT, .EVT_STATUS]
            [.regs, .fired, .out, .sluices, .txqs, .nvlTx, .bypassQ, .ethQ] t) ∧
      (∀ v : SlUnit, (if x = .A then ub else ua) = some v → v.clean = true → u.clean = false → (p.sluices.at l).taken ≠ 0 →
        p.flag (R1 .SLU_STAT l) F.SLU_STAT_GAP = false → p.flag (R1 .SLU_STAT l) F.SLU_STAT_STEP_OK = true →
        ∃ t, exec (.sluiceUnit l fa fb n) s = .next t ∧ t = (p.takeUnit l fa fb n).parityFail x ∧
          p.sends (p.takeUnit l fa fb n) ∧ (p.sent (p.takeUnit l fa fb n)).head? = some (.unit l x.other v.hdr v.words) ∧ (p.sent (p.takeUnit l fa fb n)).tail.all (isLine l) = true ∧
          (p.takeUnit l fa fb n).rd (R1 .SLU_PARERR l) = p.rd (R1 .SLU_PARERR l) + 1 ∧ (p.takeUnit l fa fb n).flag (R1 .SLU_EVT l) F.SLU_EVT_REPAIR = true ∧
          p.touches [.SLU_STAT, .SLU_EVT, .SLU_PARERR, .NVL_TX_DROP, .NVL_EVT, .SDI_ANC_ERR, .SDI_EVT, .EVT_STATUS]
            [.regs, .fired, .out, .sluices, .txqs, .nvlTx, .bypassQ, .ethQ] (p.takeUnit l fa fb n)))) ∧
  (∀ (x : Side) (q r : State), r = q.cycle [] →
    (r.holder = some x → r.localFo = true → r.ready x.other = true → (q.parityFail x).holder = some x.other ∧
      (q.parityFail x).fld (R0 .RFE_LAST) F.RFE_LAST_CAUSE = 3 ∧ ((q.parityFail x).side x).inReset = true ∧
      r.disturbs [x] (.HBM_STAT :: moveRegs) moveParts (q.parityFail x)) ∧
    (r.holder ≠ some x ∨ r.localFo = false ∨ r.ready x.other = false → q.parityFail x = r)) ∧
  (∀ (l : Fin 512) (s : State), s.transmitting l = true →
    ((s.sluices.at l).line = none ∨ (s.sluices.at l).line = some (s.compareLine l) → exec (.compareIntervalEnd l) s = .next s) ∧
    (∀ x : Int × Nat, (s.sluices.at l).line = some x → s.compareLine l ≠ x →
      ((s.sluices.at l).crcA = (s.sluices.at l).crcB → (s.sluices.at l).bad = false →
        ∃ t, exec (.compareIntervalEnd l) s = .next t ∧ t = (s.closeInterval l).updateStep.cycle [] ∧
          (s.closeInterval l).fld (R1 .SLU_STAT l) F.SLU_STAT_MATCH_RUN = min 16 (s.fld (R1 .SLU_STAT l) F.SLU_STAT_MATCH_RUN + 1) ∧
          (15 ≤ s.fld (R1 .SLU_STAT l) F.SLU_STAT_MATCH_RUN → (s.closeInterval l).flag (R1 .SLU_STAT l) F.SLU_STAT_STEP_OK = true) ∧
          ((s.closeInterval l).sluices.at l).bad = false ∧ ((s.closeInterval l).sluices.at l).line = none ∧ s.touches [.SLU_STAT] [.regs, .sluices] (s.closeInterval l)) ∧
      ((s.sluices.at l).crcA ≠ (s.sluices.at l).crcB ∨ (s.sluices.at l).bad = true →
        ∃ t, exec (.compareIntervalEnd l) s = .next t ∧ t = (s.closeInterval l).updateStep.cycle [] ∧ (s.closeInterval l).rd (R1 .SLU_MISMATCH l) = s.rd (R1 .SLU_MISMATCH l) + 1 ∧
          (s.closeInterval l).flag (R1 .SLU_EVT l) F.SLU_EVT_MISMATCH = true ∧ (s.closeInterval l).flag (R1 .SLU_STAT l) F.SLU_STAT_STEP_OK = false ∧
          (s.closeInterval l).fld (R1 .SLU_STAT l) F.SLU_STAT_MATCH_RUN = 0 ∧ ((s.closeInterval l).sluices.at l).bad = false ∧ ((s.closeInterval l).sluices.at l).line = none ∧
          s.touches [.SLU_STAT, .SLU_EVT, .SLU_MISMATCH, .EVT_STATUS] [.regs, .fired, .sluices] (s.closeInterval l)))) ∧
  (∀ (l : Fin 512) (s : State), s.transmitting l = false →
    ∃ t, exec (.compareIntervalEnd l) s = .next t ∧ t = (s.sluiceStop l).updateStep.cycle [] ∧ (s.sluiceStop l).flag (R1 .SLU_STAT l) F.SLU_STAT_STEP_OK = false ∧
      (s.sluiceStop l).flag (R1 .SLU_STAT l) F.SLU_STAT_GAP = false ∧ (s.sluiceStop l).fld (R1 .SLU_STAT l) F.SLU_STAT_MATCH_RUN = 0 ∧
      (s.sluiceStop l).fld (R1 .SLU_STAT l) F.SLU_STAT_SEL = s.fld (R1 .SLU_STAT l) F.SLU_STAT_SEL ∧ s.touches [.SLU_STAT] [.regs, .sluices] (s.sluiceStop l)) ∧
  (∀ (x : Side) (since : Nat) (s : State), s.holder = some x → s.outSince = some since → s.standbyClass = 0 → s.ready x.other = true → s.phase x.other = 0 →
    (since + 8 * s.slowestPeriod / tickU ≤ s.tick → ∃ t, exec .standbyStepTimeout s = .next t ∧ (t.side x.other).inReset = true ∧ t.holder = some x ∧
      s.disturbs [x.other] moveRegs moveParts t) ∧
    (s.tick < since + 8 * s.slowestPeriod / tickU → exec .standbyStepTimeout s = .next s))

/-- A Side loads the snapshot and the holder's content, then fills; ring frames are forwarded and obeyed; conflicts and votes are reported; the
bypass switches (R32, R162, R166, R169, R178, R184, R186, R188, R189, R568). -/
def Obligations.ResynchronisationRingAndVoters : Prop :=
  (∀ (sd : Side) (at_ : Nat) (s : State), s.phase sd = 1 → s.live sd = true → (s.side sd).resyncAt = some at_ →
    at_ + (100 * usTicks + (if (s.side sd).loadKind = 0 ∧ s.holder = some sd.other then s.contentVolume / 256 else 0)) ≤ s.tick →
    Sparse.wf RegKey.lt RegKey.reset s.twins → (∀ e ∈ s.twins, e.1.name.row.space = .side) →
    ∃ t, exec (.resyncLoadDone sd) s = .next t ∧ t.phase sd = 2 ∧
      (∀ (n : RegName) (i : Nat) (v : W32), (R1 n i, v) ∈ s.twins → n.row.twin = true → t.rd (RS n sd i) = v) ∧
      ((s.side sd).loadKind = 0 → s.holder = some sd.other → t.aly sd = s.aly sd.other) ∧ t.holder = s.holder ∧
      s.disturbs [sd] [.RFE_STATE, .RFE_EVT, .RFE_RESYNC, .EVT_STATUS]
        [.regs, .fired, .sideA, .sideB, .benches, .outSince, .alyA, .alyB, .hbmA, .hbmB, .txBufs, .txFlows] t) ∧
  (∀ (sd : Side) (s : State), s.phase sd = 2 → s.allBegun sd = true → ∃ t, exec (.resyncFillDone sd) s = .next t ∧ t.phase sd ≠ 2 ∧ t.holder = s.holder ∧
      s.touches [.RFE_STATE, .RFE_EVT, .RFE_RESYNC, .EVT_STATUS] [.regs, .fired, .sideA, .sideB, .outSince] t) ∧
  (∀ (sd : Side) (s : State), s.phase sd ≠ 2 ∨ s.allBegun sd = false → exec (.resyncFillDone sd) s = .next s) ∧
  (∀ (bytes : List Byte) (s : State), s.aoReset = false → s.ring.bypassed = false → ringGood bytes = false →
    ∃ t, exec (.ringFrame bytes) s = .next t ∧ s.sends t ∧ (s.sent t).length = 1 ∧ (s.flag (R0 .HAF_CFG) F.HAF_CFG_ENABLE = false → s.sent t = [.ringFrame bytes]) ∧
      t.flag (R0 .HAF_EVT) F.HAF_EVT_CRC_ERR = true ∧ s.touches [.HAF_EVT, .EVT_STATUS] [.regs, .fired, .out, .ring] t) ∧
  (∀ (bytes : List Byte) (n : Nat) (s : State), s.aoReset = false → s.ring.bypassed = false → ringGood bytes = true → s.station = some n →
    (s.flag (R0 .RFE_CFG) F.RFE_CFG_MODE = false →
      ∃ t, exec (.ringFrame bytes) s = .next t ∧ s.sends t ∧ (s.sent t).length = 1 ∧ t.flag (R0 .HAF_STAT) F.HAF_STAT_RING_OK = true ∧
        (∀ k : Fin 32, (t.rd (R1 .HAF_TALLY k)).toNat = ringByte bytes ((if n = 1 then 260 else 388) + 4 * k) + ringByte bytes ((if n = 1 then 260 else 388) + 4 * k + 1) * 0x100 +
          ringByte bytes ((if n = 1 then 260 else 388) + 4 * k + 2) * 0x10000 + ringByte bytes ((if n = 1 then 260 else 388) + 4 * k + 3) * 0x1000000) ∧
        s.touches [.HAF_EVT, .HAF_STAT, .HAF_TALLY, .RFE_STATE, .EVT_STATUS] [.regs, .fired, .out, .ring] t) ∧
    (s.flag (R0 .RFE_CFG) F.RFE_CFG_MODE = true → (s.ring.counts.getD 0 (none, 0)).1 ≠ some (ringByte bytes 4) → ringByte bytes 9 = 1 →
      s.ring.executed ≠ some (ringByte bytes (4 + 2 * n)) →
      ∃ t, exec (.ringFrame bytes) s = .next t ∧ t = (s.ringTake bytes).1.decide_ (ringByte bytes (3 + 2 * n)) ∧ (s.ringTake bytes).1.ring.executed = some (ringByte bytes (4 + 2 * n)) ∧
        (ringByte bytes (3 + 2 * n) = 3 → t.flag (R0 .RFE_STATE) F.RFE_STATE_QUIET = true) ∧
        (∀ x : Side, ((s.ringTake bytes).1.cycle []).expire.holder = some x → ringByte bytes (3 + 2 * n) = x.other.idx + 1 → ((s.ringTake bytes).1.cycle []).expire.ready x.other = true →
          t.holder = some x.other ∧ t.flag (R0 .RFE_STATE) F.RFE_STATE_QUIET = false ∧ t.fld (R0 .RFE_LAST) F.RFE_LAST_CAUSE = 6) ∧
        s.touches [.HAF_EVT, .HAF_STAT, .HAF_TALLY, .RFE_STATE, .EVT_STATUS] [.regs, .fired, .out, .ring] (s.ringTake bytes).1 ∧
        (s.ringTake bytes).1.disturbs [.A, .B] (assayRegs ++ moveRegs) (.sevAt :: .hbmA :: .hbmB :: moveParts) t)) ∧
  (∀ s : State, s.aoReset = false → s.ring.lost = false → s.ring.lastGood + max 1 (s.fld (R0 .HAF_CFG) F.HAF_CFG_TIMEOUT) * msTicks ≤ s.tick →
    ∃ t, exec .ringTimeout s = .next t ∧ t.ring.lost = true ∧ t.flag (R0 .HAF_STAT) F.HAF_STAT_RING_OK = false ∧
      t.flag (R0 .HAF_EVT) F.HAF_EVT_RING_LOST = true ∧ t.flag (R0 .RFE_EVT) F.RFE_EVT_EXT_TIMEOUT = true ∧
      t.flag (R0 .RFE_STATE) F.RFE_STATE_QUIET = false ∧ t.flag (R0 .RFE_STATE) F.RFE_STATE_EXT_ACTIVE = false ∧
      s.disturbs [.A, .B] ([.HAF_EVT, .HAF_STAT] ++ assayRegs ++ moveRegs) ([.ring, .sevAt] ++ moveParts) t) ∧
  (∀ (sd : Side) (s : State), s.inConflict sd = true → ∃ t, exec (.claimConflict sd) s = .next t ∧
      t.flag (R0 .RFE_EVT) (match sd with | .A => F.RFE_EVT_CONFLICT_A | .B => F.RFE_EVT_CONFLICT_B) = true ∧
      s.disturbs [.A, .B] (assayRegs ++ moveRegs) (.sevAt :: moveParts) t) ∧
  (∀ (sd : Side) (s : State), s.inConflict sd = false → exec (.claimConflict sd) s = .next s) ∧
  (∀ (a b c : Fin 4) (s : State), s.aoReset = false → a ≠ b ∨ b ≠ c → ∃ t, exec (.voteMismatch a b c) s = .next t ∧
      t = (s.revote a b c).updateStep.cycle [(34, if (voteOf [a.val, b.val, c.val]).isSome then 1 else 2)] ∧
      (s.revote a b c).flag (R0 .RFE_EVT) F.RFE_EVT_VOTE_MISMATCH = true ∧ (s.revote a b c).flag (R0 .RFE_STATE) F.RFE_STATE_VOTE_DEGRADED = true ∧
      (∀ v, voteOf [a.val, b.val, c.val] = some v → (s.revote a b c).voters = [v, v, v] ∧ (s.revote a b c).fld (R0 .RFE_STATE) F.RFE_STATE_STATE = v) ∧
      (voteOf [a.val, b.val, c.val] = none → (s.revote a b c).voters = List.replicate 3 (s.sluicesName.idx + 1) ∧ (s.revote a b c).holder = some s.sluicesName) ∧
      s.touches [.RFE_EVT, .RFE_STATE, .SLU_STAT, .SLU_EVT, .EVT_STATUS] [.regs, .fired, .voters, .leaseEnd, .grace, .sideA, .sideB] (s.revote a b c)) ∧
  (∀ (a b c : Fin 4) (s : State), s.aoReset = true ∨ a = b ∧ b = c → exec (.voteMismatch a b c) s = .next s) ∧
  (∀ s : State, s.aoReset = false → ∃ t, exec .harifBypassOpen s = .next t ∧ t.ring = { s.ring with bypassed := false } ∧ s.changesOnly [.ring] t) ∧
  (∀ s : State, ∃ t, exec .bypassSupplyLoss s = .next t ∧ t.ring = { s.ring with bypassed := true } ∧ s.changesOnly [.ring] t)

/-- Lines that rise are latched in ASY_STATUS, an isolated Side is released or latched when its quiet time is over, and firmware raises its
lines (R506, R509, R512, R513, R514, R516). -/
def Obligations.AssayLatchesAndReleases : Prop :=
  (∀ (asserted : List (Nat × W32)) (l : Nat) (s : State), l ∈ [0, 1, 2, 4, 8, 9, 16, 17, 18, 20, 24, 25, 32, 33, 36, 37, 40] → s.sampled l = true →
    l ∈ asserted.map (·.1) → s.lineFlag .ASY_LIVE0 .ASY_LIVE1 l = false →
    ∃ t, exec (.assayLineRise asserted) s = .next t ∧ t.lineFlag .ASY_LIVE0 .ASY_LIVE1 l = true ∧ t.lineFlag .ASY_STATUS0 .ASY_STATUS1 l = true ∧
      s.disturbs [.A, .B] (.SYS_EVT :: (assayRegs ++ moveRegs)) ([.envLines, .sevAt] ++ moveParts) t) ∧
  (∀ (sd : Side) (s : State), (s.wdogLapsed sd = false → exec (.watchdogExpiry sd) s = .next s) ∧
    (s.wdogLapsed sd = true → s.aoReset = false → s.live sd = true → s.lineFlag .ASY_LIVE0 .ASY_LIVE1 (16 * sd.idx + 6) = false →
      ∃ t, exec (.watchdogExpiry sd) s = .next t ∧ t.lineFlag .ASY_STATUS0 .ASY_STATUS1 (16 * sd.idx + 6) = true ∧
        s.disturbs [.A, .B] (assayRegs ++ moveRegs) (.sevAt :: moveParts) t)) ∧
  (∀ (sd : Side) (s : State), (s.side sd).isolated = true → (s.side sd).latched = false → (s.side sd).held = false →
    (s.quietNow sd ≠ 0 → exec (.quietTimerExpiry sd) s = .next s) ∧
    (s.quietNow sd = 0 → s.fld (R0 .ASY_ISO_CFG) F.ASY_ISO_CFG_LIMIT = 0 →
      ∃ t, exec (.quietTimerExpiry sd) s = .next t ∧ (t.side sd).isolated = false ∧ (t.side sd).inReset = true ∧
        t.fld (R1 .ASY_RECOV_COUNT sd.idx) F.ASY_RECOV_COUNT_COUNT = min 65535 (s.fld (R1 .ASY_RECOV_COUNT sd.idx) F.ASY_RECOV_COUNT_COUNT + 1) ∧
        t.side sd.other = s.side sd.other ∧ s.touches [.ASY_RECOV_COUNT] [.regs, .sideA, .sideB] t) ∧
    (s.quietNow sd = 0 → s.fld (R0 .ASY_ISO_CFG) F.ASY_ISO_CFG_LIMIT ≠ 0 →
      (∀ a ∈ (s.side sd).releases, s.tick < a + max 1 (s.fld (R0 .ASY_ISO_CFG) F.ASY_ISO_CFG_WINDOW) * 10 * secTicks) →
      s.fld (R0 .ASY_ISO_CFG) F.ASY_ISO_CFG_LIMIT ≤ (s.side sd).releases.length →
      ∃ t, exec (.quietTimerExpiry sd) s = .next t ∧ (t.side sd).isolated = true ∧ (t.side sd).latched = true ∧ t.side sd.other = s.side sd.other ∧
        s.changesOnly [.sideA, .sideB] t)) ∧
  (∀ (r : Req) (sd : Side) (c : Instr) (s : State), c = (match sd with | .A => .unlatchA r | .B => .unlatchB r) → s.granted r .ao → s.asyAdmin r = true →
    ((s.side sd).latched = true → ∃ t, exec c s = .next t ∧ (t.side sd).isolated = false ∧ (t.side sd).latched = false ∧ (t.side sd).releases = [] ∧
      t.side sd.other = s.side sd.other ∧ s.touches [.ASY_RECOV_COUNT] [.regs, .sideA, .sideB, .locks] t) ∧
    ((s.side sd).latched = false → ∃ t, exec c s = .next t ∧ s.changesOnly [.locks] t)) ∧
  (∀ (r : Req) (s : State), s.granted r .ao → s.asyAdmin r = true →
    ∃ t, exec (.firstClr r) s = .next t ∧ (∀ w : Fin 4, t.rd (R1 .ASY_FIRST w) = 0) ∧ s.touches [.ASY_FIRST] [.regs, .locks] t) ∧
  (∀ (r : Req) (i : Fin 2) (ctx : W32) (j : Nat) (c : Instr) (s : State), s.granted r .ao → isFw r i = true → s.live (if i.val = 0 then .A else .B) = true →
    c = .fwFatal r i ctx ∧ j = 10 ∨ c = .fwDegrade r i ctx ∧ j = 11 ∨ c = .fwNotice r i ctx ∧ j = 12 →
    ∃ t, exec c s = .next t ∧ t.lineFlag .ASY_STATUS0 .ASY_STATUS1 (16 * i + j) = true ∧
      s.disturbs [.A, .B] (assayRegs ++ moveRegs) (.sevAt :: moveParts) t)

/-- LOS, LOL and a quad PLL's unlock set their status and events and make the lane's source positions ABSENT; a clear and a relock end them
(R209, R210, R211, R212, R215, R227, R228). -/
def Obligations.LaneDetectorsAndQuadPlls : Prop :=
  (∀ (n : Fin 512) (mv us : Nat) (s : State), s.laneLos n = true ∨ s.losLevel n ≤ mv ∨ s.detHeld n F.LANE_DET_ASSERT us = false → exec (.losAssert n mv us) s = .next s) ∧
  (∀ (n : Fin 512) (mv us : Nat) (s : State), s.laneLos n = false → mv < 10 * (s.fld (R1 .LANE_DET n) F.LANE_DET_LOS_TH + 2) →
    max 1 (s.fld (R1 .LANE_DET n) F.LANE_DET_ASSERT) ≤ us → (s.lanes.at n).detAt = none →
    ∃ t, exec (.losAssert n mv us) s = .next t ∧ t.laneLos n = true ∧ t.laneLol n = false ∧ t.fld (R1 .LANE_STAT n) F.LANE_STAT_FREQ = 0 ∧
      t.flag (R1 .LANE_EVT n) F.LANE_EVT_LOS_SET = true ∧ (s.laneLol n = true → t.flag (R1 .LANE_EVT n) F.LANE_EVT_LOL_CLR = true) ∧
      (∀ x p, (x, p) ∈ s.inPlan → (s.inPlan.at x).slots = 1 →
        (p.srcE.any (s.posOnLane n .E) = true → ((t.inRx.at x).copy .E).present = false) ∧
        (p.srcW.any (s.posOnLane n .W) = true → ((t.inRx.at x).copy .W).present = false)) ∧
      s.alters [R1 .LANE_STAT n, R1 .LANE_EVT n, R1 .NVL_STAT n, R1 .NVL_EVT n] absentRegs (.nvl :: absentParts) t) ∧
  (∀ (n : Fin 512) (mv us : Nat) (s : State), s.laneLos n = true → s.bankLost.contains (laneBank n) = false →
    10 * (s.fld (R1 .LANE_DET n) F.LANE_DET_LOS_TH + 2) + 5 * s.fld (R1 .LANE_DET n) F.LANE_DET_LOS_HYST ≤ mv →
    max 1 (s.fld (R1 .LANE_DET n) F.LANE_DET_CLEAR) ≤ us → (s.lanes.at n).detAt = none →
    ∃ t, exec (.losClear n mv us) s = .next t ∧ t.laneLos n = false ∧ t.flag (R1 .LANE_EVT n) F.LANE_EVT_LOS_CLR = true ∧
      s.alters [R1 .LANE_STAT n, R1 .LANE_EVT n, R1 .NVL_STAT n] [.EVT_STATUS] [.regs, .fired, .lanes, .nvl] t) ∧
  (∀ (n : Fin 512) (mv us : Nat) (s : State), s.laneLos n = false ∨ s.bankLost.contains (laneBank n) = true ∨
    mv < s.losLevel n + 5 * s.fld (R1 .LANE_DET n) F.LANE_DET_LOS_HYST ∨ s.detHeld n F.LANE_DET_CLEAR us = false → exec (.losClear n mv us) s = .next s) ∧
  (∀ (n : Fin 512) (locked : Bool) (freq : Int) (s : State), s.laneLos n = false → s.lanePark n ≤ 1 →
    locked = false ∨ 100 * max 1 (s.fld (R1 .LANE_DET n) F.LANE_DET_LOL_PPM) < freq.natAbs →
    ∃ t, exec (.lolAssert n locked freq) s = .next t ∧ t.laneLol n = true ∧ t.fld (R1 .LANE_STAT n) F.LANE_STAT_FREQ = twos 16 (satS 16 freq) ∧
      (s.laneLol n = false → t.flag (R1 .LANE_EVT n) F.LANE_EVT_LOL_SET = true ∧
        ∀ x p, (x, p) ∈ s.inPlan → (s.inPlan.at x).slots = 1 →
          (p.srcE.any (s.posOnLane n .E) = true → ((t.inRx.at x).copy .E).present = false) ∧
          (p.srcW.any (s.posOnLane n .W) = true → ((t.inRx.at x).copy .W).present = false)) ∧
      s.alters [R1 .LANE_STAT n, R1 .LANE_EVT n] absentRegs absentParts t) ∧
  (∀ (n : Fin 512) (freq : Int) (s : State), s.laneLos n = false → s.lanePark n ≤ 1 → freq.natAbs ≤ 100 * max 1 (s.fld (R1 .LANE_DET n) F.LANE_DET_LOL_PPM) →
    ∃ t, exec (.lolAssert n true freq) s = .next t ∧ t.laneLol n = s.laneLol n ∧ t.fld (R1 .LANE_STAT n) F.LANE_STAT_FREQ = twos 16 (satS 16 freq) ∧
      s.alters [R1 .LANE_STAT n] [] [.regs] t) ∧
  (∀ (n : Fin 512) (locked : Bool) (freq : Int) (s : State), s.laneLos n = true ∨ 2 ≤ s.lanePark n → exec (.lolAssert n locked freq) s = .next s) ∧
  (∀ (n : Fin 512) (freq : Int) (s : State), s.laneLol n = true → s.flag (qstat (n.val / 4)) F.LANE_QSTAT_LOCK = true →
    freq.natAbs ≤ 100 * max 1 (s.fld (R1 .LANE_DET n) F.LANE_DET_LOL_PPM) →
    ∃ t, exec (.lolClear n freq) s = .next t ∧ t.laneLol n = false ∧ t.fld (R1 .LANE_STAT n) F.LANE_STAT_FREQ = twos 16 (satS 16 freq) ∧ t.flag (R1 .LANE_EVT n) F.LANE_EVT_LOL_CLR = true ∧
      s.alters [R1 .LANE_STAT n, R1 .LANE_EVT n] [.EVT_STATUS] [.regs, .fired] t) ∧
  (∀ (n : Fin 512) (freq : Int) (s : State), s.laneLol n = false ∨ s.flag (qstat (n.val / 4)) F.LANE_QSTAT_LOCK = false ∨ s.offFreq n freq = true →
    exec (.lolClear n freq) s = .next s) ∧
  (∀ (q : Fin 128) (s : State), s.flag (qstat q) F.LANE_QSTAT_LOCK = true →
    ∃ t, exec (.qpllUnlock q) s = .next t ∧ t.flag (qstat q) F.LANE_QSTAT_LOCK = false ∧
      t.fld (qstat q) F.LANE_QSTAT_UNLOCKS = min 255 (s.fld (qstat q) F.LANE_QSTAT_UNLOCKS + 1) ∧
      (∀ m ∈ quadLanes q, t.flag (R1 .LANE_EVT m) F.LANE_EVT_QPLL_UNLOCK = true ∧ t.flag (R1 .LANE_STAT m) F.LANE_STAT_TX_ON = false ∧
        (s.laneLos m = false → s.lanePark m ≤ 1 → t.laneLol m = true)) ∧
      s.alters (qstat q :: (quadLanes q).flatMap fun m => [R1 .LANE_STAT m, R1 .LANE_EVT m, R1 .SLU_STAT m]) (absentRegs ++ stepRegs) (.lanes :: .sluices :: absentParts ++ stepParts) t) ∧
  (∀ (q : Fin 128) (s : State), s.flag (qstat q) F.LANE_QSTAT_LOCK = false →
    exec (.qpllUnlock q) s = .next s ∧
    ((∃ m ∈ quadLanes q, s.laneProto m ≠ 0) → s.bankLost.contains (laneBank (4 * q)) = false →
      ∃ t, exec (.qpllRelock q) s = .next t ∧ t.flag (qstat q) F.LANE_QSTAT_LOCK = true ∧ t.flag (qstat q) F.LANE_QSTAT_OFF = false ∧
        (∀ m ∈ quadLanes q, t.lanePark m = if s.laneProto m ≠ 0 ∧ s.lanePark m = 3 ∧ s.flag (R1 .LANE_STAT m) F.LANE_STAT_WAKING = false then 2 else s.lanePark m) ∧
        s.alters (qstat q :: (quadLanes q).map fun m => R1 .LANE_STAT m) [] [.regs] t))

/-- An idle lane parks in the deepest permitted state, a demand starts its wake, a wake brings it to L0; slips and eyes are recorded (R207,
R208, R213, R214, R215, R216, R217, R227, R229). -/
def Obligations.LanesParkWakeAndMeasure : Prop :=
  (∀ (n : Fin 512) (s : State), s.laneProto n = 0 ∨ s.laneIdle n = false → exec (.lanePark n) s = .next s) ∧
  (∀ (n : Fin 512) (s : State), s.laneProto n ≠ 0 → s.laneIdle n = true →
    (s.laneDeepest n ≤ 2 → s.lanePark n < s.laneDeepest n →
      ∃ t, exec (.lanePark n) s = .next t ∧ t.lanePark n = s.laneDeepest n ∧ t.flag (R1 .LANE_STAT n) F.LANE_STAT_TX_ON = decide (s.laneDeepest n = 1) ∧
        (s.laneDeepest n = 2 → t.fld (R1 .LANE_STAT n) F.LANE_STAT_FREQ = 0 ∧ t.fld (R1 .NVL_STAT n) F.NVL_STAT_STATE = 0 ∧
          (s.laneProto n = 3 → t.flag (R1 .ETH_PORT_STAT (s.lanePort n)) F.ETH_PORT_STAT_LINK = false)) ∧
        s.alters [R1 .LANE_STAT n, R1 .LANE_EVT n, R1 .NVL_STAT n, R1 .NVL_EVT n, R1 .SLU_STAT n, R1 .ETH_PORT_STAT (s.lanePort n), R1 .ETH_PORT_EVT (s.lanePort n)]
          (absentRegs ++ stepRegs) ([.lanes, .nvl, .freeCtr, .sluices, .ports] ++ absentParts ++ stepParts) t) ∧
    (s.laneDeepest n = 3 → (∃ m ∈ quadLanes (n.val / 4), s.laneProto m ≠ 0 ∧ (s.laneIdle m = false ∨ s.laneDeepest m ≠ 3)) →
      (s.lanePark n < 2 → ∃ t, exec (.lanePark n) s = .next t ∧ t.lanePark n = 2 ∧ t.flag (R1 .LANE_STAT n) F.LANE_STAT_TX_ON = false ∧
        t.fld (R1 .LANE_STAT n) F.LANE_STAT_FREQ = 0 ∧
        s.alters [R1 .LANE_STAT n, R1 .LANE_EVT n, R1 .NVL_STAT n, R1 .NVL_EVT n, R1 .SLU_STAT n, R1 .ETH_PORT_STAT (s.lanePort n), R1 .ETH_PORT_EVT (s.lanePort n)]
          (absentRegs ++ stepRegs) ([.lanes, .nvl, .freeCtr, .sluices, .ports] ++ absentParts ++ stepParts) t) ∧
      (2 ≤ s.lanePark n → exec (.lanePark n) s = .next s)) ∧
    (s.lanePark n < 3 → (∀ m ∈ quadLanes (n.val / 4), s.laneProto m ≠ 0 → s.laneIdle m = true ∧ s.laneDeepest m = 3) →
      ∃ t, exec (.lanePark n) s = .next t ∧ t.flag (qstat (n.val / 4)) F.LANE_QSTAT_OFF = true ∧ t.flag (qstat (n.val / 4)) F.LANE_QSTAT_LOCK = false ∧
        (∀ m ∈ quadLanes (n.val / 4), s.laneProto m ≠ 0 → t.lanePark m = 3 ∧ t.flag (R1 .LANE_STAT m) F.LANE_STAT_TX_ON = false) ∧
        s.alters (qstat (n.val / 4) :: (quadLanes (n.val / 4)).flatMap fun m =>
            [R1 .LANE_STAT m, R1 .LANE_EVT m, R1 .NVL_STAT m, R1 .NVL_EVT m, R1 .SLU_STAT m, R1 .ETH_PORT_STAT (s.lanePort m), R1 .ETH_PORT_EVT (s.lanePort m)])
          (absentRegs ++ stepRegs) ([.lanes, .nvl, .freeCtr, .sluices, .ports] ++ absentParts ++ stepParts) t)) ∧
  (∀ (n : Fin 512) (s : State), s.laneDemanded n = true → s.laneProto n ≠ 0 → s.lanePark n ≠ 0 → s.flag (R1 .LANE_STAT n) F.LANE_STAT_WAKING = false →
    s.bankLost.contains (laneBank n) = false →
    ∃ t, exec (.laneDemand n) s = .next t ∧ t.flag (R1 .LANE_STAT n) F.LANE_STAT_WAKING = true ∧ (t.lanes.at n).wakeFrom = s.lanePark n ∧
      (t.lanes.at n).wakeAt = s.tick ∧ t.lanePark n = s.lanePark n ∧ s.alters [R1 .LANE_STAT n] [] [.regs, .lanes] t) ∧
  (∀ (n : Fin 512) (s : State), s.laneDemanded n = false ∨ s.lanePark n = 0 → exec (.laneDemand n) s = .next s) ∧
  (∀ (n : Fin 512) (s : State), s.laneProto n ≠ 0 → s.flag (qstat (n.val / 4)) F.LANE_QSTAT_LOCK = true →
    s.flag (R1 .LANE_STAT n) F.LANE_STAT_WAKING = true →
    ∃ t, exec (.wake n) s = .next t ∧ t.lanePark n = 0 ∧ t.flag (R1 .LANE_STAT n) F.LANE_STAT_WAKING = false ∧
      t.flag (R1 .LANE_EVT n) F.LANE_EVT_WAKE = true ∧
      ((s.lanes.at n).wakeAt + wakeTicks (s.lanes.at n).wakeFrom < s.tick → t.flag (R1 .LANE_EVT n) F.LANE_EVT_WAKE_LATE = true) ∧
      (s.tick ≤ (s.lanes.at n).wakeAt + wakeTicks (s.lanes.at n).wakeFrom →
        t.flag (R1 .LANE_EVT n) F.LANE_EVT_WAKE_LATE = s.flag (R1 .LANE_EVT n) F.LANE_EVT_WAKE_LATE) ∧
      (s.laneProto n = 1 → s.fld (R1 .NVL_STAT n) F.NVL_STAT_STATE = 0 → s.laneLos n = false → t.fld (R1 .NVL_STAT n) F.NVL_STAT_STATE = 1) ∧
      s.alters [R1 .LANE_STAT n, R1 .LANE_EVT n, R1 .NVL_STAT n, R1 .LANE_TXEQ n] stepRegs ([.lanes, .nvl, .freeCtr] ++ stepParts) t) ∧
  (∀ (n : Fin 512) (s : State), s.flag (qstat (n.val / 4)) F.LANE_QSTAT_LOCK = false → exec (.wake n) s = .next s) ∧
  (∀ (n : Fin 512) (ins : Bool) (s : State), s.laneProto n = 1 ∨ s.laneProto n = 3 → s.lanePark n ≤ 1 →
    ∃ t, exec (.slip n ins) s = .next t ∧
      t.fld (R1 .LANE_FILL n) F.LANE_FILL_INS = min 65535 (s.fld (R1 .LANE_FILL n) F.LANE_FILL_INS + if ins then 1 else 0) ∧
      t.fld (R1 .LANE_FILL n) F.LANE_FILL_DEL = min 65535 (s.fld (R1 .LANE_FILL n) F.LANE_FILL_DEL + if ins then 0 else 1) ∧
      t.flag (R1 .LANE_EVT n) F.LANE_EVT_SLIP = (s.flag (R1 .LANE_EVT n) F.LANE_EVT_SLIP || s.flag (R1 .LANE_CFG n) F.LANE_CFG_CLOCKING) ∧
      s.alters [R1 .LANE_FILL n, R1 .LANE_EVT n] [.EVT_STATUS] [.regs, .fired] t) ∧
  (∀ (n : Fin 512) (h w : Fin 1024) (snr : Byte) (freq : Int) (s : State), s.laneProto n ≠ 0 → s.lanePark n = 0 →
    ∃ t, exec (.eyeMeasure n h w snr freq) s = .next t ∧ t.fld (R1 .LANE_EYE n) F.LANE_EYE_HEIGHT = h ∧ t.fld (R1 .LANE_EYE n) F.LANE_EYE_WIDTH = w ∧
      t.fld (R1 .LANE_EYE n) F.LANE_EYE_SNR = snr.toNat ∧
      t.fld (R1 .LANE_STAT n) F.LANE_STAT_FREQ = (if s.laneLos n then s.fld (R1 .LANE_STAT n) F.LANE_STAT_FREQ else twos 16 (satS 16 freq)) ∧
      t.laneLol n = (s.laneLol n || (!s.laneLos n && decide (100 * max 1 (s.fld (R1 .LANE_DET n) F.LANE_DET_LOL_PPM) < freq.natAbs))) ∧
      s.alters [R1 .LANE_EYE n, R1 .LANE_STAT n, R1 .LANE_EVT n] absentRegs absentParts t) ∧
  (∀ (n : Fin 512) (h w : Fin 1024) (snr : Byte) (freq : Int) (s : State), s.laneProto n = 0 ∨ s.lanePark n ≠ 0 → exec (.eyeMeasure n h w snr freq) s = .next s)

/-- Transmit taps are written as a whole or refused; a test takes the lane out of service; the checker's count is read and cleared (R203, R204,
R218, R219, R221, R225, R230). -/
def Obligations.LaneTapsTestsAndChecker : Prop :=
  (∀ (r : Req) (n : Fin 512) (v : W32) (s : State), s.granted r .lanes → s.holdsLane r n = true → s.laneProto n ≠ 0 →
    (s.flag (R1 .LANE_CTL n) F.LANE_CTL_TRAIN = true → s.laneProto n ≠ 2 →
      ∃ t, exec (.laneTxeqWrite r n v) s = .next t ∧ t.flag (R1 .LANE_EVT n) F.LANE_EVT_EQ_BUSY = true ∧
        s.alters [R1 .LANE_EVT n] [.EVT_STATUS] [.regs, .fired, .locks] t) ∧
    (s.flag (R1 .LANE_CTL n) F.LANE_CTL_TRAIN = false ∨ s.laneProto n = 2 →
      (tapsOk (if s.pam4 n then getF v F.LANE_TXEQ_PRE2 else 0) (getF v F.LANE_TXEQ_PRE1) (getF v F.LANE_TXEQ_POST1) = true →
        ∃ t, exec (.laneTxeqWrite r n v) s = .next t ∧
          t.fld (R1 .LANE_TXEQ n) F.LANE_TXEQ_PRE2 = (if s.pam4 n then getF v F.LANE_TXEQ_PRE2 else 0) ∧
          t.fld (R1 .LANE_TXEQ n) F.LANE_TXEQ_PRE1 = getF v F.LANE_TXEQ_PRE1 ∧ t.fld (R1 .LANE_TXEQ n) F.LANE_TXEQ_POST1 = getF v F.LANE_TXEQ_POST1 ∧
          t.fld (R1 .LANE_TXEQ n) F.LANE_TXEQ_AMP = getF v F.LANE_TXEQ_AMP ∧ s.alters [R1 .LANE_TXEQ n] [] [.regs, .locks] t) ∧
      (tapsOk (if s.pam4 n then getF v F.LANE_TXEQ_PRE2 else 0) (getF v F.LANE_TXEQ_PRE1) (getF v F.LANE_TXEQ_POST1) = false →
        ∃ t, exec (.laneTxeqWrite r n v) s = .next t ∧ t.flag (R1 .LANE_EVT n) F.LANE_EVT_EQ_RANGE = true ∧
          s.alters [R1 .LANE_EVT n] [.EVT_STATUS] [.regs, .fired, .locks] t))) ∧
  (∀ (r : Req) (n : Fin 512) (v : W32) (s : State), s.granted r .lanes → s.holdsLane r n = true → s.laneProto n ≠ 0 →
    ∃ t, exec (.laneTestWrite r n v) s = .next t ∧
      t.fld (R1 .LANE_TEST n) F.LANE_TEST_TX_PAT = getF v F.LANE_TEST_TX_PAT ∧ t.fld (R1 .LANE_TEST n) F.LANE_TEST_RX_PAT = getF v F.LANE_TEST_RX_PAT ∧
      t.fld (R1 .LANE_TEST n) F.LANE_TEST_LOOP = getF v F.LANE_TEST_LOOP ∧
      (t.inTest n = true → t.transmitting n = false ∧
        ∀ x p, (x, p) ∈ s.inPlan → (s.inPlan.at x).slots = 1 →
          (p.srcE.any (s.posOnLane n .E) = true → ((t.inRx.at x).copy .E).present = false) ∧
          (p.srcW.any (s.posOnLane n .W) = true → ((t.inRx.at x).copy .W).present = false)) ∧
      (s.pam4 n = false → 6 ≤ getF v F.LANE_TEST_TX_PAT → getF v F.LANE_TEST_TX_PAT ≤ 8 → t.flag (R1 .LANE_EVT n) F.LANE_EVT_TEST_BAD = true) ∧
      (s.inTest n = true → t.inTest n = false → s.laneProto n = 1 ∨ s.laneProto n = 3 → (t.lanes.at n).retrain = true ∧ t.transmitting n = false) ∧
      s.alters [R1 .LANE_TEST n, R1 .LANE_EVT n, R1 .LANE_STAT n, R1 .LANE_BER_ERR n, R1 .SLU_STAT n, R1 .NVL_STAT n, R1 .NVL_EVT n] (absentRegs ++ stepRegs)
        ([.lanes, .nvl, .freeCtr, .sluices, .locks] ++ absentParts ++ stepParts) t) ∧
  (∀ (r : Req) (n : Fin 512) (s : State), s.granted r .lanes → s.holdsLane r n = true → s.laneProto n ≠ 0 →
    ∃ t, exec (.inject r n) s = .next t ∧ (t.lanes.at n).inject = (s.lanes.at n).inject + (if s.txPattern n = 0 then 0 else 1) ∧
      t.fld (R1 .LANE_TEST n) F.LANE_TEST_TX_PAT = s.fld (R1 .LANE_TEST n) F.LANE_TEST_TX_PAT ∧
      t.fld (R1 .LANE_TEST n) F.LANE_TEST_RX_PAT = s.fld (R1 .LANE_TEST n) F.LANE_TEST_RX_PAT ∧
      t.fld (R1 .LANE_TEST n) F.LANE_TEST_LOOP = s.fld (R1 .LANE_TEST n) F.LANE_TEST_LOOP ∧
      t.flag (R1 .LANE_TEST n) F.LANE_TEST_SYNC = s.flag (R1 .LANE_TEST n) F.LANE_TEST_SYNC ∧
      s.alters [R1 .LANE_TEST n, R1 .LANE_EVT n, R1 .LANE_STAT n, R1 .LANE_BER_ERR n, R1 .SLU_STAT n, R1 .NVL_STAT n, R1 .NVL_EVT n] (absentRegs ++ stepRegs)
        ([.lanes, .nvl, .freeCtr, .sluices, .locks] ++ absentParts ++ stepParts) t) ∧
  (∀ (n : Fin 512) (fa fb : UnitFault) (k : Nat) (s : State), s.txPattern n ≠ 0 → s.flag (R1 .LANE_STAT n) F.LANE_STAT_TX_ON = true →
    ∃ t, exec (.sluiceUnit n fa fb k) s = .next t ∧ s.sends t ∧ (s.sent t).length = 1 ∧ (s.sent t).all (isLine n) = true ∧
      (s.pam4 n = false ∨ 8 ≤ s.txPattern n → s.sent t = [.line n ((List.range (66 * k)).map fun i =>
        patternBit (s.txPattern n) (s.pam4 n) ((s.lanes.at n).patPos + i) ^^ decide (i < (s.lanes.at n).inject))]) ∧
      (t.lanes.at n).patPos = (s.lanes.at n).patPos + 66 * k ∧ (t.lanes.at n).inject = (s.lanes.at n).inject - min (s.lanes.at n).inject (66 * k) ∧
      s.changesOnly [.out, .lanes] t) ∧
  (∀ (n : Fin 512) (s : State), s.rxPattern n ≠ 0 → s.flag (R1 .LANE_TEST n) F.LANE_TEST_SYNC = false →
    ∃ t, exec (.checkerSync n) s = .next t ∧ t.flag (R1 .LANE_TEST n) F.LANE_TEST_SYNC = true ∧ (t.lanes.at n).berAt.isSome = true ∧
      s.alters [R1 .LANE_TEST n] [] [.regs, .lanes] t) ∧
  (∀ (n : Fin 512) (s : State), s.rxPattern n = 0 → exec (.checkerSync n) s = .next s) ∧
  (∀ (n : Fin 512) (errors : Nat) (s : State), s.flag (R1 .LANE_TEST n) F.LANE_TEST_SYNC = true →
    ∃ t, exec (.checkerSyncLoss n errors) s = .next t ∧ t.flag (R1 .LANE_TEST n) F.LANE_TEST_SYNC = false ∧
      t.rd (R1 .LANE_BER_ERR n) = s.rd (R1 .LANE_BER_ERR n) + w32 errors ∧ s.alters [R1 .LANE_TEST n, R1 .LANE_BER_ERR n] [] [.regs] t) ∧
  (∀ (n : Fin 512) (errors : Nat) (s : State), s.flag (R1 .LANE_TEST n) F.LANE_TEST_SYNC = false → exec (.checkerSyncLoss n errors) s = .next s) ∧
  (∀ (r : Req) (n : Fin 512) (errors : Nat) (be : Fin 16) (s : State), s.granted r .lanes → s.laneProto n ≠ 0 →
    ∃ t, exec (.berRead r n errors be) s = .next t ∧ t.rd (R1 .LANE_BER_ERR n) = 0 ∧
      t.lastRead.at r.num = bytesOf be (s.rd (R1 .LANE_BER_ERR n) + (if s.flag (R1 .LANE_TEST n) F.LANE_TEST_SYNC then w32 errors else 0)) ∧
      (∀ from_, (s.lanes.at n).berAt = some from_ → t.rd (R1 .LANE_BER_TIME n) = w32 (satU 32 ((s.tick - from_) / usTicks)) ∧ (t.lanes.at n).berAt = some s.tick) ∧
      s.alters [R1 .LANE_BER_ERR n, R1 .LANE_BER_TIME n] [] [.regs, .lastRead, .lanes, .locks] t)

/-- A Nervor link moves between LOCK, TRAIN and UP by locks, time-outs and TRAIN messages as its table says, and the right events are set (R240,
R244, R245, R247, R248). -/
def Obligations.NervorLinkStates : Prop :=
  (∀ (n : Fin 512) (s : State), s.linkState n = 1 → (s.nvl.at n).entered + msTicks ≤ s.tick →
    ∃ t, exec (.lockFail n) s = .next t ∧ t.flag (R1 .NVL_EVT n) F.NVL_EVT_LOCK_FAIL = true ∧ t.linkState n = 1 ∧ (t.nvl.at n).entered = s.tick ∧
      t.flag (R1 .NVL_STAT n) F.NVL_STAT_SF_LOCK = false ∧ s.alters [R1 .NVL_STAT n, R1 .NVL_EVT n] [.EVT_STATUS] [.regs, .fired, .nvl] t) ∧
  (∀ (n : Fin 512) (s : State), s.linkState n ≠ 1 ∨ s.tick < (s.nvl.at n).entered + msTicks → exec (.lockFail n) s = .next s) ∧
  (∀ (n : Fin 512) (s : State), s.linkState n = 1 → s.laneLol n = false →
    (s.flag (R1 .LANE_CTL n) F.LANE_CTL_TRAIN = true →
      (s.nvl.at n).locked = false ∨ (s.nvl.at n).retrain = true ∨ (∃ t₀, (s.nvl.at n).lostAt = some t₀ ∧ t₀ + msTicks < s.tick) →
      ∃ t, exec (.sfLock n) s = .next t ∧ t.linkState n = 2 ∧ t.flag (R1 .NVL_STAT n) F.NVL_STAT_SF_LOCK = true ∧ (t.nvl.at n).entered = s.tick ∧
        s.alters [R1 .NVL_STAT n] [] [.regs, .nvl] t) ∧
    (s.flag (R1 .LANE_CTL n) F.LANE_CTL_TRAIN = false ∨
      (s.nvl.at n).locked = true ∧ (s.nvl.at n).retrain = false ∧ (∀ t₀, (s.nvl.at n).lostAt = some t₀ → s.tick ≤ t₀ + msTicks) →
      ∃ t, exec (.sfLock n) s = .next t ∧ t.linkState n = 3 ∧ t.flag (R1 .NVL_STAT n) F.NVL_STAT_SF_LOCK = true ∧
        t.flag (R1 .NVL_EVT n) F.NVL_EVT_UP = true ∧ (t.nvlTx.at n).roll = some 0 ∧ (t.nvlTx.at n).rollReq = true ∧
        s.alters [R1 .NVL_STAT n, R1 .NVL_EVT n] [.EVT_STATUS] [.regs, .fired, .nvlTx, .nvl] t)) ∧
  (∀ (n : Fin 512) (s : State), s.linkState n ≠ 1 ∨ s.laneLol n = true → exec (.sfLock n) s = .next s) ∧
  (∀ (n : Fin 512) (s : State), s.linkState n = 2 ∨ s.linkState n = 3 →
    ∃ t, exec (.sfLockLost n) s = .next t ∧ t.linkState n = 1 ∧ t.flag (R1 .NVL_STAT n) F.NVL_STAT_SF_LOCK = false ∧ (t.nvl.at n).lostAt = some s.tick ∧
      (s.linkState n = 3 → t.flag (R1 .NVL_EVT n) F.NVL_EVT_DOWN = true ∧
        ∀ x p, (x, p) ∈ s.inPlan → (s.inPlan.at x).slots = 1 →
          (p.srcE.any (s.posOnLane n .E) = true → ((t.inRx.at x).copy .E).present = false) ∧
          (p.srcW.any (s.posOnLane n .W) = true → ((t.inRx.at x).copy .W).present = false)) ∧
      s.alters [R1 .NVL_STAT n, R1 .NVL_EVT n] absentRegs (.nvl :: absentParts) t) ∧
  (∀ (n : Fin 512) (s : State), s.linkState n < 2 → exec (.sfLockLost n) s = .next s) ∧
  (∀ (n : Fin 512) (s : State), ∃ t, exec (.blockLockLost n) s = .next t ∧ t.flag (R1 .NVL_STAT n) F.NVL_STAT_BLOCK_LOCK = false ∧
      t.linkState n = s.linkState n ∧ s.alters [R1 .NVL_STAT n] [] [.regs] t) ∧
  (∀ (n : Fin 512) (s : State), s.linkState n = 2 → (s.nvl.at n).entered + 7 * msTicks / 2 ≤ s.tick →
    ∃ t, exec (.trainTimeout n) s = .next t ∧ t.flag (R1 .NVL_EVT n) F.NVL_EVT_TRAIN_TIMEOUT = true ∧
      t.linkState n = (if s.flag (R1 .NVL_STAT n) F.NVL_STAT_SF_LOCK then 3 else 1) ∧
      s.alters [R1 .NVL_STAT n, R1 .NVL_EVT n] [.EVT_STATUS] [.regs, .fired, .nvlTx, .nvl] t) ∧
  (∀ (n : Fin 512) (s : State), s.linkState n ≠ 2 ∨ s.tick < (s.nvl.at n).entered + 7 * msTicks / 2 → exec (.trainTimeout n) s = .next s) ∧
  (∀ (n : Fin 512) (m : BitVec 56) (ready : Bool) (s : State), s.laneProto n = 1 → s.flag (R1 .NVL_STAT n) F.NVL_STAT_BLOCK_LOCK = true →
    (ctrlMsg m = none → ∃ t, exec (.nvlTrainMsg n m ready) s = .next t ∧ t.flag (R1 .NVL_EVT n) F.NVL_EVT_CTRL_ERR = true ∧
      t.fld (R1 .NVL_HDR_ERR n) F.NVL_HDR_ERR_CTRL = min 65535 (s.fld (R1 .NVL_HDR_ERR n) F.NVL_HDR_ERR_CTRL + 1) ∧
      s.alters [R1 .NVL_HDR_ERR n, R1 .NVL_EVT n] [.EVT_STATUS] [.regs, .fired] t) ∧
    (∀ part body, ctrlMsg m = some (1, part, body) → s.linkState n = 2 →
      ∃ t, exec (.nvlTrainMsg n m ready) s = .next t ∧
        t.linkState n = (if ready = true ∧ body / 2 ^ 17 % 2 = 1 then 3 else 2) ∧
        (ready = true → body / 2 ^ 17 % 2 = 1 → t.flag (R1 .LANE_STAT n) F.LANE_STAT_TRAINED = true ∧ t.flag (R1 .NVL_EVT n) F.NVL_EVT_UP = true) ∧
        ((s.nvl.at n).reqSeq = some (body / 2 ^ 28 % 256) → t.rd (R1 .LANE_TXEQ n) = s.rd (R1 .LANE_TXEQ n)) ∧
        ((s.nvl.at n).reqSeq ≠ some (body / 2 ^ 28 % 256) → s.flag (R1 .LANE_CTL n) F.LANE_CTL_TRAIN = true → body / 2 ^ 38 = 2 → body / 2 ^ 36 % 4 = 1 →
          t.fld (R1 .LANE_TXEQ n) F.LANE_TXEQ_PRE1 = s.fld (R1 .LANE_TXEQ n) F.LANE_TXEQ_PRE1 +
            if tapsOk (s.fld (R1 .LANE_TXEQ n) F.LANE_TXEQ_PRE2) (s.fld (R1 .LANE_TXEQ n) F.LANE_TXEQ_PRE1 + 1) (s.fld (R1 .LANE_TXEQ n) F.LANE_TXEQ_POST1) then 1 else 0) ∧
        s.alters [R1 .LANE_TXEQ n, R1 .LANE_STAT n, R1 .NVL_STAT n, R1 .NVL_EVT n] [.EVT_STATUS] [.regs, .fired, .freeCtr, .nvl, .nvlTx] t)) ∧
  (∀ (n : Fin 512) (m : BitVec 56) (ready : Bool) (s : State), s.laneProto n ≠ 1 → exec (.nvlTrainMsg n m ready) s = .next s)

/-- RETRAIN, a new FEC_MODE and ROLL_REQ act as the link table says; complete roll-call reports enter, change and leave the partner table (R245,
R251, R252, R257, R260). -/
def Obligations.NervorCommandsAndPartners : Prop :=
  (∀ (r : Req) (n : Fin 512) (s : State), s.granted r .lanes → s.holdsLane r n = true → s.laneProto n = 1 →
    (s.linkState n = 3 → ∃ t, exec (.retrain r n) s = .next t ∧ t.linkState n = 2 ∧
      (∀ x p, (x, p) ∈ s.inPlan → (s.inPlan.at x).slots = 1 →
        (p.srcE.any (s.posOnLane n .E) = true → ((t.inRx.at x).copy .E).present = false) ∧
        (p.srcW.any (s.posOnLane n .W) = true → ((t.inRx.at x).copy .W).present = false)) ∧
      s.alters [R1 .NVL_STAT n] absentRegs ([.nvl, .locks] ++ absentParts) t) ∧
    (s.linkState n = 1 → ∃ t, exec (.retrain r n) s = .next t ∧ t.linkState n = 1 ∧ (t.nvl.at n).retrain = true ∧ s.alters [] [] [.nvl, .locks] t) ∧
    (s.linkState n = 0 ∨ s.linkState n = 2 → ∃ t, exec (.retrain r n) s = .next t ∧ s.alters [] [] [.locks] t) ∧
    (s.linkState n = 3 → ∃ t, exec (.rollReq r n) s = .next t ∧ (t.nvlTx.at n).rollReq = true ∧ s.alters [] [] [.nvlTx, .locks] t) ∧
    (s.linkState n ≠ 3 → ∃ t, exec (.rollReq r n) s = .next t ∧ s.alters [] [] [.locks] t) ∧
    (∀ mode : Fin 4, mode.val ≠ s.fld (R1 .NVL_CFG n) F.NVL_CFG_FEC_MODE →
      ∃ t, exec (.nvlFecModeWrite r n mode) s = .next t ∧ t.fld (R1 .NVL_CFG n) F.NVL_CFG_FEC_MODE = mode ∧
        t.flag (R1 .NVL_STAT n) F.NVL_STAT_FEC_ON = (mode = 1 || mode ≠ 2 && s.laneRate n = 1) ∧
        t.linkState n = (if s.linkState n = 0 then 0 else 1) ∧ (s.linkState n = 3 → t.flag (R1 .NVL_EVT n) F.NVL_EVT_DOWN = true) ∧
        s.alters [R1 .NVL_CFG n, R1 .NVL_STAT n, R1 .NVL_EVT n] absentRegs ([.nvl, .locks] ++ absentParts) t) ∧
    (∀ mode : Fin 4, mode.val = s.fld (R1 .NVL_CFG n) F.NVL_CFG_FEC_MODE →
      ∃ t, exec (.nvlFecModeWrite r n mode) s = .next t ∧ s.alters [] [] [.locks] t)) ∧
  (∀ (n : Fin 512) (m₀ m₁ m₂ : BitVec 56) (b₀ b₁ b₂ : Nat) (s : State), ctrlMsg m₀ = some (4, 0, b₀) → ctrlMsg m₁ = some (4, 1, b₁) →
    ctrlMsg m₂ = some (4, 2, b₂) → s.laneProto n = 1 → s.flag (R1 .NVL_STAT n) F.NVL_STAT_BLOCK_LOCK = true → s.linkState n = 3 →
    ∃ t, exec (.rollCall n m₀ m₁ m₂) s = .next t ∧ t.flag (R1 .NVL_PARTNER0 n) F.NVL_PARTNER0_VALID = true ∧
      t.fld (R1 .NVL_PARTNER0 n) F.NVL_PARTNER0_MEMBER = b₀ / 2 ^ 36 ∧ t.fld (R1 .NVL_PARTNER3 n) F.NVL_PARTNER3_GEN = b₀ / 2 ^ 28 % 256 ∧
      t.fld (R1 .NVL_PARTNER3 n) F.NVL_PARTNER3_SLOT_COUNT = b₀ / 2 ^ 16 % 4096 ∧ t.fld (R1 .NVL_PARTNER0 n) F.NVL_PARTNER0_CAPS = b₀ % 65536 ∧
      (t.rd (R1 .NVL_PARTNER2 n)).toNat = b₁ / 256 ∧ (t.rd (R1 .NVL_PARTNER1 n)).toNat = b₂ / 256 ∧
      t.fld (R1 .NVL_PARTNER0 n) F.NVL_PARTNER0_PORT = b₁ % 256 + b₂ / 128 % 2 * 256 ∧ t.fld (R1 .NVL_PARTNER0 n) F.NVL_PARTNER0_BANK = b₂ / 64 % 2 ∧
      (t.nvl.at n).reportAt = s.tick ∧
      (s.flag (R1 .NVL_PARTNER0 n) F.NVL_PARTNER0_VALID = false → t.flag (R1 .NVL_EVT n) F.NVL_EVT_APPEAR = true ∧
        (b₂ / 64 % 2 ≠ (laneBank n).idx → t.flag (R1 .NVL_EVT n) F.NVL_EVT_BANK_MISMATCH = true)) ∧
      (s.flag (R1 .NVL_PARTNER0 n) F.NVL_PARTNER0_VALID = true →
        (∃ x ∈ [RegName.NVL_PARTNER0, .NVL_PARTNER1, .NVL_PARTNER2, .NVL_PARTNER3], t.rd (R1 x n) ≠ s.rd (R1 x n)) →
        t.flag (R1 .NVL_EVT n) F.NVL_EVT_CHANGE = true ∧ (b₂ / 64 % 2 ≠ (laneBank n).idx → t.flag (R1 .NVL_EVT n) F.NVL_EVT_BANK_MISMATCH = true)) ∧
      s.alters [R1 .NVL_PARTNER0 n, R1 .NVL_PARTNER1 n, R1 .NVL_PARTNER2 n, R1 .NVL_PARTNER3 n, R1 .NVL_EVT n] [.EVT_STATUS] [.regs, .fired, .nvl] t) ∧
  (∀ (n : Fin 512) (s : State), s.flag (R1 .NVL_PARTNER0 n) F.NVL_PARTNER0_VALID = true →
    (s.superframesSince n 256 (s.nvl.at n).reportAt = true →
      ∃ t, exec (.gone n) s = .next t ∧ t.flag (R1 .NVL_EVT n) F.NVL_EVT_GONE = true ∧
        t.rd (R1 .NVL_PARTNER0 n) = putF (s.rd (R1 .NVL_PARTNER0 n)) F.NVL_PARTNER0_VALID 0 ∧
        s.alters [R1 .NVL_PARTNER0 n, R1 .NVL_EVT n] [.EVT_STATUS] [.regs, .fired] t) ∧
    (s.superframesSince n 256 (s.nvl.at n).reportAt = false → exec (.gone n) s = .next s)) ∧
  (∀ (n : Fin 512) (s : State), s.flag (R1 .NVL_PARTNER0 n) F.NVL_PARTNER0_VALID = false → exec (.gone n) s = .next s)

/-- CRC blocks, codewords, alarms, lane data and peer gaps are recorded as the spec says; bypass words go on whatever the Sides do (R234, R237,
R240, R246, R249, R250, R253, R254, R259). -/
def Obligations.NervorJudgementsMessagesAndBypass : Prop :=
  (∀ (n : Fin 512) (p : BitVec 56) (cells : List NvlCell) (unknown : Nat) (s : State), s.laneProto n = 1 →
    s.flag (R1 .NVL_STAT n) F.NVL_STAT_SF_LOCK = true →
    ∃ t, exec (.nvlCrcBlock n p cells unknown) s = .next t ∧
      (∀ c < 4, c < s.fld (R1 .NVL_STAT n) F.NVL_STAT_CHANNELS → t.fld (R1 .NVL_CRC_ERR n) (crcErrField c) =
        min 255 (s.fld (R1 .NVL_CRC_ERR n) (crcErrField c) + if channelGood p (s.fld (R1 .NVL_STAT n) F.NVL_STAT_CHANNELS) c cells then 0 else 1)) ∧
      ((∃ c < s.fld (R1 .NVL_STAT n) F.NVL_STAT_CHANNELS, channelGood p (s.fld (R1 .NVL_STAT n) F.NVL_STAT_CHANNELS) c cells = false) →
        t.flag (R1 .NVL_EVT n) F.NVL_EVT_CRC_ERR = true) ∧
      t.fld (R1 .NVL_HDR_ERR n) F.NVL_HDR_ERR_HDR =
        min 65535 (s.fld (R1 .NVL_HDR_ERR n) F.NVL_HDR_ERR_HDR + ((cells.filter fun x => x.hdr = 0 || x.hdr = 3).length + unknown)) ∧
      (0 < unknown → t.flag (R1 .NVL_EVT n) F.NVL_EVT_CTRL_ERR = true) ∧
      (t.nvl.at n).anyCell = ((s.nvl.at n).anyCell || !cells.isEmpty) ∧
      (t.nvl.at n).allGap = ((s.nvl.at n).allGap && cells.all fun x => decide (x.hdr = 2) && x.payload.getLsbD 55) ∧
      (t.nvl.at n).anyData = ((s.nvl.at n).anyData || cells.any fun x => x.hdr = 1) ∧
      s.alters [R1 .NVL_CRC_ERR n, R1 .NVL_HDR_ERR n, R1 .NVL_STAT n, R1 .NVL_EVT n] [.EVT_STATUS, .XPT_IN_MSTAT] [.regs, .fired, .nvl, .nvlTx, .inRx] t) ∧
  (∀ (n : Fin 512) (p : BitVec 56) (cells : List NvlCell) (unknown c x : Nat) (i : InPlan) (s : State), s.laneProto n = 1 →
    s.flag (R1 .NVL_STAT n) F.NVL_STAT_SF_LOCK = true → s.inPlan = [(x, i)] → i.slots = 1 → i.pos (laneBank n) = some (.nervor n c) →
    s.posUsable (laneBank n) (.nervor n c) = true → (s.copyRx x (laneBank n)).present = true →
    ∃ t, exec (.nvlCrcBlock n p cells unknown) s = .next t ∧
      (t.copyRx x (laneBank n)).rx = (s.copyRx x (laneBank n)).rx ++
        (s.cellWords (channelGood p (s.fld (R1 .NVL_STAT n) F.NVL_STAT_CHANNELS) c cells)
          (channelCells (s.fld (R1 .NVL_STAT n) F.NVL_STAT_CHANNELS) c cells)).filter fun y => slotTag y.w ≠ 3) ∧
  (∀ (n : Fin 512) (p : BitVec 56) (cells : List NvlCell) (unknown c d i l k : Nat) (o : OutPlan) (s : State), s.laneProto n = 1 →
    s.flag (R1 .NVL_STAT n) F.NVL_STAT_SF_LOCK = true → c < s.fld (R1 .NVL_STAT n) F.NVL_STAT_CHANNELS →
    channelGood p (s.fld (R1 .NVL_STAT n) F.NVL_STAT_CHANNELS) c cells = false → (d, o) ∈ s.outPlan → o.bypass = some i →
    o.pos (laneBank n) = some (.nervor l k) → (s.inPlan.at i).pos (laneBank n) = some (.nervor n c) → k < (s.nvlTx.at l).poison.length →
    ∃ t, exec (.nvlCrcBlock n p cells unknown) s = .next t ∧ (t.nvlTx.at l).poison[k]? = some true) ∧
  (∀ (n : Fin 512) (p : BitVec 56) (cells : List NvlCell) (unknown : Nat) (s : State),
    s.laneProto n ≠ 1 ∨ s.flag (R1 .NVL_STAT n) F.NVL_STAT_SF_LOCK = false → exec (.nvlCrcBlock n p cells unknown) s = .next s) ∧
  (∀ (n : Fin 512) (e : Nat) (s : State), s.laneProto n = 1 → s.flag (R1 .NVL_STAT n) F.NVL_STAT_FEC_ON = true →
    (e ≤ 7 → ∃ t, exec (.nvlCodeword n e) s = .next t ∧ t.rd (R1 .NVL_FEC_CORR n) = s.rd (R1 .NVL_FEC_CORR n) + w32 e ∧
      s.alters [R1 .NVL_FEC_CORR n] [] [.regs, .nvl] t) ∧
    (7 < e → ∃ t, exec (.nvlCodeword n e) s = .next t ∧ t.rd (R1 .NVL_FEC_UNCORR n) = s.rd (R1 .NVL_FEC_UNCORR n) + 1 ∧
      t.flag (R1 .NVL_EVT n) F.NVL_EVT_UNCORR = true ∧ s.alters [R1 .NVL_FEC_UNCORR n, R1 .NVL_EVT n] [.EVT_STATUS] [.regs, .fired, .nvl] t)) ∧
  (∀ (n : Fin 512) (e : Nat) (s : State), s.laneProto n ≠ 1 ∨ s.flag (R1 .NVL_STAT n) F.NVL_STAT_FEC_ON = false → exec (.nvlCodeword n e) s = .next s) ∧
  (∀ (n : Fin 512) (m : BitVec 56) (part body : Nat) (s : State), s.laneProto n = 1 → s.flag (R1 .NVL_STAT n) F.NVL_STAT_BLOCK_LOCK = true →
    (ctrlMsg m = some (2, part, body) → ∃ t, exec (.alarm n m) s = .next t ∧ t.fld (R1 .NVL_STAT n) F.NVL_STAT_REMOTE_ALARM = body / 2 ^ 35 ∧
      (∀ i < 5, (body / 2 ^ 35).testBit i = true → (s.fld (R1 .NVL_STAT n) F.NVL_STAT_REMOTE_ALARM).testBit i = false →
        t.flag (R1 .NVL_EVT n) F.NVL_EVT_REMOTE_ALARM = true) ∧
      s.alters [R1 .NVL_STAT n, R1 .NVL_EVT n] [.EVT_STATUS] [.regs, .fired] t) ∧
    (ctrlMsg m = some (3, part, body) → ∃ t, exec (.laneData n m) s = .next t ∧ t.fld (R1 .NVL_REMOTE n) F.NVL_REMOTE_EYE = body / 2 ^ 30 ∧
      t.fld (R1 .NVL_REMOTE n) F.NVL_REMOTE_CORR = body / 2 ^ 20 % 1024 ∧ t.fld (R1 .NVL_REMOTE n) F.NVL_REMOTE_CRC = body / 2 ^ 12 % 256 ∧
      s.alters [R1 .NVL_REMOTE n] [] [.regs] t)) ∧
  (∀ (n : Fin 512) (s : State), s.laneProto n = 1 → s.flag (R1 .NVL_STAT n) F.NVL_STAT_SF_LOCK = true →
    ∃ t, exec (.peerGap n) s = .next t ∧
      t.flag (R1 .NVL_STAT n) F.NVL_STAT_PEER_GAP = (if (s.nvl.at n).anyCell && (s.nvl.at n).allGap then true
        else if (s.nvl.at n).anyData then false else s.flag (R1 .NVL_STAT n) F.NVL_STAT_PEER_GAP) ∧
      ((s.nvl.at n).anyCell = true → (s.nvl.at n).allGap = true → s.flag (R1 .NVL_STAT n) F.NVL_STAT_PEER_GAP = false →
        t.flag (R1 .NVL_EVT n) F.NVL_EVT_PEER_GAP = true) ∧
      ((s.nvl.at n).anyCell = false ∨ (s.nvl.at n).allGap = false ∨ s.flag (R1 .NVL_STAT n) F.NVL_STAT_PEER_GAP = true →
        t.rd (R1 .NVL_EVT n) = s.rd (R1 .NVL_EVT n)) ∧
      (t.nvl.at n).anyCell = false ∧ (t.nvl.at n).allGap = true ∧ (t.nvl.at n).anyData = false ∧
      s.alters [R1 .NVL_STAT n, R1 .NVL_EVT n] [.EVT_STATUS] [.regs, .fired, .nvl] t) ∧
  (∀ (n : Fin 512) (s : State), s.laneProto n ≠ 1 ∨ s.flag (R1 .NVL_STAT n) F.NVL_STAT_SF_LOCK = false → exec (.peerGap n) s = .next s) ∧
  (∀ (d : Fin 1024) (b : Bank) (x y : W32) (i l c : Nat) (s : State), (s.outPlan.at d).bypass = some i →
    (s.outPlan.at d).pos b = some (.nervor l c) → ((s.inPlan.at i).pos b).any (s.posUsable b) = true → s.aoReset = false →
    (s.bypassQ.at (4 * l + c)).length < 8 →
    ∃ t, exec (.nvlBypassForward d b x y) s = .next t ∧ t.bypassQ.at (4 * l + c) = s.bypassQ.at (4 * l + c) ++ [(x, y)] ∧
      (∀ k, k ≠ 4 * l + c → t.bypassQ.at k = s.bypassQ.at k) ∧ s.alters [] [] [.bypassQ] t) ∧
  (∀ (d : Fin 1024) (b : Bank) (x y : W32) (s : State), (s.outPlan.at d).bypass = none ∨ s.aoReset = true →
    exec (.nvlBypassForward d b x y) s = .next s)

/-- An SDI lane reports rate, raster lock, format, line and packet faults, converts only after a whole frame of one format, and sends rasters
(R263, R265, R266, R267, R268, R269, R270, R272, R273, R274, R278, R280). -/
def Obligations.SdiLanesLockJudgeAndSend : Prop :=
  (∀ (n : Fin 512) (s : State), s.laneProto n = 2 → s.laneReceives n = true → s.flag (R1 .SDI_STAT n) F.SDI_STAT_RASTER_LOCK = false →
    ∃ t, exec (.sdiRasterLock n) s = .next t ∧ t.flag (R1 .SDI_STAT n) F.SDI_STAT_RASTER_LOCK = true ∧ t.flag (R1 .SDI_EVT n) F.SDI_EVT_LOCK = true ∧
      (∀ m ∈ s.sdiLanes n, (t.sdi.at m).conv = false) ∧ s.alters [R1 .SDI_STAT n, R1 .SDI_EVT n] [.EVT_STATUS] [.regs, .fired, .sdi] t) ∧
  (∀ (n : Fin 512) (s : State), s.flag (R1 .SDI_STAT n) F.SDI_STAT_RASTER_LOCK = true →
    exec (.sdiRasterLock n) s = .next s ∧
    ∃ t, exec (.sdiRasterUnlock n) s = .next t ∧ t.flag (R1 .SDI_STAT n) F.SDI_STAT_RASTER_LOCK = false ∧ t.flag (R1 .SDI_EVT n) F.SDI_EVT_UNLOCK = true ∧
      (∀ m ∈ s.sdiLanes n, (t.sdi.at m).conv = false) ∧ s.alters [R1 .SDI_STAT n, R1 .SDI_EVT n] [.EVT_STATUS] [.regs, .fired, .sdi] t) ∧
  (∀ (n : Fin 512) (st f : Fmt) (lb : Bool) (vp : Option (W32 × Fmt)) (ltc vitc : Option (BitVec 27)) (s : State), s.laneProto n = 2 →
    s.flag (R1 .SDI_STAT n) F.SDI_STAT_RASTER_LOCK = true →
    (∃ w, vp = some (w, f) ∧ narrow f.raster = narrow st.raster ∧ f.rate = st.rate ∧ f.il = st.il ∧ f.seg = st.seg ∧ s.sdiCarries n f = true) ∨
      (f = s.derivedFmt n st ∧ ∀ w g, vp = some (w, g) → s.sdiCarries n g = false ∨ g.rate ≠ st.rate ∨ g.il ≠ st.il) →
    f.code < 16384 →
    ∃ t, exec (.sdiFrame n st lb vp ltc vitc) s = .next t ∧
      t.fld (R1 .SDI_STAT n) F.SDI_STAT_FORMAT = f.code ∧ t.flag (R1 .SDI_STAT n) F.SDI_STAT_INTERLACED = f.il ∧
      t.flag (R1 .SDI_STAT n) F.SDI_STAT_SEGMENTED = f.seg ∧ t.flag (R1 .SDI_STAT n) F.SDI_STAT_LEVEL_B = lb ∧
      (vp = none → t.flag (R1 .SDI_EVT n) F.SDI_EVT_VPID_MISSING = true ∧ t.flag (R1 .SDI_STAT n) F.SDI_STAT_VPID_OK = false) ∧
      (∀ w g, vp = some (w, g) → t.rd (R1 .SDI_VPID n) = w ∧
        (t.flag (R1 .SDI_STAT n) F.SDI_STAT_VPID_OK = false → t.flag (R1 .SDI_EVT n) F.SDI_EVT_VPID_CONFLICT = true)) ∧
      (∀ p, (s.sdi.at n).prev = some p → p ≠ f → t.flag (R1 .SDI_EVT n) F.SDI_EVT_FMT = true) ∧
      (t.sdi.at n).prev = some f ∧ (t.sdi.at n).tag = (s.sdi.at n).tag ∧ (t.sdi.at n).anc = [] ∧ (t.sdi.at n).conv = decide ((s.sdi.at n).prev = some f ∧ f.code ≠ 0) ∧
      s.alters [R1 .SDI_STAT n, R1 .SDI_EVT n, R1 .SDI_TC n, R1 .SDI_VPID n] [.EVT_STATUS] [.regs, .fired, .sdi] t) ∧
  (∀ (n : Fin 512) (line count : Nat) (ok : Bool) (v : List (BitVec 16)) (ago : Nat) (s : State), s.laneProto n = 2 →
    s.flag (R1 .SDI_STAT n) F.SDI_STAT_RASTER_LOCK = true →
    ∃ t, exec (.sdiLine n line count ok v ago) s = .next t ∧ (line ≠ count → t.flag (R1 .SDI_EVT n) F.SDI_EVT_LN_ERR = true) ∧
      t.rd (R1 .SDI_CRC_ERR n) = s.rd (R1 .SDI_CRC_ERR n) + (if ok then 0 else 1) ∧ (ok = false → t.flag (R1 .SDI_EVT n) F.SDI_EVT_CRC_ERR = true) ∧
      (s.sdiFirst n = n → (t.sdi.at n).tag = (if count = 1 ∧ (s.sdi.at n).conv = true then ((s.sdi.at n).tag + 1) % 256 else (s.sdi.at n).tag)) ∧
      (s.sdiFirst n ≠ n → (t.sdi.at (s.sdiFirst n)).spoil = ((s.sdi.at (s.sdiFirst n)).spoil || !ok)) ∧
      s.alters [R1 .SDI_CRC_ERR n, R1 .SDI_EVT n] [.EVT_STATUS, .XPT_IN_MSTAT] [.regs, .fired, .sdi, .inRx] t) ∧
  (∀ (n : Fin 512) (line count : Nat) (ok : Bool) (v : List (BitVec 16)) (ago x : Nat) (i : InPlan) (f : Fmt) (s : State), s.laneProto n = 2 →
    s.flag (R1 .SDI_STAT n) F.SDI_STAT_RASTER_LOCK = true → s.flag (R1 .LANE_CFG n) F.LANE_CFG_PAIR = false → s.laneReceives n = true →
    s.inPlan = [(x, i)] → i.slots = 1 → i.pos (laneBank n) = some (.sdi n) → (s.copyRx x (laneBank n)).present = true →
    (s.sdi.at n).conv = true → (s.sdi.at n).prev = some f → 1 < count →
    ∃ t, exec (.sdiLine n line count ok v ago) s = .next t ∧ (t.copyRx x (laneBank n)).rx = (s.copyRx x (laneBank n)).rx ++
      (s.arriving ago (!ok || (s.sdi.at n).spoil) ((s.sdi.at n).lineWords n f line count v)).filter fun y => slotTag y.w ≠ 3) ∧
  (∀ (n : Fin 512) (hz ch : Bool) (pos : Nat) (ws : List (BitVec 10)) (s : State), s.laneProto n = 2 → s.flag (R1 .SDI_STAT n) F.SDI_STAT_RASTER_LOCK = true →
    (ancSumOk (ws.map (·.toNat)) = true → ∃ t, exec (.sdiAncPacket n hz ch pos ws) s = .next t ∧
      (t.sdi.at (s.sdiFirst n)).anc = (s.sdi.at (s.sdiFirst n)).anc ++
        (if Config.isPayloadId (ws.map (·.toNat)) then [] else [(hz, pos, ch, ws.map (·.toNat))]) ∧ s.alters [] [] [.sdi] t) ∧
    (ancSumOk (ws.map (·.toNat)) = false → ∃ t, exec (.sdiAncPacket n hz ch pos ws) s = .next t ∧ t.flag (R1 .SDI_EVT n) F.SDI_EVT_ANC_CSUM = true ∧
      t.fld (R1 .SDI_ANC_ERR n) F.SDI_ANC_ERR_RX_CSUM = min 65535 (s.fld (R1 .SDI_ANC_ERR n) F.SDI_ANC_ERR_RX_CSUM + 1) ∧
      s.alters [R1 .SDI_ANC_ERR n, R1 .SDI_EVT n] [.EVT_STATUS] [.regs, .fired] t)) ∧
  (∀ (n : Fin 512) (line count : Nat) (ok hz ch : Bool) (v : List (BitVec 16)) (ago pos : Nat) (ws : List (BitVec 10)) (s : State),
    s.flag (R1 .SDI_STAT n) F.SDI_STAT_RASTER_LOCK = false →
    exec (.sdiRasterUnlock n) s = .next s ∧ exec (.sdiLine n line count ok v ago) s = .next s ∧ exec (.sdiAncPacket n hz ch pos ws) s = .next s) ∧
  (∀ (n : Fin 512) (rate : Fin 11) (s : State), s.laneProto n = 2 → rate = 0 ∨ (rate.val + 4) % 5 + 1 ≤ s.sdiPlanned n →
    s.fld (R1 .SDI_STAT n) F.SDI_STAT_RATE ≠ rate →
    ∃ t, exec (.sdiRateDetect n rate) s = .next t ∧ t.fld (R1 .SDI_STAT n) F.SDI_STAT_RATE = rate ∧ t.flag (R1 .SDI_EVT n) F.SDI_EVT_RATE = true ∧
      s.alters [R1 .SDI_STAT n, R1 .SDI_EVT n] [.EVT_STATUS] [.regs, .fired] t) ∧
  (∀ (n : Fin 512) (s : State), s.laneProto n = 2 → s.flag (R1 .LANE_CFG n) F.LANE_CFG_PAIR = true →
    ∃ t, exec (.linkSkew n) s = .next t ∧ t.flag (R1 .SDI_EVT n) F.SDI_EVT_LINK_SKEW = true ∧ (∀ m ∈ s.sdiLanes n, (t.sdi.at m).conv = false) ∧
      s.alters [R1 .SDI_EVT n] [.EVT_STATUS] [.regs, .fired, .sdi] t) ∧
  (∀ (n : Fin 512) (s : State), s.flag (R1 .LANE_CFG n) F.LANE_CFG_PAIR = false → exec (.linkSkew n) s = .next s) ∧
  (∀ (n : Fin 512) (p : Nat × OutPlan) (s : State), s.laneProto n = 2 → s.transmitting n = true → (s.laneOutputs n).head? = some p →
    ∃ t, exec (.sdiTxFrame n) s = .next t ∧
      t.out = s.out ++ [.sdiRaster n (lowOf p) (s.outPlan.at (lowOf p)).fmt.code
        (s.flag (R1 .SDI_CFG n) F.SDI_CFG_TX_LEVEL_B && decide (sdiInterface (s.outPlan.at (lowOf p)).fmt = 2) && decide ((s.outPlan.at (lowOf p)).fmt.sampling = 0))
        (s.flag (R1 .SDI_CFG n) F.SDI_CFG_VPID_INS)] ∧
      (t.sluices.at n).frame = some (s.outFrameAt (lowOf p) (s.outs.at (lowOf p)) s.cadTime) ∧ (t.sluices.at n).row = 1 ∧ (t.sluices.at n).pair = 0 ∧
      (t.sluices.at n).cfg = s.rd (R1 .SDI_CFG n) ∧ s.alters [] [] [.out, .sluices] t) ∧
  (∀ (n : Fin 512) (s : State), s.transmitting n = false → exec (.sdiTxFrame n) s = .next s) ∧
  (∀ (n : Fin 512) (fa fb : UnitFault) (k d : Nat) (f : Int) (x : Side) (s p : State), p = s.openInterval n → s.transmitting n = true → s.inTest n = false →
    p.laneProto n = 2 → p.holder = some x → (p.laneOutputs n).head?.map lowOf = some d → (p.sluices.at n).frame = some f → (p.sluices.at n).pair = 0 →
    ∃ t, exec (.sluiceUnit n fa fb k) s = .next t ∧
      t.fld (R1 .SDI_ANC_ERR n) F.SDI_ANC_ERR_TX_DROP = min 65535 (p.fld (R1 .SDI_ANC_ERR n) F.SDI_ANC_ERR_TX_DROP +
        (p.sdiRow x n d (p.sluices.at n).cfg f.toNat (p.sluices.at n).row).2) ∧
      (0 < (p.sdiRow x n d (p.sluices.at n).cfg f.toNat (p.sluices.at n).row).2 → t.flag (R1 .SDI_EVT n) F.SDI_EVT_ANC_DROP = true))

/-- A port counts and sorts what it receives, its owner reads the control queue word by word, PAUSE and link changes act as stated (R283, R284,
R285, R286, R287, R291, R304, R305, R306, R311). -/
def Obligations.EthernetPortsReceiveCountAndPause : Prop :=
  (∀ (i : Fin 130) (bs : List Byte) (inv : Bool) (frac : Fin 262144) (corr uncorr : Nat) (s : State), i.val < 128 → s.portPresent i = false ∨ s.portUp i = false →
    exec (.ethFrameReceive i bs inv frac corr uncorr) s = .next s) ∧
  (∀ (i : Fin 130) (bs : List Byte) (frac : Fin 262144) (corr uncorr : Nat) (s : State), i.val < 128 → s.portPresent i = true → s.portUp i = true →
    (∃ t, exec (.ethFrameReceive i bs true frac corr uncorr) s = .next t ∧ (t.macs.at i).cnt.at 0 = ((s.macs.at i).cnt.at 0 + bs.length) % 2 ^ 48 ∧
      (t.macs.at i).cnt.at 25 = ((s.macs.at i).cnt.at 25 + 1) % 2 ^ 32 ∧
      (s.fld (R1 .ETH_PORT_STAT i) F.ETH_PORT_STAT_FEC ≠ 0 → (t.macs.at i).cnt.at 30 = ((s.macs.at i).cnt.at 30 + corr) % 2 ^ 32 ∧
        (t.macs.at i).cnt.at 31 = ((s.macs.at i).cnt.at 31 + uncorr) % 2 ^ 32) ∧
      (s.fld (R1 .ETH_PORT_STAT i) F.ETH_PORT_STAT_FEC = 0 → (t.macs.at i).cnt.at 30 = (s.macs.at i).cnt.at 30 ∧ (t.macs.at i).cnt.at 31 = (s.macs.at i).cnt.at 31) ∧
      s.alters [R1 .ETH_CNT_HALF0 i, R1 .ETH_PORT_EVT i] [.EVT_STATUS] [.regs, .fired, .macs] t) ∧
    (∀ len, len = bs.length - (if hasTag bs then 4 else 0) → len < 64 ∨ 9216 < len →
      ∃ t, exec (.ethFrameReceive i bs false frac corr uncorr) s = .next t ∧ (t.macs.at i).cnt.at 29 = ((s.macs.at i).cnt.at 29 + 1) % 2 ^ 32 ∧
        (t.macs.at i).cnt.at (if len < 64 then (if fcsOk bs then 21 else 22) else if fcsOk bs then 23 else 24) =
          ((s.macs.at i).cnt.at (if len < 64 then (if fcsOk bs then 21 else 22) else if fcsOk bs then 23 else 24) + 1) % 2 ^ 32 ∧
        s.alters [R1 .ETH_CNT_HALF0 i, R1 .ETH_PORT_EVT i] [.EVT_STATUS] [.regs, .fired, .macs] t) ∧
    (∀ len, len = bs.length - (if hasTag bs then 4 else 0) → 64 ≤ len → len ≤ 9216 →
      (fcsOk bs = false → s.flag (R1 .ETH_PORT_CFG i) F.ETH_PORT_CFG_DELIVER_BAD = false →
        ∃ t, exec (.ethFrameReceive i bs false frac corr uncorr) s = .next t ∧ (t.macs.at i).cnt.at 20 = ((s.macs.at i).cnt.at 20 + 1) % 2 ^ 32 ∧
          (t.macs.at i).crx = (s.macs.at i).crx ∧ s.alters [R1 .ETH_CNT_HALF0 i, R1 .ETH_PORT_EVT i] [.EVT_STATUS] [.regs, .fired, .macs] t) ∧
      (fcsOk bs = true → s.accepts i bs = true → etherType bs ≠ 0x8808 → isIpv4 bs = false →
        (s.crxAdmits i bs = false → ∃ t, exec (.ethFrameReceive i bs false frac corr uncorr) s = .next t ∧
          (t.macs.at i).cnt.at 6 = ((s.macs.at i).cnt.at 6 + 1) % 2 ^ 32 ∧ (t.macs.at i).cnt.at 28 = ((s.macs.at i).cnt.at 28 + 1) % 2 ^ 32 ∧
          (t.macs.at i).cnt.at 29 = ((s.macs.at i).cnt.at 29 + 1) % 2 ^ 32 ∧ (t.macs.at i).crx = (s.macs.at i).crx ∧
          s.alters [R1 .ETH_CNT_HALF0 i, R1 .ETH_CNT_HALF1 i, R1 .ETH_PORT_EVT i] [.EVT_STATUS] [.regs, .fired, .macs] t) ∧
        (s.crxAdmits i bs = true → ptpOff bs = none → crxUsed (s.macs.at i).crx + 4 + (bs.length - 4 + 3) / 4 ≤ crxWords →
          ∃ t w x y z, exec (.ethFrameReceive i bs false frac corr uncorr) s = .next t ∧
            (t.macs.at i).crx = (s.macs.at i).crx ++ [[w, x, y, z] ++ frameWords (bs.take (bs.length - 4))] ∧ w.toNat % 16384 = (bs.length - 4) % 16384 ∧
            (t.macs.at i).cnt.at 6 = ((s.macs.at i).cnt.at 6 + 1) % 2 ^ 32 ∧
            s.alters [R1 .ETH_CNT_HALF0 i, R1 .ETH_CNT_HALF1 i, R1 .ETH_PORT_EVT i, R1 .PTP_PORT_EVT i] [.EVT_STATUS] [.regs, .fired, .macs] t)))) ∧
  (∀ (i : Fin 130) (bs pl : List Byte) (frac : Fin 262144) (corr uncorr len f seq : Nat) (h : SeqTrack × Nat × Bool) (s : State), i.val < 128 →
    s.portPresent i = true → s.portUp i = true → len = bs.length - (if hasTag bs then 4 else 0) → 64 ≤ len → len ≤ 9216 → fcsOk bs = true →
    s.accepts i bs = true → etherType bs ≠ 0x8808 → isUdp bs = true → ipOk bs = true → s.classify i (ipDst bs) (ipSrc bs) (udpDst bs) = some f →
    s.engStarted 3 (f / 128) = true → pl = udpPayload bs → seq = (if s.rxfType f = 1 then be16 pl (rtpHead pl) * 65536 + be16 pl 2 else be16 pl 2) →
    h = ((s.rxFlows.at f).track (portBank i)).arrive (seqMod (s.rxfType f)) seq →
    ∃ t, exec (.ethFrameReceive i bs false frac corr uncorr) s = .next t ∧ (t.rxFlows.at f).track (portBank i) = h.1 ∧
      t.fld (R1 .ETH_RXF_LOST f) (if i.val < 64 then F.ETH_RXF_LOST_LOST_E else F.ETH_RXF_LOST_LOST_W) =
        min 65535 (s.fld (R1 .ETH_RXF_LOST f) (if i.val < 64 then F.ETH_RXF_LOST_LOST_E else F.ETH_RXF_LOST_LOST_W) + h.2.1) ∧
      (0 < h.2.1 → t.flag (R1 .ETH_RXF_EVT f) F.ETH_RXF_EVT_SEQ_GAP = true) ∧ (h.2.2 = true → t.flag (R1 .ETH_RXF_EVT f) F.ETH_RXF_EVT_LATE_PKT = true) ∧
      (udpOk bs = false → t.flag (R1 .ETH_RXF_EVT f) F.ETH_RXF_EVT_CSUM = true ∧ (t.macs.at i).cnt.at 27 = ((s.macs.at i).cnt.at 27 + 1) % 2 ^ 32) ∧
      (t.macs.at i).cnt.at 6 = ((s.macs.at i).cnt.at 6 + 1) % 2 ^ 32 ∧ (t.macs.at i).crx = (s.macs.at i).crx ∧
      s.touches [.ETH_CNT_HALF0, .ETH_PORT_EVT, .ETH_RXF_EVT, .ETH_RXF_LOST, .ETH_RXF_SKEW, .XPT_IN_MSTAT, .EVT_STATUS] [.regs, .fired, .macs, .rxFlows, .inRx, .audSrc] t) ∧
  (∀ (g : Fin 2) (i : Fin 130) (k : Fin 8) (bs : List Byte) (frac : Fin 262144) (corr uncorr : Nat) (s : State), i.val = 128 + g.val → s.portPresent i = true →
    fcsOk bs = true → s.wakeMatches g k bs = true →
    ∃ t, exec (.ethFrameReceive i bs false frac corr uncorr) s = .next t ∧ bitOf (t.rd (R1 .ETH_WAKE_HIT g)) k = true ∧
      t.flag (R1 .ETH_PORT_EVT i) F.ETH_PORT_EVT_WAKE = true ∧
      (s.fld { name := .ETH_WAKE_CTL, i := g, j := k } F.ETH_WAKE_CTL_ACTION = 2 → t.flag (R1 .ETH_MG_CFG g) F.ETH_MG_CFG_ENABLE = true ∧ t.hostParked = false) ∧
      s.touches [.ETH_CNT_HALF0, .ETH_CNT_HALF1, .ETH_CRX_SPOIL, .ETH_MG_CFG, .ETH_PORT_EVT, .ETH_PORT_STAT, .ETH_WAKE_HIT, .EVT_STATUS, .PTP_PORT_EVT]
        [.regs, .fired, .out, .macs, .rrp, .hostParked] t) ∧
  (∀ (r : Req) (i : Fin 130) (be : Fin 16) (s : State), s.granted r .lanes → s.holdsPort r i = true →
    (∀ a b l rest, (s.macs.at i).crx = (a :: b :: l) :: rest → ∃ t, exec (.ethCrxRead r i be) s = .next t ∧ t.lastRead.at r.num = bytesOf be a ∧
      (t.macs.at i).crx = (b :: l) :: rest ∧ (t.macs.at i).partly = true ∧ s.alters [] [] [.lastRead, .macs, .locks] t) ∧
    (∀ a rest, (s.macs.at i).crx = [a] :: rest → ∃ t, exec (.ethCrxRead r i be) s = .next t ∧ t.lastRead.at r.num = bytesOf be a ∧
      (t.macs.at i).crx = rest ∧ (t.macs.at i).partly = false ∧ s.alters [] [] [.lastRead, .macs, .locks] t) ∧
    ((s.macs.at i).crx = [] → ∃ t, exec (.ethCrxRead r i be) s = .next t ∧ t.lastRead.at r.num = 0 ∧ s.alters [] [] [.lastRead, .locks] t)) ∧
  (∀ (i : Fin 130) (q : Fin 65536) (s : State), s.portPresent i = true → s.portUp i = true →
    ∃ t, exec (.pauseReceive i q) s = .next t ∧ (t.macs.at i).cnt.at 10 = ((s.macs.at i).cnt.at 10 + 1) % 2 ^ 32 ∧
      (i.val < 128 ∨ s.flag (R1 .ETH_PORT_CFG i) F.ETH_PORT_CFG_PAUSE_EN = false → t.paused i = s.paused i) ∧
      (128 ≤ i.val → s.flag (R1 .ETH_PORT_CFG i) F.ETH_PORT_CFG_PAUSE_EN = true → t.paused i = decide (q ≠ 0) ∧
        (t.macs.at i).pauseEnd = if q = 0 then 0 else max s.tick (s.sendEnd i) + s.quantaTicks i q) ∧
      s.alters [R1 .ETH_CNT_HALF0 i, R1 .ETH_PORT_EVT i, R1 .ETH_PORT_STAT i] [.EVT_STATUS] [.regs, .fired, .macs] t) ∧
  (∀ (i : Fin 130) (s : State), s.paused i = true → (s.macs.at i).pauseEnd ≤ s.tick →
    ∃ t, exec (.pauseExpire i) s = .next t ∧ t.paused i = false ∧ s.alters [R1 .ETH_PORT_STAT i] [] [.regs] t) ∧
  (∀ (i : Fin 130) (s : State), s.paused i = false ∨ s.tick < (s.macs.at i).pauseEnd → exec (.pauseExpire i) s = .next s) ∧
  (∀ (i : Fin 130) (s : State), s.portPresent i = true →
    (s.portUp i = false → (s.portPlan.at i).lanes.all s.laneReceives = true → s.bankLost.contains (if i.val < 128 then portBank i else .E) = false →
      ∃ t, exec (.linkUp i) s = .next t ∧ t.portUp i = true ∧ t.flag (R1 .ETH_PORT_STAT i) F.ETH_PORT_STAT_LOCAL_FAULT = false ∧
        t.flag (R1 .ETH_PORT_STAT i) F.ETH_PORT_STAT_REMOTE_FAULT = false ∧ t.flag (R1 .ETH_PORT_EVT i) F.ETH_PORT_EVT_LINK_UP = true ∧
        s.alters [R1 .ETH_PORT_STAT i, R1 .ETH_PORT_EVT i] [.EVT_STATUS] [.regs, .fired] t) ∧
    (s.portUp i = true ∨ (s.portPlan.at i).lanes.all s.laneReceives = false ∨ s.bankLost.contains (if i.val < 128 then portBank i else .E) = true → exec (.linkUp i) s = .next s) ∧
    ∀ loc rem : Bool, ∃ t, exec (.linkDown i loc rem) s = .next t ∧ t.portUp i = false ∧ t.flag (R1 .ETH_PORT_STAT i) F.ETH_PORT_STAT_LOCAL_FAULT = loc ∧
      t.flag (R1 .ETH_PORT_STAT i) F.ETH_PORT_STAT_REMOTE_FAULT = rem ∧
      (s.portUp i = true → t.flag (R1 .ETH_PORT_EVT i) F.ETH_PORT_EVT_LINK_DOWN = true ∧
        ∀ x p r, (x, p) ∈ s.inPlan → (s.inPlan.at x).slots = 1 →
          (i.val < 64 → p.srcE = some (.flow r) → s.rxfPort .E r = i → ((t.inRx.at x).copy .E).present = false) ∧
          (64 ≤ i.val → i.val < 128 → p.srcW = some (.flow r) → s.rxfPort .W r = i → ((t.inRx.at x).copy .W).present = false)) ∧
      s.alters [R1 .ETH_PORT_STAT i, R1 .ETH_PORT_EVT i] absentRegs (.ports :: absentParts) t) ∧
  (∀ (r : Req) (i : Fin 130) (s : State), s.granted r .lanes → s.portPresent i = true →
    ∃ t, exec (.ethSnap r i) s = .next t ∧ (∀ k < 46, t.rd { name := .ETH_CNT, i := i, j := k, bank := r.num } = cntWord (s.macs.at i) k) ∧
      s.regsSame (fun k => k.name = .ETH_CNT ∧ k.i = i.val ∧ k.bank = r.num) t ∧ s.changesOnly [.regs, .locks] t)

/-- The earliest ready packet starts when it ends before the next control gap; control frames are written, queued and sent in queue order (R300,
R301, R303). -/
def Obligations.EthernetPacketsAndControlFramesLeaveInOrder : Prop :=
  (∀ (i : Fin 128) (s p : State), s.portPresent i = true → (s.macs.at i).busy ≤ s.tick * tickU → (s.macs.at i).gapEnd ≤ s.tick → p = s.buildPort i →
    s.changesOnly [.txFlows, .txBufs] p ∧
    (firstLaunch (p.launchable (portBank i) (p.portFlows i)) = none → exec (.packetLaunch i) s = .next p) ∧
    (∀ (l : Launch) (bs : List Byte) (dur : Nat), firstLaunch (p.launchable (portBank i) (p.portFlows i)) = some l →
      bs = p.launchBytes (p.holder.getD .A) i (portBank i) l → dur = p.wireTime i (bs.length + 4) →
      ((s.tick / s.ctrlPeriod i + 1) * s.ctrlPeriod i * tickU < s.tick * tickU + dur → exec (.packetLaunch i) s = .next p) ∧
      (s.tick * tickU + dur ≤ (s.tick / s.ctrlPeriod i + 1) * s.ctrlPeriod i * tickU → s.portUp i = true →
        (∀ n ∈ (s.portPlan.at i).lanes, s.flag (R1 .SLU_STAT n) F.SLU_STAT_GAP = false) →
        ∃ t, exec (.packetLaunch i) s = .next t ∧ t.out = s.out ++ [.packet i l.flow bs] ∧ (t.macs.at i).busy = s.tick * tickU + dur ∧
          (t.rd (R1 .ETH_TXF_MAXLATE l.flow)).toNat = satU 32 (max (s.rd (R1 .ETH_TXF_MAXLATE l.flow)).toNat ((s.cadTime - l.at_).toNat / nsU)) ∧
          t.rd (R1 .ETH_TXF_LATE l.flow) = s.rd (R1 .ETH_TXF_LATE l.flow) + (if usTicks * tickU < (s.cadTime - l.at_).toNat then 1 else 0) ∧
          (usTicks * tickU < (s.cadTime - l.at_).toNat → t.flag (R1 .ETH_PORT_EVT i) F.ETH_PORT_EVT_TX_LATE = true) ∧
          (2 < l.type → (t.txRuns.at (runIx l.flow (portBank i))).sent = (s.txRuns.at (runIx l.flow (portBank i))).sent + 1) ∧
          p.alters [R1 .ETH_TXF_LATE l.flow, R1 .ETH_TXF_MAXLATE l.flow, R1 .ETH_TXF_STAT l.flow, R1 .ETH_CNT_HALF0 i, R1 .ETH_CNT_HALF1 i,
            R1 .ETH_PORT_EVT i] [.EVT_STATUS] [.regs, .fired, .out, .ethQ, .txRuns, .txFlows, .txBufs, .macs] t) ∧
      (s.tick * tickU + dur ≤ (s.tick / s.ctrlPeriod i + 1) * s.ctrlPeriod i * tickU →
        s.portUp i = false ∨ (∃ n ∈ (s.portPlan.at i).lanes, s.flag (R1 .SLU_STAT n) F.SLU_STAT_GAP = true) →
        ∃ t, exec (.packetLaunch i) s = .next t ∧ (2 < l.type → (t.txRuns.at (runIx l.flow (portBank i))).sent = (s.txRuns.at (runIx l.flow (portBank i))).sent + 1) ∧
          p.alters [R1 .ETH_TXF_STAT l.flow] [] [.regs, .ethQ, .txRuns, .txFlows, .txBufs] t))) ∧
  (∀ (i : Fin 128) (s : State), s.portPresent i = false ∨ s.tick * tickU < (s.macs.at i).busy ∨
    s.tick < (s.macs.at i).gapEnd → exec (.packetLaunch i) s = .next s) ∧
  (∀ (i : Fin 128) (s : State), s.portPresent i = true → s.tick % s.ctrlPeriod i = 0 →
    ∃ t, exec (.controlGap i) s = .next t ∧ (t.macs.at i).gapEnd = s.tick + (1600 * 2 + s.macRate i - 1) / max 1 (s.macRate i) ∧
      s.changesOnly [.macs] t) ∧
  (∀ (i : Fin 128) (s : State), s.portPresent i = false ∨ s.tick % s.ctrlPeriod i ≠ 0 → exec (.controlGap i) s = .next s) ∧
  (∀ (r : Req) (i : Fin 130) (s : State), s.granted r .lanes → s.holdsPort r i = true → s.portPresent i = true →
    (∀ v : W32, ∃ t, exec (.ctxData r i v) s = .next t ∧
      (t.macs.at i).ctxOpen = (if (s.macs.at i).ctxOpen.length ≤ ctxWords then (s.macs.at i).ctxOpen ++ [v] else (s.macs.at i).ctxOpen) ∧
      s.alters [] [] [.macs, .locks] t) ∧
    (s.ctxBad i (s.macs.at i).ctxOpen = true → ∃ t, exec (.ctxCommit r i) s = .next t ∧ (t.macs.at i).ctxOpen = [] ∧ (t.macs.at i).ctx = (s.macs.at i).ctx ∧
      t.flag (R1 .ETH_PORT_EVT i) F.ETH_PORT_EVT_CTX_ERR = true ∧ s.alters [R1 .ETH_PORT_EVT i] [.EVT_STATUS] [.regs, .fired, .macs, .locks] t) ∧
    (s.ctxBad i (s.macs.at i).ctxOpen = false → ∃ t, exec (.ctxCommit r i) s = .next t ∧ (t.macs.at i).ctxOpen = [] ∧
      (t.macs.at i).ctx = (s.macs.at i).ctx ++ [w32 ((s.ports.at i).committed + 1) :: (s.macs.at i).ctxOpen] ∧
      (t.ports.at i).committed = (s.ports.at i).committed + 1 ∧ s.alters [] [] [.macs, .ports, .locks] t) ∧
    (∃ t, exec (.ctxAbort r i) s = .next t ∧ (t.macs.at i).ctxOpen = [] ∧ (t.macs.at i).ctx = (s.macs.at i).ctx ∧ s.alters [] [] [.macs, .locks] t)) ∧
  (∀ (i : Fin 130) (frac : Fin 262144) (ce : List W32) (rest : List (List W32)) (dur : Nat) (s : State), (s.macs.at i).ctx = ce :: rest →
    dur = s.wireTime i (((ce.drop 1).headD 0).toNat % 2 ^ 14 + 4) → s.portUp i = true → (s.macs.at i).busy ≤ s.tick * tickU →
    (if i.val < 128 then s.tick * tickU + dur ≤ (s.macs.at i).gapEnd * tickU ∧ s.tick < (s.macs.at i).gapEnd else s.paused i = false) →
    ((∀ t₀, ctxLaunch (ce.drop 1) = some t₀ → sext 64 (t₀ + 2 ^ 64 - s.tbWhole (ctxTb (ce.drop 1))) ≤ 0) →
      ∃ t bs, exec (.controlFrameSend i frac) s = .next t ∧ (t.macs.at i).ctx = rest ∧ t.out = s.out ++ [.frame i bs] ∧
        (t.macs.at i).busy = s.tick * tickU + dur ∧ (t.macs.at i).cnt.at 45 = ((s.macs.at i).cnt.at 45 + 1) % 2 ^ 32 ∧
        (bitOf ((ce.drop 1).headD 0) 19 = false → ptpOff (ctxBytes (ce.drop 1)) = none → bs = ctxBytes (ce.drop 1)) ∧
        (∀ t₀, ctxLaunch (ce.drop 1) = some t₀ → sext 64 (t₀ + 2 ^ 64 - s.tbWhole (ctxTb (ce.drop 1))) ≤ -4 →
          t.flag (R1 .ETH_PORT_EVT i) F.ETH_PORT_EVT_CTX_LATE = true) ∧
        s.alters [R1 .ETH_CNT_HALF0 i, R1 .ETH_CNT_HALF1 i, R1 .ETH_PORT_EVT i, R1 .PTP_PORT_EVT i, R1 .PTP_TXTS_SPOIL i] [.EVT_STATUS]
          [.regs, .fired, .out, .macs, .ports] t) ∧
    (∀ t₀, ctxLaunch (ce.drop 1) = some t₀ → 0 < sext 64 (t₀ + 2 ^ 64 - s.tbWhole (ctxTb (ce.drop 1))) → exec (.controlFrameSend i frac) s = .next s)) ∧
  (∀ (i : Fin 130) (frac : Fin 262144) (s : State), (s.macs.at i).ctx = [] ∨ s.portUp i = false → exec (.controlFrameSend i frac) s = .next s)

/-- A NOTIFY is sent, repeated, acknowledged or dropped as stated; flow table writes act unless they conflict, overfill or overbook (R293, R294,
R299, R310, R317, R318, R320). -/
def Obligations.NotifiesAndFlowTables : Prop :=
  (∀ (h : Fin 4) (s : State), (s.rrp.at h).gather ≠ [] → (s.rrp.at h).notify = none →
    (s.rrp.at h).since + 100 * usTicks ≤ s.tick ∨ 256 ≤ (s.rrp.at h).gather.length →
    ∃ t w, exec (.notifySend h) s = .next t ∧ (t.rrp.at h).notify = some ((s.rrp.at h).count, (s.rrp.at h).gather.take 256) ∧
      (t.rrp.at h).gather = (s.rrp.at h).gather.drop 256 ∧ (t.rrp.at h).retries = 0 ∧ (t.rrp.at h).sentAt = s.tick ∧
      (t.rrp.at h).count = ((s.rrp.at h).count + 1) % 256 ∧
      t.out = s.out ++ [.datagram h (s.fld (R1 .ETH_RRP_HOST h) F.ETH_RRP_HOST_NPORT) (w :: Config.notifyWord :: ((s.rrp.at h).gather.take 256).map w32)] ∧
      w.toNat / 2 ^ 24 = 0x15 ∧ w.toNat / 2 ^ 12 % 256 = (s.rrp.at h).count % 256 ∧ s.changesOnly [.out, .rrp] t) ∧
  (∀ (h : Fin 4) (s : State), (s.rrp.at h).gather = [] ∨ (s.rrp.at h).notify.isSome = true ∨
    s.tick < (s.rrp.at h).since + 100 * usTicks ∧ (s.rrp.at h).gather.length < 256 → exec (.notifySend h) s = .next s) ∧
  (∀ (h : Fin 4) (q : Nat) (es : List Nat) (s : State), (s.rrp.at h).notify = some (q, es) →
    (s.tick < (s.rrp.at h).sentAt + msTicks → exec (.notifyRetry h) s = .next s) ∧
    ((s.rrp.at h).sentAt + msTicks ≤ s.tick → (s.rrp.at h).retries < 16 →
      ∃ t, exec (.notifyRetry h) s = .next t ∧ s.sends t ∧ (s.sent t).length = 1 ∧ (t.rrp.at h).notify = some (q, es) ∧ (t.rrp.at h).retries = (s.rrp.at h).retries + 1 ∧
        (t.rrp.at h).sentAt = s.tick ∧ s.changesOnly [.out, .rrp] t) ∧
    ((s.rrp.at h).sentAt + msTicks ≤ s.tick → 16 ≤ (s.rrp.at h).retries →
      ∃ t, exec (.notifyRetry h) s = .next t ∧ (t.rrp.at h).notify = none ∧ t.flag (R1 .ETH_PORT_EVT (s.hostPort h)) F.ETH_PORT_EVT_NOTIFY_DROP = true ∧
        s.alters [R1 .ETH_PORT_EVT (s.hostPort h)] [.EVT_STATUS] [.regs, .fired, .rrp] t) ∧
    (∀ seq : Byte, ∃ t, exec (.notifyAck h seq) s = .next t ∧ (t.rrp.at h).notify = (if q = seq.toNat then none else some (q, es)) ∧ s.changesOnly [.rrp] t)) ∧
  (∀ (r : Req) (f : Fin 4096) (a : FlowAddr) (v : W32) (s : State), s.granted r .lanes → s.holdsRx r f = true →
    ((s.wr (R1 a.reg f) v).rxConflict f = true → ∃ t, exec (.flowAddrWrite r f a v) s = .next t ∧
      t.flag (R1 .ETH_RXF_EVT f) F.ETH_RXF_EVT_ADDR_CONFLICT = true ∧ s.alters [R1 .ETH_RXF_EVT f] [.EVT_STATUS] [.regs, .fired, .locks] t) ∧
    ((s.wr (R1 a.reg f) v).rxConflict f = false → ∃ t, exec (.flowAddrWrite r f a v) s = .next t ∧ t.rd (R1 a.reg f) = v ∧
      (∀ b, (s.wr (R1 a.reg f) v).rxKey b f ≠ s.rxKey b f → (t.rxFlows.at f).track b = {} ∧ (t.rxFlows.at f).conv b = {}) ∧ s.alters [R1 a.reg f] [] [.regs, .rxFlows, .locks] t)) ∧
  (∀ (r : Req) (f : Fin 4096) (v w : W32) (s : State), s.granted r .lanes → s.holdsRx r f = true →
    w = (s.rd (R1 .ETH_RXF_CFG f) &&& 0xFC01FFE7#32) ||| (v &&& 0x03FE0018#32) →
    ∃ t, exec (.flowEnableWrite r false f v) s = .next t ∧
      (if (s.wr (R1 .ETH_RXF_CFG f) w).rxBufferFits = false then
        t.flag (R1 .ETH_RXF_EVT f) F.ETH_RXF_EVT_NO_BUF = true ∧ s.alters [R1 .ETH_RXF_EVT f] [.EVT_STATUS] [.regs, .fired, .locks] t
      else if (s.wr (R1 .ETH_RXF_CFG f) w).rxConflict f = true then
        t.flag (R1 .ETH_RXF_EVT f) F.ETH_RXF_EVT_ADDR_CONFLICT = true ∧ s.alters [R1 .ETH_RXF_EVT f] [.EVT_STATUS] [.regs, .fired, .locks] t
      else t.rd (R1 .ETH_RXF_CFG f) = w ∧ s.alters [R1 .ETH_RXF_CFG f] [] [.regs, .locks] t)) ∧
  (∀ (r : Req) (f : Fin 4096) (v w : W32) (s : State), s.granted r .lanes → s.holdsTx r f = true →
    w = (s.rd (R1 .ETH_TXF_CFG f) &&& 0xFC01FFE7#32) ||| (v &&& 0x03FE0018#32) →
    ∃ t, exec (.flowEnableWrite r true f v) s = .next t ∧ t.fld (R1 .ETH_TXF_CFG f) F.ETH_TXF_CFG_TB = getF v F.ETH_TXF_CFG_TB ∧
      t.fld (R1 .ETH_TXF_CFG f) F.ETH_TXF_CFG_DSCP = getF v F.ETH_TXF_CFG_DSCP ∧ t.flag (R1 .ETH_TXF_CFG f) F.ETH_TXF_CFG_SENDER = (getF v F.ETH_TXF_CFG_SENDER != 0) ∧
      (∀ b on, on = (getF v (match b with | .E => F.ETH_TXF_CFG_EN_E | .W => F.ETH_TXF_CFG_EN_W) != 0) →
        (on = false → t.txfEn b f = false ∧ (s.txType f ≠ 1 → s.txType f ≠ 2 → (t.txRuns.at (runIx f b)).frame = none)) ∧
        (on = true → s.txfEn b f = true ∨ (s.wr (R1 .ETH_TXF_CFG f) w).portFits (s.txPort b f) = true → t.txfEn b f = true) ∧
        (on = true → s.txfEn b f = false → (s.wr (R1 .ETH_TXF_CFG f) w).portFits (s.txPort b f) = false →
          t.txfEn b f = false ∧ t.flag (R1 .ETH_PORT_EVT (s.txPort b f)) F.ETH_PORT_EVT_OVERBOOK = true)) ∧
      s.alters [R1 .ETH_TXF_CFG f, R1 .ETH_PORT_EVT (s.txPort .E f), R1 .ETH_PORT_EVT (s.txPort .W f)] [.EVT_STATUS] [.regs, .fired, .txRuns, .locks] t)

/-- Route and delay writes ask for a change at the next sample boundary; a boundary computes each index once and a crossing ends a search (R324,
R326, R331, R332, R334, R335, R337). -/
def Obligations.AudioMatrixRoutesChangesAndSamples : Prop :=
  (∀ (r : Req) (c : Fin 16384) (v : W32) (s : State), s.granted r .twin → s.holdsAudDst r c = true →
    (∃ t, exec (.audRouteChange r c v) s = .next t ∧ (∀ sd, s.live sd = true → t.rd (RS .AUD_ROUTE sd c) = v &&& 0xFFFF#32) ∧
      t.twin .AUD_ROUTE c = v &&& 0xFFFF#32 ∧
      (t.audDst.at c).want = some { src := if (s.audDst.at c).kind = 1 ∧ getF v F.AUD_ROUTE_MODE = 0 then s.followSource (s.routes.at (s.audDst.at c).owner).src (s.audDst.at c).index else getF v F.AUD_ROUTE_SOURCE, delay := s.tapOf c } ∧
      s.alters [RS .AUD_ROUTE .A c, RS .AUD_ROUTE .B c] [] [.regs, .twins, .audDst, .locks] t) ∧
    (∃ t, exec (.audDelayChange r c v) s = .next t ∧ (∀ sd, s.live sd = true → t.rd (RS .AUD_DELAY sd c) = v &&& 0x1FFFF#32) ∧
      t.twin .AUD_DELAY c = v &&& 0x1FFFF#32 ∧
      (t.audDst.at c).want = some { src := s.routedSource c, delay := min (v.toNat % 2 ^ 17) ((s.audDst.at c).delayMax * s.audRate / 1000) } ∧
      ((s.audDst.at c).delayMax * s.audRate / 1000 < v.toNat % 2 ^ 17 → ∀ sd, s.live sd = true → t.flag (RS .AUD_DST_EVT sd c) F.AUD_DST_EVT_DELAY_CLAMP = true) ∧
      s.alters [RS .AUD_DELAY .A c, RS .AUD_DELAY .B c, RS .AUD_DST_EVT .A c, RS .AUD_DST_EVT .B c] [.EVT_STATUS] [.regs, .fired, .twins, .audDst, .locks] t)) ∧
  (∀ s : State, s.audIndexNow < s.audNext → exec .sampleBoundary s = .next s) ∧
  (∀ s : State, s.audNext ≤ s.audIndexNow → s.audDst.Pairwise (fun a b => a.1 ≠ b.1) →
    ∃ t, exec .sampleBoundary s = .next t ∧ t.audNext = s.audNext + 1 ∧ (∀ sd, s.live sd = true → t.rd (RS .AUD_INDEX sd 0) = w32 s.audNext) ∧
      (∀ c x, (c, x) ∈ s.audDst → x.want = none → x.lost = false → x.rampUp = none → s.engStarted 2 (c / 1024) = true →
        (x.change = .steady → x.cur.delay ≤ s.audNext → (s.matrixSample x.cur.src (s.audNext - x.cur.delay)).isSome = true →
          (t.audDst.at c).hist = ((s.audNext, s.sigSample x.cur s.audNext) :: x.hist).take 8192 ∧ (t.audDst.at c).change = .steady ∧ (t.audDst.at c).cur = x.cur) ∧
        (∀ since g, x.change = .search since g → s.audNext < since + s.audTimeout → crossing since s.audNext x.prev (s.sigSample x.cur s.audNext) = true →
          g.delay ≤ s.audNext → (s.matrixSample g.src (s.audNext - g.delay)).isSome = true →
          (t.audDst.at c).hist = ((s.audNext, s.sigSample g s.audNext) :: x.hist).take 8192 ∧ (t.audDst.at c).change = .steady ∧ (t.audDst.at c).cur = g ∧
            ∀ sd, s.live sd = true → t.flag (RS .AUD_DST_EVT sd c) F.AUD_DST_EVT_CHANGED = true)) ∧
      s.touches [.AUD_DST_EVT, .AUD_INDEX, .AUD_SRC_ERR, .EVT_STATUS] [.regs, .fired, .audNext, .audTimes, .audSrc, .audDst] t) ∧
  (∀ (c : Fin 16384) (since : Nat) (g : Sig) (s : State), (s.audDst.at c).change = .search since g →
    (since + s.audTimeout ≤ s.audNext → ∃ t, exec (.changeTimeout c) s = .next t ∧ (t.audDst.at c).change = .ramp (since + s.audTimeout) g ∧
      (t.audDst.at c).cur = (s.audDst.at c).cur ∧ s.changesOnly [.audDst] t) ∧
    (s.audNext < since + s.audTimeout → exec (.changeTimeout c) s = .next s)) ∧
  (∀ (c : Fin 16384) (s : State), (s.audDst.at c).change = .steady → exec (.changeTimeout c) s = .next s) ∧
  (∀ (n : Fin 1024) (s : State), (s.audIn.at n).q = [] → exec (.deembedPacket n) s = .next s) ∧
  (∀ (n : Fin 1024) (p : AudPkt) (rest : List AudPkt) (s : State), (s.audIn.at n).q = p :: rest →
    (ancSumOk p.words = false → ∃ t, exec (.deembedPacket n) s = .next t ∧ (t.audIn.at n).q = rest ∧ s.alters [] [] [.audIn] t) ∧
    (ancSumOk p.words = true → s.audSrc.Pairwise (fun a b => a.1 < b.1) →
      ∃ t, exec (.deembedPacket n) s = .next t ∧ (t.audIn.at n).q = rest ∧
        (∀ x a, (x, a) ∈ s.audSrc → ∀ c < 4, a.kind = 1 → a.origin = n.val → a.index = 4 * p.group + c → a.last = none → a.samples = [] →
          (∀ b ∈ s.audSrc, b.2.kind = 1 → b.2.origin = n.val → b.2.index = a.index → b.1 = x) → s.audNext ≤ s.audIndexAt p.sofAt + p.j + s.delta x →
          (t.audSrc.at x).samples = [(s.audIndexAt p.sofAt + p.j, (Config.audioSamples p.words).getD c 0)]) ∧
        s.touches [.AUD_SRC_ERR] [.regs, .audSrc, .audIn] t))

/-- TDM ports arm, join one group at a trigger, number their frames from K without slipping, and answer clock faults as stated (R338, R341,
R342, R343, R339, R344, R345, R346, R355). -/
def Obligations.TdmPortsArmStartRunAndFault : Prop :=
  (∀ (r : Req) (p : Fin 16) (s : State), s.granted r .timing → s.holdsTdm r p = true →
    (∃ t, exec (.tdmArm r p) s = .next t ∧ t.tdmState p = 1 ∧ t.flag (R1 .TDM_STAT p) F.TDM_STAT_ALIGNED = false ∧
      (t.tdm.at p).cfg = s.tdmCfgIn (s.rd (R1 .TDM_CFG p)) ∧ (t.tdm.at p).start = none ∧ s.alters [R1 .TDM_STAT p] [] [.regs, .tdm, .locks] t) ∧
    (s.tdmState p ≠ 4 → ∃ t, exec (.tdmStop r p) s = .next t ∧ t.tdmState p = 0 ∧ (t.tdm.at p).start = none ∧
      s.alters [R1 .TDM_STAT p] [] [.regs, .tdm, .locks] t) ∧
    (s.tdmState p = 4 → ∃ t, exec (.tdmStop r p) s = .next t ∧ s.alters [] [] [.locks] t)) ∧
  (∀ (r : Req) (w : W32) (s : State), s.granted r .timing → s.holdsTrig r = true →
    (getF w F.TDM_TRIG_SOURCE = 0 ∨ getF w F.TDM_TRIG_SOURCE = 3 →
      ∃ t, exec (.tdmFire r w) s = .next t ∧ t.rd (R0 .TDM_TRIG) = w &&& 0x3FFF#32 ∧ t.trigArmed = false ∧
        (∀ p < 16, s.tdmState p = 1 → (s.tdm.at p).start = none → (t.tdm.at p).start = some (s.tdmFirstIndex s.tick) ∧ (t.tdm.at p).n = 0 ∧ t.rd (R1 .TDM_START p) = w32 (s.tdmFirstIndex s.tick)) ∧
        s.touches [.TDM_TRIG, .TDM_START] [.regs, .trigArmed, .trigSignal, .tdm, .locks] t) ∧
    (getF w F.TDM_TRIG_SOURCE = 1 ∨ getF w F.TDM_TRIG_SOURCE = 2 →
      ∃ t, exec (.tdmFire r w) s = .next t ∧ t.rd (R0 .TDM_TRIG) = w &&& 0x3FFF#32 ∧ t.trigArmed = true ∧ t.trigSignal = none ∧
        s.alters [R0 .TDM_TRIG] [] [.regs, .trigArmed, .trigSignal, .locks] t)) ∧
  (∀ (at_ : Nat) (s : State), s.trigArmed = true → s.trigSignal = some at_ → ∃ t, exec .tdmTrigger s = .next t ∧ t.trigArmed = false ∧
    (∀ p < 16, s.tdmState p = 1 → (s.tdm.at p).start = none → (t.tdm.at p).start = some (s.tdmFirstIndex at_) ∧ (t.tdm.at p).n = 0 ∧
      t.rd (R1 .TDM_START p) = w32 (s.tdmFirstIndex at_)) ∧
    s.touches [.TDM_START] [.regs, .trigArmed, .trigSignal, .tdm] t) ∧
  (∀ s : State, s.trigArmed = false ∨ s.trigSignal = none → exec .tdmTrigger s = .next s) ∧
  (∀ (p : Fin 16) (din : List Bool) (k : Nat) (s : State), s.tdmState p = 2 → (s.tdm.at p).start = some k →
    ∃ t, exec (.tdmFrameSync p din) s = .next t ∧
      t.out = s.out ++ [.tdmFrame p (k + (s.tdm.at p).n) ((if (s.tdm.at p).tail = [] then List.replicate (s.tdmOffset p) false else (s.tdm.at p).tail) ++
        ((s.tdmSamples p (k + (s.tdm.at p).n)).1.flatMap (s.tdmBits p)).take (s.tdmLen p - s.tdmOffset p))] ∧
      (s.tdmSamples p (k + (s.tdm.at p).n)).1.length = s.tdmSlots p ∧
      (t.tdm.at p).n = (s.tdm.at p).n + 1 ∧ (t.tdm.at p).start = some k ∧ t.rd (R1 .TDM_FRAME p) = w32 (s.tdm.at p).n ∧
      (s.tdmDriver = none ∨ s.audNext ≤ k + (s.tdm.at p).n → (∀ w ∈ (s.tdmSamples p (k + (s.tdm.at p).n)).1, w = invalidSilence) ∧
        ((∃ i < s.tdmSlots p, (s.tdmDst p i).isSome = true) → t.flag (R1 .TDM_EVT p) F.TDM_EVT_UNDERRUN = true ∧
          t.fld (R1 .TDM_SPOIL p) F.TDM_SPOIL_UNDER = min 65535 (s.fld (R1 .TDM_SPOIL p) F.TDM_SPOIL_UNDER + 1))) ∧
      (s.tdmDriver.isSome = true → k + (s.tdm.at p).n < s.audNext → s.audNext ≤ k + (s.tdm.at p).n + 64 → ∀ i < s.tdmSlots p,
        (s.tdmSamples p (k + (s.tdm.at p).n)).1[i]? =
          some (((s.tdmDst p i).map fun e => s.dstSample (s.tdmDriver.getD .A) e.1 (k + (s.tdm.at p).n)).getD invalidSilence)) ∧
      s.alters [R1 .TDM_EVT p, R1 .TDM_FRAME p, R1 .TDM_SPOIL p] [.EVT_STATUS] [.regs, .fired, .out, .audSrc, .tdm] t) ∧
  (∀ (p : Fin 16) (din : List Bool) (k : Nat) (s : State), s.tdmState p = 1 → (s.tdm.at p).start = some k → s.tdmMaster p = true →
    2 * k * 1000000000 * 65536 ≤ tbN16 (s.tbs.at s.audioTb).t * s.audRate * 2 →
    ∃ t, exec (.tdmFrameSync p din) s = .next t ∧ t.tdmState p = 2 ∧ t.flag (R1 .TDM_STAT p) F.TDM_STAT_ALIGNED = true ∧
      t.flag (R1 .TDM_EVT p) F.TDM_EVT_START = true ∧ (t.tdm.at p).start = some k ∧ (t.tdm.at p).n = (s.tdm.at p).n + 1 ∧
      s.alters [R1 .TDM_STAT p, R1 .TDM_EVT p, R1 .TDM_FRAME p, R1 .TDM_SPOIL p] [.EVT_STATUS] [.regs, .fired, .out, .audSrc, .tdm] t) ∧
  (∀ (p : Fin 16) (din : List Bool) (s : State), s.tdmState p = 0 ∨ 3 ≤ s.tdmState p ∨ (s.tdm.at p).start = none ∨
    (s.tdmState p = 1 ∧ tbN16 (s.tbs.at s.audioTb).t * s.audRate * 2 + (if s.tdmMaster p then 0 else 1000000000 * 65536) <
      2 * (s.tdm.at p).start.getD 0 * 1000000000 * 65536) → exec (.tdmFrameSync p din) s = .next s) ∧
  (∀ (p : Fin 16) (s : State), s.tdmChecks p = true →
    (∀ ago, ago * s.tdmLen p * s.audRate * 10 < 4 * 1000000000 * nsU → ∃ t, exec (.tdmGlitch p ago) s = .next t ∧ t.rd (R1 .TDM_GLITCH p) = s.rd (R1 .TDM_GLITCH p) + 1 ∧ t.flag (R1 .TDM_EVT p) F.TDM_EVT_GLITCH = true ∧
      s.alters [R1 .TDM_GLITCH p, R1 .TDM_EVT p] [.EVT_STATUS] [.regs, .fired] t) ∧
    (∀ at_, at_ % s.tdmLen p ≠ 0 → ∃ t, exec (.fsErr p at_) s = .next t ∧ t.flag (R1 .TDM_EVT p) F.TDM_EVT_FS_ERR = true ∧
      ((s.tdm.at p).misAt = at_ → 3 ≤ (s.tdm.at p).misRun → (t.tdm.at p).misRun = 0 ∧
        t.flag (R1 .TDM_EVT p) F.TDM_EVT_REFRAME = true ∧ t.flag (R1 .TDM_STAT p) F.TDM_STAT_ALIGNED = false ∧
        (s.flag (R1 .TDM_STAT p) F.TDM_STAT_ALIGNED = true → t.flag (R1 .TDM_EVT p) F.TDM_EVT_ALIGN_LOST = true)) ∧
      ((s.tdm.at p).misAt ≠ at_ ∨ (s.tdm.at p).misRun < 3 → t.rd (R1 .TDM_STAT p) = s.rd (R1 .TDM_STAT p) ∧ (t.tdm.at p).misAt = at_ ∧
        (t.tdm.at p).misRun = (if (s.tdm.at p).misAt = at_ then (s.tdm.at p).misRun + 1 else 1)) ∧
      s.alters [R1 .TDM_STAT p, R1 .TDM_EVT p] [.EVT_STATUS] [.regs, .fired, .tdm] t) ∧
    (∀ bclk fs, 2 * 1000000000 ≤ max bclk fs * s.audRate → ∃ t, exec (.tdmClockMissing p bclk fs) s = .next t ∧ t.tdmState p = 3 ∧ t.flag (R1 .TDM_EVT p) F.TDM_EVT_HOLD = true ∧
      t.fld (R1 .TDM_STAT p) F.TDM_STAT_BCLK_KHZ = 0 ∧ s.alters [R1 .TDM_STAT p, R1 .TDM_EVT p] [.EVT_STATUS] [.regs, .fired] t) ∧
    (∀ khz, s.tdmRateOk p khz = true → ∃ t, exec (.rateChange p khz) s = .next t ∧ t.fld (R1 .TDM_STAT p) F.TDM_STAT_BCLK_KHZ = khz % 65536 ∧
      t.tdmState p = 2 ∧ s.alters [R1 .TDM_STAT p] [] [.regs] t) ∧
    (∀ khz, s.tdmRateOk p khz = false → ∃ t, exec (.rateChange p khz) s = .next t ∧ t.tdmState p = 4 ∧ t.fld (R1 .TDM_STAT p) F.TDM_STAT_BCLK_KHZ = khz % 65536 ∧
      t.flag (R1 .TDM_EVT p) F.TDM_EVT_RATE_CHANGE = true ∧
      s.alters [R1 .TDM_STAT p, R1 .TDM_EVT p] [.EVT_STATUS] [.regs, .fired] t)) ∧
  (∀ (p : Fin 16) (ago at_ bclk fs khz : Nat) (s : State),
    (s.tdmChecks p = false ∨ 4 * 1000000000 * nsU ≤ ago * s.tdmLen p * s.audRate * 10 → exec (.tdmGlitch p ago) s = .next s) ∧
    (s.tdmChecks p = false ∨ at_ % s.tdmLen p = 0 → exec (.fsErr p at_) s = .next s) ∧
    (s.tdmChecks p = false ∨ max bclk fs * s.audRate < 2 * 1000000000 → exec (.tdmClockMissing p bclk fs) s = .next s) ∧
    (s.tdmChecks p = false → exec (.rateChange p khz) s = .next s)) ∧
  (∀ (p : Fin 16) (khz : Nat) (s : State), s.tdmState p = 3 →
    (s.tdmRateOk p khz = true → ∃ t, exec (.clkBack p khz) s = .next t ∧ t.tdmState p = 2 ∧
      (t.tdm.at p).start.getD 0 + (t.tdm.at p).n = s.audIndexNow ∧ t.flag (R1 .TDM_EVT p) F.TDM_EVT_CLK_BACK = true ∧
      (s.audIndexNow ≠ s.tdmGroupIndex p → t.flag (R1 .TDM_STAT p) F.TDM_STAT_ALIGNED = false) ∧
      (s.audIndexNow = s.tdmGroupIndex p → t.flag (R1 .TDM_STAT p) F.TDM_STAT_ALIGNED = s.flag (R1 .TDM_STAT p) F.TDM_STAT_ALIGNED) ∧
      s.alters [R1 .TDM_STAT p, R1 .TDM_EVT p] [.EVT_STATUS] [.regs, .fired, .tdm] t) ∧
    (s.tdmRateOk p khz = false → ∃ t, exec (.clkBack p khz) s = .next t ∧ t.tdmState p = 4 ∧ t.fld (R1 .TDM_STAT p) F.TDM_STAT_BCLK_KHZ = khz % 65536 ∧
      t.flag (R1 .TDM_EVT p) F.TDM_EVT_RATE_CHANGE = true ∧
      s.alters [R1 .TDM_STAT p, R1 .TDM_EVT p] [.EVT_STATUS] [.regs, .fired] t)) ∧
  (∀ (p : Fin 16) (khz : Nat) (s : State), s.tdmState p ≠ 3 → exec (.clkBack p khz) s = .next s)

/-- A load word goes into the back copy in both Sides; a refused load writes nothing; a flip of content waits, pending, for the head boundary
(R372, R373, R374, R377, R383). -/
def Obligations.LoadsAndFlipsOfHeldContent : Prop :=
  (∀ (r : Req) (v sel : W32) (k h ix a hd : Nat) (s : State), s.granted r .twin → sel = s.loadReg .ALY_LOAD_SEL r → k = getF sel F.ALY_LOAD_SEL_KIND →
    h = getF sel F.ALY_LOAD_SEL_HEAD → ix = getF sel F.ALY_LOAD_SEL_INDEX → a = (s.loadReg .ALY_LOAD_ADDR r).toNat % 2 ^ 24 →
    hd = (if k = 3 then (s.preHead.at ix).getD h else h) →
    (5 ≤ k → ∃ t, exec (.alyLoadData r v) s = .next t ∧ s.alters [] [] [.locks] t) ∧
    (k ≤ 4 → (k = 2 → s.holdsProt r h = true) → (k = 3 → ∃ p, s.preHead.at ix = some p ∧ s.holdsHead r p = true) →
      (k ≠ 2 → k ≠ 3 → s.holdsHead r h = true) →
      (s.flipPending hd (flipBit k) = true → ∃ t, exec (.alyLoadData r v) s = .next t ∧
        (∀ sd, s.live sd = true → t.flag (RS .ALY_EVT sd hd) F.ALY_EVT_LOAD_PENDING = true) ∧
        s.alters [RS .ALY_EVT .A hd, RS .ALY_EVT .B hd] [.EVT_STATUS] [.regs, .fired, .locks] t) ∧
      (s.flipPending hd (flipBit k) = false → s.contentSize k h ix ≤ a → ∃ t, exec (.alyLoadData r v) s = .next t ∧
        (∀ sd, s.live sd = true → t.flag (RS .ALY_EVT sd hd) F.ALY_EVT_LOAD_RANGE = true) ∧
        s.alters [RS .ALY_EVT .A hd, RS .ALY_EVT .B hd] [.EVT_STATUS] [.regs, .fired, .locks] t) ∧
      (s.flipPending hd (flipBit k) = false → a < s.contentSize k h ix → ∃ t, exec (.alyLoadData r v) s = .next t ∧
        t.loadReg .ALY_LOAD_ADDR r = w32 ((a + 1) % 2 ^ 24) ∧
        (∀ sd, s.live sd = true →
          t.content sd k (itemOf k h ix) (1 - s.front sd hd k) a = (if k = 3 ∨ k = 4 then v &&& 0xFFF#32 else v)) ∧
        (∀ sd b, s.live sd = false ∨ k ≠ 0 ∨ b < gfxBase h (1 - s.front sd hd k) + 4 * a ∨ gfxBase h (1 - s.front sd hd k) + 4 * a + 4 ≤ b →
          memByte (t.hbm sd) b = memByte (s.hbm sd) b) ∧
        (∀ sd c, s.live sd = false ∨ k = 0 ∨ c ≠ { kind := k, item := itemOf k h ix, copy := 1 - s.front sd hd k, off := a } →
          Sparse.get alyEmpty (t.aly sd) c = Sparse.get alyEmpty (s.aly sd) c) ∧
        s.alters [] [.ALY_LOAD_ADDR] [.regs, .twins, .alyA, .alyB, .hbmA, .hbmB, .locks] t)) ∧
    (k ≤ 4 → (k = 2 → s.holdsProt r h = false) → (k = 3 → ∀ p, s.preHead.at ix = some p → s.holdsHead r p = false) →
      (k ≠ 2 → k ≠ 3 → s.holdsHead r h = false) →
      ∃ t, exec (.alyLoadData r v) s = .next t ∧ bitOf (t.rd (RB .STR_ERR r 0)) 0 = true ∧
        (k = 2 → ∀ sd, s.live sd = true → t.flag (RS .ALY_EVT sd h) F.ALY_EVT_PROT_REJECT = true) ∧
        s.alters [RB .STR_ERR r 0, RB .STR_ERR_ADDR r 0, RS .ALY_EVT .A h, RS .ALY_EVT .B h] [.EVT_STATUS] [.regs, .fired, .locks] t)) ∧
  (∀ (r : Req) (h : Fin 32) (s : State), s.granted r .twin → s.holdsHead r h = true →
    ∀ p ∈ [(Instr.flipGfx r h, 0), (Instr.flipCursor r h, 1), (Instr.flipLut r h, 2)],
      (s.oddHead h = true ∨ s.flipPending h p.2 = true → ∃ t, exec p.1 s = .next t ∧ s.alters [] [] [.locks] t) ∧
      (s.oddHead h = false → s.flipPending h p.2 = false → ∃ t, exec p.1 s = .next t ∧ t.alyWait = s.alyWait ++ [AlyWait.flip h p.2 s.tick] ∧
        (∀ sd, s.live sd = true → bitOf (t.rd (RS .ALY_FLIP_STAT sd h)) (4 + p.2) = true ∧
          (∀ k ≤ 4, t.front sd h k = s.front sd h k)) ∧
        s.alters [RS .ALY_FLIP_STAT .A h, RS .ALY_FLIP_STAT .B h] [] [.regs, .alyWait, .locks] t)) ∧
  (∀ (r : Req) (h : Fin 32) (fits : Bool) (s : State), s.granted r .twin → s.holdsProt r h = true → s.oddHead h = false → s.flipPending h 3 = false →
    fits = ((List.range (s.headPlan.at h).rects).all fun q => s.protFits h (protRect (s.twin2 .ALY_PROT_POS h q) (s.twin2 .ALY_PROT_SIZE h q))) →
    (fits = true → ∃ t, exec (.alyProtFlip r h) s = .next t ∧ AlyWait.flip h 3 s.tick ∈ t.alyWait ∧ (∀ w ∈ s.alyWait, w ∈ t.alyWait) ∧
      (∀ q < (s.headPlan.at h).rects, AlyWait.value h (R2 .ALY_PROT_POS h q) (s.twin2 .ALY_PROT_POS h q) s.tick ∈ t.alyWait ∧
        AlyWait.value h (R2 .ALY_PROT_SIZE h q) (s.twin2 .ALY_PROT_SIZE h q) s.tick ∈ t.alyWait) ∧
      (∀ sd, s.live sd = true → bitOf (t.rd (RS .ALY_FLIP_STAT sd h)) 7 = true) ∧
      s.alters [RS .ALY_FLIP_STAT .A h, RS .ALY_FLIP_STAT .B h] [] [.regs, .alyWait, .locks] t) ∧
    (fits = false → ∃ t, exec (.alyProtFlip r h) s = .next t ∧
      (∀ sd, s.live sd = true → t.flag (RS .ALY_EVT sd h) F.ALY_EVT_PROT_GEOM = true) ∧
      s.alters [RS .ALY_EVT .A h, RS .ALY_EVT .B h] [.EVT_STATUS] [.regs, .fired, .locks] t))

/-- Tile blocks are written or late, frames become eligible, a head's frame picks and reports its tiles, and its boundary takes what waits
(R360, R363, R364, R365, R374, R378, R379). -/
def Obligations.HeadsTilesAndBoundaries : Prop :=
  (∀ (f : Fin 256) (s : State), (∀ sd, s.live sd = true → s.feeds.at (2 * (1024 + f.val) + sd.idx) = []) → (s.routes.at (1024 + f.val)).src < 1056 →
    exec (.tileBlock f) s = .next s) ∧
  (∀ (f : Fin 256) (sd : Side) (x : Fed) (rest : List Fed) (fr : TileFrame) (q : TileRun) (s : State), s.live sd = true →
    s.feeds.at (2 * (1024 + f.val) + sd.idx) = x :: rest → fr = { src := x.src, sof := x.blk.sofAt, fmt := s.feedFmt x.src, tag := x.blk.tag } →
    q = s.tiles.at (2 * f.val + sd.idx) →
    (s.feedCarries (1024 + f.val) x.src x.blk.sofAt (x.blk.stamp * tickU : Nat) = false → ∃ t, exec (.tileBlock f) s = .next t ∧
      t.feeds.at (2 * (1024 + f.val) + sd.idx) = rest ∧ t.tiles.at (2 * f + sd.idx) = q ∧ t.rd (RS .ALY_TILE_LATE sd f) = s.rd (RS .ALY_TILE_LATE sd f)) ∧
    (s.feedCarries (1024 + f.val) x.src x.blk.sofAt (x.blk.stamp * tickU : Nat) = true → fr.due < (x.blk.stamp * tickU : Nat) →
      ∃ t, exec (.tileBlock f) s = .next t ∧ t.feeds.at (2 * (1024 + f.val) + sd.idx) = rest ∧ t.tiles.at (2 * f + sd.idx) = q ∧
        t.rd (RS .ALY_TILE_LATE sd f) = s.rd (RS .ALY_TILE_LATE sd f) + 1 ∧
        (∀ h, s.tileHead.at f = some h → t.flag (RS .ALY_EVT sd h) F.ALY_EVT_TILE_LATE = true)) ∧
    (s.feedCarries (1024 + f.val) x.src x.blk.sofAt (x.blk.stamp * tickU : Nat) = true → (x.blk.stamp * tickU : Nat) ≤ fr.due →
      ∃ t, exec (.tileBlock f) s = .next t ∧ t.feeds.at (2 * (1024 + f.val) + sd.idx) = rest ∧
        t.rd (RS .ALY_TILE_LATE sd f) = s.rd (RS .ALY_TILE_LATE sd f) ∧
        (q.bufferFor s.cadTime fr.sof = none → t.tiles.at (2 * f + sd.idx) = q) ∧
        (∀ i, q.bufferFor s.cadTime fr.sof = some i →
          (t.tiles.at (2 * f + sd.idx)).shown = q.shown ∧ (t.tiles.at (2 * f + sd.idx)).newest = q.newest ∧
          (t.tiles.at (2 * f + sd.idx)).bufs = q.bufs.set i (some (match (q.bufs.getD i none).filter (fun o => decide (o.sof = fr.sof) && !o.elig) with
            | some o => { o with blks := o.blks ++ [x.blk] }
            | none => { fr with blks := [x.blk] }))))) ∧
  (∀ (f : Fin 256) (s : State), ∃ t, exec (.tileBlock f) s = .next t ∧
    (∀ sd, s.live sd = false → t.tiles.at (2 * f + sd.idx) = s.tiles.at (2 * f + sd.idx)) ∧
    (∀ j, j / 2 ≠ f.val → t.tiles.at j = s.tiles.at j) ∧ (∀ j, j / 2 ≠ 1024 + f.val → t.feeds.at j = s.feeds.at j) ∧
    s.alters ([RS .ALY_TILE_LATE .A f, RS .ALY_TILE_LATE .B f] ++ (s.tileHead.at f).toList.flatMap fun h => [RS .ALY_EVT .A h, RS .ALY_EVT .B h])
      [.EVT_STATUS] [.regs, .fired, .feeds, .tiles] t) ∧
  (∀ (f : Fin 256) (s : State), ∃ t, exec (.tileFrameEligible f) s = .next t ∧
    (∀ sd i, s.live sd = true → (t.tiles.at (2 * f + sd.idx)).bufs.getD i none =
      ((s.tiles.at (2 * f + sd.idx)).bufs.getD i none).bind fun fr =>
        if fr.elig = true ∨ s.cadTime < fr.due then some fr else if s.feedCut f fr = true then none else some { fr with elig := true }) ∧
    (∀ sd, (t.tiles.at (2 * f + sd.idx)).shown = (s.tiles.at (2 * f + sd.idx)).shown ∧
      (s.live sd = false → t.tiles.at (2 * f + sd.idx) = s.tiles.at (2 * f + sd.idx))) ∧
    (∀ j, j / 2 ≠ f.val → t.tiles.at j = s.tiles.at j) ∧ s.alters [] [] [.tiles] t) ∧
  (∀ (h : Fin 32) (bad : List Nat) (s : State), (s.headPlan.at h).present = false ∨ s.oddHead h = true ∨ (s.headRun.at h).last = some (s.headFrame h).toNat →
    exec (.headFrame h bad) s = .next s) ∧
  (∀ (h : Fin 32) (bad : List Nat) (o : Int) (k : Nat) (s : State), (s.headPlan.at h).present = true → s.oddHead h = false →
    o = s.headStart h → k = (s.headFrame h).toNat → (s.headRun.at h).last ≠ some k →
    ∃ t, exec (.headFrame h bad) s = .next t ∧ (t.headRun.at h).last = some k ∧
      ((s.judgeAll (1024 + h) none o).headWork h = false →
        s.touches [.EVT_STATUS, .SEAM_EVT, .XPT_OUT_STAT, .XPT_SALVO_STAT, .XPT_TAKE_RES] [.regs, .fired, .takes, .outs, .benches, .benchIn, .benchMem, .headRun] t) ∧
      ((s.judgeAll (1024 + h) none o).headWork h = true → (∀ c, (s.headRun.at h).since = some c → ((c + 10 * usTicks) * tickU : Nat) ≤ o) →
        (s.engStart 1 h * tickU : Nat) ≤ o → ∀ sd, s.live sd = true →
        (∀ (f : Nat) (q : TileRun) (fr : Option TileFrame) (g st : Bool), s.tileHead.at f = some h.val → f < 256 → q = s.tiles.at (2 * f + sd.idx) →
          fr = ((q.pick o).bind fun i => q.bufs.getD i none) → g = s.tileGeomErr h f fr → st = q.stale (4 * ((s.headPlan.at h).fmt.period : Nat)) o →
          t.tiles.at (2 * f + sd.idx) = { q with shown := q.pick o, late := false } ∧
          t.flag (RS .ALY_TILE_STAT sd f) F.ALY_TILE_STAT_GEOM_ERR = g ∧ t.flag (RS .ALY_TILE_STAT sd f) F.ALY_TILE_STAT_STALE = st ∧
          t.flag (RS .ALY_TILE_STAT sd f) F.ALY_TILE_STAT_SHOWING = (bitOf (s.live2 (R1 .ALY_TILE_CFG f)) 0 && fr.isSome && !g &&
            !(st && bitOf (s.live2 (R1 .ALY_TILE_CFG f)) 23) && !q.late) ∧
          t.fld (RS .ALY_TILE_STAT sd f) F.ALY_TILE_STAT_TAG = (fr.map (·.tag)).getD 0 % 256 ∧
          (g = true → s.flag (RS .ALY_TILE_STAT sd f) F.ALY_TILE_STAT_GEOM_ERR = false → t.flag (RS .ALY_EVT sd h) F.ALY_EVT_TILE_GEOM = true) ∧
          (st = true → s.flag (RS .ALY_TILE_STAT sd f) F.ALY_TILE_STAT_STALE = false → t.flag (RS .ALY_EVT sd h) F.ALY_EVT_TILE_STALE = true)) ∧
        ((∃ r ∈ bad, r < (s.headPlan.at h).rects ∧ (s.protLive h r).on = true) →
          t.rd (RS .ALY_PROT_ERR sd h) = s.rd (RS .ALY_PROT_ERR sd h) + 1 ∧ t.flag (RS .ALY_EVT sd h) F.ALY_EVT_PROT_CRC = true) ∧
        (bitOf (s.twin .ALY_STORE_CFG h) 0 = true → bitOf (s.twin .ALY_STORE_CFG h) 1 = false → ∃ b, t.alyStore.at (2 * h + sd.idx) = some b ∧
          memWord (t.hbm sd) (s.storeBase h b + 4) = w32 k ∧
          ∀ a, a < s.storeBase h b ∨ s.storeBase h b + 4 * (s.headFrameWords sd h k).length ≤ a → memByte (t.hbm sd) a = memByte (s.hbm sd) a) ∧
        (bitOf (s.twin .ALY_STORE_CFG h) 0 = true → bitOf (s.twin .ALY_STORE_CFG h) 1 = true →
          t.flag (RS .ALY_STORE_STAT sd h) F.ALY_STORE_STAT_FROZEN = true ∧ t.hbm sd = s.hbm sd)) ∧
      s.touches [.ALY_EVT, .ALY_PROT_ERR, .ALY_STORE_STAT, .ALY_TILE_STAT, .EVT_STATUS, .SEAM_EVT, .XPT_OUT_STAT, .XPT_SALVO_STAT, .XPT_TAKE_RES]
        [.regs, .fired, .feeds, .takes, .outs, .benches, .benchIn, .benchMem, .headRun, .tiles, .alyStore, .hbmA, .hbmB] t) ∧
  (∀ (h : Fin 32) (s : State), (∀ b n, AlyWait.flip h b n ∈ s.alyWait → b < 4) →
    ∃ t, exec (.headBoundary h) s = .next t ∧ t.alyWait = s.alyWait.filter (fun w => !s.headDue h w) ∧
      (∀ key v n, AlyWait.value h key v n ∈ s.alyWait → s.headDue h (.value h key v n) = true →
        (∀ v' n', AlyWait.value h key v' n' ∈ s.alyWait → s.headDue h (.value h key v' n') = true → v' = v) → t.live2 key = v) ∧
      (∀ key, (∀ v n, AlyWait.value h key v n ∈ s.alyWait → s.headDue h (.value h key v n) = false) → t.live2 key = s.live2 key) ∧
      (∀ sd b, s.live sd = true → b < 4 →
        ((s.alyWait.countP fun w => s.headDue h w && (match w with | .flip _ x _ => x == b | .value _ _ _ _ => false)) = 1 →
          bitOf (t.rd (RS .ALY_FLIP_STAT sd h)) b = !bitOf (s.rd (RS .ALY_FLIP_STAT sd h)) b ∧ bitOf (t.rd (RS .ALY_FLIP_STAT sd h)) (4 + b) = false ∧
          (b = 3 → ∀ r < (s.headPlan.at h).rects, (t.protLive h r).on = true →
            t.rd { name := .ALY_PROT_CRC, i := h, j := r, bank := sd.idx } = t.protCrc sd h r (t.front sd h 2) (t.protLive h r))) ∧
        ((s.alyWait.countP fun w => s.headDue h w && (match w with | .flip _ x _ => x == b | .value _ _ _ _ => false)) = 0 →
          bitOf (t.rd (RS .ALY_FLIP_STAT sd h)) b = bitOf (s.rd (RS .ALY_FLIP_STAT sd h)) b)) ∧
      (∀ w ∈ s.alyWait, s.headDue h w = true → ∀ (sd : Side) (f : Nat) (q : TileRun), s.live sd = true → s.tileHead.at f = some h.val → f < 256 →
        q = s.tiles.at (2 * f + sd.idx) →
        t.flag (RS .ALY_TILE_STAT sd f) F.ALY_TILE_STAT_GEOM_ERR = t.tileGeomErr h f (q.shown.bind fun i => q.bufs.getD i none)) ∧
      s.alters ([RS .ALY_FLIP_STAT .A h, RS .ALY_FLIP_STAT .B h, RS .ALY_EVT .A h, RS .ALY_EVT .B h] ++
        (List.range (s.headPlan.at h).rects).flatMap (fun r => [{ name := .ALY_PROT_CRC, i := h, j := r, bank := 0 }, { name := .ALY_PROT_CRC, i := h, j := r, bank := 1 }]) ++
        (s.tilesOf h).flatMap fun f => [RS .ALY_TILE_STAT .A f, RS .ALY_TILE_STAT .B f])
        [.EVT_STATUS] [.regs, .fired, .alyWait, .alyLive] t)

/-- A tick advances the cadence time and every time base by its rate; a new rate holds from the next tick, reads latch per reader, frames start
when due (R386, R387, R388, R389, R411). -/
def Obligations.TimeBasesTickRateAndRead : Prop :=
  (∀ s : State, s.aoReset = false → s.waiting = [] → ∃ t, exec .tbTick s = .next t ∧ t.tick = s.tick + 1 ∧
    (∀ n < 4, s.followed ≠ some (4 + n) → (s.tbs.at n).steps = [] →
      ((t.tbs.at n).t : Int) = ((s.tbs.at n).t + 4 * (2 ^ 48 + (s.tbs.at n).rate)) % (tbMod : Int) ∧
      (t.tbs.at n).rate = (s.tbs.at n).next.getD (s.tbs.at n).rate ∧ (t.tbs.at n).next = none) ∧
    s.touches [.TB_STAT, .TB_EVT, .TB_LAST_STEP_LO, .TB_LAST_STEP_HI, .TB_CMP_EVT, .TB_CMP_SKIP, .TB_CMP_CTL, .AUD_CFG, .EVT_STATUS]
      [.tick, .tbs, .lanes, .engs, .regs, .fired, .cmps, .trigSignal, .audNext] t) ∧
  (∀ s : State, s.aoReset = false → s.waiting = [] → (∀ n < 4, (s.tbs.at n).steps = []) →
    ∃ t, exec .tbTick s = .next t ∧ s.alters [] [] [.tick, .tbs, .lanes, .engs, .fired] t) ∧
  (∀ s : State, s.aoReset = true → exec .tbTick s = .next s) ∧
  (∀ (r : Req) (n : Fin 4) (hi : W32) (q : Int) (s : State), s.granted r .timing → s.holdsTb r n = true →
    q = sext 40 (hi.toNat % 256 * 2 ^ 32 + (s.rd (R1 .TB_RATE_LO n)).toNat) →
    (s.flag (R1 .TB_STAT n) F.TB_STAT_REFUSED = false → ∃ t, exec (.tbRateWrite r n hi) s = .next t ∧
      (t.tbs.at n).next = some (max (-rateLimit) (min rateLimit q)) ∧ (t.tbs.at n).rate = (s.tbs.at n).rate ∧ (t.tbs.at n).t = (s.tbs.at n).t ∧ t.rd (R1 .TB_RATE_HI n) = w32 (hi.toNat % 256) ∧
      (q < -rateLimit ∨ rateLimit < q → t.flag (R1 .TB_EVT n) F.TB_EVT_RATE_CLAMP = true) ∧
      s.alters [R1 .TB_RATE_HI n, R1 .TB_EVT n] [.EVT_STATUS] [.regs, .fired, .tbs, .locks] t) ∧
    (s.flag (R1 .TB_STAT n) F.TB_STAT_REFUSED = true → ∃ t, exec (.tbRateWrite r n hi) s = .next t ∧ t.flag (R1 .TB_EVT n) F.TB_EVT_HELD = true ∧
      s.alters [R1 .TB_EVT n] [.EVT_STATUS] [.regs, .fired, .locks] t)) ∧
  (∀ (r : Req) (n : Fin 4) (be : Fin 16) (s : State), s.granted r .timing →
    ∃ t, exec (.tbNsRead r n be) s = .next t ∧ t.lastRead.at r.num = bytesOf be (w32 (tbNs (s.tbs.at n).t)) ∧
      t.rd (RB .TB_SEC_LO r n) = w32 (tbSec (s.tbs.at n).t % 2 ^ 32) ∧
      t.rd (RB .TB_SEC_HI r n) = w32 (tbFrac (s.tbs.at n).t * 65536 + tbSec (s.tbs.at n).t / 2 ^ 32) ∧
      s.alters [RB .TB_SEC_LO r n, RB .TB_SEC_HI r n] [] [.regs, .lastRead, .locks] t) ∧
  (∀ (c : Fin 32) (s : State), s.cadValid c = true → s.cadStart c ((s.cads.at c).count + 1) ≤ s.cadTime →
    ∃ t, exec (.cadenceFrameStart c) s = .next t ∧ (t.cads.at c).count = ((s.cads.at c).count + 1) % 2 ^ 48 ∧
      (t.cads.at c).index = (s.cads.at c).index + 1 ∧ (t.cads.at c).phi = (s.cads.at c).phi ∧
      t.rd (R1 .REF_CAD_FRAME c) = w32 (((s.cads.at c).count + 1) % 2 ^ 48) ∧ (∀ d ≠ c.val, t.cads.at d = s.cads.at d) ∧
      s.alters [R1 .REF_CAD_FRAME c] [] [.regs, .cads, .trigSignal] t) ∧
  (∀ (c : Fin 32) (s : State), s.cadValid c = false ∨ s.cadTime < s.cadStart c ((s.cads.at c).count + 1) → exec (.cadenceFrameStart c) s = .next s)

/-- Steps are taken, refused or held by the limit and FORCE and applied at the next tick; compare units arm, fire, repeat and pulse; timestamps
are read in words (R389, R391, R399, R400, R401, R402). -/
def Obligations.StepsAndCompareUnits : Prop :=
  (∀ (r : Req) (n : Fin 4) (ctl : W32) (d : Int) (s : State), s.granted r .timing → s.holdsTb r n = true → d = s.stepAmount n (bitOf ctl 1) →
    (bitOf ctl 0 = true ∨ s.flag (R1 .TB_STAT n) F.TB_STAT_REFUSED = false ∧ d.natAbs ≤ (s.rd (R1 .TB_STEP_LIMIT n)).toNat * 65536 →
      ∃ t, exec (.tbStep r n ctl) s = .next t ∧ t.flag (R1 .TB_STAT n) F.TB_STAT_REFUSED = false ∧
        (t.tbs.at n).steps = (s.tbs.at n).steps ++ [(bitOf ctl 1, if bitOf ctl 1 then ((s.tbs.at n).t / 2 ^ 32 : Nat) + d else d)] ∧
        (t.tbs.at n).t = (s.tbs.at n).t ∧ (t.tbs.at n).rate = (s.tbs.at n).rate ∧ s.alters [R1 .TB_STAT n] [] [.regs, .tbs, .locks] t) ∧
    (bitOf ctl 0 = false → s.flag (R1 .TB_STAT n) F.TB_STAT_REFUSED = false → (s.rd (R1 .TB_STEP_LIMIT n)).toNat * 65536 < d.natAbs →
      ∃ t, exec (.tbStep r n ctl) s = .next t ∧ t.flag (R1 .TB_STAT n) F.TB_STAT_REFUSED = true ∧ t.flag (R1 .TB_EVT n) F.TB_EVT_STEP_REFUSED = true ∧
        s.alters [R1 .TB_STAT n, R1 .TB_EVT n] [.EVT_STATUS] [.regs, .fired, .locks] t) ∧
    (bitOf ctl 0 = false → s.flag (R1 .TB_STAT n) F.TB_STAT_REFUSED = true → ∃ t, exec (.tbStep r n ctl) s = .next t ∧
      t.flag (R1 .TB_EVT n) F.TB_EVT_HELD = true ∧ s.alters [R1 .TB_EVT n] [.EVT_STATUS] [.regs, .fired, .locks] t)) ∧
  (∀ (n : Fin 4) (p : Bool × Int) (s : State), s.aoReset = false → s.waiting = [] → (s.tbs.at n).steps = [p] →
    ∃ t, exec .tbTick s = .next t ∧ t.flag (R1 .TB_STAT n) F.TB_STAT_SET = true ∧ t.flag (R1 .TB_EVT n) F.TB_EVT_STEP_DONE = true ∧
      (t.tbs.at n).steps = [] ∧ ((t.tbs.at n).t : Int) = (if p.1 then p.2 * 2 ^ 32 else (s.tbAdvance n).t + p.2 * 2 ^ 32) % (tbMod : Int) ∧
      (t.rd (R1 .TB_LAST_STEP_LO n)).toNat + 2 ^ 32 * (t.rd (R1 .TB_LAST_STEP_HI n)).toNat =
        twos 64 ((if p.1 then p.2 - ((s.tbAdvance n).t / 2 ^ 32 : Nat) else p.2) / 65536)) ∧
  (∀ (r : Req) (n : Fin 4) (u : Fin 32) (ctl : W32) (g : Nat) (s : State), s.granted r .timing → s.holdsTb r n = true →
    g = ((s.rd (R2 .TB_CMP_HI n u)).toNat * 2 ^ 32 + (s.rd (R2 .TB_CMP_LO n u)).toNat) * 65536 + s.fld (R2 .TB_CMP_FRAC n u) F.TB_CMP_FRAC_TFRAC →
    ∃ t, exec (.compareArm r n u ctl) s = .next t ∧ t.rd (R2 .TB_CMP_CTL n u) = ctl &&& 0x1FFFFF#32 ∧ (t.cmps.at (cmpIx n u)).armed = bitOf ctl 0 ∧
      (bitOf ctl 0 = true → (t.cmps.at (cmpIx n u)).target = g ∧ (atOrAfter (s.tbNow n) g = true → t.flag (R1 .TB_EVT n) F.TB_EVT_CMP_PAST = true)) ∧
      s.alters [R2 .TB_CMP_CTL n u, R1 .TB_EVT n] [.EVT_STATUS] [.regs, .fired, .cmps, .locks] t) ∧
  (∀ (n : Fin 4) (u : Fin 32) (x : CmpUnit) (s : State), x = s.cmps.at (cmpIx n u) → x.armed = true → x.setAt < s.tick → atOrAfter (s.tbNow n) x.target = true →
    ∃ t, exec (.compareFire n u) s = .next t ∧ bitOf (t.rd (R1 .TB_CMP_EVT n)) u = true ∧
      (s.flag (R2 .TB_CMP_CTL n u) F.TB_CMP_CTL_PERIODIC = false ∨ s.cmpPeriod n u = 0 →
        (t.cmps.at (cmpIx n u)).armed = false ∧ t.flag (R2 .TB_CMP_CTL n u) F.TB_CMP_CTL_EN = false) ∧
      (s.flag (R2 .TB_CMP_CTL n u) F.TB_CMP_CTL_PERIODIC = true → s.cmpPeriod n u ≠ 0 →
        (t.cmps.at (cmpIx n u)).armed = true ∧ (t.cmps.at (cmpIx n u)).target = (x.target + s.cmpPeriod n u) % 2 ^ 80) ∧
      (t.cmps.at (cmpIx n u)).setAt = s.tick ∧
      (t.cmps.at (cmpIx n u)).pulses = (if x.past = false ∧ s.flag (R2 .TB_CMP_CTL n u) F.TB_CMP_CTL_PULSE_EN = true then
        x.pulses ++ [Pulse.mk (s.fld (R2 .TB_CMP_CTL n u) F.TB_CMP_CTL_LINE) (s.cmpInstant n x.target)
          (s.cmpInstant n x.target + (max 1 (s.fld (R2 .TB_CMP_CTL n u) F.TB_CMP_CTL_WIDTH) * 1000 * nsU : Nat))] else x.pulses) ∧
      s.alters [R1 .TB_CMP_EVT n, R2 .TB_CMP_CTL n u] [.EVT_STATUS] [.regs, .fired, .cmps, .trigSignal] t) ∧
  (∀ (n : Fin 4) (u : Fin 32) (s : State), (s.cmps.at (cmpIx n u)).armed = false ∨ s.tick ≤ (s.cmps.at (cmpIx n u)).setAt ∨ atOrAfter (s.tbNow n) (s.cmps.at (cmpIx n u)).target = false →
    exec (.compareFire n u) s = .next s) ∧
  (∀ (n : Fin 4) (u : Fin 32) (s : State), ∃ t, exec (.pulseEnd n u) s = .next t ∧
    (t.cmps.at (cmpIx n u)).pulses = (s.cmps.at (cmpIx n u)).pulses.filter (fun p => decide (s.cadTime < p.fall + maxPulseOffset)) ∧
    (t.cmps.at (cmpIx n u)).armed = (s.cmps.at (cmpIx n u)).armed ∧ (t.cmps.at (cmpIx n u)).target = (s.cmps.at (cmpIx n u)).target ∧
    (∀ i, i ≠ cmpIx n u → t.cmps.at i = s.cmps.at i) ∧ s.changesOnly [.cmps] t) ∧
  (∀ (r : Req) (i : Fin 130) (be : Fin 16) (s : State), s.granted r .timing → s.holdsPort r i = true →
    (∀ w ws, s.txLatch.at (latchIx r i) = w :: ws → ∃ t, exec (.ptpTxtsRead r i be) s = .next t ∧ t.lastRead.at r.num = bytesOf be w ∧ t.txLatch.at (latchIx r i) = ws ∧
      s.changesOnly [.lastRead, .txLatch, .locks] t) ∧
    (∀ w ws q, s.txLatch.at (latchIx r i) = [] → (s.ports.at i).queue = (w :: ws) :: q → ∃ t, exec (.ptpTxtsRead r i be) s = .next t ∧
      t.lastRead.at r.num = bytesOf be w ∧ t.txLatch.at (latchIx r i) = ws ∧ (t.ports.at i).queue = q ∧ s.changesOnly [.lastRead, .txLatch, .ports, .locks] t) ∧
    (s.txLatch.at (latchIx r i) = [] → (s.ports.at i).queue = [] → ∃ t, exec (.ptpTxtsRead r i be) s = .next t ∧ t.lastRead.at r.num = 0 ∧
      s.changesOnly [.lastRead, .locks] t)) ∧
  (∀ (i : Fin 130) (s : State), (s.portUp i = true → ∃ t, exec (.portCalibrated i) s = .next t ∧ (t.ports.at i).cal = true ∧ s.changesOnly [.ports] t) ∧
    (s.portUp i = false → exec (.portCalibrated i) s = .next s))

/-- Candidates are measured, glitches ignored and counted, faults disqualify, a followed one's loss switches or holds over, reversion waits
(R412, R413, R414, R416, R417, R424). -/
def Obligations.ReferenceCandidatesQualifyAndFail : Prop :=
  (∀ (c : Fin 10) (at_ : Int) (s : State), s.candPeriod c = none ∨ s.candHappens c = false → exec (.refCandEvent c at_) s = .next s) ∧
  (∀ (c : Fin 10) (at_ : Int) (p : Nat × Nat) (l : Int) (s : State), s.candPeriod c = some p → (s.cands.at c).last = some l → s.candEarly c at_ p = true →
    ∃ t, exec (.refCandEvent c at_) s = .next t ∧ t.rd (R1 .REF_CAND_GLITCH c) = s.rd (R1 .REF_CAND_GLITCH c) + 1 ∧
      t.flag (R1 .REF_CAND_EVT c) F.REF_CAND_EVT_GLITCH = true ∧ (t.cands.at c).e = (s.cands.at c).e ∧ (t.cands.at c).last = some l ∧
      (3 ≤ ((s.cands.at c).glitches.filter fun x => decide (s.tick < x + secTicks)).length → t.qualified c = false) ∧
      (((s.cands.at c).glitches.filter fun x => decide (s.tick < x + secTicks)).length < 3 → t.qualified c = s.qualified c) ∧
      s.touches [.REF_CAND_GLITCH, .REF_CAND_EVT, .REF_CAND_STAT, .REF_STAT, .REF_HIST, .REF_EVT, .REF_PHASE_LO, .REF_PHASE_HI, .EVT_STATUS]
        [.regs, .fired, .cands, .ref] t) ∧
  (∀ (c : Fin 10) (at_ : Int) (p : Nat × Nat) (s : State), s.candPeriod c = some p → s.candHappens c = true → s.candEarly c at_ p = false →
    ∃ t, exec (.refCandEvent c at_) s = .next t ∧ (t.cands.at c).e = s.candPhase c at_ p ∧ (t.cands.at c).last = some (s.candInstant c at_) ∧ t.qualified c = s.qualified c ∧
      ((s.cands.at c).last.isSome = true → s.flag (R1 .REF_CAND_STAT c) F.REF_CAND_STAT_PRESENT = true →
        max 1 (s.fld (R0 .REF_TIMING) F.REF_TIMING_STEP_TH) * 10 * nsU < (wrapFrac (s.candPhase c at_ p - (s.cands.at c).e) p).natAbs →
        t.flag (R1 .REF_CAND_EVT c) F.REF_CAND_EVT_PHASE_STEP = true) ∧
      (s.followed = some c.val → (t.rd (R0 .REF_PHASE_LO)).toNat + 2 ^ 32 * (t.rd (R0 .REF_PHASE_HI)).toNat = twos 64 (roundDiv (s.candPhase c at_ p) nsU)) ∧
      s.alters [R1 .REF_CAND_STAT c, R1 .REF_CAND_EVT c, R0 .REF_EVT, R0 .REF_PHASE_LO, R0 .REF_PHASE_HI] [.EVT_STATUS] [.regs, .fired, .cands, .ref] t) ∧
  (∀ (c : Fin 10) (s : State), s.flag (R1 .REF_CAND_STAT c) F.REF_CAND_STAT_PRESENT = true → s.candStopped c = true →
    ∃ t, exec (.refCandStop c) s = .next t ∧ t.flag (R1 .REF_CAND_EVT c) F.REF_CAND_EVT_STOP = true ∧ t.qualified c = false ∧
      t.flag (R1 .REF_CAND_STAT c) F.REF_CAND_STAT_PRESENT = false ∧ t.fld (R1 .REF_CAND_STAT c) F.REF_CAND_STAT_FAULT = 1 ∧
      (s.followed ≠ some c.val → t.refState = s.refState ∧ t.refSel = s.refSel) ∧
      (s.followed = some c.val → (s.setF (R1 .REF_CAND_STAT c) F.REF_CAND_STAT_QUAL 0).toFollow = none →
        t.refState = stHoldover ∧ t.refSel = 15 ∧ t.flag (R0 .REF_EVT) F.REF_EVT_HOLDOVER = true) ∧
      (∀ d, s.followed = some c.val → (s.setF (R1 .REF_CAND_STAT c) F.REF_CAND_STAT_QUAL 0).toFollow = some d → d < 10 →
        t.refState = stSwitching ∧ t.refSel = d ∧ t.ref.b = s.candNow d ∧ t.flag (R0 .REF_EVT) F.REF_EVT_SWITCH = true) ∧
      s.touches [.REF_CAND_EVT, .REF_CAND_STAT, .REF_STAT, .REF_HIST, .REF_EVT, .REF_PHASE_LO, .REF_PHASE_HI, .EVT_STATUS] [.regs, .fired, .cands, .ref] t) ∧
  (∀ (c : Fin 10) (s : State), s.flag (R1 .REF_CAND_STAT c) F.REF_CAND_STAT_PRESENT = false ∨ s.candStopped c = false → exec (.refCandStop c) s = .next s) ∧
  (∀ (c : Fin 10) (freq : Int) (s : State),
    (freq.natAbs ≤ max 1 (s.fld (R1 .REF_CAND_CFG c) F.REF_CAND_CFG_TOL) * 10 → ∃ t, exec (.refWindowEnd c freq) s = .next t ∧
      t.fld (R1 .REF_CAND_STAT c) F.REF_CAND_STAT_FREQ = twos 16 (satS 16 freq) ∧ t.qualified c = s.qualified c ∧ s.alters [R1 .REF_CAND_STAT c] [] [.regs] t) ∧
    (max 1 (s.fld (R1 .REF_CAND_CFG c) F.REF_CAND_CFG_TOL) * 10 < freq.natAbs → ∃ t, exec (.refWindowEnd c freq) s = .next t ∧
      t.flag (R1 .REF_CAND_EVT c) F.REF_CAND_EVT_RATE = true ∧ t.qualified c = false ∧
      s.touches [.REF_CAND_EVT, .REF_CAND_STAT, .REF_STAT, .REF_HIST, .REF_EVT, .REF_PHASE_LO, .REF_PHASE_HI, .EVT_STATUS] [.regs, .fired, .cands, .ref] t)) ∧
  (∀ (c : Fin 10) (since : Nat) (s : State), (s.cands.at c).okSince = some since → s.candPrio c ≠ 0 → s.qualified c = false →
    c.val < 4 ∨ 8 ≤ c.val ∨ s.tbOk (c.val - 4) = true →
    (since + s.qualTicks ≤ s.tick → ∃ t, exec (.refQualify c) s = .next t ∧ t.qualified c = true ∧ t.flag (R1 .REF_CAND_EVT c) F.REF_CAND_EVT_QUALIFIED = true ∧
      s.touches [.REF_ALIGN_DELTA, .REF_CAND_EVT, .REF_CAND_STAT, .REF_STAT, .REF_HIST, .REF_EVT, .REF_PHASE_LO, .REF_PHASE_HI, .EVT_STATUS]
        [.regs, .fired, .cads, .cands, .ref] t) ∧
    (s.tick < since + s.qualTicks → exec (.refQualify c) s = .next s)) ∧
  (∀ (c : Fin 10) (s : State), s.fld (R0 .REF_CFG) F.REF_CFG_MODE = 0 → s.flag (R0 .REF_CFG) F.REF_CFG_REVERT = true → s.refState = stLocked →
    s.bestCand = some c.val → s.better c s.refSel = true →
    (max (s.cands.at c).qualAt s.ref.lockedAt + s.holdoffTicks ≤ s.tick → ∃ t, exec (.refHoldoffEnd c) s = .next t ∧ t.refState = stSwitching ∧
      t.refSel = c ∧ t.ref.b = s.candNow c ∧ t.flag (R0 .REF_EVT) F.REF_EVT_REVERT = true ∧ t.flag (R0 .REF_EVT) F.REF_EVT_SWITCH = true ∧
      s.alters [R0 .REF_STAT, R0 .REF_HIST, R0 .REF_EVT, R0 .REF_PHASE_LO, R0 .REF_PHASE_HI] [.EVT_STATUS] [.regs, .fired, .ref] t) ∧
    (s.tick < max (s.cands.at c).qualAt s.ref.lockedAt + s.holdoffTicks → exec (.refHoldoffEnd c) s = .next s)) ∧
  (∀ s : State, (s.flag (R0 .REF_STAT) F.REF_STAT_OSC = true → exec .holdOscStop s = .next s) ∧
    (s.flag (R0 .REF_STAT) F.REF_STAT_OSC = false → ∃ t, exec .holdOscStop s = .next t ∧ t.flag (R0 .REF_STAT) F.REF_STAT_OSC = true ∧
      t.flag (R0 .REF_EVT) F.REF_EVT_HOLD_OSC_LOST = true ∧ s.alters [R0 .REF_STAT, R0 .REF_EVT] [.EVT_STATUS] [.regs, .fired] t) ∧
    (s.holdOscPresent = true → ∃ t, exec .holdOscReturn s = .next t ∧ t.flag (R0 .REF_STAT) F.REF_STAT_OSC = false ∧ s.alters [R0 .REF_STAT] [] [.regs] t) ∧
    (s.holdOscPresent = false → exec .holdOscReturn s = .next s))

/-- The selector locks, follows its mode and re-aligns; a re-alignment moves the cadence phase now and each counter from a frame start ahead
(R415, R417, R421, R422, R430). -/
def Obligations.SelectorModesAndReAlignment : Prop :=
  (∀ s : State, s.refState = stAcquire ∨ s.refState = stSwitching → s.fld (R0 .REF_CFG) F.REF_CFG_MODE = 0 →
    (s.ref.enteredAt + secTicks ≤ s.tick → ∃ t, exec .refLockMet s = .next t ∧ t.refState = stLocked ∧ t.refSel = s.refSel ∧ t.ref.lockedAt = s.tick ∧
      s.alters [R0 .REF_STAT, R0 .REF_HIST, R0 .REF_EVT] [.EVT_STATUS] [.regs, .fired, .ref] t) ∧
    (s.tick < s.ref.enteredAt + secTicks → exec .refLockMet s = .next s)) ∧
  (∀ s : State, s.refState = stFree ∨ s.refState = stLocked ∨ s.refState = stHoldover → exec .refLockMet s = .next s) ∧
  (∀ (r : Req) (cfg : W32) (s : State), s.granted r .timing → s.isRefOwner r = true →
    (∃ t, exec (.refModeWrite r cfg) s = .next t ∧ t.rd (R0 .REF_CFG) = cfg &&& 0x1FFFFFF#32 ∧
      (getF cfg F.REF_CFG_MODE = 3 → t.refState = stFree ∧ (s.refState ≠ stFree → t.refSel = 15)) ∧
      (getF cfg F.REF_CFG_MODE = 2 → t.refState = if s.refState = stFree then stFree else stHoldover) ∧
      (getF cfg F.REF_CFG_MODE = 0 → s.refState = stLocked ∨ s.refState = stAcquire ∨ s.refState = stSwitching → t.refState = s.refState ∧ t.refSel = s.refSel) ∧
      (∀ c, getF cfg F.REF_CFG_MODE = 0 → s.refState = stFree ∨ s.refState = stHoldover → s.bestCand = some c → c < 10 →
        t.refState = stAcquire ∧ t.refSel = c ∧ (s.refState = stHoldover → t.ref.b = s.candNow c)) ∧
      s.touches [.REF_CFG, .REF_ALIGN_DELTA, .REF_STAT, .REF_HIST, .REF_EVT, .REF_PHASE_LO, .REF_PHASE_HI, .EVT_STATUS] [.regs, .fired, .cads, .cands, .ref, .locks] t)) ∧
  (∀ (r : Req) (cmd : W32) (s : State), s.granted r .timing → s.isRefOwner r = true →
    (getF cmd F.REF_CMD_OP ≠ 1 → ∃ t, exec (.realign r cmd) s = .next t ∧ s.alters [] [] [.locks] t) ∧
    (getF cmd F.REF_CMD_OP = 1 → s.refState ≠ stLocked → ∃ t, exec (.realign r cmd) s = .next t ∧ t.fld (R0 .REF_CMD_RES) F.REF_CMD_RES_STATUS = 3 ∧
      s.alters [R0 .REF_CMD_RES] [] [.regs, .locks] t) ∧
    (getF cmd F.REF_CMD_OP = 1 → s.refState = stLocked → s.ref.jumps ≠ [] → ∃ t, exec (.realign r cmd) s = .next t ∧
      t.fld (R0 .REF_CMD_RES) F.REF_CMD_RES_STATUS = 4 ∧ s.alters [R0 .REF_CMD_RES] [] [.regs, .locks] t) ∧
    (getF cmd F.REF_CMD_OP = 1 → s.refState = stLocked → s.ref.jumps = [] → ∃ t, exec (.realign r cmd) s = .next t ∧
      t.fld (R0 .REF_CMD_RES) F.REF_CMD_RES_STATUS = 1 ∧ t.flag (R0 .REF_STAT) F.REF_STAT_ALIGN_PEND = true ∧
      t.ref.phi = s.ref.phi + s.candNow s.refSel ∧ t.ref.b = s.ref.b - s.candNow s.refSel ∧
      (∀ c < 32, s.cadValid c = true → ∃ j ∈ t.ref.jumps, j.ctr = c ∧ j.delta = wrapHalfUp (s.candNow s.refSel) (s.cadFmt c).period ∧
        (t.cads.at c).phi = (s.cads.at c).phi + j.delta ∧ (t.cads.at c).prev = (s.cads.at c).phi ∧ (t.cads.at c).first = j.index ∧
        (s.cadTime + ((s.cadFmt c).linesTime s.takeLead : Nat) ≤ s.cadStart c ((s.cads.at c).count + 1) → j.index = (s.cads.at c).index + 1)) ∧
      s.alters [R0 .REF_CMD_RES, R0 .REF_STAT, R0 .REF_ALIGN_DELTA, R0 .REF_PHASE_LO, R0 .REF_PHASE_HI] [] [.regs, .cads, .cands, .ref, .locks] t)) ∧
  (∀ (c : Fin 32) (j : AlignJump) (s : State), s.ref.jumps.find? (fun j => j.ctr = c.val ∧ s.startOf c j.index ≤ s.cadTime) = some j →
    ∃ t, exec (.realignJump c) s = .next t ∧ t.ref.jumps = s.ref.jumps.filter (fun x => x.ctr ≠ c.val) ∧
      (t.ref.jumps = [] → t.flag (R0 .REF_STAT) F.REF_STAT_ALIGN_PEND = false ∧ t.flag (R0 .REF_EVT) F.REF_EVT_ALIGN_DONE = true ∧
        (s.fld (R0 .REF_CMD_RES) F.REF_CMD_RES_STATUS = 1 → t.fld (R0 .REF_CMD_RES) F.REF_CMD_RES_STATUS = 2)) ∧
      (∀ sd d, s.live sd = true → d ∈ s.outsOn c → t.flag (RS .XPT_OUT_STAT sd d) F.XPT_OUT_STAT_OFFSET_STEP = true) ∧
      s.touches [.REF_CMD_RES, .REF_EVT, .REF_STAT, .XPT_OUT_STAT, .EVT_STATUS] [.regs, .fired, .takes, .shown, .ref] t) ∧
  (∀ (c : Fin 32) (s : State), (∀ j ∈ s.ref.jumps, j.ctr ≠ c.val ∨ s.cadTime < s.startOf c j.index) → exec (.realignJump c) s = .next s)

/-- Start training, refresh accounting, the doubled rate with catch-up, and the retraining states of a pseudo-channel (R439, R440, R441, R442,
R444, R445, R446). -/
def Obligations.HbmTrainingRefreshAndTemperature : Prop :=
  (∀ (sd : Side) (ds : List (List Nat)) (s : State), s.live sd = false ∨ (s.side sd).trained = true → exec (.hbmStartTrainingDone sd ds) s = .next s) ∧
  (∀ (sd : Side) (ds : List (List Nat)) (s : State), s.live sd = true → (s.side sd).trained = false →
    ∃ t, exec (.hbmStartTrainingDone sd ds) s = .next t ∧ t.flag (RS .HBM_STAT sd 0) F.HBM_STAT_READY = true ∧ (t.side sd).trained = true ∧
      (∀ p < 32, (t.pc sd p).delays = ds.getD p [] ∧ (t.pc sd p).owed = (s.pc sd p).owed ∧
        ∀ k < 8, t.rd { name := .HBM_FIXDLY, i := p, j := k, bank := sd.idx } = w32 ((ds.getD p []).getD k 0 % 128)) ∧
      t.fld (R1 .RFE_RESYNC sd.idx) F.RFE_RESYNC_PHASE = 1 ∧
      s.touches [.HBM_FIXDLY, .HBM_PC_STAT, .HBM_STAT, .RFE_RESYNC, .RFE_STATE, .RFE_EVT, .EVT_STATUS] [.regs, .fired, .sideA, .sideB, .outSince, .hbmRun] t) ∧
  (∀ (sd : Side) (p : Fin 32) (s : State),
    (s.live sd = false ∨ s.flag (RS .HBM_STAT sd 0) F.HBM_STAT_SELF_REFRESH = true → exec (.hbmRefreshBoundary sd p) s = .next s) ∧
    (s.cadTime < s.boundaryAt sd (s.pc sd p) → exec (.hbmRefreshBoundary sd p) s = .next s) ∧
    (s.live sd = true → s.flag (RS .HBM_STAT sd 0) F.HBM_STAT_SELF_REFRESH = false → s.boundaryAt sd (s.pc sd p) ≤ s.cadTime →
      ∃ t, exec (.hbmRefreshBoundary sd p) s = .next t ∧
      t.pc sd p = { s.pc sd p with owed := (s.pc sd p).owed + 1, closed := (s.pc sd p).closed || decide (8 ≤ (s.pc sd p).owed), boundAt := some (s.boundaryAt sd (s.pc sd p)) } ∧
      t.fld (RS .HBM_PC_STAT sd p) F.HBM_PC_STAT_OWED = min 8 ((s.pc sd p).owed + 1) ∧
      (∀ i, i ≠ 2 * p.val + sd.idx → t.hbmRun.at i = s.hbmRun.at i) ∧ s.alters [RS .HBM_PC_STAT sd p] [] [.regs, .hbmRun] t) ∧
    (s.live sd = false ∨ (s.pc sd p).owed = 0 ∨ s.cadTime < (s.pc sd p).busyTo → exec (.hbmRefreshIssue sd p) s = .next s) ∧
    (∀ n, s.live sd = true → (s.pc sd p).owed = n + 1 → (s.pc sd p).busyTo ≤ s.cadTime → ∃ t, exec (.hbmRefreshIssue sd p) s = .next t ∧ (t.pc sd p).owed = n ∧
      (t.pc sd p).busyTo = s.cadTime + 410 * nsU ∧
      t.fld (RS .HBM_PC_STAT sd p) F.HBM_PC_STAT_OWED = min 8 n ∧
      t.flag (RS .HBM_PC_STAT sd p) F.HBM_PC_STAT_CATCH_UP = (s.flag (RS .HBM_PC_STAT sd p) F.HBM_PC_STAT_CATCH_UP && n != 0) ∧
      (t.pc sd p).closed = (s.flag (RS .HBM_PC_STAT sd p) F.HBM_PC_STAT_CATCH_UP && n != 0 || (s.pc sd p).closed && decide (8 ≤ n)) ∧
      (∀ i, i ≠ 2 * p.val + sd.idx → t.hbmRun.at i = s.hbmRun.at i) ∧ s.alters [RS .HBM_PC_STAT sd p] [] [.regs, .hbmRun] t)) ∧
  (∀ (sd : Side) (c mx : Int) (s : State), s.live sd = true → (∀ a, s.hbmTempAt.at sd.idx = some a → a + 100 * usTicks ≤ s.tick) → mx = ((s.hbmMax.at sd.idx).map fun m => max m c).getD c →
    (s.flag (RS .HBM_STAT sd 0) F.HBM_STAT_HOT = false → 85 ≤ c → ∃ u, exec (.hbmTempRead sd c) s = .next (u.cycle []) ∧
      u.fld (RS .HBM_TEMP sd 0) F.HBM_TEMP_TEMP = twos 8 c ∧ u.fld (RS .HBM_TEMP sd 0) F.HBM_TEMP_MAX = twos 8 mx ∧
      u.flag (RS .HBM_STAT sd 0) F.HBM_STAT_HOT = true ∧ u.flag (RS .HBM_EVT sd 0) F.HBM_EVT_HOT_ON = true ∧
      (∀ p < 32, (s.pc sd p).owed ≠ 0 → (u.pc sd p).closed = true ∧ u.flag (RS .HBM_PC_STAT sd p) F.HBM_PC_STAT_CATCH_UP = true ∧
        u.flag (RS .HBM_EVT sd 0) F.HBM_EVT_CATCH_UP = true) ∧
      (∀ p < 32, (u.pc sd p).boundAt = some s.cadTime ∧ (u.pc sd p).owed = (s.pc sd p).owed) ∧
      (∀ p < 32, (s.pc sd p).owed = 0 → (u.pc sd p).closed = (s.pc sd p).closed ∧
        u.flag (RS .HBM_PC_STAT sd p) F.HBM_PC_STAT_CATCH_UP = s.flag (RS .HBM_PC_STAT sd p) F.HBM_PC_STAT_CATCH_UP) ∧
      s.alters [RS .HBM_STAT sd 0, RS .HBM_EVT sd 0, RS .HBM_TEMP sd 0] [.HBM_PC_STAT, .EVT_STATUS] [.regs, .fired, .hbmRun, .hbmMax, .hbmTempAt] u) ∧
    (s.flag (RS .HBM_STAT sd 0) F.HBM_STAT_HOT = true → c ≤ 82 → ∃ u, exec (.hbmTempRead sd c) s = .next (u.cycle []) ∧
      u.fld (RS .HBM_TEMP sd 0) F.HBM_TEMP_TEMP = twos 8 c ∧ u.fld (RS .HBM_TEMP sd 0) F.HBM_TEMP_MAX = twos 8 mx ∧
      u.flag (RS .HBM_STAT sd 0) F.HBM_STAT_HOT = false ∧ u.flag (RS .HBM_EVT sd 0) F.HBM_EVT_HOT_OFF = true ∧
      s.alters [RS .HBM_STAT sd 0, RS .HBM_EVT sd 0, RS .HBM_TEMP sd 0] [.EVT_STATUS] [.regs, .fired, .hbmMax, .hbmTempAt] u) ∧
    ((if s.flag (RS .HBM_STAT sd 0) F.HBM_STAT_HOT then 82 < c else c < 85) → ∃ t, exec (.hbmTempRead sd c) s = .next t ∧
      t.fld (RS .HBM_TEMP sd 0) F.HBM_TEMP_TEMP = twos 8 c ∧ t.fld (RS .HBM_TEMP sd 0) F.HBM_TEMP_MAX = twos 8 mx ∧
      s.alters [RS .HBM_TEMP sd 0] [] [.regs, .hbmMax, .hbmTempAt] t)) ∧
  (∀ (sd : Side) (c : Int) (a : Nat) (s : State), s.live sd = false ∨ s.hbmTempAt.at sd.idx = some a ∧ s.tick < a + 100 * usTicks → exec (.hbmTempRead sd c) s = .next s) ∧
  (∀ (sd : Side) (p : Fin 32) (found : Option (List Nat)) (s : State), s.live sd = false ∨ 2 ≤ s.pcMode sd p → exec (.hbmRetrainPass sd p found) s = .next s) ∧
  (∀ (sd : Side) (p : Fin 32) (n : Nat) (s : State), s.live sd = true → n = s.fld (RS .HBM_PC_STAT sd p) F.HBM_PC_STAT_FAILS →
    (∀ ds, s.pcMode sd p = 0 → ∃ t, exec (.hbmRetrainPass sd p (some ds)) s = .next t ∧ (t.pc sd p).delays = ds ∧ t.pcMode sd p = 0 ∧
      t.fld (RS .HBM_PC_STAT sd p) F.HBM_PC_STAT_FAILS = 0 ∧ s.alters [RS .HBM_PC_STAT sd p] [] [.regs, .hbmRun] t) ∧
    (s.pcMode sd p = 0 → ∃ t, exec (.hbmRetrainPass sd p none) s = .next t ∧ t.flag (RS .HBM_EVT sd 0) F.HBM_EVT_TRAIN_FAIL = true ∧
      (n < 2 → t.pcMode sd p = 0 ∧ t.fld (RS .HBM_PC_STAT sd p) F.HBM_PC_STAT_FAILS = n + 1 ∧ (t.pc sd p).delays = (s.pc sd p).delays) ∧
      (2 ≤ n → t.pcMode sd p = 1 ∧ t.fld (RS .HBM_PC_STAT sd p) F.HBM_PC_STAT_FAILS = 3 ∧ (t.pc sd p).delays = s.fixdly sd p ∧
        t.flag (RS .HBM_EVT sd 0) F.HBM_EVT_FIXED = true) ∧
      s.alters [RS .HBM_PC_STAT sd p, RS .HBM_EVT sd 0] [.EVT_STATUS] [.regs, .fired, .hbmRun] t) ∧
    (∀ ds, s.pcMode sd p = 1 → ∃ t, exec (.hbmRetrainPass sd p (some ds)) s = .next t ∧
      ((s.pc sd p).goodRun = 15 → t.pcMode sd p = 0 ∧ t.fld (RS .HBM_PC_STAT sd p) F.HBM_PC_STAT_FAILS = 0 ∧ (t.pc sd p).delays = ds) ∧
      ((s.pc sd p).goodRun ≠ 15 → t.pcMode sd p = 1 ∧ (t.pc sd p).goodRun = (s.pc sd p).goodRun + 1 ∧ (t.pc sd p).delays = (s.pc sd p).delays) ∧
      s.alters [RS .HBM_PC_STAT sd p] [] [.regs, .hbmRun] t) ∧
    (s.pcMode sd p = 1 → ∃ t, exec (.hbmRetrainPass sd p none) s = .next t ∧ t.pcMode sd p = 1 ∧ (t.pc sd p).goodRun = 0 ∧
      (t.pc sd p).delays = (s.pc sd p).delays ∧ t.flag (RS .HBM_EVT sd 0) F.HBM_EVT_TRAIN_FAIL = true ∧
      s.alters [RS .HBM_PC_STAT sd p, RS .HBM_EVT sd 0] [.EVT_STATUS] [.regs, .fired, .hbmRun] t)) ∧
  (∀ (sd : Side) (found : List (Option (List Nat))) (s : State),
    (s.live sd = false ∨ s.flag (RS .HBM_STAT sd 0) F.HBM_STAT_SELF_REFRESH = false → exec (.hbmSelfRefreshExit sd found) s = .next s) ∧
    (s.live sd = true → s.flag (RS .HBM_STAT sd 0) F.HBM_STAT_SELF_REFRESH = true → ∃ t, exec (.hbmSelfRefreshExit sd found) s = .next t ∧
      t.flag (RS .HBM_STAT sd 0) F.HBM_STAT_SELF_REFRESH = false ∧
      (∀ p < 32, ∀ ds, s.pcMode sd p = 0 → found.getD p none = some ds → (t.pc sd p).delays = ds ∧ t.fld (RS .HBM_PC_STAT sd p) F.HBM_PC_STAT_FAILS = 0) ∧
      s.alters [RS .HBM_STAT sd 0, RS .HBM_EVT sd 0] [.HBM_PC_STAT, .EVT_STATUS] [.regs, .fired, .hbmRun] t))

/-- Parity alerts, uncorrectable words, scrubs, late reads, promotion and row activates count, raise events, drive Assay lines and refresh
neighbours (R437, R438, R443, R446, R447, R448, R449, R451). -/
def Obligations.MemoryFaultsAreCountedAndDriven : Prop :=
  (∀ (sd : Side) (p : Fin 32) (ok : Bool) (n : Nat) (s : State), s.live sd = true → ok = true ∨ (s.pc sd p).replays < 2 ∨ n = 0 ∨ s.pcMode sd p ≠ 1 →
    ∃ u, exec (.parAlert sd p ok n) s = .next (if ok = false ∧ 2 ≤ (s.pc sd p).replays then u.cycle [(lineOf sd 2, w32 (p.val + 256))] else u) ∧
      u.fld (RS .HBM_PC_PAR sd p) F.HBM_PC_PAR_ALERTS = min 65535 (s.fld (RS .HBM_PC_PAR sd p) F.HBM_PC_PAR_ALERTS + 1) ∧
      u.fld (RS .HBM_PC_PAR sd p) F.HBM_PC_PAR_REPLAYS = min 65535 (s.fld (RS .HBM_PC_PAR sd p) F.HBM_PC_PAR_REPLAYS + 1) ∧
      u.flag (RS .HBM_EVT sd 0) F.HBM_EVT_PAR_ALERT = true ∧
      (u.pc sd p).replays = (if ok = true ∨ 2 ≤ (s.pc sd p).replays then 0 else (s.pc sd p).replays + 1) ∧
      u.rd (RS .HBM_UNCORR sd 0) = s.rd (RS .HBM_UNCORR sd 0) + (if ok = false ∧ 2 ≤ (s.pc sd p).replays then w32 n else 0) ∧
      s.alters [RS .HBM_PC_PAR sd p, RS .HBM_PC_STAT sd p, RS .HBM_UNCORR sd 0, RS .HBM_EVT sd 0] [.EVT_STATUS] [.regs, .fired, .hbmRun] u) ∧
  (∀ (sd : Side) (p : Fin 32) (n : Nat) (s : State), s.live sd = true → 2 ≤ (s.pc sd p).replays → n ≠ 0 → s.pcMode sd p = 1 →
    ∃ u, exec (.parAlert sd p false n) s = .next ((u.cycle []).cycle [(lineOf sd 2, w32 (p.val + 256))]) ∧ u.pcMode sd p = 2 ∧ (u.pc sd p).replays = 0 ∧
      u.rd (RS .HBM_UNCORR sd 0) = s.rd (RS .HBM_UNCORR sd 0) + w32 n ∧ u.flag (RS .HBM_EVT sd 0) F.HBM_EVT_EXHAUSTED = true ∧
      s.alters [RS .HBM_PC_PAR sd p, RS .HBM_PC_STAT sd p, RS .HBM_UNCORR sd 0, RS .HBM_EVT sd 0] [.EVT_STATUS] [.regs, .fired, .hbmRun] u) ∧
  (∀ (sd : Side) (p : Fin 32) (c : Instr) (s : State), s.live sd = true →
    c = .hbmUncorrRead sd p ∨ c = .hbmScrub sd p 0 0 1 ∧ s.flag (RS .HBM_CFG sd 0) F.HBM_CFG_SCRUB_EN = true →
    (s.pcMode sd p ≠ 1 → ∃ u, exec c s = .next (u.cycle [(lineOf sd 2, w32 p.val)]) ∧ u.rd (RS .HBM_UNCORR sd 0) = s.rd (RS .HBM_UNCORR sd 0) + 1 ∧
      u.flag (RS .HBM_EVT sd 0) F.HBM_EVT_UNCORR = true ∧
      s.alters [RS .HBM_UNCORR sd 0, RS .HBM_EVT sd 0] [.HBM_PC_CORR, .HBM_PC_STAT, .EVT_STATUS] [.regs, .fired, .hbmRun] u) ∧
    (c = .hbmUncorrRead sd p → s.pcMode sd p = 1 → ∃ u, exec c s = .next ((u.cycle []).cycle [(lineOf sd 2, w32 p.val)]) ∧ u.pcMode sd p = 2 ∧
      u.rd (RS .HBM_UNCORR sd 0) = s.rd (RS .HBM_UNCORR sd 0) + 1 ∧ u.flag (RS .HBM_EVT sd 0) F.HBM_EVT_EXHAUSTED = true ∧
      s.alters [RS .HBM_UNCORR sd 0, RS .HBM_EVT sd 0, RS .HBM_PC_STAT sd p] [.EVT_STATUS] [.regs, .fired] u)) ∧
  (∀ (sd : Side) (p : Fin 32) (a b : Nat) (s : State), s.live sd = true → s.flag (RS .HBM_CFG sd 0) F.HBM_CFG_SCRUB_EN = true →
    ∃ u, exec (.hbmScrub sd p a b 0) s = .next (if s.pcMode sd p = 1 ∧ 64 < (s.pc sd p).corr + a + b then u.cycle [] else u) ∧
      u.fld (RS .HBM_PC_CORR sd p) F.HBM_PC_CORR_CTRL = min 65535 (s.fld (RS .HBM_PC_CORR sd p) F.HBM_PC_CORR_CTRL + a) ∧
      u.fld (RS .HBM_PC_CORR sd p) F.HBM_PC_CORR_ODIE = min 65535 (s.fld (RS .HBM_PC_CORR sd p) F.HBM_PC_CORR_ODIE + b) ∧
      (u.pc sd p).corr = (s.pc sd p).corr + a + b ∧ (s.pcMode sd p = 1 → u.pcMode sd p = if 64 < (s.pc sd p).corr + a + b then 2 else 1) ∧
      s.alters [RS .HBM_PC_CORR sd p, RS .HBM_PC_STAT sd p, RS .HBM_EVT sd 0] [.EVT_STATUS] [.regs, .fired, .hbmRun] u) ∧
  (∀ (sd : Side) (p : Fin 32) (a b n : Nat) (s : State), s.flag (RS .HBM_CFG sd 0) F.HBM_CFG_SCRUB_EN = false → exec (.hbmScrub sd p a b n) s = .next s) ∧
  (∀ (sd : Side) (area : SramArea) (c off : Nat) (s : State), s.live sd = true →
    (∃ t, exec (.sramScrub sd area c none) s = .next t ∧ t.rd (RS .HBM_SRAM_CORR sd 0) = s.rd (RS .HBM_SRAM_CORR sd 0) + w32 c ∧
      s.alters [RS .HBM_SRAM_CORR sd 0] [] [.regs] t) ∧
    ∃ u, exec (.sramScrub sd area c (some off)) s = .next (if area = .firmware then u.cycle [(lineOf sd 0, w32 (1 + off % 2 ^ 24 * 256))] else u) ∧
      u.rd (RS .HBM_SRAM_CORR sd 0) = s.rd (RS .HBM_SRAM_CORR sd 0) + w32 c ∧ u.rd (RS .HBM_SRAM_UNCORR sd 0) = s.rd (RS .HBM_SRAM_UNCORR sd 0) + 1 ∧
      u.flag (RS .HBM_EVT sd 0) F.HBM_EVT_SRAM_UNCORR = true ∧
      s.alters [RS .HBM_SRAM_CORR sd 0, RS .HBM_SRAM_UNCORR sd 0, RS .HBM_EVT sd 0] [.EVT_STATUS] [.regs, .fired] u) ∧
  (∀ (sd : Side) (k : Fin 6) (user : Nat) (s : State), s.live sd = true → ∃ t, exec (.late sd k user) s = .next t ∧ t.rd (RS .HBM_LATE sd k) = s.rd (RS .HBM_LATE sd k) + 1 ∧
    t.flag (RS .HBM_EVT sd 0) F.HBM_EVT_LATE = true ∧
    (∀ i, k.val = 0 → (s.feeds.at (2 * user + sd.idx)).findIdx? (fun x => x.bench.isSome) = some i →
      t.feeds.at (2 * user + sd.idx) = (s.feeds.at (2 * user + sd.idx)).eraseIdx i) ∧
    (k.val = 2 → (t.tiles.at (2 * user + sd.idx)).late = true) ∧
    (k.val = 3 → t.audLate.at (2 * user + sd.idx) = ((s.audDst.at user).hist.head?.map fun h => h.1 + 1).getD (s.audLate.at (2 * user + sd.idx))) ∧
    (∀ j, j ≠ 2 * user + sd.idx → t.feeds.at j = s.feeds.at j) ∧
    (∀ j, j ≠ 2 * user + sd.idx → t.tiles.at j = s.tiles.at j) ∧
    (∀ j, j ≠ 2 * user + sd.idx → t.audLate.at j = s.audLate.at j) ∧
    (k.val = 1 ∨ 4 ≤ k.val → s.alters [RS .HBM_LATE sd k, RS .HBM_EVT sd 0] [.EVT_STATUS] [.regs, .fired] t) ∧
    s.alters [RS .HBM_LATE sd k, RS .HBM_EVT sd 0] [.EVT_STATUS] [.regs, .fired, .feeds, .tiles, .audLate] t) ∧
  (∀ (sd : Side) (p : Fin 32) (id w age : Nat) (s : State), s.live sd = true → age = max 1 (s.fld (RS .HBM_CFG sd 0) F.HBM_CFG_AGE) →
    (w ≤ age ∨ id ∈ (s.pc sd p).promoted → exec (.hbmRequestPromote sd p id w) s = .next s) ∧
    (age < w → id ∉ (s.pc sd p).promoted → ∃ t, exec (.hbmRequestPromote sd p id w) s = .next t ∧
      (t.pc sd p).promoted = (s.pc sd p).promoted ++ [id] ∧ (t.pc sd p).owed = (s.pc sd p).owed ∧ s.alters [RS .HBM_PC_STAT sd p] [] [.regs, .hbmRun] t)) ∧
  (∀ (sd : Side) (p : Fin 32) (row th i c r' : Nat) (tb : List (Nat × Nat)) (s : State), s.live sd = true → tb = (s.pc sd p).table →
    th = max 128 (min 16384 (s.fld (RS .HBM_RH_CFG sd 0) F.HBM_RH_CFG_THRESH)) →
    ((∀ e ∈ tb, e.1 ≠ row) → tb.length < 128 → ∃ t, exec (.hbmActivate sd p row) s = .next t ∧ (t.pc sd p).table = tb ++ [(row, 1)] ∧
      s.alters [RS .HBM_PC_STAT sd p] [] [.regs, .hbmRun] t) ∧
    (tb[i]? = some (r', c) → (r' = row ∧ ∀ j < i, ∀ e, tb[j]? = some e → e.1 ≠ row) ∨ (∀ e ∈ tb, e.1 ≠ row) ∧ 128 ≤ tb.length ∧ (∀ e ∈ tb, c ≤ e.2) ∧
        (∀ j < i, ∀ e, tb[j]? = some e → c < e.2) →
      ∃ t, exec (.hbmActivate sd p row) s = .next t ∧ (t.pc sd p).table = tb.set i (row, if c + 1 < th then c + 1 else 0) ∧
        t.rd (RS .HBM_PC_RFM sd p) = s.rd (RS .HBM_PC_RFM sd p) + (if c + 1 < th then 0 else 1) ∧
        s.alters [RS .HBM_PC_STAT sd p, RS .HBM_PC_RFM sd p] [] [.regs, .hbmRun] t)) ∧
  (∀ (sd : Side) (p : Fin 32) (s : State), s.live sd = true →
    (s.tick < (s.pc sd p).rhAt + 32 * msTicks → exec (.hbmRhWindow sd p) s = .next s) ∧
    ((s.pc sd p).rhAt + 32 * msTicks ≤ s.tick → ∃ t, exec (.hbmRhWindow sd p) s = .next t ∧ (t.pc sd p).table = [] ∧ (t.pc sd p).rhAt = s.tick ∧
      s.alters [RS .HBM_PC_STAT sd p] [] [.regs, .hbmRun] t)) ∧
  (∀ (sd : Side) (p : Fin 32) (s : State), s.live sd = false →
    ∀ c, (∃ ok n, c = .parAlert sd p ok n) ∨ c = .hbmUncorrRead sd p ∨ (∃ a b n, c = .hbmScrub sd p a b n) ∨ (∃ area n o, c = .sramScrub sd area n o) ∨
      (∃ k u, c = .late sd k u) ∨ (∃ i w, c = .hbmRequestPromote sd p i w) ∨ (∃ row, c = .hbmActivate sd p row) ∨ c = .hbmRhWindow sd p → exec c s = .next s)

/-- A Hopper takes words into an open packet, shows it whole at COMMIT, gives way oldest first when full, and is read word by word (R452, R453,
R454, R455, R456, R457). -/
def Obligations.HoppersKeepWholePackets : Prop :=
  (∀ (r : Req) (sd : Side) (q : Fin 64) (v : W32) (h : Hopper) (s : State), s.granted r (Target.ofSide sd) → s.live sd = true →
    s.hopAdmits r sd q F.HOP_CFG_PROD = true → h = s.hoppers.at (hopIx sd q) →
    (s.hopMode sd q = 0 → ∃ t, exec (.hopPush r sd q v) s = .next t ∧ s.changesOnly [.locks] t) ∧
    (s.hopMode sd q = 1 → (h.open_.getD []).length < 16383 → (if h.open_.isSome then 1 else 2) ≤ h.free false → ∃ t, exec (.hopPush r sd q v) s = .next t ∧
      t.hoppers.at (hopIx sd q) = { h with open_ := some (h.open_.getD [] ++ [v]) } ∧ (∀ i, i ≠ hopIx sd q → t.hoppers.at i = s.hoppers.at i) ∧
      t.rd (RS .HOP_SPOIL sd q) = s.rd (RS .HOP_SPOIL sd q) ∧ t.rd (RS .HOP_EVT sd q) = s.rd (RS .HOP_EVT sd q) ∧
      s.alters [] [] [.regs, .hoppers, .locks] t) ∧
    (∀ k x rest, s.hopMode sd q = 1 → (h.open_.getD []).length < 16383 → h.free false < (if h.open_.isSome then 1 else 2) →
      h.items = (if h.partly then k :: x :: rest else x :: rest) → ∃ t, exec (.hopPush r sd q v) s = .next t ∧
      t.hoppers.at (hopIx sd q) = { h with items := (if h.partly then k :: rest else rest), open_ := some (h.open_.getD [] ++ [v]) } ∧
      t.rd (RS .HOP_SPOIL sd q) = s.rd (RS .HOP_SPOIL sd q) + 1 ∧ t.flag (RS .HOP_EVT sd q) F.HOP_EVT_SPOIL = true ∧
      s.alters [RS .HOP_SPOIL sd q, RS .HOP_EVT sd q] [.EVT_STATUS] [.regs, .fired, .hoppers, .locks] t) ∧
    (s.hopMode sd q = 1 → (h.open_.getD []).length < 16383 → h.free false < (if h.open_.isSome then 1 else 2) →
      h.items.length < (if h.partly then 2 else 1) → ∃ t, exec (.hopPush r sd q v) s = .next t ∧ t.hoppers.at (hopIx sd q) = { h with open_ := none } ∧
      t.rd (RS .HOP_SPOIL sd q) = s.rd (RS .HOP_SPOIL sd q) + 1 ∧ t.flag (RS .HOP_EVT sd q) F.HOP_EVT_DISCARD = true ∧
      s.alters [RS .HOP_SPOIL sd q, RS .HOP_EVT sd q] [.EVT_STATUS] [.regs, .fired, .hoppers, .locks] t) ∧
    (s.hopMode sd q = 1 → (h.open_.getD []).length = 16383 → ∃ t, exec (.hopPush r sd q v) s = .next t ∧ t.hoppers.at (hopIx sd q) = { h with open_ := none } ∧
      t.rd (RS .HOP_SPOIL sd q) = s.rd (RS .HOP_SPOIL sd q) + 1 ∧ t.flag (RS .HOP_EVT sd q) F.HOP_EVT_TOO_LONG = true ∧
      s.alters [RS .HOP_SPOIL sd q, RS .HOP_EVT sd q] [.EVT_STATUS] [.regs, .fired, .hoppers, .locks] t) ∧
    (∀ e x, s.hopMode sd q = 2 → e = s.fld (RS .HOP_CFG sd q) F.HOP_CFG_ENTRY + 1 → x = h.open_.getD [] ++ [v] → 1 ≤ h.free true →
      ∃ t, exec (.hopPush r sd q v) s = .next t ∧
        t.hoppers.at (hopIx sd q) = (if x.length = e then { h with items := h.items ++ [x], open_ := none } else { h with open_ := some x }) ∧
        s.alters [] [.EVT_STATUS] [.regs, .fired, .hoppers, .locks] t) ∧
    (∀ e x k y rest o, s.hopMode sd q = 2 → e = s.fld (RS .HOP_CFG sd q) F.HOP_CFG_ENTRY + 1 → x = h.open_.getD [] ++ [v] → h.free true = 0 →
      h.items = (if h.partly then k :: y :: rest else y :: rest) → o = (if h.partly then k :: rest else rest) → ∃ t, exec (.hopPush r sd q v) s = .next t ∧
        t.hoppers.at (hopIx sd q) = (if x.length = e then { h with items := o ++ [x], open_ := none } else { h with items := o, open_ := some x }) ∧
        t.rd (RS .HOP_SPOIL sd q) = s.rd (RS .HOP_SPOIL sd q) + 1 ∧ t.flag (RS .HOP_EVT sd q) F.HOP_EVT_SPOIL = true ∧
        s.alters [RS .HOP_SPOIL sd q, RS .HOP_EVT sd q] [.EVT_STATUS] [.regs, .fired, .hoppers, .locks] t) ∧
    (s.hopMode sd q ≠ 1 → (∃ t, exec (.hopCommit r sd q) s = .next t ∧ s.changesOnly [.locks] t) ∧
      ∃ t, exec (.hopAbort r sd q) s = .next t ∧ s.changesOnly [.locks] t) ∧
    (∀ x, s.hopMode sd q = 1 → h.open_ = some x → x ≠ [] → ∃ t, exec (.hopCommit r sd q) s = .next t ∧
      t.hoppers.at (hopIx sd q) = { h with items := h.items ++ [x], open_ := none } ∧ s.alters [] [.EVT_STATUS] [.regs, .fired, .hoppers, .locks] t) ∧
    (s.hopMode sd q = 1 → h.open_ = none → ∃ t, exec (.hopCommit r sd q) s = .next t ∧ t.hoppers.at (hopIx sd q) = h ∧
      s.alters [] [] [.regs, .hoppers, .locks] t) ∧
    (s.hopMode sd q = 1 → ∃ t, exec (.hopAbort r sd q) s = .next t ∧ t.hoppers.at (hopIx sd q) = { h with open_ := none } ∧
      s.alters [] [] [.hoppers, .locks] t)) ∧
  (∀ (r : Req) (sd : Side) (q : Fin 64) (e : Ecc) (be : Fin 16) (h : Hopper) (s : State), s.granted r (Target.ofSide sd) → s.live sd = true →
    s.hopAdmits r sd q F.HOP_CFG_CONS = true → h = s.hoppers.at (hopIx sd q) →
    (h.items = [] → ∃ t, exec (.hopPop r sd q e be) s = .next t ∧ t.lastRead.at r.num = 0 ∧ t.hoppers.at (hopIx sd q) = h ∧
      s.alters [] [] [.lastRead, .hoppers, .locks] t) ∧
    (∀ w x rest, h.items = (w :: x) :: rest → ∃ t, exec (.hopPop r sd q e be) s = .next t ∧ t.lastRead.at r.num = bytesOf be w ∧
      t.hoppers.at (hopIx sd q) = { h with items := if x = [] then rest else x :: rest, partly := decide (x ≠ []) } ∧
      t.fld (RS .HOP_ECC sd q) F.HOP_ECC_CORR = (if e = .corrected then min 65535 (s.fld (RS .HOP_ECC sd q) F.HOP_ECC_CORR + 1) else s.fld (RS .HOP_ECC sd q) F.HOP_ECC_CORR) ∧
      t.fld (RS .HOP_ECC sd q) F.HOP_ECC_UNCORR =
        (if e = .uncorrectable then min 65535 (s.fld (RS .HOP_ECC sd q) F.HOP_ECC_UNCORR + 1) else s.fld (RS .HOP_ECC sd q) F.HOP_ECC_UNCORR) ∧
      (e = .uncorrectable → t.flag (RS .HOP_EVT sd q) F.HOP_EVT_UNCORR = true) ∧
      s.alters [RS .HOP_ECC sd q, RS .HOP_EVT sd q] [.EVT_STATUS] [.regs, .fired, .lastRead, .hoppers, .locks] t)) ∧
  (∀ (r : Req) (sd : Side) (q : Fin 64) (v : W32) (m : Nat) (s : State), s.granted r (Target.ofSide sd) → s.live sd = true → memAdmin r sd = true →
    m = getF v F.HOP_CFG_MODE →
    (m = 0 ∨ m = 3 → ∃ t, exec (.hopCfgWrite r sd q v) s = .next t ∧ t.hoppers.at (hopIx sd q) = {} ∧ t.rd (RS .HOP_CFG sd q) = v &&& 0x3FFF#32 ∧
      (∀ i, i ≠ hopIx sd q → t.hoppers.at i = s.hoppers.at i) ∧ s.alters [RS .HOP_CFG sd q] [] [.regs, .hoppers, .locks] t) ∧
    (m = 1 ∨ m = 2 → s.hopMode sd q = 0 → ∃ t, exec (.hopCfgWrite r sd q v) s = .next t ∧ t.rd (RS .HOP_CFG sd q) = v &&& 0x3FFF#32 ∧
      s.alters [RS .HOP_CFG sd q] [] [.regs, .locks] t) ∧
    (m = 1 ∨ m = 2 → s.hopMode sd q ≠ 0 → ∃ t, exec (.hopCfgWrite r sd q v) s = .next t ∧ t.flag (RS .HOP_EVT sd q) F.HOP_EVT_CFG_BUSY = true ∧
      s.alters [RS .HOP_EVT sd q] [.EVT_STATUS] [.regs, .fired, .locks] t)) ∧
  (∀ (r : Req) (sd : Side) (q : Fin 64) (v : W32) (s : State), s.granted r (Target.ofSide sd) → s.live sd = true → s.hopAdmits r sd q F.HOP_CFG_PROD = false →
    ∀ c ∈ [Instr.hopPush r sd q v, .hopCommit r sd q, .hopAbort r sd q], ∃ t, exec c s = .next t ∧ bitOf (t.rd (RB .STR_ERR r 0)) 0 = true ∧
      s.alters [RB .STR_ERR r 0, RB .STR_ERR_ADDR r 0] [] [.regs, .locks] t)

/-- A step runs the command at the front of the queue on the state with the queue's rest, and idles on an empty queue
(95_what_each_step_holds.md). -/
def Obligations.StepTakesTheCommandThatWaitsLongest : Prop :=
  (∀ (c : Instr) (rest : List Instr) (s : State), step { s with pending := c :: rest } = exec c { s with pending := rest }) ∧
  (∀ s : State, s.pending = [] → step s = .next s)

/-- A read of STR_ID returns the reader's own requester number and master port (R464). -/
def Obligations.StrIdNamesTheReader : Prop :=
  ∀ (r : Req) (m : Nat) (ahead : Nat) (s : State), m = reqMaster r ∨ m = 7 → s.aoReset = false →
    ∃ v t, s.busRead m r 0x00500008#32 ahead = .done v t ∧ getF v F.STR_ID_REQ = r.num ∧ getF v F.STR_ID_MASTER = m ∧ v.toNat < 128

/-- Lock requests queue, the one that comes first is granted, and a lock ends by release, withdrawal or force (R476, R477, R478, R487). -/
def Obligations.StrataLocksAreGrantedInOrderAndReleased : Prop :=
  (∀ (r : Req) (t : Fin 16) (s : State), s.granted r .strata → t.val < 12 → s.lockOf r = none →
    ∃ u, exec (.strLockGo r t) s = .next u ∧ u.locks = s.locks ++ [{ req := r.num, target := t.val, asked := s.tick }] ∧ u.waiting = s.waiting ∧ s.changesOnly [.locks] u) ∧
  (∀ (r : Req) (t : Fin 16) (s : State), s.granted r .strata → locksOk s.locks → 12 ≤ t.val ∨ (s.lockOf r).isSome = true →
    ∃ u, exec (.strLockGo r t) s = .next u ∧ u.flag (RB .STR_ERR r 0) F.STR_ERR_LOCK_ERR = true ∧
      s.regsSame (· = RB .STR_ERR r 0) u ∧ s.changesOnly [.regs] u) ∧
  (∀ (t : Fin 12) (s : State) (l : Lock), l ∈ s.locks → l.target = t.val → l.since = none → (∀ x ∈ s.locks, x.target = t.val → x.since = none) →
    (∀ x ∈ s.locks, x.target = t.val → x ≠ l → s.lockBefore l x = true) →
    ∃ u, exec (.strLockGrant t) s = .next u ∧ u.locks = s.locks.map (fun x => if x = l then { x with since := some s.tick } else x) ∧
      u.waiting = s.waiting ∧ s.changesOnly [.locks] u) ∧
  (∀ (a b : Lock) (s : State), s.lockBefore a b = true ↔ a.asked < b.asked ∨ a.asked = b.asked ∧ (s.qos (masterOfNum b.req) < s.qos (masterOfNum a.req) ∨
    s.qos (masterOfNum a.req) = s.qos (masterOfNum b.req) ∧ a.req < b.req)) ∧
  (∀ (t : Fin 12) (s : State), (∃ x ∈ s.locks, x.target = t.val ∧ x.since.isSome = true) ∨ (∀ x ∈ s.locks, x.target ≠ t.val) →
    exec (.strLockGrant t) s = .next s) ∧
  (∀ (r : Req) (s : State), s.granted r .strata →
    ∃ u, exec (.strLockRelease r) s = .next u ∧ u.lockOf r = none ∧ (∀ r' : Req, r' ≠ r → u.lockOf r' = s.lockOf r') ∧ s.changesOnly [.locks] u) ∧
  (∀ (r : Req) (s : State) (l : Lock) (at_ : Nat), s.lockOf r = some l → l.since = some at_ → 64 ≤ l.beats ∨ at_ + 500 ≤ s.tick →
    ∃ u, exec (.lockForced r) s = .next u ∧ u.lockOf r = none ∧ (∀ r' : Req, r' ≠ r → u.lockOf r' = s.lockOf r') ∧
      u.flag (RB .STR_ERR r 0) F.STR_ERR_LOCK_BROKEN = true ∧ u.flag (R0 .STR_EVT) F.STR_EVT_LOCK_FORCED = true ∧
      s.regsSame (fun k => k = RB .STR_ERR r 0 ∨ k = R0 .STR_EVT ∨ k.name = .EVT_STATUS) u ∧ s.changesOnly [.regs, .locks, .fired] u)

/-- A window access moves one word at WIN_ADDR, leaves every other byte alone and advances WIN_ADDR; a denied one advances it too (R481, R482,
R483). -/
def Obligations.WindowAccessesMoveOneWordAndAdvance : Prop :=
  (∀ (r : Req) (be : Fin 16) (ahead : Fin 17) (s : State), s.aoReset = false → s.hasWaiting r = false → s.winWaits r = false → s.winBuf.at r.num = [] →
    s.winCheck (reqMaster r) r (s.winTgt r) (s.winAddr r) false = .ok →
    ∃ u, exec (.winDataAccess r none be ahead) s = .next u ∧ u.lastRead.at r.num = bytesOf be (s.winWord (s.winTgt r) (s.winAddr r)) ∧
      u.winAddr r = s.winNext r ∧ s.regsSame (isWinAddr r) u ∧ s.changesOnly [.regs, .locks, .lastRead, .winBuf] u) ∧
  (∀ (r : Req) (v : W32) (ahead : Fin 17) (s : State), s.aoReset = false → s.hasWaiting r = false → s.winWaits r = false → s.winTgt r ∈ [6, 7, 10, 11] →
    s.winCheck (reqMaster r) r (s.winTgt r) (s.winAddr r) true = .ok →
    ∃ u, exec (.winDataAccess r (some v) 15 ahead) s = .next u ∧ memWord (u.winMem (s.winTgt r)) (s.winAddr r) = v ∧
      (∀ b, b < s.winAddr r ∨ s.winAddr r + 4 ≤ b → memByte (u.winMem (s.winTgt r)) b = memByte (s.winMem (s.winTgt r)) b) ∧
      (∀ x, x ≠ s.winTgt r → u.winMem x = s.winMem x) ∧
      u.winAddr r = s.winNext r ∧ s.regsSame (isWinAddr r) u ∧
      s.changesOnly [.regs, .locks, .winBuf, .hbmA, .hbmB, .sramA, .sramB] u) ∧
  (∀ (r : Req) (be : Fin 16) (ahead : Fin 17) (s : State), s.aoReset = false → s.hasWaiting r = false → s.winWaits r = false →
    s.winCheck (reqMaster r) r (s.winTgt r) (s.winAddr r) false = .denied →
    ∃ u, exec (.winDataAccess r none be ahead) s = .next u ∧ u.lastRead.at r.num = bytesOf be 0xFFFFFFFF#32 ∧
      u.flag (RB .STR_ERR r 0) F.STR_ERR_DENIED = true ∧ u.winAddr r = s.winNext r ∧
      s.regsSame (fun k => isWinAddr r k ∨ k = RB .STR_ERR r 0 ∨ k = RB .STR_ERR_ADDR r 0) u ∧
      s.changesOnly [.regs, .locks, .lastRead, .winBuf] u) ∧
  (∀ (r : Req) (be : Fin 16) (ahead : Fin 17) (s : State), s.aoReset = false → s.hasWaiting r = false → s.winWaits r = false → s.winTgt r ∉ [6, 7, 8, 10, 11] →
    ∃ u, exec (.winDataAccess r none be ahead) s = .next u ∧ u.lastRead.at r.num = 0 ∧
      u.flag (RB .STR_ERR r 0) F.STR_ERR_UNMAPPED = true ∧ u.winAddr r = s.winNext r ∧
      s.regsSame (fun k => isWinAddr r k ∨ k = RB .STR_ERR r 0) u ∧ s.changesOnly [.regs, .locks, .lastRead, .winBuf] u) ∧
  (∀ (r : Req) (g : WinReg) (v : W32) (s : State), s.granted r .strata →
    ∃ u, exec (.winAddrWrite r g v) s = .next u ∧ u.rd (RB g.reg.1 r 0) = v &&& g.reg.2 ∧ u.winBuf.at r.num = [] ∧
      (∀ q, q ≠ r.num → u.winBuf.at q = s.winBuf.at q) ∧ s.regsSame (· = RB g.reg.1 r 0) u ∧ s.changesOnly [.regs, .locks, .winBuf] u)

/-- A whole-word REG_WRITE that passes its checks stores RW fields, clears W1C bits written 1 and leaves every other register alone (R2, R6, R7,
R471, R477). -/
def Obligations.RegisterWritesStoreByAccessType : Prop :=
  ∀ (r : Req) (addr v : W32) (s : State) (t : Target) (k : RegKey), locate r (addr.toNat / 4 * 4) = .reg t k →
    k.name ∈ [RegName.SYS_STATUS, .SYS_EVT, .RFE_CFG, .RFE_LEASE, .RFE_WDOG_PERIOD, .RFE_SWO_FRAME, .RFE_EVT, .SLU_EVT, .HAF_CFG, .HAF_EVT,
      .ASY_ISO_CFG, .ASY_EVMASK0, .MBX_EVT, .STR_ERR, .STR_EVT, .STR_MCFG, .TB_CFG, .TB_RATE_LO, .TB_STEP_LO, .TB_EVT, .TB_CMP_LO,
      .PTP_INGRESS, .PTP_PORT_EVT, .REF_TIMING, .REF_PULSE_CFG, .TDM_CFG, .TDM_EVT, .LANE_EVT, .NVL_EVT, .SDI_EVT, .ETH_PORT_CFG,
      .ETH_PORT_EVT, .ETH_RXF_EVT, .ETH_TXF_PKT, .ALY_EVT, .AUD_DST_EVT, .HBM_CFG, .HBM_EVT, .HOP_EVT, .SEAM_EVT, .FSY_EVT] →
    s.granted r t → s.idleTarget t = false → s.noPage k = false → s.mayWrite r k v = true → t ≠ .twin →
    ∃ u, exec (.regWrite r false addr v 15) s = .next u ∧ u.rd k = k.name.row.stored (s.rd k) (s.clearable k v) ∧ s.regsSame (· = k) u ∧
      s.changesOnly [.regs, .locks] u

/-- A write that fails a check is ignored and sets the bit of the first check it fails, and no other register; one that meets a lock waits (R3,
R31, R471, R477, R480, R577). -/
def Obligations.RefusedWritesSetOneErrorBitOnly : Prop :=
  ∀ (r : Req) (addr v : W32) (be : Fin 16) (w : Waiting) (s : State), s.aoReset = false →
    w = { master := reqMaster r, req := r, target := s.targetNum r addr, addr := addr, data := some v, be := be, since := s.tick } →
    (s.hasWaiting r = true → ∃ u, exec (.regWrite r false addr v be) s = .next u ∧ u.waiting = s.waiting ++ [w] ∧ u.locks = s.locks ∧ s.changesOnly [.locks] u) ∧
    (s.hasWaiting r = false → (locate r (addr.toNat / 4 * 4) = .unmapped →
      ∃ u, exec (.regWrite r false addr v be) s = .next u ∧ u.flag (RB .STR_ERR r 0) F.STR_ERR_UNMAPPED = true ∧
        s.regsSame (· = RB .STR_ERR r 0) u ∧ s.changesOnly [.regs] u) ∧
    (∀ t k, locate r (addr.toNat / 4 * 4) = .reg t k →
      ((hasPath r t = false ∨ (s.idleTarget t = false ∨ k.name.row.twin = true) ∧ s.mayWrite r k v = false) →
        ∃ u, exec (.regWrite r false addr v be) s = .next u ∧ u.flag (RB .STR_ERR r 0) F.STR_ERR_DENIED = true ∧
          (s.flag (RB .STR_ERR r 0) F.STR_ERR_DENIED = false → u.rd (RB .STR_ERR_ADDR r 0) = addr &&& 0xFFFFFFFC#32) ∧
          s.regsSame (fun x => x = RB .STR_ERR r 0 ∨ x = RB .STR_ERR_ADDR r 0) u ∧ s.changesOnly [.regs] u) ∧
      (hasPath r t = true → s.mayWrite r k v = true → s.lockedOut r t.num = true →
        ∃ u, exec (.regWrite r false addr v be) s = .next u ∧ u.waiting = s.waiting ++ [w] ∧ u.locks = s.locks ∧ s.changesOnly [.locks] u) ∧
      (s.granted r t → s.mayWrite r k v = true → t = .sideA ∨ t = .sideB → k.name.row.twin = true →
        ∃ u, exec (.regWrite r false addr v be) s = .next u ∧ u.flag (RB .SYS_STATUS r 0) F.SYS_STATUS_TWIN_ONLY = true ∧
          s.regsSame (· = RB .SYS_STATUS r 0) u ∧ s.changesOnly [.regs, .locks] u) ∧
      (s.granted r t → s.mayWrite r k v = true → t = .twin → k.name.row.space = .side → k.name.row.twin = false →
        ∃ u, exec (.regWrite r false addr v be) s = .next u ∧ u.flag (RB .STR_ERR r 0) F.STR_ERR_NOT_TWIN = true ∧
          s.regsSame (· = RB .STR_ERR r 0) u ∧ s.changesOnly [.regs, .locks] u) ∧
      (s.granted r t → s.mayWrite r k v = true → t.side = none → k.name ≠ .WIN_DATA → (t = .twin → k.name.row.space = .side → k.name.row.twin = true) →
        be ≠ 15 →
        ∃ u, exec (.regWrite r false addr v be) s = .next u ∧ u.flag (RB .SYS_STATUS r 0) F.SYS_STATUS_PARTIAL_WR = true ∧
          s.regsSame (· = RB .SYS_STATUS r 0) u ∧ s.changesOnly [.regs, .locks] u)))

/-- A twin write is accepted once for both Sides, due in the second tick, and its delivery gives the snapshot and every running Side the same
value (R26, R31, R32, R34, R480). -/
def Obligations.TwinWritesReachBothSidesTwoTicksLater : Prop :=
  (∀ (r : Req) (o : BitVec 23) (v : W32) (k : RegKey) (s : State), locate r (0x2000000 + o.toNat / 4 * 4) = .reg .twin k → k.name.row.twin = true →
    s.granted r .twin → s.mayWrite r k v = true → s.noPage k = false →
    ∃ u, exec (.twinWriteAccept r o v) s = .next u ∧ u.twinQ = s.twinQ ++ [(k, v, s.twinDue)] ∧ s.tick + 2 ≤ s.twinDue ∧
      (s.twinQ = [] → s.twinDue = s.tick + 2) ∧ s.changesOnly [.twinQ, .locks] u) ∧
  (∀ (i : Nat) (n : RegName) (v : W32) (due : Nat) (s : State), n ∈ [RegName.XPT_OUT_CFG, .SEAM_CFG, .XPT_GEN_CTL, .XPT_GEN_LEVEL, .ALY_HEAD_CFG] →
    s.twinQ = [(R1 n i, v, due)] → due ≤ s.tick →
    ∃ u, exec .twinWriteDelivery s = .next u ∧ u.twinQ = [] ∧ u.twin n i = v &&& w32 n.row.rw ∧
      (∀ sd, s.live sd = true → u.rd (RS n sd i) = v &&& w32 n.row.rw) ∧
      (∀ x, x ≠ R1 n i → Sparse.get RegKey.reset u.twins x = Sparse.get RegKey.reset s.twins x) ∧
      s.regsSame (fun x => ∃ sd, s.live sd = true ∧ x = RS n sd i) u ∧ s.changesOnly [.regs, .twins, .twinQ] u)

/-- A host port trains where it is enabled and supplied, and a master reset cuts its accesses, counts and clears what PCI Express clears (R463,
R479, R488, R500, R560, R563). -/
def Obligations.HostPortsTrainAndAreReset : Prop :=
  (∀ (p : Fin 2) (speed width : Fin 6) (s : State), s.aoReset = false → s.hostParked = false → Bank.E ∉ s.bankLost →
    (bitOf (s.rd (R0 .PARK_HOST)) p = true →
      ∃ t, exec (.pcieLinkUp p speed width) s = .next t ∧ t.flag (R1 .STR_HP_STAT p) F.STR_HP_STAT_LINK_UP = true ∧
        t.fld (R1 .STR_HP_STAT p) F.STR_HP_STAT_SPEED = speed ∧ t.fld (R1 .STR_HP_STAT p) F.STR_HP_STAT_WIDTH = width ∧
        (t.rd (R1 .STR_HP_STAT p)).toNat / 2 ^ 7 = (s.rd (R1 .STR_HP_STAT p)).toNat / 2 ^ 7 ∧ s.alters [R1 .STR_HP_STAT p] [] [.regs] t) ∧
    (bitOf (s.rd (R0 .PARK_HOST)) p = false → exec (.pcieLinkUp p speed width) s = .next s)) ∧
  (∀ (c : Instr) (p : Fin 2) (cut : Cut) (s : State),
    c = .perstAssert p cut ∧ s.aoReset = false ∨
      (c = .pcieLinkDown p cut ∨ c = .pcieHotReset p cut ∨ c = .functionLevelReset p cut) ∧ s.flag (R1 .STR_HP_STAT p) F.STR_HP_STAT_LINK_UP = true →
    let v := s.cutReads p (portReq p) cut.reads
    ∃ t, exec c s = .next t ∧ t.lockOf (portReq p) = none ∧ t.winBuf.at (portReq p).num = [] ∧ t.waiting = v.waiting.filter (fun w => decide (w.req ≠ portReq p)) ∧
      t.fld (R1 .STR_HP_STAT p) F.STR_HP_STAT_RESETS = min 255 (v.fld (R1 .STR_HP_STAT p) F.STR_HP_STAT_RESETS + 1) ∧
      t.flag (R1 .STR_HP_STAT p) F.STR_HP_STAT_BME = false ∧ t.flag (R1 .STR_HP_STAT p) F.STR_HP_STAT_MSIX_EN = false ∧
      t.msixOpen.at p = 0 ∧ (∀ x, x ∈ t.msixPend ↔ x ∈ v.msixPend ∧ x / 64 ≠ p) ∧
      (c = .perstAssert p cut ∨ c = .pcieLinkDown p cut → t.flag (R1 .STR_HP_STAT p) F.STR_HP_STAT_LINK_UP = false ∧
        t.fld (R1 .STR_HP_STAT p) F.STR_HP_STAT_SPEED = 0 ∧ t.fld (R1 .STR_HP_STAT p) F.STR_HP_STAT_WIDTH = 0) ∧
      (c = .pcieHotReset p cut ∨ c = .functionLevelReset p cut →
        (t.rd (R1 .STR_HP_STAT p)).toNat % 2 ^ 7 = (v.rd (R1 .STR_HP_STAT p)).toNat % 2 ^ 7) ∧
      (cut.target < 12 → t.flag (R0 .STR_EVT) F.STR_EVT_MRESET = true ∧ t.fld (R1 .STR_MRESET_LOG p) F.STR_MRESET_LOG_MASTER = p ∧
        t.fld (R1 .STR_MRESET_LOG p) F.STR_MRESET_LOG_TARGET = cut.target ∧ t.fld (R1 .STR_MRESET_LOG p) F.STR_MRESET_LOG_REQ = (portReq p).num) ∧
      v.alters [R1 .STR_HP_STAT p, R1 .STR_MRESET_LOG p, R0 .STR_EVT] [.EVT_STATUS] [.regs, .fired, .locks, .winBuf, .msixOpen, .msixPend] t) ∧
  (∀ (p : Fin 2) (cut : Cut) (s : State), s.flag (R1 .STR_HP_STAT p) F.STR_HP_STAT_LINK_UP = false →
    exec (.pcieLinkDown p cut) s = .next s ∧ exec (.pcieHotReset p cut) s = .next s ∧ exec (.functionLevelReset p cut) s = .next s)

/-- A frame of the service port and a remote request act as the accesses they name, a repeated request is answered from its kept reply (R308,
R309, R464, R467, R468, R486). -/
def Obligations.ServicePortAndRemoteRequestsAct : Prop :=
  (∀ (op : Byte) (addr v : W32) (ahead : Fin 17) (s : State), op = 0x02#8 ∨ op = 0x12#8 → s.aoReset = false → s.hasWaiting .service = false →
    ∀ x u, s.busWrite 3 .service (addr &&& 0xFFFFFFFC#32) true v = .done x u →
      exec (.spiFrame op addr [v] ahead) s = .next u ∧ exec (.regWrite .service false (addr &&& 0xFFFFFFFC#32) v 15) s = .next u) ∧
  (∀ (op : Byte) (x : W32) (ahead : Fin 17) (s : State), op = 0x03#8 ∨ op = 0x13#8 → s.aoReset = false → s.hasWaiting .service = false →
    ∃ t v, exec (.spiFrame op 0x00500008#32 [x] ahead) s = .next t ∧ t.out = s.out ++ [.miso [v]] ∧ t.lastRead.at Req.service.num = v ∧
      getF v F.STR_ID_REQ = Req.service.num ∧ getF v F.STR_ID_MASTER = 3 ∧ v.toNat < 128 ∧ s.changesOnly [.out, .lastRead] t) ∧
  (∀ (op : Byte) (addr : W32) (ws : List W32) (ahead : Fin 17) (s : State), op ∉ [0x02#8, 0x12#8, 0x03#8, 0x13#8] → s.hasWaiting .service = false →
    exec (.spiFrame op addr ws ahead) s = .next s) ∧
  (∀ (op : Byte) (addr : W32) (ws : List W32) (ahead : Fin 17) (s : State), s.aoReset = false → s.hasWaiting .service = true →
    ∃ t, exec (.spiFrame op addr ws ahead) s = .next t ∧ t.waiting = s.waiting ++ [{ master := 3, req := .service, target := s.targetNum .service addr, addr := addr, ahead := ahead, spi := some (op, ws), since := s.tick }] ∧ t.locks = s.locks ∧ s.changesOnly [.locks] t) ∧
  (∀ (a : Option W32) (s : State), s.aoReset = false →
    let v := a.elim s fun a => s.blindRead 3 .service (a &&& 0xFFFFFFFC#32)
    ∃ t, exec (.spiTrunc a) s = .next t ∧ t.flag (R0 .STR_EVT) F.STR_EVT_SPI_TRUNC = true ∧
      v.alters [R0 .STR_EVT] [.EVT_STATUS] [.regs, .fired] t) ∧
  (∀ (h : Fin 4) (ahead : Fin 17) (w : W32) (ws reply : List W32) (udp : Nat) (rest : List (List W32 × Nat)) (s : State),
    (s.rrp.at h).wait = (w :: ws, udp) :: rest → (s.rrp.at h).last = some (w.toNat / 2 ^ 12 % 256, reply) →
    ∃ t, exec (.rrpRequest h ahead) s = .next t ∧ t.out = s.out ++ [.datagram h udp reply] ∧ t.rrp.at h = { s.rrp.at h with wait := rest } ∧
      (∀ x, x ≠ h.val → t.rrp.at x = s.rrp.at x) ∧ s.changesOnly [.out, .rrp] t) ∧
  (∀ (h : Fin 4) (ahead : Fin 17) (w : W32) (ws : List W32) (udp : Nat) (rest : List (List W32 × Nat)) (s : State),
    (s.rrp.at h).wait = (w :: ws, udp) :: rest → (∀ p, (s.rrp.at h).last = some p → p.1 ≠ w.toNat / 2 ^ 12 % 256) →
    (∀ code, rrpError (w :: ws) = some code →
      ∃ t, exec (.rrpRequest h ahead) s = .next t ∧ t.out = s.out ++ [.datagram h udp [rrpHeader w 6, w32 code]] ∧
        t.rrp.at h = { s.rrp.at h with wait := rest } ∧ (∀ x, x ≠ h.val → t.rrp.at x = s.rrp.at x) ∧ s.changesOnly [.out, .rrp] t) ∧
    (rrpError (w :: ws) = none → s.aoReset = false → ws = [0x00500008#32] → w.toNat / 2 ^ 24 % 16 = 1 → w.toNat % 2 ^ 12 = 1 →
      ∃ t v, exec (.rrpRequest h ahead) s = .next t ∧ t.out = s.out ++ [.datagram h udp [rrpHeader w 3, 0x00500008#32, v]] ∧
        getF v F.STR_ID_REQ = 3 + h ∧ getF v F.STR_ID_MASTER = 2 ∧ (t.rrp.at h).wait = rest ∧
        (t.rrp.at h).last = some (w.toNat / 2 ^ 12 % 256, [rrpHeader w 3, 0x00500008#32, v]) ∧
        (∀ x, x ≠ h.val → t.rrp.at x = s.rrp.at x) ∧ s.changesOnly [.out, .rrp, .lastRead] t) ∧
    (∀ a v x u, rrpError (w :: ws) = none → ws = [a, v] → w.toNat / 2 ^ 24 % 16 = 2 →
      s.busWrite 2 (Req.ofHost h) a true v = .done x u → (u.rrp.at h).wait = (s.rrp.at h).wait →
      ∃ t, exec (.rrpRequest h ahead) s = .next t ∧ t.out = u.out ++ [.datagram h udp [rrpHeader w 4, a]] ∧ (t.rrp.at h).wait = rest ∧
        (t.rrp.at h).last = some (w.toNat / 2 ^ 12 % 256, [rrpHeader w 4, a]) ∧
        (∀ y, y ≠ h.val → t.rrp.at y = u.rrp.at y) ∧ u.changesOnly [.out, .rrp] t))

/-- Each mailbox command, in the state that admits it, completes with exactly the step of the mailbox state table (R493, R494, R496, R503). -/
def Obligations.MailboxCommandsFollowTheStateTable : Prop :=
  (∀ (r : Req) (b : Fin 32) (be : Fin 16) (s : State), s.granted r .ao → s.mbxState b = 0 →
    ∃ t, exec (.mbxLockRead r b be) s = .next t ∧ t.mbxState b = 1 ∧ t.mbxOwner b = r.num ∧ t.lastRead.at r.num = 0 ∧
      s.regsSame (· = R1 .MBX_STAT b) t ∧ s.changesOnly [.regs, .locks, .lastRead] t) ∧
  (∀ (r : Req) (b : Fin 32) (be : Fin 16) (s : State), s.granted r .ao → s.mbxState b ≠ 0 →
    ∃ t, exec (.mbxLockRead r b be) s = .next t ∧ t.lastRead.at r.num = bytesOf be (if s.mbxOwner b = r.num then 0 else w32 (s.mbxOwner b)) ∧
      s.changesOnly [.locks, .lastRead] t) ∧
  (∀ (r : Req) (b : Fin 32) (w : Fin 16) (v : W32) (s : State), s.granted r .ao → s.mbxOwner b = r.num → s.mbxState b = 1 →
    ∃ t, exec (.mbxMsgWrite r b w v) s = .next t ∧ t.rd (R2 .MBX_MSG b w) = v ∧
      s.regsSame (· = R2 .MBX_MSG b w) t ∧ s.changesOnly [.regs, .locks] t) ∧
  (∀ (r : Req) (b : Fin 32) (w : Fin 16) (v : W32) (s : State), s.granted r .ao → s.mbxOwner b = r.num → s.mbxState b ≠ 1 →
    ∃ t, exec (.mbxMsgWrite r b w v) s = .next t ∧ t.flag (R1 .MBX_EVT b) F.MBX_EVT_WRITE_WHILE_FULL = true ∧
      s.regsSame (fun k => k = R1 .MBX_EVT b ∨ k.name = .EVT_STATUS) t ∧ s.changesOnly [.regs, .locks, .fired] t) ∧
  (∀ (r : Req) (b : Fin 32) (v : W32) (s : State), s.granted r .ao → s.mbxOwner b = r.num → s.mbxState b = 1 → bitOf v 0 = true →
    ∃ t, exec (.mbxDoorbell r b v) s = .next t ∧ t.mbxState b = 2 ∧ t.mbxOwner b = r.num ∧
      bitOf (t.rd (R1 .EVT_STATUS ((1280 + b) / 32))) ((1280 + b) % 32) = true ∧
      s.regsSame (fun k => k = R1 .MBX_STAT b ∨ k = R1 .EVT_STATUS ((1280 + b) / 32)) t ∧ s.changesOnly [.regs, .locks, .fired] t) ∧
  (∀ (r : Req) (b : Fin 32) (v : W32) (s : State), s.granted r .ao → s.mbxReceiver b = r.num → s.mbxState b = 2 →
    ∃ t, exec (.mbxAckWrite r b v) s = .next t ∧ t.mbxState b = 3 ∧ t.mbxOwner b = s.mbxOwner b ∧
      t.rd (R1 .MBX_ACK b) = (v &&& 0x00FFFFFF#32) ||| 0x80000000#32 ∧
      bitOf (t.rd (R1 .EVT_STATUS ((1312 + b) / 32))) ((1312 + b) % 32) = true ∧
      s.regsSame (fun k => k = R1 .MBX_STAT b ∨ k = R1 .MBX_ACK b ∨ k = R1 .EVT_STATUS ((1312 + b) / 32)) t ∧ s.changesOnly [.regs, .locks, .fired] t) ∧
  (∀ (r : Req) (b : Fin 32) (v : W32) (s : State), s.granted r .ao → s.mbxOwner b = r.num → s.mbxState b ≠ 2 → bitOf v 0 = true →
    ∃ t, exec (.mbxRelease r b v) s = .next t ∧ t.mbxState b = 0 ∧ t.mbxOwner b = 0 ∧ t.rd (R1 .MBX_ACK b) = 0 ∧
      (∀ w : Fin 16, t.rd (R2 .MBX_MSG b w) = 0) ∧
      s.regsSame (fun k => k = R1 .MBX_STAT b ∨ k = R1 .MBX_ACK b ∨ ∃ w : Fin 16, k = R2 .MBX_MSG b w) t ∧
      s.changesOnly [.regs, .locks] t) ∧
  (∀ (r : Req) (b : Fin 32) (v : W32) (s : State), s.granted r .ao → s.mbxOwner b = r.num → s.mbxState b = 2 → bitOf v 0 = true →
    ∃ t, exec (.mbxRelease r b v) s = .next t ∧ t.flag (R1 .MBX_EVT b) F.MBX_EVT_REL_BUSY = true ∧
      s.regsSame (fun k => k = R1 .MBX_EVT b ∨ k.name = .EVT_STATUS) t ∧ s.changesOnly [.regs, .locks, .fired] t) ∧
  (∀ (r : Req) (b : Fin 32) (v : W32) (s : State), s.granted r .ao → is7or10 r = true → s.mbxState b = 0 →
    ∃ t, exec (.mbxCfgWrite r b v) s = .next t ∧ t.mbxReceiver b = v.toNat % 16 ∧
      t.fld (R1 .MBX_STAT b) F.MBX_STAT_RECEIVER = v.toNat % 16 ∧
      s.regsSame (fun k => k = R1 .MBX_CFG b ∨ k = R1 .MBX_STAT b) t ∧ s.changesOnly [.regs, .locks] t)

/-- The writes of the event registers store what they say, and a source that fires reaches exactly the destination of its route (R7, R497, R498,
R499, R500, R501). -/
def Obligations.EventSourcesReachTheirDestinations : Prop :=
  (∀ (r : Req) (k : Fin 48) (v : W32) (s : State), s.granted r .ao →
    (s.mayStatus r k v = true →
      ∃ t, exec (.evtStatusWrite r k v) s = .next t ∧ t.rd (R1 .EVT_STATUS k) = s.rd (R1 .EVT_STATUS k) &&& ~~~v ∧ t.fired = [] ∧
        s.alters [R1 .EVT_STATUS k] [] [.regs, .locks, .fired, .out, .rrp, .msixPend, .vecHigh] t) ∧
    (s.mayEnable r k v = true →
      ∃ t, exec (.evtEnableWrite r k v) s = .next t ∧ t.rd (R1 .EVT_ENABLE k) = v ∧ t.fired = [] ∧
        s.alters [R1 .EVT_ENABLE k] [] [.regs, .locks, .fired, .out, .rrp, .msixPend, .vecHigh] t) ∧
    (s.mayStatus r k v = false →
      ∃ t, exec (.evtStatusWrite r k v) s = .next t ∧ t.flag (RB .STR_ERR r 0) F.STR_ERR_DENIED = true ∧
        s.alters [RB .STR_ERR r 0, RB .STR_ERR_ADDR r 0] [] [.regs] t) ∧
    (s.mayEnable r k v = false →
      ∃ t, exec (.evtEnableWrite r k v) s = .next t ∧ t.flag (RB .STR_ERR r 0) F.STR_ERR_DENIED = true ∧
        s.alters [RB .STR_ERR r 0, RB .STR_ERR_ADDR r 0] [] [.regs] t) ∧
    ((∀ j : Fin 32, bitOf v j = true → maySet r (32 * k + j) = true) →
      ∃ t, exec (.evtSetWrite r k v) s = .next t ∧
        (∀ j : Fin 32, bitOf (t.rd (R1 .EVT_STATUS k)) j = (bitOf (s.rd (R1 .EVT_STATUS k)) j || (bitOf v j && s.sourceSets (32 * k + j)))) ∧
        s.alters [R1 .EVT_STATUS k] [] [.regs, .locks, .fired] t) ∧
    (∀ j : Fin 32, bitOf v j = true → maySet r (32 * k + j) = false →
      ∃ t, exec (.evtSetWrite r k v) s = .next t ∧ t.flag (RB .STR_ERR r 0) F.STR_ERR_DENIED = true ∧
        s.alters [RB .STR_ERR r 0, RB .STR_ERR_ADDR r 0] [] [.regs] t)) ∧
  (∀ (r : Req) (e : Fin 1536) (v : W32) (s : State), s.granted r .ao →
    (s.mayRoute_ r e v = true →
      ∃ t, exec (.evtRouteWrite r e v) s = .next t ∧ t.rd (R1 .EVT_ROUTE e) = v &&& 0x1FFF#32 ∧ t.fired = [] ∧
        s.alters [R1 .EVT_ROUTE e] [] [.regs, .locks, .fired, .out, .rrp, .msixPend, .vecHigh] t) ∧
    (s.mayRoute_ r e v = false →
      ∃ t, exec (.evtRouteWrite r e v) s = .next t ∧ t.flag (RB .STR_ERR r 0) F.STR_ERR_DENIED = true ∧
        s.alters [RB .STR_ERR r 0, RB .STR_ERR_ADDR r 0] [] [.regs] t)) ∧
  (∀ (e : Nat) (es : List Nat) (s : State), s.fired = e :: es →
    ((∀ p v h, s.dest e ≠ .vector p v ∧ s.dest e ≠ .host h) → exec .eventFire s = .next { s with fired := es }) ∧
    (∀ p v, s.dest e = .vector p v → 64 * p + v ∉ s.vecHigh → s.msixBlocked p v = false →
      exec .eventFire s = .next { s with fired := es, vecHigh := s.vecHigh ++ [64 * p + v], out := s.out ++ [.msix p v] }) ∧
    (∀ p v, s.dest e = .vector p v → 64 * p + v ∉ s.vecHigh → s.msixBlocked p v = true →
      ∃ t, exec .eventFire s = .next t ∧ t.out = s.out ∧ t.fired = es ∧ (∀ x, x ∈ t.msixPend ↔ x = 64 * p + v ∨ x ∈ s.msixPend) ∧
        t.vecHigh = s.vecHigh ++ [64 * p + v] ∧ s.changesOnly [.fired, .msixPend, .vecHigh] t) ∧
    (∀ p v, s.dest e = .vector p v → 64 * p + v ∈ s.vecHigh → exec .eventFire s = .next { s with fired := es }) ∧
    (∀ h, s.dest e = .host h →
      ∃ t, exec .eventFire s = .next t ∧ t.fired = es ∧ (∀ x, x ∈ (t.rrp.at h).gather ↔ x = e ∨ x ∈ (s.rrp.at h).gather) ∧
        ((s.rrp.at h).gather = [] → (t.rrp.at h).since = s.tick) ∧ (∀ y, y ≠ h → t.rrp.at y = s.rrp.at y) ∧ s.changesOnly [.fired, .rrp] t)) ∧
  (∀ (p : Fin 2) (bme en : Bool) (masks : BitVec 64) (s : State),
    ∃ t, exec (.msixUnblock p bme en masks) s = .next t ∧ t.flag (R1 .STR_HP_STAT p) F.STR_HP_STAT_BME = bme ∧
      t.flag (R1 .STR_HP_STAT p) F.STR_HP_STAT_MSIX_EN = en ∧ t.msixOpen.at p = ~~~masks ∧
      (s.fired = [] → ∀ v, v < 64 → 64 * p.val + v ∈ s.msixPend →
        (if bme = true ∧ en = true ∧ masks.getLsbD v = false then .msix p v ∈ t.out ∧ 64 * p.val + v ∉ t.msixPend else 64 * p.val + v ∈ t.msixPend)) ∧
      (s.fired = [] → bme = false ∨ en = false → t.out = s.out ∧ t.msixPend = s.msixPend) ∧
      s.alters [R1 .STR_HP_STAT p] [] [.regs, .fired, .out, .rrp, .msixOpen, .msixPend, .vecHigh] t)

/-- A full reset keeps OTP, flashes and the world outside; boot goes on from OTP to the structure to each Side's firmware under its boot header
(R8, R526, R527, R528, R540, R541, R543, R546, R554, R562). -/
def Obligations.ResetsBootAndSideStarts : Prop :=
  (∀ (s : State) (p : Instr × Nat), p ∈ [(Instr.aoResetAssert, 1), (.aoDip, 2)] →
    ∃ t, exec p.1 s = .next t ∧ t.fld (R0 .SYS_RESET_CAUSE) F.SYS_RESET_CAUSE_CAUSE = p.2 ∧ (∀ k, k ≠ R0 .SYS_RESET_CAUSE → t.rd k = k.reset) ∧
      State.reset.changesOnly [.regs, .pending, .out, .freeCtr, .envLines, .bankLost, .flash0, .flash1, .owners, .svn, .session] t ∧
      t.flash0 = s.flash0 ∧ t.flash1 = s.flash1 ∧ t.owners = s.owners ∧ t.svn = s.svn ∧ t.session = s.session ∧ t.bankLost = s.bankLost ∧
      t.envLines = s.envLines ∧ t.out = s.out ∧ t.pending = s.pending ∧ t.freeCtr = s.freeCtr) ∧
  (∀ s : State, s.aoReset = false → exec .aoResetRelease s = .next s) ∧
  (∀ s : State, s.aoReset = true → ∃ t, exec .aoResetRelease s = .next t ∧ t.aoReset = false ∧ t.hostParked = false ∧ t.tick = 0 ∧
    t.rd (R0 .SEC_CHAL_LO) = (Config.challenge s.freeCtr).extractLsb' 0 32 ∧ t.rd (R0 .SEC_CHAL_HI) = (Config.challenge s.freeCtr).extractLsb' 32 32 ∧
    s.alters [R0 .SEC_CHAL_LO, R0 .SEC_CHAL_HI] [] [.regs, .freeCtr, .aoReset, .hostParked, .tick] t) ∧
  (∀ (ok : Bool) (s : State),
    (s.aoReset = true ∨ s.otpOk = true ∨ s.flag (R0 .SEC_STAT) F.SEC_STAT_OTP_BAD = true → exec (.bootOtpChecked ok) s = .next s) ∧
    (s.aoReset = false → s.otpOk = false → s.flag (R0 .SEC_STAT) F.SEC_STAT_OTP_BAD = false →
      (ok = false → ∃ t, exec (.bootOtpChecked ok) s = .next t ∧ t.flag (R0 .SEC_STAT) F.SEC_STAT_OTP_BAD = true ∧ s.alters [R0 .SEC_STAT] [] [.regs] t) ∧
      (ok = true → ∃ t, exec (.bootOtpChecked ok) s = .next t ∧ t.otpOk = true ∧ s.svn ≤ t.svn ∧ (s.session = none → t.stage = 0) ∧
        (∀ x, s.session = some x → x.verified = false → t.stage = 1 ∧ t.session = some x) ∧
        (∀ x, s.session = some x → x.verified = true → x.kind = 2 →
          (∀ f < 2, (s.bootHdr f).isConfirmed (s.bootHdr f).active = true) → t.stage = 2 ∧ t.session = some x) ∧
        s.touches [.UPD_STAT, .UPD_PIECES] [.regs, .otpOk, .updSide, .svn, .session, .freeCtr, .flash0] t))) ∧
  (∀ (p : Option Structure_) (s : State),
    (s.aoReset = true ∨ s.otpOk = false ∨ s.loaded = true ∨ s.fld (R0 .UMW_STAT) F.UMW_STAT_STATE = 2 → exec (.bootImagesLoaded p) s = .next s) ∧
    (s.aoReset = false → s.otpOk = true → s.loaded = false → s.fld (R0 .UMW_STAT) F.UMW_STAT_STATE ≠ 2 →
      (p = none → ∃ t, exec (.bootImagesLoaded p) s = .next t ∧ t.fld (R0 .UMW_STAT) F.UMW_STAT_STATE = 2 ∧
        s.alters [R0 .UMW_STAT] [] [.regs] t) ∧
      (∀ x, p = some x → ∃ t, exec (.bootImagesLoaded p) s = .next t ∧ if s.baseLawful x = true then t.loaded = true ∧ t.inPlan = smapOf x.inPlan ∧
        t.outPlan = smapOf x.outPlan ∧ t.portPlan = smapOf x.ports ∧ t.rights = smapOf x.rights ∧ t.plain7 = x.plain7 ∧ t.benchPlan = x.bench ∧
        t.capPlan = x.capPlan ∧ t.headPlan = smapOf x.alloy.heads ∧ t.rd (R0 .UMW_BASE_VER) = x.baseVer ∧ t.rd (R0 .UMW_SIDE_VER) = x.sideVer ∧
        t.fwHash.at 2 = s.ucodeHash ∧ (∀ k < 8, t.rd (R1 .UMW_HASH k) = Config.recordHash s.freeCtr k) ∧ t.holder = s.holder ∧
        s.changesOnly ([.rights, .plain7, .out, .freeCtr, .twins, .inPlan, .outPlan, .lanes, .portPlan, .rxFlows, .txRuns, .cads, .audioTb, .audioHi, .audSrc, .audDst,
          .tdmOwner, .benchPlan, .headPlan, .tileHead, .preHead, .routes, .alyLive, .hbmA, .hbmB, .capPlan, .msixPend, .vecHigh, .loaded, .updMbx, .fwHash] ++ moveParts) t
       else t.fld (R0 .UMW_STAT) F.UMW_STAT_STATE = 2 ∧ s.alters [R0 .UMW_STAT] [] [.regs] t))) ∧
  (∀ (sd : Side) (s : State), s.loaded = false ∨ (s.side sd).inReset = false ∨ (s.side sd).isolated = true ∨ (s.side sd).cold = true ∨
    (s.side sd).powered = false ∨ (s.therm.at sd.idx).min < -5 → exec (.sideFwLoad sd) s = .next s) ∧
  (∀ (sd : Side) (h : BootHdr) (s : State), s.loaded = true → (s.side sd).inReset = true → (s.side sd).isolated = false →
    (s.side sd).cold = false → (s.side sd).powered = true → -5 ≤ (s.therm.at sd.idx).min → h = s.bootHdr sd.idx →
    (h.isConfirmed h.active = true ∨ h.tries < 3 → ∃ t, exec (.sideFwLoad sd) s = .next t ∧ t.side sd.other = s.side sd.other ∧
      (∀ k, (s.slotImage sd.idx h.active).passes = true ∧ k = h.active ∨ (s.slotImage sd.idx h.active).passes = false ∧ h.isConfirmed (1 - h.active) = true ∧
          (s.slotImage sd.idx (1 - h.active)).passes = true ∧ k = 1 - h.active →
        (t.side sd).inReset = false ∧ (t.side sd).released = s.tick ∧ t.rd (R1 .UPD_VER sd.idx) = (s.slotImage sd.idx k).version ∧
        t.fwHash.at sd.idx = (s.slotImage sd.idx k).hash ∧ t.flag (R1 .UPD_SIDE sd.idx) F.UPD_SIDE_NO_FW = false ∧ (t.bootHdr sd.idx).active = h.active ∧
        (t.bootHdr sd.idx).tries = (if k = h.active ∧ h.isConfirmed k = false then h.tries + 1 else h.tries) ∧
        (k ≠ h.active → t.flag (R1 .UPD_SIDE sd.idx) F.UPD_SIDE_FALLBACK = true) ∧
        (if (s.flashWord sd.idx 0x10000).toNat < Config.settingsFormat (s.slotWords sd.idx k) then
          t.flag (R1 .UPD_SIDE sd.idx) F.UPD_SIDE_SETTINGS_RESET = true ∧
            ∀ i < 16384, t.flashWord sd.idx (0x10000 + 4 * i) = Config.settingsDefault (s.slotWords sd.idx k) i
         else ∀ i < 16384, t.flashWord sd.idx (0x10000 + 4 * i) = s.flashWord sd.idx (0x10000 + 4 * i))) ∧
      ((s.slotImage sd.idx h.active).passes = false → h.isConfirmed (1 - h.active) = false ∨ (s.slotImage sd.idx (1 - h.active)).passes = false →
        t.flag (R1 .UPD_SIDE sd.idx) F.UPD_SIDE_NO_FW = true ∧ (t.side sd).inReset = true ∧ s.alters [R1 .UPD_SIDE sd.idx] [] [.regs] t) ∧
      s.alters [R1 .UPD_SIDE sd.idx, R1 .UPD_VER sd.idx] [] [.regs, .sideA, .sideB, .flash0, .flash1, .fwHash] t) ∧
    (h.isConfirmed h.active = false → 3 ≤ h.tries →
      ∃ t, exec (.sideFwLoad sd) s = .next t ∧ (t.bootHdr sd.idx).active = h.prev ∧ t.flag (R1 .UPD_SIDE sd.idx) F.UPD_SIDE_REVERTED = true ∧ t.stage = 2 ∧
        t.confirming = false ∧ (h.isConfirmed h.prev = true → (t.bootHdr sd.idx).tries = 0) ∧
        ((s.slotImage sd.idx h.prev).passes = true → (t.side sd).inReset = false ∧ t.rd (R1 .UPD_VER sd.idx) = (s.slotImage sd.idx h.prev).version) ∧
        s.alters [R1 .UPD_SIDE sd.idx, R1 .UPD_VER sd.idx, R0 .UPD_STAT] [] [.regs, .sideA, .sideB, .flash0, .flash1, .fwHash, .confirming] t))

/-- The update mailbox takes one message at a time and acknowledges each; a piece is committed only whole and matching; VERIFY writes inactive
slots only (R523, R534, R535, R536, R537, R538). -/
def Obligations.DownloadsThroughTheUpdateMailbox : Prop :=
  (∀ (w : Option (List W32)) (fl : Bool) (ch : Change) (s : State) (p : Instr × Nat),
    p ∈ [(Instr.updBegin, 1), (.updData, 2), (.updPieceEnd fl, 3), (.updStatus, 4), (.updVerify w ch fl, 5), (.updActivate fl, 6), (.updConfirm fl, 7),
      (.updAbort, 8), (.updApply, 9)] →
    (s.aoReset = true ∨ s.mbxState s.updMbx ≠ 2 ∨ s.mbxReceiver s.updMbx ≠ 10 → exec p.1 s = .next s) ∧
    (∀ n, s.hasMsg n → 1 ≤ n → n ≤ 10 → n ≠ p.2 → exec p.1 s = .next s) ∧
    (∀ n, s.hasMsg n → n = 0 ∨ 10 < n → ∃ t, exec p.1 s = .next t ∧ s.acked t 2 ∧ t.fld (R0 .UPD_STAT) F.UPD_STAT_RESULT = 2 ∧
      s.touches ackRegs [.regs, .fired] t) ∧
    (s.hasMsg p.2 → 2 ≤ p.2 → p.2 ≤ 8 → s.session = none → ∃ t, exec p.1 s = .next t ∧ s.acked t 5 ∧ t.fld (R0 .UPD_STAT) F.UPD_STAT_RESULT = 5 ∧
      s.touches ackRegs [.regs, .fired] t)) ∧
  (∀ (kind len : Nat) (hash : List W32) (s : State), s.hasMsg 1 → kind = (s.msg 1).toNat → len = (s.msg 2).toNat → hash = s.msgWords 3 8 →
    (∀ code, (3 ≤ s.stage → code = 9) → (s.stage < 3 → kind ≠ 1 → kind ≠ 2 → code = 2) → (s.stage < 3 → kind = 1 ∨ kind = 2 → 16773120 < len → code = 13) →
      (3 ≤ s.stage ∨ kind ≠ 1 ∧ kind ≠ 2 ∨ 16773120 < len) → ∃ t, exec .updBegin s = .next t ∧ s.acked t code ∧ s.touches ackRegs [.regs, .fired] t) ∧
    (∀ x, s.stage < 3 → kind = 1 ∨ kind = 2 → len ≤ 16773120 → s.session = some x → x.kind = kind → x.hash = hash →
      ∃ t, exec .updBegin s = .next t ∧ s.acked t 0 ∧ s.touches ackRegs [.regs, .fired] t) ∧
    (s.stage < 3 → kind = 1 ∨ kind = 2 → len ≤ 16773120 → (∀ x, s.session = some x → x.kind ≠ kind ∨ x.hash ≠ hash) →
      ∃ t, exec .updBegin s = .next t ∧ s.acked t 0 ∧ t.stage = 1 ∧ t.session = some { kind := kind, len := len, hash := hash } ∧ t.parts = [] ∧
        (∀ a, a < 0x2100000 ∨ 0x2101000 ≤ a → t.flashByte 0 a = s.flashByte 0 a) ∧
        s.touches (.UPD_PIECES :: ackRegs) [.regs, .fired, .freeCtr, .flash0, .session, .parts] t)) ∧
  (∀ (x : Session) (p i : Nat) (s : State), s.hasMsg 2 → s.session = some x → p = s.msgPart → i = s.msgArg →
    (68 < p ∨ x.pieces ≤ i → ∃ t, exec .updData s = .next t ∧ s.acked t 3 ∧ s.touches ackRegs [.regs, .fired] t) ∧
    (p ≤ 68 → i < x.pieces → ∃ t, exec .updData s = .next t ∧ s.acked t 0 ∧ t.parts.at (128 * i + p) = s.msgWords 1 (if p = 68 then 4 else 15) ∧
      (∀ j, j ≠ 128 * i + p → t.parts.at j = s.parts.at j) ∧ s.touches ackRegs [.regs, .fired, .parts] t)) ∧
  (∀ (x : Session) (fl : Bool) (i : Nat) (ws : List W32) (s : State), s.hasMsg 3 → s.session = some x → i = s.msgArg → ws = s.pieceWords i →
    (∀ code, (x.pieces ≤ i ∧ code = 3) ∨ i < x.pieces ∧ i ∈ x.done ∧ code = 0 ∨ i < x.pieces ∧ i ∉ x.done ∧ ws.length ≠ 1024 ∧ code = 3 ∨
        i < x.pieces ∧ i ∉ x.done ∧ ws.length = 1024 ∧ shaOfWords ws ≠ s.msgWords 1 8 ∧ code = 4 ∨
        i < x.pieces ∧ i ∉ x.done ∧ ws.length = 1024 ∧ shaOfWords ws = s.msgWords 1 8 ∧ fl = false ∧ code = 12 →
      ∃ t, exec (.updPieceEnd fl) s = .next t ∧ s.acked t code ∧ s.touches ackRegs [.regs, .fired] t) ∧
    (i < x.pieces → i ∉ x.done → ws.length = 1024 → shaOfWords ws = s.msgWords 1 8 → fl = true → ∃ t, exec (.updPieceEnd fl) s = .next t ∧ s.acked t 0 ∧
      t.session = some { x with done := i :: x.done } ∧ (∀ k < 1024, t.flashWord 0 (0x2101000 + 4096 * i + 4 * k) = ws.getD k 0) ∧
      (∀ a, a < 0x2100000 ∨ 0x2101000 + 4096 * (i + 1) ≤ a ∨ 0x2101000 ≤ a ∧ a < 0x2101000 + 4096 * i → t.flashByte 0 a = s.flashByte 0 a) ∧
      s.touches (.UPD_PIECES :: ackRegs) [.regs, .fired, .freeCtr, .flash0, .session, .parts] t)) ∧
  (∀ (x : Session) (m : Nat) (s : State), s.hasMsg 4 → s.session = some x → m ≤ x.pieces → (m < x.pieces → m ∉ x.done) → (∀ j < m, j ∈ x.done) →
    ∃ t, exec .updStatus s = .next t ∧ s.acked t m ∧ t.fld (R0 .UPD_STAT) F.UPD_STAT_RESULT = 0 ∧ s.touches ackRegs [.regs, .fired] t) ∧
  (∀ (x : Session) (w : Option (List W32)) (ch : Change) (fl : Bool) (s : State), s.hasMsg 5 → s.session = some x →
    (∀ code, s.stage ≠ 1 ∧ code = 9 ∨ s.stage = 1 ∧ s.flag (R0 .UMW_STAT) F.UMW_STAT_BUSY = true ∧ code = 1 ∨
        s.stage = 1 ∧ s.flag (R0 .UMW_STAT) F.UMW_STAT_BUSY = false ∧ (∃ i < x.pieces, i ∉ x.done) ∧ code = 3 ∨
        s.stage = 1 ∧ s.flag (R0 .UMW_STAT) F.UMW_STAT_BUSY = false ∧ (∀ i < x.pieces, i ∈ x.done) ∧ leWords (sha256 (s.packageBytes x)) ≠ x.hash ∧ code = 4 →
      ∃ t, exec (.updVerify w ch fl) s = .next t ∧ s.acked t code ∧ s.touches ackRegs [.regs, .fired] t) ∧
    (s.stage = 1 → s.flag (R0 .UMW_STAT) F.UMW_STAT_BUSY = false → (∀ i < x.pieces, i ∈ x.done) → leWords (sha256 (s.packageBytes x)) = x.hash →
      (∀ code, x.kind ≠ 1 →
        code = (if imageType (s.packageWords x) = 4 then 8
          else s.imageCode (s.packageWords x) x.len (sectionsOk (imageType (s.packageWords x))) (decide (ch.type = imageType (s.packageWords x)) && s.changeLawful ch)) →
        ∃ t, exec (.updVerify w ch fl) s = .next t ∧ s.acked t code ∧ if code = 0 then t.stage = 2 ∧ (t.session.map (·.verified)) = some true ∧
          (t.session.bind (·.change)) = some ch ∧ s.touches ackRegs [.regs, .fired, .freeCtr, .flash0, .session] t else s.touches ackRegs [.regs, .fired] t) ∧
      (∀ code, x.kind = 1 →
        code = (if imageType (s.packageWords x) = 4 then s.imageCode (s.packageWords x) x.len (fun ts => decide (ts.length = 1)) true else 8) →
        ∃ t, exec (.updVerify w ch fl) s = .next t ∧ (code ≠ 0 → s.acked t code ∧ s.touches ackRegs [.regs, .fired] t) ∧
          (code = 0 → s.holdsBase 0 (((s.packageWords x).drop 42).take 8) = false ∨ s.holdsBase 1 (((s.packageWords x).drop 42).take 8) = false →
            s.acked t 14 ∧ s.touches ackRegs [.regs, .fired] t) ∧
          (code = 0 → s.holdsBase 0 (((s.packageWords x).drop 42).take 8) = true → s.holdsBase 1 (((s.packageWords x).drop 42).take 8) = true →
            (w = none → s.acked t 8 ∧ s.touches ackRegs [.regs, .fired] t) ∧
            (∀ ws, w = some ws → 0x200000 < ws.length → s.acked t 13 ∧ s.touches ackRegs [.regs, .fired] t) ∧
            (∀ ws, w = some ws → ws.length ≤ 0x200000 → fl = false → s.acked t 12 ∧ s.touches ackRegs [.regs, .fired] t) ∧
            (∀ ws, w = some ws → ws.length ≤ 0x200000 → fl = true →
              (∀ f < 2, (∀ i < ws.length, t.flashWord f (slotBase (1 - (s.bootHdr f).active) + 4 * i) = ws.getD i 0) ∧
                ∀ a, slotBase (s.bootHdr f).active ≤ a → a < slotBase (s.bootHdr f).active + 0x800000 → t.flashByte f a = s.flashByte f a) ∧
              (shaOfWords ws ≠ ((s.packageWords x).drop 50).take 8 → s.acked t 4 ∧ t.stage = 1) ∧
              (shaOfWords ws = ((s.packageWords x).drop 50).take 8 → imageType ws = 4 → s.imageCode ws (4 * ws.length) (sectionsOk 4) true = 0 →
                s.acked t 0 ∧ t.stage = 2 ∧ ∃ y, t.session = some y ∧ y.verified = true ∧ y.target.version = ws.getD 1 0 ∧ y.target.svn = imageSvn ws ∧
                  y.slots = [1 - (s.bootHdr 0).active, 1 - (s.bootHdr 1).active]) ∧
              s.touches ackRegs [.regs, .fired, .freeCtr, .flash0, .flash1, .session] t)))))

/-- ACTIVATE, CONFIRM, the trials and ABORT move the update through its stages by the boot headers; ATTEST sends its report in groups (R526,
R534, R538, R539, R541, R546, R547). -/
def Obligations.FirmwareStagesTrialsAndReports : Prop :=
  (∀ (x : Session) (fl : Bool) (s : State), s.hasMsg 6 → s.session = some x →
    (∀ code, x.kind ≠ 1 ∧ code = 2 ∨ x.kind = 1 ∧ s.stage ≠ 2 ∧ code = 9 ∨ x.kind = 1 ∧ s.stage = 2 ∧ s.readyStandby = none ∧ code = 9 ∨
        x.kind = 1 ∧ s.stage = 2 ∧ s.readyStandby ≠ none ∧ x.target.svn < s.svn ∧ code = 7 ∨
        x.kind = 1 ∧ s.stage = 2 ∧ s.readyStandby ≠ none ∧ s.svn ≤ x.target.svn ∧ fl = false ∧ code = 12 →
      ∃ t, exec (.updActivate fl) s = .next t ∧ s.acked t code ∧ s.touches ackRegs [.regs, .fired] t) ∧
    (∀ y k, x.kind = 1 → s.stage = 2 → s.readyStandby = some y → s.svn ≤ x.target.svn → fl = true → k = x.slots.getD y.idx 1 → k < 2 →
      ∃ t, exec (.updActivate fl) s = .next t ∧ s.acked t 0 ∧ t.stage = 3 ∧ t.updSide = y ∧ (t.side y).inReset = true ∧ t.holder = s.holder ∧
        (t.bootHdr y.idx).active = k ∧ (t.bootHdr y.idx).tries = 0 ∧ (t.bootHdr y.idx).prev = (s.bootHdr y.idx).active ∧
        (t.bootHdr y.idx).isConfirmed k = false ∧ (∀ a, a < 0x2000 ∨ t.flashByte y.idx a = s.flashByte y.idx a) ∧
        s.disturbs [y] (ackRegs ++ moveRegs) ([.flash0, .flash1, .updSide] ++ moveParts) t)) ∧
  (∀ (x : Session) (y : Side) (fl : Bool) (s : State), s.hasMsg 7 → s.session = some x → y = s.updSide →
    (∀ code, x.kind ≠ 1 ∧ code = 2 ∨ x.kind = 1 ∧ s.stage ≠ 3 ∧ code = 9 ∨
        x.kind = 1 ∧ s.stage = 3 ∧ s.confirming = false ∧ s.flag (R0 .UPD_STAT) F.UPD_STAT_TRIAL_DONE = false ∧ code = 9 →
      ∃ t, exec (.updConfirm fl) s = .next t ∧ s.acked t code ∧ s.touches ackRegs [.regs, .fired] t) ∧
    (x.kind = 1 → s.stage = 3 → s.confirming = true → s.planned.isSome = true → exec (.updConfirm fl) s = .next s) ∧
    (x.kind = 1 → s.stage = 3 → s.confirming = true → s.planned = none → s.holder ≠ some y → ∃ t, exec (.updConfirm fl) s = .next t ∧ s.acked t 11 ∧
      t.confirming = false ∧ s.touches ackRegs [.regs, .fired, .confirming] t) ∧
    (x.kind = 1 → s.stage = 3 → s.holder = some y →
      s.confirming = true ∧ s.planned = none ∨ s.confirming = false ∧ s.flag (R0 .UPD_STAT) F.UPD_STAT_TRIAL_DONE = true ∧ fl = true →
      ∃ t, exec (.updConfirm fl) s = .next t ∧ s.acked t 0 ∧ t.stage = 4 ∧ t.updSide = y.other ∧ (t.side y.other).inReset = true ∧ t.holder = some y ∧
        (s.confirming = false → (t.bootHdr y.idx).isConfirmed (s.bootHdr y.idx).active = true) ∧
        s.disturbs [y.other] (ackRegs ++ moveRegs) ([.flash0, .flash1, .updSide, .confirming] ++ moveParts) t) ∧
    (x.kind = 1 → s.stage = 3 → s.holder ≠ some y → s.confirming = false → s.flag (R0 .UPD_STAT) F.UPD_STAT_TRIAL_DONE = true → fl = true → s.planned = none →
      ∃ t, exec (.updConfirm fl) s = .next t ∧ (t.bootHdr y.idx).isConfirmed (s.bootHdr y.idx).active = true ∧
        (((s.confirmSlot y).askSwitch).planned.isSome = true → t.planned.isSome = true ∧ t.confirming = true ∧ t.stage = 3 ∧ t.hasMsg 7) ∧
        (((s.confirmSlot y).askSwitch).planned = none → s.acked t 11 ∧ t.stage = 3) ∧
        s.touches (.RFE_SWO_FRAME :: .RFE_CMD_RES :: ackRegs) [.regs, .fired, .flash0, .flash1, .planned, .confirming] t)) ∧
  (∀ (x : Session) (y : Side) (s : State), s.hasMsg 8 → s.session = some x → y = s.updSide →
    (s.stage < 3 → ∃ t, exec .updAbort s = .next t ∧ s.acked t 0 ∧ t.stage = 0 ∧ t.session = none ∧
      s.touches (.UPD_PIECES :: ackRegs) [.regs, .fired, .freeCtr, .flash0, .session, .parts] t) ∧
    (3 ≤ s.stage → ∃ t, exec .updAbort s = .next t ∧ s.acked t 0 ∧ t.stage = 2 ∧ t.session = some x ∧
      (t.bootHdr y.idx).active = (s.bootHdr y.idx).prev ∧ (s.holder ≠ some y → (t.side y).inReset = true ∧ t.holder = s.holder) ∧
      s.disturbs [y] (.HBM_STAT :: ackRegs ++ moveRegs) ([.flash0, .flash1, .confirming] ++ moveParts) t)) ∧
  (∀ s : State, (s.stage ≠ 3 ∨ s.trialOver = false → exec .trialDone s = .next s) ∧
    (s.stage = 3 → s.trialOver = true → ∃ t, exec .trialDone s = .next t ∧ t.flag (R0 .UPD_STAT) F.UPD_STAT_TRIAL_DONE = true ∧ t.stage = 3 ∧
      s.alters [R0 .UPD_STAT] [] [.regs] t) ∧
    (s.session = none ∨ s.stage ≠ 4 ∨ s.trialOver = false → exec .secondDone s = .next s) ∧
    (∀ x, s.session = some x → s.stage = 4 → s.trialOver = true → ∃ t, exec .secondDone s = .next t ∧ t.svn = max s.svn x.target.svn ∧ t.session = none ∧
      t.stage = 0 ∧ (t.bootHdr s.updSide.idx).isConfirmed (s.bootHdr s.updSide.idx).active = true ∧
      s.alters [R0 .UPD_STAT, R0 .UPD_PIECES] [] [.regs, .freeCtr, .flash0, .flash1, .svn, .session, .parts] t)) ∧
  (∀ (m : Nat) (ws : List W32) (s : State), s.attest = none → s.hasMsg 10 → m = (s.msg 9).toNat → ws = s.attestReport (s.msgWords 1 8) →
    (32 ≤ m ∨ s.mbxState m ≠ 0 → ∃ t, exec .updAttest s = .next t ∧ s.acked t 9 ∧ s.touches ackRegs [.regs, .fired] t) ∧
    (m < 32 → s.mbxState m = 0 → ∃ t, exec .updAttest s = .next t ∧ s.acked t 0 ∧ t.mbxState m = 2 ∧ t.mbxOwner m = 10 ∧ t.attest = some (m, ws.drop 16) ∧
      ((∀ k < 3, (s.hashOf k).length = 8) → ws.length = 60) ∧ (∀ i < 16, t.rd (R2 .MBX_MSG m i) = ws.getD i 0) ∧ s.touches (.MBX_MSG :: ackRegs) [.regs, .fired, .attest] t)) ∧
  (∀ (m : Nat) (ws : List W32) (s : State), s.attest = some (m, ws) →
    (s.mbxState m = 0 → ∃ t, exec .updAttest s = .next t ∧ t.attest = none ∧ s.changesOnly [.attest] t) ∧
    (s.mbxState m = 3 → s.mbxOwner m = 10 → ∃ t, exec .updAttest s = .next t ∧
      (ws = [] → t.attest = none ∧ t.mbxState m = 0) ∧
      (ws ≠ [] → t.attest = some (m, ws.drop 16) ∧ t.mbxState m = 2 ∧ t.mbxOwner m = 10 ∧ ∀ i < 16, t.rd (R2 .MBX_MSG m i) = ws.getD i 0) ∧
      s.touches [.MBX_MSG, .MBX_ACK, .MBX_STAT, .EVT_STATUS] [.regs, .fired, .attest] t) ∧
    (s.mbxState m ≠ 0 → s.mbxState m ≠ 3 ∨ s.mbxOwner m ≠ 10 → exec .updAttest s = .next s))

/-- APPLY starts one structure change; a region's quad is replaced at its tick and nothing else; a Side image moves by the standby in step
(R531, R532, R533, R536, R550). -/
def Obligations.StructureChangesOneAtATime : Prop :=
  (∀ s : State, s.hasMsg 9 →
    (∀ code, s.flag (R0 .UMW_STAT) F.UMW_STAT_BUSY = true ∧ code = 1 ∨ s.flag (R0 .UMW_STAT) F.UMW_STAT_BUSY = false ∧ s.session = none ∧ code = 5 ∨
        s.flag (R0 .UMW_STAT) F.UMW_STAT_BUSY = false ∧ (∃ x, s.session = some x ∧ (x.kind ≠ 2 ∧ code = 2 ∨ x.kind = 2 ∧ (s.stage ≠ 2 ∨ x.change = none) ∧ code = 9)) →
      ∃ t, exec .updApply s = .next t ∧ s.acked t code ∧ t.fld (R0 .UMW_STAT) F.UMW_STAT_RESULT = code ∧ t.change = s.change ∧
        s.touches (.UMW_STAT :: ackRegs) [.regs, .fired] t) ∧
    (∀ x, s.flag (R0 .UMW_STAT) F.UMW_STAT_BUSY = false → s.session = some x → x.kind = 2 → s.stage = 2 →
      (∀ v, x.change = some (.base v) → ∃ t, exec .updApply s = .next t ∧ s.acked t 0 ∧ (∀ k < 8, t.rd (R1 .UMW_HASH k) = Config.recordHash s.freeCtr k) ∧
        s.touches (.UMW_STAT :: .UMW_HASH :: ackRegs) [.regs, .fired, .freeCtr] t) ∧
      (∀ q p, x.change = some (.region q p) → ∃ t, exec .updApply s = .next t ∧ s.acked t 0 ∧ t.change = some (.region q { p with version := x.target.version }) ∧
        t.changeAt = s.tick + 100 * usTicks ∧ t.flag (R0 .UMW_STAT) F.UMW_STAT_BUSY = true ∧
        s.touches (.UMW_STAT :: ackRegs) [.regs, .fired, .change, .changeAt] t) ∧
      (∀ p code, x.change = some (.side p) → s.readyStandby = none ∧ code = 9 ∨ s.readyStandby ≠ none ∧ s.sideInUse p = true ∧ code = 10 →
        ∃ t, exec .updApply s = .next t ∧ s.acked t code ∧ t.fld (R0 .UMW_STAT) F.UMW_STAT_RESULT = code ∧
          s.touches (.UMW_STAT :: ackRegs) [.regs, .fired] t) ∧
      (∀ p y, x.change = some (.side p) → s.readyStandby = some y → s.sideInUse p = false → ∃ t, exec .updApply s = .next t ∧ s.acked t 0 ∧
        t.change = some (.side { p with version := x.target.version }) ∧ t.flag (R0 .UMW_STAT) F.UMW_STAT_BUSY = true ∧
        t.fld (R0 .UMW_STAT) F.UMW_STAT_STEP = 1 ∧ (t.side y).inReset = true ∧ t.holder = s.holder ∧
        s.disturbs [y] (.UMW_STAT :: ackRegs ++ moveRegs) ([.change, .changeAt] ++ moveParts) t))) ∧
  (∀ s : State, (∀ q p, s.change = some (.region q p) → s.tick < s.changeAt) → exec .regionApply s = .next s) ∧
  (∀ (q : Nat) (p : RegionPlan) (s : State), q < 128 → s.change = some (.region q p) → s.changeAt ≤ s.tick → ∃ t, exec .regionApply s = .next t ∧
    t.change = none ∧ t.flag (R0 .UMW_STAT) F.UMW_STAT_BUSY = false ∧ t.fld (R0 .UMW_STAT) F.UMW_STAT_RESULT = 0 ∧ t.rd (R1 .UMW_REGION_VER q) = p.version ∧
    (∀ n, n ∉ quadLanes q → t.rd (R1 .LANE_CFG n) = s.rd (R1 .LANE_CFG n) ∧ t.rd (R1 .LANE_CTL n) = s.rd (R1 .LANE_CTL n)) ∧
    (∀ d e, (d, e) ∈ s.outPlan → t.routes.at d = s.routes.at d) ∧
    (s.regionSame q p = true → s.alters [R0 .UMW_STAT, R1 .UMW_REGION_VER q] [.UMW_HASH] [.regs, .freeCtr, .change] t) ∧
    (s.regionSame q p = false → t.inPlan = s.regionIns q p ∧ t.outPlan = s.regionOuts q p ∧ t.portPlan = s.regionPorts q p ∧
      ∀ e ∈ p.outs, (∀ f ∈ s.outPlan, f.1 ≠ e.1) → (t.routes.at e.1).src = s.fallbackOf e.1 ∧ t.flag (R1 .XPT_PRESET e.1) F.XPT_PRESET_VALID = false) ∧
    s.changesOnly ([.freeCtr, .inPlan, .outPlan, .routes, .takes, .lanes, .nvl, .sluices, .portPlan, .ports, .cads, .headRun, .change, .hbmA, .hbmB] ++
      absentParts ++ moveParts) t) ∧
  (∀ (p : SidePlan) (x : Side) (s : State), s.change = some (.side p) → s.holder = some x →
    (s.fld (R0 .UMW_STAT) F.UMW_STAT_STEP = 0 ∨ s.fld (R0 .UMW_STAT) F.UMW_STAT_STEP ≠ 3 ∧ s.planned.isSome = true → exec .sideImageStep s = .next s) ∧
    (s.fld (R0 .UMW_STAT) F.UMW_STAT_STEP = 1 ∨ s.fld (R0 .UMW_STAT) F.UMW_STAT_STEP = 2 → s.planned = none →
      (s.startedNew x = true → ∃ t, exec .sideImageStep s = .next t ∧ t.fld (R0 .UMW_STAT) F.UMW_STAT_STEP = 3 ∧ t.holder = some x ∧
        (if (s.side x.other).inReset = true ∨ s.startedNew x.other = true then t.side x.other = s.side x.other else (t.side x.other).inReset = true) ∧
        (∀ b, p.bench = some b → t.benchPlan = b) ∧ (∀ a, p.alloy = some a → t.headPlan = smapOf a.heads) ∧
        (∀ a, p.audio = some a → t.audioHi = a.hi ∧ t.audioTb = a.tb % 4) ∧ t.routes = s.routes ∧ t.rights = s.rights ∧ t.inPlan = s.inPlan) ∧
      (s.startedNew x = false → s.fld (R0 .UMW_STAT) F.UMW_STAT_STEP = 1 → s.standbyInStep = true → ∃ t, exec .sideImageStep s = .next t ∧
        t.fld (R0 .UMW_STAT) F.UMW_STAT_STEP = 2 ∧ t.planned = s.askSwitch.planned ∧
        s.alters [R0 .UMW_STAT, R0 .RFE_SWO_FRAME, R0 .RFE_CMD_RES] [] [.regs, .planned] t) ∧
      (s.startedNew x = false → s.fld (R0 .UMW_STAT) F.UMW_STAT_STEP = 2 ∨ s.standbyInStep = false → ∃ t, exec .sideImageStep s = .next t ∧
        t.fld (R0 .UMW_STAT) F.UMW_STAT_STEP = 1 ∧ s.alters [R0 .UMW_STAT] [] [.regs] t)) ∧
    (s.fld (R0 .UMW_STAT) F.UMW_STAT_STEP = 3 →
      (s.standbyInStep = true → s.startedNew x = true → s.startedNew x.other = true → ∃ t, exec .sideImageStep s = .next t ∧ t.change = none ∧
        t.fld (R0 .UMW_STAT) F.UMW_STAT_STEP = 0 ∧ t.flag (R0 .UMW_STAT) F.UMW_STAT_BUSY = false ∧ t.fld (R0 .UMW_STAT) F.UMW_STAT_RESULT = 0 ∧
        t.rd (R0 .UMW_SIDE_VER) = p.version ∧ s.alters [R0 .UMW_STAT, R0 .UMW_SIDE_VER] [.UMW_HASH] [.regs, .freeCtr, .change] t) ∧
      (s.standbyInStep = false ∨ s.startedNew x = false → s.startedNew x.other = true ∨ (s.side x.other).inReset = true → exec .sideImageStep s = .next s) ∧
      (s.startedNew x.other = false → (s.side x.other).inReset = false → ∃ t, exec .sideImageStep s = .next t ∧ (t.side x.other).inReset = true ∧
        t.holder = some x ∧ t.change = s.change ∧ s.disturbs [x.other] moveRegs moveParts t))) ∧
  (∀ (p : SidePlan) (x : Side) (s : State), s.change = some (.side p) → s.holder = some x →
    s.fld (R0 .UMW_STAT) F.UMW_STAT_STEP = 1 ∨ s.fld (R0 .UMW_STAT) F.UMW_STAT_STEP = 2 → s.planned = none → s.standbyInStep = false →
    (s.tick < s.changeAt + 10 * secTicks → exec .sideImageTimeout s = .next s) ∧
    (s.changeAt + 10 * secTicks ≤ s.tick → ∃ t, exec .sideImageTimeout s = .next t ∧ t.change = none ∧ t.fld (R0 .UMW_STAT) F.UMW_STAT_RESULT = 11 ∧
      t.flag (R0 .UMW_STAT) F.UMW_STAT_BUSY = false ∧ (t.side x.other).inReset = true ∧ t.holder = some x ∧
      s.disturbs [x.other] (.UMW_STAT :: moveRegs) (.change :: moveParts) t)) ∧
  (∀ s : State, s.change = none → exec .sideImageStep s = .next s ∧ exec .sideImageTimeout s = .next s)

/-- A token acts once, on a fresh challenge: CLAIM takes slot 0, TRANSFER the next, DEBUG_UNLOCK enables M7 for its minutes; RELOCK and expiry
end it (R463, R536, R544, R545, R549). -/
def Obligations.TokensOwnersAndDebugUnlock : Prop :=
  (∀ (r : Req) (s : State) (p : Instr × Nat), s.granted r .sec → tokenAdmits r = true → p ∈ [(Instr.debugUnlock r, 1), (.secTransfer r, 2), (.secClaim r, 3)] →
    s.tokenKind r ≠ p.2 → ∃ t, exec p.1 s = .next t ∧ s.changesOnly [.locks] t) ∧
  (∀ (r : Req) (s : State), s.granted r .sec → tokenAdmits r = true → s.tokenKind r = 3 →
    (s.tokenFresh r = true → s.owners = [] → ∃ t, exec (.secClaim r) s = .next t ∧ t.owners = [(s.token r).drop 5 |>.take 8] ∧
      t.fld (RB .SEC_TOKEN_RES r 0) F.SEC_TOKEN_RES_CODE = 0 ∧ t.rd (R0 .SEC_CHAL_LO) = (Config.challenge s.freeCtr).extractLsb' 0 32 ∧
      t.rd (R0 .SEC_CHAL_HI) = (Config.challenge s.freeCtr).extractLsb' 32 32 ∧
      s.alters [RB .SEC_TOKEN_RES r 0, R0 .SEC_CHAL_LO, R0 .SEC_CHAL_HI] [] [.regs, .freeCtr, .owners, .locks] t) ∧
    (s.tokenFresh r = false ∨ s.owners ≠ [] → ∃ t, exec (.secClaim r) s = .next t ∧
      s.alters [RB .SEC_TOKEN_RES r 0, R0 .SEC_CHAL_LO, R0 .SEC_CHAL_HI] [] [.regs, .freeCtr, .locks] t)) ∧
  (∀ (r : Req) (s : State), s.granted r .sec → tokenAdmits r = true → s.tokenKind r = 2 →
    (s.tokenFresh r = true → ∃ t, exec (.secTransfer r) s = .next t ∧
      (if s.tokenSigned r = true ∧ s.owners.length < 8
        then t.owners = s.owners ++ [(s.token r).drop 5 |>.take 8] ∧ t.fld (RB .SEC_TOKEN_RES r 0) F.SEC_TOKEN_RES_CODE = 0
        else t.owners = s.owners ∧ (s.tokenSigned r = false → t.fld (RB .SEC_TOKEN_RES r 0) F.SEC_TOKEN_RES_CODE = 6)) ∧
      s.alters [RB .SEC_TOKEN_RES r 0, R0 .SEC_CHAL_LO, R0 .SEC_CHAL_HI] [] [.regs, .freeCtr, .owners, .locks] t) ∧
    (s.tokenFresh r = false ∨ 8 ≤ s.owners.length → ∃ t, exec (.secTransfer r) s = .next t ∧
      s.alters [RB .SEC_TOKEN_RES r 0, R0 .SEC_CHAL_LO, R0 .SEC_CHAL_HI] [] [.regs, .freeCtr, .locks] t)) ∧
  (∀ (r : Req) (w q : Nat) (s : State), s.granted r .sec → tokenAdmits r = true → s.tokenKind r = 1 → w = (s.rd (RB .SEC_TOKEN r 0)).toNat → q = w / 16 % 16 →
    (q = 0 ∨ 10 < q → ∃ t, exec (.debugUnlock r) s = .next t ∧ t.unlock = s.unlock ∧ t.fld (RB .SEC_TOKEN_RES r 0) F.SEC_TOKEN_RES_CODE = 8 ∧
      t.rd (R0 .SEC_CHAL_LO) = (Config.challenge s.freeCtr).extractLsb' 0 32 ∧ t.rd (R0 .SEC_CHAL_HI) = (Config.challenge s.freeCtr).extractLsb' 32 32 ∧
      s.alters [RB .SEC_TOKEN_RES r 0, R0 .SEC_CHAL_LO, R0 .SEC_CHAL_HI] [] [.regs, .freeCtr, .locks] t) ∧
    (1 ≤ q → q ≤ 10 → s.tokenFresh r = true → ∃ t, exec (.debugUnlock r) s = .next t ∧ t.owners = s.owners ∧
      if s.tokenSigned r = true
        then t.unlock = some (q, s.tick + max 1 (min 1440 (w / 65536)) * 60 * secTicks) ∧ t.fld (RB .SEC_TOKEN_RES r 0) F.SEC_TOKEN_RES_CODE = 0 ∧
          s.alters [RB .SEC_TOKEN_RES r 0, R0 .SEC_CHAL_LO, R0 .SEC_CHAL_HI, R1 .STR_MRESET_LOG 7, R0 .STR_EVT] [.EVT_STATUS]
            [.regs, .fired, .freeCtr, .unlock, .locks, .winBuf] t
        else t.unlock = s.unlock ∧ t.fld (RB .SEC_TOKEN_RES r 0) F.SEC_TOKEN_RES_CODE = 6 ∧
          s.alters [RB .SEC_TOKEN_RES r 0, R0 .SEC_CHAL_LO, R0 .SEC_CHAL_HI] [] [.regs, .freeCtr, .locks] t) ∧
    (1 ≤ q → q ≤ 10 → s.tokenFresh r = false → ∃ t, exec (.debugUnlock r) s = .next t ∧ t.unlock = s.unlock ∧
      s.alters [RB .SEC_TOKEN_RES r 0, R0 .SEC_CHAL_LO, R0 .SEC_CHAL_HI] [] [.regs, .freeCtr, .locks] t)) ∧
  (∀ (r : Req) (s : State), s.granted r .sec → tokenAdmits r = true → ∃ t, exec (.relock r) s = .next t ∧ t.unlock = none ∧
    s.alters [R1 .STR_MRESET_LOG 7, R0 .STR_EVT] [.EVT_STATUS] [.regs, .fired, .unlock, .locks, .winBuf] t) ∧
  (∀ (r : Req) (s : State), s.aoReset = false → tokenAdmits r = false → ∀ c ∈ [Instr.secClaim r, .secTransfer r, .debugUnlock r, .relock r],
    ∃ t, exec c s = .next t ∧ bitOf (t.rd (RB .STR_ERR r 0)) 0 = true ∧ s.alters [RB .STR_ERR r 0, RB .STR_ERR_ADDR r 0] [] [.regs] t) ∧
  (∀ s : State, (s.unlock = none → exec .debugUnlockExpiry s = .next s) ∧
    ∀ q e, s.unlock = some (q, e) → (s.tick < e → exec .debugUnlockExpiry s = .next s) ∧
      (e ≤ s.tick → ∃ t, exec .debugUnlockExpiry s = .next t ∧ t.unlock = none ∧
        s.alters [R1 .STR_MRESET_LOG 7, R0 .STR_EVT] [.EVT_STATUS] [.regs, .fired, .unlock, .locks, .winBuf] t))

/-- A bank's supplies fail and return, a Side's supplies become good or are late, and a region's sensors drive its report, its lines or
TEMP_HIGH (R19, R506, R507, R554, R555, R561, R575). -/
def Obligations.SuppliesAndTemperatures : Prop :=
  (∀ (b : Bank) (ctx : W32) (c0 c1 : Cut) (s : State), s.aoReset = false → b ∉ s.bankLost →
    (b = .E → ∀ p : Fin 2, s.flag (R1 .STR_HP_STAT p) F.STR_HP_STAT_LINK_UP = false) →
    ∃ u, exec (.bankSupplyFail b ctx c0 c1) s = .next (u.cycle []) ∧ (∀ b', b' ∈ u.bankLost ↔ b' = b ∨ b' ∈ s.bankLost) ∧
      (32 + b.idx, ctx) ∈ u.envLines ∧ u.flag (R0 .SYS_EVT) F.SYS_EVT_RAIL_FAIL = true ∧
      (∀ n, n < 512 → n / 256 = b.idx → s.laneProto n ≠ 0 → u.laneLos n = true ∧ u.lanePark n = 3) ∧
      (∀ n, n / 256 ≠ b.idx → u.rd (R1 .LANE_STAT n) = s.rd (R1 .LANE_STAT n)) ∧
      s.touches ([.SYS_EVT, .LANE_STAT, .LANE_EVT, .LANE_QSTAT, .NVL_STAT, .NVL_EVT, .SLU_STAT, .ETH_PORT_STAT, .ETH_PORT_EVT] ++ absentRegs ++ stepRegs)
        ([.bankLost, .envLines, .lanes, .nvl, .ports, .sluices, .freeCtr] ++ absentParts ++ stepParts) u) ∧
  (∀ (ctx : W32) (c0 c1 : Cut) (s : State), s.aoReset = false → Bank.E ∉ s.bankLost →
    ∃ u, exec (.bankSupplyFail .E ctx c0 c1) s = .next u ∧ Bank.E ∈ u.bankLost ∧
      ∀ p : Fin 2, u.flag (R1 .STR_HP_STAT p) F.STR_HP_STAT_LINK_UP = false) ∧
  (∀ (b : Bank) (s : State), b ∈ s.bankLost →
    ∃ u, exec (.bankSupplyReturn b) s = .next (u.cycle []) ∧ (∀ b', b' ∈ u.bankLost ↔ b' ≠ b ∧ b' ∈ s.bankLost) ∧
      (∀ p, p ∈ u.envLines ↔ p ∈ s.envLines ∧ p.1 ≠ 32 + b.idx) ∧
      (∀ n, n < 512 → n / 256 = b.idx → s.laneProto n ≠ 0 → s.lanePark n ≠ 0 → u.flag (R1 .LANE_STAT n) F.LANE_STAT_WAKING = true) ∧
      (∀ n, n / 256 ≠ b.idx → u.rd (R1 .LANE_STAT n) = s.rd (R1 .LANE_STAT n)) ∧
      s.touches [.LANE_STAT] [.regs, .lanes, .bankLost, .envLines] u) ∧
  (∀ (sd : Side) (s : State), s.aoReset = false →
    ((∀ p ∈ s.envLines, p.1 ≠ 16 * sd.idx + 8 ∧ p.1 ≠ 16 * sd.idx + 9) →
      ∃ t, exec (.sidePowerGood sd) s = .next t ∧
        t.side sd = (if s.loaded = true ∧ (s.side sd).cold = false then { s.side sd with powered := true, pg := true, pwrAt := none } else { s.side sd with pg := true }) ∧
        (∀ x, x ≠ sd → t.side x = s.side x) ∧ s.changesOnly [.sideA, .sideB] t) ∧
    (∀ p ∈ s.envLines, p.1 = 16 * sd.idx + 8 ∨ p.1 = 16 * sd.idx + 9 → exec (.sidePowerGood sd) s = .next s)) ∧
  (∀ (sd : Side) (s : State) (t0 : Nat), (s.side sd).pwrAt = some t0 → (s.side sd).pg = false → t0 + 12500000 ≤ s.tick →
    ∃ t, exec (.pgLate sd) s = .next t ∧ t.flag (R0 .SYS_EVT) F.SYS_EVT_PG_LATE = true ∧ t.side sd = { s.side sd with pwrAt := none } ∧
      (∀ x, x ≠ sd → t.side x = s.side x) ∧ s.alters [R0 .SYS_EVT] [.EVT_STATUS] [.regs, .fired, .sideA, .sideB] t) ∧
  (∀ (k : Fin 6) (xs : List Int) (m : Int) (s : State), s.aoReset = false → m ∈ xs → (∀ x ∈ xs, x ≤ m) → k.val < 2 →
    ∃ u, exec (.thermalSensorRead k xs) s = .next (u.cycle []) ∧ u.fld (R1 .SYS_TEMP k) F.SYS_TEMP_TEMP = twos 8 m ∧
      (k.val ∈ s.tempSeen → u.fld (R1 .SYS_TEMP k) F.SYS_TEMP_MAX = twos 8 (max (sext 8 (s.fld (R1 .SYS_TEMP k) F.SYS_TEMP_MAX)) m)) ∧
      (k.val ∉ s.tempSeen → u.fld (R1 .SYS_TEMP k) F.SYS_TEMP_MAX = twos 8 m) ∧
      (110 ≤ m → (u.therm.at k).trip = true) ∧ (105 ≤ m → (u.therm.at k).warn = true) ∧
      (m < 100 → (u.therm.at k).trip = false ∧ (u.therm.at k).warn = false) ∧
      (100 ≤ m → m < 110 → (u.therm.at k).trip = (s.therm.at k).trip) ∧ (100 ≤ m → m < 105 → (u.therm.at k).warn = (s.therm.at k).warn) ∧
      (∀ x, x ≠ k.val → u.therm.at x = s.therm.at x) ∧ s.alters [R1 .SYS_TEMP k] [] [.regs, .therm, .tempSeen] u) ∧
  (∀ (k : Fin 6) (xs : List Int) (m : Int) (s : State), s.aoReset = false → m ∈ xs → (∀ x ∈ xs, x ≤ m) → 2 ≤ k.val →
    ∃ t, exec (.thermalSensorRead k xs) s = .next t ∧ t.fld (R1 .SYS_TEMP k) F.SYS_TEMP_TEMP = twos 8 m ∧
      (105 ≤ m → t.flag (R0 .SYS_EVT) F.SYS_EVT_TEMP_HIGH = true) ∧
      (m < 105 → s.alters [R1 .SYS_TEMP k] [] [.regs, .tempSeen] t) ∧
      s.alters [R1 .SYS_TEMP k, R0 .SYS_EVT] [.EVT_STATUS] [.regs, .fired, .tempSeen] t)

/-- A lowered declaration wakes what it no longer permits, units enter E2 after 1 ms and start after the engine wake time, and the host region
parks (R214, R215, R556, R557, R558, R559, R560, R572). -/
def Obligations.DeclarationsParkAndWake : Prop :=
  (∀ (r : Req) (g : Fin 64) (v : W32) (s : State), s.granted r .ao → s.holdsGroup r g = true →
    ∃ t, exec (.parkLaneDeclWrite r g v) s = .next t ∧ t.rd (R1 .PARK_LANE_DECL g) = v &&& 0x3FFFFF#32 ∧
      (∀ n ∈ s.groupLanes g, t.laneDeepest n < s.lanePark n →
        (t.laneDeepest n = 0 → laneBank n ∉ s.bankLost → t.flag (R1 .LANE_STAT n) F.LANE_STAT_WAKING = true) ∧
        (t.laneDeepest n ≠ 0 → s.lanePark n ≠ 3 ∨ s.flag (qstat (n / 4)) F.LANE_QSTAT_LOCK = true → t.lanePark n = t.laneDeepest n)) ∧
      (∀ n ∈ s.groupLanes g, s.lanePark n ≤ t.laneDeepest n → t.rd (R1 .LANE_STAT n) = s.rd (R1 .LANE_STAT n)) ∧
      (∀ n, n ∉ s.groupLanes g → t.rd (R1 .LANE_STAT n) = s.rd (R1 .LANE_STAT n)) ∧
      s.alters [R1 .PARK_LANE_DECL g] ([.LANE_STAT, .LANE_EVT, .NVL_STAT, .NVL_EVT, .SLU_STAT, .ETH_PORT_STAT, .ETH_PORT_EVT] ++ absentRegs ++ stepRegs)
        ([.locks, .lanes, .nvl, .sluices, .ports, .freeCtr] ++ absentParts ++ stepParts) t) ∧
  (∀ (r : Req) (k : Fin 4) (v : W32) (s : State), s.granted r .ao → is7or10 r = true →
    ∃ t, exec (.parkEngDeclWrite r k v) s = .next t ∧ t.rd (R1 .PARK_ENG_DECL k) = v &&& 0x3FFFFF#32 ∧
      (t.engDeep k = false → ∀ u, u < 2048 → (t.engs.at (engIx k u)).deep = false) ∧ (t.engDeep k = true → t.engs = s.engs) ∧
      (∀ k' u, u < 2048 → k' ≠ k.val → t.engs.at (engIx k' u) = s.engs.at (engIx k' u)) ∧
      s.alters [R1 .PARK_ENG_DECL k] [] [.regs, .locks, .engs] t) ∧
  (∀ (r : Req) (v : W32) (s : State), s.granted r .ao → is7or10 r = true →
    ∃ t, exec (.parkHostWrite r v) s = .next t ∧ t.rd (R0 .PARK_HOST) = v &&& 3#32 ∧
      s.touches [.PARK_HOST, .STR_HP_STAT, .STR_MRESET_LOG, .STR_EVT, .EVT_STATUS]
        [.regs, .fired, .rrp, .hostParked, .locks, .winBuf, .msixOpen, .msixPend] t ∧
      (t.hostEnabled = false → s.hostParked = false →
        t.hostParked = true ∧ (∀ p : Fin 2, t.flag (R1 .STR_HP_STAT p) F.STR_HP_STAT_LINK_UP = false) ∧ ∀ h, h < 4 → (t.rrp.at h).wait = []) ∧
      (t.hostEnabled = true → t.hostParked = false ∧
        ∀ p : Fin 2, if bitOf (s.rd (R0 .PARK_HOST)) p = true ∧ bitOf v p = false ∧ s.flag (R1 .STR_HP_STAT p) F.STR_HP_STAT_LINK_UP = true
          then t.flag (R1 .STR_HP_STAT p) F.STR_HP_STAT_LINK_UP = false else t.rd (R1 .STR_HP_STAT p) = s.rd (R1 .STR_HP_STAT p))) ∧
  (∀ (k : Fin 4) (u : Fin 1024) (s : State), u.val < engUnits k → s.engWork k u = false → (s.engs.at (engIx k u)).busy = false →
    (s.engs.at (engIx k u)).deep = false → s.engDeep k = true → (s.engs.at (engIx k u)).since + 250000 ≤ s.tick →
    ∃ t, exec (.engineIdleDeep k u) s = .next t ∧ (t.engs.at (engIx k u)).deep = true ∧ (t.engs.at (engIx k u)).busy = false ∧
      (∀ x, x ≠ engIx k u → t.engs.at x = s.engs.at x) ∧ s.changesOnly [.engs] t) ∧
  (∀ (k : Fin 4) (u : Fin 1024) (s : State), u.val < engUnits k → s.engWork k u = true → (s.engs.at (engIx k u)).busy = false →
    ∃ t, exec (.engineDemand k u) s = .next t ∧ (t.engs.at (engIx k u)).busy = true ∧ (t.engs.at (engIx k u)).deep = false ∧
      t.engStart k u = s.tick + (if s.engDeep k then 5000 else 25) ∧
      (∀ x, x ≠ engIx k u → t.engs.at x = s.engs.at x) ∧ s.changesOnly [.engs] t)
end

