-- ==== Sys2Proof/Laws/Sparse.lean ====
section
/-!
SUPPORT. What the sparse stores do: a read after a write, and the canonical form that every write keeps.
-/
namespace Sys2Proof.Machine

variable {κ α : Type} [DecidableEq κ]

/-- A strict total order on keys. -/
structure KeyOrder (lt : κ → κ → Bool) : Prop where
  irrefl : ∀ a, lt a a = false
  trans  : ∀ a b c, lt a b = true → lt b c = true → lt a c = true
  total  : ∀ a b, a ≠ b → lt a b = false → lt b a = true

theorem natOrder : KeyOrder natLt where
  irrefl a := by simp [natLt]
  trans a b c h₁ h₂ := by simp only [natLt, decide_eq_true_eq] at *; omega
  total a b hne h := by simp only [natLt, decide_eq_true_eq, decide_eq_false_iff_not] at *; omega

theorem RegName.ctorIdx_inj (a b : RegName) (h : a.ctorIdx = b.ctorIdx) : a = b := by
  have ha : RegName.ofNat a.ctorIdx = a := by cases a <;> rfl
  have hb : RegName.ofNat b.ctorIdx = b := by cases b <;> rfl
  rw [← ha, ← hb, h]

theorem RegKey.order : KeyOrder RegKey.lt where
  irrefl a := by simp [RegKey.lt]
  trans a b c h₁ h₂ := by
    simp only [RegKey.lt, Bool.or_eq_true, Bool.and_eq_true, decide_eq_true_eq] at *
    omega
  total a b hne h := by
    have hne' : a.name.ctorIdx ≠ b.name.ctorIdx ∨ a.i ≠ b.i ∨ a.j ≠ b.j ∨ a.bank ≠ b.bank := by
      by_contra hc
      simp only [not_or, ne_eq, not_not] at hc
      apply hne
      obtain ⟨h1, h2, h3, h4⟩ := hc
      have := RegName.ctorIdx_inj _ _ h1
      cases a; cases b; simp_all
    by_contra hb
    simp only [RegKey.lt, Bool.or_eq_true, Bool.and_eq_true, decide_eq_true_eq, Bool.or_eq_false_iff,
      Bool.and_eq_false_iff, decide_eq_false_iff_not] at h hb
    omega

theorem AlyCell.order : KeyOrder AlyCell.lt where
  irrefl a := by simp [AlyCell.lt]
  trans a b c h₁ h₂ := by
    simp only [AlyCell.lt, Bool.or_eq_true, Bool.and_eq_true, decide_eq_true_eq] at *
    omega
  total a b hne h := by
    have hne' : a.kind ≠ b.kind ∨ a.item ≠ b.item ∨ a.copy ≠ b.copy ∨ a.off ≠ b.off := by
      by_contra hc
      simp only [not_or, ne_eq, not_not] at hc
      apply hne
      cases a; cases b; simp_all
    by_contra hb
    simp only [AlyCell.lt, Bool.or_eq_true, Bool.and_eq_true, decide_eq_true_eq, Bool.or_eq_false_iff,
      Bool.and_eq_false_iff, decide_eq_false_iff_not] at h hb
    omega

namespace Sparse

theorem get_erase_ne (d : κ → α) (m : List (κ × α)) {k k' : κ} (h : k' ≠ k) : get d (erase k m) k' = get d m k' := by
  induction m with
  | nil => rfl
  | cons e m ih =>
    obtain ⟨e, v⟩ := e
    by_cases he : e = k
    · subst he
      have : erase e ((e, v) :: m) = erase e m := by simp [erase]
      rw [this, ih]
      simp [get, Ne.symm h]
    · have : erase k ((e, v) :: m) = (e, v) :: erase k m := by simp [erase, he]
      rw [this]
      simp only [get, ih]

theorem get_of_not_mem (d : κ → α) (m : List (κ × α)) (k : κ) (h : ∀ e ∈ m, e.1 ≠ k) : get d m k = d k := by
  induction m with
  | nil => rfl
  | cons e m ih =>
    obtain ⟨e, v⟩ := e
    have := h (e, v) (by simp)
    simp only [get, if_neg this]
    exact ih fun x hx => h x (by simp [hx])

theorem not_mem_erase (k : κ) (m : List (κ × α)) : ∀ e ∈ erase k m, e.1 ≠ k := by
  intro e he
  simpa [erase] using (List.mem_filter.mp he).2

theorem get_ins_self (lt : κ → κ → Bool) (d : κ → α) (m : List (κ × α)) (k : κ) (v : α) (h : ∀ e ∈ m, e.1 ≠ k) :
    get d (ins lt k v m) k = v := by
  induction m with
  | nil => simp [ins, get]
  | cons e m ih =>
    obtain ⟨e, w⟩ := e
    have he := h (e, w) (by simp)
    simp only [ins]
    split
    · simp only [get, if_neg he]
      exact ih fun x hx => h x (by simp [hx])
    · simp [get]

theorem get_ins_ne (lt : κ → κ → Bool) (d : κ → α) (m : List (κ × α)) (k k' : κ) (v : α) (h : k' ≠ k) :
    get d (ins lt k v m) k' = get d m k' := by
  induction m with
  | nil => simp [ins, get, Ne.symm h]
  | cons e m ih =>
    obtain ⟨e, w⟩ := e
    simp only [ins]
    split
    · simp only [get, ih]
    · simp [get, Ne.symm h]

/-- A read after a write: the key written reads as the value, every other key as before. -/
theorem get_put [DecidableEq α] (lt : κ → κ → Bool) (d : κ → α) (m : List (κ × α)) (k k' : κ) (v : α) :
    get d (put lt d m k v) k' = if k' = k then v else get d m k' := by
  unfold put
  by_cases hk : k' = k
  · subst hk
    simp only [if_true]
    split
    · rename_i hv; rw [get_of_not_mem _ _ _ (not_mem_erase _ _), hv]
    · exact get_ins_self _ _ _ _ _ (not_mem_erase _ _)
  · simp only [hk, if_false]
    split
    · exact get_erase_ne _ _ hk
    · rw [get_ins_ne _ _ _ _ _ _ hk, get_erase_ne _ _ hk]

theorem mem_ins (lt : κ → κ → Bool) (m : List (κ × α)) (k : κ) (v : α) (e : κ × α) :
    e ∈ ins lt k v m ↔ e = (k, v) ∨ e ∈ m := by
  induction m with
  | nil => simp [ins]
  | cons x m ih =>
    obtain ⟨x, w⟩ := x
    simp only [ins]
    split
    · simp only [List.mem_cons, ih]; tauto
    · simp only [List.mem_cons]

theorem pairwise_ins {lt : κ → κ → Bool} (o : KeyOrder lt) (m : List (κ × α)) (k : κ) (v : α)
    (hm : m.Pairwise (fun a b => lt a.1 b.1 = true)) (hk : ∀ e ∈ m, e.1 ≠ k) :
    (ins lt k v m).Pairwise (fun a b => lt a.1 b.1 = true) := by
  induction m with
  | nil => simp [ins]
  | cons x m ih =>
    obtain ⟨x, w⟩ := x
    have hx := hk (x, w) (by simp)
    rw [List.pairwise_cons] at hm
    simp only [ins]
    split
    · rename_i hlt
      rw [List.pairwise_cons]
      refine ⟨?_, ih hm.2 fun e he => hk e (by simp [he])⟩
      intro e he
      rcases (mem_ins _ _ _ _ _).mp he with rfl | he
      · exact hlt
      · exact hm.1 e he
    · rename_i hlt
      have hkx : lt k x = true := o.total x k hx (by simpa using hlt)
      rw [List.pairwise_cons, List.pairwise_cons]
      refine ⟨?_, hm⟩
      intro e he
      rcases List.mem_cons.mp he with rfl | he
      · exact hkx
      · exact o.trans _ _ _ hkx (hm.1 e he)

/-- A write keeps the canonical form. -/
theorem wf_put [DecidableEq α] {lt : κ → κ → Bool} (o : KeyOrder lt) (d : κ → α) (m : List (κ × α)) (k : κ) (v : α)
    (h : wf lt d m) : wf lt d (put lt d m k v) := by
  have he : wf lt d (erase k m) :=
    ⟨h.1.sublist List.filter_sublist, fun e hx => h.2 e (List.mem_of_mem_filter hx)⟩
  unfold put
  split
  · exact he
  · rename_i hv
    refine ⟨pairwise_ins o _ _ _ he.1 (not_mem_erase _ _), ?_⟩
    intro e hx
    rcases (mem_ins _ _ _ _ _).mp hx with rfl | hx
    · exact hv
    · exact he.2 e hx

omit [DecidableEq κ] in
theorem wf_nil (lt : κ → κ → Bool) (d : κ → α) : wf lt d [] := ⟨List.Pairwise.nil, by simp⟩

omit [DecidableEq κ] in
theorem wf_filter (lt : κ → κ → Bool) (d : κ → α) (m : List (κ × α)) (p : κ × α → Bool) (h : wf lt d m) :
    wf lt d (m.filter p) :=
  ⟨h.1.sublist List.filter_sublist, fun e hx => h.2 e (List.mem_of_mem_filter hx)⟩

end Sparse

/-! ## Arrays of hidden state -/

variable {β : Type} [Inhabited β] [DecidableEq β]

/-- An instance after a write. -/
@[simp] theorem SMap.at_set (m : SMap β) (k k' : Nat) (v : β) : (m.set k v).at k' = if k' = k then v else m.at k' :=
  Sparse.get_put _ _ _ _ _ _

/-- An instance after an update. -/
@[simp] theorem SMap.at_upd (m : SMap β) (k k' : Nat) (f : β → β) : (m.upd k f).at k' = if k' = k then f (m.at k) else m.at k' :=
  SMap.at_set m k k' _

/-! ## Byte memories -/

/-- A byte after a write. -/
theorem memByte_memPut (m : List Host.Cell) (a a' : Nat) (b : Byte) : memByte (memPut m a b) a' = if a' = a then b else memByte m a' :=
  Sparse.get_put _ _ _ _ _ _

/-- A write keeps the canonical form. -/
theorem memPut_wf (m : List Host.Cell) (a : Nat) (b : Byte) (h : Memory.wf m) : Memory.wf (memPut m a b) :=
  Sparse.wf_put natOrder _ _ _ _ h

theorem memPutWord_wf (m : List Host.Cell) (a : Nat) (w : W32) (h : Memory.wf m) : Memory.wf (memPutWord m a w) :=
  memPut_wf _ _ _ (memPut_wf _ _ _ (memPut_wf _ _ _ (memPut_wf _ _ _ h)))

theorem memPutWords_wf (m : List Host.Cell) (a : Nat) (ws : List W32) (h : Memory.wf m) : Memory.wf (memPutWords m a ws) := by
  induction ws generalizing m a with
  | nil => exact h
  | cons w ws ih => exact ih _ _ (memPutWord_wf _ _ _ h)

/-- A word's write leaves every byte outside its four as it was. -/
theorem memByte_memPutWord_of_outside (m : List Host.Cell) (a a' : Nat) (w : W32) (h : a' < a ∨ a + 4 ≤ a') :
    memByte (memPutWord m a w) a' = memByte m a' := by
  unfold memPutWord
  rw [memByte_memPut, memByte_memPut, memByte_memPut, memByte_memPut]
  rw [if_neg (by omega), if_neg (by omega), if_neg (by omega), if_neg (by omega)]

/-- The write of several words leaves every byte outside them as it was. -/
theorem memByte_memPutWords_of_outside (m : List Host.Cell) (a a' : Nat) (ws : List W32) (h : a' < a ∨ a + 4 * ws.length ≤ a') :
    memByte (memPutWords m a ws) a' = memByte m a' := by
  induction ws generalizing m a with
  | nil => rfl
  | cons w ws ih =>
    simp only [List.length_cons] at h
    simp only [memPutWords]
    rw [ih _ _ (by omega), memByte_memPutWord_of_outside _ _ _ _ (by omega)]

end Sys2Proof.Machine
end

