-- ==== Sys2Proof/Laws/State.lean ====
section
/-!
SUPPORT. What each update of the state leaves alone: one lemma per field per update, and for the updates that raise events one equation that
names all they can change.
-/
namespace Sys2Proof.Machine

variable (s : State)

/-! ## wr -/

@[simp] theorem State.wr_pending (k : RegKey) (v : W32) : (s.wr k v).pending = s.pending := rfl
@[simp] theorem State.wr_sideA (k : RegKey) (v : W32) : (s.wr k v).sideA = s.sideA := rfl
@[simp] theorem State.wr_sideB (k : RegKey) (v : W32) : (s.wr k v).sideB = s.sideB := rfl
@[simp] theorem State.wr_rights (k : RegKey) (v : W32) : (s.wr k v).rights = s.rights := rfl
@[simp] theorem State.wr_plain7 (k : RegKey) (v : W32) : (s.wr k v).plain7 = s.plain7 := rfl
@[simp] theorem State.wr_fired (k : RegKey) (v : W32) : (s.wr k v).fired = s.fired := rfl
@[simp] theorem State.wr_out (k : RegKey) (v : W32) : (s.wr k v).out = s.out := rfl
@[simp] theorem State.wr_lastRead (k : RegKey) (v : W32) : (s.wr k v).lastRead = s.lastRead := rfl
@[simp] theorem State.wr_freeCtr (k : RegKey) (v : W32) : (s.wr k v).freeCtr = s.freeCtr := rfl
@[simp] theorem State.wr_aoReset (k : RegKey) (v : W32) : (s.wr k v).aoReset = s.aoReset := rfl
@[simp] theorem State.wr_setNow (k : RegKey) (v : W32) : (s.wr k v).setNow = s.setNow := rfl
@[simp] theorem State.wr_twins (k : RegKey) (v : W32) : (s.wr k v).twins = s.twins := rfl
@[simp] theorem State.wr_twinQ (k : RegKey) (v : W32) : (s.wr k v).twinQ = s.twinQ := rfl
@[simp] theorem State.wr_inPlan (k : RegKey) (v : W32) : (s.wr k v).inPlan = s.inPlan := rfl
@[simp] theorem State.wr_inRx (k : RegKey) (v : W32) : (s.wr k v).inRx = s.inRx := rfl
@[simp] theorem State.wr_merges (k : RegKey) (v : W32) : (s.wr k v).merges = s.merges := rfl
@[simp] theorem State.wr_feeds (k : RegKey) (v : W32) : (s.wr k v).feeds = s.feeds := rfl
@[simp] theorem State.wr_outPlan (k : RegKey) (v : W32) : (s.wr k v).outPlan = s.outPlan := rfl
@[simp] theorem State.wr_routes (k : RegKey) (v : W32) : (s.wr k v).routes = s.routes := rfl
@[simp] theorem State.wr_takes (k : RegKey) (v : W32) : (s.wr k v).takes = s.takes := rfl
@[simp] theorem State.wr_commits (k : RegKey) (v : W32) : (s.wr k v).commits = s.commits := rfl
@[simp] theorem State.wr_salvos (k : RegKey) (v : W32) : (s.wr k v).salvos = s.salvos := rfl
@[simp] theorem State.wr_outs (k : RegKey) (v : W32) : (s.wr k v).outs = s.outs := rfl
@[simp] theorem State.wr_shown (k : RegKey) (v : W32) : (s.wr k v).shown = s.shown := rfl
@[simp] theorem State.wr_stores (k : RegKey) (v : W32) : (s.wr k v).stores = s.stores := rfl
@[simp] theorem State.wr_captures (k : RegKey) (v : W32) : (s.wr k v).captures = s.captures := rfl
@[simp] theorem State.wr_benches (k : RegKey) (v : W32) : (s.wr k v).benches = s.benches := rfl
@[simp] theorem State.wr_benchPlan (k : RegKey) (v : W32) : (s.wr k v).benchPlan = s.benchPlan := rfl
@[simp] theorem State.wr_benchIn (k : RegKey) (v : W32) : (s.wr k v).benchIn = s.benchIn := rfl
@[simp] theorem State.wr_benchMem (k : RegKey) (v : W32) : (s.wr k v).benchMem = s.benchMem := rfl
@[simp] theorem State.wr_leadOld (k : RegKey) (v : W32) : (s.wr k v).leadOld = s.leadOld := rfl
@[simp] theorem State.wr_leaseEnd (k : RegKey) (v : W32) : (s.wr k v).leaseEnd = s.leaseEnd := rfl
@[simp] theorem State.wr_grace (k : RegKey) (v : W32) : (s.wr k v).grace = s.grace := rfl
@[simp] theorem State.wr_planned (k : RegKey) (v : W32) : (s.wr k v).planned = s.planned := rfl
@[simp] theorem State.wr_outSince (k : RegKey) (v : W32) : (s.wr k v).outSince = s.outSince := rfl
@[simp] theorem State.wr_voters (k : RegKey) (v : W32) : (s.wr k v).voters = s.voters := rfl
@[simp] theorem State.wr_grantAt (k : RegKey) (v : W32) : (s.wr k v).grantAt = s.grantAt := rfl
@[simp] theorem State.wr_sluices (k : RegKey) (v : W32) : (s.wr k v).sluices = s.sluices := rfl
@[simp] theorem State.wr_ring (k : RegKey) (v : W32) : (s.wr k v).ring = s.ring := rfl
@[simp] theorem State.wr_envLines (k : RegKey) (v : W32) : (s.wr k v).envLines = s.envLines := rfl
@[simp] theorem State.wr_sevAt (k : RegKey) (v : W32) : (s.wr k v).sevAt = s.sevAt := rfl
@[simp] theorem State.wr_therm (k : RegKey) (v : W32) : (s.wr k v).therm = s.therm := rfl
@[simp] theorem State.wr_txqs (k : RegKey) (v : W32) : (s.wr k v).txqs = s.txqs := rfl
@[simp] theorem State.wr_lanes (k : RegKey) (v : W32) : (s.wr k v).lanes = s.lanes := rfl
@[simp] theorem State.wr_nvl (k : RegKey) (v : W32) : (s.wr k v).nvl = s.nvl := rfl
@[simp] theorem State.wr_bankLost (k : RegKey) (v : W32) : (s.wr k v).bankLost = s.bankLost := rfl
@[simp] theorem State.wr_nvlTx (k : RegKey) (v : W32) : (s.wr k v).nvlTx = s.nvlTx := rfl
@[simp] theorem State.wr_bypassQ (k : RegKey) (v : W32) : (s.wr k v).bypassQ = s.bypassQ := rfl
@[simp] theorem State.wr_sdi (k : RegKey) (v : W32) : (s.wr k v).sdi = s.sdi := rfl
@[simp] theorem State.wr_portPlan (k : RegKey) (v : W32) : (s.wr k v).portPlan = s.portPlan := rfl
@[simp] theorem State.wr_rxFlows (k : RegKey) (v : W32) : (s.wr k v).rxFlows = s.rxFlows := rfl
@[simp] theorem State.wr_txRuns (k : RegKey) (v : W32) : (s.wr k v).txRuns = s.txRuns := rfl
@[simp] theorem State.wr_txFlows (k : RegKey) (v : W32) : (s.wr k v).txFlows = s.txFlows := rfl
@[simp] theorem State.wr_txBufs (k : RegKey) (v : W32) : (s.wr k v).txBufs = s.txBufs := rfl
@[simp] theorem State.wr_ethQ (k : RegKey) (v : W32) : (s.wr k v).ethQ = s.ethQ := rfl
@[simp] theorem State.wr_macs (k : RegKey) (v : W32) : (s.wr k v).macs = s.macs := rfl
@[simp] theorem State.wr_rrp (k : RegKey) (v : W32) : (s.wr k v).rrp = s.rrp := rfl
@[simp] theorem State.wr_hostParked (k : RegKey) (v : W32) : (s.wr k v).hostParked = s.hostParked := rfl
@[simp] theorem State.wr_tick (k : RegKey) (v : W32) : (s.wr k v).tick = s.tick := rfl
@[simp] theorem State.wr_tbs (k : RegKey) (v : W32) : (s.wr k v).tbs = s.tbs := rfl
@[simp] theorem State.wr_cmps (k : RegKey) (v : W32) : (s.wr k v).cmps = s.cmps := rfl
@[simp] theorem State.wr_ports (k : RegKey) (v : W32) : (s.wr k v).ports = s.ports := rfl
@[simp] theorem State.wr_txLatch (k : RegKey) (v : W32) : (s.wr k v).txLatch = s.txLatch := rfl
@[simp] theorem State.wr_cads (k : RegKey) (v : W32) : (s.wr k v).cads = s.cads := rfl
@[simp] theorem State.wr_cands (k : RegKey) (v : W32) : (s.wr k v).cands = s.cands := rfl
@[simp] theorem State.wr_ref (k : RegKey) (v : W32) : (s.wr k v).ref = s.ref := rfl
@[simp] theorem State.wr_trigArmed (k : RegKey) (v : W32) : (s.wr k v).trigArmed = s.trigArmed := rfl
@[simp] theorem State.wr_trigSignal (k : RegKey) (v : W32) : (s.wr k v).trigSignal = s.trigSignal := rfl
@[simp] theorem State.wr_audioTb (k : RegKey) (v : W32) : (s.wr k v).audioTb = s.audioTb := rfl
@[simp] theorem State.wr_audioHi (k : RegKey) (v : W32) : (s.wr k v).audioHi = s.audioHi := rfl
@[simp] theorem State.wr_audNext (k : RegKey) (v : W32) : (s.wr k v).audNext = s.audNext := rfl
@[simp] theorem State.wr_audSrc (k : RegKey) (v : W32) : (s.wr k v).audSrc = s.audSrc := rfl
@[simp] theorem State.wr_audDst (k : RegKey) (v : W32) : (s.wr k v).audDst = s.audDst := rfl
@[simp] theorem State.wr_tdm (k : RegKey) (v : W32) : (s.wr k v).tdm = s.tdm := rfl
@[simp] theorem State.wr_tdmOwner (k : RegKey) (v : W32) : (s.wr k v).tdmOwner = s.tdmOwner := rfl
@[simp] theorem State.wr_audTimes (k : RegKey) (v : W32) : (s.wr k v).audTimes = s.audTimes := rfl
@[simp] theorem State.wr_audIn (k : RegKey) (v : W32) : (s.wr k v).audIn = s.audIn := rfl
@[simp] theorem State.wr_headPlan (k : RegKey) (v : W32) : (s.wr k v).headPlan = s.headPlan := rfl
@[simp] theorem State.wr_tileHead (k : RegKey) (v : W32) : (s.wr k v).tileHead = s.tileHead := rfl
@[simp] theorem State.wr_preHead (k : RegKey) (v : W32) : (s.wr k v).preHead = s.preHead := rfl
@[simp] theorem State.wr_headRun (k : RegKey) (v : W32) : (s.wr k v).headRun = s.headRun := rfl
@[simp] theorem State.wr_tiles (k : RegKey) (v : W32) : (s.wr k v).tiles = s.tiles := rfl
@[simp] theorem State.wr_alyA (k : RegKey) (v : W32) : (s.wr k v).alyA = s.alyA := rfl
@[simp] theorem State.wr_alyB (k : RegKey) (v : W32) : (s.wr k v).alyB = s.alyB := rfl
@[simp] theorem State.wr_alyWait (k : RegKey) (v : W32) : (s.wr k v).alyWait = s.alyWait := rfl
@[simp] theorem State.wr_alyLive (k : RegKey) (v : W32) : (s.wr k v).alyLive = s.alyLive := rfl
@[simp] theorem State.wr_alyStore (k : RegKey) (v : W32) : (s.wr k v).alyStore = s.alyStore := rfl
@[simp] theorem State.wr_hbmA (k : RegKey) (v : W32) : (s.wr k v).hbmA = s.hbmA := rfl
@[simp] theorem State.wr_hbmB (k : RegKey) (v : W32) : (s.wr k v).hbmB = s.hbmB := rfl
@[simp] theorem State.wr_hbmRun (k : RegKey) (v : W32) : (s.wr k v).hbmRun = s.hbmRun := rfl
@[simp] theorem State.wr_hbmMax (k : RegKey) (v : W32) : (s.wr k v).hbmMax = s.hbmMax := rfl
@[simp] theorem State.wr_hoppers (k : RegKey) (v : W32) : (s.wr k v).hoppers = s.hoppers := rfl
@[simp] theorem State.wr_capPlan (k : RegKey) (v : W32) : (s.wr k v).capPlan = s.capPlan := rfl
@[simp] theorem State.wr_sramA (k : RegKey) (v : W32) : (s.wr k v).sramA = s.sramA := rfl
@[simp] theorem State.wr_sramB (k : RegKey) (v : W32) : (s.wr k v).sramB = s.sramB := rfl
@[simp] theorem State.wr_hbmTempAt (k : RegKey) (v : W32) : (s.wr k v).hbmTempAt = s.hbmTempAt := rfl
@[simp] theorem State.wr_audLate (k : RegKey) (v : W32) : (s.wr k v).audLate = s.audLate := rfl
@[simp] theorem State.wr_locks (k : RegKey) (v : W32) : (s.wr k v).locks = s.locks := rfl
@[simp] theorem State.wr_waiting (k : RegKey) (v : W32) : (s.wr k v).waiting = s.waiting := rfl
@[simp] theorem State.wr_grantNext (k : RegKey) (v : W32) : (s.wr k v).grantNext = s.grantNext := rfl
@[simp] theorem State.wr_winBuf (k : RegKey) (v : W32) : (s.wr k v).winBuf = s.winBuf := rfl
@[simp] theorem State.wr_msixOpen (k : RegKey) (v : W32) : (s.wr k v).msixOpen = s.msixOpen := rfl
@[simp] theorem State.wr_msixPend (k : RegKey) (v : W32) : (s.wr k v).msixPend = s.msixPend := rfl
@[simp] theorem State.wr_vecHigh (k : RegKey) (v : W32) : (s.wr k v).vecHigh = s.vecHigh := rfl
@[simp] theorem State.wr_flash0 (k : RegKey) (v : W32) : (s.wr k v).flash0 = s.flash0 := rfl
@[simp] theorem State.wr_flash1 (k : RegKey) (v : W32) : (s.wr k v).flash1 = s.flash1 := rfl
@[simp] theorem State.wr_owners (k : RegKey) (v : W32) : (s.wr k v).owners = s.owners := rfl
@[simp] theorem State.wr_svn (k : RegKey) (v : W32) : (s.wr k v).svn = s.svn := rfl
@[simp] theorem State.wr_otpOk (k : RegKey) (v : W32) : (s.wr k v).otpOk = s.otpOk := rfl
@[simp] theorem State.wr_loaded (k : RegKey) (v : W32) : (s.wr k v).loaded = s.loaded := rfl
@[simp] theorem State.wr_updMbx (k : RegKey) (v : W32) : (s.wr k v).updMbx = s.updMbx := rfl
@[simp] theorem State.wr_session (k : RegKey) (v : W32) : (s.wr k v).session = s.session := rfl
@[simp] theorem State.wr_parts (k : RegKey) (v : W32) : (s.wr k v).parts = s.parts := rfl
@[simp] theorem State.wr_updSide (k : RegKey) (v : W32) : (s.wr k v).updSide = s.updSide := rfl
@[simp] theorem State.wr_confirming (k : RegKey) (v : W32) : (s.wr k v).confirming = s.confirming := rfl
@[simp] theorem State.wr_fwHash (k : RegKey) (v : W32) : (s.wr k v).fwHash = s.fwHash := rfl
@[simp] theorem State.wr_change (k : RegKey) (v : W32) : (s.wr k v).change = s.change := rfl
@[simp] theorem State.wr_changeAt (k : RegKey) (v : W32) : (s.wr k v).changeAt = s.changeAt := rfl
@[simp] theorem State.wr_attest (k : RegKey) (v : W32) : (s.wr k v).attest = s.attest := rfl
@[simp] theorem State.wr_unlock (k : RegKey) (v : W32) : (s.wr k v).unlock = s.unlock := rfl
@[simp] theorem State.wr_tempSeen (k : RegKey) (v : W32) : (s.wr k v).tempSeen = s.tempSeen := rfl
@[simp] theorem State.wr_engs (k : RegKey) (v : W32) : (s.wr k v).engs = s.engs := rfl

/-! ## setF -/

@[simp] theorem State.setF_pending (k : RegKey) (f : Fld) (v : Nat) : (s.setF k f v).pending = s.pending := rfl
@[simp] theorem State.setF_sideA (k : RegKey) (f : Fld) (v : Nat) : (s.setF k f v).sideA = s.sideA := rfl
@[simp] theorem State.setF_sideB (k : RegKey) (f : Fld) (v : Nat) : (s.setF k f v).sideB = s.sideB := rfl
@[simp] theorem State.setF_rights (k : RegKey) (f : Fld) (v : Nat) : (s.setF k f v).rights = s.rights := rfl
@[simp] theorem State.setF_plain7 (k : RegKey) (f : Fld) (v : Nat) : (s.setF k f v).plain7 = s.plain7 := rfl
@[simp] theorem State.setF_fired (k : RegKey) (f : Fld) (v : Nat) : (s.setF k f v).fired = s.fired := rfl
@[simp] theorem State.setF_out (k : RegKey) (f : Fld) (v : Nat) : (s.setF k f v).out = s.out := rfl
@[simp] theorem State.setF_lastRead (k : RegKey) (f : Fld) (v : Nat) : (s.setF k f v).lastRead = s.lastRead := rfl
@[simp] theorem State.setF_freeCtr (k : RegKey) (f : Fld) (v : Nat) : (s.setF k f v).freeCtr = s.freeCtr := rfl
@[simp] theorem State.setF_aoReset (k : RegKey) (f : Fld) (v : Nat) : (s.setF k f v).aoReset = s.aoReset := rfl
@[simp] theorem State.setF_setNow (k : RegKey) (f : Fld) (v : Nat) : (s.setF k f v).setNow = s.setNow := rfl
@[simp] theorem State.setF_twins (k : RegKey) (f : Fld) (v : Nat) : (s.setF k f v).twins = s.twins := rfl
@[simp] theorem State.setF_twinQ (k : RegKey) (f : Fld) (v : Nat) : (s.setF k f v).twinQ = s.twinQ := rfl
@[simp] theorem State.setF_inPlan (k : RegKey) (f : Fld) (v : Nat) : (s.setF k f v).inPlan = s.inPlan := rfl
@[simp] theorem State.setF_inRx (k : RegKey) (f : Fld) (v : Nat) : (s.setF k f v).inRx = s.inRx := rfl
@[simp] theorem State.setF_merges (k : RegKey) (f : Fld) (v : Nat) : (s.setF k f v).merges = s.merges := rfl
@[simp] theorem State.setF_feeds (k : RegKey) (f : Fld) (v : Nat) : (s.setF k f v).feeds = s.feeds := rfl
@[simp] theorem State.setF_outPlan (k : RegKey) (f : Fld) (v : Nat) : (s.setF k f v).outPlan = s.outPlan := rfl
@[simp] theorem State.setF_routes (k : RegKey) (f : Fld) (v : Nat) : (s.setF k f v).routes = s.routes := rfl
@[simp] theorem State.setF_takes (k : RegKey) (f : Fld) (v : Nat) : (s.setF k f v).takes = s.takes := rfl
@[simp] theorem State.setF_commits (k : RegKey) (f : Fld) (v : Nat) : (s.setF k f v).commits = s.commits := rfl
@[simp] theorem State.setF_salvos (k : RegKey) (f : Fld) (v : Nat) : (s.setF k f v).salvos = s.salvos := rfl
@[simp] theorem State.setF_outs (k : RegKey) (f : Fld) (v : Nat) : (s.setF k f v).outs = s.outs := rfl
@[simp] theorem State.setF_shown (k : RegKey) (f : Fld) (v : Nat) : (s.setF k f v).shown = s.shown := rfl
@[simp] theorem State.setF_stores (k : RegKey) (f : Fld) (v : Nat) : (s.setF k f v).stores = s.stores := rfl
@[simp] theorem State.setF_captures (k : RegKey) (f : Fld) (v : Nat) : (s.setF k f v).captures = s.captures := rfl
@[simp] theorem State.setF_benches (k : RegKey) (f : Fld) (v : Nat) : (s.setF k f v).benches = s.benches := rfl
@[simp] theorem State.setF_benchPlan (k : RegKey) (f : Fld) (v : Nat) : (s.setF k f v).benchPlan = s.benchPlan := rfl
@[simp] theorem State.setF_benchIn (k : RegKey) (f : Fld) (v : Nat) : (s.setF k f v).benchIn = s.benchIn := rfl
@[simp] theorem State.setF_benchMem (k : RegKey) (f : Fld) (v : Nat) : (s.setF k f v).benchMem = s.benchMem := rfl
@[simp] theorem State.setF_leadOld (k : RegKey) (f : Fld) (v : Nat) : (s.setF k f v).leadOld = s.leadOld := rfl
@[simp] theorem State.setF_leaseEnd (k : RegKey) (f : Fld) (v : Nat) : (s.setF k f v).leaseEnd = s.leaseEnd := rfl
@[simp] theorem State.setF_grace (k : RegKey) (f : Fld) (v : Nat) : (s.setF k f v).grace = s.grace := rfl
@[simp] theorem State.setF_planned (k : RegKey) (f : Fld) (v : Nat) : (s.setF k f v).planned = s.planned := rfl
@[simp] theorem State.setF_outSince (k : RegKey) (f : Fld) (v : Nat) : (s.setF k f v).outSince = s.outSince := rfl
@[simp] theorem State.setF_voters (k : RegKey) (f : Fld) (v : Nat) : (s.setF k f v).voters = s.voters := rfl
@[simp] theorem State.setF_grantAt (k : RegKey) (f : Fld) (v : Nat) : (s.setF k f v).grantAt = s.grantAt := rfl
@[simp] theorem State.setF_sluices (k : RegKey) (f : Fld) (v : Nat) : (s.setF k f v).sluices = s.sluices := rfl
@[simp] theorem State.setF_ring (k : RegKey) (f : Fld) (v : Nat) : (s.setF k f v).ring = s.ring := rfl
@[simp] theorem State.setF_envLines (k : RegKey) (f : Fld) (v : Nat) : (s.setF k f v).envLines = s.envLines := rfl
@[simp] theorem State.setF_sevAt (k : RegKey) (f : Fld) (v : Nat) : (s.setF k f v).sevAt = s.sevAt := rfl
@[simp] theorem State.setF_therm (k : RegKey) (f : Fld) (v : Nat) : (s.setF k f v).therm = s.therm := rfl
@[simp] theorem State.setF_txqs (k : RegKey) (f : Fld) (v : Nat) : (s.setF k f v).txqs = s.txqs := rfl
@[simp] theorem State.setF_lanes (k : RegKey) (f : Fld) (v : Nat) : (s.setF k f v).lanes = s.lanes := rfl
@[simp] theorem State.setF_nvl (k : RegKey) (f : Fld) (v : Nat) : (s.setF k f v).nvl = s.nvl := rfl
@[simp] theorem State.setF_bankLost (k : RegKey) (f : Fld) (v : Nat) : (s.setF k f v).bankLost = s.bankLost := rfl
@[simp] theorem State.setF_nvlTx (k : RegKey) (f : Fld) (v : Nat) : (s.setF k f v).nvlTx = s.nvlTx := rfl
@[simp] theorem State.setF_bypassQ (k : RegKey) (f : Fld) (v : Nat) : (s.setF k f v).bypassQ = s.bypassQ := rfl
@[simp] theorem State.setF_sdi (k : RegKey) (f : Fld) (v : Nat) : (s.setF k f v).sdi = s.sdi := rfl
@[simp] theorem State.setF_portPlan (k : RegKey) (f : Fld) (v : Nat) : (s.setF k f v).portPlan = s.portPlan := rfl
@[simp] theorem State.setF_rxFlows (k : RegKey) (f : Fld) (v : Nat) : (s.setF k f v).rxFlows = s.rxFlows := rfl
@[simp] theorem State.setF_txRuns (k : RegKey) (f : Fld) (v : Nat) : (s.setF k f v).txRuns = s.txRuns := rfl
@[simp] theorem State.setF_txFlows (k : RegKey) (f : Fld) (v : Nat) : (s.setF k f v).txFlows = s.txFlows := rfl
@[simp] theorem State.setF_txBufs (k : RegKey) (f : Fld) (v : Nat) : (s.setF k f v).txBufs = s.txBufs := rfl
@[simp] theorem State.setF_ethQ (k : RegKey) (f : Fld) (v : Nat) : (s.setF k f v).ethQ = s.ethQ := rfl
@[simp] theorem State.setF_macs (k : RegKey) (f : Fld) (v : Nat) : (s.setF k f v).macs = s.macs := rfl
@[simp] theorem State.setF_rrp (k : RegKey) (f : Fld) (v : Nat) : (s.setF k f v).rrp = s.rrp := rfl
@[simp] theorem State.setF_hostParked (k : RegKey) (f : Fld) (v : Nat) : (s.setF k f v).hostParked = s.hostParked := rfl
@[simp] theorem State.setF_tick (k : RegKey) (f : Fld) (v : Nat) : (s.setF k f v).tick = s.tick := rfl
@[simp] theorem State.setF_tbs (k : RegKey) (f : Fld) (v : Nat) : (s.setF k f v).tbs = s.tbs := rfl
@[simp] theorem State.setF_cmps (k : RegKey) (f : Fld) (v : Nat) : (s.setF k f v).cmps = s.cmps := rfl
@[simp] theorem State.setF_ports (k : RegKey) (f : Fld) (v : Nat) : (s.setF k f v).ports = s.ports := rfl
@[simp] theorem State.setF_txLatch (k : RegKey) (f : Fld) (v : Nat) : (s.setF k f v).txLatch = s.txLatch := rfl
@[simp] theorem State.setF_cads (k : RegKey) (f : Fld) (v : Nat) : (s.setF k f v).cads = s.cads := rfl
@[simp] theorem State.setF_cands (k : RegKey) (f : Fld) (v : Nat) : (s.setF k f v).cands = s.cands := rfl
@[simp] theorem State.setF_ref (k : RegKey) (f : Fld) (v : Nat) : (s.setF k f v).ref = s.ref := rfl
@[simp] theorem State.setF_trigArmed (k : RegKey) (f : Fld) (v : Nat) : (s.setF k f v).trigArmed = s.trigArmed := rfl
@[simp] theorem State.setF_trigSignal (k : RegKey) (f : Fld) (v : Nat) : (s.setF k f v).trigSignal = s.trigSignal := rfl
@[simp] theorem State.setF_audioTb (k : RegKey) (f : Fld) (v : Nat) : (s.setF k f v).audioTb = s.audioTb := rfl
@[simp] theorem State.setF_audioHi (k : RegKey) (f : Fld) (v : Nat) : (s.setF k f v).audioHi = s.audioHi := rfl
@[simp] theorem State.setF_audNext (k : RegKey) (f : Fld) (v : Nat) : (s.setF k f v).audNext = s.audNext := rfl
@[simp] theorem State.setF_audSrc (k : RegKey) (f : Fld) (v : Nat) : (s.setF k f v).audSrc = s.audSrc := rfl
@[simp] theorem State.setF_audDst (k : RegKey) (f : Fld) (v : Nat) : (s.setF k f v).audDst = s.audDst := rfl
@[simp] theorem State.setF_tdm (k : RegKey) (f : Fld) (v : Nat) : (s.setF k f v).tdm = s.tdm := rfl
@[simp] theorem State.setF_tdmOwner (k : RegKey) (f : Fld) (v : Nat) : (s.setF k f v).tdmOwner = s.tdmOwner := rfl
@[simp] theorem State.setF_audTimes (k : RegKey) (f : Fld) (v : Nat) : (s.setF k f v).audTimes = s.audTimes := rfl
@[simp] theorem State.setF_audIn (k : RegKey) (f : Fld) (v : Nat) : (s.setF k f v).audIn = s.audIn := rfl
@[simp] theorem State.setF_headPlan (k : RegKey) (f : Fld) (v : Nat) : (s.setF k f v).headPlan = s.headPlan := rfl
@[simp] theorem State.setF_tileHead (k : RegKey) (f : Fld) (v : Nat) : (s.setF k f v).tileHead = s.tileHead := rfl
@[simp] theorem State.setF_preHead (k : RegKey) (f : Fld) (v : Nat) : (s.setF k f v).preHead = s.preHead := rfl
@[simp] theorem State.setF_headRun (k : RegKey) (f : Fld) (v : Nat) : (s.setF k f v).headRun = s.headRun := rfl
@[simp] theorem State.setF_tiles (k : RegKey) (f : Fld) (v : Nat) : (s.setF k f v).tiles = s.tiles := rfl
@[simp] theorem State.setF_alyA (k : RegKey) (f : Fld) (v : Nat) : (s.setF k f v).alyA = s.alyA := rfl
@[simp] theorem State.setF_alyB (k : RegKey) (f : Fld) (v : Nat) : (s.setF k f v).alyB = s.alyB := rfl
@[simp] theorem State.setF_alyWait (k : RegKey) (f : Fld) (v : Nat) : (s.setF k f v).alyWait = s.alyWait := rfl
@[simp] theorem State.setF_alyLive (k : RegKey) (f : Fld) (v : Nat) : (s.setF k f v).alyLive = s.alyLive := rfl
@[simp] theorem State.setF_alyStore (k : RegKey) (f : Fld) (v : Nat) : (s.setF k f v).alyStore = s.alyStore := rfl
@[simp] theorem State.setF_hbmA (k : RegKey) (f : Fld) (v : Nat) : (s.setF k f v).hbmA = s.hbmA := rfl
@[simp] theorem State.setF_hbmB (k : RegKey) (f : Fld) (v : Nat) : (s.setF k f v).hbmB = s.hbmB := rfl
@[simp] theorem State.setF_hbmRun (k : RegKey) (f : Fld) (v : Nat) : (s.setF k f v).hbmRun = s.hbmRun := rfl
@[simp] theorem State.setF_hbmMax (k : RegKey) (f : Fld) (v : Nat) : (s.setF k f v).hbmMax = s.hbmMax := rfl
@[simp] theorem State.setF_hoppers (k : RegKey) (f : Fld) (v : Nat) : (s.setF k f v).hoppers = s.hoppers := rfl
@[simp] theorem State.setF_capPlan (k : RegKey) (f : Fld) (v : Nat) : (s.setF k f v).capPlan = s.capPlan := rfl
@[simp] theorem State.setF_sramA (k : RegKey) (f : Fld) (v : Nat) : (s.setF k f v).sramA = s.sramA := rfl
@[simp] theorem State.setF_sramB (k : RegKey) (f : Fld) (v : Nat) : (s.setF k f v).sramB = s.sramB := rfl
@[simp] theorem State.setF_hbmTempAt (k : RegKey) (f : Fld) (v : Nat) : (s.setF k f v).hbmTempAt = s.hbmTempAt := rfl
@[simp] theorem State.setF_audLate (k : RegKey) (f : Fld) (v : Nat) : (s.setF k f v).audLate = s.audLate := rfl
@[simp] theorem State.setF_locks (k : RegKey) (f : Fld) (v : Nat) : (s.setF k f v).locks = s.locks := rfl
@[simp] theorem State.setF_waiting (k : RegKey) (f : Fld) (v : Nat) : (s.setF k f v).waiting = s.waiting := rfl
@[simp] theorem State.setF_grantNext (k : RegKey) (f : Fld) (v : Nat) : (s.setF k f v).grantNext = s.grantNext := rfl
@[simp] theorem State.setF_winBuf (k : RegKey) (f : Fld) (v : Nat) : (s.setF k f v).winBuf = s.winBuf := rfl
@[simp] theorem State.setF_msixOpen (k : RegKey) (f : Fld) (v : Nat) : (s.setF k f v).msixOpen = s.msixOpen := rfl
@[simp] theorem State.setF_msixPend (k : RegKey) (f : Fld) (v : Nat) : (s.setF k f v).msixPend = s.msixPend := rfl
@[simp] theorem State.setF_vecHigh (k : RegKey) (f : Fld) (v : Nat) : (s.setF k f v).vecHigh = s.vecHigh := rfl
@[simp] theorem State.setF_flash0 (k : RegKey) (f : Fld) (v : Nat) : (s.setF k f v).flash0 = s.flash0 := rfl
@[simp] theorem State.setF_flash1 (k : RegKey) (f : Fld) (v : Nat) : (s.setF k f v).flash1 = s.flash1 := rfl
@[simp] theorem State.setF_owners (k : RegKey) (f : Fld) (v : Nat) : (s.setF k f v).owners = s.owners := rfl
@[simp] theorem State.setF_svn (k : RegKey) (f : Fld) (v : Nat) : (s.setF k f v).svn = s.svn := rfl
@[simp] theorem State.setF_otpOk (k : RegKey) (f : Fld) (v : Nat) : (s.setF k f v).otpOk = s.otpOk := rfl
@[simp] theorem State.setF_loaded (k : RegKey) (f : Fld) (v : Nat) : (s.setF k f v).loaded = s.loaded := rfl
@[simp] theorem State.setF_updMbx (k : RegKey) (f : Fld) (v : Nat) : (s.setF k f v).updMbx = s.updMbx := rfl
@[simp] theorem State.setF_session (k : RegKey) (f : Fld) (v : Nat) : (s.setF k f v).session = s.session := rfl
@[simp] theorem State.setF_parts (k : RegKey) (f : Fld) (v : Nat) : (s.setF k f v).parts = s.parts := rfl
@[simp] theorem State.setF_updSide (k : RegKey) (f : Fld) (v : Nat) : (s.setF k f v).updSide = s.updSide := rfl
@[simp] theorem State.setF_confirming (k : RegKey) (f : Fld) (v : Nat) : (s.setF k f v).confirming = s.confirming := rfl
@[simp] theorem State.setF_fwHash (k : RegKey) (f : Fld) (v : Nat) : (s.setF k f v).fwHash = s.fwHash := rfl
@[simp] theorem State.setF_change (k : RegKey) (f : Fld) (v : Nat) : (s.setF k f v).change = s.change := rfl
@[simp] theorem State.setF_changeAt (k : RegKey) (f : Fld) (v : Nat) : (s.setF k f v).changeAt = s.changeAt := rfl
@[simp] theorem State.setF_attest (k : RegKey) (f : Fld) (v : Nat) : (s.setF k f v).attest = s.attest := rfl
@[simp] theorem State.setF_unlock (k : RegKey) (f : Fld) (v : Nat) : (s.setF k f v).unlock = s.unlock := rfl
@[simp] theorem State.setF_tempSeen (k : RegKey) (f : Fld) (v : Nat) : (s.setF k f v).tempSeen = s.tempSeen := rfl
@[simp] theorem State.setF_engs (k : RegKey) (f : Fld) (v : Nat) : (s.setF k f v).engs = s.engs := rfl

/-! ## clearW -/

@[simp] theorem State.clearW_pending (k : RegKey) (b : W32) : (s.clearW k b).pending = s.pending := rfl
@[simp] theorem State.clearW_sideA (k : RegKey) (b : W32) : (s.clearW k b).sideA = s.sideA := rfl
@[simp] theorem State.clearW_sideB (k : RegKey) (b : W32) : (s.clearW k b).sideB = s.sideB := rfl
@[simp] theorem State.clearW_rights (k : RegKey) (b : W32) : (s.clearW k b).rights = s.rights := rfl
@[simp] theorem State.clearW_plain7 (k : RegKey) (b : W32) : (s.clearW k b).plain7 = s.plain7 := rfl
@[simp] theorem State.clearW_fired (k : RegKey) (b : W32) : (s.clearW k b).fired = s.fired := rfl
@[simp] theorem State.clearW_out (k : RegKey) (b : W32) : (s.clearW k b).out = s.out := rfl
@[simp] theorem State.clearW_lastRead (k : RegKey) (b : W32) : (s.clearW k b).lastRead = s.lastRead := rfl
@[simp] theorem State.clearW_freeCtr (k : RegKey) (b : W32) : (s.clearW k b).freeCtr = s.freeCtr := rfl
@[simp] theorem State.clearW_aoReset (k : RegKey) (b : W32) : (s.clearW k b).aoReset = s.aoReset := rfl
@[simp] theorem State.clearW_setNow (k : RegKey) (b : W32) : (s.clearW k b).setNow = s.setNow := rfl
@[simp] theorem State.clearW_twins (k : RegKey) (b : W32) : (s.clearW k b).twins = s.twins := rfl
@[simp] theorem State.clearW_twinQ (k : RegKey) (b : W32) : (s.clearW k b).twinQ = s.twinQ := rfl
@[simp] theorem State.clearW_inPlan (k : RegKey) (b : W32) : (s.clearW k b).inPlan = s.inPlan := rfl
@[simp] theorem State.clearW_inRx (k : RegKey) (b : W32) : (s.clearW k b).inRx = s.inRx := rfl
@[simp] theorem State.clearW_merges (k : RegKey) (b : W32) : (s.clearW k b).merges = s.merges := rfl
@[simp] theorem State.clearW_feeds (k : RegKey) (b : W32) : (s.clearW k b).feeds = s.feeds := rfl
@[simp] theorem State.clearW_outPlan (k : RegKey) (b : W32) : (s.clearW k b).outPlan = s.outPlan := rfl
@[simp] theorem State.clearW_routes (k : RegKey) (b : W32) : (s.clearW k b).routes = s.routes := rfl
@[simp] theorem State.clearW_takes (k : RegKey) (b : W32) : (s.clearW k b).takes = s.takes := rfl
@[simp] theorem State.clearW_commits (k : RegKey) (b : W32) : (s.clearW k b).commits = s.commits := rfl
@[simp] theorem State.clearW_salvos (k : RegKey) (b : W32) : (s.clearW k b).salvos = s.salvos := rfl
@[simp] theorem State.clearW_outs (k : RegKey) (b : W32) : (s.clearW k b).outs = s.outs := rfl
@[simp] theorem State.clearW_shown (k : RegKey) (b : W32) : (s.clearW k b).shown = s.shown := rfl
@[simp] theorem State.clearW_stores (k : RegKey) (b : W32) : (s.clearW k b).stores = s.stores := rfl
@[simp] theorem State.clearW_captures (k : RegKey) (b : W32) : (s.clearW k b).captures = s.captures := rfl
@[simp] theorem State.clearW_benches (k : RegKey) (b : W32) : (s.clearW k b).benches = s.benches := rfl
@[simp] theorem State.clearW_benchPlan (k : RegKey) (b : W32) : (s.clearW k b).benchPlan = s.benchPlan := rfl
@[simp] theorem State.clearW_benchIn (k : RegKey) (b : W32) : (s.clearW k b).benchIn = s.benchIn := rfl
@[simp] theorem State.clearW_benchMem (k : RegKey) (b : W32) : (s.clearW k b).benchMem = s.benchMem := rfl
@[simp] theorem State.clearW_leadOld (k : RegKey) (b : W32) : (s.clearW k b).leadOld = s.leadOld := rfl
@[simp] theorem State.clearW_leaseEnd (k : RegKey) (b : W32) : (s.clearW k b).leaseEnd = s.leaseEnd := rfl
@[simp] theorem State.clearW_grace (k : RegKey) (b : W32) : (s.clearW k b).grace = s.grace := rfl
@[simp] theorem State.clearW_planned (k : RegKey) (b : W32) : (s.clearW k b).planned = s.planned := rfl
@[simp] theorem State.clearW_outSince (k : RegKey) (b : W32) : (s.clearW k b).outSince = s.outSince := rfl
@[simp] theorem State.clearW_voters (k : RegKey) (b : W32) : (s.clearW k b).voters = s.voters := rfl
@[simp] theorem State.clearW_grantAt (k : RegKey) (b : W32) : (s.clearW k b).grantAt = s.grantAt := rfl
@[simp] theorem State.clearW_sluices (k : RegKey) (b : W32) : (s.clearW k b).sluices = s.sluices := rfl
@[simp] theorem State.clearW_ring (k : RegKey) (b : W32) : (s.clearW k b).ring = s.ring := rfl
@[simp] theorem State.clearW_envLines (k : RegKey) (b : W32) : (s.clearW k b).envLines = s.envLines := rfl
@[simp] theorem State.clearW_sevAt (k : RegKey) (b : W32) : (s.clearW k b).sevAt = s.sevAt := rfl
@[simp] theorem State.clearW_therm (k : RegKey) (b : W32) : (s.clearW k b).therm = s.therm := rfl
@[simp] theorem State.clearW_txqs (k : RegKey) (b : W32) : (s.clearW k b).txqs = s.txqs := rfl
@[simp] theorem State.clearW_lanes (k : RegKey) (b : W32) : (s.clearW k b).lanes = s.lanes := rfl
@[simp] theorem State.clearW_nvl (k : RegKey) (b : W32) : (s.clearW k b).nvl = s.nvl := rfl
@[simp] theorem State.clearW_bankLost (k : RegKey) (b : W32) : (s.clearW k b).bankLost = s.bankLost := rfl
@[simp] theorem State.clearW_nvlTx (k : RegKey) (b : W32) : (s.clearW k b).nvlTx = s.nvlTx := rfl
@[simp] theorem State.clearW_bypassQ (k : RegKey) (b : W32) : (s.clearW k b).bypassQ = s.bypassQ := rfl
@[simp] theorem State.clearW_sdi (k : RegKey) (b : W32) : (s.clearW k b).sdi = s.sdi := rfl
@[simp] theorem State.clearW_portPlan (k : RegKey) (b : W32) : (s.clearW k b).portPlan = s.portPlan := rfl
@[simp] theorem State.clearW_rxFlows (k : RegKey) (b : W32) : (s.clearW k b).rxFlows = s.rxFlows := rfl
@[simp] theorem State.clearW_txRuns (k : RegKey) (b : W32) : (s.clearW k b).txRuns = s.txRuns := rfl
@[simp] theorem State.clearW_txFlows (k : RegKey) (b : W32) : (s.clearW k b).txFlows = s.txFlows := rfl
@[simp] theorem State.clearW_txBufs (k : RegKey) (b : W32) : (s.clearW k b).txBufs = s.txBufs := rfl
@[simp] theorem State.clearW_ethQ (k : RegKey) (b : W32) : (s.clearW k b).ethQ = s.ethQ := rfl
@[simp] theorem State.clearW_macs (k : RegKey) (b : W32) : (s.clearW k b).macs = s.macs := rfl
@[simp] theorem State.clearW_rrp (k : RegKey) (b : W32) : (s.clearW k b).rrp = s.rrp := rfl
@[simp] theorem State.clearW_hostParked (k : RegKey) (b : W32) : (s.clearW k b).hostParked = s.hostParked := rfl
@[simp] theorem State.clearW_tick (k : RegKey) (b : W32) : (s.clearW k b).tick = s.tick := rfl
@[simp] theorem State.clearW_tbs (k : RegKey) (b : W32) : (s.clearW k b).tbs = s.tbs := rfl
@[simp] theorem State.clearW_cmps (k : RegKey) (b : W32) : (s.clearW k b).cmps = s.cmps := rfl
@[simp] theorem State.clearW_ports (k : RegKey) (b : W32) : (s.clearW k b).ports = s.ports := rfl
@[simp] theorem State.clearW_txLatch (k : RegKey) (b : W32) : (s.clearW k b).txLatch = s.txLatch := rfl
@[simp] theorem State.clearW_cads (k : RegKey) (b : W32) : (s.clearW k b).cads = s.cads := rfl
@[simp] theorem State.clearW_cands (k : RegKey) (b : W32) : (s.clearW k b).cands = s.cands := rfl
@[simp] theorem State.clearW_ref (k : RegKey) (b : W32) : (s.clearW k b).ref = s.ref := rfl
@[simp] theorem State.clearW_trigArmed (k : RegKey) (b : W32) : (s.clearW k b).trigArmed = s.trigArmed := rfl
@[simp] theorem State.clearW_trigSignal (k : RegKey) (b : W32) : (s.clearW k b).trigSignal = s.trigSignal := rfl
@[simp] theorem State.clearW_audioTb (k : RegKey) (b : W32) : (s.clearW k b).audioTb = s.audioTb := rfl
@[simp] theorem State.clearW_audioHi (k : RegKey) (b : W32) : (s.clearW k b).audioHi = s.audioHi := rfl
@[simp] theorem State.clearW_audNext (k : RegKey) (b : W32) : (s.clearW k b).audNext = s.audNext := rfl
@[simp] theorem State.clearW_audSrc (k : RegKey) (b : W32) : (s.clearW k b).audSrc = s.audSrc := rfl
@[simp] theorem State.clearW_audDst (k : RegKey) (b : W32) : (s.clearW k b).audDst = s.audDst := rfl
@[simp] theorem State.clearW_tdm (k : RegKey) (b : W32) : (s.clearW k b).tdm = s.tdm := rfl
@[simp] theorem State.clearW_tdmOwner (k : RegKey) (b : W32) : (s.clearW k b).tdmOwner = s.tdmOwner := rfl
@[simp] theorem State.clearW_audTimes (k : RegKey) (b : W32) : (s.clearW k b).audTimes = s.audTimes := rfl
@[simp] theorem State.clearW_audIn (k : RegKey) (b : W32) : (s.clearW k b).audIn = s.audIn := rfl
@[simp] theorem State.clearW_headPlan (k : RegKey) (b : W32) : (s.clearW k b).headPlan = s.headPlan := rfl
@[simp] theorem State.clearW_tileHead (k : RegKey) (b : W32) : (s.clearW k b).tileHead = s.tileHead := rfl
@[simp] theorem State.clearW_preHead (k : RegKey) (b : W32) : (s.clearW k b).preHead = s.preHead := rfl
@[simp] theorem State.clearW_headRun (k : RegKey) (b : W32) : (s.clearW k b).headRun = s.headRun := rfl
@[simp] theorem State.clearW_tiles (k : RegKey) (b : W32) : (s.clearW k b).tiles = s.tiles := rfl
@[simp] theorem State.clearW_alyA (k : RegKey) (b : W32) : (s.clearW k b).alyA = s.alyA := rfl
@[simp] theorem State.clearW_alyB (k : RegKey) (b : W32) : (s.clearW k b).alyB = s.alyB := rfl
@[simp] theorem State.clearW_alyWait (k : RegKey) (b : W32) : (s.clearW k b).alyWait = s.alyWait := rfl
@[simp] theorem State.clearW_alyLive (k : RegKey) (b : W32) : (s.clearW k b).alyLive = s.alyLive := rfl
@[simp] theorem State.clearW_alyStore (k : RegKey) (b : W32) : (s.clearW k b).alyStore = s.alyStore := rfl
@[simp] theorem State.clearW_hbmA (k : RegKey) (b : W32) : (s.clearW k b).hbmA = s.hbmA := rfl
@[simp] theorem State.clearW_hbmB (k : RegKey) (b : W32) : (s.clearW k b).hbmB = s.hbmB := rfl
@[simp] theorem State.clearW_hbmRun (k : RegKey) (b : W32) : (s.clearW k b).hbmRun = s.hbmRun := rfl
@[simp] theorem State.clearW_hbmMax (k : RegKey) (b : W32) : (s.clearW k b).hbmMax = s.hbmMax := rfl
@[simp] theorem State.clearW_hoppers (k : RegKey) (b : W32) : (s.clearW k b).hoppers = s.hoppers := rfl
@[simp] theorem State.clearW_capPlan (k : RegKey) (b : W32) : (s.clearW k b).capPlan = s.capPlan := rfl
@[simp] theorem State.clearW_sramA (k : RegKey) (b : W32) : (s.clearW k b).sramA = s.sramA := rfl
@[simp] theorem State.clearW_sramB (k : RegKey) (b : W32) : (s.clearW k b).sramB = s.sramB := rfl
@[simp] theorem State.clearW_hbmTempAt (k : RegKey) (b : W32) : (s.clearW k b).hbmTempAt = s.hbmTempAt := rfl
@[simp] theorem State.clearW_audLate (k : RegKey) (b : W32) : (s.clearW k b).audLate = s.audLate := rfl
@[simp] theorem State.clearW_locks (k : RegKey) (b : W32) : (s.clearW k b).locks = s.locks := rfl
@[simp] theorem State.clearW_waiting (k : RegKey) (b : W32) : (s.clearW k b).waiting = s.waiting := rfl
@[simp] theorem State.clearW_grantNext (k : RegKey) (b : W32) : (s.clearW k b).grantNext = s.grantNext := rfl
@[simp] theorem State.clearW_winBuf (k : RegKey) (b : W32) : (s.clearW k b).winBuf = s.winBuf := rfl
@[simp] theorem State.clearW_msixOpen (k : RegKey) (b : W32) : (s.clearW k b).msixOpen = s.msixOpen := rfl
@[simp] theorem State.clearW_msixPend (k : RegKey) (b : W32) : (s.clearW k b).msixPend = s.msixPend := rfl
@[simp] theorem State.clearW_vecHigh (k : RegKey) (b : W32) : (s.clearW k b).vecHigh = s.vecHigh := rfl
@[simp] theorem State.clearW_flash0 (k : RegKey) (b : W32) : (s.clearW k b).flash0 = s.flash0 := rfl
@[simp] theorem State.clearW_flash1 (k : RegKey) (b : W32) : (s.clearW k b).flash1 = s.flash1 := rfl
@[simp] theorem State.clearW_owners (k : RegKey) (b : W32) : (s.clearW k b).owners = s.owners := rfl
@[simp] theorem State.clearW_svn (k : RegKey) (b : W32) : (s.clearW k b).svn = s.svn := rfl
@[simp] theorem State.clearW_otpOk (k : RegKey) (b : W32) : (s.clearW k b).otpOk = s.otpOk := rfl
@[simp] theorem State.clearW_loaded (k : RegKey) (b : W32) : (s.clearW k b).loaded = s.loaded := rfl
@[simp] theorem State.clearW_updMbx (k : RegKey) (b : W32) : (s.clearW k b).updMbx = s.updMbx := rfl
@[simp] theorem State.clearW_session (k : RegKey) (b : W32) : (s.clearW k b).session = s.session := rfl
@[simp] theorem State.clearW_parts (k : RegKey) (b : W32) : (s.clearW k b).parts = s.parts := rfl
@[simp] theorem State.clearW_updSide (k : RegKey) (b : W32) : (s.clearW k b).updSide = s.updSide := rfl
@[simp] theorem State.clearW_confirming (k : RegKey) (b : W32) : (s.clearW k b).confirming = s.confirming := rfl
@[simp] theorem State.clearW_fwHash (k : RegKey) (b : W32) : (s.clearW k b).fwHash = s.fwHash := rfl
@[simp] theorem State.clearW_change (k : RegKey) (b : W32) : (s.clearW k b).change = s.change := rfl
@[simp] theorem State.clearW_changeAt (k : RegKey) (b : W32) : (s.clearW k b).changeAt = s.changeAt := rfl
@[simp] theorem State.clearW_attest (k : RegKey) (b : W32) : (s.clearW k b).attest = s.attest := rfl
@[simp] theorem State.clearW_unlock (k : RegKey) (b : W32) : (s.clearW k b).unlock = s.unlock := rfl
@[simp] theorem State.clearW_tempSeen (k : RegKey) (b : W32) : (s.clearW k b).tempSeen = s.tempSeen := rfl
@[simp] theorem State.clearW_engs (k : RegKey) (b : W32) : (s.clearW k b).engs = s.engs := rfl

/-! ## fire -/

@[simp] theorem State.fire_pending (e : Nat) : (s.fire e).pending = s.pending := rfl
@[simp] theorem State.fire_regs (e : Nat) : (s.fire e).regs = s.regs := rfl
@[simp] theorem State.fire_sideA (e : Nat) : (s.fire e).sideA = s.sideA := rfl
@[simp] theorem State.fire_sideB (e : Nat) : (s.fire e).sideB = s.sideB := rfl
@[simp] theorem State.fire_rights (e : Nat) : (s.fire e).rights = s.rights := rfl
@[simp] theorem State.fire_plain7 (e : Nat) : (s.fire e).plain7 = s.plain7 := rfl
@[simp] theorem State.fire_out (e : Nat) : (s.fire e).out = s.out := rfl
@[simp] theorem State.fire_lastRead (e : Nat) : (s.fire e).lastRead = s.lastRead := rfl
@[simp] theorem State.fire_freeCtr (e : Nat) : (s.fire e).freeCtr = s.freeCtr := rfl
@[simp] theorem State.fire_aoReset (e : Nat) : (s.fire e).aoReset = s.aoReset := rfl
@[simp] theorem State.fire_setNow (e : Nat) : (s.fire e).setNow = s.setNow := rfl
@[simp] theorem State.fire_twins (e : Nat) : (s.fire e).twins = s.twins := rfl
@[simp] theorem State.fire_twinQ (e : Nat) : (s.fire e).twinQ = s.twinQ := rfl
@[simp] theorem State.fire_inPlan (e : Nat) : (s.fire e).inPlan = s.inPlan := rfl
@[simp] theorem State.fire_inRx (e : Nat) : (s.fire e).inRx = s.inRx := rfl
@[simp] theorem State.fire_merges (e : Nat) : (s.fire e).merges = s.merges := rfl
@[simp] theorem State.fire_feeds (e : Nat) : (s.fire e).feeds = s.feeds := rfl
@[simp] theorem State.fire_outPlan (e : Nat) : (s.fire e).outPlan = s.outPlan := rfl
@[simp] theorem State.fire_routes (e : Nat) : (s.fire e).routes = s.routes := rfl
@[simp] theorem State.fire_takes (e : Nat) : (s.fire e).takes = s.takes := rfl
@[simp] theorem State.fire_commits (e : Nat) : (s.fire e).commits = s.commits := rfl
@[simp] theorem State.fire_salvos (e : Nat) : (s.fire e).salvos = s.salvos := rfl
@[simp] theorem State.fire_outs (e : Nat) : (s.fire e).outs = s.outs := rfl
@[simp] theorem State.fire_shown (e : Nat) : (s.fire e).shown = s.shown := rfl
@[simp] theorem State.fire_stores (e : Nat) : (s.fire e).stores = s.stores := rfl
@[simp] theorem State.fire_captures (e : Nat) : (s.fire e).captures = s.captures := rfl
@[simp] theorem State.fire_benches (e : Nat) : (s.fire e).benches = s.benches := rfl
@[simp] theorem State.fire_benchPlan (e : Nat) : (s.fire e).benchPlan = s.benchPlan := rfl
@[simp] theorem State.fire_benchIn (e : Nat) : (s.fire e).benchIn = s.benchIn := rfl
@[simp] theorem State.fire_benchMem (e : Nat) : (s.fire e).benchMem = s.benchMem := rfl
@[simp] theorem State.fire_leadOld (e : Nat) : (s.fire e).leadOld = s.leadOld := rfl
@[simp] theorem State.fire_leaseEnd (e : Nat) : (s.fire e).leaseEnd = s.leaseEnd := rfl
@[simp] theorem State.fire_grace (e : Nat) : (s.fire e).grace = s.grace := rfl
@[simp] theorem State.fire_planned (e : Nat) : (s.fire e).planned = s.planned := rfl
@[simp] theorem State.fire_outSince (e : Nat) : (s.fire e).outSince = s.outSince := rfl
@[simp] theorem State.fire_voters (e : Nat) : (s.fire e).voters = s.voters := rfl
@[simp] theorem State.fire_grantAt (e : Nat) : (s.fire e).grantAt = s.grantAt := rfl
@[simp] theorem State.fire_sluices (e : Nat) : (s.fire e).sluices = s.sluices := rfl
@[simp] theorem State.fire_ring (e : Nat) : (s.fire e).ring = s.ring := rfl
@[simp] theorem State.fire_envLines (e : Nat) : (s.fire e).envLines = s.envLines := rfl
@[simp] theorem State.fire_sevAt (e : Nat) : (s.fire e).sevAt = s.sevAt := rfl
@[simp] theorem State.fire_therm (e : Nat) : (s.fire e).therm = s.therm := rfl
@[simp] theorem State.fire_txqs (e : Nat) : (s.fire e).txqs = s.txqs := rfl
@[simp] theorem State.fire_lanes (e : Nat) : (s.fire e).lanes = s.lanes := rfl
@[simp] theorem State.fire_nvl (e : Nat) : (s.fire e).nvl = s.nvl := rfl
@[simp] theorem State.fire_bankLost (e : Nat) : (s.fire e).bankLost = s.bankLost := rfl
@[simp] theorem State.fire_nvlTx (e : Nat) : (s.fire e).nvlTx = s.nvlTx := rfl
@[simp] theorem State.fire_bypassQ (e : Nat) : (s.fire e).bypassQ = s.bypassQ := rfl
@[simp] theorem State.fire_sdi (e : Nat) : (s.fire e).sdi = s.sdi := rfl
@[simp] theorem State.fire_portPlan (e : Nat) : (s.fire e).portPlan = s.portPlan := rfl
@[simp] theorem State.fire_rxFlows (e : Nat) : (s.fire e).rxFlows = s.rxFlows := rfl
@[simp] theorem State.fire_txRuns (e : Nat) : (s.fire e).txRuns = s.txRuns := rfl
@[simp] theorem State.fire_txFlows (e : Nat) : (s.fire e).txFlows = s.txFlows := rfl
@[simp] theorem State.fire_txBufs (e : Nat) : (s.fire e).txBufs = s.txBufs := rfl
@[simp] theorem State.fire_ethQ (e : Nat) : (s.fire e).ethQ = s.ethQ := rfl
@[simp] theorem State.fire_macs (e : Nat) : (s.fire e).macs = s.macs := rfl
@[simp] theorem State.fire_rrp (e : Nat) : (s.fire e).rrp = s.rrp := rfl
@[simp] theorem State.fire_hostParked (e : Nat) : (s.fire e).hostParked = s.hostParked := rfl
@[simp] theorem State.fire_tick (e : Nat) : (s.fire e).tick = s.tick := rfl
@[simp] theorem State.fire_tbs (e : Nat) : (s.fire e).tbs = s.tbs := rfl
@[simp] theorem State.fire_cmps (e : Nat) : (s.fire e).cmps = s.cmps := rfl
@[simp] theorem State.fire_ports (e : Nat) : (s.fire e).ports = s.ports := rfl
@[simp] theorem State.fire_txLatch (e : Nat) : (s.fire e).txLatch = s.txLatch := rfl
@[simp] theorem State.fire_cads (e : Nat) : (s.fire e).cads = s.cads := rfl
@[simp] theorem State.fire_cands (e : Nat) : (s.fire e).cands = s.cands := rfl
@[simp] theorem State.fire_ref (e : Nat) : (s.fire e).ref = s.ref := rfl
@[simp] theorem State.fire_trigArmed (e : Nat) : (s.fire e).trigArmed = s.trigArmed := rfl
@[simp] theorem State.fire_trigSignal (e : Nat) : (s.fire e).trigSignal = s.trigSignal := rfl
@[simp] theorem State.fire_audioTb (e : Nat) : (s.fire e).audioTb = s.audioTb := rfl
@[simp] theorem State.fire_audioHi (e : Nat) : (s.fire e).audioHi = s.audioHi := rfl
@[simp] theorem State.fire_audNext (e : Nat) : (s.fire e).audNext = s.audNext := rfl
@[simp] theorem State.fire_audSrc (e : Nat) : (s.fire e).audSrc = s.audSrc := rfl
@[simp] theorem State.fire_audDst (e : Nat) : (s.fire e).audDst = s.audDst := rfl
@[simp] theorem State.fire_tdm (e : Nat) : (s.fire e).tdm = s.tdm := rfl
@[simp] theorem State.fire_tdmOwner (e : Nat) : (s.fire e).tdmOwner = s.tdmOwner := rfl
@[simp] theorem State.fire_audTimes (e : Nat) : (s.fire e).audTimes = s.audTimes := rfl
@[simp] theorem State.fire_audIn (e : Nat) : (s.fire e).audIn = s.audIn := rfl
@[simp] theorem State.fire_headPlan (e : Nat) : (s.fire e).headPlan = s.headPlan := rfl
@[simp] theorem State.fire_tileHead (e : Nat) : (s.fire e).tileHead = s.tileHead := rfl
@[simp] theorem State.fire_preHead (e : Nat) : (s.fire e).preHead = s.preHead := rfl
@[simp] theorem State.fire_headRun (e : Nat) : (s.fire e).headRun = s.headRun := rfl
@[simp] theorem State.fire_tiles (e : Nat) : (s.fire e).tiles = s.tiles := rfl
@[simp] theorem State.fire_alyA (e : Nat) : (s.fire e).alyA = s.alyA := rfl
@[simp] theorem State.fire_alyB (e : Nat) : (s.fire e).alyB = s.alyB := rfl
@[simp] theorem State.fire_alyWait (e : Nat) : (s.fire e).alyWait = s.alyWait := rfl
@[simp] theorem State.fire_alyLive (e : Nat) : (s.fire e).alyLive = s.alyLive := rfl
@[simp] theorem State.fire_alyStore (e : Nat) : (s.fire e).alyStore = s.alyStore := rfl
@[simp] theorem State.fire_hbmA (e : Nat) : (s.fire e).hbmA = s.hbmA := rfl
@[simp] theorem State.fire_hbmB (e : Nat) : (s.fire e).hbmB = s.hbmB := rfl
@[simp] theorem State.fire_hbmRun (e : Nat) : (s.fire e).hbmRun = s.hbmRun := rfl
@[simp] theorem State.fire_hbmMax (e : Nat) : (s.fire e).hbmMax = s.hbmMax := rfl
@[simp] theorem State.fire_hoppers (e : Nat) : (s.fire e).hoppers = s.hoppers := rfl
@[simp] theorem State.fire_capPlan (e : Nat) : (s.fire e).capPlan = s.capPlan := rfl
@[simp] theorem State.fire_sramA (e : Nat) : (s.fire e).sramA = s.sramA := rfl
@[simp] theorem State.fire_sramB (e : Nat) : (s.fire e).sramB = s.sramB := rfl
@[simp] theorem State.fire_hbmTempAt (e : Nat) : (s.fire e).hbmTempAt = s.hbmTempAt := rfl
@[simp] theorem State.fire_audLate (e : Nat) : (s.fire e).audLate = s.audLate := rfl
@[simp] theorem State.fire_locks (e : Nat) : (s.fire e).locks = s.locks := rfl
@[simp] theorem State.fire_waiting (e : Nat) : (s.fire e).waiting = s.waiting := rfl
@[simp] theorem State.fire_grantNext (e : Nat) : (s.fire e).grantNext = s.grantNext := rfl
@[simp] theorem State.fire_winBuf (e : Nat) : (s.fire e).winBuf = s.winBuf := rfl
@[simp] theorem State.fire_msixOpen (e : Nat) : (s.fire e).msixOpen = s.msixOpen := rfl
@[simp] theorem State.fire_msixPend (e : Nat) : (s.fire e).msixPend = s.msixPend := rfl
@[simp] theorem State.fire_vecHigh (e : Nat) : (s.fire e).vecHigh = s.vecHigh := rfl
@[simp] theorem State.fire_flash0 (e : Nat) : (s.fire e).flash0 = s.flash0 := rfl
@[simp] theorem State.fire_flash1 (e : Nat) : (s.fire e).flash1 = s.flash1 := rfl
@[simp] theorem State.fire_owners (e : Nat) : (s.fire e).owners = s.owners := rfl
@[simp] theorem State.fire_svn (e : Nat) : (s.fire e).svn = s.svn := rfl
@[simp] theorem State.fire_otpOk (e : Nat) : (s.fire e).otpOk = s.otpOk := rfl
@[simp] theorem State.fire_loaded (e : Nat) : (s.fire e).loaded = s.loaded := rfl
@[simp] theorem State.fire_updMbx (e : Nat) : (s.fire e).updMbx = s.updMbx := rfl
@[simp] theorem State.fire_session (e : Nat) : (s.fire e).session = s.session := rfl
@[simp] theorem State.fire_parts (e : Nat) : (s.fire e).parts = s.parts := rfl
@[simp] theorem State.fire_updSide (e : Nat) : (s.fire e).updSide = s.updSide := rfl
@[simp] theorem State.fire_confirming (e : Nat) : (s.fire e).confirming = s.confirming := rfl
@[simp] theorem State.fire_fwHash (e : Nat) : (s.fire e).fwHash = s.fwHash := rfl
@[simp] theorem State.fire_change (e : Nat) : (s.fire e).change = s.change := rfl
@[simp] theorem State.fire_changeAt (e : Nat) : (s.fire e).changeAt = s.changeAt := rfl
@[simp] theorem State.fire_attest (e : Nat) : (s.fire e).attest = s.attest := rfl
@[simp] theorem State.fire_unlock (e : Nat) : (s.fire e).unlock = s.unlock := rfl
@[simp] theorem State.fire_tempSeen (e : Nat) : (s.fire e).tempSeen = s.tempSeen := rfl
@[simp] theorem State.fire_engs (e : Nat) : (s.fire e).engs = s.engs := rfl

/-! ## emit -/

@[simp] theorem State.emit_pending (e : Emit) : (s.emit e).pending = s.pending := rfl
@[simp] theorem State.emit_regs (e : Emit) : (s.emit e).regs = s.regs := rfl
@[simp] theorem State.emit_sideA (e : Emit) : (s.emit e).sideA = s.sideA := rfl
@[simp] theorem State.emit_sideB (e : Emit) : (s.emit e).sideB = s.sideB := rfl
@[simp] theorem State.emit_rights (e : Emit) : (s.emit e).rights = s.rights := rfl
@[simp] theorem State.emit_plain7 (e : Emit) : (s.emit e).plain7 = s.plain7 := rfl
@[simp] theorem State.emit_fired (e : Emit) : (s.emit e).fired = s.fired := rfl
@[simp] theorem State.emit_lastRead (e : Emit) : (s.emit e).lastRead = s.lastRead := rfl
@[simp] theorem State.emit_freeCtr (e : Emit) : (s.emit e).freeCtr = s.freeCtr := rfl
@[simp] theorem State.emit_aoReset (e : Emit) : (s.emit e).aoReset = s.aoReset := rfl
@[simp] theorem State.emit_setNow (e : Emit) : (s.emit e).setNow = s.setNow := rfl
@[simp] theorem State.emit_twins (e : Emit) : (s.emit e).twins = s.twins := rfl
@[simp] theorem State.emit_twinQ (e : Emit) : (s.emit e).twinQ = s.twinQ := rfl
@[simp] theorem State.emit_inPlan (e : Emit) : (s.emit e).inPlan = s.inPlan := rfl
@[simp] theorem State.emit_inRx (e : Emit) : (s.emit e).inRx = s.inRx := rfl
@[simp] theorem State.emit_merges (e : Emit) : (s.emit e).merges = s.merges := rfl
@[simp] theorem State.emit_feeds (e : Emit) : (s.emit e).feeds = s.feeds := rfl
@[simp] theorem State.emit_outPlan (e : Emit) : (s.emit e).outPlan = s.outPlan := rfl
@[simp] theorem State.emit_routes (e : Emit) : (s.emit e).routes = s.routes := rfl
@[simp] theorem State.emit_takes (e : Emit) : (s.emit e).takes = s.takes := rfl
@[simp] theorem State.emit_commits (e : Emit) : (s.emit e).commits = s.commits := rfl
@[simp] theorem State.emit_salvos (e : Emit) : (s.emit e).salvos = s.salvos := rfl
@[simp] theorem State.emit_outs (e : Emit) : (s.emit e).outs = s.outs := rfl
@[simp] theorem State.emit_shown (e : Emit) : (s.emit e).shown = s.shown := rfl
@[simp] theorem State.emit_stores (e : Emit) : (s.emit e).stores = s.stores := rfl
@[simp] theorem State.emit_captures (e : Emit) : (s.emit e).captures = s.captures := rfl
@[simp] theorem State.emit_benches (e : Emit) : (s.emit e).benches = s.benches := rfl
@[simp] theorem State.emit_benchPlan (e : Emit) : (s.emit e).benchPlan = s.benchPlan := rfl
@[simp] theorem State.emit_benchIn (e : Emit) : (s.emit e).benchIn = s.benchIn := rfl
@[simp] theorem State.emit_benchMem (e : Emit) : (s.emit e).benchMem = s.benchMem := rfl
@[simp] theorem State.emit_leadOld (e : Emit) : (s.emit e).leadOld = s.leadOld := rfl
@[simp] theorem State.emit_leaseEnd (e : Emit) : (s.emit e).leaseEnd = s.leaseEnd := rfl
@[simp] theorem State.emit_grace (e : Emit) : (s.emit e).grace = s.grace := rfl
@[simp] theorem State.emit_planned (e : Emit) : (s.emit e).planned = s.planned := rfl
@[simp] theorem State.emit_outSince (e : Emit) : (s.emit e).outSince = s.outSince := rfl
@[simp] theorem State.emit_voters (e : Emit) : (s.emit e).voters = s.voters := rfl
@[simp] theorem State.emit_grantAt (e : Emit) : (s.emit e).grantAt = s.grantAt := rfl
@[simp] theorem State.emit_sluices (e : Emit) : (s.emit e).sluices = s.sluices := rfl
@[simp] theorem State.emit_ring (e : Emit) : (s.emit e).ring = s.ring := rfl
@[simp] theorem State.emit_envLines (e : Emit) : (s.emit e).envLines = s.envLines := rfl
@[simp] theorem State.emit_sevAt (e : Emit) : (s.emit e).sevAt = s.sevAt := rfl
@[simp] theorem State.emit_therm (e : Emit) : (s.emit e).therm = s.therm := rfl
@[simp] theorem State.emit_txqs (e : Emit) : (s.emit e).txqs = s.txqs := rfl
@[simp] theorem State.emit_lanes (e : Emit) : (s.emit e).lanes = s.lanes := rfl
@[simp] theorem State.emit_nvl (e : Emit) : (s.emit e).nvl = s.nvl := rfl
@[simp] theorem State.emit_bankLost (e : Emit) : (s.emit e).bankLost = s.bankLost := rfl
@[simp] theorem State.emit_nvlTx (e : Emit) : (s.emit e).nvlTx = s.nvlTx := rfl
@[simp] theorem State.emit_bypassQ (e : Emit) : (s.emit e).bypassQ = s.bypassQ := rfl
@[simp] theorem State.emit_sdi (e : Emit) : (s.emit e).sdi = s.sdi := rfl
@[simp] theorem State.emit_portPlan (e : Emit) : (s.emit e).portPlan = s.portPlan := rfl
@[simp] theorem State.emit_rxFlows (e : Emit) : (s.emit e).rxFlows = s.rxFlows := rfl
@[simp] theorem State.emit_txRuns (e : Emit) : (s.emit e).txRuns = s.txRuns := rfl
@[simp] theorem State.emit_txFlows (e : Emit) : (s.emit e).txFlows = s.txFlows := rfl
@[simp] theorem State.emit_txBufs (e : Emit) : (s.emit e).txBufs = s.txBufs := rfl
@[simp] theorem State.emit_ethQ (e : Emit) : (s.emit e).ethQ = s.ethQ := rfl
@[simp] theorem State.emit_macs (e : Emit) : (s.emit e).macs = s.macs := rfl
@[simp] theorem State.emit_rrp (e : Emit) : (s.emit e).rrp = s.rrp := rfl
@[simp] theorem State.emit_hostParked (e : Emit) : (s.emit e).hostParked = s.hostParked := rfl
@[simp] theorem State.emit_tick (e : Emit) : (s.emit e).tick = s.tick := rfl
@[simp] theorem State.emit_tbs (e : Emit) : (s.emit e).tbs = s.tbs := rfl
@[simp] theorem State.emit_cmps (e : Emit) : (s.emit e).cmps = s.cmps := rfl
@[simp] theorem State.emit_ports (e : Emit) : (s.emit e).ports = s.ports := rfl
@[simp] theorem State.emit_txLatch (e : Emit) : (s.emit e).txLatch = s.txLatch := rfl
@[simp] theorem State.emit_cads (e : Emit) : (s.emit e).cads = s.cads := rfl
@[simp] theorem State.emit_cands (e : Emit) : (s.emit e).cands = s.cands := rfl
@[simp] theorem State.emit_ref (e : Emit) : (s.emit e).ref = s.ref := rfl
@[simp] theorem State.emit_trigArmed (e : Emit) : (s.emit e).trigArmed = s.trigArmed := rfl
@[simp] theorem State.emit_trigSignal (e : Emit) : (s.emit e).trigSignal = s.trigSignal := rfl
@[simp] theorem State.emit_audioTb (e : Emit) : (s.emit e).audioTb = s.audioTb := rfl
@[simp] theorem State.emit_audioHi (e : Emit) : (s.emit e).audioHi = s.audioHi := rfl
@[simp] theorem State.emit_audNext (e : Emit) : (s.emit e).audNext = s.audNext := rfl
@[simp] theorem State.emit_audSrc (e : Emit) : (s.emit e).audSrc = s.audSrc := rfl
@[simp] theorem State.emit_audDst (e : Emit) : (s.emit e).audDst = s.audDst := rfl
@[simp] theorem State.emit_tdm (e : Emit) : (s.emit e).tdm = s.tdm := rfl
@[simp] theorem State.emit_tdmOwner (e : Emit) : (s.emit e).tdmOwner = s.tdmOwner := rfl
@[simp] theorem State.emit_audTimes (e : Emit) : (s.emit e).audTimes = s.audTimes := rfl
@[simp] theorem State.emit_audIn (e : Emit) : (s.emit e).audIn = s.audIn := rfl
@[simp] theorem State.emit_headPlan (e : Emit) : (s.emit e).headPlan = s.headPlan := rfl
@[simp] theorem State.emit_tileHead (e : Emit) : (s.emit e).tileHead = s.tileHead := rfl
@[simp] theorem State.emit_preHead (e : Emit) : (s.emit e).preHead = s.preHead := rfl
@[simp] theorem State.emit_headRun (e : Emit) : (s.emit e).headRun = s.headRun := rfl
@[simp] theorem State.emit_tiles (e : Emit) : (s.emit e).tiles = s.tiles := rfl
@[simp] theorem State.emit_alyA (e : Emit) : (s.emit e).alyA = s.alyA := rfl
@[simp] theorem State.emit_alyB (e : Emit) : (s.emit e).alyB = s.alyB := rfl
@[simp] theorem State.emit_alyWait (e : Emit) : (s.emit e).alyWait = s.alyWait := rfl
@[simp] theorem State.emit_alyLive (e : Emit) : (s.emit e).alyLive = s.alyLive := rfl
@[simp] theorem State.emit_alyStore (e : Emit) : (s.emit e).alyStore = s.alyStore := rfl
@[simp] theorem State.emit_hbmA (e : Emit) : (s.emit e).hbmA = s.hbmA := rfl
@[simp] theorem State.emit_hbmB (e : Emit) : (s.emit e).hbmB = s.hbmB := rfl
@[simp] theorem State.emit_hbmRun (e : Emit) : (s.emit e).hbmRun = s.hbmRun := rfl
@[simp] theorem State.emit_hbmMax (e : Emit) : (s.emit e).hbmMax = s.hbmMax := rfl
@[simp] theorem State.emit_hoppers (e : Emit) : (s.emit e).hoppers = s.hoppers := rfl
@[simp] theorem State.emit_capPlan (e : Emit) : (s.emit e).capPlan = s.capPlan := rfl
@[simp] theorem State.emit_sramA (e : Emit) : (s.emit e).sramA = s.sramA := rfl
@[simp] theorem State.emit_sramB (e : Emit) : (s.emit e).sramB = s.sramB := rfl
@[simp] theorem State.emit_hbmTempAt (e : Emit) : (s.emit e).hbmTempAt = s.hbmTempAt := rfl
@[simp] theorem State.emit_audLate (e : Emit) : (s.emit e).audLate = s.audLate := rfl
@[simp] theorem State.emit_locks (e : Emit) : (s.emit e).locks = s.locks := rfl
@[simp] theorem State.emit_waiting (e : Emit) : (s.emit e).waiting = s.waiting := rfl
@[simp] theorem State.emit_grantNext (e : Emit) : (s.emit e).grantNext = s.grantNext := rfl
@[simp] theorem State.emit_winBuf (e : Emit) : (s.emit e).winBuf = s.winBuf := rfl
@[simp] theorem State.emit_msixOpen (e : Emit) : (s.emit e).msixOpen = s.msixOpen := rfl
@[simp] theorem State.emit_msixPend (e : Emit) : (s.emit e).msixPend = s.msixPend := rfl
@[simp] theorem State.emit_vecHigh (e : Emit) : (s.emit e).vecHigh = s.vecHigh := rfl
@[simp] theorem State.emit_flash0 (e : Emit) : (s.emit e).flash0 = s.flash0 := rfl
@[simp] theorem State.emit_flash1 (e : Emit) : (s.emit e).flash1 = s.flash1 := rfl
@[simp] theorem State.emit_owners (e : Emit) : (s.emit e).owners = s.owners := rfl
@[simp] theorem State.emit_svn (e : Emit) : (s.emit e).svn = s.svn := rfl
@[simp] theorem State.emit_otpOk (e : Emit) : (s.emit e).otpOk = s.otpOk := rfl
@[simp] theorem State.emit_loaded (e : Emit) : (s.emit e).loaded = s.loaded := rfl
@[simp] theorem State.emit_updMbx (e : Emit) : (s.emit e).updMbx = s.updMbx := rfl
@[simp] theorem State.emit_session (e : Emit) : (s.emit e).session = s.session := rfl
@[simp] theorem State.emit_parts (e : Emit) : (s.emit e).parts = s.parts := rfl
@[simp] theorem State.emit_updSide (e : Emit) : (s.emit e).updSide = s.updSide := rfl
@[simp] theorem State.emit_confirming (e : Emit) : (s.emit e).confirming = s.confirming := rfl
@[simp] theorem State.emit_fwHash (e : Emit) : (s.emit e).fwHash = s.fwHash := rfl
@[simp] theorem State.emit_change (e : Emit) : (s.emit e).change = s.change := rfl
@[simp] theorem State.emit_changeAt (e : Emit) : (s.emit e).changeAt = s.changeAt := rfl
@[simp] theorem State.emit_attest (e : Emit) : (s.emit e).attest = s.attest := rfl
@[simp] theorem State.emit_unlock (e : Emit) : (s.emit e).unlock = s.unlock := rfl
@[simp] theorem State.emit_tempSeen (e : Emit) : (s.emit e).tempSeen = s.tempSeen := rfl
@[simp] theorem State.emit_engs (e : Emit) : (s.emit e).engs = s.engs := rfl

/-! ## answer -/

@[simp] theorem State.answer_pending (r : Req) (v : W32) : (s.answer r v).pending = s.pending := rfl
@[simp] theorem State.answer_regs (r : Req) (v : W32) : (s.answer r v).regs = s.regs := rfl
@[simp] theorem State.answer_sideA (r : Req) (v : W32) : (s.answer r v).sideA = s.sideA := rfl
@[simp] theorem State.answer_sideB (r : Req) (v : W32) : (s.answer r v).sideB = s.sideB := rfl
@[simp] theorem State.answer_rights (r : Req) (v : W32) : (s.answer r v).rights = s.rights := rfl
@[simp] theorem State.answer_plain7 (r : Req) (v : W32) : (s.answer r v).plain7 = s.plain7 := rfl
@[simp] theorem State.answer_fired (r : Req) (v : W32) : (s.answer r v).fired = s.fired := rfl
@[simp] theorem State.answer_out (r : Req) (v : W32) : (s.answer r v).out = s.out := rfl
@[simp] theorem State.answer_freeCtr (r : Req) (v : W32) : (s.answer r v).freeCtr = s.freeCtr := rfl
@[simp] theorem State.answer_aoReset (r : Req) (v : W32) : (s.answer r v).aoReset = s.aoReset := rfl
@[simp] theorem State.answer_setNow (r : Req) (v : W32) : (s.answer r v).setNow = s.setNow := rfl
@[simp] theorem State.answer_twins (r : Req) (v : W32) : (s.answer r v).twins = s.twins := rfl
@[simp] theorem State.answer_twinQ (r : Req) (v : W32) : (s.answer r v).twinQ = s.twinQ := rfl
@[simp] theorem State.answer_inPlan (r : Req) (v : W32) : (s.answer r v).inPlan = s.inPlan := rfl
@[simp] theorem State.answer_inRx (r : Req) (v : W32) : (s.answer r v).inRx = s.inRx := rfl
@[simp] theorem State.answer_merges (r : Req) (v : W32) : (s.answer r v).merges = s.merges := rfl
@[simp] theorem State.answer_feeds (r : Req) (v : W32) : (s.answer r v).feeds = s.feeds := rfl
@[simp] theorem State.answer_outPlan (r : Req) (v : W32) : (s.answer r v).outPlan = s.outPlan := rfl
@[simp] theorem State.answer_routes (r : Req) (v : W32) : (s.answer r v).routes = s.routes := rfl
@[simp] theorem State.answer_takes (r : Req) (v : W32) : (s.answer r v).takes = s.takes := rfl
@[simp] theorem State.answer_commits (r : Req) (v : W32) : (s.answer r v).commits = s.commits := rfl
@[simp] theorem State.answer_salvos (r : Req) (v : W32) : (s.answer r v).salvos = s.salvos := rfl
@[simp] theorem State.answer_outs (r : Req) (v : W32) : (s.answer r v).outs = s.outs := rfl
@[simp] theorem State.answer_shown (r : Req) (v : W32) : (s.answer r v).shown = s.shown := rfl
@[simp] theorem State.answer_stores (r : Req) (v : W32) : (s.answer r v).stores = s.stores := rfl
@[simp] theorem State.answer_captures (r : Req) (v : W32) : (s.answer r v).captures = s.captures := rfl
@[simp] theorem State.answer_benches (r : Req) (v : W32) : (s.answer r v).benches = s.benches := rfl
@[simp] theorem State.answer_benchPlan (r : Req) (v : W32) : (s.answer r v).benchPlan = s.benchPlan := rfl
@[simp] theorem State.answer_benchIn (r : Req) (v : W32) : (s.answer r v).benchIn = s.benchIn := rfl
@[simp] theorem State.answer_benchMem (r : Req) (v : W32) : (s.answer r v).benchMem = s.benchMem := rfl
@[simp] theorem State.answer_leadOld (r : Req) (v : W32) : (s.answer r v).leadOld = s.leadOld := rfl
@[simp] theorem State.answer_leaseEnd (r : Req) (v : W32) : (s.answer r v).leaseEnd = s.leaseEnd := rfl
@[simp] theorem State.answer_grace (r : Req) (v : W32) : (s.answer r v).grace = s.grace := rfl
@[simp] theorem State.answer_planned (r : Req) (v : W32) : (s.answer r v).planned = s.planned := rfl
@[simp] theorem State.answer_outSince (r : Req) (v : W32) : (s.answer r v).outSince = s.outSince := rfl
@[simp] theorem State.answer_voters (r : Req) (v : W32) : (s.answer r v).voters = s.voters := rfl
@[simp] theorem State.answer_grantAt (r : Req) (v : W32) : (s.answer r v).grantAt = s.grantAt := rfl
@[simp] theorem State.answer_sluices (r : Req) (v : W32) : (s.answer r v).sluices = s.sluices := rfl
@[simp] theorem State.answer_ring (r : Req) (v : W32) : (s.answer r v).ring = s.ring := rfl
@[simp] theorem State.answer_envLines (r : Req) (v : W32) : (s.answer r v).envLines = s.envLines := rfl
@[simp] theorem State.answer_sevAt (r : Req) (v : W32) : (s.answer r v).sevAt = s.sevAt := rfl
@[simp] theorem State.answer_therm (r : Req) (v : W32) : (s.answer r v).therm = s.therm := rfl
@[simp] theorem State.answer_txqs (r : Req) (v : W32) : (s.answer r v).txqs = s.txqs := rfl
@[simp] theorem State.answer_lanes (r : Req) (v : W32) : (s.answer r v).lanes = s.lanes := rfl
@[simp] theorem State.answer_nvl (r : Req) (v : W32) : (s.answer r v).nvl = s.nvl := rfl
@[simp] theorem State.answer_bankLost (r : Req) (v : W32) : (s.answer r v).bankLost = s.bankLost := rfl
@[simp] theorem State.answer_nvlTx (r : Req) (v : W32) : (s.answer r v).nvlTx = s.nvlTx := rfl
@[simp] theorem State.answer_bypassQ (r : Req) (v : W32) : (s.answer r v).bypassQ = s.bypassQ := rfl
@[simp] theorem State.answer_sdi (r : Req) (v : W32) : (s.answer r v).sdi = s.sdi := rfl
@[simp] theorem State.answer_portPlan (r : Req) (v : W32) : (s.answer r v).portPlan = s.portPlan := rfl
@[simp] theorem State.answer_rxFlows (r : Req) (v : W32) : (s.answer r v).rxFlows = s.rxFlows := rfl
@[simp] theorem State.answer_txRuns (r : Req) (v : W32) : (s.answer r v).txRuns = s.txRuns := rfl
@[simp] theorem State.answer_txFlows (r : Req) (v : W32) : (s.answer r v).txFlows = s.txFlows := rfl
@[simp] theorem State.answer_txBufs (r : Req) (v : W32) : (s.answer r v).txBufs = s.txBufs := rfl
@[simp] theorem State.answer_ethQ (r : Req) (v : W32) : (s.answer r v).ethQ = s.ethQ := rfl
@[simp] theorem State.answer_macs (r : Req) (v : W32) : (s.answer r v).macs = s.macs := rfl
@[simp] theorem State.answer_rrp (r : Req) (v : W32) : (s.answer r v).rrp = s.rrp := rfl
@[simp] theorem State.answer_hostParked (r : Req) (v : W32) : (s.answer r v).hostParked = s.hostParked := rfl
@[simp] theorem State.answer_tick (r : Req) (v : W32) : (s.answer r v).tick = s.tick := rfl
@[simp] theorem State.answer_tbs (r : Req) (v : W32) : (s.answer r v).tbs = s.tbs := rfl
@[simp] theorem State.answer_cmps (r : Req) (v : W32) : (s.answer r v).cmps = s.cmps := rfl
@[simp] theorem State.answer_ports (r : Req) (v : W32) : (s.answer r v).ports = s.ports := rfl
@[simp] theorem State.answer_txLatch (r : Req) (v : W32) : (s.answer r v).txLatch = s.txLatch := rfl
@[simp] theorem State.answer_cads (r : Req) (v : W32) : (s.answer r v).cads = s.cads := rfl
@[simp] theorem State.answer_cands (r : Req) (v : W32) : (s.answer r v).cands = s.cands := rfl
@[simp] theorem State.answer_ref (r : Req) (v : W32) : (s.answer r v).ref = s.ref := rfl
@[simp] theorem State.answer_trigArmed (r : Req) (v : W32) : (s.answer r v).trigArmed = s.trigArmed := rfl
@[simp] theorem State.answer_trigSignal (r : Req) (v : W32) : (s.answer r v).trigSignal = s.trigSignal := rfl
@[simp] theorem State.answer_audioTb (r : Req) (v : W32) : (s.answer r v).audioTb = s.audioTb := rfl
@[simp] theorem State.answer_audioHi (r : Req) (v : W32) : (s.answer r v).audioHi = s.audioHi := rfl
@[simp] theorem State.answer_audNext (r : Req) (v : W32) : (s.answer r v).audNext = s.audNext := rfl
@[simp] theorem State.answer_audSrc (r : Req) (v : W32) : (s.answer r v).audSrc = s.audSrc := rfl
@[simp] theorem State.answer_audDst (r : Req) (v : W32) : (s.answer r v).audDst = s.audDst := rfl
@[simp] theorem State.answer_tdm (r : Req) (v : W32) : (s.answer r v).tdm = s.tdm := rfl
@[simp] theorem State.answer_tdmOwner (r : Req) (v : W32) : (s.answer r v).tdmOwner = s.tdmOwner := rfl
@[simp] theorem State.answer_audTimes (r : Req) (v : W32) : (s.answer r v).audTimes = s.audTimes := rfl
@[simp] theorem State.answer_audIn (r : Req) (v : W32) : (s.answer r v).audIn = s.audIn := rfl
@[simp] theorem State.answer_headPlan (r : Req) (v : W32) : (s.answer r v).headPlan = s.headPlan := rfl
@[simp] theorem State.answer_tileHead (r : Req) (v : W32) : (s.answer r v).tileHead = s.tileHead := rfl
@[simp] theorem State.answer_preHead (r : Req) (v : W32) : (s.answer r v).preHead = s.preHead := rfl
@[simp] theorem State.answer_headRun (r : Req) (v : W32) : (s.answer r v).headRun = s.headRun := rfl
@[simp] theorem State.answer_tiles (r : Req) (v : W32) : (s.answer r v).tiles = s.tiles := rfl
@[simp] theorem State.answer_alyA (r : Req) (v : W32) : (s.answer r v).alyA = s.alyA := rfl
@[simp] theorem State.answer_alyB (r : Req) (v : W32) : (s.answer r v).alyB = s.alyB := rfl
@[simp] theorem State.answer_alyWait (r : Req) (v : W32) : (s.answer r v).alyWait = s.alyWait := rfl
@[simp] theorem State.answer_alyLive (r : Req) (v : W32) : (s.answer r v).alyLive = s.alyLive := rfl
@[simp] theorem State.answer_alyStore (r : Req) (v : W32) : (s.answer r v).alyStore = s.alyStore := rfl
@[simp] theorem State.answer_hbmA (r : Req) (v : W32) : (s.answer r v).hbmA = s.hbmA := rfl
@[simp] theorem State.answer_hbmB (r : Req) (v : W32) : (s.answer r v).hbmB = s.hbmB := rfl
@[simp] theorem State.answer_hbmRun (r : Req) (v : W32) : (s.answer r v).hbmRun = s.hbmRun := rfl
@[simp] theorem State.answer_hbmMax (r : Req) (v : W32) : (s.answer r v).hbmMax = s.hbmMax := rfl
@[simp] theorem State.answer_hoppers (r : Req) (v : W32) : (s.answer r v).hoppers = s.hoppers := rfl
@[simp] theorem State.answer_capPlan (r : Req) (v : W32) : (s.answer r v).capPlan = s.capPlan := rfl
@[simp] theorem State.answer_sramA (r : Req) (v : W32) : (s.answer r v).sramA = s.sramA := rfl
@[simp] theorem State.answer_sramB (r : Req) (v : W32) : (s.answer r v).sramB = s.sramB := rfl
@[simp] theorem State.answer_hbmTempAt (r : Req) (v : W32) : (s.answer r v).hbmTempAt = s.hbmTempAt := rfl
@[simp] theorem State.answer_audLate (r : Req) (v : W32) : (s.answer r v).audLate = s.audLate := rfl
@[simp] theorem State.answer_locks (r : Req) (v : W32) : (s.answer r v).locks = s.locks := rfl
@[simp] theorem State.answer_waiting (r : Req) (v : W32) : (s.answer r v).waiting = s.waiting := rfl
@[simp] theorem State.answer_grantNext (r : Req) (v : W32) : (s.answer r v).grantNext = s.grantNext := rfl
@[simp] theorem State.answer_winBuf (r : Req) (v : W32) : (s.answer r v).winBuf = s.winBuf := rfl
@[simp] theorem State.answer_msixOpen (r : Req) (v : W32) : (s.answer r v).msixOpen = s.msixOpen := rfl
@[simp] theorem State.answer_msixPend (r : Req) (v : W32) : (s.answer r v).msixPend = s.msixPend := rfl
@[simp] theorem State.answer_vecHigh (r : Req) (v : W32) : (s.answer r v).vecHigh = s.vecHigh := rfl
@[simp] theorem State.answer_flash0 (r : Req) (v : W32) : (s.answer r v).flash0 = s.flash0 := rfl
@[simp] theorem State.answer_flash1 (r : Req) (v : W32) : (s.answer r v).flash1 = s.flash1 := rfl
@[simp] theorem State.answer_owners (r : Req) (v : W32) : (s.answer r v).owners = s.owners := rfl
@[simp] theorem State.answer_svn (r : Req) (v : W32) : (s.answer r v).svn = s.svn := rfl
@[simp] theorem State.answer_otpOk (r : Req) (v : W32) : (s.answer r v).otpOk = s.otpOk := rfl
@[simp] theorem State.answer_loaded (r : Req) (v : W32) : (s.answer r v).loaded = s.loaded := rfl
@[simp] theorem State.answer_updMbx (r : Req) (v : W32) : (s.answer r v).updMbx = s.updMbx := rfl
@[simp] theorem State.answer_session (r : Req) (v : W32) : (s.answer r v).session = s.session := rfl
@[simp] theorem State.answer_parts (r : Req) (v : W32) : (s.answer r v).parts = s.parts := rfl
@[simp] theorem State.answer_updSide (r : Req) (v : W32) : (s.answer r v).updSide = s.updSide := rfl
@[simp] theorem State.answer_confirming (r : Req) (v : W32) : (s.answer r v).confirming = s.confirming := rfl
@[simp] theorem State.answer_fwHash (r : Req) (v : W32) : (s.answer r v).fwHash = s.fwHash := rfl
@[simp] theorem State.answer_change (r : Req) (v : W32) : (s.answer r v).change = s.change := rfl
@[simp] theorem State.answer_changeAt (r : Req) (v : W32) : (s.answer r v).changeAt = s.changeAt := rfl
@[simp] theorem State.answer_attest (r : Req) (v : W32) : (s.answer r v).attest = s.attest := rfl
@[simp] theorem State.answer_unlock (r : Req) (v : W32) : (s.answer r v).unlock = s.unlock := rfl
@[simp] theorem State.answer_tempSeen (r : Req) (v : W32) : (s.answer r v).tempSeen = s.tempSeen := rfl
@[simp] theorem State.answer_engs (r : Req) (v : W32) : (s.answer r v).engs = s.engs := rfl

/-! ## countBeat -/

@[simp] theorem State.countBeat_pending (m : Nat) (r : Req) (t : Nat) : (s.countBeat m r t).pending = s.pending := rfl
@[simp] theorem State.countBeat_regs (m : Nat) (r : Req) (t : Nat) : (s.countBeat m r t).regs = s.regs := rfl
@[simp] theorem State.countBeat_sideA (m : Nat) (r : Req) (t : Nat) : (s.countBeat m r t).sideA = s.sideA := rfl
@[simp] theorem State.countBeat_sideB (m : Nat) (r : Req) (t : Nat) : (s.countBeat m r t).sideB = s.sideB := rfl
@[simp] theorem State.countBeat_rights (m : Nat) (r : Req) (t : Nat) : (s.countBeat m r t).rights = s.rights := rfl
@[simp] theorem State.countBeat_plain7 (m : Nat) (r : Req) (t : Nat) : (s.countBeat m r t).plain7 = s.plain7 := rfl
@[simp] theorem State.countBeat_fired (m : Nat) (r : Req) (t : Nat) : (s.countBeat m r t).fired = s.fired := rfl
@[simp] theorem State.countBeat_out (m : Nat) (r : Req) (t : Nat) : (s.countBeat m r t).out = s.out := rfl
@[simp] theorem State.countBeat_lastRead (m : Nat) (r : Req) (t : Nat) : (s.countBeat m r t).lastRead = s.lastRead := rfl
@[simp] theorem State.countBeat_freeCtr (m : Nat) (r : Req) (t : Nat) : (s.countBeat m r t).freeCtr = s.freeCtr := rfl
@[simp] theorem State.countBeat_aoReset (m : Nat) (r : Req) (t : Nat) : (s.countBeat m r t).aoReset = s.aoReset := rfl
@[simp] theorem State.countBeat_setNow (m : Nat) (r : Req) (t : Nat) : (s.countBeat m r t).setNow = s.setNow := rfl
@[simp] theorem State.countBeat_twins (m : Nat) (r : Req) (t : Nat) : (s.countBeat m r t).twins = s.twins := rfl
@[simp] theorem State.countBeat_twinQ (m : Nat) (r : Req) (t : Nat) : (s.countBeat m r t).twinQ = s.twinQ := rfl
@[simp] theorem State.countBeat_inPlan (m : Nat) (r : Req) (t : Nat) : (s.countBeat m r t).inPlan = s.inPlan := rfl
@[simp] theorem State.countBeat_inRx (m : Nat) (r : Req) (t : Nat) : (s.countBeat m r t).inRx = s.inRx := rfl
@[simp] theorem State.countBeat_merges (m : Nat) (r : Req) (t : Nat) : (s.countBeat m r t).merges = s.merges := rfl
@[simp] theorem State.countBeat_feeds (m : Nat) (r : Req) (t : Nat) : (s.countBeat m r t).feeds = s.feeds := rfl
@[simp] theorem State.countBeat_outPlan (m : Nat) (r : Req) (t : Nat) : (s.countBeat m r t).outPlan = s.outPlan := rfl
@[simp] theorem State.countBeat_routes (m : Nat) (r : Req) (t : Nat) : (s.countBeat m r t).routes = s.routes := rfl
@[simp] theorem State.countBeat_takes (m : Nat) (r : Req) (t : Nat) : (s.countBeat m r t).takes = s.takes := rfl
@[simp] theorem State.countBeat_commits (m : Nat) (r : Req) (t : Nat) : (s.countBeat m r t).commits = s.commits := rfl
@[simp] theorem State.countBeat_salvos (m : Nat) (r : Req) (t : Nat) : (s.countBeat m r t).salvos = s.salvos := rfl
@[simp] theorem State.countBeat_outs (m : Nat) (r : Req) (t : Nat) : (s.countBeat m r t).outs = s.outs := rfl
@[simp] theorem State.countBeat_shown (m : Nat) (r : Req) (t : Nat) : (s.countBeat m r t).shown = s.shown := rfl
@[simp] theorem State.countBeat_stores (m : Nat) (r : Req) (t : Nat) : (s.countBeat m r t).stores = s.stores := rfl
@[simp] theorem State.countBeat_captures (m : Nat) (r : Req) (t : Nat) : (s.countBeat m r t).captures = s.captures := rfl
@[simp] theorem State.countBeat_benches (m : Nat) (r : Req) (t : Nat) : (s.countBeat m r t).benches = s.benches := rfl
@[simp] theorem State.countBeat_benchPlan (m : Nat) (r : Req) (t : Nat) : (s.countBeat m r t).benchPlan = s.benchPlan := rfl
@[simp] theorem State.countBeat_benchIn (m : Nat) (r : Req) (t : Nat) : (s.countBeat m r t).benchIn = s.benchIn := rfl
@[simp] theorem State.countBeat_benchMem (m : Nat) (r : Req) (t : Nat) : (s.countBeat m r t).benchMem = s.benchMem := rfl
@[simp] theorem State.countBeat_leadOld (m : Nat) (r : Req) (t : Nat) : (s.countBeat m r t).leadOld = s.leadOld := rfl
@[simp] theorem State.countBeat_leaseEnd (m : Nat) (r : Req) (t : Nat) : (s.countBeat m r t).leaseEnd = s.leaseEnd := rfl
@[simp] theorem State.countBeat_grace (m : Nat) (r : Req) (t : Nat) : (s.countBeat m r t).grace = s.grace := rfl
@[simp] theorem State.countBeat_planned (m : Nat) (r : Req) (t : Nat) : (s.countBeat m r t).planned = s.planned := rfl
@[simp] theorem State.countBeat_outSince (m : Nat) (r : Req) (t : Nat) : (s.countBeat m r t).outSince = s.outSince := rfl
@[simp] theorem State.countBeat_voters (m : Nat) (r : Req) (t : Nat) : (s.countBeat m r t).voters = s.voters := rfl
@[simp] theorem State.countBeat_grantAt (m : Nat) (r : Req) (t : Nat) : (s.countBeat m r t).grantAt = s.grantAt := rfl
@[simp] theorem State.countBeat_sluices (m : Nat) (r : Req) (t : Nat) : (s.countBeat m r t).sluices = s.sluices := rfl
@[simp] theorem State.countBeat_ring (m : Nat) (r : Req) (t : Nat) : (s.countBeat m r t).ring = s.ring := rfl
@[simp] theorem State.countBeat_envLines (m : Nat) (r : Req) (t : Nat) : (s.countBeat m r t).envLines = s.envLines := rfl
@[simp] theorem State.countBeat_sevAt (m : Nat) (r : Req) (t : Nat) : (s.countBeat m r t).sevAt = s.sevAt := rfl
@[simp] theorem State.countBeat_therm (m : Nat) (r : Req) (t : Nat) : (s.countBeat m r t).therm = s.therm := rfl
@[simp] theorem State.countBeat_txqs (m : Nat) (r : Req) (t : Nat) : (s.countBeat m r t).txqs = s.txqs := rfl
@[simp] theorem State.countBeat_lanes (m : Nat) (r : Req) (t : Nat) : (s.countBeat m r t).lanes = s.lanes := rfl
@[simp] theorem State.countBeat_nvl (m : Nat) (r : Req) (t : Nat) : (s.countBeat m r t).nvl = s.nvl := rfl
@[simp] theorem State.countBeat_bankLost (m : Nat) (r : Req) (t : Nat) : (s.countBeat m r t).bankLost = s.bankLost := rfl
@[simp] theorem State.countBeat_nvlTx (m : Nat) (r : Req) (t : Nat) : (s.countBeat m r t).nvlTx = s.nvlTx := rfl
@[simp] theorem State.countBeat_bypassQ (m : Nat) (r : Req) (t : Nat) : (s.countBeat m r t).bypassQ = s.bypassQ := rfl
@[simp] theorem State.countBeat_sdi (m : Nat) (r : Req) (t : Nat) : (s.countBeat m r t).sdi = s.sdi := rfl
@[simp] theorem State.countBeat_portPlan (m : Nat) (r : Req) (t : Nat) : (s.countBeat m r t).portPlan = s.portPlan := rfl
@[simp] theorem State.countBeat_rxFlows (m : Nat) (r : Req) (t : Nat) : (s.countBeat m r t).rxFlows = s.rxFlows := rfl
@[simp] theorem State.countBeat_txRuns (m : Nat) (r : Req) (t : Nat) : (s.countBeat m r t).txRuns = s.txRuns := rfl
@[simp] theorem State.countBeat_txFlows (m : Nat) (r : Req) (t : Nat) : (s.countBeat m r t).txFlows = s.txFlows := rfl
@[simp] theorem State.countBeat_txBufs (m : Nat) (r : Req) (t : Nat) : (s.countBeat m r t).txBufs = s.txBufs := rfl
@[simp] theorem State.countBeat_ethQ (m : Nat) (r : Req) (t : Nat) : (s.countBeat m r t).ethQ = s.ethQ := rfl
@[simp] theorem State.countBeat_macs (m : Nat) (r : Req) (t : Nat) : (s.countBeat m r t).macs = s.macs := rfl
@[simp] theorem State.countBeat_rrp (m : Nat) (r : Req) (t : Nat) : (s.countBeat m r t).rrp = s.rrp := rfl
@[simp] theorem State.countBeat_hostParked (m : Nat) (r : Req) (t : Nat) : (s.countBeat m r t).hostParked = s.hostParked := rfl
@[simp] theorem State.countBeat_tick (m : Nat) (r : Req) (t : Nat) : (s.countBeat m r t).tick = s.tick := rfl
@[simp] theorem State.countBeat_tbs (m : Nat) (r : Req) (t : Nat) : (s.countBeat m r t).tbs = s.tbs := rfl
@[simp] theorem State.countBeat_cmps (m : Nat) (r : Req) (t : Nat) : (s.countBeat m r t).cmps = s.cmps := rfl
@[simp] theorem State.countBeat_ports (m : Nat) (r : Req) (t : Nat) : (s.countBeat m r t).ports = s.ports := rfl
@[simp] theorem State.countBeat_txLatch (m : Nat) (r : Req) (t : Nat) : (s.countBeat m r t).txLatch = s.txLatch := rfl
@[simp] theorem State.countBeat_cads (m : Nat) (r : Req) (t : Nat) : (s.countBeat m r t).cads = s.cads := rfl
@[simp] theorem State.countBeat_cands (m : Nat) (r : Req) (t : Nat) : (s.countBeat m r t).cands = s.cands := rfl
@[simp] theorem State.countBeat_ref (m : Nat) (r : Req) (t : Nat) : (s.countBeat m r t).ref = s.ref := rfl
@[simp] theorem State.countBeat_trigArmed (m : Nat) (r : Req) (t : Nat) : (s.countBeat m r t).trigArmed = s.trigArmed := rfl
@[simp] theorem State.countBeat_trigSignal (m : Nat) (r : Req) (t : Nat) : (s.countBeat m r t).trigSignal = s.trigSignal := rfl
@[simp] theorem State.countBeat_audioTb (m : Nat) (r : Req) (t : Nat) : (s.countBeat m r t).audioTb = s.audioTb := rfl
@[simp] theorem State.countBeat_audioHi (m : Nat) (r : Req) (t : Nat) : (s.countBeat m r t).audioHi = s.audioHi := rfl
@[simp] theorem State.countBeat_audNext (m : Nat) (r : Req) (t : Nat) : (s.countBeat m r t).audNext = s.audNext := rfl
@[simp] theorem State.countBeat_audSrc (m : Nat) (r : Req) (t : Nat) : (s.countBeat m r t).audSrc = s.audSrc := rfl
@[simp] theorem State.countBeat_audDst (m : Nat) (r : Req) (t : Nat) : (s.countBeat m r t).audDst = s.audDst := rfl
@[simp] theorem State.countBeat_tdm (m : Nat) (r : Req) (t : Nat) : (s.countBeat m r t).tdm = s.tdm := rfl
@[simp] theorem State.countBeat_tdmOwner (m : Nat) (r : Req) (t : Nat) : (s.countBeat m r t).tdmOwner = s.tdmOwner := rfl
@[simp] theorem State.countBeat_audTimes (m : Nat) (r : Req) (t : Nat) : (s.countBeat m r t).audTimes = s.audTimes := rfl
@[simp] theorem State.countBeat_audIn (m : Nat) (r : Req) (t : Nat) : (s.countBeat m r t).audIn = s.audIn := rfl
@[simp] theorem State.countBeat_headPlan (m : Nat) (r : Req) (t : Nat) : (s.countBeat m r t).headPlan = s.headPlan := rfl
@[simp] theorem State.countBeat_tileHead (m : Nat) (r : Req) (t : Nat) : (s.countBeat m r t).tileHead = s.tileHead := rfl
@[simp] theorem State.countBeat_preHead (m : Nat) (r : Req) (t : Nat) : (s.countBeat m r t).preHead = s.preHead := rfl
@[simp] theorem State.countBeat_headRun (m : Nat) (r : Req) (t : Nat) : (s.countBeat m r t).headRun = s.headRun := rfl
@[simp] theorem State.countBeat_tiles (m : Nat) (r : Req) (t : Nat) : (s.countBeat m r t).tiles = s.tiles := rfl
@[simp] theorem State.countBeat_alyA (m : Nat) (r : Req) (t : Nat) : (s.countBeat m r t).alyA = s.alyA := rfl
@[simp] theorem State.countBeat_alyB (m : Nat) (r : Req) (t : Nat) : (s.countBeat m r t).alyB = s.alyB := rfl
@[simp] theorem State.countBeat_alyWait (m : Nat) (r : Req) (t : Nat) : (s.countBeat m r t).alyWait = s.alyWait := rfl
@[simp] theorem State.countBeat_alyLive (m : Nat) (r : Req) (t : Nat) : (s.countBeat m r t).alyLive = s.alyLive := rfl
@[simp] theorem State.countBeat_alyStore (m : Nat) (r : Req) (t : Nat) : (s.countBeat m r t).alyStore = s.alyStore := rfl
@[simp] theorem State.countBeat_hbmA (m : Nat) (r : Req) (t : Nat) : (s.countBeat m r t).hbmA = s.hbmA := rfl
@[simp] theorem State.countBeat_hbmB (m : Nat) (r : Req) (t : Nat) : (s.countBeat m r t).hbmB = s.hbmB := rfl
@[simp] theorem State.countBeat_hbmRun (m : Nat) (r : Req) (t : Nat) : (s.countBeat m r t).hbmRun = s.hbmRun := rfl
@[simp] theorem State.countBeat_hbmMax (m : Nat) (r : Req) (t : Nat) : (s.countBeat m r t).hbmMax = s.hbmMax := rfl
@[simp] theorem State.countBeat_hoppers (m : Nat) (r : Req) (t : Nat) : (s.countBeat m r t).hoppers = s.hoppers := rfl
@[simp] theorem State.countBeat_capPlan (m : Nat) (r : Req) (t : Nat) : (s.countBeat m r t).capPlan = s.capPlan := rfl
@[simp] theorem State.countBeat_sramA (m : Nat) (r : Req) (t : Nat) : (s.countBeat m r t).sramA = s.sramA := rfl
@[simp] theorem State.countBeat_sramB (m : Nat) (r : Req) (t : Nat) : (s.countBeat m r t).sramB = s.sramB := rfl
@[simp] theorem State.countBeat_hbmTempAt (m : Nat) (r : Req) (t : Nat) : (s.countBeat m r t).hbmTempAt = s.hbmTempAt := rfl
@[simp] theorem State.countBeat_audLate (m : Nat) (r : Req) (t : Nat) : (s.countBeat m r t).audLate = s.audLate := rfl
@[simp] theorem State.countBeat_waiting (m : Nat) (r : Req) (t : Nat) : (s.countBeat m r t).waiting = s.waiting := rfl
@[simp] theorem State.countBeat_winBuf (m : Nat) (r : Req) (t : Nat) : (s.countBeat m r t).winBuf = s.winBuf := rfl
@[simp] theorem State.countBeat_msixOpen (m : Nat) (r : Req) (t : Nat) : (s.countBeat m r t).msixOpen = s.msixOpen := rfl
@[simp] theorem State.countBeat_msixPend (m : Nat) (r : Req) (t : Nat) : (s.countBeat m r t).msixPend = s.msixPend := rfl
@[simp] theorem State.countBeat_vecHigh (m : Nat) (r : Req) (t : Nat) : (s.countBeat m r t).vecHigh = s.vecHigh := rfl
@[simp] theorem State.countBeat_flash0 (m : Nat) (r : Req) (t : Nat) : (s.countBeat m r t).flash0 = s.flash0 := rfl
@[simp] theorem State.countBeat_flash1 (m : Nat) (r : Req) (t : Nat) : (s.countBeat m r t).flash1 = s.flash1 := rfl
@[simp] theorem State.countBeat_owners (m : Nat) (r : Req) (t : Nat) : (s.countBeat m r t).owners = s.owners := rfl
@[simp] theorem State.countBeat_svn (m : Nat) (r : Req) (t : Nat) : (s.countBeat m r t).svn = s.svn := rfl
@[simp] theorem State.countBeat_otpOk (m : Nat) (r : Req) (t : Nat) : (s.countBeat m r t).otpOk = s.otpOk := rfl
@[simp] theorem State.countBeat_loaded (m : Nat) (r : Req) (t : Nat) : (s.countBeat m r t).loaded = s.loaded := rfl
@[simp] theorem State.countBeat_updMbx (m : Nat) (r : Req) (t : Nat) : (s.countBeat m r t).updMbx = s.updMbx := rfl
@[simp] theorem State.countBeat_session (m : Nat) (r : Req) (t : Nat) : (s.countBeat m r t).session = s.session := rfl
@[simp] theorem State.countBeat_parts (m : Nat) (r : Req) (t : Nat) : (s.countBeat m r t).parts = s.parts := rfl
@[simp] theorem State.countBeat_updSide (m : Nat) (r : Req) (t : Nat) : (s.countBeat m r t).updSide = s.updSide := rfl
@[simp] theorem State.countBeat_confirming (m : Nat) (r : Req) (t : Nat) : (s.countBeat m r t).confirming = s.confirming := rfl
@[simp] theorem State.countBeat_fwHash (m : Nat) (r : Req) (t : Nat) : (s.countBeat m r t).fwHash = s.fwHash := rfl
@[simp] theorem State.countBeat_change (m : Nat) (r : Req) (t : Nat) : (s.countBeat m r t).change = s.change := rfl
@[simp] theorem State.countBeat_changeAt (m : Nat) (r : Req) (t : Nat) : (s.countBeat m r t).changeAt = s.changeAt := rfl
@[simp] theorem State.countBeat_attest (m : Nat) (r : Req) (t : Nat) : (s.countBeat m r t).attest = s.attest := rfl
@[simp] theorem State.countBeat_unlock (m : Nat) (r : Req) (t : Nat) : (s.countBeat m r t).unlock = s.unlock := rfl
@[simp] theorem State.countBeat_tempSeen (m : Nat) (r : Req) (t : Nat) : (s.countBeat m r t).tempSeen = s.tempSeen := rfl
@[simp] theorem State.countBeat_engs (m : Nat) (r : Req) (t : Nat) : (s.countBeat m r t).engs = s.engs := rfl

/-! ## dropLock -/

@[simp] theorem State.dropLock_pending (r : Req) : (s.dropLock r).pending = s.pending := rfl
@[simp] theorem State.dropLock_regs (r : Req) : (s.dropLock r).regs = s.regs := rfl
@[simp] theorem State.dropLock_sideA (r : Req) : (s.dropLock r).sideA = s.sideA := rfl
@[simp] theorem State.dropLock_sideB (r : Req) : (s.dropLock r).sideB = s.sideB := rfl
@[simp] theorem State.dropLock_rights (r : Req) : (s.dropLock r).rights = s.rights := rfl
@[simp] theorem State.dropLock_plain7 (r : Req) : (s.dropLock r).plain7 = s.plain7 := rfl
@[simp] theorem State.dropLock_fired (r : Req) : (s.dropLock r).fired = s.fired := rfl
@[simp] theorem State.dropLock_out (r : Req) : (s.dropLock r).out = s.out := rfl
@[simp] theorem State.dropLock_lastRead (r : Req) : (s.dropLock r).lastRead = s.lastRead := rfl
@[simp] theorem State.dropLock_freeCtr (r : Req) : (s.dropLock r).freeCtr = s.freeCtr := rfl
@[simp] theorem State.dropLock_aoReset (r : Req) : (s.dropLock r).aoReset = s.aoReset := rfl
@[simp] theorem State.dropLock_setNow (r : Req) : (s.dropLock r).setNow = s.setNow := rfl
@[simp] theorem State.dropLock_twins (r : Req) : (s.dropLock r).twins = s.twins := rfl
@[simp] theorem State.dropLock_twinQ (r : Req) : (s.dropLock r).twinQ = s.twinQ := rfl
@[simp] theorem State.dropLock_inPlan (r : Req) : (s.dropLock r).inPlan = s.inPlan := rfl
@[simp] theorem State.dropLock_inRx (r : Req) : (s.dropLock r).inRx = s.inRx := rfl
@[simp] theorem State.dropLock_merges (r : Req) : (s.dropLock r).merges = s.merges := rfl
@[simp] theorem State.dropLock_feeds (r : Req) : (s.dropLock r).feeds = s.feeds := rfl
@[simp] theorem State.dropLock_outPlan (r : Req) : (s.dropLock r).outPlan = s.outPlan := rfl
@[simp] theorem State.dropLock_routes (r : Req) : (s.dropLock r).routes = s.routes := rfl
@[simp] theorem State.dropLock_takes (r : Req) : (s.dropLock r).takes = s.takes := rfl
@[simp] theorem State.dropLock_commits (r : Req) : (s.dropLock r).commits = s.commits := rfl
@[simp] theorem State.dropLock_salvos (r : Req) : (s.dropLock r).salvos = s.salvos := rfl
@[simp] theorem State.dropLock_outs (r : Req) : (s.dropLock r).outs = s.outs := rfl
@[simp] theorem State.dropLock_shown (r : Req) : (s.dropLock r).shown = s.shown := rfl
@[simp] theorem State.dropLock_stores (r : Req) : (s.dropLock r).stores = s.stores := rfl
@[simp] theorem State.dropLock_captures (r : Req) : (s.dropLock r).captures = s.captures := rfl
@[simp] theorem State.dropLock_benches (r : Req) : (s.dropLock r).benches = s.benches := rfl
@[simp] theorem State.dropLock_benchPlan (r : Req) : (s.dropLock r).benchPlan = s.benchPlan := rfl
@[simp] theorem State.dropLock_benchIn (r : Req) : (s.dropLock r).benchIn = s.benchIn := rfl
@[simp] theorem State.dropLock_benchMem (r : Req) : (s.dropLock r).benchMem = s.benchMem := rfl
@[simp] theorem State.dropLock_leadOld (r : Req) : (s.dropLock r).leadOld = s.leadOld := rfl
@[simp] theorem State.dropLock_leaseEnd (r : Req) : (s.dropLock r).leaseEnd = s.leaseEnd := rfl
@[simp] theorem State.dropLock_grace (r : Req) : (s.dropLock r).grace = s.grace := rfl
@[simp] theorem State.dropLock_planned (r : Req) : (s.dropLock r).planned = s.planned := rfl
@[simp] theorem State.dropLock_outSince (r : Req) : (s.dropLock r).outSince = s.outSince := rfl
@[simp] theorem State.dropLock_voters (r : Req) : (s.dropLock r).voters = s.voters := rfl
@[simp] theorem State.dropLock_grantAt (r : Req) : (s.dropLock r).grantAt = s.grantAt := rfl
@[simp] theorem State.dropLock_sluices (r : Req) : (s.dropLock r).sluices = s.sluices := rfl
@[simp] theorem State.dropLock_ring (r : Req) : (s.dropLock r).ring = s.ring := rfl
@[simp] theorem State.dropLock_envLines (r : Req) : (s.dropLock r).envLines = s.envLines := rfl
@[simp] theorem State.dropLock_sevAt (r : Req) : (s.dropLock r).sevAt = s.sevAt := rfl
@[simp] theorem State.dropLock_therm (r : Req) : (s.dropLock r).therm = s.therm := rfl
@[simp] theorem State.dropLock_txqs (r : Req) : (s.dropLock r).txqs = s.txqs := rfl
@[simp] theorem State.dropLock_lanes (r : Req) : (s.dropLock r).lanes = s.lanes := rfl
@[simp] theorem State.dropLock_nvl (r : Req) : (s.dropLock r).nvl = s.nvl := rfl
@[simp] theorem State.dropLock_bankLost (r : Req) : (s.dropLock r).bankLost = s.bankLost := rfl
@[simp] theorem State.dropLock_nvlTx (r : Req) : (s.dropLock r).nvlTx = s.nvlTx := rfl
@[simp] theorem State.dropLock_bypassQ (r : Req) : (s.dropLock r).bypassQ = s.bypassQ := rfl
@[simp] theorem State.dropLock_sdi (r : Req) : (s.dropLock r).sdi = s.sdi := rfl
@[simp] theorem State.dropLock_portPlan (r : Req) : (s.dropLock r).portPlan = s.portPlan := rfl
@[simp] theorem State.dropLock_rxFlows (r : Req) : (s.dropLock r).rxFlows = s.rxFlows := rfl
@[simp] theorem State.dropLock_txRuns (r : Req) : (s.dropLock r).txRuns = s.txRuns := rfl
@[simp] theorem State.dropLock_txFlows (r : Req) : (s.dropLock r).txFlows = s.txFlows := rfl
@[simp] theorem State.dropLock_txBufs (r : Req) : (s.dropLock r).txBufs = s.txBufs := rfl
@[simp] theorem State.dropLock_ethQ (r : Req) : (s.dropLock r).ethQ = s.ethQ := rfl
@[simp] theorem State.dropLock_macs (r : Req) : (s.dropLock r).macs = s.macs := rfl
@[simp] theorem State.dropLock_rrp (r : Req) : (s.dropLock r).rrp = s.rrp := rfl
@[simp] theorem State.dropLock_hostParked (r : Req) : (s.dropLock r).hostParked = s.hostParked := rfl
@[simp] theorem State.dropLock_tick (r : Req) : (s.dropLock r).tick = s.tick := rfl
@[simp] theorem State.dropLock_tbs (r : Req) : (s.dropLock r).tbs = s.tbs := rfl
@[simp] theorem State.dropLock_cmps (r : Req) : (s.dropLock r).cmps = s.cmps := rfl
@[simp] theorem State.dropLock_ports (r : Req) : (s.dropLock r).ports = s.ports := rfl
@[simp] theorem State.dropLock_txLatch (r : Req) : (s.dropLock r).txLatch = s.txLatch := rfl
@[simp] theorem State.dropLock_cads (r : Req) : (s.dropLock r).cads = s.cads := rfl
@[simp] theorem State.dropLock_cands (r : Req) : (s.dropLock r).cands = s.cands := rfl
@[simp] theorem State.dropLock_ref (r : Req) : (s.dropLock r).ref = s.ref := rfl
@[simp] theorem State.dropLock_trigArmed (r : Req) : (s.dropLock r).trigArmed = s.trigArmed := rfl
@[simp] theorem State.dropLock_trigSignal (r : Req) : (s.dropLock r).trigSignal = s.trigSignal := rfl
@[simp] theorem State.dropLock_audioTb (r : Req) : (s.dropLock r).audioTb = s.audioTb := rfl
@[simp] theorem State.dropLock_audioHi (r : Req) : (s.dropLock r).audioHi = s.audioHi := rfl
@[simp] theorem State.dropLock_audNext (r : Req) : (s.dropLock r).audNext = s.audNext := rfl
@[simp] theorem State.dropLock_audSrc (r : Req) : (s.dropLock r).audSrc = s.audSrc := rfl
@[simp] theorem State.dropLock_audDst (r : Req) : (s.dropLock r).audDst = s.audDst := rfl
@[simp] theorem State.dropLock_tdm (r : Req) : (s.dropLock r).tdm = s.tdm := rfl
@[simp] theorem State.dropLock_tdmOwner (r : Req) : (s.dropLock r).tdmOwner = s.tdmOwner := rfl
@[simp] theorem State.dropLock_audTimes (r : Req) : (s.dropLock r).audTimes = s.audTimes := rfl
@[simp] theorem State.dropLock_audIn (r : Req) : (s.dropLock r).audIn = s.audIn := rfl
@[simp] theorem State.dropLock_headPlan (r : Req) : (s.dropLock r).headPlan = s.headPlan := rfl
@[simp] theorem State.dropLock_tileHead (r : Req) : (s.dropLock r).tileHead = s.tileHead := rfl
@[simp] theorem State.dropLock_preHead (r : Req) : (s.dropLock r).preHead = s.preHead := rfl
@[simp] theorem State.dropLock_headRun (r : Req) : (s.dropLock r).headRun = s.headRun := rfl
@[simp] theorem State.dropLock_tiles (r : Req) : (s.dropLock r).tiles = s.tiles := rfl
@[simp] theorem State.dropLock_alyA (r : Req) : (s.dropLock r).alyA = s.alyA := rfl
@[simp] theorem State.dropLock_alyB (r : Req) : (s.dropLock r).alyB = s.alyB := rfl
@[simp] theorem State.dropLock_alyWait (r : Req) : (s.dropLock r).alyWait = s.alyWait := rfl
@[simp] theorem State.dropLock_alyLive (r : Req) : (s.dropLock r).alyLive = s.alyLive := rfl
@[simp] theorem State.dropLock_alyStore (r : Req) : (s.dropLock r).alyStore = s.alyStore := rfl
@[simp] theorem State.dropLock_hbmA (r : Req) : (s.dropLock r).hbmA = s.hbmA := rfl
@[simp] theorem State.dropLock_hbmB (r : Req) : (s.dropLock r).hbmB = s.hbmB := rfl
@[simp] theorem State.dropLock_hbmRun (r : Req) : (s.dropLock r).hbmRun = s.hbmRun := rfl
@[simp] theorem State.dropLock_hbmMax (r : Req) : (s.dropLock r).hbmMax = s.hbmMax := rfl
@[simp] theorem State.dropLock_hoppers (r : Req) : (s.dropLock r).hoppers = s.hoppers := rfl
@[simp] theorem State.dropLock_capPlan (r : Req) : (s.dropLock r).capPlan = s.capPlan := rfl
@[simp] theorem State.dropLock_sramA (r : Req) : (s.dropLock r).sramA = s.sramA := rfl
@[simp] theorem State.dropLock_sramB (r : Req) : (s.dropLock r).sramB = s.sramB := rfl
@[simp] theorem State.dropLock_hbmTempAt (r : Req) : (s.dropLock r).hbmTempAt = s.hbmTempAt := rfl
@[simp] theorem State.dropLock_audLate (r : Req) : (s.dropLock r).audLate = s.audLate := rfl
@[simp] theorem State.dropLock_waiting (r : Req) : (s.dropLock r).waiting = s.waiting := rfl
@[simp] theorem State.dropLock_grantNext (r : Req) : (s.dropLock r).grantNext = s.grantNext := rfl
@[simp] theorem State.dropLock_winBuf (r : Req) : (s.dropLock r).winBuf = s.winBuf := rfl
@[simp] theorem State.dropLock_msixOpen (r : Req) : (s.dropLock r).msixOpen = s.msixOpen := rfl
@[simp] theorem State.dropLock_msixPend (r : Req) : (s.dropLock r).msixPend = s.msixPend := rfl
@[simp] theorem State.dropLock_vecHigh (r : Req) : (s.dropLock r).vecHigh = s.vecHigh := rfl
@[simp] theorem State.dropLock_flash0 (r : Req) : (s.dropLock r).flash0 = s.flash0 := rfl
@[simp] theorem State.dropLock_flash1 (r : Req) : (s.dropLock r).flash1 = s.flash1 := rfl
@[simp] theorem State.dropLock_owners (r : Req) : (s.dropLock r).owners = s.owners := rfl
@[simp] theorem State.dropLock_svn (r : Req) : (s.dropLock r).svn = s.svn := rfl
@[simp] theorem State.dropLock_otpOk (r : Req) : (s.dropLock r).otpOk = s.otpOk := rfl
@[simp] theorem State.dropLock_loaded (r : Req) : (s.dropLock r).loaded = s.loaded := rfl
@[simp] theorem State.dropLock_updMbx (r : Req) : (s.dropLock r).updMbx = s.updMbx := rfl
@[simp] theorem State.dropLock_session (r : Req) : (s.dropLock r).session = s.session := rfl
@[simp] theorem State.dropLock_parts (r : Req) : (s.dropLock r).parts = s.parts := rfl
@[simp] theorem State.dropLock_updSide (r : Req) : (s.dropLock r).updSide = s.updSide := rfl
@[simp] theorem State.dropLock_confirming (r : Req) : (s.dropLock r).confirming = s.confirming := rfl
@[simp] theorem State.dropLock_fwHash (r : Req) : (s.dropLock r).fwHash = s.fwHash := rfl
@[simp] theorem State.dropLock_change (r : Req) : (s.dropLock r).change = s.change := rfl
@[simp] theorem State.dropLock_changeAt (r : Req) : (s.dropLock r).changeAt = s.changeAt := rfl
@[simp] theorem State.dropLock_attest (r : Req) : (s.dropLock r).attest = s.attest := rfl
@[simp] theorem State.dropLock_unlock (r : Req) : (s.dropLock r).unlock = s.unlock := rfl
@[simp] theorem State.dropLock_tempSeen (r : Req) : (s.dropLock r).tempSeen = s.tempSeen := rfl
@[simp] theorem State.dropLock_engs (r : Req) : (s.dropLock r).engs = s.engs := rfl

/-! ## setSide -/

@[simp] theorem State.setSide_pending (sd : Side) (x : SideSt) : (s.setSide sd x).pending = s.pending := by cases sd <;> rfl
@[simp] theorem State.setSide_regs (sd : Side) (x : SideSt) : (s.setSide sd x).regs = s.regs := by cases sd <;> rfl
@[simp] theorem State.setSide_rights (sd : Side) (x : SideSt) : (s.setSide sd x).rights = s.rights := by cases sd <;> rfl
@[simp] theorem State.setSide_plain7 (sd : Side) (x : SideSt) : (s.setSide sd x).plain7 = s.plain7 := by cases sd <;> rfl
@[simp] theorem State.setSide_fired (sd : Side) (x : SideSt) : (s.setSide sd x).fired = s.fired := by cases sd <;> rfl
@[simp] theorem State.setSide_out (sd : Side) (x : SideSt) : (s.setSide sd x).out = s.out := by cases sd <;> rfl
@[simp] theorem State.setSide_lastRead (sd : Side) (x : SideSt) : (s.setSide sd x).lastRead = s.lastRead := by cases sd <;> rfl
@[simp] theorem State.setSide_freeCtr (sd : Side) (x : SideSt) : (s.setSide sd x).freeCtr = s.freeCtr := by cases sd <;> rfl
@[simp] theorem State.setSide_aoReset (sd : Side) (x : SideSt) : (s.setSide sd x).aoReset = s.aoReset := by cases sd <;> rfl
@[simp] theorem State.setSide_setNow (sd : Side) (x : SideSt) : (s.setSide sd x).setNow = s.setNow := by cases sd <;> rfl
@[simp] theorem State.setSide_twins (sd : Side) (x : SideSt) : (s.setSide sd x).twins = s.twins := by cases sd <;> rfl
@[simp] theorem State.setSide_twinQ (sd : Side) (x : SideSt) : (s.setSide sd x).twinQ = s.twinQ := by cases sd <;> rfl
@[simp] theorem State.setSide_inPlan (sd : Side) (x : SideSt) : (s.setSide sd x).inPlan = s.inPlan := by cases sd <;> rfl
@[simp] theorem State.setSide_inRx (sd : Side) (x : SideSt) : (s.setSide sd x).inRx = s.inRx := by cases sd <;> rfl
@[simp] theorem State.setSide_merges (sd : Side) (x : SideSt) : (s.setSide sd x).merges = s.merges := by cases sd <;> rfl
@[simp] theorem State.setSide_feeds (sd : Side) (x : SideSt) : (s.setSide sd x).feeds = s.feeds := by cases sd <;> rfl
@[simp] theorem State.setSide_outPlan (sd : Side) (x : SideSt) : (s.setSide sd x).outPlan = s.outPlan := by cases sd <;> rfl
@[simp] theorem State.setSide_routes (sd : Side) (x : SideSt) : (s.setSide sd x).routes = s.routes := by cases sd <;> rfl
@[simp] theorem State.setSide_takes (sd : Side) (x : SideSt) : (s.setSide sd x).takes = s.takes := by cases sd <;> rfl
@[simp] theorem State.setSide_commits (sd : Side) (x : SideSt) : (s.setSide sd x).commits = s.commits := by cases sd <;> rfl
@[simp] theorem State.setSide_salvos (sd : Side) (x : SideSt) : (s.setSide sd x).salvos = s.salvos := by cases sd <;> rfl
@[simp] theorem State.setSide_outs (sd : Side) (x : SideSt) : (s.setSide sd x).outs = s.outs := by cases sd <;> rfl
@[simp] theorem State.setSide_shown (sd : Side) (x : SideSt) : (s.setSide sd x).shown = s.shown := by cases sd <;> rfl
@[simp] theorem State.setSide_stores (sd : Side) (x : SideSt) : (s.setSide sd x).stores = s.stores := by cases sd <;> rfl
@[simp] theorem State.setSide_captures (sd : Side) (x : SideSt) : (s.setSide sd x).captures = s.captures := by cases sd <;> rfl
@[simp] theorem State.setSide_benches (sd : Side) (x : SideSt) : (s.setSide sd x).benches = s.benches := by cases sd <;> rfl
@[simp] theorem State.setSide_benchPlan (sd : Side) (x : SideSt) : (s.setSide sd x).benchPlan = s.benchPlan := by cases sd <;> rfl
@[simp] theorem State.setSide_benchIn (sd : Side) (x : SideSt) : (s.setSide sd x).benchIn = s.benchIn := by cases sd <;> rfl
@[simp] theorem State.setSide_benchMem (sd : Side) (x : SideSt) : (s.setSide sd x).benchMem = s.benchMem := by cases sd <;> rfl
@[simp] theorem State.setSide_leadOld (sd : Side) (x : SideSt) : (s.setSide sd x).leadOld = s.leadOld := by cases sd <;> rfl
@[simp] theorem State.setSide_leaseEnd (sd : Side) (x : SideSt) : (s.setSide sd x).leaseEnd = s.leaseEnd := by cases sd <;> rfl
@[simp] theorem State.setSide_grace (sd : Side) (x : SideSt) : (s.setSide sd x).grace = s.grace := by cases sd <;> rfl
@[simp] theorem State.setSide_planned (sd : Side) (x : SideSt) : (s.setSide sd x).planned = s.planned := by cases sd <;> rfl
@[simp] theorem State.setSide_outSince (sd : Side) (x : SideSt) : (s.setSide sd x).outSince = s.outSince := by cases sd <;> rfl
@[simp] theorem State.setSide_voters (sd : Side) (x : SideSt) : (s.setSide sd x).voters = s.voters := by cases sd <;> rfl
@[simp] theorem State.setSide_grantAt (sd : Side) (x : SideSt) : (s.setSide sd x).grantAt = s.grantAt := by cases sd <;> rfl
@[simp] theorem State.setSide_sluices (sd : Side) (x : SideSt) : (s.setSide sd x).sluices = s.sluices := by cases sd <;> rfl
@[simp] theorem State.setSide_ring (sd : Side) (x : SideSt) : (s.setSide sd x).ring = s.ring := by cases sd <;> rfl
@[simp] theorem State.setSide_envLines (sd : Side) (x : SideSt) : (s.setSide sd x).envLines = s.envLines := by cases sd <;> rfl
@[simp] theorem State.setSide_sevAt (sd : Side) (x : SideSt) : (s.setSide sd x).sevAt = s.sevAt := by cases sd <;> rfl
@[simp] theorem State.setSide_therm (sd : Side) (x : SideSt) : (s.setSide sd x).therm = s.therm := by cases sd <;> rfl
@[simp] theorem State.setSide_txqs (sd : Side) (x : SideSt) : (s.setSide sd x).txqs = s.txqs := by cases sd <;> rfl
@[simp] theorem State.setSide_lanes (sd : Side) (x : SideSt) : (s.setSide sd x).lanes = s.lanes := by cases sd <;> rfl
@[simp] theorem State.setSide_nvl (sd : Side) (x : SideSt) : (s.setSide sd x).nvl = s.nvl := by cases sd <;> rfl
@[simp] theorem State.setSide_bankLost (sd : Side) (x : SideSt) : (s.setSide sd x).bankLost = s.bankLost := by cases sd <;> rfl
@[simp] theorem State.setSide_nvlTx (sd : Side) (x : SideSt) : (s.setSide sd x).nvlTx = s.nvlTx := by cases sd <;> rfl
@[simp] theorem State.setSide_bypassQ (sd : Side) (x : SideSt) : (s.setSide sd x).bypassQ = s.bypassQ := by cases sd <;> rfl
@[simp] theorem State.setSide_sdi (sd : Side) (x : SideSt) : (s.setSide sd x).sdi = s.sdi := by cases sd <;> rfl
@[simp] theorem State.setSide_portPlan (sd : Side) (x : SideSt) : (s.setSide sd x).portPlan = s.portPlan := by cases sd <;> rfl
@[simp] theorem State.setSide_rxFlows (sd : Side) (x : SideSt) : (s.setSide sd x).rxFlows = s.rxFlows := by cases sd <;> rfl
@[simp] theorem State.setSide_txRuns (sd : Side) (x : SideSt) : (s.setSide sd x).txRuns = s.txRuns := by cases sd <;> rfl
@[simp] theorem State.setSide_txFlows (sd : Side) (x : SideSt) : (s.setSide sd x).txFlows = s.txFlows := by cases sd <;> rfl
@[simp] theorem State.setSide_txBufs (sd : Side) (x : SideSt) : (s.setSide sd x).txBufs = s.txBufs := by cases sd <;> rfl
@[simp] theorem State.setSide_ethQ (sd : Side) (x : SideSt) : (s.setSide sd x).ethQ = s.ethQ := by cases sd <;> rfl
@[simp] theorem State.setSide_macs (sd : Side) (x : SideSt) : (s.setSide sd x).macs = s.macs := by cases sd <;> rfl
@[simp] theorem State.setSide_rrp (sd : Side) (x : SideSt) : (s.setSide sd x).rrp = s.rrp := by cases sd <;> rfl
@[simp] theorem State.setSide_hostParked (sd : Side) (x : SideSt) : (s.setSide sd x).hostParked = s.hostParked := by cases sd <;> rfl
@[simp] theorem State.setSide_tick (sd : Side) (x : SideSt) : (s.setSide sd x).tick = s.tick := by cases sd <;> rfl
@[simp] theorem State.setSide_tbs (sd : Side) (x : SideSt) : (s.setSide sd x).tbs = s.tbs := by cases sd <;> rfl
@[simp] theorem State.setSide_cmps (sd : Side) (x : SideSt) : (s.setSide sd x).cmps = s.cmps := by cases sd <;> rfl
@[simp] theorem State.setSide_ports (sd : Side) (x : SideSt) : (s.setSide sd x).ports = s.ports := by cases sd <;> rfl
@[simp] theorem State.setSide_txLatch (sd : Side) (x : SideSt) : (s.setSide sd x).txLatch = s.txLatch := by cases sd <;> rfl
@[simp] theorem State.setSide_cads (sd : Side) (x : SideSt) : (s.setSide sd x).cads = s.cads := by cases sd <;> rfl
@[simp] theorem State.setSide_cands (sd : Side) (x : SideSt) : (s.setSide sd x).cands = s.cands := by cases sd <;> rfl
@[simp] theorem State.setSide_ref (sd : Side) (x : SideSt) : (s.setSide sd x).ref = s.ref := by cases sd <;> rfl
@[simp] theorem State.setSide_trigArmed (sd : Side) (x : SideSt) : (s.setSide sd x).trigArmed = s.trigArmed := by cases sd <;> rfl
@[simp] theorem State.setSide_trigSignal (sd : Side) (x : SideSt) : (s.setSide sd x).trigSignal = s.trigSignal := by cases sd <;> rfl
@[simp] theorem State.setSide_audioTb (sd : Side) (x : SideSt) : (s.setSide sd x).audioTb = s.audioTb := by cases sd <;> rfl
@[simp] theorem State.setSide_audioHi (sd : Side) (x : SideSt) : (s.setSide sd x).audioHi = s.audioHi := by cases sd <;> rfl
@[simp] theorem State.setSide_audNext (sd : Side) (x : SideSt) : (s.setSide sd x).audNext = s.audNext := by cases sd <;> rfl
@[simp] theorem State.setSide_audSrc (sd : Side) (x : SideSt) : (s.setSide sd x).audSrc = s.audSrc := by cases sd <;> rfl
@[simp] theorem State.setSide_audDst (sd : Side) (x : SideSt) : (s.setSide sd x).audDst = s.audDst := by cases sd <;> rfl
@[simp] theorem State.setSide_tdm (sd : Side) (x : SideSt) : (s.setSide sd x).tdm = s.tdm := by cases sd <;> rfl
@[simp] theorem State.setSide_tdmOwner (sd : Side) (x : SideSt) : (s.setSide sd x).tdmOwner = s.tdmOwner := by cases sd <;> rfl
@[simp] theorem State.setSide_audTimes (sd : Side) (x : SideSt) : (s.setSide sd x).audTimes = s.audTimes := by cases sd <;> rfl
@[simp] theorem State.setSide_audIn (sd : Side) (x : SideSt) : (s.setSide sd x).audIn = s.audIn := by cases sd <;> rfl
@[simp] theorem State.setSide_headPlan (sd : Side) (x : SideSt) : (s.setSide sd x).headPlan = s.headPlan := by cases sd <;> rfl
@[simp] theorem State.setSide_tileHead (sd : Side) (x : SideSt) : (s.setSide sd x).tileHead = s.tileHead := by cases sd <;> rfl
@[simp] theorem State.setSide_preHead (sd : Side) (x : SideSt) : (s.setSide sd x).preHead = s.preHead := by cases sd <;> rfl
@[simp] theorem State.setSide_headRun (sd : Side) (x : SideSt) : (s.setSide sd x).headRun = s.headRun := by cases sd <;> rfl
@[simp] theorem State.setSide_tiles (sd : Side) (x : SideSt) : (s.setSide sd x).tiles = s.tiles := by cases sd <;> rfl
@[simp] theorem State.setSide_alyA (sd : Side) (x : SideSt) : (s.setSide sd x).alyA = s.alyA := by cases sd <;> rfl
@[simp] theorem State.setSide_alyB (sd : Side) (x : SideSt) : (s.setSide sd x).alyB = s.alyB := by cases sd <;> rfl
@[simp] theorem State.setSide_alyWait (sd : Side) (x : SideSt) : (s.setSide sd x).alyWait = s.alyWait := by cases sd <;> rfl
@[simp] theorem State.setSide_alyLive (sd : Side) (x : SideSt) : (s.setSide sd x).alyLive = s.alyLive := by cases sd <;> rfl
@[simp] theorem State.setSide_alyStore (sd : Side) (x : SideSt) : (s.setSide sd x).alyStore = s.alyStore := by cases sd <;> rfl
@[simp] theorem State.setSide_hbmA (sd : Side) (x : SideSt) : (s.setSide sd x).hbmA = s.hbmA := by cases sd <;> rfl
@[simp] theorem State.setSide_hbmB (sd : Side) (x : SideSt) : (s.setSide sd x).hbmB = s.hbmB := by cases sd <;> rfl
@[simp] theorem State.setSide_hbmRun (sd : Side) (x : SideSt) : (s.setSide sd x).hbmRun = s.hbmRun := by cases sd <;> rfl
@[simp] theorem State.setSide_hbmMax (sd : Side) (x : SideSt) : (s.setSide sd x).hbmMax = s.hbmMax := by cases sd <;> rfl
@[simp] theorem State.setSide_hoppers (sd : Side) (x : SideSt) : (s.setSide sd x).hoppers = s.hoppers := by cases sd <;> rfl
@[simp] theorem State.setSide_capPlan (sd : Side) (x : SideSt) : (s.setSide sd x).capPlan = s.capPlan := by cases sd <;> rfl
@[simp] theorem State.setSide_sramA (sd : Side) (x : SideSt) : (s.setSide sd x).sramA = s.sramA := by cases sd <;> rfl
@[simp] theorem State.setSide_sramB (sd : Side) (x : SideSt) : (s.setSide sd x).sramB = s.sramB := by cases sd <;> rfl
@[simp] theorem State.setSide_hbmTempAt (sd : Side) (x : SideSt) : (s.setSide sd x).hbmTempAt = s.hbmTempAt := by cases sd <;> rfl
@[simp] theorem State.setSide_audLate (sd : Side) (x : SideSt) : (s.setSide sd x).audLate = s.audLate := by cases sd <;> rfl
@[simp] theorem State.setSide_locks (sd : Side) (x : SideSt) : (s.setSide sd x).locks = s.locks := by cases sd <;> rfl
@[simp] theorem State.setSide_waiting (sd : Side) (x : SideSt) : (s.setSide sd x).waiting = s.waiting := by cases sd <;> rfl
@[simp] theorem State.setSide_grantNext (sd : Side) (x : SideSt) : (s.setSide sd x).grantNext = s.grantNext := by cases sd <;> rfl
@[simp] theorem State.setSide_winBuf (sd : Side) (x : SideSt) : (s.setSide sd x).winBuf = s.winBuf := by cases sd <;> rfl
@[simp] theorem State.setSide_msixOpen (sd : Side) (x : SideSt) : (s.setSide sd x).msixOpen = s.msixOpen := by cases sd <;> rfl
@[simp] theorem State.setSide_msixPend (sd : Side) (x : SideSt) : (s.setSide sd x).msixPend = s.msixPend := by cases sd <;> rfl
@[simp] theorem State.setSide_vecHigh (sd : Side) (x : SideSt) : (s.setSide sd x).vecHigh = s.vecHigh := by cases sd <;> rfl
@[simp] theorem State.setSide_flash0 (sd : Side) (x : SideSt) : (s.setSide sd x).flash0 = s.flash0 := by cases sd <;> rfl
@[simp] theorem State.setSide_flash1 (sd : Side) (x : SideSt) : (s.setSide sd x).flash1 = s.flash1 := by cases sd <;> rfl
@[simp] theorem State.setSide_owners (sd : Side) (x : SideSt) : (s.setSide sd x).owners = s.owners := by cases sd <;> rfl
@[simp] theorem State.setSide_svn (sd : Side) (x : SideSt) : (s.setSide sd x).svn = s.svn := by cases sd <;> rfl
@[simp] theorem State.setSide_otpOk (sd : Side) (x : SideSt) : (s.setSide sd x).otpOk = s.otpOk := by cases sd <;> rfl
@[simp] theorem State.setSide_loaded (sd : Side) (x : SideSt) : (s.setSide sd x).loaded = s.loaded := by cases sd <;> rfl
@[simp] theorem State.setSide_updMbx (sd : Side) (x : SideSt) : (s.setSide sd x).updMbx = s.updMbx := by cases sd <;> rfl
@[simp] theorem State.setSide_session (sd : Side) (x : SideSt) : (s.setSide sd x).session = s.session := by cases sd <;> rfl
@[simp] theorem State.setSide_parts (sd : Side) (x : SideSt) : (s.setSide sd x).parts = s.parts := by cases sd <;> rfl
@[simp] theorem State.setSide_updSide (sd : Side) (x : SideSt) : (s.setSide sd x).updSide = s.updSide := by cases sd <;> rfl
@[simp] theorem State.setSide_confirming (sd : Side) (x : SideSt) : (s.setSide sd x).confirming = s.confirming := by cases sd <;> rfl
@[simp] theorem State.setSide_fwHash (sd : Side) (x : SideSt) : (s.setSide sd x).fwHash = s.fwHash := by cases sd <;> rfl
@[simp] theorem State.setSide_change (sd : Side) (x : SideSt) : (s.setSide sd x).change = s.change := by cases sd <;> rfl
@[simp] theorem State.setSide_changeAt (sd : Side) (x : SideSt) : (s.setSide sd x).changeAt = s.changeAt := by cases sd <;> rfl
@[simp] theorem State.setSide_attest (sd : Side) (x : SideSt) : (s.setSide sd x).attest = s.attest := by cases sd <;> rfl
@[simp] theorem State.setSide_unlock (sd : Side) (x : SideSt) : (s.setSide sd x).unlock = s.unlock := by cases sd <;> rfl
@[simp] theorem State.setSide_tempSeen (sd : Side) (x : SideSt) : (s.setSide sd x).tempSeen = s.tempSeen := by cases sd <;> rfl
@[simp] theorem State.setSide_engs (sd : Side) (x : SideSt) : (s.setSide sd x).engs = s.engs := by cases sd <;> rfl

@[simp] theorem State.side_setSide (sd sd' : Side) (x : SideSt) : (s.setSide sd x).side sd' = if sd' = sd then x else s.side sd' := by
  cases sd <;> cases sd' <;> rfl

/-! ## The updates that raise events or count: registers, fired sources and what this tick has set change, and nothing else -/

theorem State.setSource_eq (e : Nat) :
    s.setSource e = { s with regs := (s.setSource e).regs, fired := (s.setSource e).fired } := by
  unfold State.setSource
  dsimp only
  split
  · rfl
  · split <;> rfl

theorem State.evtOfRise_eq (k : RegKey) (old new : W32) :
    s.evtOfRise k old new = { s with regs := (s.evtOfRise k old new).regs, fired := (s.evtOfRise k old new).fired } := by
  unfold State.evtOfRise
  split
  · split
    · rfl
    · exact s.setSource_eq _
  · split
    · exact s.setSource_eq _
    · rfl
  · rfl

theorem State.note_eq (k : RegKey) (v : W32) : s.note k v = { s with setNow := (s.note k v).setNow } := by
  unfold State.note
  split <;> rfl

theorem State.addSat_eq (k : RegKey) (f : Fld) (n : Nat) :
    s.addSat k f n = { s with regs := (s.addSat k f n).regs, setNow := (s.addSat k f n).setNow } := by
  unfold State.addSat State.note
  dsimp only
  split <;> rfl

theorem State.addWrap_eq (k : RegKey) (n : Nat) :
    s.addWrap k n = { s with regs := (s.addWrap k n).regs, setNow := (s.addWrap k n).setNow } := by
  unfold State.addWrap State.note
  split <;> rfl

theorem State.raiseW_eq (k : RegKey) (b : W32) :
    s.raiseW k b = { s with regs := (s.raiseW k b).regs, fired := (s.raiseW k b).fired, setNow := (s.raiseW k b).setNow } := by
  unfold State.raiseW
  dsimp only
  rw [State.evtOfRise_eq, State.note_eq]
  rfl

theorem State.raise_eq (k : RegKey) (f : Fld) :
    s.raise k f = { s with regs := (s.raise k f).regs, fired := (s.raise k f).fired, setNow := (s.raise k f).setNow } := s.raiseW_eq k _

theorem State.raiseIf_eq (c : Bool) (k : RegKey) (f : Fld) :
    s.raiseIf c k f = { s with regs := (s.raiseIf c k f).regs, fired := (s.raiseIf c k f).fired, setNow := (s.raiseIf c k f).setNow } := by
  cases c
  · rfl
  · exact s.raise_eq k f

theorem State.denied_eq (r : Req) (w : Bool) (a : Nat) :
    s.denied r w a = { s with regs := (s.denied r w a).regs, fired := (s.denied r w a).fired, setNow := (s.denied r w a).setNow } := by
  unfold State.denied
  dsimp only
  split
  · exact s.raiseW_eq _ _
  · exact State.raiseW_eq (s.wr _ _) _ _

@[simp] theorem State.note_pending (k : RegKey) (v : W32) : (s.note k v).pending = s.pending := by rw [State.note_eq]
@[simp] theorem State.note_regs (k : RegKey) (v : W32) : (s.note k v).regs = s.regs := by rw [State.note_eq]
@[simp] theorem State.note_sideA (k : RegKey) (v : W32) : (s.note k v).sideA = s.sideA := by rw [State.note_eq]
@[simp] theorem State.note_sideB (k : RegKey) (v : W32) : (s.note k v).sideB = s.sideB := by rw [State.note_eq]
@[simp] theorem State.note_rights (k : RegKey) (v : W32) : (s.note k v).rights = s.rights := by rw [State.note_eq]
@[simp] theorem State.note_plain7 (k : RegKey) (v : W32) : (s.note k v).plain7 = s.plain7 := by rw [State.note_eq]
@[simp] theorem State.note_fired (k : RegKey) (v : W32) : (s.note k v).fired = s.fired := by rw [State.note_eq]
@[simp] theorem State.note_out (k : RegKey) (v : W32) : (s.note k v).out = s.out := by rw [State.note_eq]
@[simp] theorem State.note_lastRead (k : RegKey) (v : W32) : (s.note k v).lastRead = s.lastRead := by rw [State.note_eq]
@[simp] theorem State.note_freeCtr (k : RegKey) (v : W32) : (s.note k v).freeCtr = s.freeCtr := by rw [State.note_eq]
@[simp] theorem State.note_aoReset (k : RegKey) (v : W32) : (s.note k v).aoReset = s.aoReset := by rw [State.note_eq]
@[simp] theorem State.note_twins (k : RegKey) (v : W32) : (s.note k v).twins = s.twins := by rw [State.note_eq]
@[simp] theorem State.note_twinQ (k : RegKey) (v : W32) : (s.note k v).twinQ = s.twinQ := by rw [State.note_eq]
@[simp] theorem State.note_inPlan (k : RegKey) (v : W32) : (s.note k v).inPlan = s.inPlan := by rw [State.note_eq]
@[simp] theorem State.note_inRx (k : RegKey) (v : W32) : (s.note k v).inRx = s.inRx := by rw [State.note_eq]
@[simp] theorem State.note_merges (k : RegKey) (v : W32) : (s.note k v).merges = s.merges := by rw [State.note_eq]
@[simp] theorem State.note_feeds (k : RegKey) (v : W32) : (s.note k v).feeds = s.feeds := by rw [State.note_eq]
@[simp] theorem State.note_outPlan (k : RegKey) (v : W32) : (s.note k v).outPlan = s.outPlan := by rw [State.note_eq]
@[simp] theorem State.note_routes (k : RegKey) (v : W32) : (s.note k v).routes = s.routes := by rw [State.note_eq]
@[simp] theorem State.note_takes (k : RegKey) (v : W32) : (s.note k v).takes = s.takes := by rw [State.note_eq]
@[simp] theorem State.note_commits (k : RegKey) (v : W32) : (s.note k v).commits = s.commits := by rw [State.note_eq]
@[simp] theorem State.note_salvos (k : RegKey) (v : W32) : (s.note k v).salvos = s.salvos := by rw [State.note_eq]
@[simp] theorem State.note_outs (k : RegKey) (v : W32) : (s.note k v).outs = s.outs := by rw [State.note_eq]
@[simp] theorem State.note_shown (k : RegKey) (v : W32) : (s.note k v).shown = s.shown := by rw [State.note_eq]
@[simp] theorem State.note_stores (k : RegKey) (v : W32) : (s.note k v).stores = s.stores := by rw [State.note_eq]
@[simp] theorem State.note_captures (k : RegKey) (v : W32) : (s.note k v).captures = s.captures := by rw [State.note_eq]
@[simp] theorem State.note_benches (k : RegKey) (v : W32) : (s.note k v).benches = s.benches := by rw [State.note_eq]
@[simp] theorem State.note_benchPlan (k : RegKey) (v : W32) : (s.note k v).benchPlan = s.benchPlan := by rw [State.note_eq]
@[simp] theorem State.note_benchIn (k : RegKey) (v : W32) : (s.note k v).benchIn = s.benchIn := by rw [State.note_eq]
@[simp] theorem State.note_benchMem (k : RegKey) (v : W32) : (s.note k v).benchMem = s.benchMem := by rw [State.note_eq]
@[simp] theorem State.note_leadOld (k : RegKey) (v : W32) : (s.note k v).leadOld = s.leadOld := by rw [State.note_eq]
@[simp] theorem State.note_leaseEnd (k : RegKey) (v : W32) : (s.note k v).leaseEnd = s.leaseEnd := by rw [State.note_eq]
@[simp] theorem State.note_grace (k : RegKey) (v : W32) : (s.note k v).grace = s.grace := by rw [State.note_eq]
@[simp] theorem State.note_planned (k : RegKey) (v : W32) : (s.note k v).planned = s.planned := by rw [State.note_eq]
@[simp] theorem State.note_outSince (k : RegKey) (v : W32) : (s.note k v).outSince = s.outSince := by rw [State.note_eq]
@[simp] theorem State.note_voters (k : RegKey) (v : W32) : (s.note k v).voters = s.voters := by rw [State.note_eq]
@[simp] theorem State.note_grantAt (k : RegKey) (v : W32) : (s.note k v).grantAt = s.grantAt := by rw [State.note_eq]
@[simp] theorem State.note_sluices (k : RegKey) (v : W32) : (s.note k v).sluices = s.sluices := by rw [State.note_eq]
@[simp] theorem State.note_ring (k : RegKey) (v : W32) : (s.note k v).ring = s.ring := by rw [State.note_eq]
@[simp] theorem State.note_envLines (k : RegKey) (v : W32) : (s.note k v).envLines = s.envLines := by rw [State.note_eq]
@[simp] theorem State.note_sevAt (k : RegKey) (v : W32) : (s.note k v).sevAt = s.sevAt := by rw [State.note_eq]
@[simp] theorem State.note_therm (k : RegKey) (v : W32) : (s.note k v).therm = s.therm := by rw [State.note_eq]
@[simp] theorem State.note_txqs (k : RegKey) (v : W32) : (s.note k v).txqs = s.txqs := by rw [State.note_eq]
@[simp] theorem State.note_lanes (k : RegKey) (v : W32) : (s.note k v).lanes = s.lanes := by rw [State.note_eq]
@[simp] theorem State.note_nvl (k : RegKey) (v : W32) : (s.note k v).nvl = s.nvl := by rw [State.note_eq]
@[simp] theorem State.note_bankLost (k : RegKey) (v : W32) : (s.note k v).bankLost = s.bankLost := by rw [State.note_eq]
@[simp] theorem State.note_nvlTx (k : RegKey) (v : W32) : (s.note k v).nvlTx = s.nvlTx := by rw [State.note_eq]
@[simp] theorem State.note_bypassQ (k : RegKey) (v : W32) : (s.note k v).bypassQ = s.bypassQ := by rw [State.note_eq]
@[simp] theorem State.note_sdi (k : RegKey) (v : W32) : (s.note k v).sdi = s.sdi := by rw [State.note_eq]
@[simp] theorem State.note_portPlan (k : RegKey) (v : W32) : (s.note k v).portPlan = s.portPlan := by rw [State.note_eq]
@[simp] theorem State.note_rxFlows (k : RegKey) (v : W32) : (s.note k v).rxFlows = s.rxFlows := by rw [State.note_eq]
@[simp] theorem State.note_txRuns (k : RegKey) (v : W32) : (s.note k v).txRuns = s.txRuns := by rw [State.note_eq]
@[simp] theorem State.note_txFlows (k : RegKey) (v : W32) : (s.note k v).txFlows = s.txFlows := by rw [State.note_eq]
@[simp] theorem State.note_txBufs (k : RegKey) (v : W32) : (s.note k v).txBufs = s.txBufs := by rw [State.note_eq]
@[simp] theorem State.note_ethQ (k : RegKey) (v : W32) : (s.note k v).ethQ = s.ethQ := by rw [State.note_eq]
@[simp] theorem State.note_macs (k : RegKey) (v : W32) : (s.note k v).macs = s.macs := by rw [State.note_eq]
@[simp] theorem State.note_rrp (k : RegKey) (v : W32) : (s.note k v).rrp = s.rrp := by rw [State.note_eq]
@[simp] theorem State.note_hostParked (k : RegKey) (v : W32) : (s.note k v).hostParked = s.hostParked := by rw [State.note_eq]
@[simp] theorem State.note_tick (k : RegKey) (v : W32) : (s.note k v).tick = s.tick := by rw [State.note_eq]
@[simp] theorem State.note_tbs (k : RegKey) (v : W32) : (s.note k v).tbs = s.tbs := by rw [State.note_eq]
@[simp] theorem State.note_cmps (k : RegKey) (v : W32) : (s.note k v).cmps = s.cmps := by rw [State.note_eq]
@[simp] theorem State.note_ports (k : RegKey) (v : W32) : (s.note k v).ports = s.ports := by rw [State.note_eq]
@[simp] theorem State.note_txLatch (k : RegKey) (v : W32) : (s.note k v).txLatch = s.txLatch := by rw [State.note_eq]
@[simp] theorem State.note_cads (k : RegKey) (v : W32) : (s.note k v).cads = s.cads := by rw [State.note_eq]
@[simp] theorem State.note_cands (k : RegKey) (v : W32) : (s.note k v).cands = s.cands := by rw [State.note_eq]
@[simp] theorem State.note_ref (k : RegKey) (v : W32) : (s.note k v).ref = s.ref := by rw [State.note_eq]
@[simp] theorem State.note_trigArmed (k : RegKey) (v : W32) : (s.note k v).trigArmed = s.trigArmed := by rw [State.note_eq]
@[simp] theorem State.note_trigSignal (k : RegKey) (v : W32) : (s.note k v).trigSignal = s.trigSignal := by rw [State.note_eq]
@[simp] theorem State.note_audioTb (k : RegKey) (v : W32) : (s.note k v).audioTb = s.audioTb := by rw [State.note_eq]
@[simp] theorem State.note_audioHi (k : RegKey) (v : W32) : (s.note k v).audioHi = s.audioHi := by rw [State.note_eq]
@[simp] theorem State.note_audNext (k : RegKey) (v : W32) : (s.note k v).audNext = s.audNext := by rw [State.note_eq]
@[simp] theorem State.note_audSrc (k : RegKey) (v : W32) : (s.note k v).audSrc = s.audSrc := by rw [State.note_eq]
@[simp] theorem State.note_audDst (k : RegKey) (v : W32) : (s.note k v).audDst = s.audDst := by rw [State.note_eq]
@[simp] theorem State.note_tdm (k : RegKey) (v : W32) : (s.note k v).tdm = s.tdm := by rw [State.note_eq]
@[simp] theorem State.note_tdmOwner (k : RegKey) (v : W32) : (s.note k v).tdmOwner = s.tdmOwner := by rw [State.note_eq]
@[simp] theorem State.note_audTimes (k : RegKey) (v : W32) : (s.note k v).audTimes = s.audTimes := by rw [State.note_eq]
@[simp] theorem State.note_audIn (k : RegKey) (v : W32) : (s.note k v).audIn = s.audIn := by rw [State.note_eq]
@[simp] theorem State.note_headPlan (k : RegKey) (v : W32) : (s.note k v).headPlan = s.headPlan := by rw [State.note_eq]
@[simp] theorem State.note_tileHead (k : RegKey) (v : W32) : (s.note k v).tileHead = s.tileHead := by rw [State.note_eq]
@[simp] theorem State.note_preHead (k : RegKey) (v : W32) : (s.note k v).preHead = s.preHead := by rw [State.note_eq]
@[simp] theorem State.note_headRun (k : RegKey) (v : W32) : (s.note k v).headRun = s.headRun := by rw [State.note_eq]
@[simp] theorem State.note_tiles (k : RegKey) (v : W32) : (s.note k v).tiles = s.tiles := by rw [State.note_eq]
@[simp] theorem State.note_alyA (k : RegKey) (v : W32) : (s.note k v).alyA = s.alyA := by rw [State.note_eq]
@[simp] theorem State.note_alyB (k : RegKey) (v : W32) : (s.note k v).alyB = s.alyB := by rw [State.note_eq]
@[simp] theorem State.note_alyWait (k : RegKey) (v : W32) : (s.note k v).alyWait = s.alyWait := by rw [State.note_eq]
@[simp] theorem State.note_alyLive (k : RegKey) (v : W32) : (s.note k v).alyLive = s.alyLive := by rw [State.note_eq]
@[simp] theorem State.note_alyStore (k : RegKey) (v : W32) : (s.note k v).alyStore = s.alyStore := by rw [State.note_eq]
@[simp] theorem State.note_hbmA (k : RegKey) (v : W32) : (s.note k v).hbmA = s.hbmA := by rw [State.note_eq]
@[simp] theorem State.note_hbmB (k : RegKey) (v : W32) : (s.note k v).hbmB = s.hbmB := by rw [State.note_eq]
@[simp] theorem State.note_hbmRun (k : RegKey) (v : W32) : (s.note k v).hbmRun = s.hbmRun := by rw [State.note_eq]
@[simp] theorem State.note_hbmMax (k : RegKey) (v : W32) : (s.note k v).hbmMax = s.hbmMax := by rw [State.note_eq]
@[simp] theorem State.note_hoppers (k : RegKey) (v : W32) : (s.note k v).hoppers = s.hoppers := by rw [State.note_eq]
@[simp] theorem State.note_capPlan (k : RegKey) (v : W32) : (s.note k v).capPlan = s.capPlan := by rw [State.note_eq]
@[simp] theorem State.note_sramA (k : RegKey) (v : W32) : (s.note k v).sramA = s.sramA := by rw [State.note_eq]
@[simp] theorem State.note_sramB (k : RegKey) (v : W32) : (s.note k v).sramB = s.sramB := by rw [State.note_eq]
@[simp] theorem State.note_hbmTempAt (k : RegKey) (v : W32) : (s.note k v).hbmTempAt = s.hbmTempAt := by rw [State.note_eq]
@[simp] theorem State.note_audLate (k : RegKey) (v : W32) : (s.note k v).audLate = s.audLate := by rw [State.note_eq]
@[simp] theorem State.note_locks (k : RegKey) (v : W32) : (s.note k v).locks = s.locks := by rw [State.note_eq]
@[simp] theorem State.note_waiting (k : RegKey) (v : W32) : (s.note k v).waiting = s.waiting := by rw [State.note_eq]
@[simp] theorem State.note_grantNext (k : RegKey) (v : W32) : (s.note k v).grantNext = s.grantNext := by rw [State.note_eq]
@[simp] theorem State.note_winBuf (k : RegKey) (v : W32) : (s.note k v).winBuf = s.winBuf := by rw [State.note_eq]
@[simp] theorem State.note_msixOpen (k : RegKey) (v : W32) : (s.note k v).msixOpen = s.msixOpen := by rw [State.note_eq]
@[simp] theorem State.note_msixPend (k : RegKey) (v : W32) : (s.note k v).msixPend = s.msixPend := by rw [State.note_eq]
@[simp] theorem State.note_vecHigh (k : RegKey) (v : W32) : (s.note k v).vecHigh = s.vecHigh := by rw [State.note_eq]
@[simp] theorem State.note_flash0 (k : RegKey) (v : W32) : (s.note k v).flash0 = s.flash0 := by rw [State.note_eq]
@[simp] theorem State.note_flash1 (k : RegKey) (v : W32) : (s.note k v).flash1 = s.flash1 := by rw [State.note_eq]
@[simp] theorem State.note_owners (k : RegKey) (v : W32) : (s.note k v).owners = s.owners := by rw [State.note_eq]
@[simp] theorem State.note_svn (k : RegKey) (v : W32) : (s.note k v).svn = s.svn := by rw [State.note_eq]
@[simp] theorem State.note_otpOk (k : RegKey) (v : W32) : (s.note k v).otpOk = s.otpOk := by rw [State.note_eq]
@[simp] theorem State.note_loaded (k : RegKey) (v : W32) : (s.note k v).loaded = s.loaded := by rw [State.note_eq]
@[simp] theorem State.note_updMbx (k : RegKey) (v : W32) : (s.note k v).updMbx = s.updMbx := by rw [State.note_eq]
@[simp] theorem State.note_session (k : RegKey) (v : W32) : (s.note k v).session = s.session := by rw [State.note_eq]
@[simp] theorem State.note_parts (k : RegKey) (v : W32) : (s.note k v).parts = s.parts := by rw [State.note_eq]
@[simp] theorem State.note_updSide (k : RegKey) (v : W32) : (s.note k v).updSide = s.updSide := by rw [State.note_eq]
@[simp] theorem State.note_confirming (k : RegKey) (v : W32) : (s.note k v).confirming = s.confirming := by rw [State.note_eq]
@[simp] theorem State.note_fwHash (k : RegKey) (v : W32) : (s.note k v).fwHash = s.fwHash := by rw [State.note_eq]
@[simp] theorem State.note_change (k : RegKey) (v : W32) : (s.note k v).change = s.change := by rw [State.note_eq]
@[simp] theorem State.note_changeAt (k : RegKey) (v : W32) : (s.note k v).changeAt = s.changeAt := by rw [State.note_eq]
@[simp] theorem State.note_attest (k : RegKey) (v : W32) : (s.note k v).attest = s.attest := by rw [State.note_eq]
@[simp] theorem State.note_unlock (k : RegKey) (v : W32) : (s.note k v).unlock = s.unlock := by rw [State.note_eq]
@[simp] theorem State.note_tempSeen (k : RegKey) (v : W32) : (s.note k v).tempSeen = s.tempSeen := by rw [State.note_eq]
@[simp] theorem State.note_engs (k : RegKey) (v : W32) : (s.note k v).engs = s.engs := by rw [State.note_eq]

@[simp] theorem State.addSat_pending (k : RegKey) (f : Fld) (n : Nat) : (s.addSat k f n).pending = s.pending := by rw [State.addSat_eq]
@[simp] theorem State.addSat_sideA (k : RegKey) (f : Fld) (n : Nat) : (s.addSat k f n).sideA = s.sideA := by rw [State.addSat_eq]
@[simp] theorem State.addSat_sideB (k : RegKey) (f : Fld) (n : Nat) : (s.addSat k f n).sideB = s.sideB := by rw [State.addSat_eq]
@[simp] theorem State.addSat_rights (k : RegKey) (f : Fld) (n : Nat) : (s.addSat k f n).rights = s.rights := by rw [State.addSat_eq]
@[simp] theorem State.addSat_plain7 (k : RegKey) (f : Fld) (n : Nat) : (s.addSat k f n).plain7 = s.plain7 := by rw [State.addSat_eq]
@[simp] theorem State.addSat_fired (k : RegKey) (f : Fld) (n : Nat) : (s.addSat k f n).fired = s.fired := by rw [State.addSat_eq]
@[simp] theorem State.addSat_out (k : RegKey) (f : Fld) (n : Nat) : (s.addSat k f n).out = s.out := by rw [State.addSat_eq]
@[simp] theorem State.addSat_lastRead (k : RegKey) (f : Fld) (n : Nat) : (s.addSat k f n).lastRead = s.lastRead := by rw [State.addSat_eq]
@[simp] theorem State.addSat_freeCtr (k : RegKey) (f : Fld) (n : Nat) : (s.addSat k f n).freeCtr = s.freeCtr := by rw [State.addSat_eq]
@[simp] theorem State.addSat_aoReset (k : RegKey) (f : Fld) (n : Nat) : (s.addSat k f n).aoReset = s.aoReset := by rw [State.addSat_eq]
@[simp] theorem State.addSat_twins (k : RegKey) (f : Fld) (n : Nat) : (s.addSat k f n).twins = s.twins := by rw [State.addSat_eq]
@[simp] theorem State.addSat_twinQ (k : RegKey) (f : Fld) (n : Nat) : (s.addSat k f n).twinQ = s.twinQ := by rw [State.addSat_eq]
@[simp] theorem State.addSat_inPlan (k : RegKey) (f : Fld) (n : Nat) : (s.addSat k f n).inPlan = s.inPlan := by rw [State.addSat_eq]
@[simp] theorem State.addSat_inRx (k : RegKey) (f : Fld) (n : Nat) : (s.addSat k f n).inRx = s.inRx := by rw [State.addSat_eq]
@[simp] theorem State.addSat_merges (k : RegKey) (f : Fld) (n : Nat) : (s.addSat k f n).merges = s.merges := by rw [State.addSat_eq]
@[simp] theorem State.addSat_feeds (k : RegKey) (f : Fld) (n : Nat) : (s.addSat k f n).feeds = s.feeds := by rw [State.addSat_eq]
@[simp] theorem State.addSat_outPlan (k : RegKey) (f : Fld) (n : Nat) : (s.addSat k f n).outPlan = s.outPlan := by rw [State.addSat_eq]
@[simp] theorem State.addSat_routes (k : RegKey) (f : Fld) (n : Nat) : (s.addSat k f n).routes = s.routes := by rw [State.addSat_eq]
@[simp] theorem State.addSat_takes (k : RegKey) (f : Fld) (n : Nat) : (s.addSat k f n).takes = s.takes := by rw [State.addSat_eq]
@[simp] theorem State.addSat_commits (k : RegKey) (f : Fld) (n : Nat) : (s.addSat k f n).commits = s.commits := by rw [State.addSat_eq]
@[simp] theorem State.addSat_salvos (k : RegKey) (f : Fld) (n : Nat) : (s.addSat k f n).salvos = s.salvos := by rw [State.addSat_eq]
@[simp] theorem State.addSat_outs (k : RegKey) (f : Fld) (n : Nat) : (s.addSat k f n).outs = s.outs := by rw [State.addSat_eq]
@[simp] theorem State.addSat_shown (k : RegKey) (f : Fld) (n : Nat) : (s.addSat k f n).shown = s.shown := by rw [State.addSat_eq]
@[simp] theorem State.addSat_stores (k : RegKey) (f : Fld) (n : Nat) : (s.addSat k f n).stores = s.stores := by rw [State.addSat_eq]
@[simp] theorem State.addSat_captures (k : RegKey) (f : Fld) (n : Nat) : (s.addSat k f n).captures = s.captures := by rw [State.addSat_eq]
@[simp] theorem State.addSat_benches (k : RegKey) (f : Fld) (n : Nat) : (s.addSat k f n).benches = s.benches := by rw [State.addSat_eq]
@[simp] theorem State.addSat_benchPlan (k : RegKey) (f : Fld) (n : Nat) : (s.addSat k f n).benchPlan = s.benchPlan := by rw [State.addSat_eq]
@[simp] theorem State.addSat_benchIn (k : RegKey) (f : Fld) (n : Nat) : (s.addSat k f n).benchIn = s.benchIn := by rw [State.addSat_eq]
@[simp] theorem State.addSat_benchMem (k : RegKey) (f : Fld) (n : Nat) : (s.addSat k f n).benchMem = s.benchMem := by rw [State.addSat_eq]
@[simp] theorem State.addSat_leadOld (k : RegKey) (f : Fld) (n : Nat) : (s.addSat k f n).leadOld = s.leadOld := by rw [State.addSat_eq]
@[simp] theorem State.addSat_leaseEnd (k : RegKey) (f : Fld) (n : Nat) : (s.addSat k f n).leaseEnd = s.leaseEnd := by rw [State.addSat_eq]
@[simp] theorem State.addSat_grace (k : RegKey) (f : Fld) (n : Nat) : (s.addSat k f n).grace = s.grace := by rw [State.addSat_eq]
@[simp] theorem State.addSat_planned (k : RegKey) (f : Fld) (n : Nat) : (s.addSat k f n).planned = s.planned := by rw [State.addSat_eq]
@[simp] theorem State.addSat_outSince (k : RegKey) (f : Fld) (n : Nat) : (s.addSat k f n).outSince = s.outSince := by rw [State.addSat_eq]
@[simp] theorem State.addSat_voters (k : RegKey) (f : Fld) (n : Nat) : (s.addSat k f n).voters = s.voters := by rw [State.addSat_eq]
@[simp] theorem State.addSat_grantAt (k : RegKey) (f : Fld) (n : Nat) : (s.addSat k f n).grantAt = s.grantAt := by rw [State.addSat_eq]
@[simp] theorem State.addSat_sluices (k : RegKey) (f : Fld) (n : Nat) : (s.addSat k f n).sluices = s.sluices := by rw [State.addSat_eq]
@[simp] theorem State.addSat_ring (k : RegKey) (f : Fld) (n : Nat) : (s.addSat k f n).ring = s.ring := by rw [State.addSat_eq]
@[simp] theorem State.addSat_envLines (k : RegKey) (f : Fld) (n : Nat) : (s.addSat k f n).envLines = s.envLines := by rw [State.addSat_eq]
@[simp] theorem State.addSat_sevAt (k : RegKey) (f : Fld) (n : Nat) : (s.addSat k f n).sevAt = s.sevAt := by rw [State.addSat_eq]
@[simp] theorem State.addSat_therm (k : RegKey) (f : Fld) (n : Nat) : (s.addSat k f n).therm = s.therm := by rw [State.addSat_eq]
@[simp] theorem State.addSat_txqs (k : RegKey) (f : Fld) (n : Nat) : (s.addSat k f n).txqs = s.txqs := by rw [State.addSat_eq]
@[simp] theorem State.addSat_lanes (k : RegKey) (f : Fld) (n : Nat) : (s.addSat k f n).lanes = s.lanes := by rw [State.addSat_eq]
@[simp] theorem State.addSat_nvl (k : RegKey) (f : Fld) (n : Nat) : (s.addSat k f n).nvl = s.nvl := by rw [State.addSat_eq]
@[simp] theorem State.addSat_bankLost (k : RegKey) (f : Fld) (n : Nat) : (s.addSat k f n).bankLost = s.bankLost := by rw [State.addSat_eq]
@[simp] theorem State.addSat_nvlTx (k : RegKey) (f : Fld) (n : Nat) : (s.addSat k f n).nvlTx = s.nvlTx := by rw [State.addSat_eq]
@[simp] theorem State.addSat_bypassQ (k : RegKey) (f : Fld) (n : Nat) : (s.addSat k f n).bypassQ = s.bypassQ := by rw [State.addSat_eq]
@[simp] theorem State.addSat_sdi (k : RegKey) (f : Fld) (n : Nat) : (s.addSat k f n).sdi = s.sdi := by rw [State.addSat_eq]
@[simp] theorem State.addSat_portPlan (k : RegKey) (f : Fld) (n : Nat) : (s.addSat k f n).portPlan = s.portPlan := by rw [State.addSat_eq]
@[simp] theorem State.addSat_rxFlows (k : RegKey) (f : Fld) (n : Nat) : (s.addSat k f n).rxFlows = s.rxFlows := by rw [State.addSat_eq]
@[simp] theorem State.addSat_txRuns (k : RegKey) (f : Fld) (n : Nat) : (s.addSat k f n).txRuns = s.txRuns := by rw [State.addSat_eq]
@[simp] theorem State.addSat_txFlows (k : RegKey) (f : Fld) (n : Nat) : (s.addSat k f n).txFlows = s.txFlows := by rw [State.addSat_eq]
@[simp] theorem State.addSat_txBufs (k : RegKey) (f : Fld) (n : Nat) : (s.addSat k f n).txBufs = s.txBufs := by rw [State.addSat_eq]
@[simp] theorem State.addSat_ethQ (k : RegKey) (f : Fld) (n : Nat) : (s.addSat k f n).ethQ = s.ethQ := by rw [State.addSat_eq]
@[simp] theorem State.addSat_macs (k : RegKey) (f : Fld) (n : Nat) : (s.addSat k f n).macs = s.macs := by rw [State.addSat_eq]
@[simp] theorem State.addSat_rrp (k : RegKey) (f : Fld) (n : Nat) : (s.addSat k f n).rrp = s.rrp := by rw [State.addSat_eq]
@[simp] theorem State.addSat_hostParked (k : RegKey) (f : Fld) (n : Nat) : (s.addSat k f n).hostParked = s.hostParked := by rw [State.addSat_eq]
@[simp] theorem State.addSat_tick (k : RegKey) (f : Fld) (n : Nat) : (s.addSat k f n).tick = s.tick := by rw [State.addSat_eq]
@[simp] theorem State.addSat_tbs (k : RegKey) (f : Fld) (n : Nat) : (s.addSat k f n).tbs = s.tbs := by rw [State.addSat_eq]
@[simp] theorem State.addSat_cmps (k : RegKey) (f : Fld) (n : Nat) : (s.addSat k f n).cmps = s.cmps := by rw [State.addSat_eq]
@[simp] theorem State.addSat_ports (k : RegKey) (f : Fld) (n : Nat) : (s.addSat k f n).ports = s.ports := by rw [State.addSat_eq]
@[simp] theorem State.addSat_txLatch (k : RegKey) (f : Fld) (n : Nat) : (s.addSat k f n).txLatch = s.txLatch := by rw [State.addSat_eq]
@[simp] theorem State.addSat_cads (k : RegKey) (f : Fld) (n : Nat) : (s.addSat k f n).cads = s.cads := by rw [State.addSat_eq]
@[simp] theorem State.addSat_cands (k : RegKey) (f : Fld) (n : Nat) : (s.addSat k f n).cands = s.cands := by rw [State.addSat_eq]
@[simp] theorem State.addSat_ref (k : RegKey) (f : Fld) (n : Nat) : (s.addSat k f n).ref = s.ref := by rw [State.addSat_eq]
@[simp] theorem State.addSat_trigArmed (k : RegKey) (f : Fld) (n : Nat) : (s.addSat k f n).trigArmed = s.trigArmed := by rw [State.addSat_eq]
@[simp] theorem State.addSat_trigSignal (k : RegKey) (f : Fld) (n : Nat) : (s.addSat k f n).trigSignal = s.trigSignal := by rw [State.addSat_eq]
@[simp] theorem State.addSat_audioTb (k : RegKey) (f : Fld) (n : Nat) : (s.addSat k f n).audioTb = s.audioTb := by rw [State.addSat_eq]
@[simp] theorem State.addSat_audioHi (k : RegKey) (f : Fld) (n : Nat) : (s.addSat k f n).audioHi = s.audioHi := by rw [State.addSat_eq]
@[simp] theorem State.addSat_audNext (k : RegKey) (f : Fld) (n : Nat) : (s.addSat k f n).audNext = s.audNext := by rw [State.addSat_eq]
@[simp] theorem State.addSat_audSrc (k : RegKey) (f : Fld) (n : Nat) : (s.addSat k f n).audSrc = s.audSrc := by rw [State.addSat_eq]
@[simp] theorem State.addSat_audDst (k : RegKey) (f : Fld) (n : Nat) : (s.addSat k f n).audDst = s.audDst := by rw [State.addSat_eq]
@[simp] theorem State.addSat_tdm (k : RegKey) (f : Fld) (n : Nat) : (s.addSat k f n).tdm = s.tdm := by rw [State.addSat_eq]
@[simp] theorem State.addSat_tdmOwner (k : RegKey) (f : Fld) (n : Nat) : (s.addSat k f n).tdmOwner = s.tdmOwner := by rw [State.addSat_eq]
@[simp] theorem State.addSat_audTimes (k : RegKey) (f : Fld) (n : Nat) : (s.addSat k f n).audTimes = s.audTimes := by rw [State.addSat_eq]
@[simp] theorem State.addSat_audIn (k : RegKey) (f : Fld) (n : Nat) : (s.addSat k f n).audIn = s.audIn := by rw [State.addSat_eq]
@[simp] theorem State.addSat_headPlan (k : RegKey) (f : Fld) (n : Nat) : (s.addSat k f n).headPlan = s.headPlan := by rw [State.addSat_eq]
@[simp] theorem State.addSat_tileHead (k : RegKey) (f : Fld) (n : Nat) : (s.addSat k f n).tileHead = s.tileHead := by rw [State.addSat_eq]
@[simp] theorem State.addSat_preHead (k : RegKey) (f : Fld) (n : Nat) : (s.addSat k f n).preHead = s.preHead := by rw [State.addSat_eq]
@[simp] theorem State.addSat_headRun (k : RegKey) (f : Fld) (n : Nat) : (s.addSat k f n).headRun = s.headRun := by rw [State.addSat_eq]
@[simp] theorem State.addSat_tiles (k : RegKey) (f : Fld) (n : Nat) : (s.addSat k f n).tiles = s.tiles := by rw [State.addSat_eq]
@[simp] theorem State.addSat_alyA (k : RegKey) (f : Fld) (n : Nat) : (s.addSat k f n).alyA = s.alyA := by rw [State.addSat_eq]
@[simp] theorem State.addSat_alyB (k : RegKey) (f : Fld) (n : Nat) : (s.addSat k f n).alyB = s.alyB := by rw [State.addSat_eq]
@[simp] theorem State.addSat_alyWait (k : RegKey) (f : Fld) (n : Nat) : (s.addSat k f n).alyWait = s.alyWait := by rw [State.addSat_eq]
@[simp] theorem State.addSat_alyLive (k : RegKey) (f : Fld) (n : Nat) : (s.addSat k f n).alyLive = s.alyLive := by rw [State.addSat_eq]
@[simp] theorem State.addSat_alyStore (k : RegKey) (f : Fld) (n : Nat) : (s.addSat k f n).alyStore = s.alyStore := by rw [State.addSat_eq]
@[simp] theorem State.addSat_hbmA (k : RegKey) (f : Fld) (n : Nat) : (s.addSat k f n).hbmA = s.hbmA := by rw [State.addSat_eq]
@[simp] theorem State.addSat_hbmB (k : RegKey) (f : Fld) (n : Nat) : (s.addSat k f n).hbmB = s.hbmB := by rw [State.addSat_eq]
@[simp] theorem State.addSat_hbmRun (k : RegKey) (f : Fld) (n : Nat) : (s.addSat k f n).hbmRun = s.hbmRun := by rw [State.addSat_eq]
@[simp] theorem State.addSat_hbmMax (k : RegKey) (f : Fld) (n : Nat) : (s.addSat k f n).hbmMax = s.hbmMax := by rw [State.addSat_eq]
@[simp] theorem State.addSat_hoppers (k : RegKey) (f : Fld) (n : Nat) : (s.addSat k f n).hoppers = s.hoppers := by rw [State.addSat_eq]
@[simp] theorem State.addSat_capPlan (k : RegKey) (f : Fld) (n : Nat) : (s.addSat k f n).capPlan = s.capPlan := by rw [State.addSat_eq]
@[simp] theorem State.addSat_sramA (k : RegKey) (f : Fld) (n : Nat) : (s.addSat k f n).sramA = s.sramA := by rw [State.addSat_eq]
@[simp] theorem State.addSat_sramB (k : RegKey) (f : Fld) (n : Nat) : (s.addSat k f n).sramB = s.sramB := by rw [State.addSat_eq]
@[simp] theorem State.addSat_hbmTempAt (k : RegKey) (f : Fld) (n : Nat) : (s.addSat k f n).hbmTempAt = s.hbmTempAt := by rw [State.addSat_eq]
@[simp] theorem State.addSat_audLate (k : RegKey) (f : Fld) (n : Nat) : (s.addSat k f n).audLate = s.audLate := by rw [State.addSat_eq]
@[simp] theorem State.addSat_locks (k : RegKey) (f : Fld) (n : Nat) : (s.addSat k f n).locks = s.locks := by rw [State.addSat_eq]
@[simp] theorem State.addSat_waiting (k : RegKey) (f : Fld) (n : Nat) : (s.addSat k f n).waiting = s.waiting := by rw [State.addSat_eq]
@[simp] theorem State.addSat_grantNext (k : RegKey) (f : Fld) (n : Nat) : (s.addSat k f n).grantNext = s.grantNext := by rw [State.addSat_eq]
@[simp] theorem State.addSat_winBuf (k : RegKey) (f : Fld) (n : Nat) : (s.addSat k f n).winBuf = s.winBuf := by rw [State.addSat_eq]
@[simp] theorem State.addSat_msixOpen (k : RegKey) (f : Fld) (n : Nat) : (s.addSat k f n).msixOpen = s.msixOpen := by rw [State.addSat_eq]
@[simp] theorem State.addSat_msixPend (k : RegKey) (f : Fld) (n : Nat) : (s.addSat k f n).msixPend = s.msixPend := by rw [State.addSat_eq]
@[simp] theorem State.addSat_vecHigh (k : RegKey) (f : Fld) (n : Nat) : (s.addSat k f n).vecHigh = s.vecHigh := by rw [State.addSat_eq]
@[simp] theorem State.addSat_flash0 (k : RegKey) (f : Fld) (n : Nat) : (s.addSat k f n).flash0 = s.flash0 := by rw [State.addSat_eq]
@[simp] theorem State.addSat_flash1 (k : RegKey) (f : Fld) (n : Nat) : (s.addSat k f n).flash1 = s.flash1 := by rw [State.addSat_eq]
@[simp] theorem State.addSat_owners (k : RegKey) (f : Fld) (n : Nat) : (s.addSat k f n).owners = s.owners := by rw [State.addSat_eq]
@[simp] theorem State.addSat_svn (k : RegKey) (f : Fld) (n : Nat) : (s.addSat k f n).svn = s.svn := by rw [State.addSat_eq]
@[simp] theorem State.addSat_otpOk (k : RegKey) (f : Fld) (n : Nat) : (s.addSat k f n).otpOk = s.otpOk := by rw [State.addSat_eq]
@[simp] theorem State.addSat_loaded (k : RegKey) (f : Fld) (n : Nat) : (s.addSat k f n).loaded = s.loaded := by rw [State.addSat_eq]
@[simp] theorem State.addSat_updMbx (k : RegKey) (f : Fld) (n : Nat) : (s.addSat k f n).updMbx = s.updMbx := by rw [State.addSat_eq]
@[simp] theorem State.addSat_session (k : RegKey) (f : Fld) (n : Nat) : (s.addSat k f n).session = s.session := by rw [State.addSat_eq]
@[simp] theorem State.addSat_parts (k : RegKey) (f : Fld) (n : Nat) : (s.addSat k f n).parts = s.parts := by rw [State.addSat_eq]
@[simp] theorem State.addSat_updSide (k : RegKey) (f : Fld) (n : Nat) : (s.addSat k f n).updSide = s.updSide := by rw [State.addSat_eq]
@[simp] theorem State.addSat_confirming (k : RegKey) (f : Fld) (n : Nat) : (s.addSat k f n).confirming = s.confirming := by rw [State.addSat_eq]
@[simp] theorem State.addSat_fwHash (k : RegKey) (f : Fld) (n : Nat) : (s.addSat k f n).fwHash = s.fwHash := by rw [State.addSat_eq]
@[simp] theorem State.addSat_change (k : RegKey) (f : Fld) (n : Nat) : (s.addSat k f n).change = s.change := by rw [State.addSat_eq]
@[simp] theorem State.addSat_changeAt (k : RegKey) (f : Fld) (n : Nat) : (s.addSat k f n).changeAt = s.changeAt := by rw [State.addSat_eq]
@[simp] theorem State.addSat_attest (k : RegKey) (f : Fld) (n : Nat) : (s.addSat k f n).attest = s.attest := by rw [State.addSat_eq]
@[simp] theorem State.addSat_unlock (k : RegKey) (f : Fld) (n : Nat) : (s.addSat k f n).unlock = s.unlock := by rw [State.addSat_eq]
@[simp] theorem State.addSat_tempSeen (k : RegKey) (f : Fld) (n : Nat) : (s.addSat k f n).tempSeen = s.tempSeen := by rw [State.addSat_eq]
@[simp] theorem State.addSat_engs (k : RegKey) (f : Fld) (n : Nat) : (s.addSat k f n).engs = s.engs := by rw [State.addSat_eq]

@[simp] theorem State.addWrap_pending (k : RegKey) (n : Nat) : (s.addWrap k n).pending = s.pending := by rw [State.addWrap_eq]
@[simp] theorem State.addWrap_sideA (k : RegKey) (n : Nat) : (s.addWrap k n).sideA = s.sideA := by rw [State.addWrap_eq]
@[simp] theorem State.addWrap_sideB (k : RegKey) (n : Nat) : (s.addWrap k n).sideB = s.sideB := by rw [State.addWrap_eq]
@[simp] theorem State.addWrap_rights (k : RegKey) (n : Nat) : (s.addWrap k n).rights = s.rights := by rw [State.addWrap_eq]
@[simp] theorem State.addWrap_plain7 (k : RegKey) (n : Nat) : (s.addWrap k n).plain7 = s.plain7 := by rw [State.addWrap_eq]
@[simp] theorem State.addWrap_fired (k : RegKey) (n : Nat) : (s.addWrap k n).fired = s.fired := by rw [State.addWrap_eq]
@[simp] theorem State.addWrap_out (k : RegKey) (n : Nat) : (s.addWrap k n).out = s.out := by rw [State.addWrap_eq]
@[simp] theorem State.addWrap_lastRead (k : RegKey) (n : Nat) : (s.addWrap k n).lastRead = s.lastRead := by rw [State.addWrap_eq]
@[simp] theorem State.addWrap_freeCtr (k : RegKey) (n : Nat) : (s.addWrap k n).freeCtr = s.freeCtr := by rw [State.addWrap_eq]
@[simp] theorem State.addWrap_aoReset (k : RegKey) (n : Nat) : (s.addWrap k n).aoReset = s.aoReset := by rw [State.addWrap_eq]
@[simp] theorem State.addWrap_twins (k : RegKey) (n : Nat) : (s.addWrap k n).twins = s.twins := by rw [State.addWrap_eq]
@[simp] theorem State.addWrap_twinQ (k : RegKey) (n : Nat) : (s.addWrap k n).twinQ = s.twinQ := by rw [State.addWrap_eq]
@[simp] theorem State.addWrap_inPlan (k : RegKey) (n : Nat) : (s.addWrap k n).inPlan = s.inPlan := by rw [State.addWrap_eq]
@[simp] theorem State.addWrap_inRx (k : RegKey) (n : Nat) : (s.addWrap k n).inRx = s.inRx := by rw [State.addWrap_eq]
@[simp] theorem State.addWrap_merges (k : RegKey) (n : Nat) : (s.addWrap k n).merges = s.merges := by rw [State.addWrap_eq]
@[simp] theorem State.addWrap_feeds (k : RegKey) (n : Nat) : (s.addWrap k n).feeds = s.feeds := by rw [State.addWrap_eq]
@[simp] theorem State.addWrap_outPlan (k : RegKey) (n : Nat) : (s.addWrap k n).outPlan = s.outPlan := by rw [State.addWrap_eq]
@[simp] theorem State.addWrap_routes (k : RegKey) (n : Nat) : (s.addWrap k n).routes = s.routes := by rw [State.addWrap_eq]
@[simp] theorem State.addWrap_takes (k : RegKey) (n : Nat) : (s.addWrap k n).takes = s.takes := by rw [State.addWrap_eq]
@[simp] theorem State.addWrap_commits (k : RegKey) (n : Nat) : (s.addWrap k n).commits = s.commits := by rw [State.addWrap_eq]
@[simp] theorem State.addWrap_salvos (k : RegKey) (n : Nat) : (s.addWrap k n).salvos = s.salvos := by rw [State.addWrap_eq]
@[simp] theorem State.addWrap_outs (k : RegKey) (n : Nat) : (s.addWrap k n).outs = s.outs := by rw [State.addWrap_eq]
@[simp] theorem State.addWrap_shown (k : RegKey) (n : Nat) : (s.addWrap k n).shown = s.shown := by rw [State.addWrap_eq]
@[simp] theorem State.addWrap_stores (k : RegKey) (n : Nat) : (s.addWrap k n).stores = s.stores := by rw [State.addWrap_eq]
@[simp] theorem State.addWrap_captures (k : RegKey) (n : Nat) : (s.addWrap k n).captures = s.captures := by rw [State.addWrap_eq]
@[simp] theorem State.addWrap_benches (k : RegKey) (n : Nat) : (s.addWrap k n).benches = s.benches := by rw [State.addWrap_eq]
@[simp] theorem State.addWrap_benchPlan (k : RegKey) (n : Nat) : (s.addWrap k n).benchPlan = s.benchPlan := by rw [State.addWrap_eq]
@[simp] theorem State.addWrap_benchIn (k : RegKey) (n : Nat) : (s.addWrap k n).benchIn = s.benchIn := by rw [State.addWrap_eq]
@[simp] theorem State.addWrap_benchMem (k : RegKey) (n : Nat) : (s.addWrap k n).benchMem = s.benchMem := by rw [State.addWrap_eq]
@[simp] theorem State.addWrap_leadOld (k : RegKey) (n : Nat) : (s.addWrap k n).leadOld = s.leadOld := by rw [State.addWrap_eq]
@[simp] theorem State.addWrap_leaseEnd (k : RegKey) (n : Nat) : (s.addWrap k n).leaseEnd = s.leaseEnd := by rw [State.addWrap_eq]
@[simp] theorem State.addWrap_grace (k : RegKey) (n : Nat) : (s.addWrap k n).grace = s.grace := by rw [State.addWrap_eq]
@[simp] theorem State.addWrap_planned (k : RegKey) (n : Nat) : (s.addWrap k n).planned = s.planned := by rw [State.addWrap_eq]
@[simp] theorem State.addWrap_outSince (k : RegKey) (n : Nat) : (s.addWrap k n).outSince = s.outSince := by rw [State.addWrap_eq]
@[simp] theorem State.addWrap_voters (k : RegKey) (n : Nat) : (s.addWrap k n).voters = s.voters := by rw [State.addWrap_eq]
@[simp] theorem State.addWrap_grantAt (k : RegKey) (n : Nat) : (s.addWrap k n).grantAt = s.grantAt := by rw [State.addWrap_eq]
@[simp] theorem State.addWrap_sluices (k : RegKey) (n : Nat) : (s.addWrap k n).sluices = s.sluices := by rw [State.addWrap_eq]
@[simp] theorem State.addWrap_ring (k : RegKey) (n : Nat) : (s.addWrap k n).ring = s.ring := by rw [State.addWrap_eq]
@[simp] theorem State.addWrap_envLines (k : RegKey) (n : Nat) : (s.addWrap k n).envLines = s.envLines := by rw [State.addWrap_eq]
@[simp] theorem State.addWrap_sevAt (k : RegKey) (n : Nat) : (s.addWrap k n).sevAt = s.sevAt := by rw [State.addWrap_eq]
@[simp] theorem State.addWrap_therm (k : RegKey) (n : Nat) : (s.addWrap k n).therm = s.therm := by rw [State.addWrap_eq]
@[simp] theorem State.addWrap_txqs (k : RegKey) (n : Nat) : (s.addWrap k n).txqs = s.txqs := by rw [State.addWrap_eq]
@[simp] theorem State.addWrap_lanes (k : RegKey) (n : Nat) : (s.addWrap k n).lanes = s.lanes := by rw [State.addWrap_eq]
@[simp] theorem State.addWrap_nvl (k : RegKey) (n : Nat) : (s.addWrap k n).nvl = s.nvl := by rw [State.addWrap_eq]
@[simp] theorem State.addWrap_bankLost (k : RegKey) (n : Nat) : (s.addWrap k n).bankLost = s.bankLost := by rw [State.addWrap_eq]
@[simp] theorem State.addWrap_nvlTx (k : RegKey) (n : Nat) : (s.addWrap k n).nvlTx = s.nvlTx := by rw [State.addWrap_eq]
@[simp] theorem State.addWrap_bypassQ (k : RegKey) (n : Nat) : (s.addWrap k n).bypassQ = s.bypassQ := by rw [State.addWrap_eq]
@[simp] theorem State.addWrap_sdi (k : RegKey) (n : Nat) : (s.addWrap k n).sdi = s.sdi := by rw [State.addWrap_eq]
@[simp] theorem State.addWrap_portPlan (k : RegKey) (n : Nat) : (s.addWrap k n).portPlan = s.portPlan := by rw [State.addWrap_eq]
@[simp] theorem State.addWrap_rxFlows (k : RegKey) (n : Nat) : (s.addWrap k n).rxFlows = s.rxFlows := by rw [State.addWrap_eq]
@[simp] theorem State.addWrap_txRuns (k : RegKey) (n : Nat) : (s.addWrap k n).txRuns = s.txRuns := by rw [State.addWrap_eq]
@[simp] theorem State.addWrap_txFlows (k : RegKey) (n : Nat) : (s.addWrap k n).txFlows = s.txFlows := by rw [State.addWrap_eq]
@[simp] theorem State.addWrap_txBufs (k : RegKey) (n : Nat) : (s.addWrap k n).txBufs = s.txBufs := by rw [State.addWrap_eq]
@[simp] theorem State.addWrap_ethQ (k : RegKey) (n : Nat) : (s.addWrap k n).ethQ = s.ethQ := by rw [State.addWrap_eq]
@[simp] theorem State.addWrap_macs (k : RegKey) (n : Nat) : (s.addWrap k n).macs = s.macs := by rw [State.addWrap_eq]
@[simp] theorem State.addWrap_rrp (k : RegKey) (n : Nat) : (s.addWrap k n).rrp = s.rrp := by rw [State.addWrap_eq]
@[simp] theorem State.addWrap_hostParked (k : RegKey) (n : Nat) : (s.addWrap k n).hostParked = s.hostParked := by rw [State.addWrap_eq]
@[simp] theorem State.addWrap_tick (k : RegKey) (n : Nat) : (s.addWrap k n).tick = s.tick := by rw [State.addWrap_eq]
@[simp] theorem State.addWrap_tbs (k : RegKey) (n : Nat) : (s.addWrap k n).tbs = s.tbs := by rw [State.addWrap_eq]
@[simp] theorem State.addWrap_cmps (k : RegKey) (n : Nat) : (s.addWrap k n).cmps = s.cmps := by rw [State.addWrap_eq]
@[simp] theorem State.addWrap_ports (k : RegKey) (n : Nat) : (s.addWrap k n).ports = s.ports := by rw [State.addWrap_eq]
@[simp] theorem State.addWrap_txLatch (k : RegKey) (n : Nat) : (s.addWrap k n).txLatch = s.txLatch := by rw [State.addWrap_eq]
@[simp] theorem State.addWrap_cads (k : RegKey) (n : Nat) : (s.addWrap k n).cads = s.cads := by rw [State.addWrap_eq]
@[simp] theorem State.addWrap_cands (k : RegKey) (n : Nat) : (s.addWrap k n).cands = s.cands := by rw [State.addWrap_eq]
@[simp] theorem State.addWrap_ref (k : RegKey) (n : Nat) : (s.addWrap k n).ref = s.ref := by rw [State.addWrap_eq]
@[simp] theorem State.addWrap_trigArmed (k : RegKey) (n : Nat) : (s.addWrap k n).trigArmed = s.trigArmed := by rw [State.addWrap_eq]
@[simp] theorem State.addWrap_trigSignal (k : RegKey) (n : Nat) : (s.addWrap k n).trigSignal = s.trigSignal := by rw [State.addWrap_eq]
@[simp] theorem State.addWrap_audioTb (k : RegKey) (n : Nat) : (s.addWrap k n).audioTb = s.audioTb := by rw [State.addWrap_eq]
@[simp] theorem State.addWrap_audioHi (k : RegKey) (n : Nat) : (s.addWrap k n).audioHi = s.audioHi := by rw [State.addWrap_eq]
@[simp] theorem State.addWrap_audNext (k : RegKey) (n : Nat) : (s.addWrap k n).audNext = s.audNext := by rw [State.addWrap_eq]
@[simp] theorem State.addWrap_audSrc (k : RegKey) (n : Nat) : (s.addWrap k n).audSrc = s.audSrc := by rw [State.addWrap_eq]
@[simp] theorem State.addWrap_audDst (k : RegKey) (n : Nat) : (s.addWrap k n).audDst = s.audDst := by rw [State.addWrap_eq]
@[simp] theorem State.addWrap_tdm (k : RegKey) (n : Nat) : (s.addWrap k n).tdm = s.tdm := by rw [State.addWrap_eq]
@[simp] theorem State.addWrap_tdmOwner (k : RegKey) (n : Nat) : (s.addWrap k n).tdmOwner = s.tdmOwner := by rw [State.addWrap_eq]
@[simp] theorem State.addWrap_audTimes (k : RegKey) (n : Nat) : (s.addWrap k n).audTimes = s.audTimes := by rw [State.addWrap_eq]
@[simp] theorem State.addWrap_audIn (k : RegKey) (n : Nat) : (s.addWrap k n).audIn = s.audIn := by rw [State.addWrap_eq]
@[simp] theorem State.addWrap_headPlan (k : RegKey) (n : Nat) : (s.addWrap k n).headPlan = s.headPlan := by rw [State.addWrap_eq]
@[simp] theorem State.addWrap_tileHead (k : RegKey) (n : Nat) : (s.addWrap k n).tileHead = s.tileHead := by rw [State.addWrap_eq]
@[simp] theorem State.addWrap_preHead (k : RegKey) (n : Nat) : (s.addWrap k n).preHead = s.preHead := by rw [State.addWrap_eq]
@[simp] theorem State.addWrap_headRun (k : RegKey) (n : Nat) : (s.addWrap k n).headRun = s.headRun := by rw [State.addWrap_eq]
@[simp] theorem State.addWrap_tiles (k : RegKey) (n : Nat) : (s.addWrap k n).tiles = s.tiles := by rw [State.addWrap_eq]
@[simp] theorem State.addWrap_alyA (k : RegKey) (n : Nat) : (s.addWrap k n).alyA = s.alyA := by rw [State.addWrap_eq]
@[simp] theorem State.addWrap_alyB (k : RegKey) (n : Nat) : (s.addWrap k n).alyB = s.alyB := by rw [State.addWrap_eq]
@[simp] theorem State.addWrap_alyWait (k : RegKey) (n : Nat) : (s.addWrap k n).alyWait = s.alyWait := by rw [State.addWrap_eq]
@[simp] theorem State.addWrap_alyLive (k : RegKey) (n : Nat) : (s.addWrap k n).alyLive = s.alyLive := by rw [State.addWrap_eq]
@[simp] theorem State.addWrap_alyStore (k : RegKey) (n : Nat) : (s.addWrap k n).alyStore = s.alyStore := by rw [State.addWrap_eq]
@[simp] theorem State.addWrap_hbmA (k : RegKey) (n : Nat) : (s.addWrap k n).hbmA = s.hbmA := by rw [State.addWrap_eq]
@[simp] theorem State.addWrap_hbmB (k : RegKey) (n : Nat) : (s.addWrap k n).hbmB = s.hbmB := by rw [State.addWrap_eq]
@[simp] theorem State.addWrap_hbmRun (k : RegKey) (n : Nat) : (s.addWrap k n).hbmRun = s.hbmRun := by rw [State.addWrap_eq]
@[simp] theorem State.addWrap_hbmMax (k : RegKey) (n : Nat) : (s.addWrap k n).hbmMax = s.hbmMax := by rw [State.addWrap_eq]
@[simp] theorem State.addWrap_hoppers (k : RegKey) (n : Nat) : (s.addWrap k n).hoppers = s.hoppers := by rw [State.addWrap_eq]
@[simp] theorem State.addWrap_capPlan (k : RegKey) (n : Nat) : (s.addWrap k n).capPlan = s.capPlan := by rw [State.addWrap_eq]
@[simp] theorem State.addWrap_sramA (k : RegKey) (n : Nat) : (s.addWrap k n).sramA = s.sramA := by rw [State.addWrap_eq]
@[simp] theorem State.addWrap_sramB (k : RegKey) (n : Nat) : (s.addWrap k n).sramB = s.sramB := by rw [State.addWrap_eq]
@[simp] theorem State.addWrap_hbmTempAt (k : RegKey) (n : Nat) : (s.addWrap k n).hbmTempAt = s.hbmTempAt := by rw [State.addWrap_eq]
@[simp] theorem State.addWrap_audLate (k : RegKey) (n : Nat) : (s.addWrap k n).audLate = s.audLate := by rw [State.addWrap_eq]
@[simp] theorem State.addWrap_locks (k : RegKey) (n : Nat) : (s.addWrap k n).locks = s.locks := by rw [State.addWrap_eq]
@[simp] theorem State.addWrap_waiting (k : RegKey) (n : Nat) : (s.addWrap k n).waiting = s.waiting := by rw [State.addWrap_eq]
@[simp] theorem State.addWrap_grantNext (k : RegKey) (n : Nat) : (s.addWrap k n).grantNext = s.grantNext := by rw [State.addWrap_eq]
@[simp] theorem State.addWrap_winBuf (k : RegKey) (n : Nat) : (s.addWrap k n).winBuf = s.winBuf := by rw [State.addWrap_eq]
@[simp] theorem State.addWrap_msixOpen (k : RegKey) (n : Nat) : (s.addWrap k n).msixOpen = s.msixOpen := by rw [State.addWrap_eq]
@[simp] theorem State.addWrap_msixPend (k : RegKey) (n : Nat) : (s.addWrap k n).msixPend = s.msixPend := by rw [State.addWrap_eq]
@[simp] theorem State.addWrap_vecHigh (k : RegKey) (n : Nat) : (s.addWrap k n).vecHigh = s.vecHigh := by rw [State.addWrap_eq]
@[simp] theorem State.addWrap_flash0 (k : RegKey) (n : Nat) : (s.addWrap k n).flash0 = s.flash0 := by rw [State.addWrap_eq]
@[simp] theorem State.addWrap_flash1 (k : RegKey) (n : Nat) : (s.addWrap k n).flash1 = s.flash1 := by rw [State.addWrap_eq]
@[simp] theorem State.addWrap_owners (k : RegKey) (n : Nat) : (s.addWrap k n).owners = s.owners := by rw [State.addWrap_eq]
@[simp] theorem State.addWrap_svn (k : RegKey) (n : Nat) : (s.addWrap k n).svn = s.svn := by rw [State.addWrap_eq]
@[simp] theorem State.addWrap_otpOk (k : RegKey) (n : Nat) : (s.addWrap k n).otpOk = s.otpOk := by rw [State.addWrap_eq]
@[simp] theorem State.addWrap_loaded (k : RegKey) (n : Nat) : (s.addWrap k n).loaded = s.loaded := by rw [State.addWrap_eq]
@[simp] theorem State.addWrap_updMbx (k : RegKey) (n : Nat) : (s.addWrap k n).updMbx = s.updMbx := by rw [State.addWrap_eq]
@[simp] theorem State.addWrap_session (k : RegKey) (n : Nat) : (s.addWrap k n).session = s.session := by rw [State.addWrap_eq]
@[simp] theorem State.addWrap_parts (k : RegKey) (n : Nat) : (s.addWrap k n).parts = s.parts := by rw [State.addWrap_eq]
@[simp] theorem State.addWrap_updSide (k : RegKey) (n : Nat) : (s.addWrap k n).updSide = s.updSide := by rw [State.addWrap_eq]
@[simp] theorem State.addWrap_confirming (k : RegKey) (n : Nat) : (s.addWrap k n).confirming = s.confirming := by rw [State.addWrap_eq]
@[simp] theorem State.addWrap_fwHash (k : RegKey) (n : Nat) : (s.addWrap k n).fwHash = s.fwHash := by rw [State.addWrap_eq]
@[simp] theorem State.addWrap_change (k : RegKey) (n : Nat) : (s.addWrap k n).change = s.change := by rw [State.addWrap_eq]
@[simp] theorem State.addWrap_changeAt (k : RegKey) (n : Nat) : (s.addWrap k n).changeAt = s.changeAt := by rw [State.addWrap_eq]
@[simp] theorem State.addWrap_attest (k : RegKey) (n : Nat) : (s.addWrap k n).attest = s.attest := by rw [State.addWrap_eq]
@[simp] theorem State.addWrap_unlock (k : RegKey) (n : Nat) : (s.addWrap k n).unlock = s.unlock := by rw [State.addWrap_eq]
@[simp] theorem State.addWrap_tempSeen (k : RegKey) (n : Nat) : (s.addWrap k n).tempSeen = s.tempSeen := by rw [State.addWrap_eq]
@[simp] theorem State.addWrap_engs (k : RegKey) (n : Nat) : (s.addWrap k n).engs = s.engs := by rw [State.addWrap_eq]

@[simp] theorem State.setSource_pending (e : Nat) : (s.setSource e).pending = s.pending := by rw [State.setSource_eq]
@[simp] theorem State.setSource_sideA (e : Nat) : (s.setSource e).sideA = s.sideA := by rw [State.setSource_eq]
@[simp] theorem State.setSource_sideB (e : Nat) : (s.setSource e).sideB = s.sideB := by rw [State.setSource_eq]
@[simp] theorem State.setSource_rights (e : Nat) : (s.setSource e).rights = s.rights := by rw [State.setSource_eq]
@[simp] theorem State.setSource_plain7 (e : Nat) : (s.setSource e).plain7 = s.plain7 := by rw [State.setSource_eq]
@[simp] theorem State.setSource_out (e : Nat) : (s.setSource e).out = s.out := by rw [State.setSource_eq]
@[simp] theorem State.setSource_lastRead (e : Nat) : (s.setSource e).lastRead = s.lastRead := by rw [State.setSource_eq]
@[simp] theorem State.setSource_freeCtr (e : Nat) : (s.setSource e).freeCtr = s.freeCtr := by rw [State.setSource_eq]
@[simp] theorem State.setSource_aoReset (e : Nat) : (s.setSource e).aoReset = s.aoReset := by rw [State.setSource_eq]
@[simp] theorem State.setSource_setNow (e : Nat) : (s.setSource e).setNow = s.setNow := by rw [State.setSource_eq]
@[simp] theorem State.setSource_twins (e : Nat) : (s.setSource e).twins = s.twins := by rw [State.setSource_eq]
@[simp] theorem State.setSource_twinQ (e : Nat) : (s.setSource e).twinQ = s.twinQ := by rw [State.setSource_eq]
@[simp] theorem State.setSource_inPlan (e : Nat) : (s.setSource e).inPlan = s.inPlan := by rw [State.setSource_eq]
@[simp] theorem State.setSource_inRx (e : Nat) : (s.setSource e).inRx = s.inRx := by rw [State.setSource_eq]
@[simp] theorem State.setSource_merges (e : Nat) : (s.setSource e).merges = s.merges := by rw [State.setSource_eq]
@[simp] theorem State.setSource_feeds (e : Nat) : (s.setSource e).feeds = s.feeds := by rw [State.setSource_eq]
@[simp] theorem State.setSource_outPlan (e : Nat) : (s.setSource e).outPlan = s.outPlan := by rw [State.setSource_eq]
@[simp] theorem State.setSource_routes (e : Nat) : (s.setSource e).routes = s.routes := by rw [State.setSource_eq]
@[simp] theorem State.setSource_takes (e : Nat) : (s.setSource e).takes = s.takes := by rw [State.setSource_eq]
@[simp] theorem State.setSource_commits (e : Nat) : (s.setSource e).commits = s.commits := by rw [State.setSource_eq]
@[simp] theorem State.setSource_salvos (e : Nat) : (s.setSource e).salvos = s.salvos := by rw [State.setSource_eq]
@[simp] theorem State.setSource_outs (e : Nat) : (s.setSource e).outs = s.outs := by rw [State.setSource_eq]
@[simp] theorem State.setSource_shown (e : Nat) : (s.setSource e).shown = s.shown := by rw [State.setSource_eq]
@[simp] theorem State.setSource_stores (e : Nat) : (s.setSource e).stores = s.stores := by rw [State.setSource_eq]
@[simp] theorem State.setSource_captures (e : Nat) : (s.setSource e).captures = s.captures := by rw [State.setSource_eq]
@[simp] theorem State.setSource_benches (e : Nat) : (s.setSource e).benches = s.benches := by rw [State.setSource_eq]
@[simp] theorem State.setSource_benchPlan (e : Nat) : (s.setSource e).benchPlan = s.benchPlan := by rw [State.setSource_eq]
@[simp] theorem State.setSource_benchIn (e : Nat) : (s.setSource e).benchIn = s.benchIn := by rw [State.setSource_eq]
@[simp] theorem State.setSource_benchMem (e : Nat) : (s.setSource e).benchMem = s.benchMem := by rw [State.setSource_eq]
@[simp] theorem State.setSource_leadOld (e : Nat) : (s.setSource e).leadOld = s.leadOld := by rw [State.setSource_eq]
@[simp] theorem State.setSource_leaseEnd (e : Nat) : (s.setSource e).leaseEnd = s.leaseEnd := by rw [State.setSource_eq]
@[simp] theorem State.setSource_grace (e : Nat) : (s.setSource e).grace = s.grace := by rw [State.setSource_eq]
@[simp] theorem State.setSource_planned (e : Nat) : (s.setSource e).planned = s.planned := by rw [State.setSource_eq]
@[simp] theorem State.setSource_outSince (e : Nat) : (s.setSource e).outSince = s.outSince := by rw [State.setSource_eq]
@[simp] theorem State.setSource_voters (e : Nat) : (s.setSource e).voters = s.voters := by rw [State.setSource_eq]
@[simp] theorem State.setSource_grantAt (e : Nat) : (s.setSource e).grantAt = s.grantAt := by rw [State.setSource_eq]
@[simp] theorem State.setSource_sluices (e : Nat) : (s.setSource e).sluices = s.sluices := by rw [State.setSource_eq]
@[simp] theorem State.setSource_ring (e : Nat) : (s.setSource e).ring = s.ring := by rw [State.setSource_eq]
@[simp] theorem State.setSource_envLines (e : Nat) : (s.setSource e).envLines = s.envLines := by rw [State.setSource_eq]
@[simp] theorem State.setSource_sevAt (e : Nat) : (s.setSource e).sevAt = s.sevAt := by rw [State.setSource_eq]
@[simp] theorem State.setSource_therm (e : Nat) : (s.setSource e).therm = s.therm := by rw [State.setSource_eq]
@[simp] theorem State.setSource_txqs (e : Nat) : (s.setSource e).txqs = s.txqs := by rw [State.setSource_eq]
@[simp] theorem State.setSource_lanes (e : Nat) : (s.setSource e).lanes = s.lanes := by rw [State.setSource_eq]
@[simp] theorem State.setSource_nvl (e : Nat) : (s.setSource e).nvl = s.nvl := by rw [State.setSource_eq]
@[simp] theorem State.setSource_bankLost (e : Nat) : (s.setSource e).bankLost = s.bankLost := by rw [State.setSource_eq]
@[simp] theorem State.setSource_nvlTx (e : Nat) : (s.setSource e).nvlTx = s.nvlTx := by rw [State.setSource_eq]
@[simp] theorem State.setSource_bypassQ (e : Nat) : (s.setSource e).bypassQ = s.bypassQ := by rw [State.setSource_eq]
@[simp] theorem State.setSource_sdi (e : Nat) : (s.setSource e).sdi = s.sdi := by rw [State.setSource_eq]
@[simp] theorem State.setSource_portPlan (e : Nat) : (s.setSource e).portPlan = s.portPlan := by rw [State.setSource_eq]
@[simp] theorem State.setSource_rxFlows (e : Nat) : (s.setSource e).rxFlows = s.rxFlows := by rw [State.setSource_eq]
@[simp] theorem State.setSource_txRuns (e : Nat) : (s.setSource e).txRuns = s.txRuns := by rw [State.setSource_eq]
@[simp] theorem State.setSource_txFlows (e : Nat) : (s.setSource e).txFlows = s.txFlows := by rw [State.setSource_eq]
@[simp] theorem State.setSource_txBufs (e : Nat) : (s.setSource e).txBufs = s.txBufs := by rw [State.setSource_eq]
@[simp] theorem State.setSource_ethQ (e : Nat) : (s.setSource e).ethQ = s.ethQ := by rw [State.setSource_eq]
@[simp] theorem State.setSource_macs (e : Nat) : (s.setSource e).macs = s.macs := by rw [State.setSource_eq]
@[simp] theorem State.setSource_rrp (e : Nat) : (s.setSource e).rrp = s.rrp := by rw [State.setSource_eq]
@[simp] theorem State.setSource_hostParked (e : Nat) : (s.setSource e).hostParked = s.hostParked := by rw [State.setSource_eq]
@[simp] theorem State.setSource_tick (e : Nat) : (s.setSource e).tick = s.tick := by rw [State.setSource_eq]
@[simp] theorem State.setSource_tbs (e : Nat) : (s.setSource e).tbs = s.tbs := by rw [State.setSource_eq]
@[simp] theorem State.setSource_cmps (e : Nat) : (s.setSource e).cmps = s.cmps := by rw [State.setSource_eq]
@[simp] theorem State.setSource_ports (e : Nat) : (s.setSource e).ports = s.ports := by rw [State.setSource_eq]
@[simp] theorem State.setSource_txLatch (e : Nat) : (s.setSource e).txLatch = s.txLatch := by rw [State.setSource_eq]
@[simp] theorem State.setSource_cads (e : Nat) : (s.setSource e).cads = s.cads := by rw [State.setSource_eq]
@[simp] theorem State.setSource_cands (e : Nat) : (s.setSource e).cands = s.cands := by rw [State.setSource_eq]
@[simp] theorem State.setSource_ref (e : Nat) : (s.setSource e).ref = s.ref := by rw [State.setSource_eq]
@[simp] theorem State.setSource_trigArmed (e : Nat) : (s.setSource e).trigArmed = s.trigArmed := by rw [State.setSource_eq]
@[simp] theorem State.setSource_trigSignal (e : Nat) : (s.setSource e).trigSignal = s.trigSignal := by rw [State.setSource_eq]
@[simp] theorem State.setSource_audioTb (e : Nat) : (s.setSource e).audioTb = s.audioTb := by rw [State.setSource_eq]
@[simp] theorem State.setSource_audioHi (e : Nat) : (s.setSource e).audioHi = s.audioHi := by rw [State.setSource_eq]
@[simp] theorem State.setSource_audNext (e : Nat) : (s.setSource e).audNext = s.audNext := by rw [State.setSource_eq]
@[simp] theorem State.setSource_audSrc (e : Nat) : (s.setSource e).audSrc = s.audSrc := by rw [State.setSource_eq]
@[simp] theorem State.setSource_audDst (e : Nat) : (s.setSource e).audDst = s.audDst := by rw [State.setSource_eq]
@[simp] theorem State.setSource_tdm (e : Nat) : (s.setSource e).tdm = s.tdm := by rw [State.setSource_eq]
@[simp] theorem State.setSource_tdmOwner (e : Nat) : (s.setSource e).tdmOwner = s.tdmOwner := by rw [State.setSource_eq]
@[simp] theorem State.setSource_audTimes (e : Nat) : (s.setSource e).audTimes = s.audTimes := by rw [State.setSource_eq]
@[simp] theorem State.setSource_audIn (e : Nat) : (s.setSource e).audIn = s.audIn := by rw [State.setSource_eq]
@[simp] theorem State.setSource_headPlan (e : Nat) : (s.setSource e).headPlan = s.headPlan := by rw [State.setSource_eq]
@[simp] theorem State.setSource_tileHead (e : Nat) : (s.setSource e).tileHead = s.tileHead := by rw [State.setSource_eq]
@[simp] theorem State.setSource_preHead (e : Nat) : (s.setSource e).preHead = s.preHead := by rw [State.setSource_eq]
@[simp] theorem State.setSource_headRun (e : Nat) : (s.setSource e).headRun = s.headRun := by rw [State.setSource_eq]
@[simp] theorem State.setSource_tiles (e : Nat) : (s.setSource e).tiles = s.tiles := by rw [State.setSource_eq]
@[simp] theorem State.setSource_alyA (e : Nat) : (s.setSource e).alyA = s.alyA := by rw [State.setSource_eq]
@[simp] theorem State.setSource_alyB (e : Nat) : (s.setSource e).alyB = s.alyB := by rw [State.setSource_eq]
@[simp] theorem State.setSource_alyWait (e : Nat) : (s.setSource e).alyWait = s.alyWait := by rw [State.setSource_eq]
@[simp] theorem State.setSource_alyLive (e : Nat) : (s.setSource e).alyLive = s.alyLive := by rw [State.setSource_eq]
@[simp] theorem State.setSource_alyStore (e : Nat) : (s.setSource e).alyStore = s.alyStore := by rw [State.setSource_eq]
@[simp] theorem State.setSource_hbmA (e : Nat) : (s.setSource e).hbmA = s.hbmA := by rw [State.setSource_eq]
@[simp] theorem State.setSource_hbmB (e : Nat) : (s.setSource e).hbmB = s.hbmB := by rw [State.setSource_eq]
@[simp] theorem State.setSource_hbmRun (e : Nat) : (s.setSource e).hbmRun = s.hbmRun := by rw [State.setSource_eq]
@[simp] theorem State.setSource_hbmMax (e : Nat) : (s.setSource e).hbmMax = s.hbmMax := by rw [State.setSource_eq]
@[simp] theorem State.setSource_hoppers (e : Nat) : (s.setSource e).hoppers = s.hoppers := by rw [State.setSource_eq]
@[simp] theorem State.setSource_capPlan (e : Nat) : (s.setSource e).capPlan = s.capPlan := by rw [State.setSource_eq]
@[simp] theorem State.setSource_sramA (e : Nat) : (s.setSource e).sramA = s.sramA := by rw [State.setSource_eq]
@[simp] theorem State.setSource_sramB (e : Nat) : (s.setSource e).sramB = s.sramB := by rw [State.setSource_eq]
@[simp] theorem State.setSource_hbmTempAt (e : Nat) : (s.setSource e).hbmTempAt = s.hbmTempAt := by rw [State.setSource_eq]
@[simp] theorem State.setSource_audLate (e : Nat) : (s.setSource e).audLate = s.audLate := by rw [State.setSource_eq]
@[simp] theorem State.setSource_locks (e : Nat) : (s.setSource e).locks = s.locks := by rw [State.setSource_eq]
@[simp] theorem State.setSource_waiting (e : Nat) : (s.setSource e).waiting = s.waiting := by rw [State.setSource_eq]
@[simp] theorem State.setSource_grantNext (e : Nat) : (s.setSource e).grantNext = s.grantNext := by rw [State.setSource_eq]
@[simp] theorem State.setSource_winBuf (e : Nat) : (s.setSource e).winBuf = s.winBuf := by rw [State.setSource_eq]
@[simp] theorem State.setSource_msixOpen (e : Nat) : (s.setSource e).msixOpen = s.msixOpen := by rw [State.setSource_eq]
@[simp] theorem State.setSource_msixPend (e : Nat) : (s.setSource e).msixPend = s.msixPend := by rw [State.setSource_eq]
@[simp] theorem State.setSource_vecHigh (e : Nat) : (s.setSource e).vecHigh = s.vecHigh := by rw [State.setSource_eq]
@[simp] theorem State.setSource_flash0 (e : Nat) : (s.setSource e).flash0 = s.flash0 := by rw [State.setSource_eq]
@[simp] theorem State.setSource_flash1 (e : Nat) : (s.setSource e).flash1 = s.flash1 := by rw [State.setSource_eq]
@[simp] theorem State.setSource_owners (e : Nat) : (s.setSource e).owners = s.owners := by rw [State.setSource_eq]
@[simp] theorem State.setSource_svn (e : Nat) : (s.setSource e).svn = s.svn := by rw [State.setSource_eq]
@[simp] theorem State.setSource_otpOk (e : Nat) : (s.setSource e).otpOk = s.otpOk := by rw [State.setSource_eq]
@[simp] theorem State.setSource_loaded (e : Nat) : (s.setSource e).loaded = s.loaded := by rw [State.setSource_eq]
@[simp] theorem State.setSource_updMbx (e : Nat) : (s.setSource e).updMbx = s.updMbx := by rw [State.setSource_eq]
@[simp] theorem State.setSource_session (e : Nat) : (s.setSource e).session = s.session := by rw [State.setSource_eq]
@[simp] theorem State.setSource_parts (e : Nat) : (s.setSource e).parts = s.parts := by rw [State.setSource_eq]
@[simp] theorem State.setSource_updSide (e : Nat) : (s.setSource e).updSide = s.updSide := by rw [State.setSource_eq]
@[simp] theorem State.setSource_confirming (e : Nat) : (s.setSource e).confirming = s.confirming := by rw [State.setSource_eq]
@[simp] theorem State.setSource_fwHash (e : Nat) : (s.setSource e).fwHash = s.fwHash := by rw [State.setSource_eq]
@[simp] theorem State.setSource_change (e : Nat) : (s.setSource e).change = s.change := by rw [State.setSource_eq]
@[simp] theorem State.setSource_changeAt (e : Nat) : (s.setSource e).changeAt = s.changeAt := by rw [State.setSource_eq]
@[simp] theorem State.setSource_attest (e : Nat) : (s.setSource e).attest = s.attest := by rw [State.setSource_eq]
@[simp] theorem State.setSource_unlock (e : Nat) : (s.setSource e).unlock = s.unlock := by rw [State.setSource_eq]
@[simp] theorem State.setSource_tempSeen (e : Nat) : (s.setSource e).tempSeen = s.tempSeen := by rw [State.setSource_eq]
@[simp] theorem State.setSource_engs (e : Nat) : (s.setSource e).engs = s.engs := by rw [State.setSource_eq]

@[simp] theorem State.raiseW_pending (k : RegKey) (b : W32) : (s.raiseW k b).pending = s.pending := by rw [State.raiseW_eq]
@[simp] theorem State.raiseW_sideA (k : RegKey) (b : W32) : (s.raiseW k b).sideA = s.sideA := by rw [State.raiseW_eq]
@[simp] theorem State.raiseW_sideB (k : RegKey) (b : W32) : (s.raiseW k b).sideB = s.sideB := by rw [State.raiseW_eq]
@[simp] theorem State.raiseW_rights (k : RegKey) (b : W32) : (s.raiseW k b).rights = s.rights := by rw [State.raiseW_eq]
@[simp] theorem State.raiseW_plain7 (k : RegKey) (b : W32) : (s.raiseW k b).plain7 = s.plain7 := by rw [State.raiseW_eq]
@[simp] theorem State.raiseW_out (k : RegKey) (b : W32) : (s.raiseW k b).out = s.out := by rw [State.raiseW_eq]
@[simp] theorem State.raiseW_lastRead (k : RegKey) (b : W32) : (s.raiseW k b).lastRead = s.lastRead := by rw [State.raiseW_eq]
@[simp] theorem State.raiseW_freeCtr (k : RegKey) (b : W32) : (s.raiseW k b).freeCtr = s.freeCtr := by rw [State.raiseW_eq]
@[simp] theorem State.raiseW_aoReset (k : RegKey) (b : W32) : (s.raiseW k b).aoReset = s.aoReset := by rw [State.raiseW_eq]
@[simp] theorem State.raiseW_twins (k : RegKey) (b : W32) : (s.raiseW k b).twins = s.twins := by rw [State.raiseW_eq]
@[simp] theorem State.raiseW_twinQ (k : RegKey) (b : W32) : (s.raiseW k b).twinQ = s.twinQ := by rw [State.raiseW_eq]
@[simp] theorem State.raiseW_inPlan (k : RegKey) (b : W32) : (s.raiseW k b).inPlan = s.inPlan := by rw [State.raiseW_eq]
@[simp] theorem State.raiseW_inRx (k : RegKey) (b : W32) : (s.raiseW k b).inRx = s.inRx := by rw [State.raiseW_eq]
@[simp] theorem State.raiseW_merges (k : RegKey) (b : W32) : (s.raiseW k b).merges = s.merges := by rw [State.raiseW_eq]
@[simp] theorem State.raiseW_feeds (k : RegKey) (b : W32) : (s.raiseW k b).feeds = s.feeds := by rw [State.raiseW_eq]
@[simp] theorem State.raiseW_outPlan (k : RegKey) (b : W32) : (s.raiseW k b).outPlan = s.outPlan := by rw [State.raiseW_eq]
@[simp] theorem State.raiseW_routes (k : RegKey) (b : W32) : (s.raiseW k b).routes = s.routes := by rw [State.raiseW_eq]
@[simp] theorem State.raiseW_takes (k : RegKey) (b : W32) : (s.raiseW k b).takes = s.takes := by rw [State.raiseW_eq]
@[simp] theorem State.raiseW_commits (k : RegKey) (b : W32) : (s.raiseW k b).commits = s.commits := by rw [State.raiseW_eq]
@[simp] theorem State.raiseW_salvos (k : RegKey) (b : W32) : (s.raiseW k b).salvos = s.salvos := by rw [State.raiseW_eq]
@[simp] theorem State.raiseW_outs (k : RegKey) (b : W32) : (s.raiseW k b).outs = s.outs := by rw [State.raiseW_eq]
@[simp] theorem State.raiseW_shown (k : RegKey) (b : W32) : (s.raiseW k b).shown = s.shown := by rw [State.raiseW_eq]
@[simp] theorem State.raiseW_stores (k : RegKey) (b : W32) : (s.raiseW k b).stores = s.stores := by rw [State.raiseW_eq]
@[simp] theorem State.raiseW_captures (k : RegKey) (b : W32) : (s.raiseW k b).captures = s.captures := by rw [State.raiseW_eq]
@[simp] theorem State.raiseW_benches (k : RegKey) (b : W32) : (s.raiseW k b).benches = s.benches := by rw [State.raiseW_eq]
@[simp] theorem State.raiseW_benchPlan (k : RegKey) (b : W32) : (s.raiseW k b).benchPlan = s.benchPlan := by rw [State.raiseW_eq]
@[simp] theorem State.raiseW_benchIn (k : RegKey) (b : W32) : (s.raiseW k b).benchIn = s.benchIn := by rw [State.raiseW_eq]
@[simp] theorem State.raiseW_benchMem (k : RegKey) (b : W32) : (s.raiseW k b).benchMem = s.benchMem := by rw [State.raiseW_eq]
@[simp] theorem State.raiseW_leadOld (k : RegKey) (b : W32) : (s.raiseW k b).leadOld = s.leadOld := by rw [State.raiseW_eq]
@[simp] theorem State.raiseW_leaseEnd (k : RegKey) (b : W32) : (s.raiseW k b).leaseEnd = s.leaseEnd := by rw [State.raiseW_eq]
@[simp] theorem State.raiseW_grace (k : RegKey) (b : W32) : (s.raiseW k b).grace = s.grace := by rw [State.raiseW_eq]
@[simp] theorem State.raiseW_planned (k : RegKey) (b : W32) : (s.raiseW k b).planned = s.planned := by rw [State.raiseW_eq]
@[simp] theorem State.raiseW_outSince (k : RegKey) (b : W32) : (s.raiseW k b).outSince = s.outSince := by rw [State.raiseW_eq]
@[simp] theorem State.raiseW_voters (k : RegKey) (b : W32) : (s.raiseW k b).voters = s.voters := by rw [State.raiseW_eq]
@[simp] theorem State.raiseW_grantAt (k : RegKey) (b : W32) : (s.raiseW k b).grantAt = s.grantAt := by rw [State.raiseW_eq]
@[simp] theorem State.raiseW_sluices (k : RegKey) (b : W32) : (s.raiseW k b).sluices = s.sluices := by rw [State.raiseW_eq]
@[simp] theorem State.raiseW_ring (k : RegKey) (b : W32) : (s.raiseW k b).ring = s.ring := by rw [State.raiseW_eq]
@[simp] theorem State.raiseW_envLines (k : RegKey) (b : W32) : (s.raiseW k b).envLines = s.envLines := by rw [State.raiseW_eq]
@[simp] theorem State.raiseW_sevAt (k : RegKey) (b : W32) : (s.raiseW k b).sevAt = s.sevAt := by rw [State.raiseW_eq]
@[simp] theorem State.raiseW_therm (k : RegKey) (b : W32) : (s.raiseW k b).therm = s.therm := by rw [State.raiseW_eq]
@[simp] theorem State.raiseW_txqs (k : RegKey) (b : W32) : (s.raiseW k b).txqs = s.txqs := by rw [State.raiseW_eq]
@[simp] theorem State.raiseW_lanes (k : RegKey) (b : W32) : (s.raiseW k b).lanes = s.lanes := by rw [State.raiseW_eq]
@[simp] theorem State.raiseW_nvl (k : RegKey) (b : W32) : (s.raiseW k b).nvl = s.nvl := by rw [State.raiseW_eq]
@[simp] theorem State.raiseW_bankLost (k : RegKey) (b : W32) : (s.raiseW k b).bankLost = s.bankLost := by rw [State.raiseW_eq]
@[simp] theorem State.raiseW_nvlTx (k : RegKey) (b : W32) : (s.raiseW k b).nvlTx = s.nvlTx := by rw [State.raiseW_eq]
@[simp] theorem State.raiseW_bypassQ (k : RegKey) (b : W32) : (s.raiseW k b).bypassQ = s.bypassQ := by rw [State.raiseW_eq]
@[simp] theorem State.raiseW_sdi (k : RegKey) (b : W32) : (s.raiseW k b).sdi = s.sdi := by rw [State.raiseW_eq]
@[simp] theorem State.raiseW_portPlan (k : RegKey) (b : W32) : (s.raiseW k b).portPlan = s.portPlan := by rw [State.raiseW_eq]
@[simp] theorem State.raiseW_rxFlows (k : RegKey) (b : W32) : (s.raiseW k b).rxFlows = s.rxFlows := by rw [State.raiseW_eq]
@[simp] theorem State.raiseW_txRuns (k : RegKey) (b : W32) : (s.raiseW k b).txRuns = s.txRuns := by rw [State.raiseW_eq]
@[simp] theorem State.raiseW_txFlows (k : RegKey) (b : W32) : (s.raiseW k b).txFlows = s.txFlows := by rw [State.raiseW_eq]
@[simp] theorem State.raiseW_txBufs (k : RegKey) (b : W32) : (s.raiseW k b).txBufs = s.txBufs := by rw [State.raiseW_eq]
@[simp] theorem State.raiseW_ethQ (k : RegKey) (b : W32) : (s.raiseW k b).ethQ = s.ethQ := by rw [State.raiseW_eq]
@[simp] theorem State.raiseW_macs (k : RegKey) (b : W32) : (s.raiseW k b).macs = s.macs := by rw [State.raiseW_eq]
@[simp] theorem State.raiseW_rrp (k : RegKey) (b : W32) : (s.raiseW k b).rrp = s.rrp := by rw [State.raiseW_eq]
@[simp] theorem State.raiseW_hostParked (k : RegKey) (b : W32) : (s.raiseW k b).hostParked = s.hostParked := by rw [State.raiseW_eq]
@[simp] theorem State.raiseW_tick (k : RegKey) (b : W32) : (s.raiseW k b).tick = s.tick := by rw [State.raiseW_eq]
@[simp] theorem State.raiseW_tbs (k : RegKey) (b : W32) : (s.raiseW k b).tbs = s.tbs := by rw [State.raiseW_eq]
@[simp] theorem State.raiseW_cmps (k : RegKey) (b : W32) : (s.raiseW k b).cmps = s.cmps := by rw [State.raiseW_eq]
@[simp] theorem State.raiseW_ports (k : RegKey) (b : W32) : (s.raiseW k b).ports = s.ports := by rw [State.raiseW_eq]
@[simp] theorem State.raiseW_txLatch (k : RegKey) (b : W32) : (s.raiseW k b).txLatch = s.txLatch := by rw [State.raiseW_eq]
@[simp] theorem State.raiseW_cads (k : RegKey) (b : W32) : (s.raiseW k b).cads = s.cads := by rw [State.raiseW_eq]
@[simp] theorem State.raiseW_cands (k : RegKey) (b : W32) : (s.raiseW k b).cands = s.cands := by rw [State.raiseW_eq]
@[simp] theorem State.raiseW_ref (k : RegKey) (b : W32) : (s.raiseW k b).ref = s.ref := by rw [State.raiseW_eq]
@[simp] theorem State.raiseW_trigArmed (k : RegKey) (b : W32) : (s.raiseW k b).trigArmed = s.trigArmed := by rw [State.raiseW_eq]
@[simp] theorem State.raiseW_trigSignal (k : RegKey) (b : W32) : (s.raiseW k b).trigSignal = s.trigSignal := by rw [State.raiseW_eq]
@[simp] theorem State.raiseW_audioTb (k : RegKey) (b : W32) : (s.raiseW k b).audioTb = s.audioTb := by rw [State.raiseW_eq]
@[simp] theorem State.raiseW_audioHi (k : RegKey) (b : W32) : (s.raiseW k b).audioHi = s.audioHi := by rw [State.raiseW_eq]
@[simp] theorem State.raiseW_audNext (k : RegKey) (b : W32) : (s.raiseW k b).audNext = s.audNext := by rw [State.raiseW_eq]
@[simp] theorem State.raiseW_audSrc (k : RegKey) (b : W32) : (s.raiseW k b).audSrc = s.audSrc := by rw [State.raiseW_eq]
@[simp] theorem State.raiseW_audDst (k : RegKey) (b : W32) : (s.raiseW k b).audDst = s.audDst := by rw [State.raiseW_eq]
@[simp] theorem State.raiseW_tdm (k : RegKey) (b : W32) : (s.raiseW k b).tdm = s.tdm := by rw [State.raiseW_eq]
@[simp] theorem State.raiseW_tdmOwner (k : RegKey) (b : W32) : (s.raiseW k b).tdmOwner = s.tdmOwner := by rw [State.raiseW_eq]
@[simp] theorem State.raiseW_audTimes (k : RegKey) (b : W32) : (s.raiseW k b).audTimes = s.audTimes := by rw [State.raiseW_eq]
@[simp] theorem State.raiseW_audIn (k : RegKey) (b : W32) : (s.raiseW k b).audIn = s.audIn := by rw [State.raiseW_eq]
@[simp] theorem State.raiseW_headPlan (k : RegKey) (b : W32) : (s.raiseW k b).headPlan = s.headPlan := by rw [State.raiseW_eq]
@[simp] theorem State.raiseW_tileHead (k : RegKey) (b : W32) : (s.raiseW k b).tileHead = s.tileHead := by rw [State.raiseW_eq]
@[simp] theorem State.raiseW_preHead (k : RegKey) (b : W32) : (s.raiseW k b).preHead = s.preHead := by rw [State.raiseW_eq]
@[simp] theorem State.raiseW_headRun (k : RegKey) (b : W32) : (s.raiseW k b).headRun = s.headRun := by rw [State.raiseW_eq]
@[simp] theorem State.raiseW_tiles (k : RegKey) (b : W32) : (s.raiseW k b).tiles = s.tiles := by rw [State.raiseW_eq]
@[simp] theorem State.raiseW_alyA (k : RegKey) (b : W32) : (s.raiseW k b).alyA = s.alyA := by rw [State.raiseW_eq]
@[simp] theorem State.raiseW_alyB (k : RegKey) (b : W32) : (s.raiseW k b).alyB = s.alyB := by rw [State.raiseW_eq]
@[simp] theorem State.raiseW_alyWait (k : RegKey) (b : W32) : (s.raiseW k b).alyWait = s.alyWait := by rw [State.raiseW_eq]
@[simp] theorem State.raiseW_alyLive (k : RegKey) (b : W32) : (s.raiseW k b).alyLive = s.alyLive := by rw [State.raiseW_eq]
@[simp] theorem State.raiseW_alyStore (k : RegKey) (b : W32) : (s.raiseW k b).alyStore = s.alyStore := by rw [State.raiseW_eq]
@[simp] theorem State.raiseW_hbmA (k : RegKey) (b : W32) : (s.raiseW k b).hbmA = s.hbmA := by rw [State.raiseW_eq]
@[simp] theorem State.raiseW_hbmB (k : RegKey) (b : W32) : (s.raiseW k b).hbmB = s.hbmB := by rw [State.raiseW_eq]
@[simp] theorem State.raiseW_hbmRun (k : RegKey) (b : W32) : (s.raiseW k b).hbmRun = s.hbmRun := by rw [State.raiseW_eq]
@[simp] theorem State.raiseW_hbmMax (k : RegKey) (b : W32) : (s.raiseW k b).hbmMax = s.hbmMax := by rw [State.raiseW_eq]
@[simp] theorem State.raiseW_hoppers (k : RegKey) (b : W32) : (s.raiseW k b).hoppers = s.hoppers := by rw [State.raiseW_eq]
@[simp] theorem State.raiseW_capPlan (k : RegKey) (b : W32) : (s.raiseW k b).capPlan = s.capPlan := by rw [State.raiseW_eq]
@[simp] theorem State.raiseW_sramA (k : RegKey) (b : W32) : (s.raiseW k b).sramA = s.sramA := by rw [State.raiseW_eq]
@[simp] theorem State.raiseW_sramB (k : RegKey) (b : W32) : (s.raiseW k b).sramB = s.sramB := by rw [State.raiseW_eq]
@[simp] theorem State.raiseW_hbmTempAt (k : RegKey) (b : W32) : (s.raiseW k b).hbmTempAt = s.hbmTempAt := by rw [State.raiseW_eq]
@[simp] theorem State.raiseW_audLate (k : RegKey) (b : W32) : (s.raiseW k b).audLate = s.audLate := by rw [State.raiseW_eq]
@[simp] theorem State.raiseW_locks (k : RegKey) (b : W32) : (s.raiseW k b).locks = s.locks := by rw [State.raiseW_eq]
@[simp] theorem State.raiseW_waiting (k : RegKey) (b : W32) : (s.raiseW k b).waiting = s.waiting := by rw [State.raiseW_eq]
@[simp] theorem State.raiseW_grantNext (k : RegKey) (b : W32) : (s.raiseW k b).grantNext = s.grantNext := by rw [State.raiseW_eq]
@[simp] theorem State.raiseW_winBuf (k : RegKey) (b : W32) : (s.raiseW k b).winBuf = s.winBuf := by rw [State.raiseW_eq]
@[simp] theorem State.raiseW_msixOpen (k : RegKey) (b : W32) : (s.raiseW k b).msixOpen = s.msixOpen := by rw [State.raiseW_eq]
@[simp] theorem State.raiseW_msixPend (k : RegKey) (b : W32) : (s.raiseW k b).msixPend = s.msixPend := by rw [State.raiseW_eq]
@[simp] theorem State.raiseW_vecHigh (k : RegKey) (b : W32) : (s.raiseW k b).vecHigh = s.vecHigh := by rw [State.raiseW_eq]
@[simp] theorem State.raiseW_flash0 (k : RegKey) (b : W32) : (s.raiseW k b).flash0 = s.flash0 := by rw [State.raiseW_eq]
@[simp] theorem State.raiseW_flash1 (k : RegKey) (b : W32) : (s.raiseW k b).flash1 = s.flash1 := by rw [State.raiseW_eq]
@[simp] theorem State.raiseW_owners (k : RegKey) (b : W32) : (s.raiseW k b).owners = s.owners := by rw [State.raiseW_eq]
@[simp] theorem State.raiseW_svn (k : RegKey) (b : W32) : (s.raiseW k b).svn = s.svn := by rw [State.raiseW_eq]
@[simp] theorem State.raiseW_otpOk (k : RegKey) (b : W32) : (s.raiseW k b).otpOk = s.otpOk := by rw [State.raiseW_eq]
@[simp] theorem State.raiseW_loaded (k : RegKey) (b : W32) : (s.raiseW k b).loaded = s.loaded := by rw [State.raiseW_eq]
@[simp] theorem State.raiseW_updMbx (k : RegKey) (b : W32) : (s.raiseW k b).updMbx = s.updMbx := by rw [State.raiseW_eq]
@[simp] theorem State.raiseW_session (k : RegKey) (b : W32) : (s.raiseW k b).session = s.session := by rw [State.raiseW_eq]
@[simp] theorem State.raiseW_parts (k : RegKey) (b : W32) : (s.raiseW k b).parts = s.parts := by rw [State.raiseW_eq]
@[simp] theorem State.raiseW_updSide (k : RegKey) (b : W32) : (s.raiseW k b).updSide = s.updSide := by rw [State.raiseW_eq]
@[simp] theorem State.raiseW_confirming (k : RegKey) (b : W32) : (s.raiseW k b).confirming = s.confirming := by rw [State.raiseW_eq]
@[simp] theorem State.raiseW_fwHash (k : RegKey) (b : W32) : (s.raiseW k b).fwHash = s.fwHash := by rw [State.raiseW_eq]
@[simp] theorem State.raiseW_change (k : RegKey) (b : W32) : (s.raiseW k b).change = s.change := by rw [State.raiseW_eq]
@[simp] theorem State.raiseW_changeAt (k : RegKey) (b : W32) : (s.raiseW k b).changeAt = s.changeAt := by rw [State.raiseW_eq]
@[simp] theorem State.raiseW_attest (k : RegKey) (b : W32) : (s.raiseW k b).attest = s.attest := by rw [State.raiseW_eq]
@[simp] theorem State.raiseW_unlock (k : RegKey) (b : W32) : (s.raiseW k b).unlock = s.unlock := by rw [State.raiseW_eq]
@[simp] theorem State.raiseW_tempSeen (k : RegKey) (b : W32) : (s.raiseW k b).tempSeen = s.tempSeen := by rw [State.raiseW_eq]
@[simp] theorem State.raiseW_engs (k : RegKey) (b : W32) : (s.raiseW k b).engs = s.engs := by rw [State.raiseW_eq]

@[simp] theorem State.raise_pending (k : RegKey) (f : Fld) : (s.raise k f).pending = s.pending := by rw [State.raise_eq]
@[simp] theorem State.raise_sideA (k : RegKey) (f : Fld) : (s.raise k f).sideA = s.sideA := by rw [State.raise_eq]
@[simp] theorem State.raise_sideB (k : RegKey) (f : Fld) : (s.raise k f).sideB = s.sideB := by rw [State.raise_eq]
@[simp] theorem State.raise_rights (k : RegKey) (f : Fld) : (s.raise k f).rights = s.rights := by rw [State.raise_eq]
@[simp] theorem State.raise_plain7 (k : RegKey) (f : Fld) : (s.raise k f).plain7 = s.plain7 := by rw [State.raise_eq]
@[simp] theorem State.raise_out (k : RegKey) (f : Fld) : (s.raise k f).out = s.out := by rw [State.raise_eq]
@[simp] theorem State.raise_lastRead (k : RegKey) (f : Fld) : (s.raise k f).lastRead = s.lastRead := by rw [State.raise_eq]
@[simp] theorem State.raise_freeCtr (k : RegKey) (f : Fld) : (s.raise k f).freeCtr = s.freeCtr := by rw [State.raise_eq]
@[simp] theorem State.raise_aoReset (k : RegKey) (f : Fld) : (s.raise k f).aoReset = s.aoReset := by rw [State.raise_eq]
@[simp] theorem State.raise_twins (k : RegKey) (f : Fld) : (s.raise k f).twins = s.twins := by rw [State.raise_eq]
@[simp] theorem State.raise_twinQ (k : RegKey) (f : Fld) : (s.raise k f).twinQ = s.twinQ := by rw [State.raise_eq]
@[simp] theorem State.raise_inPlan (k : RegKey) (f : Fld) : (s.raise k f).inPlan = s.inPlan := by rw [State.raise_eq]
@[simp] theorem State.raise_inRx (k : RegKey) (f : Fld) : (s.raise k f).inRx = s.inRx := by rw [State.raise_eq]
@[simp] theorem State.raise_merges (k : RegKey) (f : Fld) : (s.raise k f).merges = s.merges := by rw [State.raise_eq]
@[simp] theorem State.raise_feeds (k : RegKey) (f : Fld) : (s.raise k f).feeds = s.feeds := by rw [State.raise_eq]
@[simp] theorem State.raise_outPlan (k : RegKey) (f : Fld) : (s.raise k f).outPlan = s.outPlan := by rw [State.raise_eq]
@[simp] theorem State.raise_routes (k : RegKey) (f : Fld) : (s.raise k f).routes = s.routes := by rw [State.raise_eq]
@[simp] theorem State.raise_takes (k : RegKey) (f : Fld) : (s.raise k f).takes = s.takes := by rw [State.raise_eq]
@[simp] theorem State.raise_commits (k : RegKey) (f : Fld) : (s.raise k f).commits = s.commits := by rw [State.raise_eq]
@[simp] theorem State.raise_salvos (k : RegKey) (f : Fld) : (s.raise k f).salvos = s.salvos := by rw [State.raise_eq]
@[simp] theorem State.raise_outs (k : RegKey) (f : Fld) : (s.raise k f).outs = s.outs := by rw [State.raise_eq]
@[simp] theorem State.raise_shown (k : RegKey) (f : Fld) : (s.raise k f).shown = s.shown := by rw [State.raise_eq]
@[simp] theorem State.raise_stores (k : RegKey) (f : Fld) : (s.raise k f).stores = s.stores := by rw [State.raise_eq]
@[simp] theorem State.raise_captures (k : RegKey) (f : Fld) : (s.raise k f).captures = s.captures := by rw [State.raise_eq]
@[simp] theorem State.raise_benches (k : RegKey) (f : Fld) : (s.raise k f).benches = s.benches := by rw [State.raise_eq]
@[simp] theorem State.raise_benchPlan (k : RegKey) (f : Fld) : (s.raise k f).benchPlan = s.benchPlan := by rw [State.raise_eq]
@[simp] theorem State.raise_benchIn (k : RegKey) (f : Fld) : (s.raise k f).benchIn = s.benchIn := by rw [State.raise_eq]
@[simp] theorem State.raise_benchMem (k : RegKey) (f : Fld) : (s.raise k f).benchMem = s.benchMem := by rw [State.raise_eq]
@[simp] theorem State.raise_leadOld (k : RegKey) (f : Fld) : (s.raise k f).leadOld = s.leadOld := by rw [State.raise_eq]
@[simp] theorem State.raise_leaseEnd (k : RegKey) (f : Fld) : (s.raise k f).leaseEnd = s.leaseEnd := by rw [State.raise_eq]
@[simp] theorem State.raise_grace (k : RegKey) (f : Fld) : (s.raise k f).grace = s.grace := by rw [State.raise_eq]
@[simp] theorem State.raise_planned (k : RegKey) (f : Fld) : (s.raise k f).planned = s.planned := by rw [State.raise_eq]
@[simp] theorem State.raise_outSince (k : RegKey) (f : Fld) : (s.raise k f).outSince = s.outSince := by rw [State.raise_eq]
@[simp] theorem State.raise_voters (k : RegKey) (f : Fld) : (s.raise k f).voters = s.voters := by rw [State.raise_eq]
@[simp] theorem State.raise_grantAt (k : RegKey) (f : Fld) : (s.raise k f).grantAt = s.grantAt := by rw [State.raise_eq]
@[simp] theorem State.raise_sluices (k : RegKey) (f : Fld) : (s.raise k f).sluices = s.sluices := by rw [State.raise_eq]
@[simp] theorem State.raise_ring (k : RegKey) (f : Fld) : (s.raise k f).ring = s.ring := by rw [State.raise_eq]
@[simp] theorem State.raise_envLines (k : RegKey) (f : Fld) : (s.raise k f).envLines = s.envLines := by rw [State.raise_eq]
@[simp] theorem State.raise_sevAt (k : RegKey) (f : Fld) : (s.raise k f).sevAt = s.sevAt := by rw [State.raise_eq]
@[simp] theorem State.raise_therm (k : RegKey) (f : Fld) : (s.raise k f).therm = s.therm := by rw [State.raise_eq]
@[simp] theorem State.raise_txqs (k : RegKey) (f : Fld) : (s.raise k f).txqs = s.txqs := by rw [State.raise_eq]
@[simp] theorem State.raise_lanes (k : RegKey) (f : Fld) : (s.raise k f).lanes = s.lanes := by rw [State.raise_eq]
@[simp] theorem State.raise_nvl (k : RegKey) (f : Fld) : (s.raise k f).nvl = s.nvl := by rw [State.raise_eq]
@[simp] theorem State.raise_bankLost (k : RegKey) (f : Fld) : (s.raise k f).bankLost = s.bankLost := by rw [State.raise_eq]
@[simp] theorem State.raise_nvlTx (k : RegKey) (f : Fld) : (s.raise k f).nvlTx = s.nvlTx := by rw [State.raise_eq]
@[simp] theorem State.raise_bypassQ (k : RegKey) (f : Fld) : (s.raise k f).bypassQ = s.bypassQ := by rw [State.raise_eq]
@[simp] theorem State.raise_sdi (k : RegKey) (f : Fld) : (s.raise k f).sdi = s.sdi := by rw [State.raise_eq]
@[simp] theorem State.raise_portPlan (k : RegKey) (f : Fld) : (s.raise k f).portPlan = s.portPlan := by rw [State.raise_eq]
@[simp] theorem State.raise_rxFlows (k : RegKey) (f : Fld) : (s.raise k f).rxFlows = s.rxFlows := by rw [State.raise_eq]
@[simp] theorem State.raise_txRuns (k : RegKey) (f : Fld) : (s.raise k f).txRuns = s.txRuns := by rw [State.raise_eq]
@[simp] theorem State.raise_txFlows (k : RegKey) (f : Fld) : (s.raise k f).txFlows = s.txFlows := by rw [State.raise_eq]
@[simp] theorem State.raise_txBufs (k : RegKey) (f : Fld) : (s.raise k f).txBufs = s.txBufs := by rw [State.raise_eq]
@[simp] theorem State.raise_ethQ (k : RegKey) (f : Fld) : (s.raise k f).ethQ = s.ethQ := by rw [State.raise_eq]
@[simp] theorem State.raise_macs (k : RegKey) (f : Fld) : (s.raise k f).macs = s.macs := by rw [State.raise_eq]
@[simp] theorem State.raise_rrp (k : RegKey) (f : Fld) : (s.raise k f).rrp = s.rrp := by rw [State.raise_eq]
@[simp] theorem State.raise_hostParked (k : RegKey) (f : Fld) : (s.raise k f).hostParked = s.hostParked := by rw [State.raise_eq]
@[simp] theorem State.raise_tick (k : RegKey) (f : Fld) : (s.raise k f).tick = s.tick := by rw [State.raise_eq]
@[simp] theorem State.raise_tbs (k : RegKey) (f : Fld) : (s.raise k f).tbs = s.tbs := by rw [State.raise_eq]
@[simp] theorem State.raise_cmps (k : RegKey) (f : Fld) : (s.raise k f).cmps = s.cmps := by rw [State.raise_eq]
@[simp] theorem State.raise_ports (k : RegKey) (f : Fld) : (s.raise k f).ports = s.ports := by rw [State.raise_eq]
@[simp] theorem State.raise_txLatch (k : RegKey) (f : Fld) : (s.raise k f).txLatch = s.txLatch := by rw [State.raise_eq]
@[simp] theorem State.raise_cads (k : RegKey) (f : Fld) : (s.raise k f).cads = s.cads := by rw [State.raise_eq]
@[simp] theorem State.raise_cands (k : RegKey) (f : Fld) : (s.raise k f).cands = s.cands := by rw [State.raise_eq]
@[simp] theorem State.raise_ref (k : RegKey) (f : Fld) : (s.raise k f).ref = s.ref := by rw [State.raise_eq]
@[simp] theorem State.raise_trigArmed (k : RegKey) (f : Fld) : (s.raise k f).trigArmed = s.trigArmed := by rw [State.raise_eq]
@[simp] theorem State.raise_trigSignal (k : RegKey) (f : Fld) : (s.raise k f).trigSignal = s.trigSignal := by rw [State.raise_eq]
@[simp] theorem State.raise_audioTb (k : RegKey) (f : Fld) : (s.raise k f).audioTb = s.audioTb := by rw [State.raise_eq]
@[simp] theorem State.raise_audioHi (k : RegKey) (f : Fld) : (s.raise k f).audioHi = s.audioHi := by rw [State.raise_eq]
@[simp] theorem State.raise_audNext (k : RegKey) (f : Fld) : (s.raise k f).audNext = s.audNext := by rw [State.raise_eq]
@[simp] theorem State.raise_audSrc (k : RegKey) (f : Fld) : (s.raise k f).audSrc = s.audSrc := by rw [State.raise_eq]
@[simp] theorem State.raise_audDst (k : RegKey) (f : Fld) : (s.raise k f).audDst = s.audDst := by rw [State.raise_eq]
@[simp] theorem State.raise_tdm (k : RegKey) (f : Fld) : (s.raise k f).tdm = s.tdm := by rw [State.raise_eq]
@[simp] theorem State.raise_tdmOwner (k : RegKey) (f : Fld) : (s.raise k f).tdmOwner = s.tdmOwner := by rw [State.raise_eq]
@[simp] theorem State.raise_audTimes (k : RegKey) (f : Fld) : (s.raise k f).audTimes = s.audTimes := by rw [State.raise_eq]
@[simp] theorem State.raise_audIn (k : RegKey) (f : Fld) : (s.raise k f).audIn = s.audIn := by rw [State.raise_eq]
@[simp] theorem State.raise_headPlan (k : RegKey) (f : Fld) : (s.raise k f).headPlan = s.headPlan := by rw [State.raise_eq]
@[simp] theorem State.raise_tileHead (k : RegKey) (f : Fld) : (s.raise k f).tileHead = s.tileHead := by rw [State.raise_eq]
@[simp] theorem State.raise_preHead (k : RegKey) (f : Fld) : (s.raise k f).preHead = s.preHead := by rw [State.raise_eq]
@[simp] theorem State.raise_headRun (k : RegKey) (f : Fld) : (s.raise k f).headRun = s.headRun := by rw [State.raise_eq]
@[simp] theorem State.raise_tiles (k : RegKey) (f : Fld) : (s.raise k f).tiles = s.tiles := by rw [State.raise_eq]
@[simp] theorem State.raise_alyA (k : RegKey) (f : Fld) : (s.raise k f).alyA = s.alyA := by rw [State.raise_eq]
@[simp] theorem State.raise_alyB (k : RegKey) (f : Fld) : (s.raise k f).alyB = s.alyB := by rw [State.raise_eq]
@[simp] theorem State.raise_alyWait (k : RegKey) (f : Fld) : (s.raise k f).alyWait = s.alyWait := by rw [State.raise_eq]
@[simp] theorem State.raise_alyLive (k : RegKey) (f : Fld) : (s.raise k f).alyLive = s.alyLive := by rw [State.raise_eq]
@[simp] theorem State.raise_alyStore (k : RegKey) (f : Fld) : (s.raise k f).alyStore = s.alyStore := by rw [State.raise_eq]
@[simp] theorem State.raise_hbmA (k : RegKey) (f : Fld) : (s.raise k f).hbmA = s.hbmA := by rw [State.raise_eq]
@[simp] theorem State.raise_hbmB (k : RegKey) (f : Fld) : (s.raise k f).hbmB = s.hbmB := by rw [State.raise_eq]
@[simp] theorem State.raise_hbmRun (k : RegKey) (f : Fld) : (s.raise k f).hbmRun = s.hbmRun := by rw [State.raise_eq]
@[simp] theorem State.raise_hbmMax (k : RegKey) (f : Fld) : (s.raise k f).hbmMax = s.hbmMax := by rw [State.raise_eq]
@[simp] theorem State.raise_hoppers (k : RegKey) (f : Fld) : (s.raise k f).hoppers = s.hoppers := by rw [State.raise_eq]
@[simp] theorem State.raise_capPlan (k : RegKey) (f : Fld) : (s.raise k f).capPlan = s.capPlan := by rw [State.raise_eq]
@[simp] theorem State.raise_sramA (k : RegKey) (f : Fld) : (s.raise k f).sramA = s.sramA := by rw [State.raise_eq]
@[simp] theorem State.raise_sramB (k : RegKey) (f : Fld) : (s.raise k f).sramB = s.sramB := by rw [State.raise_eq]
@[simp] theorem State.raise_hbmTempAt (k : RegKey) (f : Fld) : (s.raise k f).hbmTempAt = s.hbmTempAt := by rw [State.raise_eq]
@[simp] theorem State.raise_audLate (k : RegKey) (f : Fld) : (s.raise k f).audLate = s.audLate := by rw [State.raise_eq]
@[simp] theorem State.raise_locks (k : RegKey) (f : Fld) : (s.raise k f).locks = s.locks := by rw [State.raise_eq]
@[simp] theorem State.raise_waiting (k : RegKey) (f : Fld) : (s.raise k f).waiting = s.waiting := by rw [State.raise_eq]
@[simp] theorem State.raise_grantNext (k : RegKey) (f : Fld) : (s.raise k f).grantNext = s.grantNext := by rw [State.raise_eq]
@[simp] theorem State.raise_winBuf (k : RegKey) (f : Fld) : (s.raise k f).winBuf = s.winBuf := by rw [State.raise_eq]
@[simp] theorem State.raise_msixOpen (k : RegKey) (f : Fld) : (s.raise k f).msixOpen = s.msixOpen := by rw [State.raise_eq]
@[simp] theorem State.raise_msixPend (k : RegKey) (f : Fld) : (s.raise k f).msixPend = s.msixPend := by rw [State.raise_eq]
@[simp] theorem State.raise_vecHigh (k : RegKey) (f : Fld) : (s.raise k f).vecHigh = s.vecHigh := by rw [State.raise_eq]
@[simp] theorem State.raise_flash0 (k : RegKey) (f : Fld) : (s.raise k f).flash0 = s.flash0 := by rw [State.raise_eq]
@[simp] theorem State.raise_flash1 (k : RegKey) (f : Fld) : (s.raise k f).flash1 = s.flash1 := by rw [State.raise_eq]
@[simp] theorem State.raise_owners (k : RegKey) (f : Fld) : (s.raise k f).owners = s.owners := by rw [State.raise_eq]
@[simp] theorem State.raise_svn (k : RegKey) (f : Fld) : (s.raise k f).svn = s.svn := by rw [State.raise_eq]
@[simp] theorem State.raise_otpOk (k : RegKey) (f : Fld) : (s.raise k f).otpOk = s.otpOk := by rw [State.raise_eq]
@[simp] theorem State.raise_loaded (k : RegKey) (f : Fld) : (s.raise k f).loaded = s.loaded := by rw [State.raise_eq]
@[simp] theorem State.raise_updMbx (k : RegKey) (f : Fld) : (s.raise k f).updMbx = s.updMbx := by rw [State.raise_eq]
@[simp] theorem State.raise_session (k : RegKey) (f : Fld) : (s.raise k f).session = s.session := by rw [State.raise_eq]
@[simp] theorem State.raise_parts (k : RegKey) (f : Fld) : (s.raise k f).parts = s.parts := by rw [State.raise_eq]
@[simp] theorem State.raise_updSide (k : RegKey) (f : Fld) : (s.raise k f).updSide = s.updSide := by rw [State.raise_eq]
@[simp] theorem State.raise_confirming (k : RegKey) (f : Fld) : (s.raise k f).confirming = s.confirming := by rw [State.raise_eq]
@[simp] theorem State.raise_fwHash (k : RegKey) (f : Fld) : (s.raise k f).fwHash = s.fwHash := by rw [State.raise_eq]
@[simp] theorem State.raise_change (k : RegKey) (f : Fld) : (s.raise k f).change = s.change := by rw [State.raise_eq]
@[simp] theorem State.raise_changeAt (k : RegKey) (f : Fld) : (s.raise k f).changeAt = s.changeAt := by rw [State.raise_eq]
@[simp] theorem State.raise_attest (k : RegKey) (f : Fld) : (s.raise k f).attest = s.attest := by rw [State.raise_eq]
@[simp] theorem State.raise_unlock (k : RegKey) (f : Fld) : (s.raise k f).unlock = s.unlock := by rw [State.raise_eq]
@[simp] theorem State.raise_tempSeen (k : RegKey) (f : Fld) : (s.raise k f).tempSeen = s.tempSeen := by rw [State.raise_eq]
@[simp] theorem State.raise_engs (k : RegKey) (f : Fld) : (s.raise k f).engs = s.engs := by rw [State.raise_eq]

@[simp] theorem State.raiseIf_pending (c : Bool) (k : RegKey) (f : Fld) : (s.raiseIf c k f).pending = s.pending := by rw [State.raiseIf_eq]
@[simp] theorem State.raiseIf_sideA (c : Bool) (k : RegKey) (f : Fld) : (s.raiseIf c k f).sideA = s.sideA := by rw [State.raiseIf_eq]
@[simp] theorem State.raiseIf_sideB (c : Bool) (k : RegKey) (f : Fld) : (s.raiseIf c k f).sideB = s.sideB := by rw [State.raiseIf_eq]
@[simp] theorem State.raiseIf_rights (c : Bool) (k : RegKey) (f : Fld) : (s.raiseIf c k f).rights = s.rights := by rw [State.raiseIf_eq]
@[simp] theorem State.raiseIf_plain7 (c : Bool) (k : RegKey) (f : Fld) : (s.raiseIf c k f).plain7 = s.plain7 := by rw [State.raiseIf_eq]
@[simp] theorem State.raiseIf_out (c : Bool) (k : RegKey) (f : Fld) : (s.raiseIf c k f).out = s.out := by rw [State.raiseIf_eq]
@[simp] theorem State.raiseIf_lastRead (c : Bool) (k : RegKey) (f : Fld) : (s.raiseIf c k f).lastRead = s.lastRead := by rw [State.raiseIf_eq]
@[simp] theorem State.raiseIf_freeCtr (c : Bool) (k : RegKey) (f : Fld) : (s.raiseIf c k f).freeCtr = s.freeCtr := by rw [State.raiseIf_eq]
@[simp] theorem State.raiseIf_aoReset (c : Bool) (k : RegKey) (f : Fld) : (s.raiseIf c k f).aoReset = s.aoReset := by rw [State.raiseIf_eq]
@[simp] theorem State.raiseIf_twins (c : Bool) (k : RegKey) (f : Fld) : (s.raiseIf c k f).twins = s.twins := by rw [State.raiseIf_eq]
@[simp] theorem State.raiseIf_twinQ (c : Bool) (k : RegKey) (f : Fld) : (s.raiseIf c k f).twinQ = s.twinQ := by rw [State.raiseIf_eq]
@[simp] theorem State.raiseIf_inPlan (c : Bool) (k : RegKey) (f : Fld) : (s.raiseIf c k f).inPlan = s.inPlan := by rw [State.raiseIf_eq]
@[simp] theorem State.raiseIf_inRx (c : Bool) (k : RegKey) (f : Fld) : (s.raiseIf c k f).inRx = s.inRx := by rw [State.raiseIf_eq]
@[simp] theorem State.raiseIf_merges (c : Bool) (k : RegKey) (f : Fld) : (s.raiseIf c k f).merges = s.merges := by rw [State.raiseIf_eq]
@[simp] theorem State.raiseIf_feeds (c : Bool) (k : RegKey) (f : Fld) : (s.raiseIf c k f).feeds = s.feeds := by rw [State.raiseIf_eq]
@[simp] theorem State.raiseIf_outPlan (c : Bool) (k : RegKey) (f : Fld) : (s.raiseIf c k f).outPlan = s.outPlan := by rw [State.raiseIf_eq]
@[simp] theorem State.raiseIf_routes (c : Bool) (k : RegKey) (f : Fld) : (s.raiseIf c k f).routes = s.routes := by rw [State.raiseIf_eq]
@[simp] theorem State.raiseIf_takes (c : Bool) (k : RegKey) (f : Fld) : (s.raiseIf c k f).takes = s.takes := by rw [State.raiseIf_eq]
@[simp] theorem State.raiseIf_commits (c : Bool) (k : RegKey) (f : Fld) : (s.raiseIf c k f).commits = s.commits := by rw [State.raiseIf_eq]
@[simp] theorem State.raiseIf_salvos (c : Bool) (k : RegKey) (f : Fld) : (s.raiseIf c k f).salvos = s.salvos := by rw [State.raiseIf_eq]
@[simp] theorem State.raiseIf_outs (c : Bool) (k : RegKey) (f : Fld) : (s.raiseIf c k f).outs = s.outs := by rw [State.raiseIf_eq]
@[simp] theorem State.raiseIf_shown (c : Bool) (k : RegKey) (f : Fld) : (s.raiseIf c k f).shown = s.shown := by rw [State.raiseIf_eq]
@[simp] theorem State.raiseIf_stores (c : Bool) (k : RegKey) (f : Fld) : (s.raiseIf c k f).stores = s.stores := by rw [State.raiseIf_eq]
@[simp] theorem State.raiseIf_captures (c : Bool) (k : RegKey) (f : Fld) : (s.raiseIf c k f).captures = s.captures := by rw [State.raiseIf_eq]
@[simp] theorem State.raiseIf_benches (c : Bool) (k : RegKey) (f : Fld) : (s.raiseIf c k f).benches = s.benches := by rw [State.raiseIf_eq]
@[simp] theorem State.raiseIf_benchPlan (c : Bool) (k : RegKey) (f : Fld) : (s.raiseIf c k f).benchPlan = s.benchPlan := by rw [State.raiseIf_eq]
@[simp] theorem State.raiseIf_benchIn (c : Bool) (k : RegKey) (f : Fld) : (s.raiseIf c k f).benchIn = s.benchIn := by rw [State.raiseIf_eq]
@[simp] theorem State.raiseIf_benchMem (c : Bool) (k : RegKey) (f : Fld) : (s.raiseIf c k f).benchMem = s.benchMem := by rw [State.raiseIf_eq]
@[simp] theorem State.raiseIf_leadOld (c : Bool) (k : RegKey) (f : Fld) : (s.raiseIf c k f).leadOld = s.leadOld := by rw [State.raiseIf_eq]
@[simp] theorem State.raiseIf_leaseEnd (c : Bool) (k : RegKey) (f : Fld) : (s.raiseIf c k f).leaseEnd = s.leaseEnd := by rw [State.raiseIf_eq]
@[simp] theorem State.raiseIf_grace (c : Bool) (k : RegKey) (f : Fld) : (s.raiseIf c k f).grace = s.grace := by rw [State.raiseIf_eq]
@[simp] theorem State.raiseIf_planned (c : Bool) (k : RegKey) (f : Fld) : (s.raiseIf c k f).planned = s.planned := by rw [State.raiseIf_eq]
@[simp] theorem State.raiseIf_outSince (c : Bool) (k : RegKey) (f : Fld) : (s.raiseIf c k f).outSince = s.outSince := by rw [State.raiseIf_eq]
@[simp] theorem State.raiseIf_voters (c : Bool) (k : RegKey) (f : Fld) : (s.raiseIf c k f).voters = s.voters := by rw [State.raiseIf_eq]
@[simp] theorem State.raiseIf_grantAt (c : Bool) (k : RegKey) (f : Fld) : (s.raiseIf c k f).grantAt = s.grantAt := by rw [State.raiseIf_eq]
@[simp] theorem State.raiseIf_sluices (c : Bool) (k : RegKey) (f : Fld) : (s.raiseIf c k f).sluices = s.sluices := by rw [State.raiseIf_eq]
@[simp] theorem State.raiseIf_ring (c : Bool) (k : RegKey) (f : Fld) : (s.raiseIf c k f).ring = s.ring := by rw [State.raiseIf_eq]
@[simp] theorem State.raiseIf_envLines (c : Bool) (k : RegKey) (f : Fld) : (s.raiseIf c k f).envLines = s.envLines := by rw [State.raiseIf_eq]
@[simp] theorem State.raiseIf_sevAt (c : Bool) (k : RegKey) (f : Fld) : (s.raiseIf c k f).sevAt = s.sevAt := by rw [State.raiseIf_eq]
@[simp] theorem State.raiseIf_therm (c : Bool) (k : RegKey) (f : Fld) : (s.raiseIf c k f).therm = s.therm := by rw [State.raiseIf_eq]
@[simp] theorem State.raiseIf_txqs (c : Bool) (k : RegKey) (f : Fld) : (s.raiseIf c k f).txqs = s.txqs := by rw [State.raiseIf_eq]
@[simp] theorem State.raiseIf_lanes (c : Bool) (k : RegKey) (f : Fld) : (s.raiseIf c k f).lanes = s.lanes := by rw [State.raiseIf_eq]
@[simp] theorem State.raiseIf_nvl (c : Bool) (k : RegKey) (f : Fld) : (s.raiseIf c k f).nvl = s.nvl := by rw [State.raiseIf_eq]
@[simp] theorem State.raiseIf_bankLost (c : Bool) (k : RegKey) (f : Fld) : (s.raiseIf c k f).bankLost = s.bankLost := by rw [State.raiseIf_eq]
@[simp] theorem State.raiseIf_nvlTx (c : Bool) (k : RegKey) (f : Fld) : (s.raiseIf c k f).nvlTx = s.nvlTx := by rw [State.raiseIf_eq]
@[simp] theorem State.raiseIf_bypassQ (c : Bool) (k : RegKey) (f : Fld) : (s.raiseIf c k f).bypassQ = s.bypassQ := by rw [State.raiseIf_eq]
@[simp] theorem State.raiseIf_sdi (c : Bool) (k : RegKey) (f : Fld) : (s.raiseIf c k f).sdi = s.sdi := by rw [State.raiseIf_eq]
@[simp] theorem State.raiseIf_portPlan (c : Bool) (k : RegKey) (f : Fld) : (s.raiseIf c k f).portPlan = s.portPlan := by rw [State.raiseIf_eq]
@[simp] theorem State.raiseIf_rxFlows (c : Bool) (k : RegKey) (f : Fld) : (s.raiseIf c k f).rxFlows = s.rxFlows := by rw [State.raiseIf_eq]
@[simp] theorem State.raiseIf_txRuns (c : Bool) (k : RegKey) (f : Fld) : (s.raiseIf c k f).txRuns = s.txRuns := by rw [State.raiseIf_eq]
@[simp] theorem State.raiseIf_txFlows (c : Bool) (k : RegKey) (f : Fld) : (s.raiseIf c k f).txFlows = s.txFlows := by rw [State.raiseIf_eq]
@[simp] theorem State.raiseIf_txBufs (c : Bool) (k : RegKey) (f : Fld) : (s.raiseIf c k f).txBufs = s.txBufs := by rw [State.raiseIf_eq]
@[simp] theorem State.raiseIf_ethQ (c : Bool) (k : RegKey) (f : Fld) : (s.raiseIf c k f).ethQ = s.ethQ := by rw [State.raiseIf_eq]
@[simp] theorem State.raiseIf_macs (c : Bool) (k : RegKey) (f : Fld) : (s.raiseIf c k f).macs = s.macs := by rw [State.raiseIf_eq]
@[simp] theorem State.raiseIf_rrp (c : Bool) (k : RegKey) (f : Fld) : (s.raiseIf c k f).rrp = s.rrp := by rw [State.raiseIf_eq]
@[simp] theorem State.raiseIf_hostParked (c : Bool) (k : RegKey) (f : Fld) : (s.raiseIf c k f).hostParked = s.hostParked := by rw [State.raiseIf_eq]
@[simp] theorem State.raiseIf_tick (c : Bool) (k : RegKey) (f : Fld) : (s.raiseIf c k f).tick = s.tick := by rw [State.raiseIf_eq]
@[simp] theorem State.raiseIf_tbs (c : Bool) (k : RegKey) (f : Fld) : (s.raiseIf c k f).tbs = s.tbs := by rw [State.raiseIf_eq]
@[simp] theorem State.raiseIf_cmps (c : Bool) (k : RegKey) (f : Fld) : (s.raiseIf c k f).cmps = s.cmps := by rw [State.raiseIf_eq]
@[simp] theorem State.raiseIf_ports (c : Bool) (k : RegKey) (f : Fld) : (s.raiseIf c k f).ports = s.ports := by rw [State.raiseIf_eq]
@[simp] theorem State.raiseIf_txLatch (c : Bool) (k : RegKey) (f : Fld) : (s.raiseIf c k f).txLatch = s.txLatch := by rw [State.raiseIf_eq]
@[simp] theorem State.raiseIf_cads (c : Bool) (k : RegKey) (f : Fld) : (s.raiseIf c k f).cads = s.cads := by rw [State.raiseIf_eq]
@[simp] theorem State.raiseIf_cands (c : Bool) (k : RegKey) (f : Fld) : (s.raiseIf c k f).cands = s.cands := by rw [State.raiseIf_eq]
@[simp] theorem State.raiseIf_ref (c : Bool) (k : RegKey) (f : Fld) : (s.raiseIf c k f).ref = s.ref := by rw [State.raiseIf_eq]
@[simp] theorem State.raiseIf_trigArmed (c : Bool) (k : RegKey) (f : Fld) : (s.raiseIf c k f).trigArmed = s.trigArmed := by rw [State.raiseIf_eq]
@[simp] theorem State.raiseIf_trigSignal (c : Bool) (k : RegKey) (f : Fld) : (s.raiseIf c k f).trigSignal = s.trigSignal := by rw [State.raiseIf_eq]
@[simp] theorem State.raiseIf_audioTb (c : Bool) (k : RegKey) (f : Fld) : (s.raiseIf c k f).audioTb = s.audioTb := by rw [State.raiseIf_eq]
@[simp] theorem State.raiseIf_audioHi (c : Bool) (k : RegKey) (f : Fld) : (s.raiseIf c k f).audioHi = s.audioHi := by rw [State.raiseIf_eq]
@[simp] theorem State.raiseIf_audNext (c : Bool) (k : RegKey) (f : Fld) : (s.raiseIf c k f).audNext = s.audNext := by rw [State.raiseIf_eq]
@[simp] theorem State.raiseIf_audSrc (c : Bool) (k : RegKey) (f : Fld) : (s.raiseIf c k f).audSrc = s.audSrc := by rw [State.raiseIf_eq]
@[simp] theorem State.raiseIf_audDst (c : Bool) (k : RegKey) (f : Fld) : (s.raiseIf c k f).audDst = s.audDst := by rw [State.raiseIf_eq]
@[simp] theorem State.raiseIf_tdm (c : Bool) (k : RegKey) (f : Fld) : (s.raiseIf c k f).tdm = s.tdm := by rw [State.raiseIf_eq]
@[simp] theorem State.raiseIf_tdmOwner (c : Bool) (k : RegKey) (f : Fld) : (s.raiseIf c k f).tdmOwner = s.tdmOwner := by rw [State.raiseIf_eq]
@[simp] theorem State.raiseIf_audTimes (c : Bool) (k : RegKey) (f : Fld) : (s.raiseIf c k f).audTimes = s.audTimes := by rw [State.raiseIf_eq]
@[simp] theorem State.raiseIf_audIn (c : Bool) (k : RegKey) (f : Fld) : (s.raiseIf c k f).audIn = s.audIn := by rw [State.raiseIf_eq]
@[simp] theorem State.raiseIf_headPlan (c : Bool) (k : RegKey) (f : Fld) : (s.raiseIf c k f).headPlan = s.headPlan := by rw [State.raiseIf_eq]
@[simp] theorem State.raiseIf_tileHead (c : Bool) (k : RegKey) (f : Fld) : (s.raiseIf c k f).tileHead = s.tileHead := by rw [State.raiseIf_eq]
@[simp] theorem State.raiseIf_preHead (c : Bool) (k : RegKey) (f : Fld) : (s.raiseIf c k f).preHead = s.preHead := by rw [State.raiseIf_eq]
@[simp] theorem State.raiseIf_headRun (c : Bool) (k : RegKey) (f : Fld) : (s.raiseIf c k f).headRun = s.headRun := by rw [State.raiseIf_eq]
@[simp] theorem State.raiseIf_tiles (c : Bool) (k : RegKey) (f : Fld) : (s.raiseIf c k f).tiles = s.tiles := by rw [State.raiseIf_eq]
@[simp] theorem State.raiseIf_alyA (c : Bool) (k : RegKey) (f : Fld) : (s.raiseIf c k f).alyA = s.alyA := by rw [State.raiseIf_eq]
@[simp] theorem State.raiseIf_alyB (c : Bool) (k : RegKey) (f : Fld) : (s.raiseIf c k f).alyB = s.alyB := by rw [State.raiseIf_eq]
@[simp] theorem State.raiseIf_alyWait (c : Bool) (k : RegKey) (f : Fld) : (s.raiseIf c k f).alyWait = s.alyWait := by rw [State.raiseIf_eq]
@[simp] theorem State.raiseIf_alyLive (c : Bool) (k : RegKey) (f : Fld) : (s.raiseIf c k f).alyLive = s.alyLive := by rw [State.raiseIf_eq]
@[simp] theorem State.raiseIf_alyStore (c : Bool) (k : RegKey) (f : Fld) : (s.raiseIf c k f).alyStore = s.alyStore := by rw [State.raiseIf_eq]
@[simp] theorem State.raiseIf_hbmA (c : Bool) (k : RegKey) (f : Fld) : (s.raiseIf c k f).hbmA = s.hbmA := by rw [State.raiseIf_eq]
@[simp] theorem State.raiseIf_hbmB (c : Bool) (k : RegKey) (f : Fld) : (s.raiseIf c k f).hbmB = s.hbmB := by rw [State.raiseIf_eq]
@[simp] theorem State.raiseIf_hbmRun (c : Bool) (k : RegKey) (f : Fld) : (s.raiseIf c k f).hbmRun = s.hbmRun := by rw [State.raiseIf_eq]
@[simp] theorem State.raiseIf_hbmMax (c : Bool) (k : RegKey) (f : Fld) : (s.raiseIf c k f).hbmMax = s.hbmMax := by rw [State.raiseIf_eq]
@[simp] theorem State.raiseIf_hoppers (c : Bool) (k : RegKey) (f : Fld) : (s.raiseIf c k f).hoppers = s.hoppers := by rw [State.raiseIf_eq]
@[simp] theorem State.raiseIf_capPlan (c : Bool) (k : RegKey) (f : Fld) : (s.raiseIf c k f).capPlan = s.capPlan := by rw [State.raiseIf_eq]
@[simp] theorem State.raiseIf_sramA (c : Bool) (k : RegKey) (f : Fld) : (s.raiseIf c k f).sramA = s.sramA := by rw [State.raiseIf_eq]
@[simp] theorem State.raiseIf_sramB (c : Bool) (k : RegKey) (f : Fld) : (s.raiseIf c k f).sramB = s.sramB := by rw [State.raiseIf_eq]
@[simp] theorem State.raiseIf_hbmTempAt (c : Bool) (k : RegKey) (f : Fld) : (s.raiseIf c k f).hbmTempAt = s.hbmTempAt := by rw [State.raiseIf_eq]
@[simp] theorem State.raiseIf_audLate (c : Bool) (k : RegKey) (f : Fld) : (s.raiseIf c k f).audLate = s.audLate := by rw [State.raiseIf_eq]
@[simp] theorem State.raiseIf_locks (c : Bool) (k : RegKey) (f : Fld) : (s.raiseIf c k f).locks = s.locks := by rw [State.raiseIf_eq]
@[simp] theorem State.raiseIf_waiting (c : Bool) (k : RegKey) (f : Fld) : (s.raiseIf c k f).waiting = s.waiting := by rw [State.raiseIf_eq]
@[simp] theorem State.raiseIf_grantNext (c : Bool) (k : RegKey) (f : Fld) : (s.raiseIf c k f).grantNext = s.grantNext := by rw [State.raiseIf_eq]
@[simp] theorem State.raiseIf_winBuf (c : Bool) (k : RegKey) (f : Fld) : (s.raiseIf c k f).winBuf = s.winBuf := by rw [State.raiseIf_eq]
@[simp] theorem State.raiseIf_msixOpen (c : Bool) (k : RegKey) (f : Fld) : (s.raiseIf c k f).msixOpen = s.msixOpen := by rw [State.raiseIf_eq]
@[simp] theorem State.raiseIf_msixPend (c : Bool) (k : RegKey) (f : Fld) : (s.raiseIf c k f).msixPend = s.msixPend := by rw [State.raiseIf_eq]
@[simp] theorem State.raiseIf_vecHigh (c : Bool) (k : RegKey) (f : Fld) : (s.raiseIf c k f).vecHigh = s.vecHigh := by rw [State.raiseIf_eq]
@[simp] theorem State.raiseIf_flash0 (c : Bool) (k : RegKey) (f : Fld) : (s.raiseIf c k f).flash0 = s.flash0 := by rw [State.raiseIf_eq]
@[simp] theorem State.raiseIf_flash1 (c : Bool) (k : RegKey) (f : Fld) : (s.raiseIf c k f).flash1 = s.flash1 := by rw [State.raiseIf_eq]
@[simp] theorem State.raiseIf_owners (c : Bool) (k : RegKey) (f : Fld) : (s.raiseIf c k f).owners = s.owners := by rw [State.raiseIf_eq]
@[simp] theorem State.raiseIf_svn (c : Bool) (k : RegKey) (f : Fld) : (s.raiseIf c k f).svn = s.svn := by rw [State.raiseIf_eq]
@[simp] theorem State.raiseIf_otpOk (c : Bool) (k : RegKey) (f : Fld) : (s.raiseIf c k f).otpOk = s.otpOk := by rw [State.raiseIf_eq]
@[simp] theorem State.raiseIf_loaded (c : Bool) (k : RegKey) (f : Fld) : (s.raiseIf c k f).loaded = s.loaded := by rw [State.raiseIf_eq]
@[simp] theorem State.raiseIf_updMbx (c : Bool) (k : RegKey) (f : Fld) : (s.raiseIf c k f).updMbx = s.updMbx := by rw [State.raiseIf_eq]
@[simp] theorem State.raiseIf_session (c : Bool) (k : RegKey) (f : Fld) : (s.raiseIf c k f).session = s.session := by rw [State.raiseIf_eq]
@[simp] theorem State.raiseIf_parts (c : Bool) (k : RegKey) (f : Fld) : (s.raiseIf c k f).parts = s.parts := by rw [State.raiseIf_eq]
@[simp] theorem State.raiseIf_updSide (c : Bool) (k : RegKey) (f : Fld) : (s.raiseIf c k f).updSide = s.updSide := by rw [State.raiseIf_eq]
@[simp] theorem State.raiseIf_confirming (c : Bool) (k : RegKey) (f : Fld) : (s.raiseIf c k f).confirming = s.confirming := by rw [State.raiseIf_eq]
@[simp] theorem State.raiseIf_fwHash (c : Bool) (k : RegKey) (f : Fld) : (s.raiseIf c k f).fwHash = s.fwHash := by rw [State.raiseIf_eq]
@[simp] theorem State.raiseIf_change (c : Bool) (k : RegKey) (f : Fld) : (s.raiseIf c k f).change = s.change := by rw [State.raiseIf_eq]
@[simp] theorem State.raiseIf_changeAt (c : Bool) (k : RegKey) (f : Fld) : (s.raiseIf c k f).changeAt = s.changeAt := by rw [State.raiseIf_eq]
@[simp] theorem State.raiseIf_attest (c : Bool) (k : RegKey) (f : Fld) : (s.raiseIf c k f).attest = s.attest := by rw [State.raiseIf_eq]
@[simp] theorem State.raiseIf_unlock (c : Bool) (k : RegKey) (f : Fld) : (s.raiseIf c k f).unlock = s.unlock := by rw [State.raiseIf_eq]
@[simp] theorem State.raiseIf_tempSeen (c : Bool) (k : RegKey) (f : Fld) : (s.raiseIf c k f).tempSeen = s.tempSeen := by rw [State.raiseIf_eq]
@[simp] theorem State.raiseIf_engs (c : Bool) (k : RegKey) (f : Fld) : (s.raiseIf c k f).engs = s.engs := by rw [State.raiseIf_eq]

@[simp] theorem State.denied_pending (r : Req) (w : Bool) (a : Nat) : (s.denied r w a).pending = s.pending := by rw [State.denied_eq]
@[simp] theorem State.denied_sideA (r : Req) (w : Bool) (a : Nat) : (s.denied r w a).sideA = s.sideA := by rw [State.denied_eq]
@[simp] theorem State.denied_sideB (r : Req) (w : Bool) (a : Nat) : (s.denied r w a).sideB = s.sideB := by rw [State.denied_eq]
@[simp] theorem State.denied_rights (r : Req) (w : Bool) (a : Nat) : (s.denied r w a).rights = s.rights := by rw [State.denied_eq]
@[simp] theorem State.denied_plain7 (r : Req) (w : Bool) (a : Nat) : (s.denied r w a).plain7 = s.plain7 := by rw [State.denied_eq]
@[simp] theorem State.denied_out (r : Req) (w : Bool) (a : Nat) : (s.denied r w a).out = s.out := by rw [State.denied_eq]
@[simp] theorem State.denied_lastRead (r : Req) (w : Bool) (a : Nat) : (s.denied r w a).lastRead = s.lastRead := by rw [State.denied_eq]
@[simp] theorem State.denied_freeCtr (r : Req) (w : Bool) (a : Nat) : (s.denied r w a).freeCtr = s.freeCtr := by rw [State.denied_eq]
@[simp] theorem State.denied_aoReset (r : Req) (w : Bool) (a : Nat) : (s.denied r w a).aoReset = s.aoReset := by rw [State.denied_eq]
@[simp] theorem State.denied_twins (r : Req) (w : Bool) (a : Nat) : (s.denied r w a).twins = s.twins := by rw [State.denied_eq]
@[simp] theorem State.denied_twinQ (r : Req) (w : Bool) (a : Nat) : (s.denied r w a).twinQ = s.twinQ := by rw [State.denied_eq]
@[simp] theorem State.denied_inPlan (r : Req) (w : Bool) (a : Nat) : (s.denied r w a).inPlan = s.inPlan := by rw [State.denied_eq]
@[simp] theorem State.denied_inRx (r : Req) (w : Bool) (a : Nat) : (s.denied r w a).inRx = s.inRx := by rw [State.denied_eq]
@[simp] theorem State.denied_merges (r : Req) (w : Bool) (a : Nat) : (s.denied r w a).merges = s.merges := by rw [State.denied_eq]
@[simp] theorem State.denied_feeds (r : Req) (w : Bool) (a : Nat) : (s.denied r w a).feeds = s.feeds := by rw [State.denied_eq]
@[simp] theorem State.denied_outPlan (r : Req) (w : Bool) (a : Nat) : (s.denied r w a).outPlan = s.outPlan := by rw [State.denied_eq]
@[simp] theorem State.denied_routes (r : Req) (w : Bool) (a : Nat) : (s.denied r w a).routes = s.routes := by rw [State.denied_eq]
@[simp] theorem State.denied_takes (r : Req) (w : Bool) (a : Nat) : (s.denied r w a).takes = s.takes := by rw [State.denied_eq]
@[simp] theorem State.denied_commits (r : Req) (w : Bool) (a : Nat) : (s.denied r w a).commits = s.commits := by rw [State.denied_eq]
@[simp] theorem State.denied_salvos (r : Req) (w : Bool) (a : Nat) : (s.denied r w a).salvos = s.salvos := by rw [State.denied_eq]
@[simp] theorem State.denied_outs (r : Req) (w : Bool) (a : Nat) : (s.denied r w a).outs = s.outs := by rw [State.denied_eq]
@[simp] theorem State.denied_shown (r : Req) (w : Bool) (a : Nat) : (s.denied r w a).shown = s.shown := by rw [State.denied_eq]
@[simp] theorem State.denied_stores (r : Req) (w : Bool) (a : Nat) : (s.denied r w a).stores = s.stores := by rw [State.denied_eq]
@[simp] theorem State.denied_captures (r : Req) (w : Bool) (a : Nat) : (s.denied r w a).captures = s.captures := by rw [State.denied_eq]
@[simp] theorem State.denied_benches (r : Req) (w : Bool) (a : Nat) : (s.denied r w a).benches = s.benches := by rw [State.denied_eq]
@[simp] theorem State.denied_benchPlan (r : Req) (w : Bool) (a : Nat) : (s.denied r w a).benchPlan = s.benchPlan := by rw [State.denied_eq]
@[simp] theorem State.denied_benchIn (r : Req) (w : Bool) (a : Nat) : (s.denied r w a).benchIn = s.benchIn := by rw [State.denied_eq]
@[simp] theorem State.denied_benchMem (r : Req) (w : Bool) (a : Nat) : (s.denied r w a).benchMem = s.benchMem := by rw [State.denied_eq]
@[simp] theorem State.denied_leadOld (r : Req) (w : Bool) (a : Nat) : (s.denied r w a).leadOld = s.leadOld := by rw [State.denied_eq]
@[simp] theorem State.denied_leaseEnd (r : Req) (w : Bool) (a : Nat) : (s.denied r w a).leaseEnd = s.leaseEnd := by rw [State.denied_eq]
@[simp] theorem State.denied_grace (r : Req) (w : Bool) (a : Nat) : (s.denied r w a).grace = s.grace := by rw [State.denied_eq]
@[simp] theorem State.denied_planned (r : Req) (w : Bool) (a : Nat) : (s.denied r w a).planned = s.planned := by rw [State.denied_eq]
@[simp] theorem State.denied_outSince (r : Req) (w : Bool) (a : Nat) : (s.denied r w a).outSince = s.outSince := by rw [State.denied_eq]
@[simp] theorem State.denied_voters (r : Req) (w : Bool) (a : Nat) : (s.denied r w a).voters = s.voters := by rw [State.denied_eq]
@[simp] theorem State.denied_grantAt (r : Req) (w : Bool) (a : Nat) : (s.denied r w a).grantAt = s.grantAt := by rw [State.denied_eq]
@[simp] theorem State.denied_sluices (r : Req) (w : Bool) (a : Nat) : (s.denied r w a).sluices = s.sluices := by rw [State.denied_eq]
@[simp] theorem State.denied_ring (r : Req) (w : Bool) (a : Nat) : (s.denied r w a).ring = s.ring := by rw [State.denied_eq]
@[simp] theorem State.denied_envLines (r : Req) (w : Bool) (a : Nat) : (s.denied r w a).envLines = s.envLines := by rw [State.denied_eq]
@[simp] theorem State.denied_sevAt (r : Req) (w : Bool) (a : Nat) : (s.denied r w a).sevAt = s.sevAt := by rw [State.denied_eq]
@[simp] theorem State.denied_therm (r : Req) (w : Bool) (a : Nat) : (s.denied r w a).therm = s.therm := by rw [State.denied_eq]
@[simp] theorem State.denied_txqs (r : Req) (w : Bool) (a : Nat) : (s.denied r w a).txqs = s.txqs := by rw [State.denied_eq]
@[simp] theorem State.denied_lanes (r : Req) (w : Bool) (a : Nat) : (s.denied r w a).lanes = s.lanes := by rw [State.denied_eq]
@[simp] theorem State.denied_nvl (r : Req) (w : Bool) (a : Nat) : (s.denied r w a).nvl = s.nvl := by rw [State.denied_eq]
@[simp] theorem State.denied_bankLost (r : Req) (w : Bool) (a : Nat) : (s.denied r w a).bankLost = s.bankLost := by rw [State.denied_eq]
@[simp] theorem State.denied_nvlTx (r : Req) (w : Bool) (a : Nat) : (s.denied r w a).nvlTx = s.nvlTx := by rw [State.denied_eq]
@[simp] theorem State.denied_bypassQ (r : Req) (w : Bool) (a : Nat) : (s.denied r w a).bypassQ = s.bypassQ := by rw [State.denied_eq]
@[simp] theorem State.denied_sdi (r : Req) (w : Bool) (a : Nat) : (s.denied r w a).sdi = s.sdi := by rw [State.denied_eq]
@[simp] theorem State.denied_portPlan (r : Req) (w : Bool) (a : Nat) : (s.denied r w a).portPlan = s.portPlan := by rw [State.denied_eq]
@[simp] theorem State.denied_rxFlows (r : Req) (w : Bool) (a : Nat) : (s.denied r w a).rxFlows = s.rxFlows := by rw [State.denied_eq]
@[simp] theorem State.denied_txRuns (r : Req) (w : Bool) (a : Nat) : (s.denied r w a).txRuns = s.txRuns := by rw [State.denied_eq]
@[simp] theorem State.denied_txFlows (r : Req) (w : Bool) (a : Nat) : (s.denied r w a).txFlows = s.txFlows := by rw [State.denied_eq]
@[simp] theorem State.denied_txBufs (r : Req) (w : Bool) (a : Nat) : (s.denied r w a).txBufs = s.txBufs := by rw [State.denied_eq]
@[simp] theorem State.denied_ethQ (r : Req) (w : Bool) (a : Nat) : (s.denied r w a).ethQ = s.ethQ := by rw [State.denied_eq]
@[simp] theorem State.denied_macs (r : Req) (w : Bool) (a : Nat) : (s.denied r w a).macs = s.macs := by rw [State.denied_eq]
@[simp] theorem State.denied_rrp (r : Req) (w : Bool) (a : Nat) : (s.denied r w a).rrp = s.rrp := by rw [State.denied_eq]
@[simp] theorem State.denied_hostParked (r : Req) (w : Bool) (a : Nat) : (s.denied r w a).hostParked = s.hostParked := by rw [State.denied_eq]
@[simp] theorem State.denied_tick (r : Req) (w : Bool) (a : Nat) : (s.denied r w a).tick = s.tick := by rw [State.denied_eq]
@[simp] theorem State.denied_tbs (r : Req) (w : Bool) (a : Nat) : (s.denied r w a).tbs = s.tbs := by rw [State.denied_eq]
@[simp] theorem State.denied_cmps (r : Req) (w : Bool) (a : Nat) : (s.denied r w a).cmps = s.cmps := by rw [State.denied_eq]
@[simp] theorem State.denied_ports (r : Req) (w : Bool) (a : Nat) : (s.denied r w a).ports = s.ports := by rw [State.denied_eq]
@[simp] theorem State.denied_txLatch (r : Req) (w : Bool) (a : Nat) : (s.denied r w a).txLatch = s.txLatch := by rw [State.denied_eq]
@[simp] theorem State.denied_cads (r : Req) (w : Bool) (a : Nat) : (s.denied r w a).cads = s.cads := by rw [State.denied_eq]
@[simp] theorem State.denied_cands (r : Req) (w : Bool) (a : Nat) : (s.denied r w a).cands = s.cands := by rw [State.denied_eq]
@[simp] theorem State.denied_ref (r : Req) (w : Bool) (a : Nat) : (s.denied r w a).ref = s.ref := by rw [State.denied_eq]
@[simp] theorem State.denied_trigArmed (r : Req) (w : Bool) (a : Nat) : (s.denied r w a).trigArmed = s.trigArmed := by rw [State.denied_eq]
@[simp] theorem State.denied_trigSignal (r : Req) (w : Bool) (a : Nat) : (s.denied r w a).trigSignal = s.trigSignal := by rw [State.denied_eq]
@[simp] theorem State.denied_audioTb (r : Req) (w : Bool) (a : Nat) : (s.denied r w a).audioTb = s.audioTb := by rw [State.denied_eq]
@[simp] theorem State.denied_audioHi (r : Req) (w : Bool) (a : Nat) : (s.denied r w a).audioHi = s.audioHi := by rw [State.denied_eq]
@[simp] theorem State.denied_audNext (r : Req) (w : Bool) (a : Nat) : (s.denied r w a).audNext = s.audNext := by rw [State.denied_eq]
@[simp] theorem State.denied_audSrc (r : Req) (w : Bool) (a : Nat) : (s.denied r w a).audSrc = s.audSrc := by rw [State.denied_eq]
@[simp] theorem State.denied_audDst (r : Req) (w : Bool) (a : Nat) : (s.denied r w a).audDst = s.audDst := by rw [State.denied_eq]
@[simp] theorem State.denied_tdm (r : Req) (w : Bool) (a : Nat) : (s.denied r w a).tdm = s.tdm := by rw [State.denied_eq]
@[simp] theorem State.denied_tdmOwner (r : Req) (w : Bool) (a : Nat) : (s.denied r w a).tdmOwner = s.tdmOwner := by rw [State.denied_eq]
@[simp] theorem State.denied_audTimes (r : Req) (w : Bool) (a : Nat) : (s.denied r w a).audTimes = s.audTimes := by rw [State.denied_eq]
@[simp] theorem State.denied_audIn (r : Req) (w : Bool) (a : Nat) : (s.denied r w a).audIn = s.audIn := by rw [State.denied_eq]
@[simp] theorem State.denied_headPlan (r : Req) (w : Bool) (a : Nat) : (s.denied r w a).headPlan = s.headPlan := by rw [State.denied_eq]
@[simp] theorem State.denied_tileHead (r : Req) (w : Bool) (a : Nat) : (s.denied r w a).tileHead = s.tileHead := by rw [State.denied_eq]
@[simp] theorem State.denied_preHead (r : Req) (w : Bool) (a : Nat) : (s.denied r w a).preHead = s.preHead := by rw [State.denied_eq]
@[simp] theorem State.denied_headRun (r : Req) (w : Bool) (a : Nat) : (s.denied r w a).headRun = s.headRun := by rw [State.denied_eq]
@[simp] theorem State.denied_tiles (r : Req) (w : Bool) (a : Nat) : (s.denied r w a).tiles = s.tiles := by rw [State.denied_eq]
@[simp] theorem State.denied_alyA (r : Req) (w : Bool) (a : Nat) : (s.denied r w a).alyA = s.alyA := by rw [State.denied_eq]
@[simp] theorem State.denied_alyB (r : Req) (w : Bool) (a : Nat) : (s.denied r w a).alyB = s.alyB := by rw [State.denied_eq]
@[simp] theorem State.denied_alyWait (r : Req) (w : Bool) (a : Nat) : (s.denied r w a).alyWait = s.alyWait := by rw [State.denied_eq]
@[simp] theorem State.denied_alyLive (r : Req) (w : Bool) (a : Nat) : (s.denied r w a).alyLive = s.alyLive := by rw [State.denied_eq]
@[simp] theorem State.denied_alyStore (r : Req) (w : Bool) (a : Nat) : (s.denied r w a).alyStore = s.alyStore := by rw [State.denied_eq]
@[simp] theorem State.denied_hbmA (r : Req) (w : Bool) (a : Nat) : (s.denied r w a).hbmA = s.hbmA := by rw [State.denied_eq]
@[simp] theorem State.denied_hbmB (r : Req) (w : Bool) (a : Nat) : (s.denied r w a).hbmB = s.hbmB := by rw [State.denied_eq]
@[simp] theorem State.denied_hbmRun (r : Req) (w : Bool) (a : Nat) : (s.denied r w a).hbmRun = s.hbmRun := by rw [State.denied_eq]
@[simp] theorem State.denied_hbmMax (r : Req) (w : Bool) (a : Nat) : (s.denied r w a).hbmMax = s.hbmMax := by rw [State.denied_eq]
@[simp] theorem State.denied_hoppers (r : Req) (w : Bool) (a : Nat) : (s.denied r w a).hoppers = s.hoppers := by rw [State.denied_eq]
@[simp] theorem State.denied_capPlan (r : Req) (w : Bool) (a : Nat) : (s.denied r w a).capPlan = s.capPlan := by rw [State.denied_eq]
@[simp] theorem State.denied_sramA (r : Req) (w : Bool) (a : Nat) : (s.denied r w a).sramA = s.sramA := by rw [State.denied_eq]
@[simp] theorem State.denied_sramB (r : Req) (w : Bool) (a : Nat) : (s.denied r w a).sramB = s.sramB := by rw [State.denied_eq]
@[simp] theorem State.denied_hbmTempAt (r : Req) (w : Bool) (a : Nat) : (s.denied r w a).hbmTempAt = s.hbmTempAt := by rw [State.denied_eq]
@[simp] theorem State.denied_audLate (r : Req) (w : Bool) (a : Nat) : (s.denied r w a).audLate = s.audLate := by rw [State.denied_eq]
@[simp] theorem State.denied_locks (r : Req) (w : Bool) (a : Nat) : (s.denied r w a).locks = s.locks := by rw [State.denied_eq]
@[simp] theorem State.denied_waiting (r : Req) (w : Bool) (a : Nat) : (s.denied r w a).waiting = s.waiting := by rw [State.denied_eq]
@[simp] theorem State.denied_grantNext (r : Req) (w : Bool) (a : Nat) : (s.denied r w a).grantNext = s.grantNext := by rw [State.denied_eq]
@[simp] theorem State.denied_winBuf (r : Req) (w : Bool) (a : Nat) : (s.denied r w a).winBuf = s.winBuf := by rw [State.denied_eq]
@[simp] theorem State.denied_msixOpen (r : Req) (w : Bool) (a : Nat) : (s.denied r w a).msixOpen = s.msixOpen := by rw [State.denied_eq]
@[simp] theorem State.denied_msixPend (r : Req) (w : Bool) (a : Nat) : (s.denied r w a).msixPend = s.msixPend := by rw [State.denied_eq]
@[simp] theorem State.denied_vecHigh (r : Req) (w : Bool) (a : Nat) : (s.denied r w a).vecHigh = s.vecHigh := by rw [State.denied_eq]
@[simp] theorem State.denied_flash0 (r : Req) (w : Bool) (a : Nat) : (s.denied r w a).flash0 = s.flash0 := by rw [State.denied_eq]
@[simp] theorem State.denied_flash1 (r : Req) (w : Bool) (a : Nat) : (s.denied r w a).flash1 = s.flash1 := by rw [State.denied_eq]
@[simp] theorem State.denied_owners (r : Req) (w : Bool) (a : Nat) : (s.denied r w a).owners = s.owners := by rw [State.denied_eq]
@[simp] theorem State.denied_svn (r : Req) (w : Bool) (a : Nat) : (s.denied r w a).svn = s.svn := by rw [State.denied_eq]
@[simp] theorem State.denied_otpOk (r : Req) (w : Bool) (a : Nat) : (s.denied r w a).otpOk = s.otpOk := by rw [State.denied_eq]
@[simp] theorem State.denied_loaded (r : Req) (w : Bool) (a : Nat) : (s.denied r w a).loaded = s.loaded := by rw [State.denied_eq]
@[simp] theorem State.denied_updMbx (r : Req) (w : Bool) (a : Nat) : (s.denied r w a).updMbx = s.updMbx := by rw [State.denied_eq]
@[simp] theorem State.denied_session (r : Req) (w : Bool) (a : Nat) : (s.denied r w a).session = s.session := by rw [State.denied_eq]
@[simp] theorem State.denied_parts (r : Req) (w : Bool) (a : Nat) : (s.denied r w a).parts = s.parts := by rw [State.denied_eq]
@[simp] theorem State.denied_updSide (r : Req) (w : Bool) (a : Nat) : (s.denied r w a).updSide = s.updSide := by rw [State.denied_eq]
@[simp] theorem State.denied_confirming (r : Req) (w : Bool) (a : Nat) : (s.denied r w a).confirming = s.confirming := by rw [State.denied_eq]
@[simp] theorem State.denied_fwHash (r : Req) (w : Bool) (a : Nat) : (s.denied r w a).fwHash = s.fwHash := by rw [State.denied_eq]
@[simp] theorem State.denied_change (r : Req) (w : Bool) (a : Nat) : (s.denied r w a).change = s.change := by rw [State.denied_eq]
@[simp] theorem State.denied_changeAt (r : Req) (w : Bool) (a : Nat) : (s.denied r w a).changeAt = s.changeAt := by rw [State.denied_eq]
@[simp] theorem State.denied_attest (r : Req) (w : Bool) (a : Nat) : (s.denied r w a).attest = s.attest := by rw [State.denied_eq]
@[simp] theorem State.denied_unlock (r : Req) (w : Bool) (a : Nat) : (s.denied r w a).unlock = s.unlock := by rw [State.denied_eq]
@[simp] theorem State.denied_tempSeen (r : Req) (w : Bool) (a : Nat) : (s.denied r w a).tempSeen = s.tempSeen := by rw [State.denied_eq]
@[simp] theorem State.denied_engs (r : Req) (w : Bool) (a : Nat) : (s.denied r w a).engs = s.engs := by rw [State.denied_eq]

end Sys2Proof.Machine
end

