-- ==== Sys2Proof/Laws/Regs.lean ====
section
/-!
SUPPORT. What registers and fields read as after the named operations.
-/
namespace Sys2Proof.Machine

variable (s : State)

/-! ## Fields of a word -/

theorem mul_add_lt_mul {a r B N : Nat} (ha : a < N) (hr : r < B) : a * B + r < N * B :=
  calc a * B + r < a * B + B := by omega
    _ = (a + 1) * B := by ring
    _ ≤ N * B := Nat.mul_le_mul_right _ ha

/-- A field reads as what was put into it, modulo its width. -/
theorem getF_putF (x : W32) (f : Fld) (v : Nat) (h : f.lo + f.w ≤ 32) : getF (putF x f v) f = v % 2 ^ f.w := by
  obtain ⟨lo, w⟩ := f
  simp only at h
  have hx := x.isLt
  have hv : v % 2 ^ w < 2 ^ w := Nat.mod_lt _ (by positivity)
  have hl : x.toNat % 2 ^ lo < 2 ^ lo := Nat.mod_lt _ (by positivity)
  have hsplit : (2 : Nat) ^ 32 = 2 ^ (lo + w) * 2 ^ (32 - (lo + w)) := by rw [← pow_add]; congr 1; omega
  have hhi : x.toNat / 2 ^ (lo + w) < 2 ^ (32 - (lo + w)) := by
    rw [Nat.div_lt_iff_lt_mul (by positivity), mul_comm, ← hsplit]; exact hx
  have hlow : v % 2 ^ w * 2 ^ lo + x.toNat % 2 ^ lo < 2 ^ (lo + w) := by
    rw [pow_add, mul_comm (2 ^ lo)]; exact mul_add_lt_mul hv hl
  have hlt : x.toNat / 2 ^ (lo + w) * 2 ^ (lo + w) + v % 2 ^ w * 2 ^ lo + x.toNat % 2 ^ lo < 2 ^ 32 := by
    rw [hsplit, mul_comm, Nat.add_assoc]; rw [mul_comm]; rw [mul_comm (2 ^ (lo + w))]; exact mul_add_lt_mul hhi hlow
  unfold getF putF
  rw [BitVec.toNat_ofNat, Nat.mod_eq_of_lt hlt]
  have e1 : x.toNat / 2 ^ (lo + w) * 2 ^ (lo + w) + v % 2 ^ w * 2 ^ lo + x.toNat % 2 ^ lo
      = x.toNat % 2 ^ lo + 2 ^ lo * (v % 2 ^ w + 2 ^ w * (x.toNat / 2 ^ (lo + w))) := by
    rw [pow_add]; ring
  rw [e1, Nat.add_mul_div_left _ _ (by positivity), Nat.div_eq_of_lt hl, Nat.zero_add, Nat.add_mul_mod_self_left, Nat.mod_mod]

/-- A field keeps its value when another field, apart from it, is written. -/
theorem getF_putF_of_apart (x : W32) (f g : Fld) (v : Nat) (h : f.lo + f.w ≤ 32) (hg : g.lo + g.w ≤ 32)
    (ha : f.lo + f.w ≤ g.lo ∨ g.lo + g.w ≤ f.lo) : getF (putF x f v) g = getF x g := by
  have key : ∀ i, i < 32 → (i < f.lo ∨ f.lo + f.w ≤ i) → (putF x f v).toNat.testBit i = x.toNat.testBit i := by
    obtain ⟨lo, w⟩ := f
    simp only at h
    intro i hi32 hi
    have hx := x.isLt
    have hv : v % 2 ^ w < 2 ^ w := Nat.mod_lt _ (by positivity)
    have hl : x.toNat % 2 ^ lo < 2 ^ lo := Nat.mod_lt _ (by positivity)
    have hsplit : (2 : Nat) ^ 32 = 2 ^ (lo + w) * 2 ^ (32 - (lo + w)) := by rw [← pow_add]; congr 1; omega
    have hhi : x.toNat / 2 ^ (lo + w) < 2 ^ (32 - (lo + w)) := by
      rw [Nat.div_lt_iff_lt_mul (by positivity), mul_comm, ← hsplit]; exact hx
    have hlow : v % 2 ^ w * 2 ^ lo + x.toNat % 2 ^ lo < 2 ^ (lo + w) := by
      rw [pow_add, mul_comm (2 ^ lo)]; exact mul_add_lt_mul hv hl
    have hlt : x.toNat / 2 ^ (lo + w) * 2 ^ (lo + w) + v % 2 ^ w * 2 ^ lo + x.toNat % 2 ^ lo < 2 ^ 32 := by
      rw [hsplit, mul_comm, Nat.add_assoc]; rw [mul_comm]; rw [mul_comm (2 ^ (lo + w))]; exact mul_add_lt_mul hhi hlow
    unfold putF
    rw [BitVec.toNat_ofNat, Nat.mod_eq_of_lt hlt]
    simp only at hi ⊢
    rcases hi with hi | hi
    · rw [pow_add, show x.toNat / (2 ^ lo * 2 ^ w) * (2 ^ lo * 2 ^ w) + v % 2 ^ w * 2 ^ lo + x.toNat % 2 ^ lo
        = 2 ^ lo * (x.toNat / (2 ^ lo * 2 ^ w) * 2 ^ w + v % 2 ^ w) + x.toNat % 2 ^ lo by ring,
        Nat.testBit_two_pow_mul_add _ hl, if_pos hi, Nat.testBit_mod_two_pow]
      simp [hi]
    · rw [Nat.add_assoc, mul_comm, Nat.testBit_two_pow_mul_add _ hlow, if_neg (by omega), Nat.testBit_div_two_pow]
      congr 1; omega
  unfold getF
  apply Nat.eq_of_testBit_eq
  intro i
  simp only [Nat.testBit_mod_two_pow, Nat.testBit_div_two_pow]
  by_cases hi : i < g.w
  · simp only [hi, decide_true, Bool.true_and]
    exact key _ (by omega) (by omega)
  · simp [hi]

/-! ## Registers -/

/-- A register after a write. -/
theorem State.rd_wr (k k' : RegKey) (v : W32) : (s.wr k v).rd k' = if k' = k then v else s.rd k' :=
  Sparse.get_put _ _ _ _ _ _

@[simp] theorem State.rd_wr_self (k : RegKey) (v : W32) : (s.wr k v).rd k = v := by rw [State.rd_wr, if_pos rfl]

theorem State.rd_wr_ne {k k' : RegKey} (h : k' ≠ k) (v : W32) : (s.wr k v).rd k' = s.rd k' := by rw [State.rd_wr, if_neg h]

/-- A register after a write of one of its fields. -/
theorem State.rd_setF (k k' : RegKey) (f : Fld) (v : Nat) : (s.setF k f v).rd k' = if k' = k then putF (s.rd k) f v else s.rd k' :=
  State.rd_wr _ _ _ _

theorem State.rd_setF_ne {k k' : RegKey} (h : k' ≠ k) (f : Fld) (v : Nat) : (s.setF k f v).rd k' = s.rd k' := by
  rw [State.rd_setF, if_neg h]

/-- A field after its write. -/
theorem State.fld_setF_self (k : RegKey) (f : Fld) (v : Nat) (h : f.lo + f.w ≤ 32) : (s.setF k f v).fld k f = v % 2 ^ f.w := by
  simp only [State.fld, State.rd_setF, if_pos, getF_putF _ _ _ h]

/-- Another field of the register, apart from the one written. -/
theorem State.fld_setF_apart (k : RegKey) (f g : Fld) (v : Nat) (h : f.lo + f.w ≤ 32) (hg : g.lo + g.w ≤ 32)
    (ha : f.lo + f.w ≤ g.lo ∨ g.lo + g.w ≤ f.lo) : (s.setF k f v).fld k g = s.fld k g := by
  simp only [State.fld, State.rd_setF, if_pos, getF_putF_of_apart _ _ _ _ h hg ha]

theorem State.fld_setF_ne {k k' : RegKey} (h : k' ≠ k) (f g : Fld) (v : Nat) : (s.setF k f v).fld k' g = s.fld k' g := by
  simp only [State.fld, State.rd_setF_ne s h]

theorem State.fld_wr_ne {k k' : RegKey} (h : k' ≠ k) (g : Fld) (v : W32) : (s.wr k v).fld k' g = s.fld k' g := by
  simp only [State.fld, State.rd_wr_ne s h]

theorem State.rd_note (k : RegKey) (v : W32) (k' : RegKey) : (s.note k v).rd k' = s.rd k' := by
  unfold State.note
  split <;> rfl

theorem State.rd_addWrap (k k' : RegKey) (n : Nat) : (s.addWrap k n).rd k' = if k' = k then s.rd k + w32 n else s.rd k' :=
  (State.rd_note _ _ _ _).trans (State.rd_wr _ _ _ _)

theorem State.rd_clearW (k k' : RegKey) (b : W32) : (s.clearW k b).rd k' = if k' = k then s.rd k &&& ~~~b else s.rd k' :=
  State.rd_wr _ _ _ _

/-! ## Events: a source that sets changes its STATUS register alone -/

theorem State.rd_setSource (e : Nat) (k : RegKey) (h : k.name ≠ .EVT_STATUS) : (s.setSource e).rd k = s.rd k := by
  have hne : k ≠ R1 .EVT_STATUS (e / 32) := fun hc => h (by rw [hc])
  unfold State.setSource
  dsimp only
  split
  · rfl
  · split
    · exact State.rd_wr_ne _ hne _
    · exact State.rd_wr_ne _ hne _

theorem State.rd_setSource_ne (e : Nat) {k : RegKey} (h : k ≠ R1 .EVT_STATUS (e / 32)) : (s.setSource e).rd k = s.rd k := by
  unfold State.setSource
  dsimp only
  split
  · rfl
  · split
    · exact State.rd_wr_ne _ h _
    · exact State.rd_wr_ne _ h _

/-- A source that can set has its STATUS set. -/
theorem State.setSource_status (e : Nat) (h : s.sourceSets e = true) :
    bitOf ((s.setSource e).rd (R1 .EVT_STATUS (e / 32))) (e % 32) = true := by
  unfold State.setSource
  dsimp only
  split
  · rename_i hc
    simpa [h] using hc
  · have hb : bitOf (s.rd (R1 .EVT_STATUS (e / 32)) ||| bit1 (e % 32)) (e % 32) = true := by
      have hlt : e % 32 < 32 := Nat.mod_lt _ (by decide)
      have h2 : (bit1 (e % 32)).getLsbD (e % 32) = true := by
        simp only [bit1, BitVec.getLsbD_ofNat, hlt, decide_true, Bool.true_and]
        exact Nat.testBit_two_pow_self
      simp [bitOf, BitVec.getLsbD_or, h2]
    split
    · exact (congrArg (bitOf · _) (State.rd_wr_self s _ _)).trans hb
    · exact (congrArg (bitOf · _) (State.rd_wr_self s _ _)).trans hb

/-- A one-bit field of a word whose bit is set. -/
theorem getF_or_mask (x : W32) (i : Nat) (h : i < 32) : getF (x ||| Fld.mask ⟨i, 1⟩) ⟨i, 1⟩ = 1 := by
  have hm : (Fld.mask ⟨i, 1⟩).toNat = 2 ^ i := by
    simp only [Fld.mask, BitVec.toNat_ofNat]
    norm_num
    exact Nat.pow_lt_pow_right (by decide) h
  have hb : (x.toNat ||| 2 ^ i).testBit i = true := by simp
  simp only [getF, BitVec.toNat_or, hm]
  have : (x.toNat ||| 2 ^ i) / 2 ^ i % 2 = 1 := by
    rw [Nat.testBit_eq_decide_div_mod_eq] at hb
    simpa using hb
  simpa using this

theorem State.rd_evtOfRise (k k' : RegKey) (old new : W32) (h : k'.name ≠ .EVT_STATUS) : (s.evtOfRise k old new).rd k' = s.rd k' := by
  unfold State.evtOfRise
  split
  · split
    · rfl
    · exact s.rd_setSource _ _ h
  · split
    · exact s.rd_setSource _ _ h
    · rfl
  · rfl

/-- A register after hardware sets sticky bits of one: that one has them, and beside the event sources' STATUS nothing changes. -/
theorem State.rd_raiseW (k k' : RegKey) (b : W32) (h : k'.name ≠ .EVT_STATUS) :
    (s.raiseW k b).rd k' = if k' = k then s.rd k ||| b else s.rd k' := by
  unfold State.raiseW
  dsimp only
  rw [State.rd_evtOfRise _ _ _ _ _ h, State.rd_note, State.rd_wr]

theorem State.rd_raise (k k' : RegKey) (f : Fld) (h : k'.name ≠ .EVT_STATUS) :
    (s.raise k f).rd k' = if k' = k then s.rd k ||| f.mask else s.rd k' := s.rd_raiseW k k' _ h

/-- A sticky bit that hardware sets is set. -/
theorem State.flag_raise (k : RegKey) (i : Nat) (hi : i < 32) (h : k.name ≠ .EVT_STATUS) : (s.raise k ⟨i, 1⟩).flag k ⟨i, 1⟩ = true := by
  simp only [State.flag, State.fld, State.rd_raise s k k ⟨i, 1⟩ h, if_pos, getF_or_mask _ i hi]
  rfl

theorem State.rd_raiseIf (c : Bool) (k k' : RegKey) (f : Fld) (h : k'.name ≠ .EVT_STATUS) :
    (s.raiseIf c k f).rd k' = if c = true ∧ k' = k then s.rd k ||| f.mask else s.rd k' := by
  cases c
  · simp [State.raiseIf]
  · simp [State.raiseIf, State.rd_raise s k k' f h]

/-! ## Updates that leave every register alone -/

@[simp] theorem State.rd_fire (e : Nat) (k : RegKey) : (s.fire e).rd k = s.rd k := rfl
@[simp] theorem State.rd_emit (e : Emit) (k : RegKey) : (s.emit e).rd k = s.rd k := rfl
@[simp] theorem State.rd_answer (r : Req) (v : W32) (k : RegKey) : (s.answer r v).rd k = s.rd k := rfl
@[simp] theorem State.rd_countBeat (m : Nat) (r : Req) (t : Nat) (k : RegKey) : (s.countBeat m r t).rd k = s.rd k := rfl
@[simp] theorem State.rd_dropLock (r : Req) (k : RegKey) : (s.dropLock r).rd k = s.rd k := rfl
@[simp] theorem State.rd_setSide (sd : Side) (x : SideSt) (k : RegKey) : (s.setSide sd x).rd k = s.rd k := by cases sd <;> rfl
@[simp] theorem State.live_wr (k : RegKey) (v : W32) (sd : Side) : (s.wr k v).live sd = s.live sd := by cases sd <;> rfl
@[simp] theorem State.live_countBeat (m : Nat) (r : Req) (t : Nat) (sd : Side) : (s.countBeat m r t).live sd = s.live sd := by cases sd <;> rfl

/-! ## Accesses -/

/-- An access that is granted takes its effect, after its beat is counted. -/
theorem State.access_granted (r : Req) (t : Target) (ok : Bool) (a : Nat) (v : W32) (f : State → State) (h0 : s.aoReset = false)
    (hp : hasPath r t = true) (ho : ok = true) (hl : s.mustWait r t.num = false) :
    s.access r t ok a v f = f (s.countBeat (reqMaster r) r t.num) := by
  simp [State.access, h0, hp, ho, hl]

/-- An access without a path or the right is denied. -/
theorem State.access_denied (r : Req) (t : Target) (ok : Bool) (a : Nat) (v : W32) (f : State → State) (h0 : s.aoReset = false)
    (hd : (hasPath r t && ok) = false) : s.access r t ok a v f = s.denied r false a := by
  simp [State.access, h0, hd]

/-- An access behind an earlier one of its requester, or at a target that another locks, waits. -/
theorem State.access_waits (r : Req) (t : Target) (ok : Bool) (a : Nat) (v : W32) (f : State → State) (h0 : s.aoReset = false)
    (hp : hasPath r t = true) (ho : ok = true) (hl : s.mustWait r t.num = true) :
    s.access r t ok a v f = s.wait { master := reqMaster r, req := r, target := t.num, addr := w32 a, data := some v } := by
  simp [State.access, h0, hp, ho, hl]

/-- A read that is granted answers the bytes enabled of its word. -/
theorem State.readAccess_granted (r : Req) (be : Fin 16) (t : Target) (ok : Bool) (a : Nat) (f : State → W32 × State) (h0 : s.aoReset = false)
    (hp : hasPath r t = true) (ho : ok = true) (hl : s.mustWait r t.num = false) :
    s.readAccess r be t ok a f = (f (s.countBeat (reqMaster r) r t.num)).2.answer r (bytesOf be (f (s.countBeat (reqMaster r) r t.num)).1) := by
  simp [State.readAccess, h0, hp, ho, hl]

end Sys2Proof.Machine
end

