-- ==== Sys2Proof/Laws/Frame.lean ====
section
/-!
SUPPORT. Frames: what each update changes, and how frames compose.
-/
namespace Sys2Proof.Machine

theorem State.changesOnly_refl (ps : List Part) (s : State) : s.changesOnly ps s := by
  intro p _
  cases p <;> first
    | rfl
    | exact ⟨rfl, rfl⟩
    | exact ⟨rfl, rfl, rfl⟩

theorem State.changesOnly_trans {ps : List Part} {s t u : State} (h₁ : s.changesOnly ps t) (h₂ : t.changesOnly ps u) :
    s.changesOnly ps u := by
  intro p hp
  have a := h₁ p hp
  have b := h₂ p hp
  cases p <;> first
    | exact Eq.trans b a
    | exact ⟨Eq.trans b.1 a.1, Eq.trans b.2 a.2⟩
    | exact ⟨Eq.trans b.1 a.1, Eq.trans b.2.1 a.2.1, Eq.trans b.2.2 a.2.2⟩

theorem State.changesOnly_mono {ps qs : List Part} {s t : State} (h : s.changesOnly ps t) (hs : ∀ p ∈ ps, p ∈ qs) : s.changesOnly qs t :=
  fun p hp => h p fun hc => hp (hs p hc)

variable {ps : List Part} {s t : State}

theorem State.changesOnly_wr (k : RegKey) (v : W32) (hs : s.changesOnly ps t) (h : .regs ∈ ps) : s.changesOnly ps (t.wr k v) := by
  refine State.changesOnly_trans hs fun p hp => ?_
  cases p <;> first
    | rfl
    | exact ⟨rfl, rfl⟩
    | exact ⟨rfl, rfl, rfl⟩
    | exact absurd h hp

theorem State.changesOnly_setF (k : RegKey) (f : Fld) (v : Nat) (hs : s.changesOnly ps t) (h : .regs ∈ ps) : s.changesOnly ps (t.setF k f v) := by
  refine State.changesOnly_trans hs fun p hp => ?_
  cases p <;> first
    | rfl
    | exact ⟨rfl, rfl⟩
    | exact ⟨rfl, rfl, rfl⟩
    | exact absurd h hp

theorem State.changesOnly_clearW (k : RegKey) (b : W32) (hs : s.changesOnly ps t) (h : .regs ∈ ps) : s.changesOnly ps (t.clearW k b) := by
  refine State.changesOnly_trans hs fun p hp => ?_
  cases p <;> first
    | rfl
    | exact ⟨rfl, rfl⟩
    | exact ⟨rfl, rfl, rfl⟩
    | exact absurd h hp

theorem State.changesOnly_fire (e : Nat) (hs : s.changesOnly ps t) (h : .fired ∈ ps) : s.changesOnly ps (t.fire e) := by
  refine State.changesOnly_trans hs fun p hp => ?_
  cases p <;> first
    | rfl
    | exact ⟨rfl, rfl⟩
    | exact ⟨rfl, rfl, rfl⟩
    | exact absurd h hp

theorem State.changesOnly_emit (e : Emit) (hs : s.changesOnly ps t) (h : .out ∈ ps) : s.changesOnly ps (t.emit e) := by
  refine State.changesOnly_trans hs fun p hp => ?_
  cases p <;> first
    | rfl
    | exact ⟨rfl, rfl⟩
    | exact ⟨rfl, rfl, rfl⟩
    | exact absurd h hp

theorem State.changesOnly_answer (r : Req) (v : W32) (hs : s.changesOnly ps t) (h : .lastRead ∈ ps) : s.changesOnly ps (t.answer r v) := by
  refine State.changesOnly_trans hs fun p hp => ?_
  cases p <;> first
    | rfl
    | exact ⟨rfl, rfl⟩
    | exact ⟨rfl, rfl, rfl⟩
    | exact absurd h hp

theorem State.changesOnly_countBeat (m : Nat) (r : Req) (n : Nat) (hs : s.changesOnly ps t) (h : .locks ∈ ps) : s.changesOnly ps (t.countBeat m r n) := by
  refine State.changesOnly_trans hs fun p hp => ?_
  cases p <;> first
    | rfl
    | exact ⟨rfl, rfl⟩
    | exact ⟨rfl, rfl, rfl⟩
    | exact absurd h hp

theorem State.changesOnly_dropLock (r : Req) (hs : s.changesOnly ps t) (h : .locks ∈ ps) : s.changesOnly ps (t.dropLock r) := by
  refine State.changesOnly_trans hs fun p hp => ?_
  cases p <;> first
    | rfl
    | exact ⟨rfl, rfl⟩
    | exact ⟨rfl, rfl, rfl⟩
    | exact absurd h hp

theorem State.changesOnly_addSat (k : RegKey) (f : Fld) (n : Nat) (hs : s.changesOnly ps t) (h : .regs ∈ ps) (h' : .fired ∈ ps) : s.changesOnly ps (t.addSat k f n) := by
  rw [State.addSat_eq]
  refine State.changesOnly_trans hs fun p hp => ?_
  cases p <;> first
    | rfl
    | exact ⟨rfl, rfl, rfl⟩
    | exact absurd h hp
    | exact absurd h' hp

theorem State.changesOnly_addWrap (k : RegKey) (n : Nat) (hs : s.changesOnly ps t) (h : .regs ∈ ps) (h' : .fired ∈ ps) : s.changesOnly ps (t.addWrap k n) := by
  rw [State.addWrap_eq]
  refine State.changesOnly_trans hs fun p hp => ?_
  cases p <;> first
    | rfl
    | exact ⟨rfl, rfl, rfl⟩
    | exact absurd h hp
    | exact absurd h' hp

theorem State.changesOnly_setSource (e : Nat) (hs : s.changesOnly ps t) (h : .regs ∈ ps) (h' : .fired ∈ ps) : s.changesOnly ps (t.setSource e) := by
  rw [State.setSource_eq]
  refine State.changesOnly_trans hs fun p hp => ?_
  cases p <;> first
    | rfl
    | exact ⟨rfl, rfl, rfl⟩
    | exact absurd h hp
    | exact absurd h' hp

theorem State.changesOnly_raiseW (k : RegKey) (b : W32) (hs : s.changesOnly ps t) (h : .regs ∈ ps) (h' : .fired ∈ ps) : s.changesOnly ps (t.raiseW k b) := by
  rw [State.raiseW_eq]
  refine State.changesOnly_trans hs fun p hp => ?_
  cases p <;> first
    | rfl
    | exact ⟨rfl, rfl, rfl⟩
    | exact absurd h hp
    | exact absurd h' hp

theorem State.changesOnly_raise (k : RegKey) (f : Fld) (hs : s.changesOnly ps t) (h : .regs ∈ ps) (h' : .fired ∈ ps) : s.changesOnly ps (t.raise k f) := by
  rw [State.raise_eq]
  refine State.changesOnly_trans hs fun p hp => ?_
  cases p <;> first
    | rfl
    | exact ⟨rfl, rfl, rfl⟩
    | exact absurd h hp
    | exact absurd h' hp

theorem State.changesOnly_raiseIf (c : Bool) (k : RegKey) (f : Fld) (hs : s.changesOnly ps t) (h : .regs ∈ ps) (h' : .fired ∈ ps) : s.changesOnly ps (t.raiseIf c k f) := by
  rw [State.raiseIf_eq]
  refine State.changesOnly_trans hs fun p hp => ?_
  cases p <;> first
    | rfl
    | exact ⟨rfl, rfl, rfl⟩
    | exact absurd h hp
    | exact absurd h' hp

theorem State.changesOnly_denied (r : Req) (w : Bool) (a : Nat) (hs : s.changesOnly ps t) (h : .regs ∈ ps) (h' : .fired ∈ ps) : s.changesOnly ps (t.denied r w a) := by
  rw [State.denied_eq]
  refine State.changesOnly_trans hs fun p hp => ?_
  cases p <;> first
    | rfl
    | exact ⟨rfl, rfl, rfl⟩
    | exact absurd h hp
    | exact absurd h' hp

theorem State.changesOnly_setSide (sd : Side) (x : SideSt) (hs : s.changesOnly ps t) (h : .sideA ∈ ps) (h' : .sideB ∈ ps) :
    s.changesOnly ps (t.setSide sd x) := by
  refine State.changesOnly_trans hs fun p hp => ?_
  cases sd <;> cases p <;> first
    | rfl
    | exact ⟨rfl, rfl⟩
    | exact ⟨rfl, rfl, rfl⟩
    | exact absurd h hp
    | exact absurd h' hp

end Sys2Proof.Machine
end

