-- ==== Sys2Proof/Tests/Slice0.lean ====
section
/-!
SUPPORT. The model's own tests: an ill-formed command for each check of WellFormed, single commands on small states, and for every statement with
hypotheses a witness of each of its clauses: a state and operands that meet them all.
-/
namespace Sys2Proof.Machine
set_option Elab.async false

/-! ## States for the tests -/

/-- The device booted, both Sides running and neither holding the lease, nothing configured. -/
def base : State := { State.reset with aoReset := false, otpOk := true, loaded := true, hostParked := false, sideA := { inReset := false, powered := true, trained := true, lastBeat := some 0 }, sideB := { inReset := false, powered := true, trained := true, lastBeat := some 0 } }

/-- A state with registers written. -/
def State.regsAt (s : State) (l : List (RegKey × W32)) : State := l.foldl (fun (s : State) p => s.wr p.1 p.2) s

/-- A state with fields of registers set. -/
def State.fields (s : State) (l : List (RegKey × Fld × Nat)) : State := l.foldl (fun (s : State) p => s.setF p.1 p.2.1 p.2.2) s

/-- A state with the time at a tick. -/
def State.atTick (s : State) (t : Nat) : State := { s with tick := t }

/-- A state with twin registers as delivered: in the routing snapshot and in both Sides. -/
def State.twinsAt (s : State) (l : List (RegKey × W32)) : State := l.foldl (fun (s : State) p => s.deliver p.1 p.2) s

/-- A state with AO_RESET_N low but nothing lost. -/
def low : State := { base with aoReset := true }

/-- `base` with lanes 0 and 256 running Nervor links of four channels, which feed input slot 1023 and the group of two at 1020, and output
slot 1023 and the group of two at 1020 in the plan. -/
def rig : State :=
  { base.fields ([0, 256].flatMap fun l => [(R1 .LANE_CFG l, F.LANE_CFG_PROTO, 1), (R1 .LANE_CFG l, F.LANE_CFG_RATE, 2), (R1 .LANE_STAT l, F.LANE_STAT_LOS, 0), (R1 .LANE_STAT l, F.LANE_STAT_PARK, 0), (R1 .NVL_STAT l, F.NVL_STAT_STATE, 3), (R1 .NVL_STAT l, F.NVL_STAT_CHANNELS, 4)]) with
    inPlan := [(1020, { slots := 2, lowest := 1020, srcE := some (.nervor 0 0), srcW := some (.nervor 256 0) }), (1021, { slots := 2, lowest := 1020 }), (1023, { slots := 1, lowest := 1023, srcE := some (.nervor 0 3), srcW := some (.nervor 256 3) })]
    outPlan := [(1020, { fmt := { code := 0x8B1 }, slots := 2, lowest := 1020, txE := some (.nervor 0 0), txW := some (.nervor 256 0) }), (1021, { slots := 2, lowest := 1020 }), (1023, { fmt := { code := 0x891 }, slots := 1, lowest := 1023, txE := some (.nervor 0 3), txW := some (.nervor 256 3) })] }
/-- Input slot 1023 present from both banks, with its merge running in both Sides. -/
def fed : State :=
  { rig with
    inRx := [(1023, { e := { present := true }, w := { present := true }, fmt := { code := 0x891 } })]
    merges := [(2046, { e := { absent := false }, w := { absent := false }, lost := false }), (2047, { e := { absent := false }, w := { absent := false }, lost := false })] }

/-- An SOF of frame 255 and the FORMAT marker after it. -/
def sofWords (code spec : Nat) : List RxWord := [{ w := markWord 0 0 (4 * 255 + spec) }, { w := markWord 6 0 code }]

/-- `rig` with words waiting in a copy of input slot 1023, which is present or not. -/
def arriving (b : Bank) (present : Bool) (ws : List RxWord) : State := { rig with inRx := [(1023, InRx.setCopy {} b { present := present, rx := ws, sofDone := false })] }

/-- `rig` with the words buffered for the members 0 and 1 of a copy of the input group at 1020, member 1 having underrun or not. -/
def bonding (b : Bank) (under : List Nat) (ws0 ws1 : List RxWord) (left : Nat) : State :=
  { rig with inRx := [(1020, InRx.setCopy {} b { present := true, under := under, members := [(0, ws0), (1, ws1)], left := left, turn := 1 })] }

/-- Input slot 1023 present from both banks; Bank E's next block is the EAL of line 9 of a line found bad, whose key is that of the one block that
Bank W has brought to Side B's merge. -/
def merging : State :=
  { fed with
    inRx := [(1023, { e := { present := true, started := true, rx := [{ w := markWord 3 9 0 }, { w := markWord 7 10 0 }], cut := { tag := 255, lineGood := false } }, w := { present := true }, fmt := { code := 0x891 }, slots := 1 })]
    merges := [(2047, { e := { absent := false }, w := { absent := false, q := [{ tag := 255, line := 9, idx := 0, mark := 10, sof := false, eof := false, good := true, words := [7] }] }, lost := false })] }

/-- `rig` with the lease held by Side B. -/
def held : State := rig.fields [(R0 .RFE_STATE, ⟨0, 2⟩, 2)]

/-- `held` with lane 511 transmitting. -/
def sending : State := held.fields [(R1 .LANE_CFG 511, F.LANE_CFG_PROTO, 1), (R1 .LANE_CFG 511, F.LANE_CFG_RATE, 2), (R1 .LANE_STAT 511, F.LANE_STAT_PARK, 0), (R1 .LANE_STAT 511, ⟨5, 1⟩, 1)]

/-- `held` on the Harif ring. -/
def ringed : State := { held.fields [(R0 .HAF_CFG, F.HAF_CFG_STATION, 2), (R0 .RFE_CFG, F.RFE_CFG_MODE, 0)] with ring := { bypassed := false } }

/-- A ring frame of no records but update 1, sequence 0 and command 1, with a good CRC. -/
def goodRing : List Byte :=
  let body : List Byte := [0, 0, 0, 1] ++ List.replicate 4 0 ++ [1] ++ List.replicate 1236 0
  let crc := crc32 (body.map (·.toNat))
  [0x55] ++ body ++ [BitVec.ofNat 8 crc, BitVec.ofNat 8 (crc / 0x100), BitVec.ofNat 8 (crc / 0x10000), BitVec.ofNat 8 (crc / 0x1000000)]

/-- Lanes 508 to 511 with a protocol, LOS gone, in L0, and their Quad PLL locked; idle since tick 0, with their group permitting L3. -/
def quad (proto : Nat) (park : Nat) : State :=
  { (base.fields (([508, 509, 510, 511].flatMap fun l => [(R1 .LANE_CFG l, F.LANE_CFG_PROTO, proto), (R1 .LANE_CFG l, F.LANE_CFG_RATE, if proto = 1 then 2 else if proto = 2 then 6 else 4), (R1 .LANE_STAT l, F.LANE_STAT_LOS, 0), (R1 .LANE_STAT l, F.LANE_STAT_LOL, 0), (R1 .LANE_STAT l, F.LANE_STAT_PARK, park)]) ++ [(qstat 127, F.LANE_QSTAT_LOCK, 1), (R1 .PARK_LANE_DECL 0, F.PARK_LANE_DECL_VALUE, 5), (R1 .PARK_LANE_DECL 0, F.PARK_LANE_DECL_UNIT, 2)])) with
    tick := 10 * msTicks, lanes := [508, 509, 510, 511].map fun l => (l, { idleSince := some 0 }) }

/-- A state in which HP0 holds every destination, head, lane, Bench and management port and is the referee's owner. -/
def lit (s : State) : State := { s with rights := [(1, { dest := [(0, 2047)], heads := [(0, 31)], prot := [(0, 31)], tbs := [0, 1, 2, 3], refOwner := true, lanes := [(0, 511)], benches := [(0, 1023)], mgPorts := [0, 1], rfeOwner := true })] }

/-- A control message with a good CRC-8. -/
def msg (code part body : Nat) : BitVec 56 :=
  let p := code * 2 ^ 44 + part * 2 ^ 40 + body
  BitVec.ofNat 56 (p * 256 + crc 8 0x07 0 (bitsMsb 48 p))

/-- Lane 256 (and 0) of `rig` with its Nervor link in a state, with SF and block lock and one channel of four; HP0 holds all lanes. -/
def link (st : Nat) : State := lit (rig.fields [(R1 .NVL_STAT 256, F.NVL_STAT_STATE, st), (R1 .NVL_STAT 256, F.NVL_STAT_SF_LOCK, 1), (R1 .NVL_STAT 256, F.NVL_STAT_BLOCK_LOCK, 1)])

/-- Lane 511 an SDI lane with raster lock at 3G. -/
def sdi : State := (quad 2 0).fields [(R1 .SDI_STAT 511, F.SDI_STAT_RASTER_LOCK, 1), (R1 .SDI_STAT 511, F.SDI_STAT_RATE, 2)]

/-- A frame with its FCS. -/
def withFcs (bs : List Byte) : List Byte :=
  let c := crc32 (bs.map (·.toNat))
  bs ++ [BitVec.ofNat 8 c, BitVec.ofNat 8 (c / 0x100), BitVec.ofNat 8 (c / 0x10000), BitVec.ofNat 8 (c / 0x1000000)]

/-- A broadcast frame of 64 bytes whose EtherType is not assigned here. -/
def bcast : List Byte := withFcs (List.replicate 6 255 ++ List.replicate 6 1 ++ [0x12, 0x34] ++ List.replicate 46 7)

/-- A UDP datagram to 239.0.0.1, port 5004, with an RTP header of sequence number 40. -/
def flowFrame : List Byte :=
  withFcs (putIpSum ([0x01, 0, 0x5E, 0, 0, 1] ++ List.replicate 6 2 ++ [0x08, 0x00, 0x45, 0, 0, 82, 0, 0, 0, 0, 64, 17, 0, 0, 10, 0, 0, 1, 0xEF, 0, 0, 1] ++
    [0, 7, 0x13, 0x8C, 0, 62, 0, 0] ++ [0x80, 96, 0, 40] ++ List.replicate 50 0))

/-- Port 127 on lane 511 and management port 129, both present and up at 25 Gb/s and 1 Gb/s; transmit flow 4095 of type 2 enabled on port 127. -/
def eth : State :=
  { lit ((quad 3 0).fields [(R1 .ETH_PORT_STAT 127, ⟨0, 1⟩, 1), (R1 .ETH_PORT_STAT 127, F.ETH_PORT_STAT_TYPE, 1), (R1 .ETH_PORT_STAT 129, ⟨0, 1⟩, 1), (R1 .ETH_PORT_STAT 129, F.ETH_PORT_STAT_TYPE, 7), (R1 .ETH_MG_CFG 1, F.ETH_MG_CFG_ENABLE, 1), (R1 .ETH_TXF_CFG 4095, F.ETH_TXF_CFG_EN_W, 1), (R1 .ETH_TXF_CFG 4095, F.ETH_TXF_CFG_PORT_W, 63), (R1 .ETH_TXF_CFG 4095, F.ETH_TXF_CFG_TYPE, 2)]) with
    portPlan := [(127, { present := true, lanes := [511] }), (129, { present := true })] }

/-- TDM port 15 in a state, a receiver of the bit clock, with a start index; HP0 holds it. -/
def tdm (st : Nat) : State :=
  { lit (base.fields [(R1 .TDM_STAT 15, F.TDM_STAT_STATE, st)]) with tdmOwner := [(15, 1)], tdm := [(15, { start := some 7 })] }

/-- HP0's load registers name a KIND, a head, an index and an address; heads 30 and 31 are present and pre-blend table 63 is head 31's. -/
def loading (kind head index addr : Nat) : State :=
  { lit base with
    twins := Sparse.put RegKey.lt RegKey.reset (Sparse.put RegKey.lt RegKey.reset [] (RB .ALY_LOAD_SEL .hp0 0) (putF (putF (putF 0 F.ALY_LOAD_SEL_KIND kind) F.ALY_LOAD_SEL_HEAD head) F.ALY_LOAD_SEL_INDEX index)) (RB .ALY_LOAD_ADDR .hp0 0) (w32 addr)
    headPlan := [(30, { present := true, fmt := { code := 0x891 }, rects := 1 }), (31, { present := true, fmt := { code := 0x891 }, rects := 4 })]
    preHead := [(63, some 31)] }

/-- The reference selector LOCKED to candidate 1 in AUTO with REVERT; candidate 0 is qualified and better. -/
def reverting : State := base.fields [(R0 .REF_CFG, F.REF_CFG_MODE, 0), (R0 .REF_CFG, F.REF_CFG_REVERT, 1), (R0 .REF_STAT, F.REF_STAT_STATE, 2), (R0 .REF_STAT, F.REF_STAT_SEL, 1), (R1 .REF_CAND_STAT 0, F.REF_CAND_STAT_QUAL, 1), (R1 .REF_CAND_STAT 1, F.REF_CAND_STAT_QUAL, 1), (R1 .REF_CAND_CFG 0, F.REF_CAND_CFG_PRIO, 1), (R1 .REF_CAND_CFG 1, F.REF_CAND_CFG_PRIO, 1)]

/-- Hopper 63 of Side B in a mode, with its content. -/
def hop (mode : Nat) (h : Hopper) : State := { base.fields [(RS .HOP_CFG .B 63, F.HOP_CFG_MODE, mode), (RS .HOP_CFG .B 63, F.HOP_CFG_ENTRY, 1)] with hoppers := [(127, h)] }

/-- Side B trained, with pseudo-channel 31 in a mode. -/
def pcs (mode : Nat) (x : PcSt) : State := { base.fields [(RS .HBM_PC_STAT .B 31, F.HBM_PC_STAT_MODE, mode), (RS .HBM_CFG .B 0, F.HBM_CFG_SCRUB_EN, 1)] with hbmRun := [(63, x)] }

/-- The word of a completed access. -/
def Beat.word : Beat → W32
  | .done w _ => w
  | _ => 0

/-- The state after a completed access. -/
def Beat.after (s : State) : Beat → State
  | .done _ t => t
  | _ => s

/-- An access completes. -/
def Beat.isDone : Beat → Bool
  | .done _ _ => true
  | _ => false

/-- A requester's window on a target, at an address below 2^32. -/
def win (r : Req) (t a : Nat) : State := base.fields [(RB .WIN_CTL r 0, F.WIN_CTL_TARGET, t), (RB .WIN_ADDR_LO r 0, ⟨2, 30⟩, a / 4)]

/-- A message to the boot core in mailbox 31, the update mailbox. -/
def mail (s : State) (words : List W32) : State :=
  (({ s with updMbx := 31 } : State).fields [(R1 .MBX_STAT 31, F.MBX_STAT_STATE, 2), (R1 .MBX_STAT 31, F.MBX_STAT_OWNER, 1), (R1 .MBX_CFG 31, F.MBX_CFG_RECEIVER, 10)]).regsAt ((List.range words.length).map fun w => (R2 .MBX_MSG 31 w, words.getD w 0))

/-- The update stage and, with it, a session. -/
def staged (stage : Nat) (x : Option Session) (s : State) : State := { s.fields [(R0 .UPD_STAT, F.UPD_STAT_STAGE, stage)] with session := x }

/-- Words in a flash from an address. -/
def wordCells (a : Nat) (ws : List W32) : List Host.Cell := (List.range (4 * ws.length)).map fun i => (a + i, (leBytes ws).getD i 0)

/-- A boot header in copy 0 of both flashes, copy 1 being invalid; the images in both slots are of no length. -/
def flashed (active confirmed tries prev : Nat) (s : State) : State :=
  let ws := [5, w32 (active + 2 * confirmed + 8 * tries), w32 prev, 0]
  let cells := wordCells 0 (ws ++ [hdrCrc ws]) ++ wordCells 0x1000 [0, 0, 0, 0, 0] ++ wordCells 0x100008 [0] ++ wordCells 0x900008 [0]
  { s with flash0 := cells, flash1 := cells }

/-- A session of one piece of four bytes, all committed, which the journal holds as one word; with a target of SVN 5. -/
def four (kind : Nat) (w : W32) : Session := { kind := kind, len := 4, hash := shaOfWords [w], done := [0], target := { svn := 5, version := 9 } }

/-- The journal holds one word. -/
def journal (w : W32) (s : State) : State := { s with flash0 := wordCells 0x2101000 [w] }

/-- `held` with Side A running and in step. -/
def stepped : State := { held.atTick 100 with sideA := { held.sideA with lastBeat := some 100, stepSince := some 0 } }

/-- A requester's token of a KIND with REQ and MINUTES, for this device and the challenge in force. -/
def token (r : Req) (w0 : W32) : State := (base.wr (RB .SEC_TOKEN r 0) w0).regsAt [(RB .SEC_TOKEN r 1, Config.serial.extractLsb' 0 32), (RB .SEC_TOKEN r 2, Config.serial.extractLsb' 32 32)]

/-- Word 0 of the token reads as given. -/
theorem token_word (r : Req) (w0 : W32) : (token r w0).rd (RB .SEC_TOKEN r 0) = w0 := by
  simp [token, State.regsAt, State.rd_wr, RB]

/-- The token is for this device and the challenge in force. -/
theorem token_fresh (r : Req) (w0 : W32) : (token r w0).tokenFresh r = true := by
  have h3 : base.rd (RB .SEC_TOKEN r 3) = base.rd (R0 .SEC_CHAL_LO) := by cases r <;> rfl
  have h4 : base.rd (RB .SEC_TOKEN r 4) = base.rd (R0 .SEC_CHAL_HI) := by cases r <;> rfl
  simp [State.tokenFresh, token, State.regsAt, State.rd_wr, RB, R0] at *
  simp [h3, h4]

/-- A token whose word 3 is not the challenge is not. -/
theorem token_stale (r : Req) (w0 : W32) : ((token r w0).wr (RB .SEC_TOKEN r 3) 1).tokenFresh r = false := by
  have h3 : base.rd (R0 .SEC_CHAL_LO) = 0 := by rfl
  simp [State.tokenFresh, token, State.regsAt, State.rd_wr, RB, R0] at *
  simp [h3]
/-- PIECE_END for piece 0 with a hash, the piece's 69 parts being zeros. -/
def pieceMail (l : List W32) : State :=
  { base with
    updMbx := 31
    session := some { len := 4096 }
    parts := (List.range 69).map fun p => (p, List.replicate (if p < 68 then 15 else 4) 0)
    regs := [(R2 .MBX_MSG 31 0, 3), (R2 .MBX_MSG 31 1, l.getD 0 0), (R2 .MBX_MSG 31 2, l.getD 1 0), (R2 .MBX_MSG 31 3, l.getD 2 0), (R2 .MBX_MSG 31 4, l.getD 3 0), (R2 .MBX_MSG 31 5, l.getD 4 0), (R2 .MBX_MSG 31 6, l.getD 5 0), (R2 .MBX_MSG 31 7, l.getD 6 0), (R2 .MBX_MSG 31 8, l.getD 7 0), (R1 .MBX_STAT 31, 6), (R1 .MBX_CFG 31, 10)] }

/-- It is a PIECE_END. -/
theorem pieceMail_has (l : List W32) : (pieceMail l).hasMsg 3 := by
  simp [State.hasMsg, State.msg, base, State.mbxReceiver, State.mbxState, F.MBX_STAT_STATE, State.fld, State.rd, pieceMail, Sparse.get, R1, R2, getF, F.MBX_CFG_RECEIVER]

/-- Its hash is the given one. -/
theorem pieceMail_hash (l : List W32) (h : l.length = 8) : l = (pieceMail l).msgWords 1 8 := by
  match l, h with
  | [_, _, _, _, _, _, _, _], _ => rfl

/-- The piece's words. -/
theorem pieceMail_words (l : List W32) : List.replicate 1024 0 = (pieceMail l).pieceWords 0 :=
  (show List.replicate 1024 0 = (pieceMail []).pieceWords 0 by decide +kernel).trans rfl

/-- `base` is sound. -/
theorem base_sound : base.Sound where
  regs := by decide +kernel
  twins := by decide +kernel
  live := by decide +kernel
  hbmA := by decide +kernel
  hbmB := by decide +kernel
  sramA := by decide +kernel
  sramB := by decide +kernel
  flash0 := by simp [base, State.reset, Sparse.wf]
  flash1 := by simp [base, State.reset, Sparse.wf]
  alyA := by simp [base, State.reset, Sparse.wf]
  alyB := by simp [base, State.reset, Sparse.wf]
  locks := by simp [base, State.reset, locksOk]
  twinQ := by simp [base, State.reset, twinQOk]
  winBuf := fun _ => Nat.zero_le _

end Sys2Proof.Machine

namespace Sys2Proof.Tests
set_option Elab.async false
set_option maxRecDepth 20000
open Sys2Proof.Machine

/-! ## WellFormed: one ill-formed command for each of its checks -/

/-- A cut that names no target of Strata. -/
theorem smoke_cut_target : Instr.wellFormed (.perstAssert 0 { target := 12 }) = false := by decide

/-- A cut without a target, but with beats. -/
theorem smoke_cut_without_target : Instr.wellFormed (.pcieLinkDown 0 { target := 15, zero := 1 }) = false := by decide

/-- A cut of more than 16 beats. -/
theorem smoke_cut_beats : Instr.wellFormed (.bankSupplyFail .E 0 {} { target := 6, zero := 17 }) = false := by decide

/-- A cut of more than 16 reads. -/
theorem smoke_cut_reads : Instr.wellFormed (.functionLevelReset 0 { target := 6, reads := List.replicate 17 0 }) = false := by decide

/-- No reading of a region's sensors, and one outside a signed byte. -/
theorem smoke_readings : Instr.wellFormed (.thermalSensorRead 0 []) = false ∧ Instr.wellFormed (.thermalSensorRead 0 [128]) = false := by decide

/-- Delays that are not those of 32 pseudo-channels, eight of seven bits each. -/
theorem smoke_delays : Instr.wellFormed (.hbmStartTrainingDone .A []) = false ∧
    Instr.wellFormed (.hbmStartTrainingDone .A (List.replicate 32 (List.replicate 8 128))) = false ∧
    Instr.wellFormed (.hbmRetrainPass .A 0 (some (List.replicate 7 0))) = false ∧
    Instr.wellFormed (.hbmSelfRefreshExit .A [none]) = false := by decide

/-- A line that Assay does not have. -/
theorem smoke_line : Instr.wellFormed (.assayLineRise [(41, 0)]) = false := by decide

/-- More slots than a TDM frame has. -/
theorem smoke_slots : Instr.wellFormed (.tdmFrameSync 0 (List.replicate 65 0)) = false := by decide

/-- A rectangle that no head has. -/
theorem smoke_rectangle : Instr.wellFormed (.headFrame 0 [8]) = false := by decide

/-- A link of no generation, and one of three lanes. -/
theorem smoke_link : Instr.wellFormed (.pcieLinkUp 0 0 4) = false ∧ Instr.wellFormed (.pcieLinkUp 0 5 3) = false := by decide

/-- No word spells a command. -/
theorem test_no_word_spells : decodeTableWord 32 0 = none := rfl

/-! ## Numbers that the spec works out -/

/-- R11: lane 301 lies in quad 75, position 1, in Bank W. -/
theorem test_lane_301 : (quadLanes 75).getD 1 0 = 301 ∧ laneBank 301 = .W := by decide

/-- Chapter 20's worked example: addresses along one output. -/
theorem test_addresses : (R1 .XPT_PRESET 812).twinAddr = 0x02700CB0 ∧ (R0 .XPT_TAKE).twinAddr = 0x02702000 ∧ (R1 .XPT_OUT_CFG 812).twinAddr = 0x02050CB0 ∧
    (RS .XPT_OUT_STAT .B 812).addr = 0x01853CB0 ∧ (RS .XPT_IN_PHASE .A 37).addr = 0x01042094 ∧ (R1 .SLU_STAT 40).addr = 0x001110A0 ∧
    (R1 .NVL_STAT 40).addr = 0x00A28004 ∧ (R1 .ETH_PORT_STAT 67).addr = 0x00C43004 ∧ (R1 .PTP_PORT_CFG 67).addr = 0x00614300 := by decide

/-- R119 and R122: a class 3 output of one slot with CENTRE 0 takes leads of 375 to 16 009 word periods; with CENTRE 9 692, of 3 375 to 16 009. -/
theorem test_window_class3 : windowAt 3 1 0 = (8192, 15634) ∧ windowAt 3 1 9692 = (9692, 12634) := by decide

/-- R92: a 2160p59.94 output has 6 256 250 word periods a frame. -/
theorem test_word_periods : Fmt.wordPeriods { code := 3217 } = 6256250 := by decide

/-- R183: with 1080i29.97 the slowest format, L_W is 100 100 µs; with 1080p23.98, 125 125 µs. -/
theorem test_warm_latency : State.warmTicks { State.reset with outPlan := [(0, { fmt := { code := 2113, il := true }, txE := some (.sdi 0) })] } / usTicks = 100100 ∧
    State.warmTicks { State.reset with outPlan := [(0, { fmt := { code := 2065 }, txE := some (.sdi 0) })] } / usTicks = 125125 := by decide +kernel

/-- R387: RATE 0xFF_D60E_94EE is −703 687 442. -/
theorem test_rate_negative : sext 40 0xFFD60E94EE = -703687442 := by decide

/-- The CRC-32 of the nine digits, whose value the IEEE 802.3 polynomial gives (R159, R445). -/
theorem test_crc32_check : crc32 [0x31, 0x32, 0x33, 0x34, 0x35, 0x36, 0x37, 0x38, 0x39] = 0xCBF43926 := by decide +kernel

/-! ## Single commands on small states -/

/-- R476: a request of the lock of T5 waits with no lock held. -/
theorem test_lock_request : (match execStrLockGo .hp0 5 base with
    | .next t => t.locks.map fun l => (l.req, l.target, l.since.isSome)
    | _ => []) = [(1, 5, false)] := by decide +kernel

/-- R471: requester 9 has no path to the AO island, and a write of it is denied. -/
theorem test_denied : (match execWatchdogService .fwB 0 0xC0DE base with
    | .next t => ((t.side .A).wdogAt, t.flag (RB .STR_ERR .fwB 0) F.STR_ERR_DENIED)
    | _ => (some 1, false)) = (none, true) := by decide +kernel

/-- R164: a service with another key than 0xC0DE is none. -/
theorem test_watchdog_key : (match execWatchdogService .fwA 0 0xC0DF base with
    | .next t => (t.side .A).wdogAt
    | _ => some 1) = none := by decide +kernel

/-- R568: the bypass closes at a loss of supply, and the lease stands. -/
theorem test_bypass_closes : (match execBypassSupplyLoss ringed with
    | .next t => (t.ring.bypassed, t.holder)
    | _ => (false, none)) = (true, some .B) := by decide +kernel

/-- R562: while AO_RESET_N is low a request changes nothing. -/
theorem test_low_inert : exec (.strLockGo .hp0 5) low = .next low := rfl

/-- The queue is first in, first out: the command at its front runs, and the rest waits. -/
theorem test_queue_order : (match step { base with pending := [.bypassSupplyLoss, .tbTick] } with
    | .next t => t.pending.length
    | _ => 0) = 1 := by decide +kernel

/-- An empty queue idles. -/
theorem test_queue_empty : step base = .next base := rfl


/-! ## Witnesses: hypotheses of the statements' clauses that hold together -/

/-- Every clause of Obligations.EveryStepKeepsTheStateSound has a case. -/
theorem witness_EveryStepKeepsTheStateSound :
    ∃ s : State, ∃ t : State, s.Sound ∧ step s = .next t :=
  ⟨base, base, base_sound, rfl⟩

/-- Every clause of Obligations.AddressesWithoutARegisterReadZero has a case. -/
theorem witness_AddressesWithoutARegisterReadZero :
    (∃ r : Req, ∃ addr : W32, ∃ v : W32, ∃ be : Fin 16, ∃ ahead : Nat, ∃ s : State, ∃ t, locate r (addr.toNat / 4 * 4) = .hole t ∧ s.granted r t) ∧
    (∃ r : Req, ∃ addr : W32, ∃ v : W32, ∃ be : Fin 16, ∃ ahead : Nat, ∃ s : State, ∃ jtag : Bool, locate r (addr.toNat / 4 * 4) ≠ .flash) ∧
    (∃ r : Req, ∃ addr : W32, ∃ v : W32, ∃ be : Fin 16, ∃ ahead : Nat, ∃ s : State, locate r (addr.toNat / 4 * 4) ≠ .flash) :=
  ⟨⟨.boot, 0x18, 5, 15, 0, base, Target.ao, by decide +kernel, by simp only [State.granted]; decide +kernel⟩,
   ⟨.hp0, 0xFFFFFFFC, 5, 3, 0, base, false, by decide +kernel⟩,
   ⟨.hp0, 0xFFFFFFFC, 5, 3, 0, base, by decide +kernel⟩⟩

/-- Every clause of Obligations.RoutesStartAtTheirFallback has a case. -/
theorem witness_RoutesStartAtTheirFallback :
    (∃ c : Instr, ∃ s : State, isFullReset c = true) ∧
    (∃ x : Structure_, ∃ s : State, s.aoReset = false ∧ s.otpOk = true ∧ s.loaded = false ∧ s.fld (R0 .UMW_STAT) F.UMW_STAT_STATE ≠ 2) :=
  ⟨⟨.aoDip, base, by decide +kernel⟩,
   ⟨{ regs := [(R1 .XPT_OUT_CFG 3, 0x50)] }, { base with loaded := false }, by decide +kernel, by decide +kernel, by decide +kernel, by decide +kernel⟩⟩

/-- Every clause of Obligations.OnlyTheirCommandsMoveRoutesPlansAndTime has a case. -/
theorem witness_OnlyTheirCommandsMoveRoutesPlansAndTime :
    ∃ c : Instr, ∃ s : State, ∃ t : State, exec c s = .next t :=
  ⟨.eventFire, base, base, rfl⟩

/-- Every clause of Obligations.SofsAreJudgedAndMeasured has a case. -/
theorem witness_SofsAreJudgedAndMeasured :
    (∃ n : Fin 1024, ∃ b : Bank, ∃ h : RxWord, ∃ g : RxWord, ∃ f : Fmt, ∃ s : State, ∃ u : State, s.hasCopy n b = true ∧ u = s.reassemble n b ∧ (u.copyRx n b).newSof = some (h, g) ∧ f = { code := if isType 6 g.w then markSpec g.w else (u.inRx.at n).fmt.code, il := bitOf h.w 1, seg := bitOf h.w 0 } ∧ Fmt.carried f (u.inPlan.at n).slots = true) ∧
    (∃ n : Fin 1024, ∃ b : Bank, ∃ h : RxWord, ∃ g : RxWord, ∃ f : Fmt, ∃ s : State, ∃ u : State, s.hasCopy n b = true ∧ u = s.reassemble n b ∧ (u.copyRx n b).newSof = some (h, g) ∧ f = { code := if isType 6 g.w then markSpec g.w else (u.inRx.at n).fmt.code, il := bitOf h.w 1, seg := bitOf h.w 0 } ∧ Fmt.carried f (u.inPlan.at n).slots = false) ∧
    (∃ n : Fin 1024, ∃ b : Bank, ∃ s : State, s.hasCopy n b = true ∧ ((s.reassemble n b).copyRx n b).newSof = none) ∧
    (∃ n : Fin 1024, ∃ b : Bank, ∃ s : State, s.hasCopy n b = false) :=
  ⟨⟨1023, .W, { w := markWord 0 0 (4 * 255) }, { w := markWord 6 0 0x891 }, { code := 0x891 }, arriving .W false (sofWords 0x891 0), (arriving .W false (sofWords 0x891 0)).reassemble 1023 .W, by decide +kernel, by decide +kernel, by decide +kernel, by decide +kernel, by decide +kernel⟩,
   ⟨1023, .E, { w := markWord 0 0 (4 * 255 + 3) }, { w := markWord 6 0 0x3FFF }, { code := 0x3FFF, il := true, seg := true }, arriving .E true (sofWords 0x3FFF 3), (arriving .E true (sofWords 0x3FFF 3)).reassemble 1023 .E, by decide +kernel, by decide +kernel, by decide +kernel, by decide +kernel, by decide +kernel⟩,
   ⟨1020, .E, bonding .E [] [] [] 0, by decide +kernel, by decide +kernel⟩,
   ⟨1021, .W, rig, by decide +kernel⟩⟩

/-- Every clause of Obligations.MergeDecidesByContent has a case. -/
theorem witness_MergeDecidesByContent :
    (∃ n : Fin 1024, ∃ sd : Side, ∃ e : Block, ∃ w : Block, ∃ rest : List RxWord, ∃ cut : CutSt, ∃ s : State, ∃ u : State, s.hasCopy n .E = true ∧ u = s.reassemble n .E ∧ (u.copyRx n .E).present = true ∧ (u.copyRx n .E).newSof = none ∧ cutBlock (u.copyRx n .E).cut ((((u.inRx.at n).stamps.head?).map (·.2)).getD 0) (u.copyRx n .E).rx = some (e, rest, cut) ∧ (takeBlock (u.copyRx n .E).rx).any (fun p => unreceived p.1) = false ∧ s.routing sd = true ∧ (s.merges.at (2 * n + sd.idx)).lost = false ∧ (s.merges.at (2 * n + sd.idx)).e = { absent := false, q := [] } ∧ (s.merges.at (2 * n + sd.idx)).w = { absent := false, q := [w] } ∧ s.inMode n ≠ 3 ∧ s.inMode n ≠ 4 ∧ e.keyLe w = true ∧ w.keyLe e = true) ∧
    (∃ n : Fin 1024, ∃ b : Bank, ∃ s : State, (s.copyRx n b).present = true ∧ lastComplete (s.copyRx n b).rx.length (s.copyRx n b).rx (s.copyRx n b).lastAt + s.gapTicks n ≤ s.tick) ∧
    (∃ n : Fin 1024, ∃ b : Bank, ∃ s : State, s.tick < (s.copyRx n b).lastAt + s.gapTicks n) ∧
    (∃ n : Fin 1024, ∃ b : Bank, ∃ s : State, s.hasCopy n b = true ∧ (s.copyRx n b).present = false) ∧
    (∃ n : Fin 1024, ∃ b : Bank, ∃ s : State, s.hasCopy n b = false) :=
  ⟨⟨1023, .B, { tag := 255, line := 9, idx := 0, mark := 10, sof := false, eof := false, good := false, words := [markWord 3 9 0] }, { tag := 255, line := 9, idx := 0, mark := 10, sof := false, eof := false, good := true, words := [7] }, [{ w := markWord 7 10 0 }], { tag := 255, line := 9, mark := 10, lineGood := false }, merging, merging.reassemble 1023 .E, by decide +kernel, by decide +kernel, by decide +kernel, by decide +kernel, by decide +kernel, by decide +kernel, by decide +kernel, by decide +kernel, by decide +kernel, by decide +kernel, by decide +kernel, by decide +kernel, by decide +kernel, by decide +kernel⟩,
   ⟨1023, .W, fed.atTick (fed.gapTicks 1023), by decide +kernel, by decide +kernel⟩,
   ⟨1023, .W, fed.atTick (fed.gapTicks 1023 - 1), by decide +kernel⟩,
   ⟨1023, .E, rig, by decide +kernel, by decide +kernel⟩,
   ⟨1021, .E, rig, by decide +kernel⟩⟩

/-- Every clause of Obligations.BondedMembersUnderrunAndRejoin has a case. -/
theorem witness_BondedMembersUnderrunAndRejoin :
    (∃ n : Fin 1024, ∃ b : Bank, ∃ m : Fin 16, ∃ s : State, s.hasCopy n b = true ∧ 1 < (s.inPlan.at n).slots ∧ m < (s.inPlan.at n).slots ∧ (s.copyRx n b).waitsFor (s.inPlan.at n).slots m = true) ∧
    (∃ n : Fin 1024, ∃ b : Bank, ∃ m : Fin 16, ∃ s : State, (s.hasCopy n b = false ∨ (s.inPlan.at n).slots ≤ m ∨ (s.copyRx n b).waitsFor (s.inPlan.at n).slots m = false)) ∧
    (∃ n : Fin 1024, ∃ b : Bank, ∃ g : Nat, ∃ c : CopyRx, ∃ s : State, c = s.copyRx n b ∧ c.live g ≠ [] ∧ ((c.live g).all fun k => (c.buf k).head?.any fun x => isMark x.w) = false ∧ c.under.contains (c.turn % max 1 g) = true ∧ 0 < c.left) ∧
    (∃ n : Fin 1024, ∃ b : Bank, ∃ g : Nat, ∃ c : CopyRx, ∃ s : State, ∃ sd : Side, c = s.copyRx n b ∧ c.live g ≠ [] ∧ ((c.live g).all fun k => (c.buf k).head?.any fun x => isMark x.w) = false ∧ c.under.contains (c.turn % max 1 g) = true ∧ 0 < c.left ∧ s.routing sd = true) ∧
    (∃ n : Fin 1024, ∃ b : Bank, ∃ m : Fin 16, ∃ w : W32, ∃ s : State, ∃ u : State, s.hasCopy n b = true ∧ 1 < (s.inPlan.at n).slots ∧ u = s.reassemble n b ∧ (u.copyRx n b).mark (s.inPlan.at n).slots = some w ∧ (u.copyRx n b).under.contains m.val = true ∧ ((u.copyRx n b).buf m).any (fun x => sameMark x.w w) = true) ∧
    (∃ n : Fin 1024, ∃ b : Bank, ∃ m : Fin 16, ∃ s : State, ∃ u : State, s.hasCopy n b = true ∧ 1 < (s.inPlan.at n).slots ∧ u = s.reassemble n b ∧ ((u.copyRx n b).mark (s.inPlan.at n).slots = none ∨ (u.copyRx n b).under.contains m.val = false)) :=
  ⟨⟨1020, .W, 1, bonding .W [] (List.replicate 1024 { w := 0 }) [] 0, by decide +kernel, by decide +kernel, by decide +kernel, by decide +kernel⟩,
   ⟨1020, .W, 15, rig, by decide +kernel⟩,
   ⟨1020, .W, 2, (bonding .W [1] [{ w := 5 }] [] 3).copyRx 1020 .W, bonding .W [1] [{ w := 5 }] [] 3, by decide +kernel, by decide +kernel, by decide +kernel, by decide +kernel, by decide +kernel⟩,
   ⟨1020, .W, 2, (bonding .W [1] [{ w := 5 }] [] 3).copyRx 1020 .W, bonding .W [1] [{ w := 5 }] [] 3, .B, by decide +kernel, by decide +kernel, by decide +kernel, by decide +kernel, by decide +kernel, by decide +kernel⟩,
   ⟨1020, .E, 1, markWord 2 5 0, bonding .E [1] [{ w := markWord 2 5 0 }] [{ w := 3 }, { w := markWord 2 5 1 }, { w := 4 }] 0, (bonding .E [1] [{ w := markWord 2 5 0 }] [{ w := 3 }, { w := markWord 2 5 1 }, { w := 4 }] 0).reassemble 1020 .E, by decide +kernel, by decide +kernel, by decide +kernel, by decide +kernel, by decide +kernel, by decide +kernel⟩,
   ⟨1020, .E, 15, bonding .E [] [] [] 0, (bonding .E [] [] [] 0).reassemble 1020 .E, by decide +kernel, by decide +kernel, by decide +kernel, by decide +kernel⟩⟩

/-- Every clause of Obligations.CommitsAreReceivedOnePerRequester has a case. -/
theorem witness_CommitsAreReceivedOnePerRequester :
    (∃ r : Req, ∃ d : Fin 2048, ∃ timed : Bool, ∃ tb : Fin 4, ∃ seq : Byte, ∃ s : State, s.granted r .twin ∧ s.flag (takeRes r) F.XPT_TAKE_RES_BUSY = false) ∧
    (∃ r : Req, ∃ n : Fin 256, ∃ timed : Bool, ∃ tb : Fin 4, ∃ seq : Byte, ∃ s : State, s.granted r .twin ∧ s.flag (takeRes r) F.XPT_TAKE_RES_BUSY = false) ∧
    (∃ r : Req, ∃ seq : Byte, ∃ c : Instr, ∃ op : CommitOp, ∃ s : State, s.granted r .twin ∧ s.flag (takeRes r) F.XPT_TAKE_RES_BUSY = false ∧ ((∃ d : Fin 2048, c = .takeCancel r d seq ∧ op = .cancelTake d) ∨ (∃ n : Fin 256, c = .salvoCancel r n seq ∧ op = .cancelSalvo n))) ∧
    (∃ r : Req, ∃ seq : Byte, ∃ c : Instr, ∃ s : State, s.granted r .twin ∧ s.flag (takeRes r) F.XPT_TAKE_RES_BUSY = true ∧ ((∃ (d : Fin 2048) (timed : Bool) (tb : Fin 4), c = .take r d timed tb seq) ∨ (∃ (n : Fin 256) (timed : Bool) (tb : Fin 4), c = .salvoCommit r n timed tb seq) ∨ (∃ d : Fin 2048, c = .takeCancel r d seq) ∨ (∃ n : Fin 256, c = .salvoCancel r n seq))) :=
  ⟨⟨.hp1, 2047, true, 3, 255, base, by simp only [State.granted]; decide +kernel, by decide +kernel⟩,
   ⟨.boot, 255, false, 0, 0, base, by simp only [State.granted]; decide +kernel, by decide +kernel⟩,
   ⟨.net3, 255, .takeCancel .net3 2047 255, .cancelTake 2047, base, by simp only [State.granted]; decide +kernel, by decide +kernel, by decide +kernel⟩,
   ⟨.hp0, 1, .salvoCancel .hp0 255 1, base.fields [(takeRes .hp0, F.XPT_TAKE_RES_BUSY, 1)], by simp only [State.granted]; decide +kernel, by decide +kernel, by decide +kernel⟩⟩

/-- Every clause of Obligations.CommitTickJudgesATake has a case. -/
theorem witness_CommitTickJudgesATake :
    (∃ c : Commit, ∃ d : Nat, ∃ x : Nat, ∃ v : Bool, ∃ s : State, s.commits = [c] ∧ c.due ≤ s.tick ∧ c.op = .take d x v ∧ c.seq < 256 ∧ c.timed = false) ∧
    (∃ s : State, (∀ c ∈ s.commits, s.tick < c.due)) :=
  ⟨⟨{ req := .boot, op := .take 1023 1023 true, timed := false, timeBase := 0, time := 0, seq := 255, due := 7 }, 1023, 1023, true, { fed.atTick 7 with commits := [{ req := .boot, op := .take 1023 1023 true, timed := false, timeBase := 0, time := 0, seq := 255, due := 7 }] }, by decide +kernel, by decide +kernel, by decide +kernel, by decide +kernel, by decide +kernel⟩,
   ⟨{ fed.atTick 6 with commits := [{ req := .boot, op := .take 1023 1023 true, timed := false, timeBase := 0, time := 0, seq := 255, due := 7 }] }, by decide +kernel⟩⟩

/-- Every clause of Obligations.CommitTickJudgesCancelsAndSalvos has a case. -/
theorem witness_CommitTickJudgesCancelsAndSalvos :
    (∃ c : Commit, ∃ d : Nat, ∃ s : State, s.commits = [c] ∧ c.due ≤ s.tick ∧ c.op = .cancelTake d ∧ s.destAllocated d = true ∧ s.mayRoute c.req d = true) ∧
    (∃ c : Commit, ∃ n : Fin 256, ∃ es : List (Nat × Nat), ∃ s : State, s.commits = [c] ∧ c.due ≤ s.tick ∧ c.op = .salvo n es) ∧
    (∃ c : Commit, ∃ n : Fin 256, ∃ d : Nat, ∃ x : Nat, ∃ s : State, s.commits = [c] ∧ c.due ≤ s.tick ∧ c.op = .salvo n [(d, x)] ∧ c.timed = false ∧ s.fld (salvoStat n) F.XPT_SALVO_STAT_OWNER = c.req.num ∧ s.fld (salvoStat n) F.XPT_SALVO_STAT_STATE = 0 ∧ s.destAllocated d = true ∧ s.srcAllocated x = true ∧ s.mayRoute c.req d = true ∧ s.destWithdrawn d = false ∧ s.srcWithdrawn x = false ∧ (1024 ≤ d ∨ s.srcMatches x d = true) ∧ (s.planTake x d).1.refused = false ∧ s.salvosPending.length < 256) :=
  ⟨⟨{ req := .boot, op := .cancelTake 1023, timed := false, timeBase := 0, time := 0, seq := 255, due := 7 }, 1023, { fed.atTick 7 with commits := [{ req := .boot, op := .cancelTake 1023, timed := false, timeBase := 0, time := 0, seq := 255, due := 7 }], takes := [{ owner := .single 10 255, dest := 1023, src := 1023, stamp := some 9 }] }, by decide +kernel, by decide +kernel, by decide +kernel, by decide +kernel, by decide +kernel⟩,
   ⟨{ req := .boot, op := .salvo 255 [(1022, 1023), (1023, 1057)], timed := false, timeBase := 0, time := 0, seq := 255, due := 7 }, 255, [(1022, 1023), (1023, 1057)], { fed.atTick 7 with commits := [{ req := .boot, op := .salvo 255 [(1022, 1023), (1023, 1057)], timed := false, timeBase := 0, time := 0, seq := 255, due := 7 }] }, by decide +kernel, by decide +kernel, by decide +kernel⟩,
   ⟨{ req := .boot, op := .salvo 255 [(1343, 1119)], timed := false, timeBase := 0, time := 0, seq := 255, due := 7 }, 255, 1343, 1119, { (fed.atTick 7).fields [(salvoStat 255, F.XPT_SALVO_STAT_OWNER, 10)] with commits := [{ req := .boot, op := .salvo 255 [(1343, 1119)], timed := false, timeBase := 0, time := 0, seq := 255, due := 7 }] }, by decide +kernel, by decide +kernel, by decide +kernel, by decide +kernel, by decide +kernel, by decide +kernel, by decide +kernel, by decide +kernel, by decide +kernel, by decide +kernel, by decide +kernel, by decide +kernel, by decide +kernel, by decide +kernel⟩⟩

/-- Every clause of Obligations.TakesExecuteAtTheirSwitchPoint has a case. -/
theorem witness_TakesExecuteAtTheirSwitchPoint :
    (∃ d : Fin 1344, ∃ p : Pending, ∃ f : Nat, ∃ s : State, p ∈ s.takes ∧ p.dest = d.val ∧ p.stamp.isSome = true ∧ p.frame = some f ∧ (∀ q ∈ s.takes, q.dest = d.val → q ≠ p → q.stamp.isSome = true → ∀ g, q.frame = some g → f < g) ∧ s.destSwitch d p.cad f ≤ s.cadTime) ∧
    (∃ d : Fin 1344, ∃ s : State, (∀ p ∈ s.takes, p.dest = d.val → p.stamp.isSome = true → ∀ f, p.frame = some f → s.cadTime < s.destSwitch d p.cad f)) ∧
    (∃ p : Pending, ∃ s : State, s.takes = [p] ∧ p.stamp = none ∧ p.src < 1024 ∧ s.stampDue p.timeBase p.time = true ∧ p.dest < 1344) ∧
    (∃ p : Pending, ∃ s : State, s.takes = [p] ∧ p.stamp = none ∧ p.src < 1024 ∧ s.stampDue p.timeBase p.time = false) :=
  ⟨⟨1343, { owner := .single 10 255, dest := 1343, src := 1023, stamp := some 0 }, 0, { fed.atTick 0 with takes := [{ owner := .single 10 255, dest := 1343, src := 1023, stamp := some 0 }, { owner := .single 10 254, dest := 1343, src := 0, stamp := some 1 }] }, by decide +kernel, by decide +kernel, by decide +kernel, by decide +kernel, by decide +kernel, by decide +kernel⟩,
   ⟨1343, { fed.atTick 0 with takes := [{ owner := .single 10 255, dest := 1343, src := 1023, stamp := some 1 }] }, by decide +kernel⟩,
   ⟨{ owner := .single 10 255, dest := 1343, src := 1023, stamp := none, timeBase := 3, time := 0 }, { fed.atTick 0 with takes := [{ owner := .single 10 255, dest := 1343, src := 1023, stamp := none, timeBase := 3, time := 0 }] }, by decide +kernel, by decide +kernel, by decide +kernel, by decide +kernel, by decide +kernel⟩,
   ⟨{ owner := .single 10 255, dest := 1343, src := 1023, stamp := none, timeBase := 3, time := 100000001 }, { fed.atTick 0 with takes := [{ owner := .single 10 255, dest := 1343, src := 1023, stamp := none, timeBase := 3, time := 100000001 }] }, by decide +kernel, by decide +kernel, by decide +kernel, by decide +kernel⟩⟩

/-- Every clause of Obligations.SalvosAreEditedByTheirOwner has a case. -/
theorem witness_SalvosAreEditedByTheirOwner :
    (∃ r : Req, ∃ s : State, s.granted r .twin ∧ s.salvoBusy (s.selected r) = false ∧ (s.fld (salvoStat (s.selected r)) F.XPT_SALVO_STAT_OWNER = r.num ∨ s.fld (salvoStat (s.selected r)) F.XPT_SALVO_STAT_OWNER = 0)) ∧
    (∃ r : Req, ∃ s : State, s.granted r .twin ∧ s.salvoBusy (s.selected r) = false ∧ s.fld (salvoStat (s.selected r)) F.XPT_SALVO_STAT_OWNER = r.num) ∧
    (∃ r : Req, ∃ s : State, ∃ dest : Fin 2048, ∃ src : Fin 2048, s.granted r .twin ∧ s.salvoBusy (s.selected r) = false ∧ s.fld (salvoStat (s.selected r)) F.XPT_SALVO_STAT_OWNER = r.num ∧ (s.salvos.at (s.selected r)).length < 1024) ∧
    (∃ r : Req, ∃ s : State, ∃ dest : Fin 2048, ∃ src : Fin 2048, s.granted r .twin ∧ s.salvoBusy (s.selected r) = false ∧ s.fld (salvoStat (s.selected r)) F.XPT_SALVO_STAT_OWNER = r.num ∧ 1024 ≤ (s.salvos.at (s.selected r)).length) ∧
    (∃ r : Req, ∃ c : Instr, ∃ s : State, s.granted r .twin ∧ ((c = .salvoRelease r ∨ ∃ dest src : Fin 2048, c = .salvoAppend r dest src) ∨ c = .salvoClear r ∧ s.fld (salvoStat (s.selected r)) F.XPT_SALVO_STAT_OWNER ≠ 0) ∧ s.fld (salvoStat (s.selected r)) F.XPT_SALVO_STAT_OWNER ≠ r.num) ∧
    (∃ r : Req, ∃ c : Instr, ∃ s : State, s.granted r .twin ∧ ((c = .salvoRelease r ∨ ∃ dest src : Fin 2048, c = .salvoAppend r dest src) ∨ c = .salvoClear r ∧ s.fld (salvoStat (s.selected r)) F.XPT_SALVO_STAT_OWNER ≠ 0) ∧ s.fld (salvoStat (s.selected r)) F.XPT_SALVO_STAT_OWNER = r.num ∧ s.salvoBusy (s.selected r) = true) :=
  ⟨⟨.hp0, base.fields [(RB .XPT_SALVO_SEL .hp0 0, ⟨0, 8⟩, 255)], by simp only [State.granted]; decide +kernel, by decide +kernel, by decide +kernel⟩,
   ⟨.hp0, base.fields [(RB .XPT_SALVO_SEL .hp0 0, ⟨0, 8⟩, 255), (salvoStat 255, F.XPT_SALVO_STAT_OWNER, 1)], by simp only [State.granted]; decide +kernel, by decide +kernel, by decide +kernel⟩,
   ⟨.hp0, { base.fields [(RB .XPT_SALVO_SEL .hp0 0, ⟨0, 8⟩, 255), (salvoStat 255, F.XPT_SALVO_STAT_OWNER, 1)] with salvos := [(255, List.replicate 1023 (0, 0))] }, 2047, 2047, by simp only [State.granted]; decide +kernel, by decide +kernel, by decide +kernel, by decide +kernel⟩,
   ⟨.hp0, { base.fields [(RB .XPT_SALVO_SEL .hp0 0, ⟨0, 8⟩, 255), (salvoStat 255, F.XPT_SALVO_STAT_OWNER, 1)] with salvos := [(255, List.replicate 1024 (0, 0))] }, 0, 0, by simp only [State.granted]; decide +kernel, by decide +kernel, by decide +kernel, by decide +kernel⟩,
   ⟨.hp0, .salvoClear .hp0, base.fields [(salvoStat 0, F.XPT_SALVO_STAT_OWNER, 2)], by simp only [State.granted]; decide +kernel, Or.inr ⟨rfl, by decide +kernel⟩, by decide +kernel⟩,
   ⟨.hp0, .salvoRelease .hp0, base.fields [(salvoStat 0, F.XPT_SALVO_STAT_OWNER, 1), (salvoStat 0, F.XPT_SALVO_STAT_STATE, 2)], by simp only [State.granted]; decide +kernel, Or.inl (Or.inl rfl), by decide +kernel, by decide +kernel⟩⟩

/-- Every clause of Obligations.OutputFramesOffsetsAndCaptures has a case. -/
theorem witness_OutputFramesOffsetsAndCaptures :
    (∃ d : Fin 1024, ∃ f : Nat, ∃ s : State, s.outFrameAt d (s.outs.at d) s.cadTime = f) ∧
    (∃ d : Fin 1024, ∃ v : Int, ∃ at_ : Nat, ∃ rest : List (Int × Nat), ∃ s : State, (s.outs.at d).offsets = (v, at_) :: rest ∧ s.cadTime < s.jumpPoint d { (s.outs.at d) with offset := v, retimed := none, offsets := rest } at_) ∧
    (∃ d : Fin 1024, ∃ v : Int, ∃ at_ : Nat, ∃ rest : List (Int × Nat), ∃ s : State, (s.outs.at d).offsets = (v, at_) :: rest ∧ s.jumpPoint d { (s.outs.at d) with offset := v, retimed := none, offsets := rest } at_ ≤ s.cadTime) ∧
    (∃ p : Fin 64, ∃ h : Fed, ∃ e : Fed, ∃ ws : List W32, ∃ rest : List Fed, ∃ sd : Side, ∃ s : State, s.routing sd = true ∧ frameOut ((s.feeds.at (2 * (1280 + p) + sd.idx)).length + 1) (s.feeds.at (2 * (1280 + p) + sd.idx)) = some (h, e, ws, rest)) ∧
    (∃ r : Req, ∃ p : Fin 64, ∃ v : W32, ∃ s : State, s.granted r .twin ∧ s.holdsDest r (1280 + p) = true ∧ bitOf (s.twin .XPT_CAP_CFG p) 12 = false ∧ bitOf v 12 = true) :=
  ⟨⟨1023, 0, fed.atTick 0, by decide +kernel⟩,
   ⟨1023, -5, 4000000, [], { fed.atTick 0 with outs := [(1023, { offsets := [(-5, 4000000)] })] }, by decide +kernel, by decide +kernel⟩,
   ⟨1023, -5, 0, [], { fed.atTick 20000000 with outs := [(1023, { offsets := [(-5, 0)] })] }, by decide +kernel, by decide +kernel⟩,
   ⟨63, { src := 1023, blk := { tag := 255, line := 1, idx := 0, mark := 0, sof := true, eof := false, good := true, words := [markWord 0 0 1020, markWord 6 0 0x891], sofAt := 4, stamp := 0 } }, { src := 1023, blk := { tag := 255, line := 1125, idx := 1, mark := 2, sof := false, eof := true, good := true, words := [markWord 2 0 0], sofAt := 4, stamp := 3 } }, [markWord 0 0 1020, markWord 6 0 0x891, markWord 2 0 0], [], .B, { fed.twinsAt [(R1 .XPT_CAP_CFG 63, 0x1000)] with routes := [(1343, { src := 1023 })], feeds := [(2687, [{ src := 1023, blk := { tag := 255, line := 1, idx := 0, mark := 0, sof := true, eof := false, good := true, words := [markWord 0 0 1020, markWord 6 0 0x891], sofAt := 4, stamp := 0 } }, { src := 1023, blk := { tag := 255, line := 1125, idx := 1, mark := 2, sof := false, eof := true, good := true, words := [markWord 2 0 0], sofAt := 4, stamp := 3 } }])] }, by decide +kernel, by decide +kernel⟩,
   ⟨.boot, 63, 0x1000, base, by simp only [State.granted]; decide +kernel, by decide +kernel, by decide +kernel, by decide +kernel⟩⟩

/-- Every clause of Obligations.SeamBlocksAreWrittenOrCounted has a case. -/
theorem witness_SeamBlocksAreWrittenOrCounted :
    (∃ d : Fin 1024, ∃ sd : Side, ∃ x : Fed, ∃ rest : List Fed, ∃ f : Int, ∃ due : Int, ∃ ts : Int, ∃ s : State, s.routing sd = true ∧ s.feeds.at (2 * d + sd.idx) = x :: rest ∧ f = (s.leadOf d (s.outs.at d) x.blk.sofAt).2 ∧ due = s.outStart d (s.outs.at d) f + rasterTime (s.outPlan.at d).fmt x.blk.line x.blk.idx x.blk.video ∧ ts = wpSixteenths (storeTime (rateClass (s.outPlan.at d).fmt (s.outPlan.at d).slots) (s.outPlan.at d).slots) * sixteenth ∧ sameSource (s.ownerAt d f x.blk.line) (x.src, x.bench) = false) ∧
    (∃ d : Fin 1024, ∃ sd : Side, ∃ x : Fed, ∃ rest : List Fed, ∃ f : Int, ∃ due : Int, ∃ ts : Int, ∃ s : State, s.routing sd = true ∧ s.feeds.at (2 * d + sd.idx) = x :: rest ∧ f = (s.leadOf d (s.outs.at d) x.blk.sofAt).2 ∧ due = s.outStart d (s.outs.at d) f + rasterTime (s.outPlan.at d).fmt x.blk.line x.blk.idx x.blk.video ∧ ts = wpSixteenths (storeTime (rateClass (s.outPlan.at d).fmt (s.outPlan.at d).slots) (s.outPlan.at d).slots) * sixteenth ∧ sameSource (s.ownerAt d f x.blk.line) (x.src, x.bench) = true ∧ due - 1000 * nsU < (x.blk.stamp * tickU : Nat)) ∧
    (∃ d : Fin 1024, ∃ sd : Side, ∃ x : Fed, ∃ rest : List Fed, ∃ f : Int, ∃ due : Int, ∃ ts : Int, ∃ s : State, s.routing sd = true ∧ s.feeds.at (2 * d + sd.idx) = x :: rest ∧ f = (s.leadOf d (s.outs.at d) x.blk.sofAt).2 ∧ due = s.outStart d (s.outs.at d) f + rasterTime (s.outPlan.at d).fmt x.blk.line x.blk.idx x.blk.video ∧ ts = wpSixteenths (storeTime (rateClass (s.outPlan.at d).fmt (s.outPlan.at d).slots) (s.outPlan.at d).slots) * sixteenth ∧ sameSource (s.ownerAt d f x.blk.line) (x.src, x.bench) = true ∧ (x.blk.stamp * tickU : Nat) ≤ due - 1000 * nsU ∧ (x.blk.stamp * tickU : Nat) < due - (ts - 1000 * nsU)) ∧
    (∃ d : Fin 1024, ∃ sd : Side, ∃ x : Fed, ∃ rest : List Fed, ∃ f : Int, ∃ due : Int, ∃ ts : Int, ∃ s : State, s.routing sd = true ∧ s.feeds.at (2 * d + sd.idx) = x :: rest ∧ f = (s.leadOf d (s.outs.at d) x.blk.sofAt).2 ∧ due = s.outStart d (s.outs.at d) f + rasterTime (s.outPlan.at d).fmt x.blk.line x.blk.idx x.blk.video ∧ ts = wpSixteenths (storeTime (rateClass (s.outPlan.at d).fmt (s.outPlan.at d).slots) (s.outPlan.at d).slots) * sixteenth ∧ sameSource (s.ownerAt d f x.blk.line) (x.src, x.bench) = true ∧ (x.blk.stamp * tickU : Nat) ≤ due - 1000 * nsU ∧ due - (ts - 1000 * nsU) ≤ (x.blk.stamp * tickU : Nat)) :=
  ⟨⟨1023, .B, { src := 1119, blk := { tag := 3, line := 8, idx := 0, mark := 9, sof := false, eof := false, good := true, words := [markWord 1 8 0, 5], video := 3, stamp := 0, sofAt := 0 } }, [], (fed.leadOf 1023 (fed.outs.at 1023) 0).2, fed.outStart 1023 (fed.outs.at 1023) (fed.leadOf 1023 (fed.outs.at 1023) 0).2 + rasterTime (fed.outPlan.at 1023).fmt 8 0 3, wpSixteenths (storeTime (rateClass (fed.outPlan.at 1023).fmt (fed.outPlan.at 1023).slots) (fed.outPlan.at 1023).slots) * sixteenth, { fed with feeds := [(2047, [{ src := 1119, blk := { tag := 3, line := 8, idx := 0, mark := 9, sof := false, eof := false, good := true, words := [markWord 1 8 0, 5], video := 3, stamp := 0, sofAt := 0 } }])] }, by decide +kernel, by decide +kernel, by decide +kernel, by decide +kernel, by decide +kernel, by decide +kernel⟩,
   ⟨1023, .B, { src := 1056, blk := { tag := 3, line := 8, idx := 0, mark := 9, sof := false, eof := false, good := true, words := [markWord 1 8 0, 5], video := 3, stamp := ((fed.outStart 1023 (fed.outs.at 1023) (fed.leadOf 1023 (fed.outs.at 1023) 0).2 + rasterTime (fed.outPlan.at 1023).fmt 8 0 3 - 1000 * nsU) / tickU).toNat + 1, sofAt := 0 } }, [], (fed.leadOf 1023 (fed.outs.at 1023) 0).2, fed.outStart 1023 (fed.outs.at 1023) (fed.leadOf 1023 (fed.outs.at 1023) 0).2 + rasterTime (fed.outPlan.at 1023).fmt 8 0 3, wpSixteenths (storeTime (rateClass (fed.outPlan.at 1023).fmt (fed.outPlan.at 1023).slots) (fed.outPlan.at 1023).slots) * sixteenth, { fed with feeds := [(2047, [{ src := 1056, blk := { tag := 3, line := 8, idx := 0, mark := 9, sof := false, eof := false, good := true, words := [markWord 1 8 0, 5], video := 3, stamp := ((fed.outStart 1023 (fed.outs.at 1023) (fed.leadOf 1023 (fed.outs.at 1023) 0).2 + rasterTime (fed.outPlan.at 1023).fmt 8 0 3 - 1000 * nsU) / tickU).toNat + 1, sofAt := 0 } }])] }, by decide +kernel, by decide +kernel, by decide +kernel, by decide +kernel, by decide +kernel, by decide +kernel, by decide +kernel⟩,
   ⟨1023, .B, { src := 1056, blk := { tag := 3, line := 1000, idx := 0, mark := 9, sof := false, eof := false, good := true, words := [markWord 1 1000 0, 5], video := 3, stamp := 0, sofAt := 0 } }, [], (fed.leadOf 1023 (fed.outs.at 1023) 0).2, fed.outStart 1023 (fed.outs.at 1023) (fed.leadOf 1023 (fed.outs.at 1023) 0).2 + rasterTime (fed.outPlan.at 1023).fmt 1000 0 3, wpSixteenths (storeTime (rateClass (fed.outPlan.at 1023).fmt (fed.outPlan.at 1023).slots) (fed.outPlan.at 1023).slots) * sixteenth, { fed with feeds := [(2047, [{ src := 1056, blk := { tag := 3, line := 1000, idx := 0, mark := 9, sof := false, eof := false, good := true, words := [markWord 1 1000 0, 5], video := 3, stamp := 0, sofAt := 0 } }])] }, by decide +kernel, by decide +kernel, by decide +kernel, by decide +kernel, by decide +kernel, by decide +kernel, by decide +kernel, by decide +kernel⟩,
   ⟨1023, .B, { src := 1056, blk := { tag := 3, line := 8, idx := 0, mark := 9, sof := false, eof := false, good := true, words := [markWord 1 8 0, 5], video := 3, stamp := ((fed.outStart 1023 (fed.outs.at 1023) (fed.leadOf 1023 (fed.outs.at 1023) 0).2 + rasterTime (fed.outPlan.at 1023).fmt 8 0 3 - 1000 * nsU) / tickU).toNat, sofAt := 0 } }, [], (fed.leadOf 1023 (fed.outs.at 1023) 0).2, fed.outStart 1023 (fed.outs.at 1023) (fed.leadOf 1023 (fed.outs.at 1023) 0).2 + rasterTime (fed.outPlan.at 1023).fmt 8 0 3, wpSixteenths (storeTime (rateClass (fed.outPlan.at 1023).fmt (fed.outPlan.at 1023).slots) (fed.outPlan.at 1023).slots) * sixteenth, { fed with feeds := [(2047, [{ src := 1056, blk := { tag := 3, line := 8, idx := 0, mark := 9, sof := false, eof := false, good := true, words := [markWord 1 8 0, 5], video := 3, stamp := ((fed.outStart 1023 (fed.outs.at 1023) (fed.leadOf 1023 (fed.outs.at 1023) 0).2 + rasterTime (fed.outPlan.at 1023).fmt 8 0 3 - 1000 * nsU) / tickU).toNat, sofAt := 0 } }])] }, by decide +kernel, by decide +kernel, by decide +kernel, by decide +kernel, by decide +kernel, by decide +kernel, by decide +kernel, by decide +kernel⟩⟩

/-- Every clause of Obligations.BenchesChooseShowRepeatAndDrop has a case. -/
theorem witness_BenchesChooseShowRepeatAndDrop :
    (∃ b : Fin 1024, ∃ s : State, (s.benches.at b).st ≠ .free ∧ (s.benches.at b).decided = none ∧ s.cadTime < s.benchStart (s.benches.at b) (s.benches.at b).k - msU) ∧
    (∃ b : Fin 1024, ∃ s : State, (s.benches.at b).st ≠ .free ∧ (s.benches.at b).decided = none ∧ s.benchStart (s.benches.at b) (s.benches.at b).k - msU ≤ s.cadTime) ∧
    (∃ b : Fin 1024, ∃ c : Option Nat, ∃ s : State, (s.benches.at b).st ≠ .free ∧ (s.benches.at b).decided = some c ∧ s.benchStart (s.benches.at b) (s.benches.at b).k ≤ s.cadTime ∧ (s.engStart 0 b * tickU : Nat) ≤ s.benchStart (s.benches.at b) (s.benches.at b).k) ∧
    (∃ b : Fin 1024, ∃ k : Block, ∃ i : Nat, ∃ s : State, s.benchSof b = some k ∧ (s.benches.at b).st ≠ .free ∧ s.inFmt (s.benches.at b).input = s.cadFmt (s.benches.at b).cad ∧ bufferFor (s.benches.at b) = some i) ∧
    (∃ b : Fin 1024, ∃ k : Block, ∃ s : State, s.benchSof b = some k ∧ (s.benches.at b).st ≠ .free ∧ s.inFmt (s.benches.at b).input ≠ s.cadFmt (s.benches.at b).cad) ∧
    (∃ r : Req, ∃ b : Fin 1024, ∃ v : W32, ∃ s : State, s.granted r .twin ∧ s.holdsBench r b = true ∧ (s.benches.at b).st = .free ∧ bitOf v 15 = true ∧ s.pinInput (v.toNat % 1024) = true ∧ s.unitsUsed + s.benchUnits (v.toNat % 1024) (s.cadOf (v.toNat / 1024 % 32)) ≤ s.benchPlan.units ∧ s.pagesUsed + s.benchPages (s.cadOf (v.toNat / 1024 % 32)) ≤ s.benchPlan.pages ∧ s.contextsUsed < s.benchPlan.contexts) :=
  ⟨⟨1023, { fed.atTick 0 with benches := [(1023, { st := .running, k := 1, input := 1023 })] }, by decide +kernel, by decide +kernel, by decide +kernel⟩,
   ⟨1023, { fed.atTick 100000000 with benches := [(1023, { st := .priming, k := 1, input := 1023, bufs := [{ stamp := some 5, whole := true }, {}, {}] })] }, by decide +kernel, by decide +kernel, by decide +kernel⟩,
   ⟨1023, some 2, { fed.atTick 100000000 with benches := [(1023, { st := .running, k := 1, input := 1023, decided := some (some 2), bufs := [{ stamp := some 5, whole := true }, {}, { stamp := some 7, whole := true }] })] }, by decide +kernel, by decide +kernel, by decide +kernel, by decide +kernel⟩,
   ⟨1023, { tag := 3, line := 1, idx := 0, mark := 0, sof := true, eof := false, good := true, words := [markWord 0 0 12], sofAt := -1 }, 2, { fed.atTick 100000000 with benches := [(1023, { st := .running, k := 1, input := 1023, bufs := [{ stamp := some 5, whole := true }, { stamp := some 6, whole := true }, {}] })], benchIn := [(2047, [{ tag := 3, line := 1, idx := 0, mark := 0, sof := true, eof := false, good := true, words := [markWord 0 0 12], sofAt := -1 }])] }, by decide +kernel, by decide +kernel, by decide +kernel, by decide +kernel⟩,
   ⟨1023, { tag := 3, line := 1, idx := 0, mark := 0, sof := true, eof := false, good := true, words := [markWord 0 0 12], sofAt := -1 }, { fed.atTick 100000000 with benches := [(1023, { st := .running, k := 1, input := 1022 })], benchIn := [(2047, [{ tag := 3, line := 1, idx := 0, mark := 0, sof := true, eof := false, good := true, words := [markWord 0 0 12], sofAt := -1 }])] }, by decide +kernel, by decide +kernel, by decide +kernel⟩,
   ⟨.boot, 1023, 0x83FF, { fed with rights := [(1, { benches := [(0, 1023)] })] }, by simp only [State.granted]; decide +kernel, by decide +kernel, by decide +kernel, by decide +kernel, by decide +kernel, by decide +kernel, by decide +kernel, by decide +kernel⟩⟩

/-- Every clause of Obligations.HeartbeatsGrantRenewAndLapse has a case. -/
theorem witness_HeartbeatsGrantRenewAndLapse :
    (∃ sd : Side, ∃ n : Nat, ∃ s : State, s.live sd = true ∧ (s.side sd).trained = true ∧ s.failing sd = false ∧ s.holder = none ∧ (s.side sd).nextBeat = none) ∧
    (∃ sd : Side, ∃ n : Nat, ∃ s : State, s.live sd = true ∧ (s.side sd).trained = true ∧ s.failing sd = false ∧ s.holder = some sd ∧ (s.side sd).nextBeat = some n ∧ n ≤ s.tick ∧ (∀ f, (s.side sd).failedAt = some f → f + s.leaseTicks / 8 ≤ n)) ∧
    (∃ sd : Side, ∃ n : Nat, ∃ s : State, ∃ a : Bool, ∃ b : Bool, ∃ c : Bool, s.live sd = true ∧ (s.side sd).trained = true ∧ (a && b && c && !s.failing sd) = false ∧ (s.side sd).nextBeat = some n ∧ n ≤ s.tick) ∧
    (∃ sd : Side, ∃ a : Bool, ∃ b : Bool, ∃ c : Bool, ∃ n : Nat, ∃ s : State, ((s.side sd).inReset = true ∨ (s.side sd).nextBeat = some n ∧ s.tick < n)) ∧
    (∃ x : Side, ∃ s : State, ∃ p : State, p = s.cycle [] ∧ p.holder = some x ∧ p.expired = true ∧ p.ready x.other = true) ∧
    (∃ x : Side, ∃ s : State, ∃ p : State, p = s.cycle [] ∧ p.holder = some x ∧ p.expired = true ∧ p.ready x.other = false) ∧
    (∃ x : Side, ∃ s : State, ∃ p : State, p = s.cycle [] ∧ p.holder = some x ∧ p.expired = false) :=
  ⟨⟨.B, 0, { base.atTick base.wdogTicks with sideB := { base.sideB with wdogAt := some 0 } }, by decide +kernel, by decide +kernel, by decide +kernel, by decide +kernel, by decide +kernel⟩,
   ⟨.B, held.leaseTicks / 8, { held.atTick (held.leaseTicks / 8) with sideB := { held.sideB with nextBeat := some (held.leaseTicks / 8), wdogAt := some 0, failedAt := some 0 } }, by decide +kernel, by decide +kernel, by decide +kernel, by decide +kernel, by decide +kernel, by decide +kernel, by decide +kernel⟩,
   ⟨.B, 5, { held.atTick 5 with sideB := { held.sideB with nextBeat := some 5, wdogAt := some 0 } }, true, true, false, by decide +kernel, by decide +kernel, by decide +kernel, by decide +kernel, by decide +kernel⟩,
   ⟨.B, true, true, true, 6, { held.atTick 5 with sideB := { held.sideB with nextBeat := some 6, wdogAt := some 0 } }, by decide +kernel⟩,
   ⟨.B, { held.atTick 5 with leaseEnd := 5 }, State.cycle ({ held.atTick 5 with leaseEnd := 5 }) [], by decide +kernel, by decide +kernel, by decide +kernel, by decide +kernel⟩,
   ⟨.B, { held.atTick 5 with leaseEnd := 5, sideA := {} }, State.cycle ({ held.atTick 5 with leaseEnd := 5, sideA := {} }) [], by decide +kernel, by decide +kernel, by decide +kernel, by decide +kernel⟩,
   ⟨.B, { held.atTick 4 with leaseEnd := 5 }, State.cycle ({ held.atTick 4 with leaseEnd := 5 }) [], by decide +kernel, by decide +kernel, by decide +kernel⟩⟩

/-- Every clause of Obligations.RefereeCommandsSwitchResetAndClass has a case. -/
theorem witness_RefereeCommandsSwitchResetAndClass :
    (∃ r : Req, ∃ c : Fin 32, ∃ s : State, s.granted r .ao ∧ s.rfeAdmin r = true ∧ s.planned = none ∧ s.cadTime + (100 * usTicks * tickU : Nat) ≤ s.cadStart (s.cadOf c) (s.swoFrame (s.cadOf c))) ∧
    (∃ r : Req, ∃ c : Fin 32, ∃ s : State, s.granted r .ao ∧ s.rfeAdmin r = true ∧ s.planned = none ∧ s.cadStart (s.cadOf c) (s.swoFrame (s.cadOf c)) < s.cadTime + (100 * usTicks * tickU : Nat)) ∧
    (∃ r : Req, ∃ c : Fin 32, ∃ s : State, s.granted r .ao ∧ s.rfeAdmin r = true ∧ s.planned.isSome = true) ∧
    (∃ r : Req, ∃ c : Fin 32, ∃ s : State, s.granted r .ao ∧ s.rfeAdmin r = true) ∧
    (∃ r : Req, ∃ x : Side, ∃ c : Instr, ∃ s : State, c = (match x with | .A => .resetSideA r | .B => .resetSideB r) ∧ s.granted r .ao ∧ s.rfeAdmin r = true ∧ s.holder ≠ some x) ∧
    (∃ r : Req, ∃ x : Side, ∃ c : Instr, ∃ s : State, c = (match x with | .A => .resetSideA r | .B => .resetSideB r) ∧ s.granted r .ao ∧ s.rfeAdmin r = true ∧ s.holder = some x ∧ s.inStep x.other = true) ∧
    (∃ r : Req, ∃ x : Side, ∃ c : Instr, ∃ s : State, c = (match x with | .A => .resetSideA r | .B => .resetSideB r) ∧ s.granted r .ao ∧ s.rfeAdmin r = true ∧ s.holder = some x ∧ s.inStep x.other = false) ∧
    (∃ c : Nat, ∃ f : Nat, ∃ s : State, s.planned = some (c, f) ∧ s.cadTime < s.cadStart c f) ∧
    (∃ c : Nat, ∃ f : Nat, ∃ s : State, ∃ x : Side, ∃ p : State, s.planned = some (c, f) ∧ s.cadStart c f ≤ s.cadTime ∧ p = (s.cycle []).expire ∧ p.planned = some (c, f) ∧ p.holder = some x ∧ p.inStep x.other = true) ∧
    (∃ c : Nat, ∃ f : Nat, ∃ s : State, ∃ x : Side, ∃ p : State, s.planned = some (c, f) ∧ s.cadStart c f ≤ s.cadTime ∧ p = (s.cycle []).expire ∧ p.planned = some (c, f) ∧ p.holder = some x ∧ p.inStep x.other = false) ∧
    (∃ r : Req, ∃ v : W32, ∃ s : State, s.granted r .ao ∧ s.isRfeOwner r = true) ∧
    (∃ r : Req, ∃ i : Fin 2, ∃ v : W32, ∃ s : State, s.granted r .ao ∧ isFw r i = true) :=
  ⟨⟨.service, 31, held, by simp only [State.granted]; decide +kernel, by decide +kernel, by decide +kernel, by decide +kernel⟩,
   ⟨.service, 0, (held.atTick 100000000).regsAt [(R0 .RFE_SWO_FRAME, 2)], by simp only [State.granted]; decide +kernel, by decide +kernel, by decide +kernel, by decide +kernel⟩,
   ⟨.boot, 31, { held with planned := some (0, 5) }, by simp only [State.granted]; decide +kernel, by decide +kernel, by decide +kernel⟩,
   ⟨.boot, 31, { held with planned := some (0, 5) }, by simp only [State.granted]; decide +kernel, by decide +kernel⟩,
   ⟨.boot, .A, .resetSideA .boot, held, by decide +kernel, by simp only [State.granted]; decide +kernel, by decide +kernel, by decide +kernel⟩,
   ⟨.boot, .B, .resetSideB .boot, held, by decide +kernel, by simp only [State.granted]; decide +kernel, by decide +kernel, by decide +kernel, by decide +kernel⟩,
   ⟨.boot, .B, .resetSideB .boot, { held with sideA := { held.sideA with isolated := true } }, by decide +kernel, by simp only [State.granted]; decide +kernel, by decide +kernel, by decide +kernel, by decide +kernel⟩,
   ⟨0, 1, { held.atTick 0 with planned := some (0, 1) }, by decide +kernel, by decide +kernel⟩,
   ⟨0, 0, { held.atTick 0 with planned := some (0, 0), leaseEnd := 5 }, .B, ((State.cycle ({ held.atTick 0 with planned := some (0, 0), leaseEnd := 5 }) []).expire), by decide +kernel, by decide +kernel, by decide +kernel, by decide +kernel, by decide +kernel, by decide +kernel⟩,
   ⟨0, 0, { held.atTick 0 with planned := some (0, 0), leaseEnd := 5, sideA := { held.sideA with inReset := true } }, .B, ((State.cycle ({ held.atTick 0 with planned := some (0, 0), leaseEnd := 5, sideA := { held.sideA with inReset := true } }) []).expire), by decide +kernel, by decide +kernel, by decide +kernel, by decide +kernel, by decide +kernel, by decide +kernel⟩,
   ⟨.boot, 0xFFFFFFFF, held, by simp only [State.granted]; decide +kernel, by decide +kernel⟩,
   ⟨.fwB, 1, 0x12345678, held, by simp only [State.granted]; decide +kernel, by decide +kernel⟩⟩

/-- Every clause of Obligations.SluicesSendRepairAndCompare has a case. -/
theorem witness_SluicesSendRepairAndCompare :
    (∃ l : Fin 512, ∃ fa : UnitFault, ∃ fb : UnitFault, ∃ n : Nat, ∃ s : State, s.transmitting l = false ∧ s.inTest l = false) ∧
    (∃ l : Fin 512, ∃ fa : UnitFault, ∃ fb : UnitFault, ∃ n : Nat, ∃ ua : Option SlUnit, ∃ ub : Option SlUnit, ∃ s : State, ∃ p : State, s.transmitting l = true ∧ s.inTest l = false ∧ p = s.openInterval l ∧ ua = (p.stands l .A fa).2 ∧ ub = (p.stands l .B fb).2 ∧ (p.holder = none ∨ p.holder = some .A ∧ ua = none ∨ p.holder = some .B ∧ ub = none)) ∧
    (∃ l : Fin 512, ∃ fa : UnitFault, ∃ fb : UnitFault, ∃ n : Nat, ∃ ua : Option SlUnit, ∃ ub : Option SlUnit, ∃ s : State, ∃ p : State, ∃ x : Side, ∃ u : SlUnit, s.transmitting l = true ∧ s.inTest l = false ∧ p = s.openInterval l ∧ ua = (p.stands l .A fa).2 ∧ ub = (p.stands l .B fb).2 ∧ p.holder = some x ∧ p.flag (R0 .RFE_STATE) F.RFE_STATE_QUIET = false ∧ (if x = .A then ua else ub) = some u ∧ p.groupMode l = none ∧ u.clean = true ∧ ((p.sluices.at l).taken ≠ 0 ∧ p.flag (R1 .SLU_STAT l) F.SLU_STAT_GAP = false ∨ (p.due l).opens = true)) ∧
    (∃ l : Fin 512, ∃ fa : UnitFault, ∃ fb : UnitFault, ∃ n : Nat, ∃ ua : Option SlUnit, ∃ ub : Option SlUnit, ∃ s : State, ∃ p : State, ∃ x : Side, ∃ u : SlUnit, ∃ v : SlUnit, s.transmitting l = true ∧ s.inTest l = false ∧ p = s.openInterval l ∧ ua = (p.stands l .A fa).2 ∧ ub = (p.stands l .B fb).2 ∧ p.holder = some x ∧ p.flag (R0 .RFE_STATE) F.RFE_STATE_QUIET = false ∧ (if x = .A then ua else ub) = some u ∧ p.groupMode l = none ∧ (if x = .A then ub else ua) = some v ∧ v.clean = true ∧ u.clean = false ∧ (p.sluices.at l).taken ≠ 0 ∧ p.flag (R1 .SLU_STAT l) F.SLU_STAT_GAP = false ∧ p.flag (R1 .SLU_STAT l) F.SLU_STAT_STEP_OK = true) ∧
    (∃ x : Side, ∃ q : State, ∃ r : State, r = q.cycle []) ∧
    (∃ l : Fin 512, ∃ s : State, s.transmitting l = true ∧ ((s.sluices.at l).line = none ∨ (s.sluices.at l).line = some (s.compareLine l))) ∧
    (∃ l : Fin 512, ∃ s : State, ∃ x : Int × Nat, s.transmitting l = true ∧ (s.sluices.at l).line = some x ∧ s.compareLine l ≠ x ∧ (s.sluices.at l).crcA = (s.sluices.at l).crcB ∧ (s.sluices.at l).bad = false) ∧
    (∃ l : Fin 512, ∃ s : State, ∃ x : Int × Nat, s.transmitting l = true ∧ (s.sluices.at l).line = some x ∧ s.compareLine l ≠ x ∧ ((s.sluices.at l).crcA ≠ (s.sluices.at l).crcB ∨ (s.sluices.at l).bad = true)) ∧
    (∃ l : Fin 512, ∃ s : State, s.transmitting l = false) ∧
    (∃ x : Side, ∃ since : Nat, ∃ s : State, s.holder = some x ∧ s.outSince = some since ∧ s.standbyClass = 0 ∧ s.ready x.other = true ∧ s.phase x.other = 0 ∧ since + 8 * s.slowestPeriod / tickU ≤ s.tick) ∧
    (∃ x : Side, ∃ since : Nat, ∃ s : State, s.holder = some x ∧ s.outSince = some since ∧ s.standbyClass = 0 ∧ s.ready x.other = true ∧ s.phase x.other = 0 ∧ s.tick < since + 8 * s.slowestPeriod / tickU) :=
  ⟨⟨511, {}, {}, 1, held, by decide +kernel, by decide +kernel⟩,
   ⟨511, {}, { late := true }, 1, (State.stands ((sending).openInterval 511) 511 .A {}).2, (State.stands ((sending).openInterval 511) 511 .B { late := true }).2, sending, ((sending).openInterval 511), by decide +kernel, by decide +kernel, by decide +kernel, by decide +kernel, by decide +kernel, by decide +kernel⟩,
   ⟨511, {}, {}, 1, (State.stands ((sending).openInterval 511) 511 .A {}).2, (State.stands ((sending).openInterval 511) 511 .B {}).2, sending, ((sending).openInterval 511), .B, ((State.stands ((sending).openInterval 511) 511 .B {}).2.getD default), by decide +kernel, by decide +kernel, by decide +kernel, by decide +kernel, by decide +kernel, by decide +kernel, by decide +kernel, by decide +kernel, by decide +kernel, by decide +kernel, by decide +kernel⟩,
   ⟨511, {}, { flips := [1] }, 1, (State.stands (({ sending.fields [(R1 .SLU_STAT 511, F.SLU_STAT_STEP_OK, 1)] with sluices := [(511, { taken := 1 })] }).openInterval 511) 511 .A {}).2, (State.stands (({ sending.fields [(R1 .SLU_STAT 511, F.SLU_STAT_STEP_OK, 1)] with sluices := [(511, { taken := 1 })] }).openInterval 511) 511 .B { flips := [1] }).2, { sending.fields [(R1 .SLU_STAT 511, F.SLU_STAT_STEP_OK, 1)] with sluices := [(511, { taken := 1 })] }, (({ sending.fields [(R1 .SLU_STAT 511, F.SLU_STAT_STEP_OK, 1)] with sluices := [(511, { taken := 1 })] }).openInterval 511), .B, ((State.stands (({ sending.fields [(R1 .SLU_STAT 511, F.SLU_STAT_STEP_OK, 1)] with sluices := [(511, { taken := 1 })] }).openInterval 511) 511 .B { flips := [1] }).2.getD default), ((State.stands (({ sending.fields [(R1 .SLU_STAT 511, F.SLU_STAT_STEP_OK, 1)] with sluices := [(511, { taken := 1 })] }).openInterval 511) 511 .A {}).2.getD default), by decide +kernel, by decide +kernel, by decide +kernel, by decide +kernel, by decide +kernel, by decide +kernel, by decide +kernel, by decide +kernel, by decide +kernel, by decide +kernel, by decide +kernel, by decide +kernel, by decide +kernel, by decide +kernel, by decide +kernel⟩,
   ⟨.B, sending, (sending.cycle []), by decide +kernel⟩,
   ⟨511, { sending with sluices := [(511, { taken := 1 })] }, by decide +kernel, by decide +kernel⟩,
   ⟨511, { sending with sluices := [(511, { line := some (-5, 1125), crcA := 5, crcB := 5 })] }, (-5, 1125), by decide +kernel, by decide +kernel, by decide +kernel, by decide +kernel, by decide +kernel⟩,
   ⟨511, { sending with sluices := [(511, { line := some (-5, 1125), crcA := 5, crcB := 5, bad := true })] }, (-5, 1125), by decide +kernel, by decide +kernel, by decide +kernel, by decide +kernel⟩,
   ⟨511, held, by decide +kernel⟩,
   ⟨.B, 0, { held.atTick (8 * held.slowestPeriod / tickU) with outSince := some 0, sideA := { held.sideA with lastBeat := some 1000000000 } }, by decide +kernel, by decide +kernel, by decide +kernel, by decide +kernel, by decide +kernel, by decide +kernel⟩,
   ⟨.B, 0, { held.atTick (8 * held.slowestPeriod / tickU - 1) with outSince := some 0, sideA := { held.sideA with lastBeat := some 1000000000 } }, by decide +kernel, by decide +kernel, by decide +kernel, by decide +kernel, by decide +kernel, by decide +kernel⟩⟩

/-- Every clause of Obligations.ResynchronisationRingAndVoters has a case. -/
theorem witness_ResynchronisationRingAndVoters :
    (∃ sd : Side, ∃ at_ : Nat, ∃ s : State, s.phase sd = 1 ∧ s.live sd = true ∧ (s.side sd).resyncAt = some at_ ∧ (at_ + (100 * usTicks + (if (s.side sd).loadKind = 0 ∧ s.holder = some sd.other then s.contentVolume / 256 else 0)) ≤ s.tick) ∧ Sparse.wf RegKey.lt RegKey.reset s.twins ∧ (∀ e ∈ s.twins, e.1.name.row.space = .side)) ∧
    (∃ sd : Side, ∃ s : State, s.phase sd = 2 ∧ s.allBegun sd = true) ∧
    (∃ sd : Side, ∃ s : State, (s.phase sd ≠ 2 ∨ s.allBegun sd = false)) ∧
    (∃ bytes : List Byte, ∃ s : State, s.aoReset = false ∧ s.ring.bypassed = false ∧ ringGood bytes = false) ∧
    (∃ bytes : List Byte, ∃ n : Nat, ∃ s : State, s.aoReset = false ∧ s.ring.bypassed = false ∧ ringGood bytes = true ∧ s.station = some n ∧ s.flag (R0 .RFE_CFG) F.RFE_CFG_MODE = false) ∧
    (∃ bytes : List Byte, ∃ n : Nat, ∃ s : State, s.aoReset = false ∧ s.ring.bypassed = false ∧ ringGood bytes = true ∧ s.station = some n ∧ s.flag (R0 .RFE_CFG) F.RFE_CFG_MODE = true ∧ (s.ring.counts.getD 0 (none, 0)).1 ≠ some (ringByte bytes 4) ∧ ringByte bytes 9 = 1 ∧ s.ring.executed ≠ some (ringByte bytes (4 + 2 * n))) ∧
    (∃ s : State, s.aoReset = false ∧ s.ring.lost = false ∧ s.ring.lastGood + max 1 (s.fld (R0 .HAF_CFG) F.HAF_CFG_TIMEOUT) * msTicks ≤ s.tick) ∧
    (∃ sd : Side, ∃ s : State, s.inConflict sd = true) ∧
    (∃ sd : Side, ∃ s : State, s.inConflict sd = false) ∧
    (∃ a : Fin 4, ∃ b : Fin 4, ∃ c : Fin 4, ∃ s : State, s.aoReset = false ∧ (a ≠ b ∨ b ≠ c)) ∧
    (∃ a : Fin 4, ∃ b : Fin 4, ∃ c : Fin 4, ∃ s : State, (s.aoReset = true ∨ a = b ∧ b = c)) ∧
    (∃ s : State, s.aoReset = false) :=
  ⟨⟨.A, 0, { (held.atTick (100 * usTicks)).fields [(R1 .RFE_RESYNC 0, F.RFE_RESYNC_PHASE, 1)] with sideA := { held.sideA with resyncAt := some 0 }, twins := [(R1 .XPT_IN_CFG 1023, 5)] }, by decide +kernel, by decide +kernel, by decide +kernel, by decide +kernel, by decide +kernel, by decide +kernel⟩,
   ⟨.A, { held.fields [(R1 .RFE_RESYNC 0, F.RFE_RESYNC_PHASE, 2)] with shown := [(2040, { frame := some 0 }), (2046, { frame := some 0 })] }, by decide +kernel, by decide +kernel⟩,
   ⟨.A, held.fields [(R1 .RFE_RESYNC 0, F.RFE_RESYNC_PHASE, 2)], by decide +kernel⟩,
   ⟨[], ringed, by decide +kernel, by decide +kernel, by decide +kernel⟩,
   ⟨goodRing, 2, ringed, by decide +kernel, by decide +kernel, by decide +kernel, by decide +kernel, by decide +kernel⟩,
   ⟨goodRing, 2, ringed.fields [(R0 .HAF_CFG, F.HAF_CFG_STATION, 2), (R0 .RFE_CFG, F.RFE_CFG_MODE, 1)], by decide +kernel, by decide +kernel, by decide +kernel, by decide +kernel, by decide +kernel, by decide +kernel, by decide +kernel, by decide +kernel⟩,
   ⟨ringed.atTick (max 1 (ringed.fld (R0 .HAF_CFG) F.HAF_CFG_TIMEOUT) * msTicks), by decide +kernel, by decide +kernel, by decide +kernel⟩,
   ⟨.B, { held.atTick (100 * usTicks + 1) with sideB := { held.sideB with differ := some 0 } }, by decide +kernel⟩,
   ⟨.B, { held.atTick (100 * usTicks) with sideB := { held.sideB with differ := some 0 } }, by decide +kernel⟩,
   ⟨1, 2, 3, base, by decide +kernel, by decide +kernel⟩,
   ⟨3, 3, 3, base, by decide +kernel⟩,
   ⟨base, by decide +kernel⟩⟩

/-- Every clause of Obligations.AssayLatchesAndReleases has a case. -/
theorem witness_AssayLatchesAndReleases :
    (∃ asserted : List (Nat × W32), ∃ l : Nat, ∃ s : State, l ∈ [0, 1, 2, 4, 8, 9, 16, 17, 18, 20, 24, 25, 32, 33, 36, 37, 40] ∧ s.sampled l = true ∧ l ∈ asserted.map (·.1) ∧ s.lineFlag .ASY_LIVE0 .ASY_LIVE1 l = false) ∧
    (∃ sd : Side, ∃ s : State, s.wdogLapsed sd = false) ∧
    (∃ sd : Side, ∃ s : State, s.wdogLapsed sd = true ∧ s.aoReset = false ∧ s.live sd = true ∧ s.lineFlag .ASY_LIVE0 .ASY_LIVE1 (16 * sd.idx + 6) = false) ∧
    (∃ sd : Side, ∃ s : State, (s.side sd).isolated = true ∧ (s.side sd).latched = false ∧ (s.side sd).held = false ∧ s.quietNow sd ≠ 0) ∧
    (∃ sd : Side, ∃ s : State, (s.side sd).isolated = true ∧ (s.side sd).latched = false ∧ (s.side sd).held = false ∧ s.quietNow sd = 0 ∧ s.fld (R0 .ASY_ISO_CFG) F.ASY_ISO_CFG_LIMIT = 0) ∧
    (∃ sd : Side, ∃ s : State, (s.side sd).isolated = true ∧ (s.side sd).latched = false ∧ (s.side sd).held = false ∧ s.quietNow sd = 0 ∧ s.fld (R0 .ASY_ISO_CFG) F.ASY_ISO_CFG_LIMIT ≠ 0 ∧ (∀ a ∈ (s.side sd).releases, s.tick < a + max 1 (s.fld (R0 .ASY_ISO_CFG) F.ASY_ISO_CFG_WINDOW) * 10 * secTicks) ∧ s.fld (R0 .ASY_ISO_CFG) F.ASY_ISO_CFG_LIMIT ≤ (s.side sd).releases.length) ∧
    (∃ r : Req, ∃ sd : Side, ∃ c : Instr, ∃ s : State, c = (match sd with | .A => .unlatchA r | .B => .unlatchB r) ∧ s.granted r .ao ∧ s.asyAdmin r = true ∧ (s.side sd).latched = true) ∧
    (∃ r : Req, ∃ sd : Side, ∃ c : Instr, ∃ s : State, c = (match sd with | .A => .unlatchA r | .B => .unlatchB r) ∧ s.granted r .ao ∧ s.asyAdmin r = true ∧ (s.side sd).latched = false) ∧
    (∃ r : Req, ∃ s : State, s.granted r .ao ∧ s.asyAdmin r = true) ∧
    (∃ r : Req, ∃ i : Fin 2, ∃ ctx : W32, ∃ j : Nat, ∃ c : Instr, ∃ s : State, s.granted r .ao ∧ isFw r i = true ∧ s.live (if i.val = 0 then .A else .B) = true ∧ (c = .fwFatal r i ctx ∧ j = 10 ∨ c = .fwDegrade r i ctx ∧ j = 11 ∨ c = .fwNotice r i ctx ∧ j = 12)) :=
  ⟨⟨[(40, 5), (0, 7)], 40, held, by decide +kernel, by decide +kernel, by decide +kernel, by decide +kernel⟩,
   ⟨.B, held.atTick (2 * held.wdogTicks - 1), by decide +kernel⟩,
   ⟨.B, held.atTick (2 * held.wdogTicks), by decide +kernel, by decide +kernel, by decide +kernel, by decide +kernel⟩,
   ⟨.A, { held.atTick 9 with sideA := { held.sideA with isolated := true, quietLeft := 10 } }, by decide +kernel, by decide +kernel, by decide +kernel, by decide +kernel⟩,
   ⟨.A, { (held.atTick 10).fields [(R0 .ASY_ISO_CFG, F.ASY_ISO_CFG_LIMIT, 0)] with sideA := { held.sideA with isolated := true, quietLeft := 10 } }, by decide +kernel, by decide +kernel, by decide +kernel, by decide +kernel, by decide +kernel⟩,
   ⟨.A, { (held.atTick 10).fields [(R0 .ASY_ISO_CFG, F.ASY_ISO_CFG_LIMIT, 1)] with sideA := { held.sideA with isolated := true, quietLeft := 10, releases := [0] } }, by decide +kernel, by decide +kernel, by decide +kernel, by decide +kernel, by decide +kernel, by decide +kernel, by decide +kernel⟩,
   ⟨.boot, .A, .unlatchA .boot, { held with sideA := { held.sideA with isolated := true, latched := true } }, by decide +kernel, by simp only [State.granted]; decide +kernel, by decide +kernel, by decide +kernel⟩,
   ⟨.boot, .B, .unlatchB .boot, held, by decide +kernel, by simp only [State.granted]; decide +kernel, by decide +kernel, by decide +kernel⟩,
   ⟨.boot, held.regsAt [(R1 .ASY_FIRST 3, 5)], by simp only [State.granted]; decide +kernel, by decide +kernel⟩,
   ⟨.fwB, 1, 0xFFFFFFFF, 12, .fwNotice .fwB 1 0xFFFFFFFF, held, by simp only [State.granted]; decide +kernel, by decide +kernel, by decide +kernel, by decide +kernel⟩⟩

/-- Every clause of Obligations.LaneDetectorsAndQuadPlls has a case. -/
theorem witness_LaneDetectorsAndQuadPlls :
    (∃ n : Fin 512, ∃ mv : Nat, ∃ us : Nat, ∃ s : State, (s.laneLos n = true ∨ s.losLevel n ≤ mv ∨ s.detHeld n F.LANE_DET_ASSERT us = false)) ∧
    (∃ n : Fin 512, ∃ mv : Nat, ∃ us : Nat, ∃ s : State, s.laneLos n = false ∧ mv < 10 * (s.fld (R1 .LANE_DET n) F.LANE_DET_LOS_TH + 2) ∧ max 1 (s.fld (R1 .LANE_DET n) F.LANE_DET_ASSERT) ≤ us ∧ (s.lanes.at n).detAt = none) ∧
    (∃ n : Fin 512, ∃ mv : Nat, ∃ us : Nat, ∃ s : State, s.laneLos n = true ∧ s.bankLost.contains (laneBank n) = false ∧ 10 * (s.fld (R1 .LANE_DET n) F.LANE_DET_LOS_TH + 2) + 5 * s.fld (R1 .LANE_DET n) F.LANE_DET_LOS_HYST ≤ mv ∧ max 1 (s.fld (R1 .LANE_DET n) F.LANE_DET_CLEAR) ≤ us ∧ (s.lanes.at n).detAt = none) ∧
    (∃ n : Fin 512, ∃ mv : Nat, ∃ us : Nat, ∃ s : State, (s.laneLos n = false ∨ s.bankLost.contains (laneBank n) = true ∨ mv < s.losLevel n + 5 * s.fld (R1 .LANE_DET n) F.LANE_DET_LOS_HYST ∨ s.detHeld n F.LANE_DET_CLEAR us = false)) ∧
    (∃ n : Fin 512, ∃ locked : Bool, ∃ freq : Int, ∃ s : State, s.laneLos n = false ∧ s.lanePark n ≤ 1 ∧ (locked = false ∨ 100 * max 1 (s.fld (R1 .LANE_DET n) F.LANE_DET_LOL_PPM) < freq.natAbs)) ∧
    (∃ n : Fin 512, ∃ freq : Int, ∃ s : State, s.laneLos n = false ∧ s.lanePark n ≤ 1 ∧ freq.natAbs ≤ 100 * max 1 (s.fld (R1 .LANE_DET n) F.LANE_DET_LOL_PPM)) ∧
    (∃ n : Fin 512, ∃ locked : Bool, ∃ freq : Int, ∃ s : State, (s.laneLos n = true ∨ 2 ≤ s.lanePark n)) ∧
    (∃ n : Fin 512, ∃ freq : Int, ∃ s : State, s.laneLol n = true ∧ s.flag (qstat (n.val / 4)) F.LANE_QSTAT_LOCK = true ∧ freq.natAbs ≤ 100 * max 1 (s.fld (R1 .LANE_DET n) F.LANE_DET_LOL_PPM)) ∧
    (∃ n : Fin 512, ∃ freq : Int, ∃ s : State, (s.laneLol n = false ∨ s.flag (qstat (n.val / 4)) F.LANE_QSTAT_LOCK = false ∨ s.offFreq n freq = true)) ∧
    (∃ q : Fin 128, ∃ s : State, s.flag (qstat q) F.LANE_QSTAT_LOCK = true) ∧
    (∃ q : Fin 128, ∃ s : State, s.flag (qstat q) F.LANE_QSTAT_LOCK = false) ∧
    (∃ q : Fin 128, ∃ s : State, s.flag (qstat q) F.LANE_QSTAT_LOCK = false ∧ (∃ m ∈ quadLanes q, s.laneProto m ≠ 0) ∧ s.bankLost.contains (laneBank (4 * q)) = false) :=
  ⟨⟨511, 39, 0, quad 1 0, by decide +kernel⟩,
   ⟨511, 19, 1, (quad 1 0).fields [(R1 .LANE_DET 511, F.LANE_DET_LOS_TH, 0), (R1 .LANE_DET 511, F.LANE_DET_ASSERT, 0)], by decide +kernel, by decide +kernel, by decide +kernel, by decide +kernel⟩,
   ⟨511, 100, 4095, (quad 1 0).fields [(R1 .LANE_STAT 511, F.LANE_STAT_LOS, 1), (R1 .LANE_DET 511, F.LANE_DET_LOS_TH, 0), (R1 .LANE_DET 511, F.LANE_DET_LOS_HYST, 7)], by decide +kernel, by decide +kernel, by decide +kernel, by decide +kernel, by decide +kernel⟩,
   ⟨511, 500, 100000, { (quad 1 0).fields [(R1 .LANE_STAT 511, F.LANE_STAT_LOS, 1)] with bankLost := [.W] }, by decide +kernel⟩,
   ⟨511, true, -32769, (quad 1 1).fields [(R1 .LANE_DET 511, F.LANE_DET_LOL_PPM, 0)], by decide +kernel, by decide +kernel, by decide +kernel⟩,
   ⟨511, -100, (quad 1 1).fields [(R1 .LANE_DET 511, F.LANE_DET_LOL_PPM, 0)], by decide +kernel, by decide +kernel, by decide +kernel⟩,
   ⟨511, false, 5, quad 1 2, by decide +kernel⟩,
   ⟨511, -2, (quad 1 0).fields [(R1 .LANE_STAT 511, F.LANE_STAT_LOL, 1)], by decide +kernel, by decide +kernel, by decide +kernel⟩,
   ⟨511, -2, quad 1 0, by decide +kernel⟩,
   ⟨127, quad 1 0, by decide +kernel⟩,
   ⟨127, base, by decide +kernel⟩,
   ⟨127, (quad 1 0).fields [(qstat 127, F.LANE_QSTAT_LOCK, 0)], by decide +kernel, by decide +kernel, by decide +kernel⟩⟩

/-- Every clause of Obligations.LanesParkWakeAndMeasure has a case. -/
theorem witness_LanesParkWakeAndMeasure :
    (∃ n : Fin 512, ∃ s : State, (s.laneProto n = 0 ∨ s.laneIdle n = false)) ∧
    (∃ n : Fin 512, ∃ s : State, s.laneProto n ≠ 0 ∧ s.laneIdle n = true ∧ s.laneDeepest n ≤ 2 ∧ s.lanePark n < s.laneDeepest n) ∧
    (∃ n : Fin 512, ∃ s : State, s.laneProto n ≠ 0 ∧ s.laneIdle n = true ∧ s.laneDeepest n = 3 ∧ (∃ m ∈ quadLanes (n.val / 4), s.laneProto m ≠ 0 ∧ (s.laneIdle m = false ∨ s.laneDeepest m ≠ 3)) ∧ s.lanePark n < 2) ∧
    (∃ n : Fin 512, ∃ s : State, s.laneProto n ≠ 0 ∧ s.laneIdle n = true ∧ s.laneDeepest n = 3 ∧ (∃ m ∈ quadLanes (n.val / 4), s.laneProto m ≠ 0 ∧ (s.laneIdle m = false ∨ s.laneDeepest m ≠ 3)) ∧ 2 ≤ s.lanePark n) ∧
    (∃ n : Fin 512, ∃ s : State, s.laneProto n ≠ 0 ∧ s.laneIdle n = true ∧ s.lanePark n < 3 ∧ (∀ m ∈ quadLanes (n.val / 4), s.laneProto m ≠ 0 → s.laneIdle m = true ∧ s.laneDeepest m = 3)) ∧
    (∃ n : Fin 512, ∃ s : State, s.laneDemanded n = true ∧ s.laneProto n ≠ 0 ∧ s.lanePark n ≠ 0 ∧ s.flag (R1 .LANE_STAT n) F.LANE_STAT_WAKING = false ∧ s.bankLost.contains (laneBank n) = false) ∧
    (∃ n : Fin 512, ∃ s : State, (s.laneDemanded n = false ∨ s.lanePark n = 0)) ∧
    (∃ n : Fin 512, ∃ s : State, s.laneProto n ≠ 0 ∧ s.flag (qstat (n.val / 4)) F.LANE_QSTAT_LOCK = true ∧ s.flag (R1 .LANE_STAT n) F.LANE_STAT_WAKING = true) ∧
    (∃ n : Fin 512, ∃ s : State, s.flag (qstat (n.val / 4)) F.LANE_QSTAT_LOCK = false) ∧
    (∃ n : Fin 512, ∃ ins : Bool, ∃ s : State, (s.laneProto n = 1 ∨ s.laneProto n = 3) ∧ s.lanePark n ≤ 1) ∧
    (∃ n : Fin 512, ∃ h : Fin 1024, ∃ w : Fin 1024, ∃ snr : Byte, ∃ freq : Int, ∃ s : State, s.laneProto n ≠ 0 ∧ s.lanePark n = 0) ∧
    (∃ n : Fin 512, ∃ h : Fin 1024, ∃ w : Fin 1024, ∃ snr : Byte, ∃ freq : Int, ∃ s : State, (s.laneProto n = 0 ∨ s.lanePark n ≠ 0)) :=
  ⟨⟨511, { quad 1 0 with tick := 10 * msTicks - 1 }, by decide +kernel⟩,
   ⟨511, (quad 1 0).fields [(R1 .PARK_LANE_DECL 0, F.PARK_LANE_DECL_UNIT, 1)], by decide +kernel, by decide +kernel, by decide +kernel, by decide +kernel⟩,
   ⟨511, { quad 1 0 with lanes := [(511, { idleSince := some 0 })] }, by decide +kernel, by decide +kernel, by decide +kernel, by decide +kernel, by decide +kernel⟩,
   ⟨511, { quad 1 2 with lanes := [(511, { idleSince := some 0 })] }, by decide +kernel, by decide +kernel, by decide +kernel, by decide +kernel, by decide +kernel⟩,
   ⟨511, quad 1 2, by decide +kernel, by decide +kernel, by decide +kernel, by decide +kernel⟩,
   ⟨511, (quad 1 3).fields [(R1 .LANE_CTL 511, F.LANE_CTL_NOPARK, 1)], by decide +kernel, by decide +kernel, by decide +kernel, by decide +kernel, by decide +kernel⟩,
   ⟨511, quad 1 3, by decide +kernel⟩,
   ⟨511, (quad 1 3).fields [(R1 .LANE_STAT 511, F.LANE_STAT_WAKING, 1)], by decide +kernel, by decide +kernel, by decide +kernel⟩,
   ⟨511, (quad 1 3).fields [(qstat 127, F.LANE_QSTAT_LOCK, 0)], by decide +kernel⟩,
   ⟨511, true, quad 3 1, by decide +kernel, by decide +kernel⟩,
   ⟨511, 1023, 1023, 255, -32768, quad 1 0, by decide +kernel, by decide +kernel⟩,
   ⟨511, 1023, 1023, 255, -32768, quad 1 1, by decide +kernel⟩⟩

/-- Every clause of Obligations.LaneTapsTestsAndChecker has a case. -/
theorem witness_LaneTapsTestsAndChecker :
    (∃ r : Req, ∃ n : Fin 512, ∃ v : W32, ∃ s : State, s.granted r .lanes ∧ s.holdsLane r n = true ∧ s.laneProto n ≠ 0 ∧ s.flag (R1 .LANE_CTL n) F.LANE_CTL_TRAIN = true ∧ s.laneProto n ≠ 2) ∧
    (∃ r : Req, ∃ n : Fin 512, ∃ v : W32, ∃ s : State, s.granted r .lanes ∧ s.holdsLane r n = true ∧ s.laneProto n ≠ 0 ∧ (s.flag (R1 .LANE_CTL n) F.LANE_CTL_TRAIN = false ∨ s.laneProto n = 2) ∧ tapsOk (if s.pam4 n then getF v F.LANE_TXEQ_PRE2 else 0) (getF v F.LANE_TXEQ_PRE1) (getF v F.LANE_TXEQ_POST1) = true) ∧
    (∃ r : Req, ∃ n : Fin 512, ∃ v : W32, ∃ s : State, s.granted r .lanes ∧ s.holdsLane r n = true ∧ s.laneProto n ≠ 0 ∧ (s.flag (R1 .LANE_CTL n) F.LANE_CTL_TRAIN = false ∨ s.laneProto n = 2) ∧ tapsOk (if s.pam4 n then getF v F.LANE_TXEQ_PRE2 else 0) (getF v F.LANE_TXEQ_PRE1) (getF v F.LANE_TXEQ_POST1) = false) ∧
    (∃ r : Req, ∃ n : Fin 512, ∃ v : W32, ∃ s : State, s.granted r .lanes ∧ s.holdsLane r n = true ∧ s.laneProto n ≠ 0) ∧
    (∃ r : Req, ∃ n : Fin 512, ∃ s : State, s.granted r .lanes ∧ s.holdsLane r n = true ∧ s.laneProto n ≠ 0) ∧
    (∃ n : Fin 512, ∃ fa : UnitFault, ∃ fb : UnitFault, ∃ k : Nat, ∃ s : State, s.txPattern n ≠ 0 ∧ s.flag (R1 .LANE_STAT n) F.LANE_STAT_TX_ON = true) ∧
    (∃ n : Fin 512, ∃ s : State, s.rxPattern n ≠ 0 ∧ s.flag (R1 .LANE_TEST n) F.LANE_TEST_SYNC = false) ∧
    (∃ n : Fin 512, ∃ s : State, s.rxPattern n = 0) ∧
    (∃ n : Fin 512, ∃ errors : Nat, ∃ s : State, s.flag (R1 .LANE_TEST n) F.LANE_TEST_SYNC = true) ∧
    (∃ n : Fin 512, ∃ errors : Nat, ∃ s : State, s.flag (R1 .LANE_TEST n) F.LANE_TEST_SYNC = false) ∧
    (∃ r : Req, ∃ n : Fin 512, ∃ errors : Nat, ∃ be : Fin 16, ∃ s : State, s.granted r .lanes ∧ s.laneProto n ≠ 0) :=
  ⟨⟨.hp0, 511, 0xFFFFFFFF, lit ((quad 1 0).fields [(R1 .LANE_CTL 511, F.LANE_CTL_TRAIN, 1)]), by simp only [State.granted]; decide +kernel, by decide +kernel, by decide +kernel, by decide +kernel, by decide +kernel⟩,
   ⟨.hp0, 511, 0, lit ((quad 2 0).fields [(R1 .LANE_CTL 511, F.LANE_CTL_TRAIN, 1)]), by simp only [State.granted]; decide +kernel, by decide +kernel, by decide +kernel, by decide +kernel, by decide +kernel⟩,
   ⟨.hp0, 511, 0xFFFFFFFF, lit ((quad 1 0).fields [(R1 .LANE_CFG 511, F.LANE_CFG_RATE, 3), (R1 .LANE_CTL 511, F.LANE_CTL_TRAIN, 0)]), by simp only [State.granted]; decide +kernel, by decide +kernel, by decide +kernel, by decide +kernel, by decide +kernel⟩,
   ⟨.hp0, 511, 0xFFFFFFFF, lit (quad 1 0), by simp only [State.granted]; decide +kernel, by decide +kernel, by decide +kernel⟩,
   ⟨.hp0, 511, lit ((quad 1 0).fields [(R1 .LANE_TEST 511, F.LANE_TEST_TX_PAT, 5)]), by simp only [State.granted]; decide +kernel, by decide +kernel, by decide +kernel⟩,
   ⟨511, {}, {}, 1, (quad 1 0).fields [(R1 .LANE_TEST 511, F.LANE_TEST_TX_PAT, 9), (R1 .LANE_STAT 511, F.LANE_STAT_TX_ON, 1)], by decide +kernel, by decide +kernel⟩,
   ⟨511, (quad 1 0).fields [(R1 .LANE_TEST 511, F.LANE_TEST_RX_PAT, 9)], by decide +kernel, by decide +kernel⟩,
   ⟨511, (quad 1 0).fields [(R1 .LANE_TEST 511, F.LANE_TEST_RX_PAT, 8)], by decide +kernel⟩,
   ⟨511, 5, (quad 1 0).fields [(R1 .LANE_TEST 511, F.LANE_TEST_RX_PAT, 1), (R1 .LANE_TEST 511, F.LANE_TEST_SYNC, 1)], by decide +kernel⟩,
   ⟨511, 5, quad 1 0, by decide +kernel⟩,
   ⟨.hp0, 511, 5, 15, quad 1 0, by simp only [State.granted]; decide +kernel, by decide +kernel⟩⟩

/-- Every clause of Obligations.NervorLinkStates has a case. -/
theorem witness_NervorLinkStates :
    (∃ n : Fin 512, ∃ s : State, s.linkState n = 1 ∧ (s.nvl.at n).entered + msTicks ≤ s.tick) ∧
    (∃ n : Fin 512, ∃ s : State, (s.linkState n ≠ 1 ∨ s.tick < (s.nvl.at n).entered + msTicks)) ∧
    (∃ n : Fin 512, ∃ s : State, s.linkState n = 1 ∧ s.laneLol n = false ∧ s.flag (R1 .LANE_CTL n) F.LANE_CTL_TRAIN = true ∧ ((s.nvl.at n).locked = false ∨ (s.nvl.at n).retrain = true ∨ (∃ t₀, (s.nvl.at n).lostAt = some t₀ ∧ t₀ + msTicks < s.tick))) ∧
    (∃ n : Fin 512, ∃ s : State, s.linkState n = 1 ∧ s.laneLol n = false ∧ (s.flag (R1 .LANE_CTL n) F.LANE_CTL_TRAIN = false ∨ (s.nvl.at n).locked = true ∧ (s.nvl.at n).retrain = false ∧ (∀ t₀, (s.nvl.at n).lostAt = some t₀ → s.tick ≤ t₀ + msTicks))) ∧
    (∃ n : Fin 512, ∃ s : State, (s.linkState n ≠ 1 ∨ s.laneLol n = true)) ∧
    (∃ n : Fin 512, ∃ s : State, (s.linkState n = 2 ∨ s.linkState n = 3)) ∧
    (∃ n : Fin 512, ∃ s : State, s.linkState n < 2) ∧
    (∃ n : Fin 512, ∃ s : State, s.linkState n = 2 ∧ (s.nvl.at n).entered + 7 * msTicks / 2 ≤ s.tick) ∧
    (∃ n : Fin 512, ∃ s : State, (s.linkState n ≠ 2 ∨ s.tick < (s.nvl.at n).entered + 7 * msTicks / 2)) ∧
    (∃ n : Fin 512, ∃ m : BitVec 56, ∃ ready : Bool, ∃ s : State, s.laneProto n = 1 ∧ s.flag (R1 .NVL_STAT n) F.NVL_STAT_BLOCK_LOCK = true ∧ ctrlMsg m = none) ∧
    (∃ n : Fin 512, ∃ m : BitVec 56, ∃ ready : Bool, ∃ s : State, ∃ part, ∃ body, s.laneProto n = 1 ∧ s.flag (R1 .NVL_STAT n) F.NVL_STAT_BLOCK_LOCK = true ∧ ctrlMsg m = some (1, part, body) ∧ s.linkState n = 2) ∧
    (∃ n : Fin 512, ∃ m : BitVec 56, ∃ ready : Bool, ∃ s : State, s.laneProto n ≠ 1) :=
  ⟨⟨256, (link 1).atTick msTicks, by decide +kernel, by decide +kernel⟩,
   ⟨256, (link 1).atTick (msTicks - 1), by decide +kernel⟩,
   ⟨256, { (link 1).fields [(R1 .LANE_CTL 256, F.LANE_CTL_TRAIN, 1), (R1 .LANE_STAT 256, F.LANE_STAT_LOL, 0)] with tick := msTicks + 1, nvl := [(256, { locked := true, lostAt := some 0 })] }, by decide +kernel, by decide +kernel, by decide +kernel, by decide +kernel⟩,
   ⟨256, { (link 1).fields [(R1 .LANE_CTL 256, F.LANE_CTL_TRAIN, 1), (R1 .LANE_STAT 256, F.LANE_STAT_LOL, 0)] with tick := msTicks, nvl := [(256, { locked := true, lostAt := some 0 })] }, by decide +kernel, by decide +kernel, by decide +kernel⟩,
   ⟨256, link 2, by decide +kernel⟩,
   ⟨256, { link 3 with inRx := fed.inRx, merges := fed.merges }, by decide +kernel⟩,
   ⟨256, link 1, by decide +kernel⟩,
   ⟨256, (link 2).atTick (7 * msTicks / 2), by decide +kernel, by decide +kernel⟩,
   ⟨256, (link 2).atTick (7 * msTicks / 2 - 1), by decide +kernel⟩,
   ⟨256, 1, true, link 3, by decide +kernel, by decide +kernel, by decide +kernel⟩,
   ⟨256, msg 1 0 (2 * 2 ^ 38 + 2 ^ 36 + 255 * 2 ^ 28 + 2 ^ 17), true, (link 2).fields [(R1 .LANE_CTL 256, F.LANE_CTL_TRAIN, 1)], 0, 2 * 2 ^ 38 + 2 ^ 36 + 255 * 2 ^ 28 + 2 ^ 17, by decide +kernel, by decide +kernel, by decide +kernel, by decide +kernel⟩,
   ⟨511, 0, true, link 3, by decide +kernel⟩⟩

/-- Every clause of Obligations.NervorCommandsAndPartners has a case. -/
theorem witness_NervorCommandsAndPartners :
    (∃ r : Req, ∃ n : Fin 512, ∃ s : State, s.granted r .lanes ∧ s.holdsLane r n = true ∧ s.laneProto n = 1 ∧ s.linkState n = 3) ∧
    (∃ r : Req, ∃ n : Fin 512, ∃ s : State, s.granted r .lanes ∧ s.holdsLane r n = true ∧ s.laneProto n = 1 ∧ s.linkState n = 1) ∧
    (∃ r : Req, ∃ n : Fin 512, ∃ s : State, s.granted r .lanes ∧ s.holdsLane r n = true ∧ s.laneProto n = 1 ∧ (s.linkState n = 0 ∨ s.linkState n = 2)) ∧
    (∃ r : Req, ∃ n : Fin 512, ∃ s : State, s.granted r .lanes ∧ s.holdsLane r n = true ∧ s.laneProto n = 1 ∧ s.linkState n = 3) ∧
    (∃ r : Req, ∃ n : Fin 512, ∃ s : State, s.granted r .lanes ∧ s.holdsLane r n = true ∧ s.laneProto n = 1 ∧ s.linkState n ≠ 3) ∧
    (∃ r : Req, ∃ n : Fin 512, ∃ s : State, ∃ mode : Fin 4, s.granted r .lanes ∧ s.holdsLane r n = true ∧ s.laneProto n = 1 ∧ mode.val ≠ s.fld (R1 .NVL_CFG n) F.NVL_CFG_FEC_MODE) ∧
    (∃ r : Req, ∃ n : Fin 512, ∃ s : State, ∃ mode : Fin 4, s.granted r .lanes ∧ s.holdsLane r n = true ∧ s.laneProto n = 1 ∧ mode.val = s.fld (R1 .NVL_CFG n) F.NVL_CFG_FEC_MODE) ∧
    (∃ n : Fin 512, ∃ m₀ : BitVec 56, ∃ m₁ : BitVec 56, ∃ m₂ : BitVec 56, ∃ b₀ : Nat, ∃ b₁ : Nat, ∃ b₂ : Nat, ∃ s : State, ctrlMsg m₀ = some (4, 0, b₀) ∧ ctrlMsg m₁ = some (4, 1, b₁) ∧ ctrlMsg m₂ = some (4, 2, b₂) ∧ s.laneProto n = 1 ∧ s.flag (R1 .NVL_STAT n) F.NVL_STAT_BLOCK_LOCK = true ∧ s.linkState n = 3) ∧
    (∃ n : Fin 512, ∃ s : State, s.flag (R1 .NVL_PARTNER0 n) F.NVL_PARTNER0_VALID = true ∧ s.superframesSince n 256 (s.nvl.at n).reportAt = true) ∧
    (∃ n : Fin 512, ∃ s : State, s.flag (R1 .NVL_PARTNER0 n) F.NVL_PARTNER0_VALID = true ∧ s.superframesSince n 256 (s.nvl.at n).reportAt = false) ∧
    (∃ n : Fin 512, ∃ s : State, s.flag (R1 .NVL_PARTNER0 n) F.NVL_PARTNER0_VALID = false) :=
  ⟨⟨.hp0, 256, { link 3 with inRx := fed.inRx, merges := fed.merges }, by simp only [State.granted]; decide +kernel, by decide +kernel, by decide +kernel, by decide +kernel⟩,
   ⟨.hp0, 256, link 1, by simp only [State.granted]; decide +kernel, by decide +kernel, by decide +kernel, by decide +kernel⟩,
   ⟨.hp0, 256, link 2, by simp only [State.granted]; decide +kernel, by decide +kernel, by decide +kernel, by decide +kernel⟩,
   ⟨.hp0, 256, link 3, by simp only [State.granted]; decide +kernel, by decide +kernel, by decide +kernel, by decide +kernel⟩,
   ⟨.hp0, 256, link 2, by simp only [State.granted]; decide +kernel, by decide +kernel, by decide +kernel, by decide +kernel⟩,
   ⟨.hp0, 256, link 3, 3, by simp only [State.granted]; decide +kernel, by decide +kernel, by decide +kernel, by decide +kernel⟩,
   ⟨.hp0, 256, link 3, 0, by simp only [State.granted]; decide +kernel, by decide +kernel, by decide +kernel, by decide +kernel⟩,
   ⟨256, msg 4 0 0xFFFFFFFFFF, msg 4 1 0xFFFFFFFFFF, msg 4 2 0x40, 0xFFFFFFFFFF, 0xFFFFFFFFFF, 0x40, link 3, by decide +kernel, by decide +kernel, by decide +kernel, by decide +kernel, by decide +kernel, by decide +kernel⟩,
   ⟨256, ((link 3).fields [(R1 .NVL_PARTNER0 256, F.NVL_PARTNER0_VALID, 1)]).atTick 100000000, by decide +kernel, by decide +kernel⟩,
   ⟨256, ((link 3).fields [(R1 .NVL_PARTNER0 256, F.NVL_PARTNER0_VALID, 1)]).atTick 0, by decide +kernel, by decide +kernel⟩,
   ⟨256, link 3, by decide +kernel⟩⟩

/-- Every clause of Obligations.NervorJudgementsMessagesAndBypass has a case. -/
theorem witness_NervorJudgementsMessagesAndBypass :
    (∃ n : Fin 512, ∃ p : BitVec 56, ∃ cells : List NvlCell, ∃ unknown : Nat, ∃ s : State, s.laneProto n = 1 ∧ s.flag (R1 .NVL_STAT n) F.NVL_STAT_SF_LOCK = true) ∧
    (∃ n : Fin 512, ∃ p : BitVec 56, ∃ cells : List NvlCell, ∃ unknown : Nat, ∃ c : Nat, ∃ x : Nat, ∃ i : InPlan, ∃ s : State, s.laneProto n = 1 ∧ s.flag (R1 .NVL_STAT n) F.NVL_STAT_SF_LOCK = true ∧ s.inPlan = [(x, i)] ∧ i.slots = 1 ∧ i.pos (laneBank n) = some (.nervor n c) ∧ s.posUsable (laneBank n) (.nervor n c) = true ∧ (s.copyRx x (laneBank n)).present = true) ∧
    (∃ n : Fin 512, ∃ p : BitVec 56, ∃ cells : List NvlCell, ∃ unknown : Nat, ∃ c : Nat, ∃ d : Nat, ∃ i : Nat, ∃ l : Nat, ∃ k : Nat, ∃ o : OutPlan, ∃ s : State, s.laneProto n = 1 ∧ s.flag (R1 .NVL_STAT n) F.NVL_STAT_SF_LOCK = true ∧ c < s.fld (R1 .NVL_STAT n) F.NVL_STAT_CHANNELS ∧ channelGood p (s.fld (R1 .NVL_STAT n) F.NVL_STAT_CHANNELS) c cells = false ∧ (d, o) ∈ s.outPlan ∧ o.bypass = some i ∧ o.pos (laneBank n) = some (.nervor l k) ∧ (s.inPlan.at i).pos (laneBank n) = some (.nervor n c) ∧ k < (s.nvlTx.at l).poison.length) ∧
    (∃ n : Fin 512, ∃ p : BitVec 56, ∃ cells : List NvlCell, ∃ unknown : Nat, ∃ s : State, (s.laneProto n ≠ 1 ∨ s.flag (R1 .NVL_STAT n) F.NVL_STAT_SF_LOCK = false)) ∧
    (∃ n : Fin 512, ∃ e : Nat, ∃ s : State, s.laneProto n = 1 ∧ s.flag (R1 .NVL_STAT n) F.NVL_STAT_FEC_ON = true ∧ e ≤ 7) ∧
    (∃ n : Fin 512, ∃ e : Nat, ∃ s : State, s.laneProto n = 1 ∧ s.flag (R1 .NVL_STAT n) F.NVL_STAT_FEC_ON = true ∧ 7 < e) ∧
    (∃ n : Fin 512, ∃ e : Nat, ∃ s : State, (s.laneProto n ≠ 1 ∨ s.flag (R1 .NVL_STAT n) F.NVL_STAT_FEC_ON = false)) ∧
    (∃ n : Fin 512, ∃ m : BitVec 56, ∃ part : Nat, ∃ body : Nat, ∃ s : State, s.laneProto n = 1 ∧ s.flag (R1 .NVL_STAT n) F.NVL_STAT_BLOCK_LOCK = true ∧ ctrlMsg m = some (2, part, body)) ∧
    (∃ n : Fin 512, ∃ m : BitVec 56, ∃ part : Nat, ∃ body : Nat, ∃ s : State, s.laneProto n = 1 ∧ s.flag (R1 .NVL_STAT n) F.NVL_STAT_BLOCK_LOCK = true ∧ ctrlMsg m = some (3, part, body)) ∧
    (∃ n : Fin 512, ∃ s : State, s.laneProto n = 1 ∧ s.flag (R1 .NVL_STAT n) F.NVL_STAT_SF_LOCK = true) ∧
    (∃ n : Fin 512, ∃ s : State, (s.laneProto n ≠ 1 ∨ s.flag (R1 .NVL_STAT n) F.NVL_STAT_SF_LOCK = false)) ∧
    (∃ d : Fin 1024, ∃ b : Bank, ∃ x : W32, ∃ y : W32, ∃ i : Nat, ∃ l : Nat, ∃ c : Nat, ∃ s : State, (s.outPlan.at d).bypass = some i ∧ (s.outPlan.at d).pos b = some (.nervor l c) ∧ ((s.inPlan.at i).pos b).any (s.posUsable b) = true ∧ s.aoReset = false ∧ (s.bypassQ.at (4 * l + c)).length < 8) ∧
    (∃ d : Fin 1024, ∃ b : Bank, ∃ x : W32, ∃ y : W32, ∃ s : State, ((s.outPlan.at d).bypass = none ∨ s.aoReset = true)) :=
  ⟨⟨256, BitVec.ofNat 56 (2 ^ 48), [{ hdr := 3, payload := 5, uncorr := false, ago := 0 }], 1, link 3, by decide +kernel, by decide +kernel⟩,
   ⟨256, BitVec.ofNat 56 (2 ^ 48), [{ hdr := 1, payload := 0xC0000000FFFFFFFF, uncorr := false, ago := 5 }], 0, 1, 1023, { slots := 1, lowest := 1023, srcW := some (.nervor 256 1) }, { link 3 with inPlan := [(1023, { slots := 1, lowest := 1023, srcW := some (.nervor 256 1) })], inRx := fed.inRx }, by decide +kernel, by decide +kernel, by decide +kernel, by decide +kernel, by decide +kernel, by decide +kernel, by decide +kernel⟩,
   ⟨256, 0, [], 0, 3, 1023, 1023, 256, 3, { txW := some (.nervor 256 3), bypass := some 1023 }, { link 3 with outPlan := [(1023, { txW := some (.nervor 256 3), bypass := some 1023 })] }, by decide +kernel, by decide +kernel, by decide +kernel, by decide +kernel, by decide +kernel, by decide +kernel, by decide +kernel, by decide +kernel, by decide +kernel⟩,
   ⟨511, 0, [], 0, link 3, by decide +kernel⟩,
   ⟨256, 7, (link 3).fields [(R1 .NVL_STAT 256, F.NVL_STAT_FEC_ON, 1)], by decide +kernel, by decide +kernel, by decide +kernel⟩,
   ⟨256, 8, (link 3).fields [(R1 .NVL_STAT 256, F.NVL_STAT_FEC_ON, 1)], by decide +kernel, by decide +kernel, by decide +kernel⟩,
   ⟨511, 8, link 3, by decide +kernel⟩,
   ⟨256, msg 2 0 0xFFFFFFFFFF, 0, 0xFFFFFFFFFF, link 3, by decide +kernel, by decide +kernel, by decide +kernel⟩,
   ⟨256, msg 3 0 0xFFFFFFFFFF, 0, 0xFFFFFFFFFF, link 3, by decide +kernel, by decide +kernel, by decide +kernel⟩,
   ⟨256, { link 3 with nvl := [(256, { anyCell := true, allGap := true })] }, by decide +kernel, by decide +kernel⟩,
   ⟨511, link 3, by decide +kernel⟩,
   ⟨1023, .W, 1, 0xFFFFFFFF, 1023, 256, 3, { rig with outPlan := [(1023, { txW := some (.nervor 256 3), bypass := some 1023 })] }, by decide +kernel, by decide +kernel, by decide +kernel, by decide +kernel, by decide +kernel⟩,
   ⟨1023, .W, 1, 0xFFFFFFFF, rig, by decide +kernel⟩⟩

/-- Every clause of Obligations.SdiLanesLockJudgeAndSend has a case. -/
theorem witness_SdiLanesLockJudgeAndSend :
    (∃ n : Fin 512, ∃ s : State, s.laneProto n = 2 ∧ s.laneReceives n = true ∧ s.flag (R1 .SDI_STAT n) F.SDI_STAT_RASTER_LOCK = false) ∧
    (∃ n : Fin 512, ∃ s : State, s.flag (R1 .SDI_STAT n) F.SDI_STAT_RASTER_LOCK = true) ∧
    (∃ n : Fin 512, ∃ st : Fmt, ∃ f : Fmt, ∃ lb : Bool, ∃ vp : Option (W32 × Fmt), ∃ ltc : Option (BitVec 27), ∃ vitc : Option (BitVec 27), ∃ s : State, s.laneProto n = 2 ∧ s.flag (R1 .SDI_STAT n) F.SDI_STAT_RASTER_LOCK = true ∧ ((∃ w, vp = some (w, f) ∧ narrow f.raster = narrow st.raster ∧ f.rate = st.rate ∧ f.il = st.il ∧ f.seg = st.seg ∧ s.sdiCarries n f = true) ∨ (f = s.derivedFmt n st ∧ ∀ w g, vp = some (w, g) → s.sdiCarries n g = false ∨ g.rate ≠ st.rate ∨ g.il ≠ st.il)) ∧ f.code < 16384) ∧
    (∃ n : Fin 512, ∃ line : Nat, ∃ count : Nat, ∃ ok : Bool, ∃ v : List (BitVec 16), ∃ ago : Nat, ∃ s : State, s.laneProto n = 2 ∧ s.flag (R1 .SDI_STAT n) F.SDI_STAT_RASTER_LOCK = true) ∧
    (∃ n : Fin 512, ∃ line : Nat, ∃ count : Nat, ∃ ok : Bool, ∃ v : List (BitVec 16), ∃ ago : Nat, ∃ x : Nat, ∃ i : InPlan, ∃ f : Fmt, ∃ s : State, s.laneProto n = 2 ∧ s.flag (R1 .SDI_STAT n) F.SDI_STAT_RASTER_LOCK = true ∧ s.flag (R1 .LANE_CFG n) F.LANE_CFG_PAIR = false ∧ s.laneReceives n = true ∧ s.inPlan = [(x, i)] ∧ i.slots = 1 ∧ i.pos (laneBank n) = some (.sdi n) ∧ (s.copyRx x (laneBank n)).present = true ∧ (s.sdi.at n).conv = true ∧ (s.sdi.at n).prev = some f ∧ 1 < count) ∧
    (∃ n : Fin 512, ∃ hz : Bool, ∃ ch : Bool, ∃ pos : Nat, ∃ ws : List (BitVec 10), ∃ s : State, s.laneProto n = 2 ∧ s.flag (R1 .SDI_STAT n) F.SDI_STAT_RASTER_LOCK = true ∧ ancSumOk (ws.map (·.toNat)) = true) ∧
    (∃ n : Fin 512, ∃ hz : Bool, ∃ ch : Bool, ∃ pos : Nat, ∃ ws : List (BitVec 10), ∃ s : State, s.laneProto n = 2 ∧ s.flag (R1 .SDI_STAT n) F.SDI_STAT_RASTER_LOCK = true ∧ ancSumOk (ws.map (·.toNat)) = false) ∧
    (∃ n : Fin 512, ∃ line : Nat, ∃ count : Nat, ∃ ok : Bool, ∃ hz : Bool, ∃ ch : Bool, ∃ v : List (BitVec 16), ∃ ago : Nat, ∃ pos : Nat, ∃ ws : List (BitVec 10), ∃ s : State, s.flag (R1 .SDI_STAT n) F.SDI_STAT_RASTER_LOCK = false) ∧
    (∃ n : Fin 512, ∃ rate : Fin 11, ∃ s : State, s.laneProto n = 2 ∧ (rate = 0 ∨ (rate.val + 4) % 5 + 1 ≤ s.sdiPlanned n) ∧ s.fld (R1 .SDI_STAT n) F.SDI_STAT_RATE ≠ rate) ∧
    (∃ n : Fin 512, ∃ s : State, s.laneProto n = 2 ∧ s.flag (R1 .LANE_CFG n) F.LANE_CFG_PAIR = true) ∧
    (∃ n : Fin 512, ∃ s : State, s.flag (R1 .LANE_CFG n) F.LANE_CFG_PAIR = false) ∧
    (∃ n : Fin 512, ∃ p : Nat × OutPlan, ∃ s : State, s.laneProto n = 2 ∧ s.transmitting n = true ∧ (s.laneOutputs n).head? = some p) ∧
    (∃ n : Fin 512, ∃ s : State, s.transmitting n = false) ∧
    (∃ n : Fin 512, ∃ fa : UnitFault, ∃ fb : UnitFault, ∃ k : Nat, ∃ d : Nat, ∃ f : Int, ∃ x : Side, ∃ s : State, ∃ p : State, p = s.openInterval n ∧ s.transmitting n = true ∧ s.inTest n = false ∧ p.laneProto n = 2 ∧ p.holder = some x ∧ (p.laneOutputs n).head?.map lowOf = some d ∧ (p.sluices.at n).frame = some f ∧ (p.sluices.at n).pair = 0) :=
  ⟨⟨511, quad 2 0, by decide +kernel, by decide +kernel, by decide +kernel⟩,
   ⟨511, sdi, by decide +kernel⟩,
   ⟨511, { code := 0x891 }, sdi.derivedFmt 511 { code := 0x891 }, true, none, some 5, none, sdi, by decide +kernel, by decide +kernel, Or.inr ⟨by decide +kernel, by intro w g h; cases h⟩, by decide +kernel⟩,
   ⟨511, 5, 1, false, [], 0, sdi, by decide +kernel, by decide +kernel⟩,
   ⟨511, 5, 2, false, [], 70000, 1023, { slots := 1, srcW := some (.sdi 511) }, { code := 0x891 }, { sdi with inPlan := [(1023, { slots := 1, srcW := some (.sdi 511) })], inRx := fed.inRx, sdi := [(511, { conv := true, prev := some { code := 0x891 } })] }, by decide +kernel, by decide +kernel, by decide +kernel, by decide +kernel, by decide +kernel, by decide +kernel, by decide +kernel, by decide +kernel, by decide +kernel, by decide +kernel, by decide +kernel⟩,
   ⟨511, true, false, 5, [0x161, 0x101, 0x200, 0x262], sdi, by decide +kernel, by decide +kernel, by decide +kernel⟩,
   ⟨511, true, false, 5, [0x161, 0x101, 0x200, 0x061], sdi, by decide +kernel, by decide +kernel, by decide +kernel⟩,
   ⟨511, 5, 6, false, true, false, [], 0, 0, [], quad 2 0, by decide +kernel⟩,
   ⟨511, 8, sdi.fields [(R1 .LANE_CFG 511, F.LANE_CFG_RATE, 12)], by decide +kernel, by decide +kernel, by decide +kernel⟩,
   ⟨511, sdi.fields [(R1 .LANE_CFG 511, F.LANE_CFG_PAIR, 1)], by decide +kernel, by decide +kernel⟩,
   ⟨511, sdi, by decide +kernel⟩,
   ⟨511, (1023, { fmt := { code := 0x891 }, slots := 1, txW := some (.sdi 511) }), { sdi.fields [(R1 .LANE_STAT 511, ⟨5, 1⟩, 1)] with outPlan := [(1023, { fmt := { code := 0x891 }, slots := 1, txW := some (.sdi 511) })] }, by decide +kernel, by decide +kernel, by decide +kernel⟩,
   ⟨511, sdi, by decide +kernel⟩,
   ⟨511, {}, {}, 1, 1023, 3, .B, { sdi.fields [(R1 .LANE_STAT 511, ⟨5, 1⟩, 1), (R0 .RFE_STATE, ⟨0, 2⟩, 2)] with outPlan := [(1023, { fmt := { code := 0x891 }, slots := 1, txW := some (.sdi 511) })], sluices := [(511, { frame := some 3 })] }, ({ sdi.fields [(R1 .LANE_STAT 511, ⟨5, 1⟩, 1), (R0 .RFE_STATE, ⟨0, 2⟩, 2)] with outPlan := [(1023, { fmt := { code := 0x891 }, slots := 1, txW := some (.sdi 511) })], sluices := [(511, { frame := some 3 })] } : State).openInterval 511, by decide +kernel, by decide +kernel, by decide +kernel, by decide +kernel, by decide +kernel, by decide +kernel, by decide +kernel, by decide +kernel⟩⟩

/-- Every clause of Obligations.EthernetPortsReceiveCountAndPause has a case. -/
theorem witness_EthernetPortsReceiveCountAndPause :
    (∃ i : Fin 130, ∃ bs : List Byte, ∃ inv : Bool, ∃ frac : Fin 262144, ∃ corr : Nat, ∃ uncorr : Nat, ∃ s : State, i.val < 128 ∧ (s.portPresent i = false ∨ s.portUp i = false)) ∧
    (∃ i : Fin 130, ∃ bs : List Byte, ∃ frac : Fin 262144, ∃ corr : Nat, ∃ uncorr : Nat, ∃ s : State, i.val < 128 ∧ s.portPresent i = true ∧ s.portUp i = true) ∧
    (∃ i : Fin 130, ∃ bs : List Byte, ∃ frac : Fin 262144, ∃ corr : Nat, ∃ uncorr : Nat, ∃ s : State, ∃ len, i.val < 128 ∧ s.portPresent i = true ∧ s.portUp i = true ∧ len = bs.length - (if hasTag bs then 4 else 0) ∧ (len < 64 ∨ 9216 < len)) ∧
    (∃ i : Fin 130, ∃ bs : List Byte, ∃ frac : Fin 262144, ∃ corr : Nat, ∃ uncorr : Nat, ∃ s : State, ∃ len, i.val < 128 ∧ s.portPresent i = true ∧ s.portUp i = true ∧ len = bs.length - (if hasTag bs then 4 else 0) ∧ 64 ≤ len ∧ len ≤ 9216 ∧ fcsOk bs = false ∧ s.flag (R1 .ETH_PORT_CFG i) F.ETH_PORT_CFG_DELIVER_BAD = false) ∧
    (∃ i : Fin 130, ∃ bs : List Byte, ∃ frac : Fin 262144, ∃ corr : Nat, ∃ uncorr : Nat, ∃ s : State, ∃ len, i.val < 128 ∧ s.portPresent i = true ∧ s.portUp i = true ∧ len = bs.length - (if hasTag bs then 4 else 0) ∧ 64 ≤ len ∧ len ≤ 9216 ∧ fcsOk bs = true ∧ s.accepts i bs = true ∧ etherType bs ≠ 0x8808 ∧ isIpv4 bs = false ∧ s.crxAdmits i bs = false) ∧
    (∃ i : Fin 130, ∃ bs : List Byte, ∃ frac : Fin 262144, ∃ corr : Nat, ∃ uncorr : Nat, ∃ s : State, ∃ len, i.val < 128 ∧ s.portPresent i = true ∧ s.portUp i = true ∧ len = bs.length - (if hasTag bs then 4 else 0) ∧ 64 ≤ len ∧ len ≤ 9216 ∧ fcsOk bs = true ∧ s.accepts i bs = true ∧ etherType bs ≠ 0x8808 ∧ isIpv4 bs = false ∧ s.crxAdmits i bs = true ∧ ptpOff bs = none ∧ crxUsed (s.macs.at i).crx + 4 + (bs.length - 4 + 3) / 4 ≤ crxWords) ∧
    (∃ i : Fin 130, ∃ bs : List Byte, ∃ pl : List Byte, ∃ frac : Fin 262144, ∃ corr : Nat, ∃ uncorr : Nat, ∃ len : Nat, ∃ f : Nat, ∃ seq : Nat, ∃ h : SeqTrack × Nat × Bool, ∃ s : State, i.val < 128 ∧ s.portPresent i = true ∧ s.portUp i = true ∧ len = bs.length - (if hasTag bs then 4 else 0) ∧ 64 ≤ len ∧ len ≤ 9216 ∧ fcsOk bs = true ∧ s.accepts i bs = true ∧ etherType bs ≠ 0x8808 ∧ isUdp bs = true ∧ ipOk bs = true ∧ s.classify i (ipDst bs) (ipSrc bs) (udpDst bs) = some f ∧ s.engStarted 3 (f / 128) = true ∧ pl = udpPayload bs ∧ seq = (if s.rxfType f = 1 then be16 pl (rtpHead pl) * 65536 + be16 pl 2 else be16 pl 2) ∧ h = ((s.rxFlows.at f).track (portBank i)).arrive (seqMod (s.rxfType f)) seq) ∧
    (∃ g : Fin 2, ∃ i : Fin 130, ∃ k : Fin 8, ∃ bs : List Byte, ∃ frac : Fin 262144, ∃ corr : Nat, ∃ uncorr : Nat, ∃ s : State, i.val = 128 + g.val ∧ s.portPresent i = true ∧ fcsOk bs = true ∧ s.wakeMatches g k bs = true) ∧
    (∃ r : Req, ∃ i : Fin 130, ∃ be : Fin 16, ∃ s : State, ∃ a, ∃ b, ∃ l, ∃ rest, s.granted r .lanes ∧ s.holdsPort r i = true ∧ (s.macs.at i).crx = (a :: b :: l) :: rest) ∧
    (∃ r : Req, ∃ i : Fin 130, ∃ be : Fin 16, ∃ s : State, ∃ a, ∃ rest, s.granted r .lanes ∧ s.holdsPort r i = true ∧ (s.macs.at i).crx = [a] :: rest) ∧
    (∃ r : Req, ∃ i : Fin 130, ∃ be : Fin 16, ∃ s : State, s.granted r .lanes ∧ s.holdsPort r i = true ∧ (s.macs.at i).crx = []) ∧
    (∃ i : Fin 130, ∃ q : Fin 65536, ∃ s : State, s.portPresent i = true ∧ s.portUp i = true) ∧
    (∃ i : Fin 130, ∃ s : State, s.paused i = true ∧ (s.macs.at i).pauseEnd ≤ s.tick) ∧
    (∃ i : Fin 130, ∃ s : State, (s.paused i = false ∨ s.tick < (s.macs.at i).pauseEnd)) ∧
    (∃ i : Fin 130, ∃ s : State, s.portPresent i = true ∧ s.portUp i = false ∧ (s.portPlan.at i).lanes.all s.laneReceives = true ∧ s.bankLost.contains (if i.val < 128 then portBank i else .E) = false) ∧
    (∃ i : Fin 130, ∃ s : State, s.portPresent i = true ∧ (s.portUp i = true ∨ (s.portPlan.at i).lanes.all s.laneReceives = false ∨ s.bankLost.contains (if i.val < 128 then portBank i else .E) = true)) ∧
    (∃ i : Fin 130, ∃ s : State, ∃ loc : Bool, ∃ rem : Bool, s.portPresent i = true) ∧
    (∃ r : Req, ∃ i : Fin 130, ∃ s : State, s.granted r .lanes ∧ s.portPresent i = true) :=
  ⟨⟨127, bcast, false, 0, 1, 0xFFFFFFFF, eth.fields [(R1 .ETH_PORT_STAT 127, ⟨0, 1⟩, 0)], by decide +kernel, by decide +kernel⟩,
   ⟨127, bcast, 262143, 1, 0xFFFFFFFF, eth.fields [(R1 .ETH_PORT_STAT 127, F.ETH_PORT_STAT_FEC, 1)], by decide +kernel, by decide +kernel, by decide +kernel⟩,
   ⟨127, bcast.drop 1, 0, 1, 0xFFFFFFFF, eth, 63, by decide +kernel, by decide +kernel, by decide +kernel, by decide +kernel, by decide +kernel⟩,
   ⟨127, bcast.take 63 ++ [0], 0, 1, 0xFFFFFFFF, eth, 64, by decide +kernel, by decide +kernel, by decide +kernel, by decide +kernel, by decide +kernel, by decide +kernel, by decide +kernel, by decide +kernel⟩,
   ⟨127, bcast, 0, 1, 0xFFFFFFFF, eth.fields [(R1 .ETH_PORT_CFG 127, F.ETH_PORT_CFG_CRX_BCAST, 0)], 64, by decide +kernel, by decide +kernel, by decide +kernel, by decide +kernel, by decide +kernel, by decide +kernel, by decide +kernel, by decide +kernel, by decide +kernel, by decide +kernel, by decide +kernel⟩,
   ⟨127, bcast, 0, 1, 0xFFFFFFFF, eth.fields [(R1 .ETH_PORT_CFG 127, F.ETH_PORT_CFG_CRX_BCAST, 1)], 64, by decide +kernel, by decide +kernel, by decide +kernel, by decide +kernel, by decide +kernel, by decide +kernel, by decide +kernel, by decide +kernel, by decide +kernel, by decide +kernel, by decide +kernel, by decide +kernel, by decide +kernel⟩,
   ⟨127, flowFrame, udpPayload flowFrame, 0, 0, 0, 100, 4095, 40, ({ next := some 9, held := [40] }, 4, false), { eth.fields [(R1 .ETH_RXF_CFG 4095, F.ETH_RXF_CFG_EN_W, 1), (R1 .ETH_RXF_CFG 4095, F.ETH_RXF_CFG_PORT_W, 63), (R1 .ETH_RXF_CFG 4095, F.ETH_RXF_CFG_TYPE, 3), (R1 .ETH_RXF_DST_W 4095, ⟨0, 32⟩, 0xEF000001), (R1 .ETH_RXF_UDP 4095, ⟨16, 16⟩, 5004)] with rxFlows := [(4095, { w := { next := some 5, held := [] } })] }, by decide +kernel, by decide +kernel, by decide +kernel, by decide +kernel, by decide +kernel, by decide +kernel, by decide +kernel, by decide +kernel, by decide +kernel, by decide +kernel, by decide +kernel, by decide +kernel, by decide +kernel, by decide +kernel, by decide +kernel, by decide +kernel⟩,
   ⟨1, 129, 7, bcast, 0, 1, 0xFFFFFFFF, eth.fields [(({ name := .ETH_WAKE_CTL, i := 1, j := 7 } : RegKey), F.ETH_WAKE_CTL_ACTION, 2), (({ name := .ETH_WAKE_CTL, i := 1, j := 7 } : RegKey), F.ETH_WAKE_CTL_CRC, 0xFFFF)], by decide +kernel, by decide +kernel, by decide +kernel, by decide +kernel⟩,
   ⟨.hp0, 129, 15, { eth with macs := [(129, { crx := [[1, 2, 3], [4]] })] }, 1, 2, [3], [[4]], by simp only [State.granted]; decide +kernel, by decide +kernel, by decide +kernel⟩,
   ⟨.hp0, 129, 15, { eth with macs := [(129, { crx := [[3], [4]], partly := true })] }, 3, [[4]], by simp only [State.granted]; decide +kernel, by decide +kernel, by decide +kernel⟩,
   ⟨.hp0, 129, 15, eth, by simp only [State.granted]; decide +kernel, by decide +kernel, by decide +kernel⟩,
   ⟨129, 65535, eth.fields [(R1 .ETH_PORT_CFG 129, F.ETH_PORT_CFG_PAUSE_EN, 1)], by decide +kernel, by decide +kernel⟩,
   ⟨129, { eth.fields [(R1 .ETH_PORT_STAT 129, F.ETH_PORT_STAT_PAUSED, 1)] with tick := 5, macs := [(129, { pauseEnd := 5 })] }, by decide +kernel, by decide +kernel⟩,
   ⟨129, { eth.fields [(R1 .ETH_PORT_STAT 129, F.ETH_PORT_STAT_PAUSED, 1)] with tick := 4, macs := [(129, { pauseEnd := 5 })] }, by decide +kernel⟩,
   ⟨127, eth.fields [(R1 .ETH_PORT_STAT 127, ⟨0, 1⟩, 0)], by decide +kernel, by decide +kernel, by decide +kernel, by decide +kernel⟩,
   ⟨129, eth, by decide +kernel, by decide +kernel⟩,
   ⟨127, { eth with inPlan := [(5, { srcW := some (.flow 0) })], inRx := fed.inRx }, true, false, by decide +kernel⟩,
   ⟨.hp0, 129, eth, by simp only [State.granted]; decide +kernel, by decide +kernel⟩⟩

/-- Every clause of Obligations.EthernetPacketsAndControlFramesLeaveInOrder has a case. -/
theorem witness_EthernetPacketsAndControlFramesLeaveInOrder :
    (∃ i : Fin 128, ∃ s : State, ∃ p : State, s.portPresent i = true ∧ (s.macs.at i).busy ≤ s.tick * tickU ∧ (s.macs.at i).gapEnd ≤ s.tick ∧ p = s.buildPort i) ∧
    (∃ i : Fin 128, ∃ s : State, ∃ p : State, s.portPresent i = true ∧ (s.macs.at i).busy ≤ s.tick * tickU ∧ (s.macs.at i).gapEnd ≤ s.tick ∧ p = s.buildPort i ∧ firstLaunch (p.launchable (portBank i) (p.portFlows i)) = none) ∧
    (∃ i : Fin 128, ∃ s : State, ∃ p : State, ∃ l : Launch, ∃ bs : List Byte, ∃ dur : Nat, s.portPresent i = true ∧ (s.macs.at i).busy ≤ s.tick * tickU ∧ (s.macs.at i).gapEnd ≤ s.tick ∧ p = s.buildPort i ∧ firstLaunch (p.launchable (portBank i) (p.portFlows i)) = some l ∧ bs = p.launchBytes (p.holder.getD .A) i (portBank i) l ∧ dur = p.wireTime i (bs.length + 4) ∧ (s.tick / s.ctrlPeriod i + 1) * s.ctrlPeriod i * tickU < s.tick * tickU + dur) ∧
    (∃ i : Fin 128, ∃ s : State, ∃ p : State, ∃ l : Launch, ∃ bs : List Byte, ∃ dur : Nat, s.portPresent i = true ∧ (s.macs.at i).busy ≤ s.tick * tickU ∧ (s.macs.at i).gapEnd ≤ s.tick ∧ p = s.buildPort i ∧ firstLaunch (p.launchable (portBank i) (p.portFlows i)) = some l ∧ bs = p.launchBytes (p.holder.getD .A) i (portBank i) l ∧ dur = p.wireTime i (bs.length + 4) ∧ s.tick * tickU + dur ≤ (s.tick / s.ctrlPeriod i + 1) * s.ctrlPeriod i * tickU ∧ s.portUp i = true ∧ (∀ n ∈ (s.portPlan.at i).lanes, s.flag (R1 .SLU_STAT n) F.SLU_STAT_GAP = false)) ∧
    (∃ i : Fin 128, ∃ s : State, ∃ p : State, ∃ l : Launch, ∃ bs : List Byte, ∃ dur : Nat, s.portPresent i = true ∧ (s.macs.at i).busy ≤ s.tick * tickU ∧ (s.macs.at i).gapEnd ≤ s.tick ∧ p = s.buildPort i ∧ firstLaunch (p.launchable (portBank i) (p.portFlows i)) = some l ∧ bs = p.launchBytes (p.holder.getD .A) i (portBank i) l ∧ dur = p.wireTime i (bs.length + 4) ∧ s.tick * tickU + dur ≤ (s.tick / s.ctrlPeriod i + 1) * s.ctrlPeriod i * tickU ∧ (s.portUp i = false ∨ (∃ n ∈ (s.portPlan.at i).lanes, s.flag (R1 .SLU_STAT n) F.SLU_STAT_GAP = true))) ∧
    (∃ i : Fin 128, ∃ s : State, (s.portPresent i = false ∨ s.tick * tickU < (s.macs.at i).busy ∨ s.tick < (s.macs.at i).gapEnd)) ∧
    (∃ i : Fin 128, ∃ s : State, s.portPresent i = true ∧ s.tick % s.ctrlPeriod i = 0) ∧
    (∃ i : Fin 128, ∃ s : State, (s.portPresent i = false ∨ s.tick % s.ctrlPeriod i ≠ 0)) ∧
    (∃ r : Req, ∃ i : Fin 130, ∃ s : State, ∃ v : W32, s.granted r .lanes ∧ s.holdsPort r i = true ∧ s.portPresent i = true) ∧
    (∃ r : Req, ∃ i : Fin 130, ∃ s : State, s.granted r .lanes ∧ s.holdsPort r i = true ∧ s.portPresent i = true ∧ s.ctxBad i (s.macs.at i).ctxOpen = true) ∧
    (∃ r : Req, ∃ i : Fin 130, ∃ s : State, s.granted r .lanes ∧ s.holdsPort r i = true ∧ s.portPresent i = true ∧ s.ctxBad i (s.macs.at i).ctxOpen = false) ∧
    (∃ r : Req, ∃ i : Fin 130, ∃ s : State, s.granted r .lanes ∧ s.holdsPort r i = true ∧ s.portPresent i = true) ∧
    (∃ i : Fin 130, ∃ frac : Fin 262144, ∃ ce : List W32, ∃ rest : List (List W32), ∃ dur : Nat, ∃ s : State, (s.macs.at i).ctx = ce :: rest ∧ dur = s.wireTime i (((ce.drop 1).headD 0).toNat % 2 ^ 14 + 4) ∧ s.portUp i = true ∧ (s.macs.at i).busy ≤ s.tick * tickU ∧ (if i.val < 128 then s.tick * tickU + dur ≤ (s.macs.at i).gapEnd * tickU ∧ s.tick < (s.macs.at i).gapEnd else s.paused i = false) ∧ (∀ t₀, ctxLaunch (ce.drop 1) = some t₀ → sext 64 (t₀ + 2 ^ 64 - s.tbWhole (ctxTb (ce.drop 1))) ≤ 0)) ∧
    (∃ i : Fin 130, ∃ frac : Fin 262144, ∃ ce : List W32, ∃ rest : List (List W32), ∃ dur : Nat, ∃ s : State, ∃ t₀, (s.macs.at i).ctx = ce :: rest ∧ dur = s.wireTime i (((ce.drop 1).headD 0).toNat % 2 ^ 14 + 4) ∧ s.portUp i = true ∧ (s.macs.at i).busy ≤ s.tick * tickU ∧ (if i.val < 128 then s.tick * tickU + dur ≤ (s.macs.at i).gapEnd * tickU ∧ s.tick < (s.macs.at i).gapEnd else s.paused i = false) ∧ ctxLaunch (ce.drop 1) = some t₀ ∧ 0 < sext 64 (t₀ + 2 ^ 64 - s.tbWhole (ctxTb (ce.drop 1)))) ∧
    (∃ i : Fin 130, ∃ frac : Fin 262144, ∃ s : State, ((s.macs.at i).ctx = [] ∨ s.portUp i = false)) :=
  ⟨⟨127, eth, eth.buildPort 127, by decide +kernel, by decide +kernel, by decide +kernel, by decide +kernel⟩,
   ⟨127, eth, eth.buildPort 127, by decide +kernel, by decide +kernel, by decide +kernel, by decide +kernel, by decide +kernel⟩,
   ⟨127, { (eth.fields [(R1 .ETH_TXF_CFG 4095, F.ETH_TXF_CFG_TYPE, 1)]) with tick := eth.ctrlPeriod 127 - 1, txFlows := [(4095, { q := [{ launch := 0, ready := 0, seq := 7, rtp := 9, marker := true, par := { cfg := putF 0 F.ETH_TXF_CFG_EN_W 1 }, head := [], size := 4 }] })], txBufs := [(8190, { fifo := [1, 2, 3, 4] })] }, ({ (eth.fields [(R1 .ETH_TXF_CFG 4095, F.ETH_TXF_CFG_TYPE, 1)]) with tick := eth.ctrlPeriod 127 - 1, txFlows := [(4095, { q := [{ launch := 0, ready := 0, seq := 7, rtp := 9, marker := true, par := { cfg := putF 0 F.ETH_TXF_CFG_EN_W 1 }, head := [], size := 4 }] })], txBufs := [(8190, { fifo := [1, 2, 3, 4] })] } : State).buildPort 127, { flow := 4095, at_ := 0, bytes := 4, type := 1 }, (({ (eth.fields [(R1 .ETH_TXF_CFG 4095, F.ETH_TXF_CFG_TYPE, 1)]) with tick := eth.ctrlPeriod 127 - 1, txFlows := [(4095, { q := [{ launch := 0, ready := 0, seq := 7, rtp := 9, marker := true, par := { cfg := putF 0 F.ETH_TXF_CFG_EN_W 1 }, head := [], size := 4 }] })], txBufs := [(8190, { fifo := [1, 2, 3, 4] })] } : State).buildPort 127).launchBytes .A 127 .W { flow := 4095, at_ := 0, bytes := 4, type := 1 }, (({ (eth.fields [(R1 .ETH_TXF_CFG 4095, F.ETH_TXF_CFG_TYPE, 1)]) with tick := eth.ctrlPeriod 127 - 1, txFlows := [(4095, { q := [{ launch := 0, ready := 0, seq := 7, rtp := 9, marker := true, par := { cfg := putF 0 F.ETH_TXF_CFG_EN_W 1 }, head := [], size := 4 }] })], txBufs := [(8190, { fifo := [1, 2, 3, 4] })] } : State).buildPort 127).wireTime 127 (((({ (eth.fields [(R1 .ETH_TXF_CFG 4095, F.ETH_TXF_CFG_TYPE, 1)]) with tick := eth.ctrlPeriod 127 - 1, txFlows := [(4095, { q := [{ launch := 0, ready := 0, seq := 7, rtp := 9, marker := true, par := { cfg := putF 0 F.ETH_TXF_CFG_EN_W 1 }, head := [], size := 4 }] })], txBufs := [(8190, { fifo := [1, 2, 3, 4] })] } : State).buildPort 127).launchBytes .A 127 .W { flow := 4095, at_ := 0, bytes := 4, type := 1 }).length + 4), by decide +kernel, by decide +kernel, by decide +kernel, rfl, by decide +kernel, rfl, rfl, by decide +kernel⟩,
   ⟨127, { (eth.fields [(R1 .ETH_TXF_CFG 4095, F.ETH_TXF_CFG_TYPE, 1)]) with tick := eth.ctrlPeriod 127, txFlows := [(4095, { q := [{ launch := 0, ready := 0, seq := 7, rtp := 9, marker := true, par := { cfg := putF 0 F.ETH_TXF_CFG_EN_W 1 }, head := [], size := 4 }] })], txBufs := [(8190, { fifo := [1, 2, 3, 4] })] }, ({ (eth.fields [(R1 .ETH_TXF_CFG 4095, F.ETH_TXF_CFG_TYPE, 1)]) with tick := eth.ctrlPeriod 127, txFlows := [(4095, { q := [{ launch := 0, ready := 0, seq := 7, rtp := 9, marker := true, par := { cfg := putF 0 F.ETH_TXF_CFG_EN_W 1 }, head := [], size := 4 }] })], txBufs := [(8190, { fifo := [1, 2, 3, 4] })] } : State).buildPort 127, { flow := 4095, at_ := 0, bytes := 4, type := 1 }, (({ (eth.fields [(R1 .ETH_TXF_CFG 4095, F.ETH_TXF_CFG_TYPE, 1)]) with tick := eth.ctrlPeriod 127, txFlows := [(4095, { q := [{ launch := 0, ready := 0, seq := 7, rtp := 9, marker := true, par := { cfg := putF 0 F.ETH_TXF_CFG_EN_W 1 }, head := [], size := 4 }] })], txBufs := [(8190, { fifo := [1, 2, 3, 4] })] } : State).buildPort 127).launchBytes .A 127 .W { flow := 4095, at_ := 0, bytes := 4, type := 1 }, (({ (eth.fields [(R1 .ETH_TXF_CFG 4095, F.ETH_TXF_CFG_TYPE, 1)]) with tick := eth.ctrlPeriod 127, txFlows := [(4095, { q := [{ launch := 0, ready := 0, seq := 7, rtp := 9, marker := true, par := { cfg := putF 0 F.ETH_TXF_CFG_EN_W 1 }, head := [], size := 4 }] })], txBufs := [(8190, { fifo := [1, 2, 3, 4] })] } : State).buildPort 127).wireTime 127 (((({ (eth.fields [(R1 .ETH_TXF_CFG 4095, F.ETH_TXF_CFG_TYPE, 1)]) with tick := eth.ctrlPeriod 127, txFlows := [(4095, { q := [{ launch := 0, ready := 0, seq := 7, rtp := 9, marker := true, par := { cfg := putF 0 F.ETH_TXF_CFG_EN_W 1 }, head := [], size := 4 }] })], txBufs := [(8190, { fifo := [1, 2, 3, 4] })] } : State).buildPort 127).launchBytes .A 127 .W { flow := 4095, at_ := 0, bytes := 4, type := 1 }).length + 4), by decide +kernel, by decide +kernel, by decide +kernel, rfl, by decide +kernel, rfl, rfl, by decide +kernel, by decide +kernel, by decide +kernel⟩,
   ⟨127, { (eth.fields [(R1 .ETH_TXF_CFG 4095, F.ETH_TXF_CFG_TYPE, 1), (R1 .SLU_STAT 511, F.SLU_STAT_GAP, 1)]) with tick := eth.ctrlPeriod 127, txFlows := [(4095, { q := [{ launch := 0, ready := 0, seq := 7, rtp := 9, marker := true, par := { cfg := putF 0 F.ETH_TXF_CFG_EN_W 1 }, head := [], size := 4 }] })], txBufs := [(8190, { fifo := [1, 2, 3, 4] })] }, ({ (eth.fields [(R1 .ETH_TXF_CFG 4095, F.ETH_TXF_CFG_TYPE, 1), (R1 .SLU_STAT 511, F.SLU_STAT_GAP, 1)]) with tick := eth.ctrlPeriod 127, txFlows := [(4095, { q := [{ launch := 0, ready := 0, seq := 7, rtp := 9, marker := true, par := { cfg := putF 0 F.ETH_TXF_CFG_EN_W 1 }, head := [], size := 4 }] })], txBufs := [(8190, { fifo := [1, 2, 3, 4] })] } : State).buildPort 127, { flow := 4095, at_ := 0, bytes := 4, type := 1 }, (({ (eth.fields [(R1 .ETH_TXF_CFG 4095, F.ETH_TXF_CFG_TYPE, 1), (R1 .SLU_STAT 511, F.SLU_STAT_GAP, 1)]) with tick := eth.ctrlPeriod 127, txFlows := [(4095, { q := [{ launch := 0, ready := 0, seq := 7, rtp := 9, marker := true, par := { cfg := putF 0 F.ETH_TXF_CFG_EN_W 1 }, head := [], size := 4 }] })], txBufs := [(8190, { fifo := [1, 2, 3, 4] })] } : State).buildPort 127).launchBytes .A 127 .W { flow := 4095, at_ := 0, bytes := 4, type := 1 }, (({ (eth.fields [(R1 .ETH_TXF_CFG 4095, F.ETH_TXF_CFG_TYPE, 1), (R1 .SLU_STAT 511, F.SLU_STAT_GAP, 1)]) with tick := eth.ctrlPeriod 127, txFlows := [(4095, { q := [{ launch := 0, ready := 0, seq := 7, rtp := 9, marker := true, par := { cfg := putF 0 F.ETH_TXF_CFG_EN_W 1 }, head := [], size := 4 }] })], txBufs := [(8190, { fifo := [1, 2, 3, 4] })] } : State).buildPort 127).wireTime 127 (((({ (eth.fields [(R1 .ETH_TXF_CFG 4095, F.ETH_TXF_CFG_TYPE, 1), (R1 .SLU_STAT 511, F.SLU_STAT_GAP, 1)]) with tick := eth.ctrlPeriod 127, txFlows := [(4095, { q := [{ launch := 0, ready := 0, seq := 7, rtp := 9, marker := true, par := { cfg := putF 0 F.ETH_TXF_CFG_EN_W 1 }, head := [], size := 4 }] })], txBufs := [(8190, { fifo := [1, 2, 3, 4] })] } : State).buildPort 127).launchBytes .A 127 .W { flow := 4095, at_ := 0, bytes := 4, type := 1 }).length + 4), by decide +kernel, by decide +kernel, by decide +kernel, rfl, by decide +kernel, rfl, rfl, by decide +kernel, by decide +kernel⟩,
   ⟨127, { eth with tick := 4, macs := [(127, { gapEnd := 5 })] }, by decide +kernel⟩,
   ⟨127, eth.atTick (eth.ctrlPeriod 127), by decide +kernel, by decide +kernel⟩,
   ⟨127, eth.atTick (eth.ctrlPeriod 127 - 1), by decide +kernel⟩,
   ⟨.hp0, 129, eth, 0xFFFFFFFF, by simp only [State.granted]; decide +kernel, by decide +kernel, by decide +kernel⟩,
   ⟨.hp0, 129, { eth with macs := [(129, { ctxOpen := [61] })] }, by simp only [State.granted]; decide +kernel, by decide +kernel, by decide +kernel, by decide +kernel⟩,
   ⟨.hp0, 129, { eth with macs := [(129, { ctxOpen := [4, 7] })] }, by simp only [State.granted]; decide +kernel, by decide +kernel, by decide +kernel, by decide +kernel⟩,
   ⟨.hp0, 129, { eth with macs := [(129, { ctxOpen := [4, 7] })] }, by simp only [State.granted]; decide +kernel, by decide +kernel, by decide +kernel⟩,
   ⟨129, 262143, [1, 4, 7], [[2, 4, 8]], eth.wireTime 129 8, { eth with macs := [(129, { ctx := [[1, 4, 7], [2, 4, 8]] })] }, by decide +kernel, by decide +kernel, by decide +kernel, by decide +kernel, by decide +kernel, by decide +kernel⟩,
   ⟨129, 0, [1, 0x10004, 5, 0, 7], [], eth.wireTime 129 8, { eth with macs := [(129, { ctx := [[1, 0x10004, 5, 0, 7]] })] }, 5, by decide +kernel, by decide +kernel, by decide +kernel, by decide +kernel, by decide +kernel, by decide +kernel, by decide +kernel⟩,
   ⟨129, 0, eth, by decide +kernel⟩⟩

/-- Every clause of Obligations.NotifiesAndFlowTables has a case. -/
theorem witness_NotifiesAndFlowTables :
    (∃ h : Fin 4, ∃ s : State, (s.rrp.at h).gather ≠ [] ∧ (s.rrp.at h).notify = none ∧ ((s.rrp.at h).since + 100 * usTicks ≤ s.tick ∨ 256 ≤ (s.rrp.at h).gather.length)) ∧
    (∃ h : Fin 4, ∃ s : State, ((s.rrp.at h).gather = [] ∨ (s.rrp.at h).notify.isSome = true ∨ s.tick < (s.rrp.at h).since + 100 * usTicks ∧ (s.rrp.at h).gather.length < 256)) ∧
    (∃ h : Fin 4, ∃ q : Nat, ∃ es : List Nat, ∃ s : State, (s.rrp.at h).notify = some (q, es) ∧ s.tick < (s.rrp.at h).sentAt + msTicks) ∧
    (∃ h : Fin 4, ∃ q : Nat, ∃ es : List Nat, ∃ s : State, (s.rrp.at h).notify = some (q, es) ∧ (s.rrp.at h).sentAt + msTicks ≤ s.tick ∧ (s.rrp.at h).retries < 16) ∧
    (∃ h : Fin 4, ∃ q : Nat, ∃ es : List Nat, ∃ s : State, (s.rrp.at h).notify = some (q, es) ∧ (s.rrp.at h).sentAt + msTicks ≤ s.tick ∧ 16 ≤ (s.rrp.at h).retries) ∧
    (∃ h : Fin 4, ∃ q : Nat, ∃ es : List Nat, ∃ s : State, ∃ seq : Byte, (s.rrp.at h).notify = some (q, es)) ∧
    (∃ r : Req, ∃ f : Fin 4096, ∃ a : FlowAddr, ∃ v : W32, ∃ s : State, s.granted r .lanes ∧ s.holdsRx r f = true ∧ (s.wr (R1 a.reg f) v).rxConflict f = true) ∧
    (∃ r : Req, ∃ f : Fin 4096, ∃ a : FlowAddr, ∃ v : W32, ∃ s : State, s.granted r .lanes ∧ s.holdsRx r f = true ∧ (s.wr (R1 a.reg f) v).rxConflict f = false) ∧
    (∃ r : Req, ∃ f : Fin 4096, ∃ v : W32, ∃ w : W32, ∃ s : State, s.granted r .lanes ∧ s.holdsRx r f = true ∧ w = (s.rd (R1 .ETH_RXF_CFG f) &&& 0xFC01FFE7#32) ||| (v &&& 0x03FE0018#32)) ∧
    (∃ r : Req, ∃ f : Fin 4096, ∃ v : W32, ∃ w : W32, ∃ s : State, s.granted r .lanes ∧ s.holdsTx r f = true ∧ w = (s.rd (R1 .ETH_TXF_CFG f) &&& 0xFC01FFE7#32) ||| (v &&& 0x03FE0018#32)) :=
  ⟨⟨3, { eth with tick := 100 * usTicks, rrp := [(3, { gather := [1535, 0] })] }, by decide +kernel, by decide +kernel, by decide +kernel⟩,
   ⟨3, { eth with tick := 100 * usTicks - 1, rrp := [(3, { gather := [1535, 0] })] }, by decide +kernel⟩,
   ⟨3, 255, [1535], { eth with tick := msTicks - 1, rrp := [(3, { notify := some (255, [1535]) })] }, by decide +kernel, by decide +kernel⟩,
   ⟨3, 255, [1535], { eth with tick := msTicks, rrp := [(3, { notify := some (255, [1535]), retries := 15 })] }, by decide +kernel, by decide +kernel, by decide +kernel⟩,
   ⟨3, 255, [1535], { eth with tick := msTicks, rrp := [(3, { notify := some (255, [1535]), retries := 16 })] }, by decide +kernel, by decide +kernel, by decide +kernel⟩,
   ⟨3, 255, [1535], { eth with rrp := [(3, { notify := some (255, [1535]), retries := 16 })] }, 255, by decide +kernel⟩,
   ⟨.boot, 4095, .udp, 9, eth.fields [(R1 .ETH_RXF_CFG 4095, F.ETH_RXF_CFG_EN_W, 1), (R1 .ETH_RXF_CFG 4094, F.ETH_RXF_CFG_EN_W, 1), (R1 .ETH_RXF_UDP 4094, ⟨0, 32⟩, 9)], by simp only [State.granted]; decide +kernel, by decide +kernel, by decide +kernel⟩,
   ⟨.boot, 4095, .dstW, 9, eth, by simp only [State.granted]; decide +kernel, by decide +kernel, by decide +kernel⟩,
   ⟨.boot, 4095, 0xFFFFFFFF, 0x03FE0018, eth, by simp only [State.granted]; decide +kernel, by decide +kernel, by decide +kernel⟩,
   ⟨.boot, 4094, 0x03FE0018, 0x03FE0018, eth, by simp only [State.granted]; decide +kernel, by decide +kernel, by decide +kernel⟩⟩

/-- Every clause of Obligations.AudioMatrixRoutesChangesAndSamples has a case. -/
theorem witness_AudioMatrixRoutesChangesAndSamples :
    (∃ r : Req, ∃ c : Fin 16384, ∃ v : W32, ∃ s : State, s.granted r .twin ∧ s.holdsAudDst r c = true) ∧
    (∃ s : State, s.audIndexNow < s.audNext) ∧
    (∃ s : State, s.audNext ≤ s.audIndexNow ∧ s.audDst.Pairwise (fun a b => a.1 ≠ b.1)) ∧
    (∃ c : Fin 16384, ∃ since : Nat, ∃ g : Sig, ∃ s : State, (s.audDst.at c).change = .search since g ∧ since + s.audTimeout ≤ s.audNext) ∧
    (∃ c : Fin 16384, ∃ since : Nat, ∃ g : Sig, ∃ s : State, (s.audDst.at c).change = .search since g ∧ s.audNext < since + s.audTimeout) ∧
    (∃ c : Fin 16384, ∃ s : State, (s.audDst.at c).change = .steady) ∧
    (∃ n : Fin 1024, ∃ s : State, (s.audIn.at n).q = []) ∧
    (∃ n : Fin 1024, ∃ p : AudPkt, ∃ rest : List AudPkt, ∃ s : State, (s.audIn.at n).q = p :: rest ∧ ancSumOk p.words = false) ∧
    (∃ n : Fin 1024, ∃ p : AudPkt, ∃ rest : List AudPkt, ∃ s : State, (s.audIn.at n).q = p :: rest ∧ ancSumOk p.words = true ∧ s.audSrc.Pairwise (fun a b => a.1 < b.1)) :=
  ⟨⟨.hp0, 16383, 0xFFFFFFFF, { lit base with audDst := [(16383, { kind := 1, owner := 5 })] }, by simp only [State.granted]; decide +kernel, by decide +kernel⟩,
   ⟨{ base with audNext := 1 }, by decide +kernel⟩,
   ⟨{ base with audDst := [(16383, { kind := 3, owner := 15 })] }, by decide +kernel, by decide +kernel⟩,
   ⟨16383, 0, { src := 5, delay := 1 }, { base with audNext := base.audTimeout, audDst := [(16383, { change := .search 0 { src := 5, delay := 1 } })] }, by decide +kernel, by decide +kernel⟩,
   ⟨16383, 1, { src := 5, delay := 1 }, { base with audNext := base.audTimeout, audDst := [(16383, { change := .search 1 { src := 5, delay := 1 } })] }, by decide +kernel, by decide +kernel⟩,
   ⟨16383, base, by decide +kernel⟩,
   ⟨1023, base, by decide +kernel⟩,
   ⟨1023, { words := [0, 0] }, ([] : List AudPkt), { base with audIn := [(1023, { q := [{ words := [0, 0] }] })] }, by decide +kernel, by decide +kernel⟩,
   ⟨1023, { group := 3, j := 7, words := [0x2E7, 0, 0x2E7] }, ([] : List AudPkt), { base with audIn := [(1023, { q := [{ group := 3, j := 7, words := [0x2E7, 0, 0x2E7] }] })], audSrc := [(16383, { kind := 1, origin := 1023, index := 15 })] }, by decide +kernel, by decide +kernel, by decide +kernel⟩⟩

/-- Every clause of Obligations.TdmPortsArmStartRunAndFault has a case. -/
theorem witness_TdmPortsArmStartRunAndFault :
    (∃ r : Req, ∃ p : Fin 16, ∃ s : State, s.granted r .timing ∧ s.holdsTdm r p = true) ∧
    (∃ r : Req, ∃ p : Fin 16, ∃ s : State, s.granted r .timing ∧ s.holdsTdm r p = true ∧ s.tdmState p ≠ 4) ∧
    (∃ r : Req, ∃ p : Fin 16, ∃ s : State, s.granted r .timing ∧ s.holdsTdm r p = true ∧ s.tdmState p = 4) ∧
    (∃ r : Req, ∃ w : W32, ∃ s : State, s.granted r .timing ∧ s.holdsTrig r = true ∧ (getF w F.TDM_TRIG_SOURCE = 0 ∨ getF w F.TDM_TRIG_SOURCE = 3)) ∧
    (∃ r : Req, ∃ w : W32, ∃ s : State, s.granted r .timing ∧ s.holdsTrig r = true ∧ (getF w F.TDM_TRIG_SOURCE = 1 ∨ getF w F.TDM_TRIG_SOURCE = 2)) ∧
    (∃ at_ : Nat, ∃ s : State, s.trigArmed = true ∧ s.trigSignal = some at_) ∧
    (∃ s : State, (s.trigArmed = false ∨ s.trigSignal = none)) ∧
    (∃ p : Fin 16, ∃ din : List Bool, ∃ k : Nat, ∃ s : State, s.tdmState p = 2 ∧ (s.tdm.at p).start = some k) ∧
    (∃ p : Fin 16, ∃ din : List Bool, ∃ k : Nat, ∃ s : State, s.tdmState p = 1 ∧ (s.tdm.at p).start = some k ∧ s.tdmMaster p = true ∧ 2 * k * 1000000000 * 65536 ≤ tbN16 (s.tbs.at s.audioTb).t * s.audRate * 2) ∧
    (∃ p : Fin 16, ∃ din : List Bool, ∃ s : State, (s.tdmState p = 0 ∨ 3 ≤ s.tdmState p ∨ (s.tdm.at p).start = none ∨ (s.tdmState p = 1 ∧ tbN16 (s.tbs.at s.audioTb).t * s.audRate * 2 + (if s.tdmMaster p then 0 else 1000000000 * 65536) < 2 * (s.tdm.at p).start.getD 0 * 1000000000 * 65536))) ∧
    (∃ p : Fin 16, ∃ s : State, ∃ ago : Nat, s.tdmChecks p = true ∧ ago * s.tdmLen p * s.audRate * 10 < 4 * 1000000000 * nsU) ∧
    (∃ p : Fin 16, ∃ s : State, ∃ at_ : Nat, s.tdmChecks p = true ∧ at_ % s.tdmLen p ≠ 0) ∧
    (∃ p : Fin 16, ∃ s : State, ∃ bclk : Nat, ∃ fs : Nat, s.tdmChecks p = true ∧ 2 * 1000000000 ≤ max bclk fs * s.audRate) ∧
    (∃ p : Fin 16, ∃ s : State, ∃ khz, s.tdmChecks p = true ∧ s.tdmRateOk p khz = true) ∧
    (∃ p : Fin 16, ∃ s : State, ∃ khz, s.tdmChecks p = true ∧ s.tdmRateOk p khz = false) ∧
    (∃ p : Fin 16, ∃ ago : Nat, ∃ at_ : Nat, ∃ bclk : Nat, ∃ fs : Nat, ∃ khz : Nat, ∃ s : State, (s.tdmChecks p = false ∨ 4 * 1000000000 * nsU ≤ ago * s.tdmLen p * s.audRate * 10)) ∧
    (∃ p : Fin 16, ∃ ago : Nat, ∃ at_ : Nat, ∃ bclk : Nat, ∃ fs : Nat, ∃ khz : Nat, ∃ s : State, (s.tdmChecks p = false ∨ at_ % s.tdmLen p = 0)) ∧
    (∃ p : Fin 16, ∃ ago : Nat, ∃ at_ : Nat, ∃ bclk : Nat, ∃ fs : Nat, ∃ khz : Nat, ∃ s : State, (s.tdmChecks p = false ∨ max bclk fs * s.audRate < 2 * 1000000000)) ∧
    (∃ p : Fin 16, ∃ ago : Nat, ∃ at_ : Nat, ∃ bclk : Nat, ∃ fs : Nat, ∃ khz : Nat, ∃ s : State, s.tdmChecks p = false) ∧
    (∃ p : Fin 16, ∃ khz : Nat, ∃ s : State, s.tdmState p = 3 ∧ s.tdmRateOk p khz = true) ∧
    (∃ p : Fin 16, ∃ khz : Nat, ∃ s : State, s.tdmState p = 3 ∧ s.tdmRateOk p khz = false) ∧
    (∃ p : Fin 16, ∃ khz : Nat, ∃ s : State, s.tdmState p ≠ 3) :=
  ⟨⟨.hp0, 15, tdm 4, by simp only [State.granted]; decide +kernel, by decide +kernel⟩,
   ⟨.hp0, 15, tdm 3, by simp only [State.granted]; decide +kernel, by decide +kernel, by decide +kernel⟩,
   ⟨.hp0, 15, tdm 4, by simp only [State.granted]; decide +kernel, by decide +kernel, by decide +kernel⟩,
   ⟨.hp0, 3, tdm 1, by simp only [State.granted]; decide +kernel, by decide +kernel, by decide +kernel⟩,
   ⟨.service, 0x80000002, tdm 1, by simp only [State.granted]; decide +kernel, by decide +kernel, by decide +kernel⟩,
   ⟨5, { tdm 1 with trigArmed := true, trigSignal := some 5, tdm := [(15, {})] }, by decide +kernel, by decide +kernel⟩,
   ⟨{ tdm 1 with trigArmed := true }, by decide +kernel⟩,
   ⟨15, [true], 7, tdm 2, by decide +kernel, by decide +kernel⟩,
   ⟨15, [], 0, { tdm 1 with tdm := [(15, { cfg := 1, start := some 0 })] }, by decide +kernel, by decide +kernel, by decide +kernel, by decide +kernel⟩,
   ⟨15, [], tdm 3, by decide +kernel⟩,
   ⟨15, tdm 2, 3, by decide +kernel, by decide +kernel⟩,
   ⟨15, tdm 2, 15, by decide +kernel, by decide +kernel⟩,
   ⟨15, tdm 2, 0, 41667, by decide +kernel, by decide +kernel⟩,
   ⟨15, tdm 2, 768, by decide +kernel, by decide +kernel⟩,
   ⟨15, tdm 2, 0, by decide +kernel, by decide +kernel⟩,
   ⟨15, 5, 5, 0, 0, 5, tdm 1, by decide +kernel⟩,
   ⟨15, 5, 5, 0, 0, 5, tdm 1, by decide +kernel⟩,
   ⟨15, 5, 5, 0, 0, 5, tdm 1, by decide +kernel⟩,
   ⟨15, 5, 5, 0, 0, 5, tdm 1, by decide +kernel⟩,
   ⟨15, 768, tdm 3, by decide +kernel, by decide +kernel⟩,
   ⟨15, 0, tdm 3, by decide +kernel, by decide +kernel⟩,
   ⟨15, 768, tdm 4, by decide +kernel⟩⟩

/-- Every clause of Obligations.LoadsAndFlipsOfHeldContent has a case. -/
theorem witness_LoadsAndFlipsOfHeldContent :
    (∃ r : Req, ∃ v : W32, ∃ sel : W32, ∃ k : Nat, ∃ h : Nat, ∃ ix : Nat, ∃ a : Nat, ∃ hd : Nat, ∃ s : State, s.granted r .twin ∧ sel = s.loadReg .ALY_LOAD_SEL r ∧ k = getF sel F.ALY_LOAD_SEL_KIND ∧ h = getF sel F.ALY_LOAD_SEL_HEAD ∧ ix = getF sel F.ALY_LOAD_SEL_INDEX ∧ a = (s.loadReg .ALY_LOAD_ADDR r).toNat % 2 ^ 24 ∧ hd = (if k = 3 then (s.preHead.at ix).getD h else h) ∧ 5 ≤ k) ∧
    (∃ r : Req, ∃ v : W32, ∃ sel : W32, ∃ k : Nat, ∃ h : Nat, ∃ ix : Nat, ∃ a : Nat, ∃ hd : Nat, ∃ s : State, s.granted r .twin ∧ sel = s.loadReg .ALY_LOAD_SEL r ∧ k = getF sel F.ALY_LOAD_SEL_KIND ∧ h = getF sel F.ALY_LOAD_SEL_HEAD ∧ ix = getF sel F.ALY_LOAD_SEL_INDEX ∧ a = (s.loadReg .ALY_LOAD_ADDR r).toNat % 2 ^ 24 ∧ hd = (if k = 3 then (s.preHead.at ix).getD h else h) ∧ k ≤ 4 ∧ (k = 2 → s.holdsProt r h = true) ∧ (k = 3 → ∃ p, s.preHead.at ix = some p ∧ s.holdsHead r p = true) ∧ (k ≠ 2 → k ≠ 3 → s.holdsHead r h = true) ∧ s.flipPending hd (flipBit k) = true) ∧
    (∃ r : Req, ∃ v : W32, ∃ sel : W32, ∃ k : Nat, ∃ h : Nat, ∃ ix : Nat, ∃ a : Nat, ∃ hd : Nat, ∃ s : State, s.granted r .twin ∧ sel = s.loadReg .ALY_LOAD_SEL r ∧ k = getF sel F.ALY_LOAD_SEL_KIND ∧ h = getF sel F.ALY_LOAD_SEL_HEAD ∧ ix = getF sel F.ALY_LOAD_SEL_INDEX ∧ a = (s.loadReg .ALY_LOAD_ADDR r).toNat % 2 ^ 24 ∧ hd = (if k = 3 then (s.preHead.at ix).getD h else h) ∧ k ≤ 4 ∧ (k = 2 → s.holdsProt r h = true) ∧ (k = 3 → ∃ p, s.preHead.at ix = some p ∧ s.holdsHead r p = true) ∧ (k ≠ 2 → k ≠ 3 → s.holdsHead r h = true) ∧ s.flipPending hd (flipBit k) = false ∧ s.contentSize k h ix ≤ a) ∧
    (∃ r : Req, ∃ v : W32, ∃ sel : W32, ∃ k : Nat, ∃ h : Nat, ∃ ix : Nat, ∃ a : Nat, ∃ hd : Nat, ∃ s : State, s.granted r .twin ∧ sel = s.loadReg .ALY_LOAD_SEL r ∧ k = getF sel F.ALY_LOAD_SEL_KIND ∧ h = getF sel F.ALY_LOAD_SEL_HEAD ∧ ix = getF sel F.ALY_LOAD_SEL_INDEX ∧ a = (s.loadReg .ALY_LOAD_ADDR r).toNat % 2 ^ 24 ∧ hd = (if k = 3 then (s.preHead.at ix).getD h else h) ∧ k ≤ 4 ∧ (k = 2 → s.holdsProt r h = true) ∧ (k = 3 → ∃ p, s.preHead.at ix = some p ∧ s.holdsHead r p = true) ∧ (k ≠ 2 → k ≠ 3 → s.holdsHead r h = true) ∧ s.flipPending hd (flipBit k) = false ∧ a < s.contentSize k h ix) ∧
    (∃ r : Req, ∃ v : W32, ∃ sel : W32, ∃ k : Nat, ∃ h : Nat, ∃ ix : Nat, ∃ a : Nat, ∃ hd : Nat, ∃ s : State, s.granted r .twin ∧ sel = s.loadReg .ALY_LOAD_SEL r ∧ k = getF sel F.ALY_LOAD_SEL_KIND ∧ h = getF sel F.ALY_LOAD_SEL_HEAD ∧ ix = getF sel F.ALY_LOAD_SEL_INDEX ∧ a = (s.loadReg .ALY_LOAD_ADDR r).toNat % 2 ^ 24 ∧ hd = (if k = 3 then (s.preHead.at ix).getD h else h) ∧ k ≤ 4 ∧ (k = 2 → s.holdsProt r h = false) ∧ (k = 3 → ∀ p, s.preHead.at ix = some p → s.holdsHead r p = false) ∧ (k ≠ 2 → k ≠ 3 → s.holdsHead r h = false)) ∧
    (∃ r : Req, ∃ h : Fin 32, ∃ s : State, ∃ p, s.granted r .twin ∧ s.holdsHead r h = true ∧ p ∈ [(Instr.flipGfx r h, 0), (Instr.flipCursor r h, 1), (Instr.flipLut r h, 2)] ∧ (s.oddHead h = true ∨ s.flipPending h p.2 = true)) ∧
    (∃ r : Req, ∃ h : Fin 32, ∃ s : State, ∃ p, s.granted r .twin ∧ s.holdsHead r h = true ∧ p ∈ [(Instr.flipGfx r h, 0), (Instr.flipCursor r h, 1), (Instr.flipLut r h, 2)] ∧ s.oddHead h = false ∧ s.flipPending h p.2 = false) ∧
    (∃ r : Req, ∃ h : Fin 32, ∃ fits : Bool, ∃ s : State, s.granted r .twin ∧ s.holdsProt r h = true ∧ s.oddHead h = false ∧ s.flipPending h 3 = false ∧ fits = ((List.range (s.headPlan.at h).rects).all fun q => s.protFits h (protRect (s.twin2 .ALY_PROT_POS h q) (s.twin2 .ALY_PROT_SIZE h q))) ∧ fits = true) ∧
    (∃ r : Req, ∃ h : Fin 32, ∃ fits : Bool, ∃ s : State, s.granted r .twin ∧ s.holdsProt r h = true ∧ s.oddHead h = false ∧ s.flipPending h 3 = false ∧ fits = ((List.range (s.headPlan.at h).rects).all fun q => s.protFits h (protRect (s.twin2 .ALY_PROT_POS h q) (s.twin2 .ALY_PROT_SIZE h q))) ∧ fits = false) :=
  ⟨⟨.hp0, 5, (loading 7 31 0 0).loadReg .ALY_LOAD_SEL .hp0, 7, 31, 0, 0, 31, loading 7 31 0 0, by simp only [State.granted]; decide +kernel, by decide +kernel, by decide +kernel, by decide +kernel, by decide +kernel, by decide +kernel, by decide +kernel, by decide +kernel⟩,
   ⟨.hp0, 5, (loading 3 0 63 3072).loadReg .ALY_LOAD_SEL .hp0, 3, 0, 63, 3072, 31, { loading 3 0 63 3072 with alyWait := [.flip 31 2 0] }, by simp only [State.granted]; decide +kernel, by decide +kernel, by decide +kernel, by decide +kernel, by decide +kernel, by decide +kernel, by decide +kernel, by decide +kernel, by decide +kernel, by decide +kernel, by decide +kernel, by decide +kernel⟩,
   ⟨.hp0, 5, (loading 1 31 0 4096).loadReg .ALY_LOAD_SEL .hp0, 1, 31, 0, 4096, 31, loading 1 31 0 4096, by simp only [State.granted]; decide +kernel, by decide +kernel, by decide +kernel, by decide +kernel, by decide +kernel, by decide +kernel, by decide +kernel, by decide +kernel, by decide +kernel, by decide +kernel, by decide +kernel, by decide +kernel, by decide +kernel⟩,
   ⟨.hp0, 5, (loading 2 31 3 65535).loadReg .ALY_LOAD_SEL .hp0, 2, 31, 3, 65535, 31, loading 2 31 3 65535, by simp only [State.granted]; decide +kernel, by decide +kernel, by decide +kernel, by decide +kernel, by decide +kernel, by decide +kernel, by decide +kernel, by decide +kernel, by decide +kernel, by decide +kernel, by decide +kernel, by decide +kernel, by decide +kernel⟩,
   ⟨.hp0, 5, (loading 4 31 0 0).loadReg .ALY_LOAD_SEL .hp0, 4, 31, 0, 0, 31, { loading 4 31 0 0 with rights := [] }, by simp only [State.granted]; decide +kernel, by decide +kernel, by decide +kernel, by decide +kernel, by decide +kernel, by decide +kernel, by decide +kernel, by decide +kernel, by decide +kernel, by decide +kernel, by decide +kernel⟩,
   ⟨.hp0, 31, { loading 4 31 0 0 with alyWait := [.flip 31 2 0] }, (Instr.flipLut .hp0 31, 2), by simp only [State.granted]; decide +kernel, by decide +kernel, by decide +kernel, by decide +kernel⟩,
   ⟨.hp0, 31, loading 4 31 0 0, (Instr.flipLut .hp0 31, 2), by simp only [State.granted]; decide +kernel, by decide +kernel, by decide +kernel, by decide +kernel, by decide +kernel⟩,
   ⟨.hp0, 31, true, loading 4 31 0 0, by simp only [State.granted]; decide +kernel, by decide +kernel, by decide +kernel, by decide +kernel, by decide +kernel, by decide +kernel⟩,
   ⟨.hp0, 31, false, { loading 4 31 0 0 with twins := [(R2 .ALY_PROT_POS 31 0, 0xFFFFFFFF), (R2 .ALY_PROT_SIZE 31 0, 0xFFFFFFFF)] }, by simp only [State.granted]; decide +kernel, by decide +kernel, by decide +kernel, by decide +kernel, by decide +kernel, by decide +kernel⟩⟩

/-- Every clause of Obligations.HeadsTilesAndBoundaries has a case. -/
theorem witness_HeadsTilesAndBoundaries :
    (∃ f : Fin 256, ∃ s : State, (∀ sd, s.live sd = true → s.feeds.at (2 * (1024 + f.val) + sd.idx) = []) ∧ (s.routes.at (1024 + f.val)).src < 1056) ∧
    (∃ f : Fin 256, ∃ sd : Side, ∃ x : Fed, ∃ rest : List Fed, ∃ fr : TileFrame, ∃ q : TileRun, ∃ s : State, s.live sd = true ∧ s.feeds.at (2 * (1024 + f.val) + sd.idx) = x :: rest ∧ fr = { src := x.src, sof := x.blk.sofAt, fmt := s.feedFmt x.src, tag := x.blk.tag } ∧ q = s.tiles.at (2 * f.val + sd.idx) ∧ s.feedCarries (1024 + f.val) x.src x.blk.sofAt (x.blk.stamp * tickU : Nat) = false) ∧
    (∃ f : Fin 256, ∃ sd : Side, ∃ x : Fed, ∃ rest : List Fed, ∃ fr : TileFrame, ∃ q : TileRun, ∃ s : State, s.live sd = true ∧ s.feeds.at (2 * (1024 + f.val) + sd.idx) = x :: rest ∧ fr = { src := x.src, sof := x.blk.sofAt, fmt := s.feedFmt x.src, tag := x.blk.tag } ∧ q = s.tiles.at (2 * f.val + sd.idx) ∧ s.feedCarries (1024 + f.val) x.src x.blk.sofAt (x.blk.stamp * tickU : Nat) = true ∧ fr.due < (x.blk.stamp * tickU : Nat)) ∧
    (∃ f : Fin 256, ∃ sd : Side, ∃ x : Fed, ∃ rest : List Fed, ∃ fr : TileFrame, ∃ q : TileRun, ∃ s : State, s.live sd = true ∧ s.feeds.at (2 * (1024 + f.val) + sd.idx) = x :: rest ∧ fr = { src := x.src, sof := x.blk.sofAt, fmt := s.feedFmt x.src, tag := x.blk.tag } ∧ q = s.tiles.at (2 * f.val + sd.idx) ∧ s.feedCarries (1024 + f.val) x.src x.blk.sofAt (x.blk.stamp * tickU : Nat) = true ∧ (x.blk.stamp * tickU : Nat) ≤ fr.due) ∧
    (∃ h : Fin 32, ∃ bad : List Nat, ∃ s : State, ((s.headPlan.at h).present = false ∨ s.oddHead h = true ∨ (s.headRun.at h).last = some (s.headFrame h).toNat)) ∧
    (∃ h : Fin 32, ∃ bad : List Nat, ∃ o : Int, ∃ k : Nat, ∃ s : State, (s.headPlan.at h).present = true ∧ s.oddHead h = false ∧ o = s.headStart h ∧ k = (s.headFrame h).toNat ∧ (s.headRun.at h).last ≠ some k) ∧
    (∃ h : Fin 32, ∃ s : State, (∀ b n, AlyWait.flip h b n ∈ s.alyWait → b < 4)) :=
  ⟨⟨255, { base with routes := [(1279, { src := 1055 })] }, by intro a; cases a <;> decide +kernel, by decide +kernel⟩,
   ⟨255, .B, { src := 1054, blk := { (default : Block) with tag := 255, sofAt := -5, stamp := 3 } }, [], { src := 1054, sof := -5, fmt := { code := 0x891 }, tag := 255 }, {}, { loading 4 31 0 0 with routes := [(1279, { src := 1055 })], tileHead := [(255, some 31)], feeds := [(2559, [{ src := 1054, blk := { (default : Block) with tag := 255, sofAt := -5, stamp := 3 } }])] }, by decide +kernel, by decide +kernel, by decide +kernel, by decide +kernel, by decide +kernel⟩,
   ⟨255, .B, { src := 1055, blk := { (default : Block) with tag := 255, sofAt := -5, stamp := ((TileFrame.due { src := 1055, sof := -5, fmt := { code := 0x891 }, tag := 255 }) / tickU).toNat + 1 } }, [], { src := 1055, sof := -5, fmt := { code := 0x891 }, tag := 255 }, {}, { loading 4 31 0 0 with routes := [(1279, { src := 1055 })], tileHead := [(255, some 31)], feeds := [(2559, [{ src := 1055, blk := { (default : Block) with tag := 255, sofAt := -5, stamp := ((TileFrame.due { src := 1055, sof := -5, fmt := { code := 0x891 }, tag := 255 }) / tickU).toNat + 1 } }])] }, by decide +kernel, by decide +kernel, by decide +kernel, by decide +kernel, by decide +kernel, by decide +kernel⟩,
   ⟨255, .B, { src := 1055, blk := { (default : Block) with tag := 255, sofAt := -5, stamp := ((TileFrame.due { src := 1055, sof := -5, fmt := { code := 0x891 }, tag := 255 }) / tickU).toNat } }, [], { src := 1055, sof := -5, fmt := { code := 0x891 }, tag := 255 }, {}, { loading 4 31 0 0 with routes := [(1279, { src := 1055 })], tileHead := [(255, some 31)], feeds := [(2559, [{ src := 1055, blk := { (default : Block) with tag := 255, sofAt := -5, stamp := ((TileFrame.due { src := 1055, sof := -5, fmt := { code := 0x891 }, tag := 255 }) / tickU).toNat } }])] }, by decide +kernel, by decide +kernel, by decide +kernel, by decide +kernel, by decide +kernel, by decide +kernel⟩,
   ⟨31, [], base, by decide +kernel⟩,
   ⟨31, [3], (loading 4 31 0 0).headStart 31, ((loading 4 31 0 0).headFrame 31).toNat, loading 4 31 0 0, by decide +kernel, by decide +kernel, by decide +kernel, by decide +kernel, by decide +kernel⟩,
   ⟨31, { loading 4 31 0 0 with alyWait := [.flip 31 2 0] }, by intro b n hm; rcases hm with _ | ⟨_, hm⟩; decide; cases hm⟩⟩

/-- Every clause of Obligations.TimeBasesTickRateAndRead has a case. -/
theorem witness_TimeBasesTickRateAndRead :
    (∃ s : State, s.aoReset = false ∧ s.waiting = []) ∧
    (∃ s : State, s.aoReset = false ∧ s.waiting = [] ∧ (∀ n < 4, (s.tbs.at n).steps = [])) ∧
    (∃ s : State, s.aoReset = true) ∧
    (∃ r : Req, ∃ n : Fin 4, ∃ hi : W32, ∃ q : Int, ∃ s : State, s.granted r .timing ∧ s.holdsTb r n = true ∧ q = sext 40 (hi.toNat % 256 * 2 ^ 32 + (s.rd (R1 .TB_RATE_LO n)).toNat) ∧ s.flag (R1 .TB_STAT n) F.TB_STAT_REFUSED = false) ∧
    (∃ r : Req, ∃ n : Fin 4, ∃ hi : W32, ∃ q : Int, ∃ s : State, s.granted r .timing ∧ s.holdsTb r n = true ∧ q = sext 40 (hi.toNat % 256 * 2 ^ 32 + (s.rd (R1 .TB_RATE_LO n)).toNat) ∧ s.flag (R1 .TB_STAT n) F.TB_STAT_REFUSED = true) ∧
    (∃ r : Req, ∃ n : Fin 4, ∃ be : Fin 16, ∃ s : State, s.granted r .timing) ∧
    (∃ c : Fin 32, ∃ s : State, s.cadValid c = true ∧ s.cadStart c ((s.cads.at c).count + 1) ≤ s.cadTime) ∧
    (∃ c : Fin 32, ∃ s : State, (s.cadValid c = false ∨ s.cadTime < s.cadStart c ((s.cads.at c).count + 1))) :=
  ⟨⟨{ base with tbs := [(3, { next := some 5 })] }, by decide +kernel, by decide +kernel⟩,
   ⟨base, by decide +kernel, by decide +kernel, by decide +kernel⟩,
   ⟨low, by decide +kernel⟩,
   ⟨.hp0, 3, 0x80, sext 40 (0x80 * 2 ^ 32), lit base, by simp only [State.granted]; decide +kernel, by decide +kernel, by decide +kernel, by decide +kernel⟩,
   ⟨.hp0, 3, 0x80, sext 40 (0x80 * 2 ^ 32), (lit base).fields [(R1 .TB_STAT 3, F.TB_STAT_REFUSED, 1)], by simp only [State.granted]; decide +kernel, by decide +kernel, by decide +kernel, by decide +kernel⟩,
   ⟨.service, 3, 15, { base with tbs := [(3, { t := 2 ^ 48 * 5000000007 })] }, by simp only [State.granted]; decide +kernel⟩,
   ⟨0, base.atTick 100000000, by decide +kernel, by decide +kernel⟩,
   ⟨31, base, by decide +kernel⟩⟩

/-- Every clause of Obligations.StepsAndCompareUnits has a case. -/
theorem witness_StepsAndCompareUnits :
    (∃ r : Req, ∃ n : Fin 4, ∃ ctl : W32, ∃ d : Int, ∃ s : State, s.granted r .timing ∧ s.holdsTb r n = true ∧ d = s.stepAmount n (bitOf ctl 1) ∧ (bitOf ctl 0 = true ∨ s.flag (R1 .TB_STAT n) F.TB_STAT_REFUSED = false ∧ d.natAbs ≤ (s.rd (R1 .TB_STEP_LIMIT n)).toNat * 65536)) ∧
    (∃ r : Req, ∃ n : Fin 4, ∃ ctl : W32, ∃ d : Int, ∃ s : State, s.granted r .timing ∧ s.holdsTb r n = true ∧ d = s.stepAmount n (bitOf ctl 1) ∧ bitOf ctl 0 = false ∧ s.flag (R1 .TB_STAT n) F.TB_STAT_REFUSED = false ∧ (s.rd (R1 .TB_STEP_LIMIT n)).toNat * 65536 < d.natAbs) ∧
    (∃ r : Req, ∃ n : Fin 4, ∃ ctl : W32, ∃ d : Int, ∃ s : State, s.granted r .timing ∧ s.holdsTb r n = true ∧ d = s.stepAmount n (bitOf ctl 1) ∧ bitOf ctl 0 = false ∧ s.flag (R1 .TB_STAT n) F.TB_STAT_REFUSED = true) ∧
    (∃ n : Fin 4, ∃ p : Bool × Int, ∃ s : State, s.aoReset = false ∧ s.waiting = [] ∧ (s.tbs.at n).steps = [p]) ∧
    (∃ r : Req, ∃ n : Fin 4, ∃ u : Fin 32, ∃ ctl : W32, ∃ g : Nat, ∃ s : State, s.granted r .timing ∧ s.holdsTb r n = true ∧ g = ((s.rd (R2 .TB_CMP_HI n u)).toNat * 2 ^ 32 + (s.rd (R2 .TB_CMP_LO n u)).toNat) * 65536 + s.fld (R2 .TB_CMP_FRAC n u) F.TB_CMP_FRAC_TFRAC) ∧
    (∃ n : Fin 4, ∃ u : Fin 32, ∃ x : CmpUnit, ∃ s : State, x = s.cmps.at (cmpIx n u) ∧ x.armed = true ∧ x.setAt < s.tick ∧ atOrAfter (s.tbNow n) x.target = true) ∧
    (∃ n : Fin 4, ∃ u : Fin 32, ∃ s : State, ((s.cmps.at (cmpIx n u)).armed = false ∨ s.tick ≤ (s.cmps.at (cmpIx n u)).setAt ∨ atOrAfter (s.tbNow n) (s.cmps.at (cmpIx n u)).target = false)) ∧
    (∃ r : Req, ∃ i : Fin 130, ∃ be : Fin 16, ∃ s : State, ∃ w, ∃ ws, s.granted r .timing ∧ s.holdsPort r i = true ∧ s.txLatch.at (latchIx r i) = w :: ws) ∧
    (∃ r : Req, ∃ i : Fin 130, ∃ be : Fin 16, ∃ s : State, ∃ w, ∃ ws, ∃ q, s.granted r .timing ∧ s.holdsPort r i = true ∧ s.txLatch.at (latchIx r i) = [] ∧ (s.ports.at i).queue = (w :: ws) :: q) ∧
    (∃ r : Req, ∃ i : Fin 130, ∃ be : Fin 16, ∃ s : State, s.granted r .timing ∧ s.holdsPort r i = true ∧ s.txLatch.at (latchIx r i) = [] ∧ (s.ports.at i).queue = []) ∧
    (∃ i : Fin 130, ∃ s : State, s.portUp i = true) ∧
    (∃ i : Fin 130, ∃ s : State, s.portUp i = false) :=
  ⟨⟨.hp0, 3, 1, (lit base).stepAmount 3 false, lit base, by simp only [State.granted]; decide +kernel, by decide +kernel, by decide +kernel, by decide +kernel⟩,
   ⟨.hp0, 3, 0, (lit (base.regsAt [(R1 .TB_STEP_LO 3, 6), (R1 .TB_STEP_LIMIT 3, 5)])).stepAmount 3 false, lit (base.regsAt [(R1 .TB_STEP_LO 3, 6), (R1 .TB_STEP_LIMIT 3, 5)]), by simp only [State.granted]; decide +kernel, by decide +kernel, by decide +kernel, by decide +kernel, by decide +kernel, by decide +kernel⟩,
   ⟨.hp0, 3, 0, (lit base).stepAmount 3 false, (lit base).fields [(R1 .TB_STAT 3, F.TB_STAT_REFUSED, 1)], by simp only [State.granted]; decide +kernel, by decide +kernel, by decide +kernel, by decide +kernel, by decide +kernel⟩,
   ⟨3, (false, -5), { base with tbs := [(3, { steps := [(false, -5)] })] }, by decide +kernel, by decide +kernel, by decide +kernel⟩,
   ⟨.hp0, 3, 31, 0xFFFFFFFF, 0, lit base, by simp only [State.granted]; decide +kernel, by decide +kernel, by decide +kernel⟩,
   ⟨3, 31, { armed := true }, { base.atTick 1 with cmps := [(cmpIx 3 31, { armed := true })] }, by decide +kernel, by decide +kernel, by decide +kernel, by decide +kernel⟩,
   ⟨3, 31, { base with cmps := [(cmpIx 3 31, { armed := true })] }, by decide +kernel⟩,
   ⟨.hp0, 129, 15, { eth with txLatch := [(latchIx .hp0 129, [7, 8])] }, (7 : W32), ([8] : List W32), by simp only [State.granted]; decide +kernel, by decide +kernel, by decide +kernel⟩,
   ⟨.hp0, 129, 15, { eth with ports := [(129, { queue := [[7, 8], [9]] })] }, (7 : W32), ([8] : List W32), ([[9]] : List (List W32)), by simp only [State.granted]; decide +kernel, by decide +kernel, by decide +kernel, by decide +kernel⟩,
   ⟨.hp0, 129, 1, eth, by simp only [State.granted]; decide +kernel, by decide +kernel, by decide +kernel, by decide +kernel⟩,
   ⟨129, eth, by decide +kernel⟩,
   ⟨129, base, by decide +kernel⟩⟩

/-- Every clause of Obligations.ReferenceCandidatesQualifyAndFail has a case. -/
theorem witness_ReferenceCandidatesQualifyAndFail :
    (∃ c : Fin 10, ∃ at_ : Int, ∃ s : State, (s.candPeriod c = none ∨ s.candHappens c = false)) ∧
    (∃ c : Fin 10, ∃ at_ : Int, ∃ p : Nat × Nat, ∃ l : Int, ∃ s : State, s.candPeriod c = some p ∧ (s.cands.at c).last = some l ∧ s.candEarly c at_ p = true) ∧
    (∃ c : Fin 10, ∃ at_ : Int, ∃ p : Nat × Nat, ∃ s : State, s.candPeriod c = some p ∧ s.candHappens c = true ∧ s.candEarly c at_ p = false) ∧
    (∃ c : Fin 10, ∃ s : State, s.flag (R1 .REF_CAND_STAT c) F.REF_CAND_STAT_PRESENT = true ∧ s.candStopped c = true) ∧
    (∃ c : Fin 10, ∃ s : State, (s.flag (R1 .REF_CAND_STAT c) F.REF_CAND_STAT_PRESENT = false ∨ s.candStopped c = false)) ∧
    (∃ c : Fin 10, ∃ freq : Int, ∃ s : State, freq.natAbs ≤ max 1 (s.fld (R1 .REF_CAND_CFG c) F.REF_CAND_CFG_TOL) * 10) ∧
    (∃ c : Fin 10, ∃ freq : Int, ∃ s : State, max 1 (s.fld (R1 .REF_CAND_CFG c) F.REF_CAND_CFG_TOL) * 10 < freq.natAbs) ∧
    (∃ c : Fin 10, ∃ since : Nat, ∃ s : State, (s.cands.at c).okSince = some since ∧ s.candPrio c ≠ 0 ∧ s.qualified c = false ∧ (c.val < 4 ∨ 8 ≤ c.val ∨ s.tbOk (c.val - 4) = true) ∧ since + s.qualTicks ≤ s.tick) ∧
    (∃ c : Fin 10, ∃ since : Nat, ∃ s : State, (s.cands.at c).okSince = some since ∧ s.candPrio c ≠ 0 ∧ s.qualified c = false ∧ (c.val < 4 ∨ 8 ≤ c.val ∨ s.tbOk (c.val - 4) = true) ∧ s.tick < since + s.qualTicks) ∧
    (∃ c : Fin 10, ∃ s : State, s.fld (R0 .REF_CFG) F.REF_CFG_MODE = 0 ∧ s.flag (R0 .REF_CFG) F.REF_CFG_REVERT = true ∧ s.refState = stLocked ∧ s.bestCand = some c.val ∧ s.better c s.refSel = true ∧ max (s.cands.at c).qualAt s.ref.lockedAt + s.holdoffTicks ≤ s.tick) ∧
    (∃ c : Fin 10, ∃ s : State, s.fld (R0 .REF_CFG) F.REF_CFG_MODE = 0 ∧ s.flag (R0 .REF_CFG) F.REF_CFG_REVERT = true ∧ s.refState = stLocked ∧ s.bestCand = some c.val ∧ s.better c s.refSel = true ∧ s.tick < max (s.cands.at c).qualAt s.ref.lockedAt + s.holdoffTicks) ∧
    (∃ s : State, s.flag (R0 .REF_STAT) F.REF_STAT_OSC = true) ∧
    (∃ s : State, s.flag (R0 .REF_STAT) F.REF_STAT_OSC = false) ∧
    (∃ s : State, s.holdOscPresent = true) ∧
    (∃ s : State, s.holdOscPresent = false) :=
  ⟨⟨1, 0, base, by decide +kernel⟩,
   ⟨3, 1, (1000000000 * nsU, 1), 0, { base.fields [(R1 .REF_CAND_CFG 3, F.REF_CAND_CFG_PARAM, 1), (R1 .REF_CAND_STAT 3, F.REF_CAND_STAT_PRESENT, 1)] with cands := [(3, { last := some 0 })] }, by decide +kernel, by decide +kernel, by decide +kernel⟩,
   ⟨3, 65536000000000, (1000000000 * nsU, 1), { base.fields [(R1 .REF_CAND_CFG 3, F.REF_CAND_CFG_PARAM, 1), (R1 .REF_CAND_STAT 3, F.REF_CAND_STAT_PRESENT, 1)] with cands := [(3, { last := some 0 })] }, by decide +kernel, by decide +kernel, by decide +kernel⟩,
   ⟨9, base.fields [(R1 .REF_CAND_STAT 9, F.REF_CAND_STAT_PRESENT, 1)], by decide +kernel, by decide +kernel⟩,
   ⟨9, base, by decide +kernel⟩,
   ⟨9, -10, base.fields [(R1 .REF_CAND_CFG 9, F.REF_CAND_CFG_TOL, 0)], by decide +kernel⟩,
   ⟨9, 11, base.fields [(R1 .REF_CAND_CFG 9, F.REF_CAND_CFG_TOL, 0)], by decide +kernel⟩,
   ⟨9, 0, { (base.fields [(R1 .REF_CAND_CFG 9, F.REF_CAND_CFG_PRIO, 1)]).atTick base.qualTicks with cands := [(9, { okSince := some 0 })] }, by decide +kernel, by decide +kernel, by decide +kernel, by decide +kernel, by decide +kernel⟩,
   ⟨9, 1, { (base.fields [(R1 .REF_CAND_CFG 9, F.REF_CAND_CFG_PRIO, 1)]).atTick base.qualTicks with cands := [(9, { okSince := some 1 })] }, by decide +kernel, by decide +kernel, by decide +kernel, by decide +kernel, by decide +kernel⟩,
   ⟨0, reverting.atTick reverting.holdoffTicks, by decide +kernel, by decide +kernel, by decide +kernel, by decide +kernel, by decide +kernel, by decide +kernel⟩,
   ⟨0, reverting.atTick (reverting.holdoffTicks - 1), by decide +kernel, by decide +kernel, by decide +kernel, by decide +kernel, by decide +kernel, by decide +kernel⟩,
   ⟨base.fields [(R0 .REF_STAT, F.REF_STAT_OSC, 1)], by decide +kernel⟩,
   ⟨base.fields [(R0 .REF_STAT, F.REF_STAT_OSC, 0)], by decide +kernel⟩,
   ⟨base.fields [(R0 .REF_CFG, F.REF_CFG_HOLD_MHZ, 100)], by decide +kernel⟩,
   ⟨base.fields [(R0 .REF_CFG, F.REF_CFG_HOLD_MHZ, 101)], by decide +kernel⟩⟩

/-- Every clause of Obligations.SelectorModesAndReAlignment has a case. -/
theorem witness_SelectorModesAndReAlignment :
    (∃ s : State, (s.refState = stAcquire ∨ s.refState = stSwitching) ∧ s.fld (R0 .REF_CFG) F.REF_CFG_MODE = 0 ∧ s.ref.enteredAt + secTicks ≤ s.tick) ∧
    (∃ s : State, (s.refState = stAcquire ∨ s.refState = stSwitching) ∧ s.fld (R0 .REF_CFG) F.REF_CFG_MODE = 0 ∧ s.tick < s.ref.enteredAt + secTicks) ∧
    (∃ s : State, (s.refState = stFree ∨ s.refState = stLocked ∨ s.refState = stHoldover)) ∧
    (∃ r : Req, ∃ cfg : W32, ∃ s : State, s.granted r .timing ∧ s.isRefOwner r = true) ∧
    (∃ r : Req, ∃ cmd : W32, ∃ s : State, s.granted r .timing ∧ s.isRefOwner r = true ∧ getF cmd F.REF_CMD_OP ≠ 1) ∧
    (∃ r : Req, ∃ cmd : W32, ∃ s : State, s.granted r .timing ∧ s.isRefOwner r = true ∧ getF cmd F.REF_CMD_OP = 1 ∧ s.refState ≠ stLocked) ∧
    (∃ r : Req, ∃ cmd : W32, ∃ s : State, s.granted r .timing ∧ s.isRefOwner r = true ∧ getF cmd F.REF_CMD_OP = 1 ∧ s.refState = stLocked ∧ s.ref.jumps ≠ []) ∧
    (∃ r : Req, ∃ cmd : W32, ∃ s : State, s.granted r .timing ∧ s.isRefOwner r = true ∧ getF cmd F.REF_CMD_OP = 1 ∧ s.refState = stLocked ∧ s.ref.jumps = []) ∧
    (∃ c : Fin 32, ∃ j : AlignJump, ∃ s : State, (s.ref.jumps.find? (fun j => j.ctr = c.val ∧ s.startOf c j.index ≤ s.cadTime) = some j)) ∧
    (∃ c : Fin 32, ∃ s : State, (∀ j ∈ s.ref.jumps, j.ctr ≠ c.val ∨ s.cadTime < s.startOf c j.index)) :=
  ⟨⟨(base.fields [(R0 .REF_STAT, F.REF_STAT_STATE, 4), (R0 .REF_CFG, F.REF_CFG_MODE, 0)]).atTick secTicks, by decide +kernel, by decide +kernel, by decide +kernel⟩,
   ⟨(base.fields [(R0 .REF_STAT, F.REF_STAT_STATE, 1), (R0 .REF_CFG, F.REF_CFG_MODE, 0)]).atTick (secTicks - 1), by decide +kernel, by decide +kernel, by decide +kernel⟩,
   ⟨reverting, by decide +kernel⟩,
   ⟨.hp0, 0xFFFFFFFF, lit base, by simp only [State.granted]; decide +kernel, by decide +kernel⟩,
   ⟨.hp0, 0, lit reverting, by simp only [State.granted]; decide +kernel, by decide +kernel, by decide +kernel⟩,
   ⟨.hp0, 1, lit (base.fields [(R0 .REF_STAT, F.REF_STAT_STATE, 3)]), by simp only [State.granted]; decide +kernel, by decide +kernel, by decide +kernel, by decide +kernel⟩,
   ⟨.hp0, 1, lit { reverting with ref := { jumps := [{ ctr := 31, index := 1, delta := -5 }] } }, by simp only [State.granted]; decide +kernel, by decide +kernel, by decide +kernel, by decide +kernel, by decide +kernel⟩,
   ⟨.hp0, 1, lit reverting, by simp only [State.granted]; decide +kernel, by decide +kernel, by decide +kernel, by decide +kernel, by decide +kernel⟩,
   ⟨31, { ctr := 31, index := 0, delta := -5 }, { reverting with ref := { jumps := [{ ctr := 31, index := 0, delta := -5 }] } }, by decide +kernel⟩,
   ⟨31, { reverting with ref := { jumps := [{ ctr := 30, index := 0, delta := -5 }] } }, by decide +kernel⟩⟩

/-- Every clause of Obligations.HbmTrainingRefreshAndTemperature has a case. -/
theorem witness_HbmTrainingRefreshAndTemperature :
    (∃ sd : Side, ∃ ds : List (List Nat), ∃ s : State, (s.live sd = false ∨ (s.side sd).trained = true)) ∧
    (∃ sd : Side, ∃ ds : List (List Nat), ∃ s : State, s.live sd = true ∧ (s.side sd).trained = false) ∧
    (∃ sd : Side, ∃ p : Fin 32, ∃ s : State, (s.live sd = false ∨ s.flag (RS .HBM_STAT sd 0) F.HBM_STAT_SELF_REFRESH = true)) ∧
    (∃ sd : Side, ∃ p : Fin 32, ∃ s : State, s.cadTime < s.boundaryAt sd (s.pc sd p)) ∧
    (∃ sd : Side, ∃ p : Fin 32, ∃ s : State, s.live sd = true ∧ s.flag (RS .HBM_STAT sd 0) F.HBM_STAT_SELF_REFRESH = false ∧ s.boundaryAt sd (s.pc sd p) ≤ s.cadTime) ∧
    (∃ sd : Side, ∃ p : Fin 32, ∃ s : State, (s.live sd = false ∨ (s.pc sd p).owed = 0 ∨ s.cadTime < (s.pc sd p).busyTo)) ∧
    (∃ sd : Side, ∃ p : Fin 32, ∃ s : State, ∃ n, s.live sd = true ∧ (s.pc sd p).owed = n + 1 ∧ (s.pc sd p).busyTo ≤ s.cadTime) ∧
    (∃ sd : Side, ∃ c : Int, ∃ mx : Int, ∃ s : State, s.live sd = true ∧ (∀ a, s.hbmTempAt.at sd.idx = some a → a + 100 * usTicks ≤ s.tick) ∧ mx = ((s.hbmMax.at sd.idx).map fun m => max m c).getD c ∧ s.flag (RS .HBM_STAT sd 0) F.HBM_STAT_HOT = false ∧ 85 ≤ c) ∧
    (∃ sd : Side, ∃ c : Int, ∃ mx : Int, ∃ s : State, s.live sd = true ∧ (∀ a, s.hbmTempAt.at sd.idx = some a → a + 100 * usTicks ≤ s.tick) ∧ mx = ((s.hbmMax.at sd.idx).map fun m => max m c).getD c ∧ s.flag (RS .HBM_STAT sd 0) F.HBM_STAT_HOT = true ∧ c ≤ 82) ∧
    (∃ sd : Side, ∃ c : Int, ∃ mx : Int, ∃ s : State, s.live sd = true ∧ (∀ a, s.hbmTempAt.at sd.idx = some a → a + 100 * usTicks ≤ s.tick) ∧ mx = ((s.hbmMax.at sd.idx).map fun m => max m c).getD c ∧ (if s.flag (RS .HBM_STAT sd 0) F.HBM_STAT_HOT then 82 < c else c < 85)) ∧
    (∃ sd : Side, ∃ c : Int, ∃ a : Nat, ∃ s : State, (s.live sd = false ∨ s.hbmTempAt.at sd.idx = some a ∧ s.tick < a + 100 * usTicks)) ∧
    (∃ sd : Side, ∃ p : Fin 32, ∃ found : Option (List Nat), ∃ s : State, (s.live sd = false ∨ 2 ≤ s.pcMode sd p)) ∧
    (∃ sd : Side, ∃ p : Fin 32, ∃ n : Nat, ∃ s : State, ∃ ds : List Nat, s.live sd = true ∧ n = s.fld (RS .HBM_PC_STAT sd p) F.HBM_PC_STAT_FAILS ∧ s.pcMode sd p = 0) ∧
    (∃ sd : Side, ∃ p : Fin 32, ∃ n : Nat, ∃ s : State, s.live sd = true ∧ n = s.fld (RS .HBM_PC_STAT sd p) F.HBM_PC_STAT_FAILS ∧ s.pcMode sd p = 0) ∧
    (∃ sd : Side, ∃ p : Fin 32, ∃ n : Nat, ∃ s : State, ∃ ds : List Nat, s.live sd = true ∧ n = s.fld (RS .HBM_PC_STAT sd p) F.HBM_PC_STAT_FAILS ∧ s.pcMode sd p = 1) ∧
    (∃ sd : Side, ∃ p : Fin 32, ∃ n : Nat, ∃ s : State, s.live sd = true ∧ n = s.fld (RS .HBM_PC_STAT sd p) F.HBM_PC_STAT_FAILS ∧ s.pcMode sd p = 1) ∧
    (∃ sd : Side, ∃ found : List (Option (List Nat)), ∃ s : State, (s.live sd = false ∨ s.flag (RS .HBM_STAT sd 0) F.HBM_STAT_SELF_REFRESH = false)) ∧
    (∃ sd : Side, ∃ found : List (Option (List Nat)), ∃ s : State, s.live sd = true ∧ s.flag (RS .HBM_STAT sd 0) F.HBM_STAT_SELF_REFRESH = true) :=
  ⟨⟨.B, [], base, by decide +kernel⟩,
   ⟨.B, [[127, 1]], { base with sideB := { base.sideB with trained := false } }, by decide +kernel, by decide +kernel⟩,
   ⟨.B, 31, base.fields [(RS .HBM_STAT .B 0, F.HBM_STAT_SELF_REFRESH, 1)], by decide +kernel⟩,
   ⟨.B, 31, pcs 0 { boundAt := some 1 }, by decide +kernel⟩,
   ⟨.B, 31, pcs 0 { owed := 8 }, by decide +kernel, by decide +kernel, by decide +kernel⟩,
   ⟨.B, 31, base, by decide +kernel⟩,
   ⟨.B, 31, pcs 0 { owed := 9, closed := true }, 8, by decide +kernel, by decide +kernel, by decide +kernel⟩,
   ⟨.B, 85, 90, { pcs 0 { owed := 1 } with hbmMax := [(1, some 90)] }, by decide +kernel, by decide +kernel, by decide +kernel, by decide +kernel, by decide +kernel⟩,
   ⟨.B, 82, 82, base.fields [(RS .HBM_STAT .B 0, F.HBM_STAT_HOT, 1)], by decide +kernel, by decide +kernel, by decide +kernel, by decide +kernel, by decide +kernel⟩,
   ⟨.B, 84, 84, base, by decide +kernel, by decide +kernel, by decide +kernel, by decide +kernel⟩,
   ⟨.B, -128, 0, { base with sideB := {} }, by decide +kernel⟩,
   ⟨.B, 31, none, pcs 2 {}, by decide +kernel⟩,
   ⟨.B, 31, 2, (pcs 0 {}).fields [(RS .HBM_PC_STAT .B 31, F.HBM_PC_STAT_FAILS, 2)], [1], by decide +kernel, by decide +kernel, by decide +kernel⟩,
   ⟨.B, 31, 3, (pcs 0 {}).fields [(RS .HBM_PC_STAT .B 31, F.HBM_PC_STAT_FAILS, 3)], by decide +kernel, by decide +kernel, by decide +kernel⟩,
   ⟨.B, 31, 2, (pcs 1 { goodRun := 7 }).fields [(RS .HBM_PC_STAT .B 31, F.HBM_PC_STAT_FAILS, 2)], [1], by decide +kernel, by decide +kernel, by decide +kernel⟩,
   ⟨.B, 31, 3, (pcs 1 { goodRun := 7 }).fields [(RS .HBM_PC_STAT .B 31, F.HBM_PC_STAT_FAILS, 3)], by decide +kernel, by decide +kernel, by decide +kernel⟩,
   ⟨.B, [], base, by decide +kernel⟩,
   ⟨.B, [none, some [5]], base.fields [(RS .HBM_STAT .B 0, F.HBM_STAT_SELF_REFRESH, 1)], by decide +kernel, by decide +kernel⟩⟩

/-- Every clause of Obligations.MemoryFaultsAreCountedAndDriven has a case. -/
theorem witness_MemoryFaultsAreCountedAndDriven :
    (∃ sd : Side, ∃ p : Fin 32, ∃ ok : Bool, ∃ n : Nat, ∃ s : State, s.live sd = true ∧ (ok = true ∨ (s.pc sd p).replays < 2 ∨ n = 0 ∨ s.pcMode sd p ≠ 1)) ∧
    (∃ sd : Side, ∃ p : Fin 32, ∃ n : Nat, ∃ s : State, s.live sd = true ∧ 2 ≤ (s.pc sd p).replays ∧ n ≠ 0 ∧ s.pcMode sd p = 1) ∧
    (∃ sd : Side, ∃ p : Fin 32, ∃ c : Instr, ∃ s : State, s.live sd = true ∧ (c = .hbmUncorrRead sd p ∨ c = .hbmScrub sd p 0 0 1 ∧ s.flag (RS .HBM_CFG sd 0) F.HBM_CFG_SCRUB_EN = true) ∧ s.pcMode sd p ≠ 1) ∧
    (∃ sd : Side, ∃ p : Fin 32, ∃ c : Instr, ∃ s : State, s.live sd = true ∧ (c = .hbmUncorrRead sd p ∨ c = .hbmScrub sd p 0 0 1 ∧ s.flag (RS .HBM_CFG sd 0) F.HBM_CFG_SCRUB_EN = true) ∧ c = .hbmUncorrRead sd p ∧ s.pcMode sd p = 1) ∧
    (∃ sd : Side, ∃ p : Fin 32, ∃ a : Nat, ∃ b : Nat, ∃ s : State, s.live sd = true ∧ s.flag (RS .HBM_CFG sd 0) F.HBM_CFG_SCRUB_EN = true) ∧
    (∃ sd : Side, ∃ p : Fin 32, ∃ a : Nat, ∃ b : Nat, ∃ n : Nat, ∃ s : State, s.flag (RS .HBM_CFG sd 0) F.HBM_CFG_SCRUB_EN = false) ∧
    (∃ sd : Side, ∃ area : SramArea, ∃ c : Nat, ∃ off : Nat, ∃ s : State, s.live sd = true) ∧
    (∃ sd : Side, ∃ k : Fin 6, ∃ user : Nat, ∃ s : State, s.live sd = true) ∧
    (∃ sd : Side, ∃ p : Fin 32, ∃ id : Nat, ∃ w : Nat, ∃ age : Nat, ∃ s : State, s.live sd = true ∧ age = max 1 (s.fld (RS .HBM_CFG sd 0) F.HBM_CFG_AGE) ∧ (w ≤ age ∨ id ∈ (s.pc sd p).promoted)) ∧
    (∃ sd : Side, ∃ p : Fin 32, ∃ id : Nat, ∃ w : Nat, ∃ age : Nat, ∃ s : State, s.live sd = true ∧ age = max 1 (s.fld (RS .HBM_CFG sd 0) F.HBM_CFG_AGE) ∧ age < w ∧ id ∉ (s.pc sd p).promoted) ∧
    (∃ sd : Side, ∃ p : Fin 32, ∃ row : Nat, ∃ th : Nat, ∃ i : Nat, ∃ c : Nat, ∃ r' : Nat, ∃ tb : List (Nat × Nat), ∃ s : State, s.live sd = true ∧ tb = (s.pc sd p).table ∧ th = max 128 (min 16384 (s.fld (RS .HBM_RH_CFG sd 0) F.HBM_RH_CFG_THRESH)) ∧ (∀ e ∈ tb, e.1 ≠ row) ∧ tb.length < 128) ∧
    (∃ sd : Side, ∃ p : Fin 32, ∃ row : Nat, ∃ th : Nat, ∃ i : Nat, ∃ c : Nat, ∃ r' : Nat, ∃ tb : List (Nat × Nat), ∃ s : State, s.live sd = true ∧ tb = (s.pc sd p).table ∧ th = max 128 (min 16384 (s.fld (RS .HBM_RH_CFG sd 0) F.HBM_RH_CFG_THRESH)) ∧ tb[i]? = some (r', c) ∧ ((r' = row ∧ ∀ j < i, ∀ e, tb[j]? = some e → e.1 ≠ row) ∨ (∀ e ∈ tb, e.1 ≠ row) ∧ 128 ≤ tb.length ∧ (∀ e ∈ tb, c ≤ e.2) ∧ (∀ j < i, ∀ e, tb[j]? = some e → c < e.2))) ∧
    (∃ sd : Side, ∃ p : Fin 32, ∃ s : State, s.live sd = true ∧ s.tick < (s.pc sd p).rhAt + 32 * msTicks) ∧
    (∃ sd : Side, ∃ p : Fin 32, ∃ s : State, s.live sd = true ∧ (s.pc sd p).rhAt + 32 * msTicks ≤ s.tick) ∧
    (∃ sd : Side, ∃ p : Fin 32, ∃ s : State, ∃ c : Instr, s.live sd = false ∧ ((∃ ok n, c = .parAlert sd p ok n) ∨ c = .hbmUncorrRead sd p ∨ (∃ a b n, c = .hbmScrub sd p a b n) ∨ (∃ area n o, c = .sramScrub sd area n o) ∨ (∃ k u, c = .late sd k u) ∨ (∃ i w, c = .hbmRequestPromote sd p i w) ∨ (∃ row, c = .hbmActivate sd p row) ∨ c = .hbmRhWindow sd p)) :=
  ⟨⟨.B, 31, false, 9, pcs 1 { replays := 1 }, by decide +kernel, by decide +kernel⟩,
   ⟨.B, 31, 1, pcs 1 { replays := 2 }, by decide +kernel, by decide +kernel, by decide +kernel, by decide +kernel⟩,
   ⟨.B, 31, .hbmScrub .B 31 0 0 1, pcs 0 {}, by decide +kernel, by decide +kernel, by decide +kernel⟩,
   ⟨.B, 31, .hbmUncorrRead .B 31, pcs 1 {}, by decide +kernel, by decide +kernel, by decide +kernel, by decide +kernel⟩,
   ⟨.B, 31, 64, 1, pcs 1 {}, by decide +kernel, by decide +kernel⟩,
   ⟨.B, 31, 64, 1, 1, (pcs 1 {}).fields [(RS .HBM_CFG .B 0, F.HBM_CFG_SCRUB_EN, 0)], by decide +kernel⟩,
   ⟨.B, .firmware, 3, 0xFFFFFF, base, by decide +kernel⟩,
   ⟨.B, 5, 3, base.regsAt [({ name := .HBM_LATE, i := 5, bank := 1 }, 0xFFFFFFFF)], by decide +kernel⟩,
   ⟨.B, 31, 7, 1, 1, (pcs 0 {}).fields [(RS .HBM_CFG .B 0, F.HBM_CFG_AGE, 0)], by decide +kernel, by decide +kernel, by decide +kernel⟩,
   ⟨.B, 31, 7, 2, 1, (pcs 0 {}).fields [(RS .HBM_CFG .B 0, F.HBM_CFG_AGE, 0)], by decide +kernel, by decide +kernel, by decide +kernel, by decide +kernel⟩,
   ⟨.B, 31, 5, (128 : Nat), 0, 0, 0, (List.range 127).map fun z => (z + 6, 1), (pcs 0 { table := (List.range 127).map fun z => (z + 6, 1) }).fields [(RS .HBM_RH_CFG .B 0, F.HBM_RH_CFG_THRESH, 0)], by decide +kernel, by decide +kernel, by decide +kernel, by decide +kernel, by decide +kernel⟩,
   ⟨.B, 31, 6, (128 : Nat), 0, 127, 6, [(6, 127)], (pcs 0 { table := [(6, 127)] }).fields [(RS .HBM_RH_CFG .B 0, F.HBM_RH_CFG_THRESH, 0)], by decide +kernel, by decide +kernel, by decide +kernel, by decide +kernel, by decide +kernel⟩,
   ⟨.B, 31, (pcs 0 {}).atTick (32 * msTicks - 1), by decide +kernel, by decide +kernel⟩,
   ⟨.B, 31, (pcs 0 { table := [(6, 127)] }).atTick (32 * msTicks), by decide +kernel, by decide +kernel⟩,
   ⟨.B, 31, { pcs 0 {} with sideB := {} }, Instr.hbmRhWindow .B 31, by decide +kernel, by right; right; right; right; right; right; right; rfl⟩⟩

/-- Every clause of Obligations.HoppersKeepWholePackets has a case. -/
theorem witness_HoppersKeepWholePackets :
    (∃ r : Req, ∃ sd : Side, ∃ q : Fin 64, ∃ v : W32, ∃ h : Hopper, ∃ s : State, s.granted r (Target.ofSide sd) ∧ s.live sd = true ∧ s.hopAdmits r sd q F.HOP_CFG_PROD = true ∧ h = s.hoppers.at (hopIx sd q) ∧ s.hopMode sd q = 0) ∧
    (∃ r : Req, ∃ sd : Side, ∃ q : Fin 64, ∃ v : W32, ∃ h : Hopper, ∃ s : State, s.granted r (Target.ofSide sd) ∧ s.live sd = true ∧ s.hopAdmits r sd q F.HOP_CFG_PROD = true ∧ h = s.hoppers.at (hopIx sd q) ∧ s.hopMode sd q = 1 ∧ (h.open_.getD []).length < 16383 ∧ (if h.open_.isSome then 1 else 2) ≤ h.free false) ∧
    (∃ r : Req, ∃ sd : Side, ∃ q : Fin 64, ∃ v : W32, ∃ h : Hopper, ∃ s : State, ∃ k, ∃ x, ∃ rest, s.granted r (Target.ofSide sd) ∧ s.live sd = true ∧ s.hopAdmits r sd q F.HOP_CFG_PROD = true ∧ h = s.hoppers.at (hopIx sd q) ∧ s.hopMode sd q = 1 ∧ (h.open_.getD []).length < 16383 ∧ h.free false < (if h.open_.isSome then 1 else 2) ∧ h.items = (if h.partly then k :: x :: rest else x :: rest)) ∧
    (∃ r : Req, ∃ sd : Side, ∃ q : Fin 64, ∃ v : W32, ∃ h : Hopper, ∃ s : State, s.granted r (Target.ofSide sd) ∧ s.live sd = true ∧ s.hopAdmits r sd q F.HOP_CFG_PROD = true ∧ h = s.hoppers.at (hopIx sd q) ∧ s.hopMode sd q = 1 ∧ (h.open_.getD []).length < 16383 ∧ h.free false < (if h.open_.isSome then 1 else 2) ∧ h.items.length < (if h.partly then 2 else 1)) ∧
    (∃ r : Req, ∃ sd : Side, ∃ q : Fin 64, ∃ v : W32, ∃ h : Hopper, ∃ s : State, s.granted r (Target.ofSide sd) ∧ s.live sd = true ∧ s.hopAdmits r sd q F.HOP_CFG_PROD = true ∧ h = s.hoppers.at (hopIx sd q) ∧ s.hopMode sd q = 1 ∧ (h.open_.getD []).length = 16383) ∧
    (∃ r : Req, ∃ sd : Side, ∃ q : Fin 64, ∃ v : W32, ∃ h : Hopper, ∃ s : State, ∃ e, ∃ x, s.granted r (Target.ofSide sd) ∧ s.live sd = true ∧ s.hopAdmits r sd q F.HOP_CFG_PROD = true ∧ h = s.hoppers.at (hopIx sd q) ∧ s.hopMode sd q = 2 ∧ e = s.fld (RS .HOP_CFG sd q) F.HOP_CFG_ENTRY + 1 ∧ x = h.open_.getD [] ++ [v] ∧ 1 ≤ h.free true) ∧
    (∃ r : Req, ∃ sd : Side, ∃ q : Fin 64, ∃ v : W32, ∃ h : Hopper, ∃ s : State, ∃ e, ∃ x, ∃ k, ∃ y, ∃ rest, ∃ o, s.granted r (Target.ofSide sd) ∧ s.live sd = true ∧ s.hopAdmits r sd q F.HOP_CFG_PROD = true ∧ h = s.hoppers.at (hopIx sd q) ∧ s.hopMode sd q = 2 ∧ e = s.fld (RS .HOP_CFG sd q) F.HOP_CFG_ENTRY + 1 ∧ x = h.open_.getD [] ++ [v] ∧ h.free true = 0 ∧ h.items = (if h.partly then k :: y :: rest else y :: rest) ∧ o = (if h.partly then k :: rest else rest)) ∧
    (∃ r : Req, ∃ sd : Side, ∃ q : Fin 64, ∃ v : W32, ∃ h : Hopper, ∃ s : State, s.granted r (Target.ofSide sd) ∧ s.live sd = true ∧ s.hopAdmits r sd q F.HOP_CFG_PROD = true ∧ h = s.hoppers.at (hopIx sd q) ∧ s.hopMode sd q ≠ 1) ∧
    (∃ r : Req, ∃ sd : Side, ∃ q : Fin 64, ∃ v : W32, ∃ h : Hopper, ∃ s : State, ∃ x, s.granted r (Target.ofSide sd) ∧ s.live sd = true ∧ s.hopAdmits r sd q F.HOP_CFG_PROD = true ∧ h = s.hoppers.at (hopIx sd q) ∧ s.hopMode sd q = 1 ∧ h.open_ = some x ∧ x ≠ []) ∧
    (∃ r : Req, ∃ sd : Side, ∃ q : Fin 64, ∃ v : W32, ∃ h : Hopper, ∃ s : State, s.granted r (Target.ofSide sd) ∧ s.live sd = true ∧ s.hopAdmits r sd q F.HOP_CFG_PROD = true ∧ h = s.hoppers.at (hopIx sd q) ∧ s.hopMode sd q = 1 ∧ h.open_ = none) ∧
    (∃ r : Req, ∃ sd : Side, ∃ q : Fin 64, ∃ v : W32, ∃ h : Hopper, ∃ s : State, s.granted r (Target.ofSide sd) ∧ s.live sd = true ∧ s.hopAdmits r sd q F.HOP_CFG_PROD = true ∧ h = s.hoppers.at (hopIx sd q) ∧ s.hopMode sd q = 1) ∧
    (∃ r : Req, ∃ sd : Side, ∃ q : Fin 64, ∃ e : Ecc, ∃ be : Fin 16, ∃ h : Hopper, ∃ s : State, s.granted r (Target.ofSide sd) ∧ s.live sd = true ∧ s.hopAdmits r sd q F.HOP_CFG_CONS = true ∧ h = s.hoppers.at (hopIx sd q) ∧ h.items = []) ∧
    (∃ r : Req, ∃ sd : Side, ∃ q : Fin 64, ∃ e : Ecc, ∃ be : Fin 16, ∃ h : Hopper, ∃ s : State, ∃ w, ∃ x, ∃ rest, s.granted r (Target.ofSide sd) ∧ s.live sd = true ∧ s.hopAdmits r sd q F.HOP_CFG_CONS = true ∧ h = s.hoppers.at (hopIx sd q) ∧ h.items = (w :: x) :: rest) ∧
    (∃ r : Req, ∃ sd : Side, ∃ q : Fin 64, ∃ v : W32, ∃ m : Nat, ∃ s : State, s.granted r (Target.ofSide sd) ∧ s.live sd = true ∧ memAdmin r sd = true ∧ m = getF v F.HOP_CFG_MODE ∧ (m = 0 ∨ m = 3)) ∧
    (∃ r : Req, ∃ sd : Side, ∃ q : Fin 64, ∃ v : W32, ∃ m : Nat, ∃ s : State, s.granted r (Target.ofSide sd) ∧ s.live sd = true ∧ memAdmin r sd = true ∧ m = getF v F.HOP_CFG_MODE ∧ (m = 1 ∨ m = 2) ∧ s.hopMode sd q = 0) ∧
    (∃ r : Req, ∃ sd : Side, ∃ q : Fin 64, ∃ v : W32, ∃ m : Nat, ∃ s : State, s.granted r (Target.ofSide sd) ∧ s.live sd = true ∧ memAdmin r sd = true ∧ m = getF v F.HOP_CFG_MODE ∧ (m = 1 ∨ m = 2) ∧ s.hopMode sd q ≠ 0) ∧
    (∃ r : Req, ∃ sd : Side, ∃ q : Fin 64, ∃ v : W32, ∃ s : State, ∃ c, s.granted r (Target.ofSide sd) ∧ s.live sd = true ∧ s.hopAdmits r sd q F.HOP_CFG_PROD = false ∧ c ∈ [Instr.hopPush r sd q v, .hopCommit r sd q, .hopAbort r sd q]) :=
  ⟨⟨.fwB, .B, 63, 5, { open_ := some [1] }, hop 0 { open_ := some [1] }, by simp only [State.granted]; decide +kernel, by decide +kernel, by decide +kernel, by decide +kernel, by decide +kernel⟩,
   ⟨.fwB, .B, 63, 5, { items := [List.replicate 16381 0] }, hop 1 { items := [List.replicate 16381 0] }, by simp only [State.granted]; decide +kernel, by decide +kernel, by decide +kernel, by decide +kernel, by decide +kernel, by decide +kernel, by decide +kernel⟩,
   ⟨.fwB, .B, 63, 5, { items := [[1], List.replicate 16380 0], partly := true }, hop 1 { items := [[1], List.replicate 16380 0], partly := true }, ([1] : List W32), (List.replicate 16380 0 : List W32), ([] : List (List W32)), by simp only [State.granted]; decide +kernel, by decide +kernel, by decide +kernel, by decide +kernel, by decide +kernel, by decide +kernel, by decide +kernel, by decide +kernel⟩,
   ⟨.fwB, .B, 63, 5, { items := [List.replicate 16381 0], partly := true, open_ := some [3] }, hop 1 { items := [List.replicate 16381 0], partly := true, open_ := some [3] }, by simp only [State.granted]; decide +kernel, by decide +kernel, by decide +kernel, by decide +kernel, by decide +kernel, by decide +kernel, by decide +kernel, by decide +kernel⟩,
   ⟨.fwB, .B, 63, 5, { open_ := some (List.replicate 16383 0) }, hop 1 { open_ := some (List.replicate 16383 0) }, by simp only [State.granted]; decide +kernel, by decide +kernel, by decide +kernel, by decide +kernel, by decide +kernel, by decide +kernel⟩,
   ⟨.fwB, .B, 63, 5, { items := [List.replicate 16382 0], open_ := some [4] }, hop 2 { items := [List.replicate 16382 0], open_ := some [4] }, 2, ([4, 5] : List W32), by simp only [State.granted]; decide +kernel, by decide +kernel, by decide +kernel, by decide +kernel, by decide +kernel, by decide +kernel, by decide +kernel, by decide +kernel⟩,
   ⟨.fwB, .B, 63, 5, { items := [List.replicate 16383 0], open_ := some [4] }, hop 2 { items := [List.replicate 16383 0], open_ := some [4] }, 2, ([4, 5] : List W32), ([] : List W32), (List.replicate 16383 0 : List W32), ([] : List (List W32)), ([] : List (List W32)), by simp only [State.granted]; decide +kernel, by decide +kernel, by decide +kernel, by decide +kernel, by decide +kernel, by decide +kernel, by decide +kernel, by decide +kernel, by decide +kernel, by decide +kernel⟩,
   ⟨.fwB, .B, 63, 5, { open_ := some [4] }, hop 2 { open_ := some [4] }, by simp only [State.granted]; decide +kernel, by decide +kernel, by decide +kernel, by decide +kernel, by decide +kernel⟩,
   ⟨.fwB, .B, 63, 5, { open_ := some [4] }, hop 1 { open_ := some [4] }, ([4] : List W32), by simp only [State.granted]; decide +kernel, by decide +kernel, by decide +kernel, by decide +kernel, by decide +kernel, by decide +kernel, by decide +kernel⟩,
   ⟨.fwB, .B, 63, 5, { items := [[4]] }, hop 1 { items := [[4]] }, by simp only [State.granted]; decide +kernel, by decide +kernel, by decide +kernel, by decide +kernel, by decide +kernel, by decide +kernel⟩,
   ⟨.fwB, .B, 63, 5, { open_ := some [4] }, hop 1 { open_ := some [4] }, by simp only [State.granted]; decide +kernel, by decide +kernel, by decide +kernel, by decide +kernel, by decide +kernel⟩,
   ⟨.fwB, .B, 63, .corrected, 15, {}, hop 1 {}, by simp only [State.granted]; decide +kernel, by decide +kernel, by decide +kernel, by decide +kernel, by decide +kernel⟩,
   ⟨.fwB, .B, 63, .uncorrectable, 3, { items := [[7], [8]], partly := true }, hop 1 { items := [[7], [8]], partly := true }, (7 : W32), ([] : List W32), ([[8]] : List (List W32)), by simp only [State.granted]; decide +kernel, by decide +kernel, by decide +kernel, by decide +kernel, by decide +kernel⟩,
   ⟨.fwB, .B, 63, 0xFFFFFFFF, 3, hop 1 { open_ := some [4] }, by simp only [State.granted]; decide +kernel, by decide +kernel, by decide +kernel, by decide +kernel, by decide +kernel⟩,
   ⟨.service, .B, 63, 2, 2, hop 0 {}, by simp only [State.granted]; decide +kernel, by decide +kernel, by decide +kernel, by decide +kernel, by decide +kernel, by decide +kernel⟩,
   ⟨.service, .B, 63, 2, 2, hop 1 {}, by simp only [State.granted]; decide +kernel, by decide +kernel, by decide +kernel, by decide +kernel, by decide +kernel, by decide +kernel⟩,
   ⟨.fwB, .B, 63, 5, (hop 1 {}).fields [(RS .HOP_CFG .B 63, F.HOP_CFG_PROD, 10)], Instr.hopCommit .fwB .B 63, by simp only [State.granted]; decide +kernel, by decide +kernel, by decide +kernel, by decide +kernel⟩⟩

/-- Every clause of Obligations.StepTakesTheCommandThatWaitsLongest has a case. -/
theorem witness_StepTakesTheCommandThatWaitsLongest :
    ∃ s : State, s.pending = [] :=
  ⟨base, by decide +kernel⟩

/-- Every clause of Obligations.StrIdNamesTheReader has a case. -/
theorem witness_StrIdNamesTheReader :
    ∃ r : Req, ∃ m : Nat, ∃ ahead : Nat, ∃ s : State, (m = reqMaster r ∨ m = 7) ∧ s.aoReset = false :=
  ⟨.hp1, 7, 0, base, by decide +kernel, by decide +kernel⟩

/-- Every clause of Obligations.StrataLocksAreGrantedInOrderAndReleased has a case. -/
theorem witness_StrataLocksAreGrantedInOrderAndReleased :
    (∃ r : Req, ∃ t : Fin 16, ∃ s : State, s.granted r .strata ∧ t.val < 12 ∧ s.lockOf r = none) ∧
    (∃ r : Req, ∃ t : Fin 16, ∃ s : State, s.granted r .strata ∧ locksOk s.locks ∧ (12 ≤ t.val ∨ (s.lockOf r).isSome = true)) ∧
    (∃ t : Fin 12, ∃ s : State, ∃ l : Lock, l ∈ s.locks ∧ l.target = t.val ∧ l.since = none ∧ (∀ x ∈ s.locks, x.target = t.val → x.since = none) ∧ (∀ x ∈ s.locks, x.target = t.val → x ≠ l → s.lockBefore l x = true)) ∧
    (∃ t : Fin 12, ∃ s : State, ((∃ x ∈ s.locks, x.target = t.val ∧ x.since.isSome = true) ∨ (∀ x ∈ s.locks, x.target ≠ t.val))) ∧
    (∃ r : Req, ∃ s : State, s.granted r .strata) ∧
    (∃ r : Req, ∃ s : State, ∃ l : Lock, ∃ at_ : Nat, s.lockOf r = some l ∧ l.since = some at_ ∧ (64 ≤ l.beats ∨ at_ + 500 ≤ s.tick)) :=
  ⟨⟨.hp0, 11, base, by simp only [State.granted]; decide +kernel, by decide +kernel, by decide +kernel⟩,
   ⟨.hp0, 12, base, by simp only [State.granted]; decide +kernel, by simp only [locksOk]; decide +kernel, by decide +kernel⟩,
   ⟨11, { base with locks := [{ req := 2, target := 10 }, { req := 1, target := 11, asked := 7 }, { req := 10, target := 11, asked := 7 }] }, { req := 1, target := 11, asked := 7 }, by decide, by decide +kernel, by decide +kernel, by decide +kernel, by decide +kernel⟩,
   ⟨11, { base with locks := [{ req := 2, target := 10 }, { req := 1, target := 11, since := some 3 }] }, by decide +kernel⟩,
   ⟨.hp0, { base with locks := [{ req := 2, target := 11 }, { req := 1, target := 11, since := some 0 }] }, by simp only [State.granted]; decide +kernel⟩,
   ⟨.hp0, { base.atTick 500 with locks := [{ req := 2, target := 11 }, { req := 1, target := 11, since := some 0 }] }, { req := 1, target := 11, since := some 0 }, 0, by decide +kernel, by decide +kernel, by decide +kernel⟩⟩

/-- Every clause of Obligations.WindowAccessesMoveOneWordAndAdvance has a case. -/
theorem witness_WindowAccessesMoveOneWordAndAdvance :
    (∃ r : Req, ∃ be : Fin 16, ∃ ahead : Fin 17, ∃ s : State, s.aoReset = false ∧ s.hasWaiting r = false ∧ s.winWaits r = false ∧ s.winBuf.at r.num = [] ∧ s.winCheck (reqMaster r) r (s.winTgt r) (s.winAddr r) false = .ok) ∧
    (∃ r : Req, ∃ v : W32, ∃ ahead : Fin 17, ∃ s : State, s.aoReset = false ∧ s.hasWaiting r = false ∧ s.winWaits r = false ∧ s.winTgt r ∈ [6, 7, 10, 11] ∧ s.winCheck (reqMaster r) r (s.winTgt r) (s.winAddr r) true = .ok) ∧
    (∃ r : Req, ∃ be : Fin 16, ∃ ahead : Fin 17, ∃ s : State, s.aoReset = false ∧ s.hasWaiting r = false ∧ s.winWaits r = false ∧ s.winCheck (reqMaster r) r (s.winTgt r) (s.winAddr r) false = .denied) ∧
    (∃ r : Req, ∃ be : Fin 16, ∃ ahead : Fin 17, ∃ s : State, s.aoReset = false ∧ s.hasWaiting r = false ∧ s.winWaits r = false ∧ s.winTgt r ∉ [6, 7, 8, 10, 11]) ∧
    (∃ r : Req, ∃ g : WinReg, ∃ v : W32, ∃ s : State, s.granted r .strata) :=
  ⟨⟨.fwB, 15, 16, win .fwB 11 0x7FFFFC, by decide +kernel, by decide +kernel, by decide +kernel, by decide +kernel, by decide +kernel⟩,
   ⟨.boot, 0xFFFFFFFF, 0, win .boot 10 0x7FFFFC, by decide +kernel, by decide +kernel, by decide +kernel, by decide +kernel, by decide +kernel⟩,
   ⟨.fwA, 15, 0, win .fwA 11 0, by decide +kernel, by decide +kernel, by decide +kernel, by decide +kernel⟩,
   ⟨.fwA, 15, 0, win .fwA 12 0, by decide +kernel, by decide +kernel, by decide +kernel, by decide +kernel⟩,
   ⟨.hp1, .ctl, 0xFFFFFFFF, win .hp1 12 0, by simp only [State.granted]; decide +kernel⟩⟩

/-- Every clause of Obligations.RegisterWritesStoreByAccessType has a case. -/
theorem witness_RegisterWritesStoreByAccessType :
    ∃ r : Req, ∃ addr : W32, ∃ v : W32, ∃ s : State, ∃ t : Target, ∃ k : RegKey, locate r (addr.toNat / 4 * 4) = .reg t k ∧ k.name ∈ [RegName.SYS_STATUS, .SYS_EVT, .RFE_CFG, .RFE_LEASE, .RFE_WDOG_PERIOD, .RFE_SWO_FRAME, .RFE_EVT, .SLU_EVT, .HAF_CFG, .HAF_EVT, .ASY_ISO_CFG, .ASY_EVMASK0, .MBX_EVT, .STR_ERR, .STR_EVT, .STR_MCFG, .TB_CFG, .TB_RATE_LO, .TB_STEP_LO, .TB_EVT, .TB_CMP_LO, .PTP_INGRESS, .PTP_PORT_EVT, .REF_TIMING, .REF_PULSE_CFG, .TDM_CFG, .TDM_EVT, .LANE_EVT, .NVL_EVT, .SDI_EVT, .ETH_PORT_CFG, .ETH_PORT_EVT, .ETH_RXF_EVT, .ETH_TXF_PKT, .ALY_EVT, .AUD_DST_EVT, .HBM_CFG, .HBM_EVT, .HOP_EVT, .SEAM_EVT, .FSY_EVT] ∧ s.granted r t ∧ s.idleTarget t = false ∧ s.noPage k = false ∧ s.mayWrite r k v = true ∧ t ≠ .twin :=
  ⟨.boot, w32 (R0 .RFE_LEASE).addr, 0xFFFFFFFF, base, .ao, R0 .RFE_LEASE, by decide +kernel, by decide +kernel, by simp only [State.granted]; decide +kernel, by decide +kernel, by decide +kernel, by decide +kernel, by decide +kernel⟩

/-- Every clause of Obligations.RefusedWritesSetOneErrorBitOnly has a case. -/
theorem witness_RefusedWritesSetOneErrorBitOnly :
    (∃ r : Req, ∃ addr : W32, ∃ v : W32, ∃ be : Fin 16, ∃ w : Waiting, ∃ s : State, s.aoReset = false ∧ w = { master := reqMaster r, req := r, target := s.targetNum r addr, addr := addr, data := some v, be := be, since := s.tick } ∧ s.hasWaiting r = true) ∧
    (∃ r : Req, ∃ addr : W32, ∃ v : W32, ∃ be : Fin 16, ∃ w : Waiting, ∃ s : State, s.aoReset = false ∧ w = { master := reqMaster r, req := r, target := s.targetNum r addr, addr := addr, data := some v, be := be, since := s.tick } ∧ s.hasWaiting r = false ∧ locate r (addr.toNat / 4 * 4) = .unmapped) ∧
    (∃ r : Req, ∃ addr : W32, ∃ v : W32, ∃ be : Fin 16, ∃ w : Waiting, ∃ s : State, ∃ t, ∃ k, s.aoReset = false ∧ w = { master := reqMaster r, req := r, target := s.targetNum r addr, addr := addr, data := some v, be := be, since := s.tick } ∧ s.hasWaiting r = false ∧ locate r (addr.toNat / 4 * 4) = .reg t k ∧ (hasPath r t = false ∨ (s.idleTarget t = false ∨ k.name.row.twin = true) ∧ s.mayWrite r k v = false)) ∧
    (∃ r : Req, ∃ addr : W32, ∃ v : W32, ∃ be : Fin 16, ∃ w : Waiting, ∃ s : State, ∃ t, ∃ k, s.aoReset = false ∧ w = { master := reqMaster r, req := r, target := s.targetNum r addr, addr := addr, data := some v, be := be, since := s.tick } ∧ s.hasWaiting r = false ∧ locate r (addr.toNat / 4 * 4) = .reg t k ∧ hasPath r t = true ∧ s.mayWrite r k v = true ∧ s.lockedOut r t.num = true) ∧
    (∃ r : Req, ∃ addr : W32, ∃ v : W32, ∃ be : Fin 16, ∃ w : Waiting, ∃ s : State, ∃ t, ∃ k, s.aoReset = false ∧ w = { master := reqMaster r, req := r, target := s.targetNum r addr, addr := addr, data := some v, be := be, since := s.tick } ∧ s.hasWaiting r = false ∧ locate r (addr.toNat / 4 * 4) = .reg t k ∧ s.granted r t ∧ s.mayWrite r k v = true ∧ (t = .sideA ∨ t = .sideB) ∧ k.name.row.twin = true) ∧
    (∃ r : Req, ∃ addr : W32, ∃ v : W32, ∃ be : Fin 16, ∃ w : Waiting, ∃ s : State, ∃ t, ∃ k, s.aoReset = false ∧ w = { master := reqMaster r, req := r, target := s.targetNum r addr, addr := addr, data := some v, be := be, since := s.tick } ∧ s.hasWaiting r = false ∧ locate r (addr.toNat / 4 * 4) = .reg t k ∧ s.granted r t ∧ s.mayWrite r k v = true ∧ t = .twin ∧ k.name.row.space = .side ∧ k.name.row.twin = false) ∧
    (∃ r : Req, ∃ addr : W32, ∃ v : W32, ∃ be : Fin 16, ∃ w : Waiting, ∃ s : State, ∃ t, ∃ k, s.aoReset = false ∧ w = { master := reqMaster r, req := r, target := s.targetNum r addr, addr := addr, data := some v, be := be, since := s.tick } ∧ s.hasWaiting r = false ∧ locate r (addr.toNat / 4 * 4) = .reg t k ∧ s.granted r t ∧ s.mayWrite r k v = true ∧ t.side = none ∧ k.name ≠ .WIN_DATA ∧ (t = .twin → k.name.row.space = .side → k.name.row.twin = true) ∧ be ≠ 15) :=
  ⟨⟨.hp0, 0xFFFFFFFF, 5, 15, { master := reqMaster .hp0, req := .hp0, target := base.targetNum .hp0 0xFFFFFFFF, addr := 0xFFFFFFFF, data := some 5, be := 15, since := 0 }, { base with waiting := [{ master := reqMaster .hp0, req := .hp0, target := 11, addr := 0 }] }, by decide +kernel, by decide +kernel, by decide +kernel⟩,
   ⟨.hp0, 0xFFFFFFFF, 5, 15, { master := reqMaster .hp0, req := .hp0, target := State.targetNum (base) .hp0 (0xFFFFFFFF), addr := 0xFFFFFFFF, data := some 5, be := 15, since := 0 }, base, by decide +kernel, by decide +kernel, by decide +kernel, by decide +kernel⟩,
   ⟨.hp0, w32 (R0 .RFE_LEASE).addr, 5, 15, { master := reqMaster .hp0, req := .hp0, target := State.targetNum (base) .hp0 (w32 (R0 .RFE_LEASE).addr), addr := w32 (R0 .RFE_LEASE).addr, data := some 5, be := 15, since := 0 }, base, Target.ao, R0 .RFE_LEASE, by decide +kernel, by decide +kernel, by decide +kernel, by decide +kernel, by decide +kernel⟩,
   ⟨.boot, w32 (R0 .RFE_LEASE).addr, 5, 15, { master := reqMaster .boot, req := .boot, target := State.targetNum ({ base with locks := [{ req := 1, target := Target.ao.num, since := some 0 }] }) .boot (w32 (R0 .RFE_LEASE).addr), addr := w32 (R0 .RFE_LEASE).addr, data := some 5, be := 15, since := 0 }, { base with locks := [{ req := 1, target := Target.ao.num, since := some 0 }] }, Target.ao, R0 .RFE_LEASE, by decide +kernel, by decide +kernel, by decide +kernel, by decide +kernel, by decide +kernel, by decide +kernel, by decide +kernel⟩,
   ⟨.boot, w32 (RS .XPT_OUT_CFG .B 5).addr, 5, 15, { master := reqMaster .boot, req := .boot, target := State.targetNum (base) .boot (w32 (RS .XPT_OUT_CFG .B 5).addr), addr := w32 (RS .XPT_OUT_CFG .B 5).addr, data := some 5, be := 15, since := 0 }, base, Target.sideB, RS .XPT_OUT_CFG .B 5, by decide +kernel, by decide +kernel, by decide +kernel, by decide +kernel, by simp only [State.granted]; decide +kernel, by decide +kernel, by decide +kernel, by decide +kernel⟩,
   ⟨.boot, w32 (0x2000000 + RegName.HBM_CFG.row.base), 5, 15, { master := reqMaster .boot, req := .boot, target := State.targetNum (base) .boot (w32 (0x2000000 + RegName.HBM_CFG.row.base)), addr := w32 (0x2000000 + RegName.HBM_CFG.row.base), data := some 5, be := 15, since := 0 }, base, Target.twin, RegKey.mk .HBM_CFG 0 0 0, by decide +kernel, by decide +kernel, by decide +kernel, by decide +kernel, by simp only [State.granted]; decide +kernel, by decide +kernel, by decide +kernel, by decide +kernel, by decide +kernel⟩,
   ⟨.boot, w32 (R0 .RFE_LEASE).addr, 5, 14, { master := reqMaster .boot, req := .boot, target := State.targetNum (base) .boot (w32 (R0 .RFE_LEASE).addr), addr := w32 (R0 .RFE_LEASE).addr, data := some 5, be := 14, since := 0 }, base, Target.ao, R0 .RFE_LEASE, by decide +kernel, by decide +kernel, by decide +kernel, by decide +kernel, by simp only [State.granted]; decide +kernel, by decide +kernel, by decide +kernel, by decide +kernel, by decide +kernel, by decide +kernel⟩⟩

/-- Every clause of Obligations.TwinWritesReachBothSidesTwoTicksLater has a case. -/
theorem witness_TwinWritesReachBothSidesTwoTicksLater :
    (∃ r : Req, ∃ o : BitVec 23, ∃ v : W32, ∃ k : RegKey, ∃ s : State, locate r (0x2000000 + o.toNat / 4 * 4) = .reg .twin k ∧ k.name.row.twin = true ∧ s.granted r .twin ∧ s.mayWrite r k v = true ∧ s.noPage k = false) ∧
    (∃ i : Nat, ∃ n : RegName, ∃ v : W32, ∃ due : Nat, ∃ s : State, n ∈ [RegName.XPT_OUT_CFG, .SEAM_CFG, .XPT_GEN_CTL, .XPT_GEN_LEVEL, .ALY_HEAD_CFG] ∧ s.twinQ = [(R1 n i, v, due)] ∧ due ≤ s.tick) :=
  ⟨⟨.boot, BitVec.ofNat 23 ((R1 .XPT_OUT_CFG 1023).twinAddr), 0xFFFFFFFF, R1 .XPT_OUT_CFG 1023, base, by decide +kernel, by decide +kernel, by simp only [State.granted]; decide +kernel, by decide +kernel, by decide +kernel⟩,
   ⟨1023, .SEAM_CFG, 0xFFFFFFFF, 9, { base.atTick 9 with twinQ := [(R1 .SEAM_CFG 1023, 0xFFFFFFFF, 9)] }, by decide +kernel, by decide +kernel, by decide +kernel⟩⟩

/-- Every clause of Obligations.HostPortsTrainAndAreReset has a case. -/
theorem witness_HostPortsTrainAndAreReset :
    (∃ p : Fin 2, ∃ speed : Fin 6, ∃ width : Fin 6, ∃ s : State, s.aoReset = false ∧ s.hostParked = false ∧ Bank.E ∉ s.bankLost ∧ bitOf (s.rd (R0 .PARK_HOST)) p = true) ∧
    (∃ p : Fin 2, ∃ speed : Fin 6, ∃ width : Fin 6, ∃ s : State, s.aoReset = false ∧ s.hostParked = false ∧ Bank.E ∉ s.bankLost ∧ bitOf (s.rd (R0 .PARK_HOST)) p = false) ∧
    (∃ c : Instr, ∃ p : Fin 2, ∃ cut : Cut, ∃ s : State, let v := s.cutReads p (portReq p) cut.reads; (c = .perstAssert p cut ∧ s.aoReset = false ∨ (c = .pcieLinkDown p cut ∨ c = .pcieHotReset p cut ∨ c = .functionLevelReset p cut) ∧ s.flag (R1 .STR_HP_STAT p) F.STR_HP_STAT_LINK_UP = true)) ∧
    (∃ p : Fin 2, ∃ cut : Cut, ∃ s : State, s.flag (R1 .STR_HP_STAT p) F.STR_HP_STAT_LINK_UP = false) :=
  ⟨⟨1, 5, 16, { base.regsAt [(R0 .PARK_HOST, 2)] with msixOpen := [] }, by decide +kernel, by decide +kernel, by decide +kernel, by decide +kernel⟩,
   ⟨1, 5, 16, base.regsAt [(R0 .PARK_HOST, 1)], by decide +kernel, by decide +kernel, by decide +kernel, by decide +kernel⟩,
   ⟨.functionLevelReset 1 { reads := [], target := 11 }, 1, { reads := [], target := 11 }, { base.fields [(R1 .STR_HP_STAT 1, F.STR_HP_STAT_LINK_UP, 1), (R1 .STR_HP_STAT 1, F.STR_HP_STAT_BME, 1)] with msixPend := [3, 127], msixOpen := [(1, 5)] }, by decide +kernel⟩,
   ⟨1, { reads := [], target := 11 }, base, by decide +kernel⟩⟩

/-- Every clause of Obligations.ServicePortAndRemoteRequestsAct has a case. -/
theorem witness_ServicePortAndRemoteRequestsAct :
    (∃ op : Byte, ∃ addr : W32, ∃ v : W32, ∃ ahead : Fin 17, ∃ s : State, ∃ x, ∃ u, (op = 0x02#8 ∨ op = 0x12#8) ∧ s.aoReset = false ∧ s.hasWaiting .service = false ∧ s.busWrite 3 .service (addr &&& 0xFFFFFFFC#32) true v = .done x u) ∧
    (∃ op : Byte, ∃ x : W32, ∃ ahead : Fin 17, ∃ s : State, (op = 0x03#8 ∨ op = 0x13#8) ∧ s.aoReset = false ∧ s.hasWaiting .service = false) ∧
    (∃ op : Byte, ∃ addr : W32, ∃ ws : List W32, ∃ ahead : Fin 17, ∃ s : State, op ∉ [0x02#8, 0x12#8, 0x03#8, 0x13#8] ∧ s.hasWaiting .service = false) ∧
    (∃ op : Byte, ∃ addr : W32, ∃ ws : List W32, ∃ ahead : Fin 17, ∃ s : State, s.aoReset = false ∧ s.hasWaiting .service = true) ∧
    (∃ a : Option W32, ∃ s : State, let v := a.elim s fun a => s.blindRead 3 .service (a &&& 0xFFFFFFFC#32); s.aoReset = false) ∧
    (∃ h : Fin 4, ∃ ahead : Fin 17, ∃ w : W32, ∃ ws : List W32, ∃ reply : List W32, ∃ udp : Nat, ∃ rest : List (List W32 × Nat), ∃ s : State, (s.rrp.at h).wait = (w :: ws, udp) :: rest ∧ (s.rrp.at h).last = some (w.toNat / 2 ^ 12 % 256, reply)) ∧
    (∃ h : Fin 4, ∃ ahead : Fin 17, ∃ w : W32, ∃ ws : List W32, ∃ udp : Nat, ∃ rest : List (List W32 × Nat), ∃ s : State, ∃ code, (s.rrp.at h).wait = (w :: ws, udp) :: rest ∧ (∀ p, (s.rrp.at h).last = some p → p.1 ≠ w.toNat / 2 ^ 12 % 256) ∧ rrpError (w :: ws) = some code) ∧
    (∃ h : Fin 4, ∃ ahead : Fin 17, ∃ w : W32, ∃ ws : List W32, ∃ udp : Nat, ∃ rest : List (List W32 × Nat), ∃ s : State, (s.rrp.at h).wait = (w :: ws, udp) :: rest ∧ (∀ p, (s.rrp.at h).last = some p → p.1 ≠ w.toNat / 2 ^ 12 % 256) ∧ rrpError (w :: ws) = none ∧ s.aoReset = false ∧ ws = [0x00500008#32] ∧ w.toNat / 2 ^ 24 % 16 = 1 ∧ w.toNat % 2 ^ 12 = 1) ∧
    (∃ h : Fin 4, ∃ ahead : Fin 17, ∃ w : W32, ∃ ws : List W32, ∃ udp : Nat, ∃ rest : List (List W32 × Nat), ∃ s : State, ∃ a, ∃ v, ∃ x, ∃ u, (s.rrp.at h).wait = (w :: ws, udp) :: rest ∧ (∀ p, (s.rrp.at h).last = some p → p.1 ≠ w.toNat / 2 ^ 12 % 256) ∧ rrpError (w :: ws) = none ∧ ws = [a, v] ∧ w.toNat / 2 ^ 24 % 16 = 2 ∧ s.busWrite 2 (Req.ofHost h) a true v = .done x u ∧ (u.rrp.at h).wait = (s.rrp.at h).wait) :=
  ⟨⟨0x12#8, 0x00500008, 7, 16, base, (base.busWrite 3 .service 0x00500008 true 7).word, (base.busWrite 3 .service 0x00500008 true 7).after base, by decide +kernel, by decide +kernel, by decide +kernel, rfl⟩,
   ⟨0x13#8, 7, 0, base, by decide +kernel, by decide +kernel, by decide +kernel⟩,
   ⟨0x04#8, 3, [7], 0, base, by decide +kernel, by decide +kernel⟩,
   ⟨0x04#8, 3, [7], 0, { base with waiting := [{ master := 3, req := .service, target := 11, addr := 0 }] }, by decide +kernel, by decide +kernel⟩,
   ⟨some 3, base, by decide +kernel⟩,
   ⟨3, 0, 0x11000001#32, [0x00500008], [5], 65535, [], { base with rrp := [(3, { wait := [([0x11000001#32, 0x00500008], 65535)], last := some (0, [5]) })] }, by decide +kernel, by decide +kernel⟩,
   ⟨3, 0, 0x11001101, [0x00500008], 65535, [], { base with rrp := [(3, { wait := [([0x11001101, 0x00500008], 65535)], last := some (0, [5]) })] }, (3 : Nat), by decide +kernel, by decide +kernel, by decide +kernel⟩,
   ⟨3, 0, 0x11001001, [0x00500008], 65535, [], { base with rrp := [(3, { wait := [([0x11001001, 0x00500008], 65535)], last := some (0, [5]) })] }, by decide +kernel, by decide +kernel, by decide +kernel, by decide +kernel, by decide +kernel, by decide +kernel, by decide +kernel⟩,
   ⟨3, 0, 0x12001001, [0x00500008, 9], 65535, [], { base with rrp := [(3, { wait := [([0x12001001, 0x00500008, 9], 65535)], last := some (0, [5]) })] }, (0x00500008 : W32), (9 : W32), (({ base with rrp := [(3, { wait := [([0x12001001, 0x00500008, 9], 65535)], last := some (0, [5]) })] }).busWrite 2 (Req.ofHost 3) 0x00500008 true 9).word, (({ base with rrp := [(3, { wait := [([0x12001001, 0x00500008, 9], 65535)], last := some (0, [5]) })] }).busWrite 2 (Req.ofHost 3) 0x00500008 true 9).after ({ base with rrp := [(3, { wait := [([0x12001001, 0x00500008, 9], 65535)], last := some (0, [5]) })] }), by decide +kernel, by decide +kernel, by decide +kernel, by decide +kernel, by decide +kernel, rfl, by decide +kernel⟩⟩

/-- Every clause of Obligations.MailboxCommandsFollowTheStateTable has a case. -/
theorem witness_MailboxCommandsFollowTheStateTable :
    (∃ r : Req, ∃ b : Fin 32, ∃ be : Fin 16, ∃ s : State, s.granted r .ao ∧ s.mbxState b = 0) ∧
    (∃ r : Req, ∃ b : Fin 32, ∃ be : Fin 16, ∃ s : State, s.granted r .ao ∧ s.mbxState b ≠ 0) ∧
    (∃ r : Req, ∃ b : Fin 32, ∃ w : Fin 16, ∃ v : W32, ∃ s : State, s.granted r .ao ∧ s.mbxOwner b = r.num ∧ s.mbxState b = 1) ∧
    (∃ r : Req, ∃ b : Fin 32, ∃ w : Fin 16, ∃ v : W32, ∃ s : State, s.granted r .ao ∧ s.mbxOwner b = r.num ∧ s.mbxState b ≠ 1) ∧
    (∃ r : Req, ∃ b : Fin 32, ∃ v : W32, ∃ s : State, s.granted r .ao ∧ s.mbxOwner b = r.num ∧ s.mbxState b = 1 ∧ bitOf v 0 = true) ∧
    (∃ r : Req, ∃ b : Fin 32, ∃ v : W32, ∃ s : State, s.granted r .ao ∧ s.mbxReceiver b = r.num ∧ s.mbxState b = 2) ∧
    (∃ r : Req, ∃ b : Fin 32, ∃ v : W32, ∃ s : State, s.granted r .ao ∧ s.mbxOwner b = r.num ∧ s.mbxState b ≠ 2 ∧ bitOf v 0 = true) ∧
    (∃ r : Req, ∃ b : Fin 32, ∃ v : W32, ∃ s : State, s.granted r .ao ∧ s.mbxOwner b = r.num ∧ s.mbxState b = 2 ∧ bitOf v 0 = true) ∧
    (∃ r : Req, ∃ b : Fin 32, ∃ v : W32, ∃ s : State, s.granted r .ao ∧ is7or10 r = true ∧ s.mbxState b = 0) :=
  ⟨⟨.hp0, 31, 15, base, by simp only [State.granted]; decide +kernel, by decide +kernel⟩,
   ⟨.hp0, 0, 1, base.fields [(R1 .MBX_STAT 0, F.MBX_STAT_STATE, 1), (R1 .MBX_STAT 0, F.MBX_STAT_OWNER, 7)], by simp only [State.granted]; decide +kernel, by decide +kernel⟩,
   ⟨.hp0, 31, 15, 7, base.fields [(R1 .MBX_STAT 31, F.MBX_STAT_STATE, 1), (R1 .MBX_STAT 31, F.MBX_STAT_OWNER, 1)], by simp only [State.granted]; decide +kernel, by decide +kernel, by decide +kernel⟩,
   ⟨.hp0, 31, 15, 7, base.fields [(R1 .MBX_STAT 31, F.MBX_STAT_STATE, 2), (R1 .MBX_STAT 31, F.MBX_STAT_OWNER, 1)], by simp only [State.granted]; decide +kernel, by decide +kernel, by decide +kernel⟩,
   ⟨.hp0, 31, 1, base.fields [(R1 .MBX_STAT 31, F.MBX_STAT_STATE, 1), (R1 .MBX_STAT 31, F.MBX_STAT_OWNER, 1)], by simp only [State.granted]; decide +kernel, by decide +kernel, by decide +kernel, by decide +kernel⟩,
   ⟨.boot, 31, 0xFFFFFFFF, base.fields [(R1 .MBX_STAT 31, F.MBX_STAT_STATE, 2), (R1 .MBX_STAT 31, F.MBX_STAT_OWNER, 1)], by simp only [State.granted]; decide +kernel, by decide +kernel, by decide +kernel⟩,
   ⟨.hp0, 0, 1, base.fields [(R1 .MBX_STAT 0, F.MBX_STAT_STATE, 3), (R1 .MBX_STAT 0, F.MBX_STAT_OWNER, 1)], by simp only [State.granted]; decide +kernel, by decide +kernel, by decide +kernel, by decide +kernel⟩,
   ⟨.hp0, 0, 1, base.fields [(R1 .MBX_STAT 0, F.MBX_STAT_STATE, 2), (R1 .MBX_STAT 0, F.MBX_STAT_OWNER, 1)], by simp only [State.granted]; decide +kernel, by decide +kernel, by decide +kernel, by decide +kernel⟩,
   ⟨.service, 31, 15, base, by simp only [State.granted]; decide +kernel, by decide +kernel, by decide +kernel⟩⟩

/-- Every clause of Obligations.EventSourcesReachTheirDestinations has a case. -/
theorem witness_EventSourcesReachTheirDestinations :
    (∃ r : Req, ∃ k : Fin 48, ∃ v : W32, ∃ s : State, s.granted r .ao ∧ s.mayStatus r k v = true) ∧
    (∃ r : Req, ∃ k : Fin 48, ∃ v : W32, ∃ s : State, s.granted r .ao ∧ s.mayEnable r k v = true) ∧
    (∃ r : Req, ∃ k : Fin 48, ∃ v : W32, ∃ s : State, s.granted r .ao ∧ s.mayStatus r k v = false) ∧
    (∃ r : Req, ∃ k : Fin 48, ∃ v : W32, ∃ s : State, s.granted r .ao ∧ s.mayEnable r k v = false) ∧
    (∃ r : Req, ∃ k : Fin 48, ∃ v : W32, ∃ s : State, s.granted r .ao ∧ (∀ j : Fin 32, bitOf v j = true → maySet r (32 * k + j) = true)) ∧
    (∃ r : Req, ∃ k : Fin 48, ∃ v : W32, ∃ s : State, ∃ j : Fin 32, s.granted r .ao ∧ bitOf v j = true ∧ maySet r (32 * k + j) = false) ∧
    (∃ r : Req, ∃ e : Fin 1536, ∃ v : W32, ∃ s : State, s.granted r .ao ∧ s.mayRoute_ r e v = true) ∧
    (∃ r : Req, ∃ e : Fin 1536, ∃ v : W32, ∃ s : State, s.granted r .ao ∧ s.mayRoute_ r e v = false) ∧
    (∃ e : Nat, ∃ es : List Nat, ∃ s : State, s.fired = e :: es ∧ (∀ p v h, s.dest e ≠ .vector p v ∧ s.dest e ≠ .host h)) ∧
    (∃ e : Nat, ∃ es : List Nat, ∃ s : State, ∃ p, ∃ v, s.fired = e :: es ∧ s.dest e = .vector p v ∧ 64 * p + v ∉ s.vecHigh ∧ s.msixBlocked p v = false) ∧
    (∃ e : Nat, ∃ es : List Nat, ∃ s : State, ∃ p, ∃ v, s.fired = e :: es ∧ s.dest e = .vector p v ∧ 64 * p + v ∉ s.vecHigh ∧ s.msixBlocked p v = true) ∧
    (∃ e : Nat, ∃ es : List Nat, ∃ s : State, ∃ p, ∃ v, s.fired = e :: es ∧ s.dest e = .vector p v ∧ 64 * p + v ∈ s.vecHigh) ∧
    (∃ e : Nat, ∃ es : List Nat, ∃ s : State, ∃ h, s.fired = e :: es ∧ s.dest e = .host h) :=
  ⟨⟨.boot, 47, 0xFFFFFFFF, base.regsAt [(R1 .EVT_STATUS 47, 5)], by simp only [State.granted]; decide +kernel, by decide +kernel⟩,
   ⟨.boot, 47, 0xFFFFFFFF, base.regsAt [(R1 .EVT_STATUS 47, 5), (R1 .EVT_ROUTE 1504, 3)], by simp only [State.granted]; decide +kernel, by decide +kernel⟩,
   ⟨.hp0, 47, 1, base.regsAt [(R1 .EVT_STATUS 47, 5)], by simp only [State.granted]; decide +kernel, by decide +kernel⟩,
   ⟨.hp0, 0, 1, base, by simp only [State.granted]; decide +kernel, by decide +kernel⟩,
   ⟨.hp0, 47, 0xF0, base, by simp only [State.granted]; decide +kernel, by decide +kernel⟩,
   ⟨.hp0, 0, 0x80000000, base, 31, by simp only [State.granted]; decide +kernel, by decide +kernel, by decide +kernel⟩,
   ⟨.boot, 1535, 0xFFFFFFFF, base, by simp only [State.granted]; decide +kernel, by decide +kernel⟩,
   ⟨.hp0, 1535, 1, base, by simp only [State.granted]; decide +kernel, by decide +kernel⟩,
   ⟨1280, [1281], { base with fired := [1280, 1281] }, by decide +kernel, fun p v h => ⟨fun c => (by cases c), fun c => (by cases c)⟩⟩,
   ⟨1280, [], { (base.regsAt [(R1 .EVT_ROUTE 1280, 2 + 63 * 8)]).fields [(R1 .STR_HP_STAT 1, F.STR_HP_STAT_BME, 1), (R1 .STR_HP_STAT 1, F.STR_HP_STAT_MSIX_EN, 1)] with fired := [1280], msixOpen := [(1, 0xFFFFFFFFFFFFFFFF)] }, (1 : Nat), (63 : Nat), by decide +kernel, by decide +kernel, by decide +kernel, by decide +kernel⟩,
   ⟨1280, [], { base.regsAt [(R1 .EVT_ROUTE 1280, 2 + 63 * 8)] with fired := [1280] }, (1 : Nat), (63 : Nat), by decide +kernel, by decide +kernel, by decide +kernel, by decide +kernel⟩,
   ⟨1280, [], { base.regsAt [(R1 .EVT_ROUTE 1280, 1)] with fired := [1280], vecHigh := [0] }, (0 : Nat), (0 : Nat), by decide +kernel, by decide +kernel, by decide +kernel⟩,
   ⟨0, [], { base.regsAt [(R1 .EVT_ROUTE 0, 3 + 3 * 512)] with fired := [0] }, (3 : Nat), by decide +kernel, by decide +kernel⟩⟩

/-- Every clause of Obligations.ResetsBootAndSideStarts has a case. -/
theorem witness_ResetsBootAndSideStarts :
    (∃ s : State, ∃ p : Instr × Nat, p ∈ [(Instr.aoResetAssert, 1), (.aoDip, 2)]) ∧
    (∃ s : State, s.aoReset = false) ∧
    (∃ s : State, s.aoReset = true) ∧
    (∃ ok : Bool, ∃ s : State, (s.aoReset = true ∨ s.otpOk = true ∨ s.flag (R0 .SEC_STAT) F.SEC_STAT_OTP_BAD = true)) ∧
    (∃ ok : Bool, ∃ s : State, s.aoReset = false ∧ s.otpOk = false ∧ s.flag (R0 .SEC_STAT) F.SEC_STAT_OTP_BAD = false ∧ ok = false) ∧
    (∃ ok : Bool, ∃ s : State, s.aoReset = false ∧ s.otpOk = false ∧ s.flag (R0 .SEC_STAT) F.SEC_STAT_OTP_BAD = false ∧ ok = true) ∧
    (∃ p : Option Structure_, ∃ s : State, (s.aoReset = true ∨ s.otpOk = false ∨ s.loaded = true ∨ s.fld (R0 .UMW_STAT) F.UMW_STAT_STATE = 2)) ∧
    (∃ p : Option Structure_, ∃ s : State, s.aoReset = false ∧ s.otpOk = true ∧ s.loaded = false ∧ s.fld (R0 .UMW_STAT) F.UMW_STAT_STATE ≠ 2 ∧ p = none) ∧
    (∃ p : Option Structure_, ∃ s : State, ∃ x, s.aoReset = false ∧ s.otpOk = true ∧ s.loaded = false ∧ s.fld (R0 .UMW_STAT) F.UMW_STAT_STATE ≠ 2 ∧ p = some x) ∧
    (∃ sd : Side, ∃ s : State, (s.loaded = false ∨ (s.side sd).inReset = false ∨ (s.side sd).isolated = true ∨ (s.side sd).cold = true ∨ (s.side sd).powered = false ∨ (s.therm.at sd.idx).min < -5)) ∧
    (∃ sd : Side, ∃ h : BootHdr, ∃ s : State, s.loaded = true ∧ (s.side sd).inReset = true ∧ (s.side sd).isolated = false ∧ (s.side sd).cold = false ∧ (s.side sd).powered = true ∧ -5 ≤ (s.therm.at sd.idx).min ∧ h = s.bootHdr sd.idx ∧ (h.isConfirmed h.active = true ∨ h.tries < 3)) ∧
    (∃ sd : Side, ∃ h : BootHdr, ∃ s : State, s.loaded = true ∧ (s.side sd).inReset = true ∧ (s.side sd).isolated = false ∧ (s.side sd).cold = false ∧ (s.side sd).powered = true ∧ -5 ≤ (s.therm.at sd.idx).min ∧ h = s.bootHdr sd.idx ∧ h.isConfirmed h.active = false ∧ 3 ≤ h.tries) :=
  ⟨⟨{ base.regsAt [(R1 .EVT_STATUS 47, 5)] with svn := 3 }, (Instr.aoDip, 2), by decide +kernel⟩,
   ⟨base, by decide +kernel⟩,
   ⟨low, by decide +kernel⟩,
   ⟨true, base, by decide +kernel⟩,
   ⟨false, { State.reset with aoReset := false }, by decide +kernel, by decide +kernel, by decide +kernel, by decide +kernel⟩,
   ⟨true, staged 0 (some { kind := 2, verified := true }) (flashed 1 2 0 0 { State.reset with aoReset := false }), by decide +kernel, by decide +kernel, by decide +kernel, by decide +kernel⟩,
   ⟨none, base, by decide +kernel⟩,
   ⟨none, { State.reset with aoReset := false, otpOk := true }, by decide +kernel, by decide +kernel, by decide +kernel, by decide +kernel, by decide +kernel⟩,
   ⟨some { baseVer := 7, sideVer := 8 }, { State.reset with aoReset := false, otpOk := true }, ({ baseVer := 7, sideVer := 8 } : Structure_), by decide +kernel, by decide +kernel, by decide +kernel, by decide +kernel, by decide +kernel⟩,
   ⟨.B, base, by decide +kernel⟩,
   ⟨.B, ({ seq := 5, active := 1, confirmed := 1, tries := 2, prev := 0, copy := 0 } : BootHdr), flashed 1 1 2 0 { base with sideB := { powered := true } }, by decide +kernel, by decide +kernel, by decide +kernel, by decide +kernel, by decide +kernel, by decide +kernel, by decide +kernel, by decide +kernel⟩,
   ⟨.B, ({ seq := 5, active := 1, confirmed := 1, tries := 3, prev := 0, copy := 0 } : BootHdr), flashed 1 1 3 0 { base with sideB := { powered := true } }, by decide +kernel, by decide +kernel, by decide +kernel, by decide +kernel, by decide +kernel, by decide +kernel, by decide +kernel, by decide +kernel, by decide +kernel⟩⟩

/-- Every clause of Obligations.DownloadsThroughTheUpdateMailbox has a case. -/
theorem witness_DownloadsThroughTheUpdateMailbox :
    (∃ w : Option (List W32), ∃ fl : Bool, ∃ ch : Change, ∃ s : State, ∃ p : Instr × Nat, p ∈ [(Instr.updBegin, 1), (.updData, 2), (.updPieceEnd fl, 3), (.updStatus, 4), (.updVerify w ch fl, 5), (.updActivate fl, 6), (.updConfirm fl, 7), (.updAbort, 8), (.updApply, 9)] ∧ (s.aoReset = true ∨ s.mbxState s.updMbx ≠ 2 ∨ s.mbxReceiver s.updMbx ≠ 10)) ∧
    (∃ w : Option (List W32), ∃ fl : Bool, ∃ ch : Change, ∃ s : State, ∃ p : Instr × Nat, ∃ n, p ∈ [(Instr.updBegin, 1), (.updData, 2), (.updPieceEnd fl, 3), (.updStatus, 4), (.updVerify w ch fl, 5), (.updActivate fl, 6), (.updConfirm fl, 7), (.updAbort, 8), (.updApply, 9)] ∧ s.hasMsg n ∧ 1 ≤ n ∧ n ≤ 10 ∧ n ≠ p.2) ∧
    (∃ w : Option (List W32), ∃ fl : Bool, ∃ ch : Change, ∃ s : State, ∃ p : Instr × Nat, ∃ n, p ∈ [(Instr.updBegin, 1), (.updData, 2), (.updPieceEnd fl, 3), (.updStatus, 4), (.updVerify w ch fl, 5), (.updActivate fl, 6), (.updConfirm fl, 7), (.updAbort, 8), (.updApply, 9)] ∧ s.hasMsg n ∧ (n = 0 ∨ 10 < n)) ∧
    (∃ w : Option (List W32), ∃ fl : Bool, ∃ ch : Change, ∃ s : State, ∃ p : Instr × Nat, p ∈ [(Instr.updBegin, 1), (.updData, 2), (.updPieceEnd fl, 3), (.updStatus, 4), (.updVerify w ch fl, 5), (.updActivate fl, 6), (.updConfirm fl, 7), (.updAbort, 8), (.updApply, 9)] ∧ s.hasMsg p.2 ∧ 2 ≤ p.2 ∧ p.2 ≤ 8 ∧ s.session = none) ∧
    (∃ kind : Nat, ∃ len : Nat, ∃ hash : List W32, ∃ s : State, ∃ code, s.hasMsg 1 ∧ kind = (s.msg 1).toNat ∧ len = (s.msg 2).toNat ∧ hash = s.msgWords 3 8 ∧ (3 ≤ s.stage → code = 9) ∧ (s.stage < 3 → kind ≠ 1 → kind ≠ 2 → code = 2) ∧ (s.stage < 3 → kind = 1 ∨ kind = 2 → 16773120 < len → code = 13) ∧ (3 ≤ s.stage ∨ kind ≠ 1 ∧ kind ≠ 2 ∨ 16773120 < len)) ∧
    (∃ kind : Nat, ∃ len : Nat, ∃ hash : List W32, ∃ s : State, ∃ x, s.hasMsg 1 ∧ kind = (s.msg 1).toNat ∧ len = (s.msg 2).toNat ∧ hash = s.msgWords 3 8 ∧ s.stage < 3 ∧ (kind = 1 ∨ kind = 2) ∧ len ≤ 16773120 ∧ s.session = some x ∧ x.kind = kind ∧ x.hash = hash) ∧
    (∃ kind : Nat, ∃ len : Nat, ∃ hash : List W32, ∃ s : State, s.hasMsg 1 ∧ kind = (s.msg 1).toNat ∧ len = (s.msg 2).toNat ∧ hash = s.msgWords 3 8 ∧ s.stage < 3 ∧ (kind = 1 ∨ kind = 2) ∧ len ≤ 16773120 ∧ (∀ x, s.session = some x → x.kind ≠ kind ∨ x.hash ≠ hash)) ∧
    (∃ x : Session, ∃ p : Nat, ∃ i : Nat, ∃ s : State, s.hasMsg 2 ∧ s.session = some x ∧ p = s.msgPart ∧ i = s.msgArg ∧ (68 < p ∨ x.pieces ≤ i)) ∧
    (∃ x : Session, ∃ p : Nat, ∃ i : Nat, ∃ s : State, s.hasMsg 2 ∧ s.session = some x ∧ p = s.msgPart ∧ i = s.msgArg ∧ p ≤ 68 ∧ i < x.pieces) ∧
    (∃ x : Session, ∃ fl : Bool, ∃ i : Nat, ∃ ws : List W32, ∃ s : State, ∃ code, s.hasMsg 3 ∧ s.session = some x ∧ i = s.msgArg ∧ ws = s.pieceWords i ∧ ((x.pieces ≤ i ∧ code = 3) ∨ i < x.pieces ∧ i ∈ x.done ∧ code = 0 ∨ i < x.pieces ∧ i ∉ x.done ∧ ws.length ≠ 1024 ∧ code = 3 ∨ i < x.pieces ∧ i ∉ x.done ∧ ws.length = 1024 ∧ shaOfWords ws ≠ s.msgWords 1 8 ∧ code = 4 ∨ i < x.pieces ∧ i ∉ x.done ∧ ws.length = 1024 ∧ shaOfWords ws = s.msgWords 1 8 ∧ fl = false ∧ code = 12)) ∧
    (∃ x : Session, ∃ fl : Bool, ∃ i : Nat, ∃ ws : List W32, ∃ s : State, s.hasMsg 3 ∧ s.session = some x ∧ i = s.msgArg ∧ ws = s.pieceWords i ∧ i < x.pieces ∧ i ∉ x.done ∧ ws.length = 1024 ∧ shaOfWords ws = s.msgWords 1 8 ∧ fl = true) ∧
    (∃ x : Session, ∃ m : Nat, ∃ s : State, s.hasMsg 4 ∧ s.session = some x ∧ m ≤ x.pieces ∧ (m < x.pieces → m ∉ x.done) ∧ (∀ j < m, j ∈ x.done)) ∧
    (∃ x : Session, ∃ w : Option (List W32), ∃ ch : Change, ∃ fl : Bool, ∃ s : State, ∃ code, s.hasMsg 5 ∧ s.session = some x ∧ (s.stage ≠ 1 ∧ code = 9 ∨ s.stage = 1 ∧ s.flag (R0 .UMW_STAT) F.UMW_STAT_BUSY = true ∧ code = 1 ∨ s.stage = 1 ∧ s.flag (R0 .UMW_STAT) F.UMW_STAT_BUSY = false ∧ (∃ i < x.pieces, i ∉ x.done) ∧ code = 3 ∨ s.stage = 1 ∧ s.flag (R0 .UMW_STAT) F.UMW_STAT_BUSY = false ∧ (∀ i < x.pieces, i ∈ x.done) ∧ leWords (sha256 (s.packageBytes x)) ≠ x.hash ∧ code = 4)) ∧
    (∃ x : Session, ∃ w : Option (List W32), ∃ ch : Change, ∃ fl : Bool, ∃ s : State, ∃ code, s.hasMsg 5 ∧ s.session = some x ∧ s.stage = 1 ∧ s.flag (R0 .UMW_STAT) F.UMW_STAT_BUSY = false ∧ (∀ i < x.pieces, i ∈ x.done) ∧ leWords (sha256 (s.packageBytes x)) = x.hash ∧ x.kind ≠ 1 ∧ code = (if imageType (s.packageWords x) = 4 then 8 else s.imageCode (s.packageWords x) x.len (sectionsOk (imageType (s.packageWords x))) (decide (ch.type = imageType (s.packageWords x)) && s.changeLawful ch))) ∧
    (∃ x : Session, ∃ w : Option (List W32), ∃ ch : Change, ∃ fl : Bool, ∃ s : State, ∃ code, s.hasMsg 5 ∧ s.session = some x ∧ s.stage = 1 ∧ s.flag (R0 .UMW_STAT) F.UMW_STAT_BUSY = false ∧ (∀ i < x.pieces, i ∈ x.done) ∧ leWords (sha256 (s.packageBytes x)) = x.hash ∧ x.kind = 1 ∧ code = (if imageType (s.packageWords x) = 4 then s.imageCode (s.packageWords x) x.len (fun ts => decide (ts.length = 1)) true else 8)) :=
  ⟨⟨none, true, .base {}, base, (Instr.updBegin, 1), by decide +kernel, by decide +kernel⟩,
   ⟨none, true, .base {}, mail base [10], (Instr.updApply, 9), (10 : Nat), by decide +kernel, by simp only [State.hasMsg]; decide +kernel, by decide +kernel, by decide +kernel, by decide +kernel⟩,
   ⟨none, true, .base {}, mail base [0xFF0B], (Instr.updApply, 9), (11 : Nat), by decide +kernel, by simp only [State.hasMsg]; decide +kernel, by decide +kernel⟩,
   ⟨none, true, .base {}, mail base [0xFF08], (Instr.updAbort, 8), by decide +kernel, by simp only [State.hasMsg]; decide +kernel, by decide +kernel, by decide +kernel, by decide +kernel⟩,
   ⟨1, 16773121, [1, 2, 3, 4, 5, 6, 7, 8], mail (staged 2 none base) [1, 1, 16773121, 1, 2, 3, 4, 5, 6, 7, 8], (13 : Nat), by simp only [State.hasMsg]; decide +kernel, by decide +kernel, by decide +kernel, by decide +kernel, by decide +kernel, by decide +kernel, by decide +kernel, by decide +kernel⟩,
   ⟨2, 16773120, [1, 2, 3, 4, 5, 6, 7, 8], mail (staged 2 (some { kind := 2, len := 16773120, hash := [1, 2, 3, 4, 5, 6, 7, 8] }) base) [1, 2, 16773120, 1, 2, 3, 4, 5, 6, 7, 8], ({ kind := 2, len := 16773120, hash := [1, 2, 3, 4, 5, 6, 7, 8] } : Session), by simp only [State.hasMsg]; decide +kernel, by decide +kernel, by decide +kernel, by decide +kernel, by decide +kernel, by decide +kernel, by decide +kernel, by decide +kernel, by decide +kernel, by decide +kernel⟩,
   ⟨1, 16773120, [1, 2, 3, 4, 5, 6, 7, 8], mail (staged 2 (some { kind := 2, hash := [1, 2, 3, 4, 5, 6, 7, 8] }) base) [1, 1, 16773120, 1, 2, 3, 4, 5, 6, 7, 8], by simp only [State.hasMsg]; decide +kernel, by decide +kernel, by decide +kernel, by decide +kernel, by decide +kernel, by decide +kernel, by decide +kernel, by decide +kernel⟩,
   ⟨four 1 0, 68, 1, mail (staged 1 (some (four 1 0)) base) [2 + 68 * 256 + 65536], by simp only [State.hasMsg]; decide +kernel, by decide +kernel, by decide +kernel, by decide +kernel, by decide +kernel⟩,
   ⟨{ kind := 1, len := 8192 }, 68, 1, mail (staged 1 (some { kind := 1, len := 8192 }) base) [2 + 68 * 256 + 65536, 7], by simp only [State.hasMsg]; decide +kernel, by decide +kernel, by decide +kernel, by decide +kernel, by decide +kernel, by decide +kernel⟩,
   ⟨{ kind := 1, len := 8192 }, true, 1, [], mail (staged 1 (some { kind := 1, len := 8192 }) base) [3 + 65536, 7], (3 : Nat), by simp only [State.hasMsg]; decide +kernel, by decide +kernel, by decide +kernel, by decide +kernel, by decide +kernel⟩,
   ⟨{ len := 4096 }, true, 0, List.replicate 1024 0, pieceMail (shaOfWords (List.replicate 1024 0)), pieceMail_has _, by decide +kernel, by decide +kernel, pieceMail_words _, by decide +kernel, by decide +kernel, by decide +kernel, pieceMail_hash _ (by decide +kernel), by decide +kernel⟩,
   ⟨{ kind := 1, len := 8193, done := [0, 2] }, 1, mail (staged 1 (some { kind := 1, len := 8193, done := [0, 2] }) base) [4], by simp only [State.hasMsg]; decide +kernel, by decide +kernel, by decide +kernel, by decide +kernel, by decide +kernel⟩,
   ⟨four 1 0, none, .base {}, true, mail (staged 2 (some (four 1 0)) base) [5], (9 : Nat), by simp only [State.hasMsg]; decide +kernel, by decide +kernel, by decide +kernel⟩,
   ⟨four 2 0x10003, none, .base {}, true, mail (staged 1 (some (four 2 0x10003)) (journal 0x10003 base)) [5], (8 : Nat), by simp only [State.hasMsg]; decide +kernel, by decide +kernel, by decide +kernel, by decide +kernel, by decide +kernel, by decide +kernel, by decide +kernel, by decide +kernel⟩,
   ⟨four 1 0x10004, none, .base {}, true, mail (staged 1 (some (four 1 0x10004)) (journal 0x10004 base)) [5], (8 : Nat), by simp only [State.hasMsg]; decide +kernel, by decide +kernel, by decide +kernel, by decide +kernel, by decide +kernel, by decide +kernel, by decide +kernel, by decide +kernel⟩⟩

/-- Every clause of Obligations.FirmwareStagesTrialsAndReports has a case. -/
theorem witness_FirmwareStagesTrialsAndReports :
    (∃ x : Session, ∃ fl : Bool, ∃ s : State, ∃ code, s.hasMsg 6 ∧ s.session = some x ∧ (x.kind ≠ 1 ∧ code = 2 ∨ x.kind = 1 ∧ s.stage ≠ 2 ∧ code = 9 ∨ x.kind = 1 ∧ s.stage = 2 ∧ s.readyStandby = none ∧ code = 9 ∨ x.kind = 1 ∧ s.stage = 2 ∧ s.readyStandby ≠ none ∧ x.target.svn < s.svn ∧ code = 7 ∨ x.kind = 1 ∧ s.stage = 2 ∧ s.readyStandby ≠ none ∧ s.svn ≤ x.target.svn ∧ fl = false ∧ code = 12)) ∧
    (∃ x : Session, ∃ fl : Bool, ∃ s : State, ∃ y, ∃ k, s.hasMsg 6 ∧ s.session = some x ∧ x.kind = 1 ∧ s.stage = 2 ∧ s.readyStandby = some y ∧ s.svn ≤ x.target.svn ∧ fl = true ∧ k = x.slots.getD y.idx 1 ∧ k < 2) ∧
    (∃ x : Session, ∃ y : Side, ∃ fl : Bool, ∃ s : State, ∃ code, s.hasMsg 7 ∧ s.session = some x ∧ y = s.updSide ∧ (x.kind ≠ 1 ∧ code = 2 ∨ x.kind = 1 ∧ s.stage ≠ 3 ∧ code = 9 ∨ x.kind = 1 ∧ s.stage = 3 ∧ s.confirming = false ∧ s.flag (R0 .UPD_STAT) F.UPD_STAT_TRIAL_DONE = false ∧ code = 9)) ∧
    (∃ x : Session, ∃ y : Side, ∃ fl : Bool, ∃ s : State, s.hasMsg 7 ∧ s.session = some x ∧ y = s.updSide ∧ x.kind = 1 ∧ s.stage = 3 ∧ s.confirming = true ∧ s.planned.isSome = true) ∧
    (∃ x : Session, ∃ y : Side, ∃ fl : Bool, ∃ s : State, s.hasMsg 7 ∧ s.session = some x ∧ y = s.updSide ∧ x.kind = 1 ∧ s.stage = 3 ∧ s.confirming = true ∧ s.planned = none ∧ s.holder ≠ some y) ∧
    (∃ x : Session, ∃ y : Side, ∃ fl : Bool, ∃ s : State, s.hasMsg 7 ∧ s.session = some x ∧ y = s.updSide ∧ x.kind = 1 ∧ s.stage = 3 ∧ s.holder = some y ∧ (s.confirming = true ∧ s.planned = none ∨ s.confirming = false ∧ s.flag (R0 .UPD_STAT) F.UPD_STAT_TRIAL_DONE = true ∧ fl = true)) ∧
    (∃ x : Session, ∃ y : Side, ∃ fl : Bool, ∃ s : State, s.hasMsg 7 ∧ s.session = some x ∧ y = s.updSide ∧ x.kind = 1 ∧ s.stage = 3 ∧ s.holder ≠ some y ∧ s.confirming = false ∧ s.flag (R0 .UPD_STAT) F.UPD_STAT_TRIAL_DONE = true ∧ fl = true ∧ s.planned = none) ∧
    (∃ x : Session, ∃ y : Side, ∃ s : State, s.hasMsg 8 ∧ s.session = some x ∧ y = s.updSide ∧ s.stage < 3) ∧
    (∃ x : Session, ∃ y : Side, ∃ s : State, s.hasMsg 8 ∧ s.session = some x ∧ y = s.updSide ∧ 3 ≤ s.stage) ∧
    (∃ s : State, (s.stage ≠ 3 ∨ s.trialOver = false)) ∧
    (∃ s : State, s.stage = 3 ∧ s.trialOver = true) ∧
    (∃ s : State, (s.session = none ∨ s.stage ≠ 4 ∨ s.trialOver = false)) ∧
    (∃ s : State, ∃ x, s.session = some x ∧ s.stage = 4 ∧ s.trialOver = true) ∧
    (∃ m : Nat, ∃ ws : List W32, ∃ s : State, s.attest = none ∧ s.hasMsg 10 ∧ m = (s.msg 9).toNat ∧ ws = s.attestReport (s.msgWords 1 8) ∧ (32 ≤ m ∨ s.mbxState m ≠ 0)) ∧
    (∃ m : Nat, ∃ ws : List W32, ∃ s : State, s.attest = none ∧ s.hasMsg 10 ∧ m = (s.msg 9).toNat ∧ ws = s.attestReport (s.msgWords 1 8) ∧ m < 32 ∧ s.mbxState m = 0) ∧
    (∃ m : Nat, ∃ ws : List W32, ∃ s : State, s.attest = some (m, ws) ∧ s.mbxState m = 0) ∧
    (∃ m : Nat, ∃ ws : List W32, ∃ s : State, s.attest = some (m, ws) ∧ s.mbxState m = 3 ∧ s.mbxOwner m = 10) ∧
    (∃ m : Nat, ∃ ws : List W32, ∃ s : State, s.attest = some (m, ws) ∧ s.mbxState m ≠ 0 ∧ (s.mbxState m ≠ 3 ∨ s.mbxOwner m ≠ 10)) :=
  ⟨⟨four 1 0, false, mail (staged 2 (some (four 1 0)) { stepped with svn := 5 }) [6], (12 : Nat), by simp only [State.hasMsg]; decide +kernel, by decide +kernel, by decide +kernel⟩,
   ⟨{ four 1 0 with slots := [1, 0] }, true, flashed 0 1 0 0 (mail (staged 2 (some { four 1 0 with slots := [1, 0] }) { stepped with svn := 5 }) [6]), Side.A, (1 : Nat), by simp only [State.hasMsg]; decide +kernel, by decide +kernel, by decide +kernel, by decide +kernel, by decide +kernel, by decide +kernel, by decide +kernel, by decide +kernel, by decide +kernel⟩,
   ⟨four 1 0, .B, true, mail (staged 3 (some (four 1 0)) { stepped with updSide := .B }) [7], (9 : Nat), by simp only [State.hasMsg]; decide +kernel, by decide +kernel, by decide +kernel, by decide +kernel⟩,
   ⟨four 1 0, .B, true, mail (staged 3 (some (four 1 0)) { stepped with updSide := .B, confirming := true, planned := some (0, 5) }) [7], by simp only [State.hasMsg]; decide +kernel, by decide +kernel, by decide +kernel, by decide +kernel, by decide +kernel, by decide +kernel, by decide +kernel⟩,
   ⟨four 1 0, .A, true, mail (staged 3 (some (four 1 0)) { stepped with updSide := .A, confirming := true }) [7], by simp only [State.hasMsg]; decide +kernel, by decide +kernel, by decide +kernel, by decide +kernel, by decide +kernel, by decide +kernel, by decide +kernel, by decide +kernel⟩,
   ⟨four 1 0, .B, true, flashed 1 1 0 0 (mail (staged 3 (some (four 1 0)) { stepped.fields [(R0 .UPD_STAT, F.UPD_STAT_TRIAL_DONE, 1)] with updSide := .B }) [7]), by simp only [State.hasMsg]; decide +kernel, by decide +kernel, by decide +kernel, by decide +kernel, by decide +kernel, by decide +kernel, by decide +kernel⟩,
   ⟨four 1 0, .A, true, flashed 1 1 0 0 (mail (staged 3 (some (four 1 0)) { stepped.fields [(R0 .UPD_STAT, F.UPD_STAT_TRIAL_DONE, 1)] with updSide := .A }) [7]), by simp only [State.hasMsg]; decide +kernel, by decide +kernel, by decide +kernel, by decide +kernel, by decide +kernel, by decide +kernel, by decide +kernel, by decide +kernel, by decide +kernel, by decide +kernel⟩,
   ⟨four 1 0, .A, mail (staged 2 (some (four 1 0)) base) [8], by simp only [State.hasMsg]; decide +kernel, by decide +kernel, by decide +kernel, by decide +kernel⟩,
   ⟨four 1 0, .A, flashed 1 1 0 0 (mail (staged 4 (some (four 1 0)) stepped) [8]), by simp only [State.hasMsg]; decide +kernel, by decide +kernel, by decide +kernel, by decide +kernel⟩,
   ⟨base, by decide +kernel⟩,
   ⟨staged 3 none { (base.regsAt [(R0 .UPD_CFG, 1)]).atTick secTicks with updSide := .B, sideB := { stepSince := some 0 } }, by decide +kernel, by decide +kernel⟩,
   ⟨base, by decide +kernel⟩,
   ⟨flashed 1 1 0 0 (staged 4 (some (four 1 0)) { (base.regsAt [(R0 .UPD_CFG, 1)]).atTick secTicks with updSide := .B, sideB := { stepSince := some 0 } }), four 1 0, by decide +kernel, by decide +kernel, by decide +kernel⟩,
   ⟨31, (mail base [10, 1, 2, 3, 4, 5, 6, 7, 8, 31]).attestReport ((mail base [10, 1, 2, 3, 4, 5, 6, 7, 8, 31]).msgWords 1 8), mail base [10, 1, 2, 3, 4, 5, 6, 7, 8, 31], by decide +kernel, by simp only [State.hasMsg]; decide +kernel, by decide +kernel, rfl, by decide +kernel⟩,
   ⟨0, (mail base [10, 1, 2, 3, 4, 5, 6, 7, 8, 0]).attestReport ((mail base [10, 1, 2, 3, 4, 5, 6, 7, 8, 0]).msgWords 1 8), mail base [10, 1, 2, 3, 4, 5, 6, 7, 8, 0], by decide +kernel, by simp only [State.hasMsg]; decide +kernel, by decide +kernel, rfl, by decide +kernel, by decide +kernel⟩,
   ⟨31, [1], { base with attest := some (31, [1]) }, by decide +kernel, by decide +kernel⟩,
   ⟨31, [1], { base.fields [(R1 .MBX_STAT 31, F.MBX_STAT_STATE, 3), (R1 .MBX_STAT 31, F.MBX_STAT_OWNER, 10)] with attest := some (31, [1]) }, by decide +kernel, by decide +kernel, by decide +kernel⟩,
   ⟨31, [1], { base.fields [(R1 .MBX_STAT 31, F.MBX_STAT_STATE, 2), (R1 .MBX_STAT 31, F.MBX_STAT_OWNER, 10)] with attest := some (31, [1]) }, by decide +kernel, by decide +kernel, by decide +kernel⟩⟩

/-- Every clause of Obligations.StructureChangesOneAtATime has a case. -/
theorem witness_StructureChangesOneAtATime :
    (∃ s : State, ∃ code, s.hasMsg 9 ∧ (s.flag (R0 .UMW_STAT) F.UMW_STAT_BUSY = true ∧ code = 1 ∨ s.flag (R0 .UMW_STAT) F.UMW_STAT_BUSY = false ∧ s.session = none ∧ code = 5 ∨ s.flag (R0 .UMW_STAT) F.UMW_STAT_BUSY = false ∧ (∃ x, s.session = some x ∧ (x.kind ≠ 2 ∧ code = 2 ∨ x.kind = 2 ∧ (s.stage ≠ 2 ∨ x.change = none) ∧ code = 9)))) ∧
    (∃ s : State, ∃ x, ∃ v, s.hasMsg 9 ∧ s.flag (R0 .UMW_STAT) F.UMW_STAT_BUSY = false ∧ s.session = some x ∧ x.kind = 2 ∧ s.stage = 2 ∧ x.change = some (.base v)) ∧
    (∃ s : State, ∃ x, ∃ q, ∃ p, s.hasMsg 9 ∧ s.flag (R0 .UMW_STAT) F.UMW_STAT_BUSY = false ∧ s.session = some x ∧ x.kind = 2 ∧ s.stage = 2 ∧ x.change = some (.region q p)) ∧
    (∃ s : State, ∃ x, ∃ p, ∃ code, s.hasMsg 9 ∧ s.flag (R0 .UMW_STAT) F.UMW_STAT_BUSY = false ∧ s.session = some x ∧ x.kind = 2 ∧ s.stage = 2 ∧ x.change = some (.side p) ∧ (s.readyStandby = none ∧ code = 9 ∨ s.readyStandby ≠ none ∧ s.sideInUse p = true ∧ code = 10)) ∧
    (∃ s : State, ∃ x, ∃ p, ∃ y, s.hasMsg 9 ∧ s.flag (R0 .UMW_STAT) F.UMW_STAT_BUSY = false ∧ s.session = some x ∧ x.kind = 2 ∧ s.stage = 2 ∧ x.change = some (.side p) ∧ s.readyStandby = some y ∧ s.sideInUse p = false) ∧
    (∃ s : State, (∀ q p, s.change = some (.region q p) → s.tick < s.changeAt)) ∧
    (∃ q : Nat, ∃ p : RegionPlan, ∃ s : State, q < 128 ∧ s.change = some (.region q p) ∧ s.changeAt ≤ s.tick) ∧
    (∃ p : SidePlan, ∃ x : Side, ∃ s : State, s.change = some (.side p) ∧ s.holder = some x ∧ (s.fld (R0 .UMW_STAT) F.UMW_STAT_STEP = 0 ∨ s.fld (R0 .UMW_STAT) F.UMW_STAT_STEP ≠ 3 ∧ s.planned.isSome = true)) ∧
    (∃ p : SidePlan, ∃ x : Side, ∃ s : State, s.change = some (.side p) ∧ s.holder = some x ∧ (s.fld (R0 .UMW_STAT) F.UMW_STAT_STEP = 1 ∨ s.fld (R0 .UMW_STAT) F.UMW_STAT_STEP = 2) ∧ s.planned = none ∧ s.startedNew x = true) ∧
    (∃ p : SidePlan, ∃ x : Side, ∃ s : State, s.change = some (.side p) ∧ s.holder = some x ∧ (s.fld (R0 .UMW_STAT) F.UMW_STAT_STEP = 1 ∨ s.fld (R0 .UMW_STAT) F.UMW_STAT_STEP = 2) ∧ s.planned = none ∧ s.startedNew x = false ∧ s.fld (R0 .UMW_STAT) F.UMW_STAT_STEP = 1 ∧ s.standbyInStep = true) ∧
    (∃ p : SidePlan, ∃ x : Side, ∃ s : State, s.change = some (.side p) ∧ s.holder = some x ∧ (s.fld (R0 .UMW_STAT) F.UMW_STAT_STEP = 1 ∨ s.fld (R0 .UMW_STAT) F.UMW_STAT_STEP = 2) ∧ s.planned = none ∧ s.startedNew x = false ∧ (s.fld (R0 .UMW_STAT) F.UMW_STAT_STEP = 2 ∨ s.standbyInStep = false)) ∧
    (∃ p : SidePlan, ∃ x : Side, ∃ s : State, s.change = some (.side p) ∧ s.holder = some x ∧ s.fld (R0 .UMW_STAT) F.UMW_STAT_STEP = 3 ∧ s.standbyInStep = true ∧ s.startedNew x = true ∧ s.startedNew x.other = true) ∧
    (∃ p : SidePlan, ∃ x : Side, ∃ s : State, s.change = some (.side p) ∧ s.holder = some x ∧ s.fld (R0 .UMW_STAT) F.UMW_STAT_STEP = 3 ∧ (s.standbyInStep = false ∨ s.startedNew x = false) ∧ (s.startedNew x.other = true ∨ (s.side x.other).inReset = true)) ∧
    (∃ p : SidePlan, ∃ x : Side, ∃ s : State, s.change = some (.side p) ∧ s.holder = some x ∧ s.fld (R0 .UMW_STAT) F.UMW_STAT_STEP = 3 ∧ s.startedNew x.other = false ∧ (s.side x.other).inReset = false) ∧
    (∃ p : SidePlan, ∃ x : Side, ∃ s : State, s.change = some (.side p) ∧ s.holder = some x ∧ (s.fld (R0 .UMW_STAT) F.UMW_STAT_STEP = 1 ∨ s.fld (R0 .UMW_STAT) F.UMW_STAT_STEP = 2) ∧ s.planned = none ∧ s.standbyInStep = false ∧ s.tick < s.changeAt + 10 * secTicks) ∧
    (∃ p : SidePlan, ∃ x : Side, ∃ s : State, s.change = some (.side p) ∧ s.holder = some x ∧ (s.fld (R0 .UMW_STAT) F.UMW_STAT_STEP = 1 ∨ s.fld (R0 .UMW_STAT) F.UMW_STAT_STEP = 2) ∧ s.planned = none ∧ s.standbyInStep = false ∧ s.changeAt + 10 * secTicks ≤ s.tick) ∧
    (∃ s : State, s.change = none) :=
  ⟨⟨mail (staged 1 (some (four 2 0)) base) [9], (9 : Nat), by simp only [State.hasMsg]; decide +kernel, by decide +kernel⟩,
   ⟨mail (staged 2 (some { four 2 0 with change := some (.base {}) }) base) [9], { four 2 0 with change := some (.base {}) }, ({} : Structure_), by simp only [State.hasMsg]; decide +kernel, by decide +kernel, by decide +kernel, by decide +kernel, by decide +kernel, by decide +kernel⟩,
   ⟨mail (staged 2 (some { four 2 0 with change := some (.region 127 {}) }) base) [9], { four 2 0 with change := some (.region 127 {}) }, (127 : Nat), ({} : RegionPlan), by simp only [State.hasMsg]; decide +kernel, by decide +kernel, by decide +kernel, by decide +kernel, by decide +kernel, by decide +kernel⟩,
   ⟨mail (staged 2 (some { four 2 0 with change := some (.side {}) }) base) [9], { four 2 0 with change := some (.side {}) }, ({} : SidePlan), (9 : Nat), by simp only [State.hasMsg]; decide +kernel, by decide +kernel, by decide +kernel, by decide +kernel, by decide +kernel, by decide +kernel, by decide +kernel⟩,
   ⟨mail (staged 2 (some { four 2 0 with change := some (.side {}) }) stepped) [9], { four 2 0 with change := some (.side {}) }, ({} : SidePlan), Side.A, by simp only [State.hasMsg]; decide +kernel, by decide +kernel, by decide +kernel, by decide +kernel, by decide +kernel, by decide +kernel, by decide +kernel, by decide +kernel⟩,
   ⟨{ base with change := some (.region 127 {}), changeAt := 1 }, by intro q p h; decide +kernel⟩,
   ⟨127, { version := 3, ins := [(9, { slots := 1, lowest := 9, srcW := some (.nervor 508 0) })] }, { rig with change := some (.region 127 { version := 3, ins := [(9, { slots := 1, lowest := 9, srcW := some (.nervor 508 0) })] }), changeAt := 0 }, by decide +kernel, by decide +kernel, by decide +kernel⟩,
   ⟨{}, .B, { held.fields [(R0 .UMW_STAT, F.UMW_STAT_STEP, 2)] with change := some (.side {}), planned := some (0, 5) }, by decide +kernel, by decide +kernel, by decide +kernel⟩,
   ⟨{}, .B, { held.fields [(R0 .UMW_STAT, F.UMW_STAT_STEP, 2)] with change := some (.side {}) }, by decide +kernel, by decide +kernel, by decide +kernel, by decide +kernel, by decide +kernel⟩,
   ⟨{}, .B, { stepped.fields [(R0 .UMW_STAT, F.UMW_STAT_STEP, 1)] with change := some (.side {}), changeAt := 50 }, by decide +kernel, by decide +kernel, by decide +kernel, by decide +kernel, by decide +kernel, by decide +kernel, by decide +kernel⟩,
   ⟨{}, .B, { stepped.fields [(R0 .UMW_STAT, F.UMW_STAT_STEP, 2)] with change := some (.side {}), changeAt := 50 }, by decide +kernel, by decide +kernel, by decide +kernel, by decide +kernel, by decide +kernel, by decide +kernel⟩,
   ⟨{}, .B, { stepped.fields [(R0 .UMW_STAT, F.UMW_STAT_STEP, 3)] with change := some (.side {}) }, by decide +kernel, by decide +kernel, by decide +kernel, by decide +kernel, by decide +kernel, by decide +kernel⟩,
   ⟨{}, .B, { held.fields [(R0 .UMW_STAT, F.UMW_STAT_STEP, 3)] with change := some (.side {}), sideA := {} }, by decide +kernel, by decide +kernel, by decide +kernel, by decide +kernel, by decide +kernel⟩,
   ⟨{}, .B, { stepped.fields [(R0 .UMW_STAT, F.UMW_STAT_STEP, 3)] with change := some (.side {}), changeAt := 50 }, by decide +kernel, by decide +kernel, by decide +kernel, by decide +kernel, by decide +kernel⟩,
   ⟨{}, .B, { (held.fields [(R0 .UMW_STAT, F.UMW_STAT_STEP, 1)]).atTick (10 * secTicks) with change := some (.side {}), changeAt := 1, sideA := {} }, by decide +kernel, by decide +kernel, by decide +kernel, by decide +kernel, by decide +kernel, by decide +kernel⟩,
   ⟨{}, .B, { (held.fields [(R0 .UMW_STAT, F.UMW_STAT_STEP, 2)]).atTick (10 * secTicks) with change := some (.side {}), changeAt := 0, sideA := {} }, by decide +kernel, by decide +kernel, by decide +kernel, by decide +kernel, by decide +kernel, by decide +kernel⟩,
   ⟨base, by decide +kernel⟩⟩

/-- Every clause of Obligations.TokensOwnersAndDebugUnlock has a case. -/
theorem witness_TokensOwnersAndDebugUnlock :
    (∃ r : Req, ∃ s : State, ∃ p : Instr × Nat, s.granted r .sec ∧ tokenAdmits r = true ∧ p ∈ [(Instr.debugUnlock r, 1), (.secTransfer r, 2), (.secClaim r, 3)] ∧ s.tokenKind r ≠ p.2) ∧
    (∃ r : Req, ∃ s : State, s.granted r .sec ∧ tokenAdmits r = true ∧ s.tokenKind r = 3 ∧ s.tokenFresh r = true ∧ s.owners = []) ∧
    (∃ r : Req, ∃ s : State, s.granted r .sec ∧ tokenAdmits r = true ∧ s.tokenKind r = 3 ∧ (s.tokenFresh r = false ∨ s.owners ≠ [])) ∧
    (∃ r : Req, ∃ s : State, s.granted r .sec ∧ tokenAdmits r = true ∧ s.tokenKind r = 2 ∧ s.tokenFresh r = true) ∧
    (∃ r : Req, ∃ s : State, s.granted r .sec ∧ tokenAdmits r = true ∧ s.tokenKind r = 2 ∧ (s.tokenFresh r = false ∨ 8 ≤ s.owners.length)) ∧
    (∃ r : Req, ∃ w : Nat, ∃ q : Nat, ∃ s : State, s.granted r .sec ∧ tokenAdmits r = true ∧ s.tokenKind r = 1 ∧ w = (s.rd (RB .SEC_TOKEN r 0)).toNat ∧ q = w / 16 % 16 ∧ (q = 0 ∨ 10 < q)) ∧
    (∃ r : Req, ∃ w : Nat, ∃ q : Nat, ∃ s : State, s.granted r .sec ∧ tokenAdmits r = true ∧ s.tokenKind r = 1 ∧ w = (s.rd (RB .SEC_TOKEN r 0)).toNat ∧ q = w / 16 % 16 ∧ 1 ≤ q ∧ q ≤ 10 ∧ s.tokenFresh r = true) ∧
    (∃ r : Req, ∃ w : Nat, ∃ q : Nat, ∃ s : State, s.granted r .sec ∧ tokenAdmits r = true ∧ s.tokenKind r = 1 ∧ w = (s.rd (RB .SEC_TOKEN r 0)).toNat ∧ q = w / 16 % 16 ∧ 1 ≤ q ∧ q ≤ 10 ∧ s.tokenFresh r = false) ∧
    (∃ r : Req, ∃ s : State, s.granted r .sec ∧ tokenAdmits r = true) ∧
    (∃ r : Req, ∃ s : State, ∃ c, s.aoReset = false ∧ tokenAdmits r = false ∧ c ∈ [Instr.secClaim r, .secTransfer r, .debugUnlock r, .relock r]) ∧
    (∃ s : State, s.unlock = none) ∧
    (∃ s : State, ∃ q, ∃ e, s.unlock = some (q, e) ∧ s.tick < e) ∧
    (∃ s : State, ∃ q, ∃ e, s.unlock = some (q, e) ∧ e ≤ s.tick) :=
  ⟨⟨.hp1, token .hp1 4, (Instr.secClaim .hp1, 3), by simp only [State.granted]; decide +kernel, by decide +kernel, by decide +kernel, by simp [State.tokenKind, token_word]⟩,
   ⟨.boot, token .boot 3, by simp only [State.granted]; decide +kernel, by decide +kernel, by simp [State.tokenKind, token_word], token_fresh _ _, by decide +kernel⟩,
   ⟨.boot, { base.wr (RB .SEC_TOKEN .boot 0) 3 with owners := [[1]] }, by simp only [State.granted]; decide +kernel, by decide +kernel, by decide +kernel, Or.inr (by decide)⟩,
   ⟨.boot, token .boot 2, by simp only [State.granted]; decide +kernel, by decide +kernel, by simp [State.tokenKind, token_word], token_fresh _ _⟩,
   ⟨.boot, { base.wr (RB .SEC_TOKEN .boot 0) 2 with owners := List.replicate 8 [1] }, by simp only [State.granted]; decide +kernel, by decide +kernel, by decide +kernel, Or.inr (by decide)⟩,
   ⟨.boot, 177, 11, base.wr (RB .SEC_TOKEN .boot 0) 177, by simp only [State.granted]; decide +kernel, by decide +kernel, by decide +kernel, by decide +kernel, by decide +kernel, by decide +kernel⟩,
   ⟨.boot, 161, 10, token .boot 161, by simp only [State.granted]; decide +kernel, by decide +kernel, by simp [State.tokenKind, token_word], by rw [token_word]; rfl, by decide +kernel, by decide +kernel, by decide +kernel, token_fresh _ _⟩,
   ⟨.boot, 17, 1, (token .boot 17).wr (RB .SEC_TOKEN .boot 3) 1, by simp only [State.granted]; decide +kernel, by decide +kernel, by simp [State.tokenKind, State.rd_wr, token_word, RB] <;> decide, by simp [State.rd_wr, token_word, RB], by decide +kernel, by decide +kernel, by decide +kernel, token_stale _ _⟩,
   ⟨.boot, { base with unlock := some (10, 7) }, by simp only [State.granted]; decide +kernel, by decide +kernel⟩,
   ⟨.fwB, base, Instr.relock .fwB, by decide +kernel, by decide +kernel, by decide +kernel⟩,
   ⟨base, by decide +kernel⟩,
   ⟨{ base with unlock := some (10, 7) }, (10 : Nat), (7 : Nat), by decide +kernel, by decide +kernel⟩,
   ⟨{ base.atTick 7 with unlock := some (10, 7) }, (10 : Nat), (7 : Nat), by decide +kernel, by decide +kernel⟩⟩

/-- Every clause of Obligations.SuppliesAndTemperatures has a case. -/
theorem witness_SuppliesAndTemperatures :
    (∃ b : Bank, ∃ ctx : W32, ∃ c0 : Cut, ∃ c1 : Cut, ∃ s : State, s.aoReset = false ∧ b ∉ s.bankLost ∧ (b = .E → ∀ p : Fin 2, s.flag (R1 .STR_HP_STAT p) F.STR_HP_STAT_LINK_UP = false)) ∧
    (∃ ctx : W32, ∃ c0 : Cut, ∃ c1 : Cut, ∃ s : State, s.aoReset = false ∧ Bank.E ∉ s.bankLost) ∧
    (∃ b : Bank, ∃ s : State, b ∈ s.bankLost) ∧
    (∃ sd : Side, ∃ s : State, s.aoReset = false ∧ (∀ p ∈ s.envLines, p.1 ≠ 16 * sd.idx + 8 ∧ p.1 ≠ 16 * sd.idx + 9)) ∧
    (∃ sd : Side, ∃ s : State, ∃ p, s.aoReset = false ∧ p ∈ s.envLines ∧ (p.1 = 16 * sd.idx + 8 ∨ p.1 = 16 * sd.idx + 9)) ∧
    (∃ sd : Side, ∃ s : State, ∃ t0 : Nat, (s.side sd).pwrAt = some t0 ∧ (s.side sd).pg = false ∧ t0 + 12500000 ≤ s.tick) ∧
    (∃ k : Fin 6, ∃ xs : List Int, ∃ m : Int, ∃ s : State, s.aoReset = false ∧ m ∈ xs ∧ (∀ x ∈ xs, x ≤ m) ∧ k.val < 2) ∧
    (∃ k : Fin 6, ∃ xs : List Int, ∃ m : Int, ∃ s : State, s.aoReset = false ∧ m ∈ xs ∧ (∀ x ∈ xs, x ≤ m) ∧ 2 ≤ k.val) :=
  ⟨⟨.W, 5, {}, {}, { rig with bankLost := [.E] }, by decide +kernel, by decide +kernel, by decide +kernel⟩,
   ⟨5, {}, {}, rig.fields [(R1 .STR_HP_STAT 1, F.STR_HP_STAT_LINK_UP, 1)], by decide +kernel, by decide +kernel⟩,
   ⟨.W, { rig.fields [(R1 .LANE_STAT 256, F.LANE_STAT_PARK, 3)] with bankLost := [.W, .E], envLines := [(33, 5), (32, 6)] }, by decide +kernel⟩,
   ⟨.B, { base with sideB := { powered := false, pwrAt := some 3 }, envLines := [(33, 5)] }, by decide +kernel, by decide +kernel⟩,
   ⟨.B, { base with sideB := { powered := false }, envLines := [(24, 5)] }, ((24, 5) : Nat × W32), by decide +kernel, by decide +kernel, by decide +kernel⟩,
   ⟨.B, { base.atTick 12500000 with sideB := { powered := false, pwrAt := some 0 } }, 0, by decide +kernel, by decide +kernel, by decide +kernel⟩,
   ⟨1, [-40, 105, 104], 105, base, by decide +kernel, by decide +kernel, by decide +kernel, by decide +kernel⟩,
   ⟨5, [-40, 105, 104], 105, base, by decide +kernel, by decide +kernel, by decide +kernel, by decide +kernel⟩⟩

/-- Every clause of Obligations.DeclarationsParkAndWake has a case. -/
theorem witness_DeclarationsParkAndWake :
    (∃ r : Req, ∃ g : Fin 64, ∃ v : W32, ∃ s : State, s.granted r .ao ∧ s.holdsGroup r g = true) ∧
    (∃ r : Req, ∃ k : Fin 4, ∃ v : W32, ∃ s : State, s.granted r .ao ∧ is7or10 r = true) ∧
    (∃ r : Req, ∃ v : W32, ∃ s : State, s.granted r .ao ∧ is7or10 r = true) ∧
    (∃ k : Fin 4, ∃ u : Fin 1024, ∃ s : State, u.val < engUnits k ∧ s.engWork k u = false ∧ (s.engs.at (engIx k u)).busy = false ∧ (s.engs.at (engIx k u)).deep = false ∧ s.engDeep k = true ∧ (s.engs.at (engIx k u)).since + 250000 ≤ s.tick) ∧
    (∃ k : Fin 4, ∃ u : Fin 1024, ∃ s : State, u.val < engUnits k ∧ s.engWork k u = true ∧ (s.engs.at (engIx k u)).busy = false) :=
  ⟨⟨.hp0, 0, 0xFFFFFFFF, lit (quad 1 2), by simp only [State.granted]; decide +kernel, by decide +kernel⟩,
   ⟨.boot, 3, 0xFFFFFFFF, base, by simp only [State.granted]; decide +kernel, by decide +kernel⟩,
   ⟨.boot, 0xFFFFFFFF, base.fields [(R1 .STR_HP_STAT 1, F.STR_HP_STAT_LINK_UP, 1)], by simp only [State.granted]; decide +kernel, by decide +kernel⟩,
   ⟨3, 63, (base.fields [(R1 .PARK_ENG_DECL 3, F.PARK_ENG_DECL_VALUE, 5), (R1 .PARK_ENG_DECL 3, F.PARK_ENG_DECL_UNIT, 2)]).atTick 250000, by decide +kernel, by decide +kernel, by decide +kernel, by decide +kernel, by decide +kernel, by decide +kernel⟩,
   ⟨2, 15, { base with audDst := [(15360, { kind := 1 })] }, by decide +kernel, by decide +kernel, by decide +kernel⟩⟩

end Sys2Proof.Tests
end

section
/-! # What every command leaves alone (O5)

Each function of the model is composed of the operations on the state and of the functions before it. So one lemma says of each that the state it
answers still follows an earlier state where its argument did: nothing is taken back from what is only extended, and the parts not in `fr` stand.
The lemmas stand in the order of the model's definitions, and each cites those of the functions its definition calls. -/

namespace Sys2Proof.Machine
set_option Elab.async false

/-- The parts that the loading or the change of a structure moves. -/
def planParts : List Part := [.routes, .inPlan, .outPlan, .portPlan, .rights]

/-- What every command leaves alone, but for the parts in `free`, or only extends, from `s₀` to `s`. -/
structure State.Follows (free : List Part) (s₀ s : State) : Prop where
  pending : s.pending = s₀.pending
  out : s₀.out <+: s.out
  owners : s₀.owners <+: s.owners
  svn : s₀.svn ≤ s.svn
  tick : .tick ∉ free → s.tick = s₀.tick
  routes : .routes ∉ free → s.routes = s₀.routes
  inPlan : .inPlan ∉ free → s.inPlan = s₀.inPlan
  outPlan : .outPlan ∉ free → s.outPlan = s₀.outPlan
  portPlan : .portPlan ∉ free → s.portPlan = s₀.portPlan
  rights : .rights ∉ free → s.rights = s₀.rights

/-- Where the outcome is a next state, that state follows `s₀`. -/
def Ends (free : List Part) (s₀ : State) : Out → Prop
  | .next t => s₀.Follows free t
  | _ => True

variable {fr : List Part} {s₀ s : State}

theorem State.follows_refl (fr : List Part) (s : State) : State.Follows fr s s :=
  ⟨rfl, List.prefix_rfl, List.prefix_rfl, le_rfl, fun _ => rfl, fun _ => rfl, fun _ => rfl, fun _ => rfl, fun _ => rfl, fun _ => rfl⟩

/-- A change of any other parts of the state. -/
theorem State.Follows.same (h : s₀.Follows fr s) {regs sideA sideB plain7 fired lastRead freeCtr aoReset setNow twins twinQ inRx merges feeds takes
    commits salvos outs shown stores captures benches benchPlan benchIn benchMem leadOld leaseEnd grace planned outSince voters grantAt sluices ring
    envLines sevAt therm txqs lanes nvl bankLost nvlTx bypassQ sdi rxFlows txRuns txFlows txBufs ethQ macs rrp hostParked tbs cmps ports txLatch cads
    cands ref trigArmed trigSignal audioTb audioHi audNext audSrc audDst tdm tdmOwner audTimes audIn headPlan tileHead preHead headRun tiles alyA alyB
    alyWait alyLive alyStore hbmA hbmB hbmRun hbmMax hoppers capPlan sramA sramB hbmTempAt audLate locks waiting grantNext winBuf msixOpen msixPend
    vecHigh flash0 flash1 otpOk loaded updMbx session parts updSide confirming fwHash change changeAt attest unlock tempSeen engs : _} :
    s₀.Follows fr { s with
      regs, sideA, sideB, plain7, fired, lastRead, freeCtr, aoReset, setNow, twins, twinQ, inRx, merges, feeds, takes, commits,
      salvos, outs, shown, stores, captures, benches, benchPlan, benchIn, benchMem, leadOld, leaseEnd, grace, planned, outSince, voters, grantAt,
      sluices, ring, envLines, sevAt, therm, txqs, lanes, nvl, bankLost, nvlTx, bypassQ, sdi, rxFlows, txRuns, txFlows, txBufs, ethQ, macs, rrp,
      hostParked, tbs, cmps, ports, txLatch, cads, cands, ref, trigArmed, trigSignal, audioTb, audioHi, audNext, audSrc, audDst, tdm, tdmOwner,
      audTimes, audIn, headPlan, tileHead, preHead, headRun, tiles, alyA, alyB, alyWait, alyLive, alyStore, hbmA, hbmB, hbmRun, hbmMax, hoppers,
      capPlan, sramA, sramB, hbmTempAt, audLate, locks, waiting, grantNext, winBuf, msixOpen, msixPend, vecHigh, flash0, flash1, otpOk, loaded,
      updMbx, session, parts, updSide, confirming, fwHash, change, changeAt, attest, unlock, tempSeen, engs } :=
  ⟨h.pending, h.out, h.owners, h.svn, h.tick, h.routes, h.inPlan, h.outPlan, h.portPlan, h.rights⟩

theorem State.Follows.ite {c : Prop} [Decidable c] {a b : State} (ha : s₀.Follows fr a) (hb : s₀.Follows fr b) :
    s₀.Follows fr (if c then a else b) := by
  split
  · exact ha
  · exact hb

theorem Ends.ite {c : Prop} [Decidable c] {a b : Out} (ha : Ends fr s₀ a) (hb : Ends fr s₀ b) : Ends fr s₀ (if c then a else b) := by
  split
  · exact ha
  · exact hb

theorem State.Follows.next (h : s₀.Follows fr s) : Ends fr s₀ (.next s) := h

/-- A step taken by a branch of the model: each branch is shown from the state before it. -/
theorem State.Follows.branch {c : Prop} [Decidable c] {a b : State} (h : s₀.Follows fr s) (ha : s₀.Follows fr s → s₀.Follows fr a)
    (hb : s₀.Follows fr s → s₀.Follows fr b) : s₀.Follows fr (if c then a else b) :=
  .ite (ha h) (hb h)

theorem State.Follows.foldl {α : Type} {f : State → α → State} {l : List α} (h : s₀.Follows fr s)
    (hf : ∀ s x, s₀.Follows fr s → s₀.Follows fr (f s x)) : s₀.Follows fr (l.foldl f s) := by
  induction l generalizing s with
  | nil => exact h
  | cons x l ih => exact ih (hf _ _ h)

theorem State.Follows.iteSnd {α : Type} {c : Prop} [Decidable c] {a b : α × State} (ha : s₀.Follows fr a.2) (hb : s₀.Follows fr b.2) :
    s₀.Follows fr (if c then a else b).2 := by
  split
  · exact ha
  · exact hb

theorem State.Follows.iteFst {α : Type} {c : Prop} [Decidable c] {a b : State × α} (ha : s₀.Follows fr a.1) (hb : s₀.Follows fr b.1) :
    s₀.Follows fr (if c then a else b).1 := by
  split
  · exact ha
  · exact hb


/-! ### The functions of `Sys2Proof/Machine/Ops.lean` -/

theorem State.Follows.wr {k : RegKey} {v : W32} (h : s₀.Follows fr s) : s₀.Follows fr (s.wr k v) := h.same

theorem State.Follows.setF {k : RegKey} {f : Fld} {v : Nat} (h : s₀.Follows fr s) : s₀.Follows fr (s.setF k f v) := h.wr

theorem State.Follows.note {k : RegKey} {v : W32} (h : s₀.Follows fr s) : s₀.Follows fr (s.note k v) := .ite h.same h

theorem State.Follows.addSat {k : RegKey} {f : Fld} {n : Nat} (h : s₀.Follows fr s) : s₀.Follows fr (s.addSat k f n) := h.setF.note

theorem State.Follows.addWrap {k : RegKey} {n : Nat} (h : s₀.Follows fr s) : s₀.Follows fr (s.addWrap k n) := h.wr.note

theorem State.Follows.setSide {sd : Side} {x : SideSt} (h : s₀.Follows fr s) : s₀.Follows fr (s.setSide sd x) := by
  unfold State.setSide
  split
  · exact h.same
  · exact h.same

theorem State.Follows.eachSide {f : Side → State → State} (h : s₀.Follows fr s) (hf : ∀ sd s, s₀.Follows fr s → s₀.Follows fr (f sd s)) :
    s₀.Follows fr (s.eachSide f) := by
  unfold State.eachSide
  exact (h.branch (hf _ _) id).branch (hf _ _) id

theorem State.Follows.eachRouting {f : Side → State → State} (h : s₀.Follows fr s) (hf : ∀ sd s, s₀.Follows fr s → s₀.Follows fr (f sd s)) :
    s₀.Follows fr (s.eachRouting f) := by
  unfold State.eachRouting
  exact (h.branch (hf _ _) id).branch (hf _ _) id

theorem State.Follows.fire {e : Nat} (h : s₀.Follows fr s) : s₀.Follows fr (s.fire e) := h.same

theorem State.Follows.setSource {e : Nat} (h : s₀.Follows fr s) : s₀.Follows fr (s.setSource e) := .ite h (h.wr.branch (·.fire) id)

theorem State.Follows.evtOfRise {k : RegKey} {old new : W32} (h : s₀.Follows fr s) : s₀.Follows fr (s.evtOfRise k old new) := by
  unfold State.evtOfRise
  split
  · exact .ite h h.setSource
  · exact .ite h.setSource h
  · exact h

theorem State.Follows.raiseW {k : RegKey} {bits : W32} (h : s₀.Follows fr s) : s₀.Follows fr (s.raiseW k bits) := h.wr.note.evtOfRise

theorem State.Follows.raise {k : RegKey} {f : Fld} (h : s₀.Follows fr s) : s₀.Follows fr (s.raise k f) := h.raiseW

theorem State.Follows.raiseIf {c : Bool} {k : RegKey} {f : Fld} (h : s₀.Follows fr s) : s₀.Follows fr (s.raiseIf c k f) := .ite h.raise h

theorem State.Follows.clearW {k : RegKey} {bits : W32} (h : s₀.Follows fr s) : s₀.Follows fr (s.clearW k bits) := h.wr

theorem State.Follows.emit {e : Emit} (h : s₀.Follows fr s) : s₀.Follows fr (s.emit e) :=
  { h with out := h.out.trans (List.prefix_append _ _) }

theorem State.Follows.answer {r : Req} {v : W32} (h : s₀.Follows fr s) : s₀.Follows fr (s.answer r v) := h.same

theorem State.Follows.fresh (h : s₀.Follows fr s) : s₀.Follows fr s.fresh.2 := h.same

theorem State.Follows.denied {r : Req} {win : Bool} {addr : Nat} (h : s₀.Follows fr s) : s₀.Follows fr (s.denied r win addr) := by
  unfold State.denied
  exact (h.branch id (·.wr)).raiseW

/-! ### The functions of `Sys2Proof/Machine/Addr.lean` -/

theorem State.Follows.countBeat {m : Nat} {r : Req} {t : Nat} (h : s₀.Follows fr s) : s₀.Follows fr (s.countBeat m r t) := h.same

theorem State.Follows.dropLock {r : Req} (h : s₀.Follows fr s) : s₀.Follows fr (s.dropLock r) := h.same

theorem State.Follows.wait {w : Waiting} (h : s₀.Follows fr s) : s₀.Follows fr (s.wait w) := h.same

theorem State.Follows.masterReset {m : Nat} {r : Req} {cut : Cut} (h : s₀.Follows fr s) : s₀.Follows fr (s.masterReset m r cut) :=
  h.dropLock.same.branch id (·.wr.raise)

theorem State.Follows.access {r : Req} {t : Target} {ok : Bool} {addr : Nat} {v : W32} {f : State → State} (h : s₀.Follows fr s)
    (hf : ∀ s, s₀.Follows fr s → s₀.Follows fr (f s)) : s₀.Follows fr (s.access r t ok addr v f) := by
  unfold State.access
  exact .ite h (.ite h.denied (.ite h.wait (hf _ h.countBeat)))

theorem State.Follows.readAccess {r : Req} {be : Fin 16} {t : Target} {ok : Bool} {addr : Nat} {f : State → W32 × State} (h : s₀.Follows fr s)
    (hf : ∀ s, s₀.Follows fr s → s₀.Follows fr (f s).2) : s₀.Follows fr (s.readAccess r be t ok addr f) := by
  unfold State.readAccess
  exact .ite h (.ite h.denied.answer (.ite h.wait (hf _ h.countBeat).answer))

theorem State.Follows.sideAccess {r : Req} {sd : Side} {ok : Bool} {addr : Nat} {v : W32} {f : State → State} (h : s₀.Follows fr s)
    (hf : ∀ s, s₀.Follows fr s → s₀.Follows fr (f s)) : s₀.Follows fr (s.sideAccess r sd ok addr v f) := by
  unfold State.sideAccess
  exact h.access fun _ h => h.branch (hf _) id

/-! ### The functions of `Sys2Proof/Machine/LaneState.lean` -/

theorem State.Follows.flowMissing {r : Nat} {b : Bank} {n : Nat} (h : s₀.Follows fr s) : s₀.Follows fr (s.flowMissing r b n) := .ite h h.addSat.raise

theorem State.Follows.flowCopyAbsent {r : Nat} {b : Bank} (h : s₀.Follows fr s) : s₀.Follows fr (s.flowCopyAbsent r b) := h.raise.flowMissing.same

theorem State.Follows.setTaps {n pre2 pre1 post1 : Nat} (h : s₀.Follows fr s) : s₀.Follows fr (s.setTaps n pre2 pre1 post1) :=
  h.setF.setF.setF

theorem State.Follows.writeTxeq {n : Nat} {v : W32} (h : s₀.Follows fr s) : s₀.Follows fr (s.writeTxeq n v) :=
  .ite h.raise (.ite h.setTaps.setF h.raise)

/-! ### The functions of `Sys2Proof/Machine/Time.lean` -/

theorem execCadenceFrameStart_follows {c : Fin 32} (h : s₀.Follows fr s) : Ends fr s₀ (execCadenceFrameStart c s) :=
  .ite ((h.same.wr.branch (·.same) id).next) h.next

theorem State.Follows.writeRateLo {n : Nat} {lo : W32} (h : s₀.Follows fr s) : s₀.Follows fr (s.writeRateLo n lo) := .ite h.raise h.wr

theorem State.Follows.writeRate {n : Nat} {hi : W32} (h : s₀.Follows fr s) : s₀.Follows fr (s.writeRate n hi) := .ite h.raise h.wr.raiseIf.same

theorem execTbRateWrite_follows {r : Req} {n : Fin 4} {hi : W32} (h : s₀.Follows fr s) : Ends fr s₀ (execTbRateWrite r n hi s) :=
  (h.access (fun _ h => h.writeRate)).next

theorem State.Follows.readNs {r : Req} {n : Nat} (h : s₀.Follows fr s) : s₀.Follows fr (s.readNs r n).2 := h.wr.wr

theorem execTbNsRead_follows {r : Req} {n : Fin 4} {be : Fin 16} (h : s₀.Follows fr s) : Ends fr s₀ (execTbNsRead r n be s) :=
  (h.readAccess (fun _ h => h.readNs)).next

theorem State.Follows.signalTrigger {n u : Nat} (h : s₀.Follows fr s) : s₀.Follows fr (s.signalTrigger n u) := .ite h.same h

theorem State.Follows.cmpFire {n u : Nat} {pulse skip : Bool} (h : s₀.Follows fr s) : s₀.Follows fr (s.cmpFire n u pulse skip) :=
  h.raiseW.signalTrigger.same.branch id (·.setF)

theorem State.Follows.cmpPassed {n old : Nat} (h : s₀.Follows fr s) : s₀.Follows fr (s.cmpPassed n old) :=
  h.foldl (fun _ _ h => h.branch (·.cmpFire.raiseW) id)

theorem State.Follows.audioStepped {n before : Nat} (h : s₀.Follows fr s) : s₀.Follows fr (s.audioStepped n before) :=
  .ite (h.same.eachSide (fun _ _ h => h.raise)) h

theorem State.Follows.applyStep {n : Nat} {step : Bool × Int} (h : s₀.Follows fr s) : s₀.Follows fr (s.applyStep n step) :=
  h.same.wr.wr.setF.raise.audioStepped.branch (·.cmpPassed) id

theorem State.Follows.settleTb {n : Nat} (h : s₀.Follows fr s) : s₀.Follows fr (s.settleTb n) := by
  unfold State.settleTb
  dsimp only
  split
  · exact (h.branch id (fun h => h.same.foldl (fun _ _ h => h.applyStep))).same
  · exact .ite h (h.same.foldl (fun _ _ h => h.applyStep))

theorem State.Follows.takeStep {n : Nat} {abs : Bool} {d : Int} (h : s₀.Follows fr s) : s₀.Follows fr (s.takeStep n abs d) := h.same

theorem State.Follows.writeStep {n : Nat} {ctl : W32} (h : s₀.Follows fr s) : s₀.Follows fr (s.writeStep n ctl) :=
  .ite h.setF.takeStep (.ite h.raise (.ite h.takeStep h.setF.raise))

theorem execTbStep_follows {r : Req} {n : Fin 4} {ctl : W32} (h : s₀.Follows fr s) : Ends fr s₀ (execTbStep r n ctl s) :=
  (h.access (fun _ h => h.writeStep)).next

theorem State.Follows.writeCmpCtl {n u : Nat} {ctl : W32} (h : s₀.Follows fr s) : s₀.Follows fr (s.writeCmpCtl n u ctl) :=
  h.wr.branch (·.same.raiseIf) (·.same)

theorem execCompareArm_follows {r : Req} {n : Fin 4} {u : Fin 32} {ctl : W32} (h : s₀.Follows fr s) : Ends fr s₀ (execCompareArm r n u ctl s) :=
  (h.access (fun _ h => h.writeCmpCtl)).next

theorem execCompareFire_follows {n : Fin 4} {u : Fin 32} (h : s₀.Follows fr s) : Ends fr s₀ (execCompareFire n u s) := .ite h.cmpFire.next h.next

theorem execPulseEnd_follows {n : Fin 4} {u : Fin 32} (h : s₀.Follows fr s) : Ends fr s₀ (execPulseEnd n u s) := h.same.next

theorem State.Follows.noteUncal {i : Nat} (h : s₀.Follows fr s) : s₀.Follows fr (s.noteUncal i) := h.raiseIf

theorem State.Follows.appendTxts {i : Nat} {e : List W32} (h : s₀.Follows fr s) : s₀.Follows fr (s.appendTxts i e) := .ite h.same h.same.addWrap.raise

theorem State.Follows.readTxts {r : Req} {i : Nat} (h : s₀.Follows fr s) : s₀.Follows fr (s.readTxts r i).2 := by
  unfold State.readTxts
  dsimp only
  split
  · exact h.same
  · split
    · exact h
    · exact h.same

theorem execPtpTxtsRead_follows {r : Req} {i : Fin 130} {be : Fin 16} (h : s₀.Follows fr s) : Ends fr s₀ (execPtpTxtsRead r i be s) :=
  (h.readAccess (fun _ h => h.readTxts)).next

theorem execPortCalibrated_follows {i : Fin 130} (h : s₀.Follows fr s) : Ends fr s₀ (execPortCalibrated i s) := .ite h.same.next h.next

/-! ### The functions of `Sys2Proof/Machine/Reference.lean` -/

theorem State.Follows.refEnter {st : Nat} (h : s₀.Follows fr s) : s₀.Follows fr (s.refEnter st) := h.setF.raiseW.raise.same

theorem State.Follows.reportPhase {e : Int} (h : s₀.Follows fr s) : s₀.Follows fr (s.reportPhase e) := h.wr.wr

theorem State.Follows.notePrev (h : s₀.Follows fr s) : s₀.Follows fr s.notePrev := .ite h h.setF

theorem State.Follows.follow {c : Nat} (h : s₀.Follows fr s) : s₀.Follows fr (s.follow c) := h.notePrev.setF.same.reportPhase

theorem State.Follows.switchTo {c : Nat} {revert : Bool} (h : s₀.Follows fr s) : s₀.Follows fr (s.switchTo c revert) :=
  h.follow.raise.raiseIf.refEnter

theorem State.Follows.enterHoldover (h : s₀.Follows fr s) : s₀.Follows fr s.enterHoldover := h.notePrev.setF.raise.refEnter

theorem State.Follows.startAlign {d : Int} (h : s₀.Follows fr s) : s₀.Follows fr (s.startAlign d) := (h.wr.same.branch (·.reportPhase) id).setF

theorem State.Follows.acquire {c : Nat} (h : s₀.Follows fr s) : s₀.Follows fr (s.acquire c) := h.follow.refEnter.branch (·.startAlign) id

theorem State.Follows.refReview (h : s₀.Follows fr s) : s₀.Follows fr s.refReview := by
  unfold State.refReview
  dsimp only
  split
  · exact .ite h.acquire (.ite h.switchTo h)
  · exact .ite h.enterHoldover h

theorem State.Follows.disqualify {c : Nat} (h : s₀.Follows fr s) : s₀.Follows fr (s.disqualify c) := by
  unfold State.disqualify
  dsimp only
  refine .ite ?_ ?_
  · split
    · exact h.setF.same.switchTo
    · exact h.setF.same.enterHoldover
  · exact h.setF.same

theorem State.Follows.candFault {c : Nat} {f : Fld} {code : Nat} (h : s₀.Follows fr s) : s₀.Follows fr (s.candFault c f code) := h.raise.setF

theorem State.Follows.candGlitch {c : Nat} (h : s₀.Follows fr s) : s₀.Follows fr (s.candGlitch c) := h.addWrap.candFault.same.branch (·.disqualify) id

theorem State.Follows.candAccept {c : Nat} {edge : Int} {p : Nat × Nat} (h : s₀.Follows fr s) : s₀.Follows fr (s.candAccept c edge p) :=
  ((h.same.branch id (·.setF)).raiseIf).branch (fun h => (h.branch (·.same.raise) id).reportPhase) id

theorem execRefCandEvent_follows {c : Fin 10} {instant : Int} (h : s₀.Follows fr s) : Ends fr s₀ (execRefCandEvent c instant s) := by
  unfold execRefCandEvent
  split
  · exact h.next
  · exact (h.branch id (fun h => h.branch (·.candGlitch) (·.candAccept))).next

theorem execRefCandStop_follows {c : Fin 10} (h : s₀.Follows fr s) : Ends fr s₀ (execRefCandStop c s) := .ite h.candFault.setF.disqualify.next h.next

theorem execRefWindowEnd_follows {c : Fin 10} {freq : Int} (h : s₀.Follows fr s) : Ends fr s₀ (execRefWindowEnd c freq s) :=
  .ite h.setF.candFault.disqualify.next h.setF.next

theorem execRefQualify_follows {c : Fin 10} (h : s₀.Follows fr s) : Ends fr s₀ (execRefQualify c s) := .ite h.setF.raise.same.refReview.next h.next

theorem execRefHoldoffEnd_follows {c : Fin 10} (h : s₀.Follows fr s) : Ends fr s₀ (execRefHoldoffEnd c s) := .ite h.switchTo.next h.next

theorem execRefLockMet_follows (h : s₀.Follows fr s) : Ends fr s₀ (execRefLockMet s) := .ite h.refEnter.same.refReview.next h.next

theorem State.Follows.writeRefCfg {cfg : W32} (h : s₀.Follows fr s) : s₀.Follows fr (s.writeRefCfg cfg) := by
  unfold State.writeRefCfg
  dsimp only
  split
  · exact (h.wr.branch id (·.setF)).branch id (·.notePrev.setF.refEnter)
  · exact (h.wr.branch id (·.setF)).branch id (·.enterHoldover)
  · exact (h.wr.branch id (·.setF)).refReview

theorem execRefModeWrite_follows {r : Req} {cfg : W32} (h : s₀.Follows fr s) : Ends fr s₀ (execRefModeWrite r cfg s) :=
  (h.access (fun _ h => h.writeRefCfg)).next

theorem State.Follows.writeRefCmd {cmd : W32} (h : s₀.Follows fr s) : s₀.Follows fr (s.writeRefCmd cmd) :=
  .ite (.ite h.setF (.ite h.setF h.startAlign.setF)) h

theorem execRealign_follows {r : Req} {cmd : W32} (h : s₀.Follows fr s) : Ends fr s₀ (execRealign r cmd s) :=
  (h.access (fun _ h => h.writeRefCmd)).next

theorem execHoldOscStop_follows (h : s₀.Follows fr s) : Ends fr s₀ (execHoldOscStop s) := .ite h.next h.setF.raise.next

theorem execHoldOscReturn_follows (h : s₀.Follows fr s) : Ends fr s₀ (execHoldOscReturn s) := .ite h.setF.next h.next

/-! ### The functions of `Sys2Proof/Machine/Seam.lean` -/

theorem State.Follows.benchEmpty {b : Nat} (h : s₀.Follows fr s) : s₀.Follows fr (s.benchEmpty b) := h.same

theorem State.Follows.benchAlloc {b : Nat} {auto : Bool} {n c : Nat} {ph : Int} (h : s₀.Follows fr s) : s₀.Follows fr (s.benchAlloc b auto n c ph) :=
  h.benchEmpty.same

theorem State.Follows.benchRelease {b : Nat} (h : s₀.Follows fr s) : s₀.Follows fr (s.benchRelease b) := .ite h.benchEmpty.same h

theorem State.Follows.benchReleaseOf {o : Option Nat} (h : s₀.Follows fr s) : s₀.Follows fr (s.benchReleaseOf o) := by
  unfold State.benchReleaseOf
  split
  · exact h.benchRelease
  · exact h

theorem State.Follows.benchFor {n c : Nat} {ph : Int} (h : s₀.Follows fr s) : s₀.Follows fr (s.benchFor n c ph).2 := by
  unfold State.benchFor
  split
  · exact h
  · split
    · exact h
    · exact .iteSnd h.benchAlloc h

theorem State.Follows.planTake {x d : Nat} (h : s₀.Follows fr s) : s₀.Follows fr (s.planTake x d).2 := by
  unfold State.planTake
  refine .iteSnd h (.iteSnd ?_ (.iteSnd h (.iteSnd h (.iteSnd h (.iteSnd ?_ h)))))
  all_goals
    dsimp only
    split
    · exact h.benchFor
    · exact h

/-- The state in which every entry of a list of takes has its plan. -/
theorem State.Follows.planAll {es : List (Nat × Nat)} {acc ps : List TakePlan} {t : State} (h : s₀.Follows fr s)
    (he : s.planAll es acc = .ok (ps, t)) : s₀.Follows fr t := by
  induction es generalizing s acc with
  | nil =>
    simp only [State.planAll, Except.ok.injEq, Prod.mk.injEq] at he
    exact he.2 ▸ h
  | cons e es ih =>
    simp only [State.planAll] at he
    split at he
    · contradiction
    · exact ih h.planTake he

theorem State.Follows.feed {sd : Side} {d : Nat} {x : Fed} (h : s₀.Follows fr s) : s₀.Follows fr (s.feed sd d x) := h.same

theorem State.Follows.placeBlock {sd : Side} {d : Nat} {x : Fed} (h : s₀.Follows fr s) : s₀.Follows fr (s.placeBlock sd d x) :=
  .ite h (.ite h.addWrap.raise (.ite h.addWrap.raise h.same))

theorem execSeamBlockPlace_follows {d : Fin 1024} (h : s₀.Follows fr s) : Ends fr s₀ (execSeamBlockPlace d s) := by
  unfold execSeamBlockPlace
  refine State.Follows.next ?_
  refine h.eachRouting fun _ _ h => ?_
  split
  · exact h
  · exact h.same.placeBlock

theorem State.Follows.benchEvt {b : Nat} {f : Fld} (h : s₀.Follows fr s) : s₀.Follows fr (s.benchEvt b f) := h.eachRouting (fun _ _ h => h.raise)

theorem State.Follows.benchRepeat {b : Nat} (h : s₀.Follows fr s) : s₀.Follows fr (s.benchRepeat b) := h.eachRouting (fun _ _ h => h.addWrap.raise)

theorem State.Follows.benchGive {sd : Side} {b : Nat} {ks : List Block} (h : s₀.Follows fr s) : s₀.Follows fr (s.benchGive sd b ks) :=
  h.foldl (fun _ _ h => h.foldl (fun _ _ h => h.feed))

theorem State.Follows.benchStore {sd : Side} {b : Nat} {k : Block} (h : s₀.Follows fr s) : s₀.Follows fr (s.benchStore sd b k) := by
  unfold State.benchStore
  dsimp only
  split
  · exact h
  · exact (h.branch (·.same) id).branch id (fun h => h.same.branch (·.benchGive) id)

theorem State.Follows.benchTake {sd : Side} {b : Nat} {k : Block} (h : s₀.Follows fr s) : s₀.Follows fr (s.benchTake sd b k) :=
  .ite h.same h.benchStore

theorem execBenchDecision_follows {b : Fin 1024} (h : s₀.Follows fr s) : Ends fr s₀ (execBenchDecision b s) := .ite h.next h.same.next

theorem State.Follows.benchDrain {b : Nat} (h : s₀.Follows fr s) : s₀.Follows fr (s.benchDrain b) :=
  h.eachRouting (fun _ _ h => h.same.foldl (fun _ _ h => h.benchStore))

theorem execBenchFrameWrite_follows {b : Fin 1024} (h : s₀.Follows fr s) : Ends fr s₀ (execBenchFrameWrite b s) := by
  unfold execBenchFrameWrite
  dsimp only
  split
  · exact h.next
  · refine .ite h.next ?_
    refine .ite h.same.benchEvt.benchDrain.next ?_
    split
    · exact h.same.benchDrain.next
    · exact (h.same.benchDrain.branch (fun h => h.eachRouting (fun _ _ h => h.addWrap.raise)) id).next

theorem State.Follows.benchPatch {b i j : Nat} (h : s₀.Follows fr s) : s₀.Follows fr (s.benchPatch b i j) :=
  h.eachRouting (fun _ _ h => h.same.branch (·.benchGive) id)

theorem State.Follows.benchHold {b : Nat} (h : s₀.Follows fr s) : s₀.Follows fr (s.benchHold b) := by
  unfold State.benchHold
  extract_lets q cut s1 patch s2
  have hp {t : State} {i : Nat} {j : Option Nat} (h : s₀.Follows fr t) : s₀.Follows fr (patch t i j) := by
    cases j with
    | none => exact h
    | some j => exact h.benchPatch
  have h1 : s₀.Follows fr s1 := h.same.benchEvt
  clear_value s1
  have h2 : s₀.Follows fr s2 := by
    unfold s2
    split
    · exact (hp h1).benchEvt
    · exact h1
  clear_value s2
  refine .ite ?_ h
  split
  · exact (hp h2).benchEvt
  · exact h2

/-! ### The functions of `Sys2Proof/Machine/Audio.lean` -/

theorem State.Follows.audWant {c : Nat} {g : Sig} (h : s₀.Follows fr s) : s₀.Follows fr (s.audWant c g) := h.same

theorem State.Follows.followTake {d : Nat} (h : s₀.Follows fr s) : s₀.Follows fr (s.followTake d) := h.foldl (fun _ _ h => h.branch (·.audWant) id)

theorem State.Follows.audRouteDelivered {c : Nat} (h : s₀.Follows fr s) : s₀.Follows fr (s.audRouteDelivered c) := h.audWant

theorem State.Follows.audDelayDelivered {c : Nat} (h : s₀.Follows fr s) : s₀.Follows fr (s.audDelayDelivered c) :=
  (h.branch (fun h => h.eachSide (fun _ _ h => h.raise)) id).audWant

theorem State.Follows.audChannelStep {m c : Nat} {x : AudDst} (h : s₀.Follows fr s) : s₀.Follows fr (s.audChannelStep m c x) := by
  unfold State.audChannelStep
  exact h.same.eachSide (fun _ _ h => h.raiseW)

theorem State.Follows.audSourceStep {m x : Nat} {a : AudSrc} (h : s₀.Follows fr s) : s₀.Follows fr (s.audSourceStep m x a) :=
  .ite h (.ite h.same (h.same.branch (fun h => h.eachSide (fun _ _ h => h.addSat)) id))

theorem execSampleBoundary_follows (h : s₀.Follows fr s) : Ends fr s₀ (execSampleBoundary s) :=
  .ite (((((h.foldl (fun _ _ h => h.audSourceStep)).foldl (fun _ _ h => h.audChannelStep)).same).eachSide (fun _ _ h => h.wr)).next) h.next

theorem execChangeTimeout_follows {c : Fin 16384} (h : s₀.Follows fr s) : Ends fr s₀ (execChangeTimeout c s) := by
  unfold execChangeTimeout
  dsimp only
  split
  · exact .ite h.same.next h.next
  · exact h.next

theorem State.Follows.audArrive {x i : Nat} {w : W32} (h : s₀.Follows fr s) : s₀.Follows fr (s.audArrive x i w) := .ite h h.same

theorem State.Follows.deembed {n index : Nat} {sof : Int} {j : Nat} {w : W32} (h : s₀.Follows fr s) : s₀.Follows fr (s.deembed n index sof j w) := by
  unfold State.deembed
  dsimp only
  split
  · exact ((h.branch (fun h => h.eachSide (fun _ _ h => h.addSat)) id).same).branch id (·.audArrive)
  · exact h

theorem State.Follows.audTake {sd : Side} {n : Nat} {k : Block} (h : s₀.Follows fr s) : s₀.Follows fr (s.audTake sd n k) := .ite h.same h

theorem execDeembedPacket_follows {n : Fin 1024} (h : s₀.Follows fr s) : Ends fr s₀ (execDeembedPacket n s) := by
  unfold execDeembedPacket
  dsimp only
  split
  · exact h.next
  · exact .ite ((h.same.foldl (fun _ _ h => h.deembed)).next) h.same.next

theorem State.Follows.tdmTo {p st : Nat} (h : s₀.Follows fr s) : s₀.Follows fr (s.tdmTo p st) := h.setF

theorem State.Follows.writeTdmCtl {p : Nat} {w : W32} (h : s₀.Follows fr s) : s₀.Follows fr (s.writeTdmCtl p w) := .ite h.same.wr (.ite h.same.wr h)

theorem execTdmArm_follows {r : Req} {p : Fin 16} (h : s₀.Follows fr s) : Ends fr s₀ (execTdmArm r p s) := (h.access (fun _ h => h.writeTdmCtl)).next

theorem execTdmStop_follows {r : Req} {p : Fin 16} (h : s₀.Follows fr s) : Ends fr s₀ (execTdmStop r p s) :=
  (h.access (fun _ h => h.writeTdmCtl)).next

theorem State.Follows.tdmTrigger {at_ : Nat} (h : s₀.Follows fr s) : s₀.Follows fr (s.tdmTrigger at_) :=
  h.same.foldl (fun _ _ h => h.branch (·.same.wr) id)

theorem State.Follows.writeTdmTrig {w : W32} (h : s₀.Follows fr s) : s₀.Follows fr (s.writeTdmTrig w) :=
  h.wr.branch (fun h => h.branch (·.same) (·.tdmTrigger)) id

theorem execTdmFire_follows {r : Req} {w : W32} (h : s₀.Follows fr s) : Ends fr s₀ (execTdmFire r w s) := (h.access (fun _ h => h.writeTdmTrig)).next

theorem execTdmTrigger_follows (h : s₀.Follows fr s) : Ends fr s₀ (execTdmTrigger s) := by
  unfold execTdmTrigger
  split
  · exact (h.branch (·.tdmTrigger) id).next
  · exact h.next

theorem State.Follows.tdmFirst {p k : Nat} (h : s₀.Follows fr s) : s₀.Follows fr (s.tdmFirst p k) :=
  (((h.branch (·.same.raise.setF) (·.setF)).branch (·.setF) id).tdmTo).raise

theorem State.Follows.tdmArrive {p k i : Nat} {bits : List Bool} (h : s₀.Follows fr s) : s₀.Follows fr (s.tdmArrive p k i bits) := by
  unfold State.tdmArrive
  split
  · exact h.audArrive
  · exact h

theorem State.Follows.tdmHear {p i : Nat} {prev din : List Bool} (h : s₀.Follows fr s) : s₀.Follows fr (s.tdmHear p i prev din) :=
  h.foldl (fun _ _ h => h.branch (·.tdmArrive) (fun h => h.branch id (·.tdmArrive)))

theorem State.Follows.tdmFrame {p : Nat} {din : List Bool} (h : s₀.Follows fr s) : s₀.Follows fr (s.tdmFrame p din) := by
  unfold State.tdmFrame
  extract_lets x i s1 o off stream s2 s3 s4
  have h1 : s₀.Follows fr s1 := by
    unfold s1
    split
    · exact h.tdmHear
    · exact h
  clear_value s1
  have h2 : s₀.Follows fr s2 := h1.emit
  clear_value s2
  have h4 : s₀.Follows fr s4 := State.Follows.wr (h2.branch (·.addSat.raise) fun h => h.branch (·.addSat.raise) id)
  clear_value s4
  exact h4.same

theorem execTdmFrameSync_follows {p : Fin 16} {din : List Bool} (h : s₀.Follows fr s) : Ends fr s₀ (execTdmFrameSync p din s) := by
  unfold execTdmFrameSync
  dsimp only
  split
  · exact h.tdmFrame.next
  · exact .ite h.tdmFirst.tdmFrame.next h.next
  · exact h.next

theorem execTdmGlitch_follows {p : Fin 16} {ago : Nat} (h : s₀.Follows fr s) : Ends fr s₀ (execTdmGlitch p ago s) := .ite h.addWrap.raise.next h.next

theorem State.Follows.tdmUnalign {p : Nat} (h : s₀.Follows fr s) : s₀.Follows fr (s.tdmUnalign p) := .ite h.setF.raise h

theorem execFsErr_follows {p : Fin 16} {at_ : Nat} (h : s₀.Follows fr s) : Ends fr s₀ (execFsErr p at_ s) :=
  .ite (.ite h.raise.same.raise.tdmUnalign.next h.raise.same.next) h.next

theorem execTdmClockMissing_follows {p : Fin 16} {bclk fs : Nat} (h : s₀.Follows fr s) : Ends fr s₀ (execTdmClockMissing p bclk fs s) :=
  .ite h.tdmTo.setF.raise.next h.next

theorem State.Follows.tdmRateStop {p khz : Nat} (h : s₀.Follows fr s) : s₀.Follows fr (s.tdmRateStop p khz) := h.tdmTo.setF.raise

theorem execRateChange_follows {p : Fin 16} {khz : Nat} (h : s₀.Follows fr s) : Ends fr s₀ (execRateChange p khz s) :=
  .ite h.next (.ite h.setF.next h.tdmRateStop.next)

theorem execClkBack_follows {p : Fin 16} {khz : Nat} (h : s₀.Follows fr s) : Ends fr s₀ (execClkBack p khz s) :=
  .ite (.ite ((h.same.tdmTo.setF.raise.branch id (·.tdmUnalign)).next) h.tdmRateStop.next) h.next

/-! ### The functions of `Sys2Proof/Machine/Memory.lean` -/

theorem State.Follows.setHbm {sd : Side} {m : List Host.Cell} (h : s₀.Follows fr s) : s₀.Follows fr (s.setHbm sd m) := by
  unfold State.setHbm
  split
  · exact h.same
  · exact h.same

/-! ### The functions of `Sys2Proof/Machine/Takes.lean` -/

theorem State.Follows.deliver {k : RegKey} {v : W32} (h : s₀.Follows fr s) : s₀.Follows fr (s.deliver k v) := by
  unfold State.deliver
  exact h.same.eachSide (fun _ _ h => h.wr)

theorem State.Follows.outEvt {d : Nat} {f : Fld} (h : s₀.Follows fr s) : s₀.Follows fr (s.outEvt d f) := .ite (h.eachSide (fun _ _ h => h.raise)) h

theorem State.Follows.seamEvt {d : Nat} {f : Fld} (h : s₀.Follows fr s) : s₀.Follows fr (s.seamEvt d f) := .ite (h.eachSide (fun _ _ h => h.raise)) h

theorem State.Follows.salvoLeave {n : Nat} (h : s₀.Follows fr s) : s₀.Follows fr (s.salvoLeave n) := .ite h.setF.setSource h

theorem State.Follows.takeLeave {p : Pending} (h : s₀.Follows fr s) : s₀.Follows fr (s.takeLeave p) := by
  unfold State.takeLeave
  dsimp only
  split
  · exact h.same.benchReleaseOf.salvoLeave
  · exact h.same.benchReleaseOf

theorem State.Follows.superseded {p : Pending} (h : s₀.Follows fr s) : s₀.Follows fr (s.superseded p) := by
  unfold State.superseded
  dsimp only
  refine State.Follows.takeLeave ?_
  split
  · exact (h.outEvt.branch (·.setF) id).setSource
  · exact h.outEvt.raise.setSource
  · exact h.outEvt

theorem State.Follows.addTake {p : Pending} (h : s₀.Follows fr s) : s₀.Follows fr (s.addTake p) :=
  (h.same.foldl (fun _ _ h => h.superseded)).branch (·.same) id

theorem State.Follows.receive {r : Req} {op : CommitOp} {timed : Bool} {tb seq ticks : Nat} (h : s₀.Follows fr s) :
    s₀.Follows fr (s.receive r op timed tb seq ticks) :=
  .ite h.raise h.setF.same

theorem State.Follows.commitAccess {r : Req} {v : W32} {f : State → State} (h : s₀.Follows fr s)
    (hf : ∀ s, s₀.Follows fr s → s₀.Follows fr (f s)) : s₀.Follows fr (s.commitAccess r v f) := h.access hf

theorem State.Follows.receiveTake {r : Req} {d : Nat} {timed : Bool} {tb seq : Nat} (h : s₀.Follows fr s) :
    s₀.Follows fr (s.receiveTake r d timed tb seq) :=
  h.receive

theorem State.Follows.receiveSalvo {r : Req} {n : Nat} {timed : Bool} {tb seq : Nat} (h : s₀.Follows fr s) :
    s₀.Follows fr (s.receiveSalvo r n timed tb seq) :=
  h.receive

theorem execTake_follows {r : Req} {d : Fin 2048} {timed : Bool} {tb : Fin 4} {seq : Byte} (h : s₀.Follows fr s) :
    Ends fr s₀ (execTake r d timed tb seq s) :=
  (h.commitAccess (fun _ h => h.receiveTake)).next

theorem execSalvoCommit_follows {r : Req} {n : Fin 256} {timed : Bool} {tb : Fin 4} {seq : Byte} (h : s₀.Follows fr s) :
    Ends fr s₀ (execSalvoCommit r n timed tb seq s) :=
  (h.commitAccess (fun _ h => h.receiveSalvo)).next

theorem execTakeCancel_follows {r : Req} {d : Fin 2048} {seq : Byte} (h : s₀.Follows fr s) : Ends fr s₀ (execTakeCancel r d seq s) :=
  (h.commitAccess (fun _ h => h.receive)).next

theorem execSalvoCancel_follows {r : Req} {n : Fin 256} {seq : Byte} (h : s₀.Follows fr s) : Ends fr s₀ (execSalvoCancel r n seq s) :=
  (h.commitAccess (fun _ h => h.receive)).next

theorem State.Follows.acceptEntries {c : Commit} {owner : Nat → TakeBy} {es : List (Nat × Nat)} {ps : List TakePlan} (h : s₀.Follows fr s) :
    s₀.Follows fr (s.acceptEntries c owner es ps).2 :=
  h.foldl (fun _ _ h => (h.branch (·.seamEvt) id).addTake)

theorem State.Follows.commitTake {c : Commit} {d src : Nat} {valid : Bool} (h : s₀.Follows fr s) :
    s₀.Follows fr (s.commitTake c d src valid).2 := by
  unfold State.commitTake
  refine .iteSnd h (.iteSnd h ?_)
  split
  · exact h
  · split
    · exact h
    · next hp => exact .iteSnd h (h.planAll hp).acceptEntries

theorem State.Follows.commitSalvo {c : Commit} {n : Nat} {es : List (Nat × Nat)} (h : s₀.Follows fr s) : s₀.Follows fr (s.commitSalvo c n es).2 := by
  unfold State.commitSalvo
  dsimp only
  split
  · exact h
  · refine .iteSnd h ?_
    split
    · exact h
    · split
      · exact h
      · next hp =>
        split
        · exact h
        · exact .iteSnd h (.iteSnd h (.iteSnd h (h.planAll hp).acceptEntries.setF))

theorem State.Follows.cancelTake {r : Req} {d : Nat} (h : s₀.Follows fr s) : s₀.Follows fr (s.cancelTake r d).2 := by
  unfold State.cancelTake
  refine .iteSnd h ?_
  refine .iteSnd h ?_
  split
  · exact h
  · exact .iteSnd h h.takeLeave

theorem State.Follows.cancelSalvo {r : Req} {n : Nat} (h : s₀.Follows fr s) : s₀.Follows fr (s.cancelSalvo r n).2 :=
  .iteSnd h (State.Follows.iteSnd h (State.Follows.iteSnd h (h.setF.same.foldl (fun _ _ h => h.benchReleaseOf))))

theorem State.Follows.commitOne {c : Commit} (h : s₀.Follows fr s) : s₀.Follows fr (s.commitOne c) := by
  unfold State.commitOne
  dsimp only
  refine State.Follows.setSource ?_
  refine State.Follows.setF ?_
  refine State.Follows.setF ?_
  refine State.Follows.setF ?_
  refine State.Follows.setF ?_
  split
  · exact h.same.commitTake
  · exact h.same.commitSalvo
  · exact h.same.cancelTake
  · exact h.same.cancelSalvo

theorem execCommitTick_follows (h : s₀.Follows fr s) : Ends fr s₀ (execCommitTick s) := (h.foldl (fun _ _ h => h.commitOne)).next

theorem execTimedTakeStamp_follows (h : s₀.Follows fr s) : Ends fr s₀ (execTimedTakeStamp s) :=
  (h.foldl (fun _ _ h => (h.same.branch (·.outEvt) id).addTake)).next

theorem State.Follows.endFrame {d : Nat} {ended j : Int} (h : s₀.Follows fr s) : s₀.Follows fr (s.endFrame d ended j) := by
  unfold State.endFrame
  exact h.same.eachSide (fun _ _ h => h.same)

theorem State.Follows.jumpTo {d : Nat} {o' : OutTiming} {j : Int} (h : s₀.Follows fr s) : s₀.Follows fr (s.jumpTo d o' j) := h.endFrame.same

theorem State.Follows.alignCut {c d j : Nat} (h : s₀.Follows fr s) : s₀.Follows fr (s.alignCut c d j) := h.endFrame

theorem State.Follows.retimeAt {t : Pending} {j : Int} (h : s₀.Follows fr s) : s₀.Follows fr (s.retimeAt t j) := by
  unfold State.retimeAt
  dsimp only
  split
  · exact h
  · exact h.jumpTo.outEvt.seamEvt
  · split
    · exact h
    · exact h.jumpTo.outEvt.seamEvt

theorem State.Follows.returnIn {sd : Side} {d : Nat} (h : s₀.Follows fr s) : s₀.Follows fr (s.returnIn sd d) := by
  unfold State.returnIn
  dsimp only
  split
  · exact h
  · exact .ite h.same h

theorem State.Follows.executeTake {t : Pending} {f : Nat} (hr : .routes ∈ fr) (h : s₀.Follows fr s) : s₀.Follows fr (s.executeTake t f) := by
  unfold State.executeTake
  extract_lets old s1 new s2 s3 lead s4 lead' s5 s6 s7 s8 s9
  have h3 : s₀.Follows fr s3 := State.Follows.benchReleaseOf { h with routes := fun hn => absurd hr hn }
  have h6 : s₀.Follows fr s6 := by
    clear_value s3
    exact .ite (h3.retimeAt.same.eachSide fun _ _ h => h.same.wr.returnIn) h3
  clear_value s6
  have h8 : s₀.Follows fr s8 := h6.outEvt.branch (·.outEvt) id
  clear_value s8
  have h9 : s₀.Follows fr s9 := by
    unfold s9
    cases t.owner with
    | salvo => exact h8.setF.salvoLeave
    | single => exact h8
    | internal => exact h8
  clear_value s9
  exact h9.branch (·.followTake) id

theorem execTakeExecute_follows {d : Fin 1344} (hr : .routes ∈ fr) (h : s₀.Follows fr s) : Ends fr s₀ (execTakeExecute d s) := by
  unfold execTakeExecute
  split
  · exact h.next
  · exact .ite (h.executeTake hr).next h.next

theorem State.Follows.salvoEdit {r : Req} {free : Bool} {addr : Nat} {f : Nat → State → State} (h : s₀.Follows fr s)
    (hf : ∀ n s, s₀.Follows fr s → s₀.Follows fr (f n s)) : s₀.Follows fr (s.salvoEdit r free addr f) := by
  unfold State.salvoEdit
  exact .ite (.ite h.raise (hf _ _ h)) h.raise.denied

theorem State.Follows.salvoEmpty {n owner : Nat} (h : s₀.Follows fr s) : s₀.Follows fr (s.salvoEmpty n owner) := h.same.setF.setF.setF

theorem State.Follows.writeSalvoCtl {r : Req} {op : Nat} (h : s₀.Follows fr s) : s₀.Follows fr (s.writeSalvoCtl r op) := by
  unfold State.writeSalvoCtl
  split
  · exact h.salvoEdit (fun _ _ h => h.salvoEmpty)
  · exact h.salvoEdit (fun _ _ h => h.salvoEmpty)
  · exact h

theorem execSalvoClear_follows {r : Req} (h : s₀.Follows fr s) : Ends fr s₀ (execSalvoClear r s) := (h.access (fun _ h => h.writeSalvoCtl)).next

theorem execSalvoRelease_follows {r : Req} (h : s₀.Follows fr s) : Ends fr s₀ (execSalvoRelease r s) := (h.access (fun _ h => h.writeSalvoCtl)).next

theorem State.Follows.writeSalvoEntry {r : Req} {dest src : Nat} (h : s₀.Follows fr s) : s₀.Follows fr (s.writeSalvoEntry r dest src) :=
  h.salvoEdit (fun _ _ h => h.branch (·.raise) (·.same.setF))

theorem execSalvoAppend_follows {r : Req} {dest src : Fin 2048} (h : s₀.Follows fr s) : Ends fr s₀ (execSalvoAppend r dest src s) :=
  (h.access (fun _ h => h.writeSalvoEntry)).next

theorem execOffsetJump_follows {d : Fin 1024} (h : s₀.Follows fr s) : Ends fr s₀ (execOffsetJump d s) := by
  unfold execOffsetJump
  dsimp only
  split
  · exact h.next
  · exact .ite (((((h.branch (·.jumpTo) (·.same)).branch (·.outEvt) id).branch (·.seamEvt) id).branch (·.outEvt) id).next) h.next

theorem execRealignJump_follows {c : Fin 32} (h : s₀.Follows fr s) : Ends fr s₀ (execRealignJump c s) := by
  unfold execRealignJump
  dsimp only
  split
  · exact h.next
  · exact .ite (((((((h.foldl (fun _ _ h => h.alignCut)).eachSide (fun _ _ h => h.foldl (fun _ _ h => h.raise))).same).setF).raise).branch (·.setF)
      id).next) ((((h.foldl (fun _ _ h => h.alignCut)).eachSide (fun _ _ h => h.foldl (fun _ _ h => h.raise))).same).next)

theorem State.Follows.fillFrame {sd : Side} {d f : Nat} {x : Shown} (h : s₀.Follows fr s) : s₀.Follows fr (s.fillFrame sd d f x) :=
  h.same.branch (·.addWrap.raise) id

theorem State.Follows.startFrame {sd : Side} {d f : Nat} (h : s₀.Follows fr s) : s₀.Follows fr (s.startFrame sd d f) := by
  unfold State.startFrame
  extract_lets ix sh r s1 now was cause s2 s3
  have h1 : s₀.Follows fr s1 := by
    unfold s1
    split
    · exact .ite h.fillFrame h
    · exact h
  clear_value s1
  have h2 : s₀.Follows fr s2 := h1.same
  clear_value s2
  have h3 : s₀.Follows fr s3 := h2.branch (·.raise) fun h => h.branch (·.raise) id
  clear_value s3
  exact h3.branch (·.raise) id

theorem State.Follows.captureFrame {sd : Side} {t code tag : Nat} {fz : Int} {words : List W32} (h : s₀.Follows fr s) :
    s₀.Follows fr (s.captureFrame sd t code tag fz words) :=
  .ite h (.ite h.same.raise ((h.setHbm.setF.setF.branch (·.setF) id).same))

theorem State.Follows.capCfgDelivered {t : Nat} {v : W32} (h : s₀.Follows fr s) : s₀.Follows fr (s.capCfgDelivered t v) :=
  h.deliver.branch (fun h => h.eachSide (fun _ _ h => h.same.setF)) (fun h => h.branch (fun h => h.eachSide (fun _ _ h => h.same)) id)

theorem execCaptureEnable_follows {r : Req} {t : Fin 64} {v : W32} (h : s₀.Follows fr s) : Ends fr s₀ (execCaptureEnable r t v s) :=
  (h.access (fun _ h => h.capCfgDelivered)).next

/-! ### The functions of `Sys2Proof/Machine/Input.lean` -/

theorem State.Follows.internalTake {d x : Nat} {p : TakePlan} {fallback : Bool} (h : s₀.Follows fr s) :
    s₀.Follows fr (s.internalTake d x p fallback) :=
  (h.branch (·.seamEvt) id).addTake

theorem State.Follows.judge {d : Nat} {lead : Int} (h : s₀.Follows fr s) : s₀.Follows fr (s.judge d lead) :=
  (h.same.branch (·.seamEvt) id).branch (·.planTake.internalTake) id

theorem State.Follows.judgeAll {x : Nat} {via : Option Nat} {t : Int} (h : s₀.Follows fr s) : s₀.Follows fr (s.judgeAll x via t) :=
  h.foldl (fun _ _ h => h.branch (·.judge) id)

theorem State.Follows.setCopyRx {n : Nat} {b : Bank} {c : CopyRx} (h : s₀.Follows fr s) : s₀.Follows fr (s.setCopyRx n b c) := h.same

theorem State.Follows.inBit {n : Nat} {f : Fld} (h : s₀.Follows fr s) : s₀.Follows fr (s.inBit n f) := h.eachRouting (fun _ _ h => h.raise)

theorem State.Follows.trimRx {n : Nat} {b : Bank} (h : s₀.Follows fr s) : s₀.Follows fr (s.trimRx n b) := .ite h ((h.branch (·.inBit) id).setCopyRx)

theorem State.Follows.memberUnder {n : Nat} {b : Bank} {m : Nat} {lost : Bool} (h : s₀.Follows fr s) : s₀.Follows fr (s.memberUnder n b m lost) :=
  (h.branch id (·.setCopyRx.inBit)).branch (·.setCopyRx) id

theorem State.Follows.pushWords {n : Nat} {b : Bank} {ws : List RxWord} (h : s₀.Follows fr s) : s₀.Follows fr (s.pushWords n b ws) :=
  .ite h ((h.branch (·.inBit) id).branch (·.setCopyRx.trimRx) (fun h => h.setCopyRx.branch id (fun h => h.foldl (fun _ _ h => h.memberUnder))))

theorem State.Follows.pushPos {b : Bank} {p : SrcPos} {ws : List RxWord} (h : s₀.Follows fr s) : s₀.Follows fr (s.pushPos b p ws) := by
  unfold State.pushPos
  refine .ite h ?_
  refine h.foldl fun _ _ h => ?_
  refine .ite ?_ ?_
  · split
    · exact h.pushWords
    · exact h.pushWords
  · exact h

theorem State.Follows.bondRun {g n : Nat} {b : Bank} {fuel : Nat} (h : s₀.Follows fr s) : s₀.Follows fr (State.bondRun g n b fuel s) := by
  induction fuel generalizing s with
  | zero => exact h
  | succ fuel ih =>
    unfold State.bondRun
    split
    · exact h.setCopyRx
    · exact ih (h.setCopyRx.eachRouting fun _ _ h => h.addWrap)
    · exact ih (h.setCopyRx.foldl fun _ _ h => h.memberUnder)

theorem State.Follows.reassemble {n : Nat} {b : Bank} (h : s₀.Follows fr s) : s₀.Follows fr (s.reassemble n b) := .ite h h.bondRun.trimRx

theorem State.Follows.crosspoint {sd : Side} {n : Nat} {k : Block} (h : s₀.Follows fr s) : s₀.Follows fr (s.crosspoint sd n k) :=
  (h.audTake.foldl (fun _ _ h => h.feed)).foldl (fun _ _ h => h.branch (·.benchTake) id)

theorem State.Follows.markLoss {sd : Side} {n : Nat} (h : s₀.Follows fr s) : s₀.Follows fr (s.markLoss sd n) :=
  h.foldl (fun _ _ h => h.branch (·.same) id)

theorem State.Follows.mergeRun {sd : Side} {n : Nat} {m : Merge} {bits : W32} (h : s₀.Follows fr s) : s₀.Follows fr (s.mergeRun sd n m bits) :=
  (h.same.addWrap.raiseW.foldl (fun _ _ h => h.crosspoint)).branch (fun h => h.markLoss.foldl (fun _ _ h => h.branch (·.benchHold) id)) id

theorem State.Follows.mergeArrive {sd : Side} {n : Nat} {b : Bank} {x : Option Block} (h : s₀.Follows fr s) :
    s₀.Follows fr (s.mergeArrive sd n b x) := by
  unfold State.mergeArrive
  dsimp only
  split
  · exact h.mergeRun
  · exact .ite h.raiseW h.mergeRun

theorem State.Follows.flowAbsent {b : Bank} {x : Option SrcPos} (h : s₀.Follows fr s) : s₀.Follows fr (s.flowAbsent b x) := by
  unfold State.flowAbsent
  split
  · exact h.flowCopyAbsent
  · exact h

theorem State.Follows.copyAbsent {n : Nat} {b : Bank} (h : s₀.Follows fr s) : s₀.Follows fr (s.copyAbsent n b) :=
  .ite (h.flowAbsent.setCopyRx.eachRouting (fun _ _ h => h.raiseW.mergeArrive)) h

theorem State.Follows.forgetWhole {n : Nat} (h : s₀.Follows fr s) : s₀.Follows fr (s.forgetWhole n) := h.same

theorem State.Follows.sofArrives {n : Nat} {b : Bank} {f : Fmt} {tag : Nat} {stamp : Int} (h : s₀.Follows fr s) :
    s₀.Follows fr (s.sofArrives n b f tag stamp) :=
  (h.same.branch (·.forgetWhole.inBit) id).branch (·.inBit.copyAbsent.setCopyRx.trimRx) (fun h => h.branch (·.judgeAll) id)

theorem execInputSof_follows {n : Fin 1024} {b : Bank} (h : s₀.Follows fr s) : Ends fr s₀ (execInputSof n b s) := by
  unfold execInputSof
  dsimp only
  refine .ite h.next ?_
  split
  · exact h.reassemble.sofArrives.next
  · exact h.reassemble.next

theorem execMergeBlock_follows {n : Fin 1024} {b : Bank} (h : s₀.Follows fr s) : Ends fr s₀ (execMergeBlock n b s) := by
  unfold execMergeBlock
  dsimp only
  refine .ite h.next ?_
  refine .ite h.reassemble.next ?_
  split
  · exact .ite h.reassemble.setCopyRx.next ((h.reassemble.setCopyRx.eachRouting (fun _ _ h => h.mergeArrive)).next)
  · exact h.reassemble.next

theorem execGapTimeout_follows {n : Fin 1024} {b : Bank} (h : s₀.Follows fr s) : Ends fr s₀ (execGapTimeout n b s) := .ite h.copyAbsent.next h.next

theorem execBondUnderrun_follows {n : Fin 1024} {b : Bank} {m : Fin 16} (h : s₀.Follows fr s) : Ends fr s₀ (execBondUnderrun n b m s) :=
  .ite h.memberUnder.next h.next

theorem execBondRejoin_follows {n : Fin 1024} {b : Bank} {m : Fin 16} (h : s₀.Follows fr s) : Ends fr s₀ (execBondRejoin n b m s) := by
  unfold execBondRejoin
  dsimp only
  refine .ite ?_ ?_
  · split
    · exact .ite h.reassemble.setCopyRx.next h.reassemble.next
    · exact h.reassemble.next
  · exact h.next

theorem State.Follows.posLost {n : Nat} {b : Bank} (h : s₀.Follows fr s) : s₀.Follows fr (s.posLost n b) := .ite h.copyAbsent h.memberUnder

theorem State.Follows.posLostWhere {f : Bank → SrcPos → Bool} (h : s₀.Follows fr s) : s₀.Follows fr (s.posLostWhere f) :=
  h.foldl (fun _ _ h => (h.branch (·.posLost) id).branch (·.posLost) (fun h => h))

theorem State.Follows.laneLost {n : Nat} (h : s₀.Follows fr s) : s₀.Follows fr (s.laneLost n) := h.posLostWhere

theorem State.Follows.inCfgDelivered {n : Nat} {v : W32} (h : s₀.Follows fr s) : s₀.Follows fr (s.inCfgDelivered n v) := by
  unfold State.inCfgDelivered
  exact h.deliver.eachRouting (fun _ _ h => h.mergeRun)

theorem execBenchFrameStart_follows {b : Fin 1024} (h : s₀.Follows fr s) : Ends fr s₀ (execBenchFrameStart b s) := by
  unfold execBenchFrameStart
  dsimp only
  refine .ite h.next ?_
  refine .ite h.same.next ?_
  refine State.Follows.next ?_
  refine State.Follows.judgeAll ?_
  split
  · exact h.same.eachRouting (fun _ _ h => h.benchGive)
  · exact (h.same.eachRouting (fun _ _ h => h.benchGive)).benchRepeat
  · exact (h.same.eachRouting (fun _ _ h => h.benchGive)).benchEvt

theorem State.Follows.fsyDelivered {b : Nat} {cfg phase : W32} (h : s₀.Follows fr s) : s₀.Follows fr (s.fsyDelivered b cfg phase) :=
  .ite h.benchEvt (.ite (.ite h.deliver.deliver (.ite h.benchEvt (.ite h.benchEvt h.deliver.deliver.benchAlloc)))
    (.ite h.deliver.deliver.benchRelease (.ite h.benchEvt (.ite h.benchEvt h.deliver.deliver.benchAlloc.benchRelease))))

theorem execFsyCfgWrite_follows {r : Req} {b : Fin 1024} {v : W32} (h : s₀.Follows fr s) : Ends fr s₀ (execFsyCfgWrite r b v s) :=
  (h.access (fun _ h => h.fsyDelivered)).next

theorem State.Follows.withdraw {s0 : State} (h : s₀.Follows fr s) : s₀.Follows fr (s.withdraw s0) :=
  (((h.foldl (fun _ _ h => h.takeLeave)).same).foldl (fun _ _ h => h.benchReleaseOf)).foldl (fun _ _ h => h.branch (·.internalTake) id)

theorem execAudRouteChange_follows {r : Req} {c : Fin 16384} {v : W32} (h : s₀.Follows fr s) : Ends fr s₀ (execAudRouteChange r c v s) :=
  (h.access (fun _ h => h.deliver.audRouteDelivered)).next

theorem execAudDelayChange_follows {r : Req} {c : Fin 16384} {v : W32} (h : s₀.Follows fr s) : Ends fr s₀ (execAudDelayChange r c v s) :=
  (h.access (fun _ h => h.deliver.audDelayDelivered)).next

/-! ### The functions of `Sys2Proof/Machine/Generator.lean` -/

theorem State.Follows.captureStep {sd : Side} {t : Nat} (h : s₀.Follows fr s) : s₀.Follows fr (s.captureStep sd t) := by
  unfold State.captureStep
  dsimp only
  split
  · exact h.same.branch (·.captureFrame) id
  · exact .ite (.ite h (h.same.branch (·.captureFrame) id)) h

theorem execCaptureFrame_follows {t : Fin 64} (h : s₀.Follows fr s) : Ends fr s₀ (execCaptureFrame t s) :=
  (h.eachRouting (fun _ _ h => h.captureStep)).next

/-! ### The functions of `Sys2Proof/Machine/Alloy.lean` -/

theorem State.Follows.setAly {sd : Side} {m : List (AlyCell × W32)} (h : s₀.Follows fr s) : s₀.Follows fr (s.setAly sd m) := by
  unfold State.setAly
  split
  · exact h.same
  · exact h.same

theorem State.Follows.putContent {sd : Side} {kind item copy off : Nat} {v : W32} (h : s₀.Follows fr s) :
    s₀.Follows fr (s.putContent sd kind item copy off v) :=
  .ite h.setHbm h.setAly

theorem State.Follows.alyEvt {x : Nat} {f : Fld} (h : s₀.Follows fr s) : s₀.Follows fr (s.alyEvt x f) := h.eachSide (fun _ _ h => h.raise)

theorem State.Follows.loadWord {r : Req} {v : W32} (h : s₀.Follows fr s) : s₀.Follows fr (s.loadWord r v) :=
  .ite h (.ite (h.denied.branch (·.alyEvt) id) (.ite h.alyEvt (.ite h.alyEvt ((h.eachSide (fun _ _ h => h.putContent)).deliver))))

theorem execAlyLoadData_follows {r : Req} {v : W32} (h : s₀.Follows fr s) : Ends fr s₀ (execAlyLoadData r v s) :=
  (h.access (fun _ h => h.loadWord)).next

theorem State.Follows.askFlip {x bit : Nat} (h : s₀.Follows fr s) : s₀.Follows fr (s.askFlip x bit) :=
  .ite h (h.same.eachSide (fun _ _ h => h.wr))

theorem State.Follows.flipDelivered {x : Nat} {v : W32} (h : s₀.Follows fr s) : s₀.Follows fr (s.flipDelivered x v) :=
  ((h.branch (·.askFlip) id).branch (·.askFlip) id).branch (·.askFlip) id

theorem execFlipGfx_follows {r : Req} {x : Fin 32} (h : s₀.Follows fr s) : Ends fr s₀ (execFlipGfx r x s) :=
  (h.access (fun _ h => h.flipDelivered)).next

theorem execFlipCursor_follows {r : Req} {x : Fin 32} (h : s₀.Follows fr s) : Ends fr s₀ (execFlipCursor r x s) :=
  (h.access (fun _ h => h.flipDelivered)).next

theorem execFlipLut_follows {r : Req} {x : Fin 32} (h : s₀.Follows fr s) : Ends fr s₀ (execFlipLut r x s) :=
  (h.access (fun _ h => h.flipDelivered)).next

theorem State.Follows.protFlipDelivered {x : Nat} {v : W32} (h : s₀.Follows fr s) : s₀.Follows fr (s.protFlipDelivered x v) :=
  .ite h (.ite h.same.askFlip h.alyEvt)

theorem execAlyProtFlip_follows {r : Req} {x : Fin 32} (h : s₀.Follows fr s) : Ends fr s₀ (execAlyProtFlip r x s) :=
  (h.access (fun _ h => h.protFlipDelivered)).next

theorem State.Follows.headValueDelivered {x : Nat} {k : RegKey} {v : W32} (h : s₀.Follows fr s) : s₀.Follows fr (s.headValueDelivered x k v) :=
  h.deliver.same

theorem State.Follows.storeCfgDelivered {x : Nat} {v : W32} (h : s₀.Follows fr s) : s₀.Follows fr (s.storeCfgDelivered x v) :=
  h.deliver.branch id (fun h => h.eachSide (fun _ _ h => h.setF))

theorem State.Follows.storeFrame {sd : Side} {x k : Nat} (h : s₀.Follows fr s) : s₀.Follows fr (s.storeFrame sd x k) := by
  unfold State.storeFrame
  extract_lets cfg ix kst cur s1 b s2
  clear_value cur
  have h1 : s₀.Follows fr s1 := by
    unfold s1
    split
    · exact h.setF
    · exact h
  clear_value s1
  have h2 : s₀.Follows fr s2 := h1.setHbm
  clear_value s2
  exact .ite h1.same (.ite h1.same.setF h2.same)

theorem State.Follows.tileWrite {sd : Side} {f : Nat} {fz : TileFrame} {ks : List Block} (h : s₀.Follows fr s) :
    s₀.Follows fr (s.tileWrite sd f fz ks) := by
  unfold State.tileWrite
  dsimp only
  split
  · exact h
  · exact h.same

theorem State.Follows.tileBlock {sd : Side} {f : Nat} {x : Fed} (h : s₀.Follows fr s) : s₀.Follows fr (s.tileBlock sd f x) := by
  unfold State.tileBlock
  dsimp only
  refine .ite h ?_
  refine .ite ?_ ?_
  · split
    · exact h.addWrap.raise
    · exact h.addWrap
  · exact h.tileWrite

theorem State.Follows.tileGen {sd : Side} {f : Nat} (h : s₀.Follows fr s) : s₀.Follows fr (s.tileGen sd f) := .ite h h.same.tileWrite

theorem execTileBlock_follows {f : Fin 256} (h : s₀.Follows fr s) : Ends fr s₀ (execTileBlock f s) := by
  unfold execTileBlock
  dsimp only
  refine State.Follows.next ?_
  refine h.eachSide fun _ _ h => ?_
  split
  · exact h.tileGen
  · exact h.same.tileBlock

theorem execTileFrameEligible_follows {f : Fin 256} (h : s₀.Follows fr s) : Ends fr s₀ (execTileFrameEligible f s) :=
  (h.eachSide (fun _ _ h => h.same)).next

theorem State.Follows.tileFrame {sd : Side} {x f : Nat} {t : Int} (h : s₀.Follows fr s) : s₀.Follows fr (s.tileFrame sd x f t) :=
  h.same.wr.raiseIf.raiseIf

theorem State.Follows.headGive {sd : Side} {x : Nat} {t : Int} {k : Nat} (h : s₀.Follows fr s) : s₀.Follows fr (s.headGive sd x t k) :=
  h.foldl (fun _ _ h => h.foldl (fun _ _ h => h.feed))

theorem execHeadFrame_follows {x : Fin 32} {bad : List Nat} (h : s₀.Follows fr s) : Ends fr s₀ (execHeadFrame x bad s) :=
  .ite h.next (.ite h.judgeAll.same.next
    ((h.judgeAll.same.eachSide (fun _ _ h => (((h.foldl (fun _ _ h => h.tileFrame)).branch (·.addWrap.raise) id).storeFrame).headGive)).next))

theorem State.Follows.flipNow {sd : Side} {x bit : Nat} (h : s₀.Follows fr s) : s₀.Follows fr (s.flipNow sd x bit) :=
  h.wr.branch (fun h => h.foldl (fun _ _ h => h.branch (·.wr) id)) id

theorem State.Follows.tileGeomNow {sd : Side} {x f : Nat} (h : s₀.Follows fr s) : s₀.Follows fr (s.tileGeomNow sd x f) :=
  (h.setF.branch (·.setF) id).raiseIf

theorem execHeadBoundary_follows {n : Fin 32} (h : s₀.Follows fr s) : Ends fr s₀ (execHeadBoundary n s) := by
  unfold execHeadBoundary
  extract_lets due now s1 s2 s3
  have h2 : s₀.Follows fr s2 := by
    refine h.same.foldl fun _ w h => ?_
    cases w with
    | value => exact h.same
    | flip => exact h
  have h3 : s₀.Follows fr s3 := by
    refine h2.foldl fun _ w h => ?_
    cases w with
    | value => exact h
    | flip => exact h.eachSide fun _ _ h => h.flipNow
  exact (h3.branch id (·.eachSide fun _ _ h => h.foldl fun _ _ h => h.tileGeomNow)).next

/-! ### The functions of `Sys2Proof/Machine/Assay.lean` -/

theorem State.Follows.noteClaims (h : s₀.Follows fr s) : s₀.Follows fr s.noteClaims := by
  unfold State.noteClaims
  refine .ite ((h.branch (·.setSide) (fun h => h.branch (·.setSide) id)).setSide) ?_
  exact .ite ((h.branch (·.setSide) (fun h => h.branch (·.setSide) id)).setSide) (.ite h.setSide (.ite h.setSide h))

theorem State.Follows.quietUpdate {sd : Side} {restart : Bool} (h : s₀.Follows fr s) : s₀.Follows fr (s.quietUpdate sd restart) := .ite h.setSide h

theorem State.Follows.recordRise {r : Rise} {same : Bool} (h : s₀.Follows fr s) : s₀.Follows fr (s.recordRise r same) :=
  ((((((((h.foldl (fun _ _ h => h.wr)).setF).setF).addSat).branch (·.addWrap) id).branch id (fun h => h.foldl (fun _ _ h => h.wr))).wr).same).branch
    (·.setSource) id

theorem State.Follows.sample {pulses : List (Nat × W32)} (h : s₀.Follows fr s) : s₀.Follows fr (s.sample pulses).2 :=
  ((h.quietUpdate.quietUpdate.wr.wr.foldl (fun _ _ h => h.recordRise)).quietUpdate).quietUpdate

/-! ### The functions of `Sys2Proof/Machine/Referee.lean` -/

theorem State.Follows.noteStep {sd : Side} {now : Bool} (h : s₀.Follows fr s) : s₀.Follows fr (s.noteStep sd now) := h.setSide

theorem State.Follows.updateStep (h : s₀.Follows fr s) : s₀.Follows fr s.updateStep := by
  unfold State.updateStep
  extract_lets st was a b s1 s2 done ended s3
  have h2 : s₀.Follows fr s2 := h.setF.setF.branch (·.raise) fun h => h.branch (·.raise) id
  clear_value s2
  have hd {t : State} {sd : Side} {now : Bool} (h : s₀.Follows fr t) : s₀.Follows fr (done t sd now) := h.branch (·.setF.setF.setSide) id
  have h3 : s₀.Follows fr s3 := (hd (hd h2)).noteStep.noteStep
  clear_value s3
  split
  · exact (h3.branch fun h => h.branch (·.same) id) (·.same)
  · exact h3.same

theorem State.Follows.sluiceStop {l : Nat} (h : s₀.Follows fr s) : s₀.Follows fr (s.sluiceStop l) := .ite h h.wr.same

theorem State.Follows.clearSide {sd : Side} (h : s₀.Follows fr s) : s₀.Follows fr (s.clearSide sd) := h.same.setAly

theorem State.Follows.resetSide {sd : Side} (h : s₀.Follows fr s) : s₀.Follows fr (s.resetSide sd) :=
  h.clearSide.masterReset.setSide.setF.noteClaims.updateStep

theorem State.Follows.isolate {sd : Side} (h : s₀.Follows fr s) : s₀.Follows fr (s.isolate sd) := .ite h h.setSide.resetSide

theorem State.Follows.startResync {sd : Side} {kept : Bool} (h : s₀.Follows fr s) : s₀.Follows fr (s.startResync sd kept) := h.setF.setSide.updateStep

theorem State.Follows.primeBenches (h : s₀.Follows fr s) : s₀.Follows fr s.primeBenches := h.same

theorem State.Follows.renew (h : s₀.Follows fr s) : s₀.Follows fr s.renew := h.same

theorem State.Follows.drive (h : s₀.Follows fr s) : s₀.Follows fr s.drive := by
  unfold State.drive
  dsimp only
  split
  · exact h.foldl (fun _ _ h => h.setF.branch id (·.raise))
  · exact h.foldl (fun _ _ h => h.setF.branch id (·.raise))
  · exact h

theorem State.Follows.vote {st : Nat} (h : s₀.Follows fr s) : s₀.Follows fr (s.vote st) := h.setF.same.drive

theorem State.Follows.select {y : Side} (h : s₀.Follows fr s) : s₀.Follows fr (s.select y) := h.vote.renew.noteClaims

theorem State.Follows.settleStandby {y : Side} (h : s₀.Follows fr s) : s₀.Follows fr (s.settleStandby y) := by
  unfold State.settleStandby
  dsimp only
  refine .ite h ?_
  split
  · exact ((((h.same.foldl (fun _ _ h => h.setF.setF)).same).setSide).setF).updateStep
  · exact h.clearSide.setHbm.setSide.updateStep
  · exact h

theorem State.Follows.wakeSide {y : Side} {kept : Bool} (h : s₀.Follows fr s) : s₀.Follows fr (s.wakeSide y kept) := h.setSide.setF.startResync

theorem State.Follows.wakeHolder {y : Side} (h : s₀.Follows fr s) : s₀.Follows fr (s.wakeHolder y) :=
  .ite h.setSide.raise.same (.ite h.primeBenches.wakeSide.same h)

theorem State.Follows.preempt (h : s₀.Follows fr s) : s₀.Follows fr s.preempt := by
  unfold State.preempt
  dsimp only
  split
  · exact h
  · exact h.same.setF.setF

theorem State.Follows.flipTo {y : Side} {cause line : Nat} (h : s₀.Follows fr s) : s₀.Follows fr (s.flipTo y cause line) :=
  ((((((h.branch id (·.preempt)).addWrap).wr).raise).select).wakeHolder).updateStep

theorem State.Follows.enterNone (h : s₀.Follows fr s) : s₀.Follows fr s.enterNone := h.vote.raise.same.preempt.noteClaims.updateStep

theorem State.Follows.sideError {x : Side} {sev line : Nat} (h : s₀.Follows fr s) : s₀.Follows fr (s.sideError x sev line) :=
  .ite h (.ite h.raiseIf (.ite (.ite (h.isolate.branch (·.flipTo) (·.enterNone)) (.ite h.flipTo.resetSide h.raise)) (.ite h.isolate h.resetSide)))

theorem State.Follows.act {rs : List Rise} (h : s₀.Follows fr s) : s₀.Follows fr (s.act rs) := by
  unfold State.act
  extract_lets top one
  have ho {t : State} {x : Side} (h : s₀.Follows fr t) : s₀.Follows fr (one t x) := by
    unfold one
    split
    · exact h.sideError
    · exact h
  split
  · exact ho (ho h)
  · exact ho (ho h)

theorem State.Follows.noteFails {old : W32} {rs : List Rise} (h : s₀.Follows fr s) : s₀.Follows fr (s.noteFails old rs) :=
  .ite ((h.branch (·.setSide) id).setSide) (.ite h.setSide h)

theorem State.Follows.cycle {pulses : List (Nat × W32)} (h : s₀.Follows fr s) : s₀.Follows fr (s.cycle pulses) := h.sample.noteFails.act

theorem State.Follows.expire (h : s₀.Follows fr s) : s₀.Follows fr s.expire := by
  unfold State.expire
  dsimp only
  split
  · exact h
  · exact .ite h (h.raise.branch (·.flipTo.resetSide) (·.enterNone))

theorem State.Follows.grant {sd : Side} (h : s₀.Follows fr s) : s₀.Follows fr (s.grant sd) := h.select.raise.wakeHolder.same.settleStandby

theorem execHeartbeat_follows {sd : Side} {fabricOk clocksOk hbmOk : Bool} (h : s₀.Follows fr s) :
    Ends fr s₀ (execHeartbeat sd fabricOk clocksOk hbmOk s) :=
  .ite h.next (.ite h.setSide.next
    (.ite h.setSide.renew.updateStep.next
      (.ite h.setSide.grant.updateStep.next ((h.setSide.branch (·.settleStandby.updateStep) (·.updateStep)).next))))

theorem execLeaseExpiry_follows (h : s₀.Follows fr s) : Ends fr s₀ (execLeaseExpiry s) := h.cycle.expire.next

theorem State.Follows.setLines {asserted : List (Nat × W32)} (h : s₀.Follows fr s) : s₀.Follows fr (s.setLines asserted) :=
  (h.same.raiseIf.branch (·.setSide) id).branch (·.setSide) id

theorem execAssayLineRise_follows {asserted : List (Nat × W32)} (h : s₀.Follows fr s) : Ends fr s₀ (execAssayLineRise asserted s) :=
  h.setLines.cycle.next

theorem State.Follows.release {sd : Side} (h : s₀.Follows fr s) : s₀.Follows fr (s.release sd) := h.addSat.setSide

theorem execQuietTimerExpiry_follows {sd : Side} (h : s₀.Follows fr s) : Ends fr s₀ (execQuietTimerExpiry sd s) :=
  .ite h.next (.ite h.setSide.next h.release.next)

theorem State.Follows.unlatch {sd : Side} (h : s₀.Follows fr s) : s₀.Follows fr (s.unlatch sd) := .ite h.release.setSide h

theorem State.Follows.clearFirst (h : s₀.Follows fr s) : s₀.Follows fr s.clearFirst := h.foldl (fun _ _ h => h.wr)

theorem State.Follows.writeAsyCtl {v : W32} (h : s₀.Follows fr s) : s₀.Follows fr (s.writeAsyCtl v) :=
  ((h.branch (·.clearFirst) id).branch (·.unlatch) id).branch (·.unlatch) id

theorem execUnlatchA_follows {r : Req} (h : s₀.Follows fr s) : Ends fr s₀ (execUnlatchA r s) := (h.access (fun _ h => h.writeAsyCtl)).next

theorem execUnlatchB_follows {r : Req} (h : s₀.Follows fr s) : Ends fr s₀ (execUnlatchB r s) := (h.access (fun _ h => h.writeAsyCtl)).next

theorem execFirstClr_follows {r : Req} (h : s₀.Follows fr s) : Ends fr s₀ (execFirstClr r s) := (h.access (fun _ h => h.writeAsyCtl)).next

theorem State.Follows.writeAsyFw {i : Nat} {v : W32} (h : s₀.Follows fr s) : s₀.Follows fr (s.writeAsyFw i v) := h.cycle

theorem execFwFatal_follows {r : Req} {i : Fin 2} {ctx : W32} (h : s₀.Follows fr s) : Ends fr s₀ (execFwFatal r i ctx s) :=
  (h.access (fun _ h => h.writeAsyFw)).next

theorem execFwDegrade_follows {r : Req} {i : Fin 2} {ctx : W32} (h : s₀.Follows fr s) : Ends fr s₀ (execFwDegrade r i ctx s) :=
  (h.access (fun _ h => h.writeAsyFw)).next

theorem execFwNotice_follows {r : Req} {i : Fin 2} {ctx : W32} (h : s₀.Follows fr s) : Ends fr s₀ (execFwNotice r i ctx s) :=
  (h.access (fun _ h => h.writeAsyFw)).next

theorem State.Follows.writeWdog {i : Nat} {v : W32} (h : s₀.Follows fr s) : s₀.Follows fr (s.writeWdog i v) := .ite h.setSide h

theorem execWatchdogService_follows {r : Req} {i : Fin 2} {v : W32} (h : s₀.Follows fr s) : Ends fr s₀ (execWatchdogService r i v s) :=
  (h.access (fun _ h => h.writeWdog)).next

theorem execWatchdogExpiry_follows {sd : Side} (h : s₀.Follows fr s) : Ends fr s₀ (execWatchdogExpiry sd s) := (h.branch (·.cycle) id).next

theorem State.Follows.writeClaim {i : Nat} {v : W32} (h : s₀.Follows fr s) : s₀.Follows fr (s.writeClaim i v) := h.wr.noteClaims

theorem execClaimConflict_follows {sd : Side} (h : s₀.Follows fr s) : Ends fr s₀ (execClaimConflict sd s) := .ite h.raise.cycle.next h.next

theorem State.Follows.revote {a b c : Nat} (h : s₀.Follows fr s) : s₀.Follows fr (s.revote a b c) :=
  h.raise.setF.branch (·.vote) (fun h => h.branch (·.select.raiseIf) (·.vote.noteClaims))

theorem execVoteMismatch_follows {a b c : Fin 4} (h : s₀.Follows fr s) : Ends fr s₀ (execVoteMismatch a b c s) :=
  .ite h.next h.revote.updateStep.cycle.next

theorem State.Follows.parityFail {x : Side} (h : s₀.Follows fr s) : s₀.Follows fr (s.parityFail x) := h.cycle.branch (·.flipTo.resetSide) id

theorem execStandbyStepTimeout_follows (h : s₀.Follows fr s) : Ends fr s₀ (execStandbyStepTimeout s) := by
  unfold execStandbyStepTimeout
  split
  · exact .ite h.resetSide.next h.next
  · exact h.next

theorem State.Follows.cmdRes {st : Nat} {pending : Bool} (h : s₀.Follows fr s) : s₀.Follows fr (s.cmdRes st pending) := h.setF.setF

theorem State.Follows.cmdReset {x : Side} (h : s₀.Follows fr s) : s₀.Follows fr (s.cmdReset x) :=
  .ite (.ite h.flipTo.resetSide.cmdRes h.cmdRes) h.resetSide.cmdRes

theorem State.Follows.writeRfeCmd {v : W32} (h : s₀.Follows fr s) : s₀.Follows fr (s.writeRfeCmd v) := by
  unfold State.writeRfeCmd
  dsimp only
  split
  · exact .ite h.cmdRes (.ite h.cmdRes h.same.cmdRes)
  · exact .ite h.same.cmdRes h.cmdRes
  · exact h.cmdReset
  · exact h.cmdReset
  · exact h

theorem execPlannedSwitchover_follows {r : Req} {c : Fin 32} (h : s₀.Follows fr s) : Ends fr s₀ (execPlannedSwitchover r c s) :=
  (h.access (fun _ h => h.writeRfeCmd)).next

theorem execSwitchoverCancel_follows {r : Req} (h : s₀.Follows fr s) : Ends fr s₀ (execSwitchoverCancel r s) :=
  (h.access (fun _ h => h.writeRfeCmd)).next

theorem execResetSideA_follows {r : Req} (h : s₀.Follows fr s) : Ends fr s₀ (execResetSideA r s) := (h.access (fun _ h => h.writeRfeCmd)).next

theorem execResetSideB_follows {r : Req} (h : s₀.Follows fr s) : Ends fr s₀ (execResetSideB r s) := (h.access (fun _ h => h.writeRfeCmd)).next

theorem execSwitchoverDue_follows (h : s₀.Follows fr s) : Ends fr s₀ (execSwitchoverDue s) := by
  unfold execSwitchoverDue
  dsimp only
  split
  · exact (h.branch (·.cycle.expire) id).next
  · refine .ite ((h.branch (·.cycle.expire) id).next) ?_
    split
    · exact .ite ((((((h.branch (·.cycle.expire) id).same).flipTo).settleStandby).cmdRes).next) ((((h.branch (·.cycle.expire) id).same).cmdRes).next)
    · exact (((h.branch (·.cycle.expire) id).same).cmdRes).next

theorem State.Follows.classUpdate (h : s₀.Follows fr s) : s₀.Follows fr s.classUpdate := by
  unfold State.classUpdate
  extract_lets new s1
  have h1 : s₀.Follows fr s1 := h.setF.raise
  clear_value new s1
  refine .ite h ?_
  split
  · exact h1
  · exact .ite h1.setSide (.ite h1.wakeSide h1.settleStandby)

theorem execStandbyClassSet_follows {r : Req} {v : W32} (h : s₀.Follows fr s) : Ends fr s₀ (execStandbyClassSet r v s) :=
  (h.access (fun _ h => h.wr.classUpdate)).next

theorem State.Follows.loadTwins {sd : Side} (h : s₀.Follows fr s) : s₀.Follows fr (s.loadTwins sd) := h.foldl (fun _ _ h => h.wr)

theorem State.Follows.copyContent {sd x : Side} (h : s₀.Follows fr s) : s₀.Follows fr (s.copyContent sd x) :=
  h.setAly.setHbm.foldl (fun _ _ h => h.wr.foldl (fun _ _ h => h.wr))

theorem State.Follows.loadBufs {sd : Side} (h : s₀.Follows fr s) : s₀.Follows fr (s.loadBufs sd) := .ite h.same h.same

theorem execResyncLoadDone_follows {sd : Side} (h : s₀.Follows fr s) : Ends fr s₀ (execResyncLoadDone sd s) :=
  .ite h.next ((((((h.loadTwins.branch (·.copyContent)
    (fun h => h.branch id (fun h => h.setHbm.branch (·.primeBenches) id))).loadBufs).setSide).setF).updateStep).next)

theorem execResyncFillDone_follows {sd : Side} (h : s₀.Follows fr s) : Ends fr s₀ (execResyncFillDone sd s) := .ite h.setF.updateStep.next h.next

theorem State.Follows.setQuiet {q : Bool} (h : s₀.Follows fr s) : s₀.Follows fr (s.setQuiet q) := h.setF

theorem State.Follows.decide_ {code : Nat} (h : s₀.Follows fr s) : s₀.Follows fr (s.decide_ code) := by
  unfold State.decide_
  extract_lets s1 s2 side
  have h1 : s₀.Follows fr s1 := h.cycle.expire
  clear_value s1
  have hs (y : Side) : s₀.Follows fr (side y) := by
    refine .ite ?_ h1.raise.cycle
    split
    · exact h1.setQuiet.branch id (·.flipTo.settleStandby)
    · exact h1.setQuiet
  split
  · exact hs .A
  · exact hs .B
  · exact h1.setQuiet.raise
  · exact h1.setQuiet

theorem State.Follows.ringCounts {bs : List Byte} (h : s₀.Follows fr s) : s₀.Follows fr (s.ringCounts bs) := h.same.setF.branch (·.raise) id

theorem State.Follows.ringTally {n : Nat} {bs : List Byte} (h : s₀.Follows fr s) : s₀.Follows fr (s.ringTally n bs) :=
  (h.foldl (fun _ _ h => h.wr)).branch (·.raise) id

theorem State.Follows.ringLost (h : s₀.Follows fr s) : s₀.Follows fr s.ringLost := h.raise.raise.setQuiet.setF.cycle

theorem State.Follows.ringTake {bytes : List Byte} (h : s₀.Follows fr s) : s₀.Follows fr (s.ringTake bytes).1 := by
  unfold State.ringTake
  extract_lets up s1 s2 ext astray wasLost s3 good s4 s5 s6 s7
  have h2 : s₀.Follows fr s2 := h.same.emit
  clear_value s2
  have h7 : s₀.Follows fr s7 := (h2.branch (·.raise) id).same.setF.ringCounts.setF
  clear_value s7
  refine .iteFst ?_ ?_
  · dsimp only
    exact h2.raise
  split
  · exact h7.branch (·.ringLost) id
  · extract_lets s8
    have h8 : s₀.Follows fr s8 := h7.ringTally
    clear_value s8
    split
    · exact h8
    · extract_lets code dseq fresh s9 s10 done
      have h10 : s₀.Follows fr s10 := (h8.branch (·.raise) id).setF.setF
      clear_value s10
      exact .iteFst h10.same h10

theorem execRingFrame_follows {bytes : List Byte} (h : s₀.Follows fr s) : Ends fr s₀ (execRingFrame bytes s) := by
  unfold execRingFrame
  dsimp only
  refine .ite h.next ?_
  refine State.Follows.next ?_
  split
  · exact h.ringTake.decide_
  · exact h.ringTake

theorem execRingTimeout_follows (h : s₀.Follows fr s) : Ends fr s₀ (execRingTimeout s) := .ite h.next ((h.same.setF.branch id (·.ringLost)).next)

/-! ### The functions of `Sys2Proof/Machine/Memories.lean` -/

theorem State.Follows.setPc {sd : Side} {p : Nat} {x : PcSt} (h : s₀.Follows fr s) : s₀.Follows fr (s.setPc sd p x) := h.same.setF

theorem State.Follows.hbmEvt {sd : Side} {f : Fld} (h : s₀.Follows fr s) : s₀.Follows fr (s.hbmEvt sd f) := h.raise

theorem execHbmStartTrainingDone_follows {sd : Side} {delays : List (List Nat)} (h : s₀.Follows fr s) :
    Ends fr s₀ (execHbmStartTrainingDone sd delays s) :=
  .ite h.next (((((h.foldl (fun _ _ h => (h.foldl (fun _ _ h => h.wr)).setPc)).setF).setSide).startResync).next)

theorem execHbmRefreshBoundary_follows {sd : Side} {p : Fin 32} (h : s₀.Follows fr s) : Ends fr s₀ (execHbmRefreshBoundary sd p s) :=
  .ite h.next h.setPc.next

theorem execHbmRefreshIssue_follows {sd : Side} {p : Fin 32} (h : s₀.Follows fr s) : Ends fr s₀ (execHbmRefreshIssue sd p s) :=
  .ite h.next h.setPc.setF.next

theorem execHbmTempRead_follows {sd : Side} {temp : Int} (h : s₀.Follows fr s) : Ends fr s₀ (execHbmTempRead sd temp s) :=
  .ite h.next (.ite (((((h.same.setF.setF.setF.hbmEvt.foldl (fun _ _ h => h.setPc)).foldl (fun _ _ h => h.setPc.setF)).branch id
    (·.hbmEvt)).cycle).next) (.ite h.same.setF.setF.setF.hbmEvt.cycle.next h.same.setF.setF.next))

theorem State.Follows.retrain {sd : Side} {p : Nat} {found : Option (List Nat)} (h : s₀.Follows fr s) : s₀.Follows fr (s.retrain sd p found) := by
  unfold State.retrain
  dsimp only
  split
  · exact h.setPc.setF
  · exact h.hbmEvt.branch (·.setPc.setF) (·.setPc.setF.setF.hbmEvt)
  · exact .ite h.setPc.setF.setF h.setPc
  · exact h.setPc.hbmEvt
  · exact h

theorem execHbmRetrainPass_follows {sd : Side} {p : Fin 32} {found : Option (List Nat)} (h : s₀.Follows fr s) :
    Ends fr s₀ (execHbmRetrainPass sd p found s) :=
  (h.branch (·.retrain) id).next

theorem execHbmSelfRefreshExit_follows {sd : Side} {found : List (Option (List Nat))} (h : s₀.Follows fr s) :
    Ends fr s₀ (execHbmSelfRefreshExit sd found s) :=
  .ite (((h.foldl (fun _ _ h => h.retrain)).setF).next) h.next

theorem State.Follows.errorCondition {sd : Side} {p : Nat} (h : s₀.Follows fr s) : s₀.Follows fr (s.errorCondition sd p) := .ite h.setF.hbmEvt.cycle h

theorem State.Follows.uncorr {sd : Side} {p n : Nat} (h : s₀.Follows fr s) : s₀.Follows fr (s.uncorr sd p n) :=
  .ite h h.addWrap.hbmEvt.errorCondition

theorem execParAlert_follows {sd : Side} {p : Fin 32} {ok : Bool} {reads : Nat} (h : s₀.Follows fr s) : Ends fr s₀ (execParAlert sd p ok reads s) :=
  .ite h.next (.ite h.addSat.addSat.hbmEvt.setPc.next (.ite h.addSat.addSat.hbmEvt.setPc.next h.addSat.addSat.hbmEvt.setPc.uncorr.cycle.next))

theorem execHbmUncorrRead_follows {sd : Side} {p : Fin 32} (h : s₀.Follows fr s) : Ends fr s₀ (execHbmUncorrRead sd p s) :=
  (h.branch (·.uncorr.cycle) id).next

theorem execHbmScrub_follows {sd : Side} {p : Fin 32} {ctrl odie uncorr : Nat} (h : s₀.Follows fr s) :
    Ends fr s₀ (execHbmScrub sd p ctrl odie uncorr s) :=
  .ite h.next (((h.addSat.addSat.setPc.branch (·.errorCondition) id).branch id (·.uncorr.cycle)).next)

theorem execSramScrub_follows {sd : Side} {area : SramArea} {corrected : Nat} {uncorr : Option Nat} (h : s₀.Follows fr s) :
    Ends fr s₀ (execSramScrub sd area corrected uncorr s) := by
  unfold execSramScrub
  dsimp only
  refine .ite h.next ?_
  split
  · exact h.addWrap.next
  · exact (h.addWrap.addWrap.hbmEvt.branch (·.cycle) id).next

theorem execHbmRequestPromote_follows {sd : Side} {p : Fin 32} {rid waited : Nat} (h : s₀.Follows fr s) :
    Ends fr s₀ (execHbmRequestPromote sd p rid waited s) :=
  (h.branch (·.setPc) id).next

theorem State.Follows.lateUse {sd : Side} {k user : Nat} (h : s₀.Follows fr s) : s₀.Follows fr (s.lateUse sd k user) := by
  unfold State.lateUse
  dsimp only
  split
  · split
    · exact h.same
    · exact h
  · exact h.same
  · split
    · exact h.same
    · exact h
  · exact h

theorem execLate_follows {sd : Side} {k : Fin 6} {user : Nat} (h : s₀.Follows fr s) : Ends fr s₀ (execLate sd k user s) :=
  (h.branch (·.addWrap.hbmEvt.lateUse) id).next

theorem execHbmActivate_follows {sd : Side} {p : Fin 32} {row : Nat} (h : s₀.Follows fr s) : Ends fr s₀ (execHbmActivate sd p row s) :=
  .ite h.next (.ite h.setPc.addWrap.next h.setPc.next)

theorem execHbmRhWindow_follows {sd : Side} {p : Fin 32} (h : s₀.Follows fr s) : Ends fr s₀ (execHbmRhWindow sd p s) := (h.branch (·.setPc) id).next

/-! ### The functions of `Sys2Proof/Machine/Hoppers.lean` -/

theorem State.Follows.hopPut {sd : Side} {q : Nat} {o : HopOut} (h : s₀.Follows fr s) : s₀.Follows fr (s.hopPut sd q o) :=
  h.same.addWrap.raiseW.branch (·.setSource) id

theorem State.Follows.hopPushW {sd : Side} {q : Nat} {v : W32} (h : s₀.Follows fr s) : s₀.Follows fr (s.hopPushW sd q v) := .ite h h.hopPut

theorem State.Follows.hopCtlW {sd : Side} {q : Nat} {v : W32} (h : s₀.Follows fr s) : s₀.Follows fr (s.hopCtlW sd q v) :=
  .ite h ((h.branch (·.hopPut) id).branch (·.same) id)

theorem State.Follows.hopPopR {sd : Side} {q : Nat} {ecc : Ecc} (h : s₀.Follows fr s) : s₀.Follows fr (s.hopPopR sd q ecc).2 := by
  unfold State.hopPopR
  extract_lets x p s1 k
  have h1 : s₀.Follows fr s1 := h.same
  clear_value s1
  refine .iteSnd h1 ?_
  cases ecc with
  | clean => exact h1
  | corrected =>
    dsimp only
    exact h1.addSat
  | uncorrectable =>
    dsimp only
    exact h1.addSat.raise

theorem State.Follows.hopCfgW {sd : Side} {q : Nat} {v : W32} (h : s₀.Follows fr s) : s₀.Follows fr (s.hopCfgW sd q v) :=
  .ite h.same.wr (.ite h.wr h.raise)

theorem execHopPush_follows {r : Req} {sd : Side} {q : Fin 64} {v : W32} (h : s₀.Follows fr s) : Ends fr s₀ (execHopPush r sd q v s) :=
  (h.sideAccess (fun _ h => h.hopPushW)).next

theorem execHopCommit_follows {r : Req} {sd : Side} {q : Fin 64} (h : s₀.Follows fr s) : Ends fr s₀ (execHopCommit r sd q s) :=
  (h.sideAccess (fun _ h => h.hopCtlW)).next

theorem execHopAbort_follows {r : Req} {sd : Side} {q : Fin 64} (h : s₀.Follows fr s) : Ends fr s₀ (execHopAbort r sd q s) :=
  (h.sideAccess (fun _ h => h.hopCtlW)).next

theorem State.Follows.sideRead {r : Req} {be : Fin 16} {sd : Side} {ok : Bool} {addr : Nat} {f : State → W32 × State} (h : s₀.Follows fr s)
    (hf : ∀ s, s₀.Follows fr s → s₀.Follows fr (f s).2) : s₀.Follows fr (s.sideRead r be sd ok addr f) := by
  unfold State.sideRead
  exact h.readAccess fun _ h => State.Follows.iteSnd (hf _ h) h

theorem execHopPop_follows {r : Req} {sd : Side} {q : Fin 64} {ecc : Ecc} {be : Fin 16} (h : s₀.Follows fr s) :
    Ends fr s₀ (execHopPop r sd q ecc be s) :=
  (h.sideRead (fun _ h => h.hopPopR)).next

theorem execHopCfgWrite_follows {r : Req} {sd : Side} {q : Fin 64} {v : W32} (h : s₀.Follows fr s) : Ends fr s₀ (execHopCfgWrite r sd q v s) :=
  (h.sideAccess (fun _ h => h.hopCfgW)).next

/-! ### The functions of `Sys2Proof/Machine/Nervor.lean` -/

theorem State.Follows.setLink {n : Nat} {x : NvlSt} (h : s₀.Follows fr s) : s₀.Follows fr (s.setLink n x) := h.same

theorem State.Follows.linkTo {n st : Nat} (h : s₀.Follows fr s) : s₀.Follows fr (s.linkTo n st) := h.setF.setLink

theorem State.Follows.linkLocks {n : Nat} {on : Bool} (h : s₀.Follows fr s) : s₀.Follows fr (s.linkLocks n on) := h.setF.setF.setF

theorem State.Follows.linkDown {n : Nat} {down : Bool} (h : s₀.Follows fr s) : s₀.Follows fr (s.linkDown n down) := .ite h.raiseIf.laneLost h

theorem State.Follows.nvlStart {n : Nat} (h : s₀.Follows fr s) : s₀.Follows fr (s.nvlStart n) := .ite h.linkTo h

theorem State.Follows.nvlIdle {n : Nat} (h : s₀.Follows fr s) : s₀.Follows fr (s.nvlIdle n) := .ite h h.linkDown.linkTo.linkLocks.setLink

theorem State.Follows.nvlSearch {n : Nat} (h : s₀.Follows fr s) : s₀.Follows fr (s.nvlSearch n) := h.linkTo.linkLocks

theorem State.Follows.sendReport {n : Nat} (h : s₀.Follows fr s) : s₀.Follows fr (s.sendReport n) := h.same

theorem State.Follows.askReport {n : Nat} (h : s₀.Follows fr s) : s₀.Follows fr (s.askReport n) := h.same

theorem State.Follows.linkUp {n : Nat} (h : s₀.Follows fr s) : s₀.Follows fr (s.linkUp n) := h.linkTo.raise.sendReport.askReport

theorem State.Follows.linkTrain {n : Nat} (h : s₀.Follows fr s) : s₀.Follows fr (s.linkTrain n) := h.linkTo.setLink

theorem State.Follows.nvlRetrain {n : Nat} (h : s₀.Follows fr s) : s₀.Follows fr (s.nvlRetrain n) := by
  unfold State.nvlRetrain
  dsimp only
  split
  · exact h.linkDown.linkTrain
  · exact h.setLink
  · exact h

theorem execLockFail_follows {n : Fin 512} (h : s₀.Follows fr s) : Ends fr s₀ (execLockFail n s) := .ite h.raise.nvlSearch.next h.next

theorem execSfLock_follows {n : Fin 512} (h : s₀.Follows fr s) : Ends fr s₀ (execSfLock n s) :=
  .ite h.next ((h.linkLocks.setLink.branch (·.linkTrain) (·.linkUp)).next)

theorem execSfLockLost_follows {n : Fin 512} (h : s₀.Follows fr s) : Ends fr s₀ (execSfLockLost n s) :=
  .ite h.linkDown.linkTo.setF.setLink.next h.next

theorem execBlockLockLost_follows {n : Fin 512} (h : s₀.Follows fr s) : Ends fr s₀ (execBlockLockLost n s) := h.setF.next

theorem State.Follows.onCtrl {n code : Nat} {m : BitVec 56} {f : Nat → State → State} (h : s₀.Follows fr s)
    (hf : ∀ b s, s₀.Follows fr s → s₀.Follows fr (f b s)) : s₀.Follows fr (s.onCtrl n code m f) := by
  unfold State.onCtrl
  refine .ite h ?_
  split
  · exact h.addSat.raise
  · exact .ite (hf _ _ h) (.ite h.sendReport h)

theorem State.Follows.tapRequest {n tap action : Nat} (h : s₀.Follows fr s) : s₀.Follows fr (s.tapRequest n tap action).1 := by
  unfold State.tapRequest
  dsimp only
  refine .iteFst h ?_
  refine .iteFst h.setTaps ?_
  refine .iteFst h.fresh ?_
  split
  · exact .iteFst h.setTaps h
  · exact h

theorem State.Follows.askTap {n : Nat} (h : s₀.Follows fr s) : s₀.Follows fr (s.askTap n) := .ite h h.fresh.setLink

theorem State.Follows.trainMsg {n body : Nat} {ready : Bool} (h : s₀.Follows fr s) : s₀.Follows fr (s.trainMsg n body ready) :=
  .ite h ((((h.branch id (·.tapRequest.setLink)).setLink).askTap).branch (·.setF.linkUp) id)

theorem execNvlTrainMsg_follows {n : Fin 512} {msg : BitVec 56} {ready : Bool} (h : s₀.Follows fr s) : Ends fr s₀ (execNvlTrainMsg n msg ready s) :=
  (h.onCtrl (fun _ _ h => h.trainMsg)).next

theorem execTrainTimeout_follows {n : Fin 512} (h : s₀.Follows fr s) : Ends fr s₀ (execTrainTimeout n s) :=
  .ite ((h.raise.branch (·.linkUp) (·.nvlSearch)).next) h.next

theorem State.Follows.writeNvlCfg {n : Nat} {v : W32} (h : s₀.Follows fr s) : s₀.Follows fr (s.writeNvlCfg n v) :=
  .ite h (((h.branch id (fun h => h.setF.setF.branch id (·.linkDown.nvlSearch))).branch (·.nvlRetrain) id).branch (·.askReport) id)

theorem execRetrain_follows {r : Req} {n : Fin 512} (h : s₀.Follows fr s) : Ends fr s₀ (execRetrain r n s) :=
  (h.access (fun _ h => h.writeNvlCfg)).next

theorem execNvlFecModeWrite_follows {r : Req} {n : Fin 512} {mode : Fin 4} (h : s₀.Follows fr s) : Ends fr s₀ (execNvlFecModeWrite r n mode s) :=
  (h.access (fun _ h => h.writeNvlCfg)).next

theorem execRollReq_follows {r : Req} {n : Fin 512} (h : s₀.Follows fr s) : Ends fr s₀ (execRollReq r n s) :=
  (h.access (fun _ h => h.writeNvlCfg)).next

theorem State.Follows.report {n b0 b1 b2 : Nat} (h : s₀.Follows fr s) : s₀.Follows fr (s.report n b0 b1 b2) :=
  .ite h (h.setLink.branch id (·.wr.wr.wr.wr.raise.raiseIf))

theorem execRollCall_follows {n : Fin 512} {m0 m1 m2 : BitVec 56} (h : s₀.Follows fr s) : Ends fr s₀ (execRollCall n m0 m1 m2 s) := by
  unfold execRollCall
  split
  · exact .ite h.next h.report.next
  · exact (((h.onCtrl (fun _ _ h => h)).onCtrl (fun _ _ h => h)).onCtrl (fun _ _ h => h)).next

theorem execGone_follows {n : Fin 512} (h : s₀.Follows fr s) : Ends fr s₀ (execGone n s) := .ite h.setF.raise.next h.next

theorem State.Follows.poisonTx {l c : Nat} (h : s₀.Follows fr s) : s₀.Follows fr (s.poisonTx l c) := h.same

theorem State.Follows.poisonBypass {b : Bank} {q : SrcPos} (h : s₀.Follows fr s) : s₀.Follows fr (s.poisonBypass b q) := by
  unfold State.poisonBypass
  refine h.foldl fun _ _ h => ?_
  split
  · exact .ite h.poisonTx h
  · exact h

theorem State.Follows.noteRecent {n words syms bad : Nat} (h : s₀.Follows fr s) : s₀.Follows fr (s.noteRecent n words syms bad) :=
  h.setLink

theorem State.Follows.judgeChannel {n c : Nat} {good : Bool} {cells : List NvlCell} (h : s₀.Follows fr s) :
    s₀.Follows fr (s.judgeChannel n c good cells) :=
  (h.branch id (·.addSat.raise.noteRecent.poisonBypass)).branch (·.pushPos) id

theorem State.Follows.noteCells {n : Nat} {cells : List NvlCell} (h : s₀.Follows fr s) : s₀.Follows fr (s.noteCells n cells) := h.setLink

theorem execNvlCrcBlock_follows {n : Fin 512} {payload : BitVec 56} {cells : List NvlCell} {unknown : Nat} (h : s₀.Follows fr s) :
    Ends fr s₀ (execNvlCrcBlock n payload cells unknown s) :=
  .ite h.next ((h.setF.addSat.raiseIf.noteCells.foldl (fun _ _ h => h.judgeChannel)).next)

theorem execNvlCodeword_follows {n : Fin 512} {errors : Nat} (h : s₀.Follows fr s) : Ends fr s₀ (execNvlCodeword n errors s) :=
  .ite h.next (.ite h.addWrap.noteRecent.next h.addWrap.raise.noteRecent.next)

theorem execAlarm_follows {n : Fin 512} {msg : BitVec 56} (h : s₀.Follows fr s) : Ends fr s₀ (execAlarm n msg s) :=
  (h.onCtrl (fun _ _ h => h.setF.raiseIf)).next

theorem execLaneData_follows {n : Fin 512} {msg : BitVec 56} (h : s₀.Follows fr s) : Ends fr s₀ (execLaneData n msg s) :=
  (h.onCtrl (fun _ _ h => h.wr)).next

theorem execPeerGap_follows {n : Fin 512} (h : s₀.Follows fr s) : Ends fr s₀ (execPeerGap n s) :=
  .ite h.next (.ite ((h.setLink.branch id (·.setF.raise)).next) (.ite h.setLink.setF.next h.setLink.next))

theorem execNvlBypassForward_follows {d : Fin 1024} {b : Bank} {first second : W32} (h : s₀.Follows fr s) :
    Ends fr s₀ (execNvlBypassForward d b first second s) := by
  unfold execNvlBypassForward
  dsimp only
  split
  · exact .ite h.next h.same.next
  · exact h.next

/-! ### The functions of `Sys2Proof/Machine/Lanes.lean` -/

theorem State.Follows.setLane {n : Nat} {x : LaneSt} (h : s₀.Follows fr s) : s₀.Follows fr (s.setLane n x) := h.same

theorem State.Follows.laneStat {n : Nat} {f : Fld} {v : Nat} (h : s₀.Follows fr s) : s₀.Follows fr (s.laneStat n f v) := h.setF

theorem State.Follows.laneEvt {n : Nat} {f : Fld} (h : s₀.Follows fr s) : s₀.Follows fr (s.laneEvt n f) := h.raise

theorem State.Follows.portEvt {i : Nat} {f : Fld} (h : s₀.Follows fr s) : s₀.Follows fr (s.portEvt i f) := h.raise

theorem State.Follows.portDown {i : Nat} (h : s₀.Follows fr s) : s₀.Follows fr (s.portDown i) :=
  .ite h ((h.setF.portEvt.same.branch (·.posLostWhere) id).branch id (fun h => h.foldl (fun _ _ h => h.branch (·.flowCopyAbsent) id)))

theorem State.Follows.noteDemand (h : s₀.Follows fr s) : s₀.Follows fr s.noteDemand :=
  h.foldl (fun _ _ h => h.branch (fun h => h.branch id (·.setLane)) (fun h => h.branch (·.setLane) id))

theorem State.Follows.startWake {n : Nat} (h : s₀.Follows fr s) : s₀.Follows fr (s.startWake n) := .ite h h.laneStat.setLane

theorem State.Follows.wakeIfDemanded {n : Nat} (h : s₀.Follows fr s) : s₀.Follows fr (s.wakeIfDemanded n) := .ite h.startWake h

theorem State.Follows.laneFreq {n : Nat} {freq : Int} (h : s₀.Follows fr s) : s₀.Follows fr (s.laneFreq n freq) := h.laneStat

theorem State.Follows.endLol {n : Nat} (h : s₀.Follows fr s) : s₀.Follows fr (s.endLol n) := .ite h.laneStat.laneEvt h

theorem State.Follows.holdEq {n : Nat} (h : s₀.Follows fr s) : s₀.Follows fr (s.holdEq n) := .ite h.fresh.setLane h

theorem State.Follows.enterPark {n st : Nat} (h : s₀.Follows fr s) : s₀.Follows fr (s.enterPark n st) :=
  h.holdEq.laneStat.laneStat.laneStat.branch id (fun h => h.endLol.laneFreq.laneStat.nvlIdle.sluiceStop.branch (·.portDown) id)

theorem State.Follows.quadOff {q : Nat} (h : s₀.Follows fr s) : s₀.Follows fr (s.quadOff q) := h.setF.setF

theorem execLanePark_follows {n : Fin 512} (h : s₀.Follows fr s) : Ends fr s₀ (execLanePark n s) :=
  .ite h.next (.ite ((((h.foldl (fun _ _ h => h.branch id (·.enterPark))).quadOff).updateStep).next) h.enterPark.updateStep.next)

theorem execLaneDemand_follows {n : Fin 512} (h : s₀.Follows fr s) : Ends fr s₀ (execLaneDemand n s) := h.wakeIfDemanded.next

theorem State.Follows.txOn {n : Nat} (h : s₀.Follows fr s) : s₀.Follows fr (s.txOn n) := h.laneStat

theorem State.Follows.pmdTrain {n : Nat} (h : s₀.Follows fr s) : s₀.Follows fr (s.pmdTrain n) := h.fresh.branch (·.setTaps) id

theorem execWake_follows {n : Fin 512} (h : s₀.Follows fr s) : Ends fr s₀ (execWake n s) :=
  .ite h.next ((((((((h.laneStat.laneStat.txOn.branch (·.laneStat) id).branch (·.pmdTrain) id).setLane).raiseIf).raiseIf).nvlStart).updateStep).next)

theorem State.Follows.losSet {n : Nat} (h : s₀.Follows fr s) : s₀.Follows fr (s.losSet n) :=
  .ite h h.laneStat.laneEvt.endLol.laneFreq.laneLost.nvlIdle

theorem execLosAssert_follows {n : Fin 512} {mv us : Nat} (h : s₀.Follows fr s) : Ends fr s₀ (execLosAssert n mv us s) :=
  (h.branch (·.losSet) id).next

theorem execLosClear_follows {n : Fin 512} {mv us : Nat} (h : s₀.Follows fr s) : Ends fr s₀ (execLosClear n mv us s) :=
  .ite h.next h.laneStat.laneEvt.nvlStart.wakeIfDemanded.next

theorem State.Follows.lolSet {n : Nat} (h : s₀.Follows fr s) : s₀.Follows fr (s.lolSet n) := .ite h h.laneStat.laneEvt.laneLost

theorem execLolAssert_follows {n : Fin 512} {locked : Bool} {freq : Int} (h : s₀.Follows fr s) : Ends fr s₀ (execLolAssert n locked freq s) :=
  .ite h.next (((h.branch (·.lolSet) id).laneFreq).next)

theorem execLolClear_follows {n : Fin 512} {freq : Int} (h : s₀.Follows fr s) : Ends fr s₀ (execLolClear n freq s) :=
  .ite h.endLol.laneFreq.next h.next

theorem execQpllUnlock_follows {q : Fin 128} (h : s₀.Follows fr s) : Ends fr s₀ (execQpllUnlock q s) :=
  .ite h.next (((h.setF.addSat.foldl (fun _ _ h => h.laneEvt.laneStat.laneLost.lolSet.branch (·.laneStat.setLane.sluiceStop) id)).updateStep).next)

theorem execQpllRelock_follows {q : Fin 128} (h : s₀.Follows fr s) : Ends fr s₀ (execQpllRelock q s) :=
  .ite h.next ((h.setF.setF.foldl (fun _ _ h => h.branch (·.laneStat) id)).next)

theorem execLaneTxeqWrite_follows {r : Req} {n : Fin 512} {v : W32} (h : s₀.Follows fr s) : Ends fr s₀ (execLaneTxeqWrite r n v s) :=
  (h.access (fun _ h => h.branch id (·.writeTxeq))).next

theorem State.Follows.readRxeq {n : Nat} (h : s₀.Follows fr s) : s₀.Follows fr (s.readRxeq n).2 := .iteSnd h (State.Follows.iteSnd h h.fresh)

theorem State.Follows.writeLaneCtl {n : Nat} {v : W32} (h : s₀.Follows fr s) : s₀.Follows fr (s.writeLaneCtl n v) :=
  (((h.branch (·.readRxeq.setLane) (fun h => h.branch (·.setLane) id)).wr).branch id
    (fun h => h.branch (·.setF) (fun h => h.branch (·.portDown) id))).wakeIfDemanded

theorem State.Follows.foldErrors {n : Nat} (h : s₀.Follows fr s) : s₀.Follows fr (s.foldErrors n) := .ite h.fresh.addWrap h

theorem State.Follows.writeLaneTest {n : Nat} {v : W32} (h : s₀.Follows fr s) : s₀.Follows fr (s.writeLaneTest n v) :=
  (((((((h.branch id (·.foldErrors)).wr).branch id (·.setF)).raiseIf).branch id (·.setLane)).branch (·.setLane) id).branch (·.txOn) id).branch
    (·.laneLost.sluiceStop.wakeIfDemanded.updateStep) (fun h => h.branch (fun h => (h.branch (·.laneStat.setLane.nvlRetrain) id).updateStep) id)

theorem execLaneTestWrite_follows {r : Req} {n : Fin 512} {v : W32} (h : s₀.Follows fr s) : Ends fr s₀ (execLaneTestWrite r n v s) :=
  (h.access (fun _ h => h.branch id (·.writeLaneTest))).next

theorem execInject_follows {r : Req} {n : Fin 512} (h : s₀.Follows fr s) : Ends fr s₀ (execInject r n s) :=
  (h.access (fun _ h => h.branch id (·.writeLaneTest))).next

theorem execCheckerSync_follows {n : Fin 512} (h : s₀.Follows fr s) : Ends fr s₀ (execCheckerSync n s) := .ite h.next h.setF.setLane.next

theorem execCheckerSyncLoss_follows {n : Fin 512} {errors : Nat} (h : s₀.Follows fr s) : Ends fr s₀ (execCheckerSyncLoss n errors s) :=
  .ite h.addWrap.setF.next h.next

theorem State.Follows.readBer {n : Nat} (h : s₀.Follows fr s) : s₀.Follows fr (s.readBer n).2 := h.wr.wr.setLane

theorem execBerRead_follows {r : Req} {n : Fin 512} {errors : Nat} {be : Fin 16} (h : s₀.Follows fr s) : Ends fr s₀ (execBerRead r n errors be s) :=
  (h.readAccess (fun _ h => State.Follows.iteSnd h ((h.branch (·.addWrap) id).readBer))).next

theorem execSlip_follows {n : Fin 512} {inserted : Bool} (h : s₀.Follows fr s) : Ends fr s₀ (execSlip n inserted s) :=
  .ite h.next h.addSat.raiseIf.next

theorem execEyeMeasure_follows {n : Fin 512} {height width : Fin 1024} {snr : Byte} {freq : Int} (h : s₀.Follows fr s) :
    Ends fr s₀ (execEyeMeasure n height width snr freq s) :=
  .ite h.next ((h.wr.branch id (fun h => (h.branch (·.lolSet) id).laneFreq)).next)

/-! ### The functions of `Sys2Proof/Machine/Sdi.lean` -/

theorem State.Follows.sdiStop {n : Nat} (h : s₀.Follows fr s) : s₀.Follows fr (s.sdiStop n) := h.foldl (fun _ _ h => h.same)

theorem execSdiRasterLock_follows {n : Fin 512} (h : s₀.Follows fr s) : Ends fr s₀ (execSdiRasterLock n s) := .ite h.next h.setF.raise.sdiStop.next

theorem execSdiRasterUnlock_follows {n : Fin 512} (h : s₀.Follows fr s) : Ends fr s₀ (execSdiRasterUnlock n s) :=
  .ite h.next h.setF.raise.sdiStop.next

theorem execSdiFrame_follows {n : Fin 512} {structure_ : Fmt} {levelB : Bool} {vpid : Option (W32 × Fmt)} {ltc vitc : Option (BitVec 27)}
    (h : s₀.Follows fr s) : Ends fr s₀ (execSdiFrame n structure_ levelB vpid ltc vitc s) := by
  unfold execSdiFrame
  refine .ite h.next ?_
  extract_lets derived agrees ok f s1 s2 s3 sel s4 x s5
  have h1 : s₀.Follows fr s1 := by
    cases vpid with
    | none => exact h.raise
    | some v => exact h.wr.branch id (·.raise)
  have h3 : s₀.Follows fr s3 := h1.setF.setF.setF.setF.setF
  clear_value s3
  have h4 : s₀.Follows fr s4 := by
    have key : ∀ tc : Option (BitVec 27), s₀.Follows fr (match tc with
        | some c => s3.wr (R1 .SDI_TC n) (w32 (sel + 1 + 4 + 8 * c.toNat))
        | none => s3.setF (R1 .SDI_TC n) F.SDI_TC_VALID 0) := by
      intro tc
      cases tc with
      | none => exact h3.setF
      | some c => exact h3.wr
    exact key _
  clear_value s4
  exact h4.raiseIf.same.next

theorem execSdiLine_follows {n : Fin 512} {line count : Nat} {crcOk : Bool} {samples : List (BitVec 16)} {ago : Nat} (h : s₀.Follows fr s) :
    Ends fr s₀ (execSdiLine n line count crcOk samples ago s) := by
  unfold execSdiLine
  dsimp only
  refine .ite h.next ?_
  refine .ite (((h.raiseIf.branch id (·.addWrap.raise)).same).next) ?_
  split
  · exact (((h.raiseIf.branch id (·.addWrap.raise)).same).branch (·.pushPos) id).next
  · exact ((h.raiseIf.branch id (·.addWrap.raise)).same).next

theorem execSdiAncPacket_follows {n : Fin 512} {horiz chroma : Bool} {pos : Nat} {words : List (BitVec 10)} (h : s₀.Follows fr s) :
    Ends fr s₀ (execSdiAncPacket n horiz chroma pos words s) :=
  .ite h.next (.ite h.addSat.raise.next (.ite h.next h.same.next))

theorem execSdiRateDetect_follows {n : Fin 512} {rate : Fin 11} (h : s₀.Follows fr s) : Ends fr s₀ (execSdiRateDetect n rate s) :=
  .ite h.next h.setF.raise.next

theorem execLinkSkew_follows {n : Fin 512} (h : s₀.Follows fr s) : Ends fr s₀ (execLinkSkew n s) := .ite h.raise.sdiStop.next h.next

/-! ### The functions of `Sys2Proof/Machine/Flows.lean` -/

theorem State.Follows.measureSkew {r : Nat} (h : s₀.Follows fr s) : s₀.Follows fr (s.measureSkew r) := by
  unfold State.measureSkew
  dsimp only
  split
  · exact h
  · exact h.wr.raiseIf

theorem State.Follows.noteArrival {r : Nat} {b : Bank} {rtp seq : Nat} {ok : Bool} (h : s₀.Follows fr s) :
    s₀.Follows fr (s.noteArrival r b rtp seq ok) :=
  (h.branch (·.measureSkew) id).same

theorem State.Follows.audioPacket {r rtp : Nat} {payload : List Byte} (h : s₀.Follows fr s) : s₀.Follows fr (s.audioPacket r rtp payload) := by
  unfold State.audioPacket
  dsimp only
  refine .ite h ?_
  refine h.foldl fun _ _ h => ?_
  refine h.foldl fun _ _ h => ?_
  split
  · exact h.audArrive
  · exact h

theorem State.Follows.setFlowConv {r : Nat} {b : Bank} {c : FlowConv} (h : s₀.Follows fr s) : s₀.Follows fr (s.setFlowConv r b c) := h.same

theorem State.Follows.releaseTo {r : Nat} {b : Bank} {l : Nat} {now : Int} (h : s₀.Follows fr s) : s₀.Follows fr (s.releaseTo r b l now) :=
  .ite h h.setFlowConv.pushPos

theorem State.Follows.flowFrameEnd {r : Nat} {b : Bank} {now : Int} (h : s₀.Follows fr s) : s₀.Follows fr (s.flowFrameEnd r b now) :=
  .ite h h.releaseTo.setFlowConv.pushPos

theorem State.Follows.flowFrameStart {r : Nat} {b : Bank} {p : FlowPkt} (h : s₀.Follows fr s) : s₀.Follows fr (s.flowFrameStart r b p) :=
  h.flowFrameEnd.setFlowConv.pushPos

theorem State.Follows.flowRow {r : Nat} {b : Bank} {p : FlowPkt} {x : RowData} (h : s₀.Follows fr s) : s₀.Follows fr (s.flowRow r b p x) :=
  .ite h (.ite h.raise h.releaseTo.setFlowConv)

theorem State.Follows.videoRelease {r : Nat} {b : Bank} {p : FlowPkt} (h : s₀.Follows fr s) : s₀.Follows fr (s.videoRelease r b p) :=
  (h.branch (·.flowFrameStart) id).branch (·.raise)
    (fun h => (h.foldl (fun _ _ h => h.flowRow)).branch id (fun h => h.branch (·.releaseTo) (·.flowFrameEnd)))

theorem State.Follows.ancRelease {r : Nat} {b : Bank} {p : FlowPkt} (h : s₀.Follows fr s) : s₀.Follows fr (s.ancRelease r b p) :=
  h.foldl (fun _ _ h => h.branch id (fun h => h.branch (·.raise) (·.setFlowConv)))

theorem State.Follows.flowHold {r : Nat} {b : Bank} {type n : Nat} {p : FlowPkt} (h : s₀.Follows fr s) : s₀.Follows fr (s.flowHold r b type n p) :=
  h.setFlowConv.foldl (fun _ _ h => h.branch (·.videoRelease) (·.ancRelease))

theorem State.Follows.flowPacket {r : Nat} {b : Bank} {rtpBytes : List Byte} {fcs udp : Bool} (h : s₀.Follows fr s) :
    s₀.Follows fr (s.flowPacket r b rtpBytes fcs udp) :=
  h.raiseIf.same.flowMissing.branch (·.raise)
    (fun h => h.noteArrival.branch (fun h => h.branch id (·.flowHold)) (fun h => h.branch (·.audioPacket) id))

theorem State.Follows.openFlows {d g : Nat} (h : s₀.Follows fr s) : s₀.Follows fr (s.openFlows d g) := h.foldl (fun _ _ h => h.same)

theorem State.Follows.queuePkt {t : Nat} {p : TxPkt} {pay : Side → List Byte} (h : s₀.Follows fr s) : s₀.Follows fr (s.queuePkt t p pay) := by
  unfold State.queuePkt
  exact h.same.eachSide (fun _ _ h => h.same)

theorem State.Follows.dropSent {t : Nat} (h : s₀.Follows fr s) : s₀.Follows fr (s.dropSent t) := .ite h h.same.same

theorem State.Follows.buildVideo {t d g fuel : Nat} (h : s₀.Follows fr s) : s₀.Follows fr (s.buildVideo t d g fuel) := by
  induction fuel generalizing s with
  | zero => exact h
  | succ fuel ih =>
    unfold State.buildVideo
    exact .ite h (ih h.queuePkt.same)

theorem State.Follows.sendGathered {t d : Nat} {marker : Bool} (h : s₀.Follows fr s) : s₀.Follows fr (s.sendGathered t d marker) :=
  .ite h h.queuePkt.same

theorem State.Follows.buildAnc {t d g fuel : Nat} (h : s₀.Follows fr s) : s₀.Follows fr (s.buildAnc t d g fuel) := by
  induction fuel generalizing s with
  | zero => exact h
  | succ fuel ih =>
    unfold State.buildAnc
    exact .ite h (ih ((h.foldl fun _ _ h => (h.branch (·.sendGathered) id).same).branch (·.sendGathered) id).same)

theorem State.Follows.buildFlow {t : Nat} (h : s₀.Follows fr s) : s₀.Follows fr (s.buildFlow t) := by
  unfold State.buildFlow
  dsimp only
  split
  · exact h
  · exact .ite h (.ite h.buildVideo h.buildAnc)

theorem State.Follows.buildFlows {d : Nat} (h : s₀.Follows fr s) : s₀.Follows fr (s.buildFlows d) := h.foldl (fun _ _ h => h.buildFlow)

theorem State.Follows.writeFlowAddr {f : Nat} {a : FlowAddr} {v : W32} (h : s₀.Follows fr s) : s₀.Follows fr (s.writeFlowAddr f a v) := by
  unfold State.writeFlowAddr
  refine .ite h.raise ?_
  exact .ite ((h.wr.branch (·.same) id).same) (h.wr.branch (·.same) id)

theorem execFlowAddrWrite_follows {r : Req} {f : Fin 4096} {reg : FlowAddr} {v : W32} (h : s₀.Follows fr s) :
    Ends fr s₀ (execFlowAddrWrite r f reg v s) :=
  (h.access (fun _ h => h.writeFlowAddr)).next

theorem State.Follows.writeRxfCfg {f : Nat} {v : W32} (h : s₀.Follows fr s) : s₀.Follows fr (s.writeRxfCfg f v) := .ite h.raise (.ite h.raise h.wr)

theorem State.Follows.startRun {t : Nat} {b : Bank} (h : s₀.Follows fr s) : s₀.Follows fr (s.startRun t b) := .ite h (.ite h.same (.ite h h.same))

theorem State.Follows.writeTxfCfg {t : Nat} {v : W32} (h : s₀.Follows fr s) : s₀.Follows fr (s.writeTxfCfg t v) := by
  unfold State.writeTxfCfg
  refine State.Follows.startRun ?_
  refine State.Follows.startRun ?_
  refine .ite ?_ ?_
  · refine State.Follows.raise ?_
    exact .ite h.wr.raise h.wr.setF
  · refine State.Follows.setF ?_
    exact .ite h.wr.raise h.wr.setF

theorem execFlowEnableWrite_follows {r : Req} {tx : Bool} {f : Fin 4096} {v : W32} (h : s₀.Follows fr s) :
    Ends fr s₀ (execFlowEnableWrite r tx f v s) :=
  .ite ((h.access (fun _ h => h.writeTxfCfg)).next) ((h.access (fun _ h => h.writeRxfCfg)).next)

/-! ### The functions of `Sys2Proof/Machine/Ethernet.lean` -/

theorem State.Follows.setMac {i : Nat} {x : PortMac} (h : s₀.Follows fr s) : s₀.Follows fr (s.setMac i x) := h.same

theorem State.Follows.count {i k n : Nat} (h : s₀.Follows fr s) : s₀.Follows fr (s.count i k n) := h.setMac.branch (·.wr.portEvt) id

theorem State.Follows.countGood {i octets len cast : Nat} (h : s₀.Follows fr s) : s₀.Follows fr (s.countGood i octets len cast) :=
  h.count.count.count.count

theorem State.Follows.countTx {i octets len cast : Nat} (h : s₀.Follows fr s) : s₀.Follows fr (s.countTx i octets len cast) :=
  h.count.count.count.count

theorem State.Follows.snapshot {r : Req} {i : Nat} (h : s₀.Follows fr s) : s₀.Follows fr (s.snapshot r i) := h.foldl (fun _ _ h => h.wr)

theorem execEthSnap_follows {r : Req} {i : Fin 130} (h : s₀.Follows fr s) : Ends fr s₀ (execEthSnap r i s) :=
  (h.access (fun _ h => h.branch (·.snapshot) id)).next

theorem State.Follows.setPaused {i : Nat} {b : Bool} (h : s₀.Follows fr s) : s₀.Follows fr (s.setPaused i b) := h.setF

theorem State.Follows.pauseFrame {i q : Nat} (h : s₀.Follows fr s) : s₀.Follows fr (s.pauseFrame i q) :=
  h.count.branch id (fun h => h.branch (·.setMac.setPaused) (·.setMac.setPaused))

theorem execPauseReceive_follows {i : Fin 130} {quanta : Fin 65536} (h : s₀.Follows fr s) : Ends fr s₀ (execPauseReceive i quanta s) :=
  .ite h.count.countGood.pauseFrame.next h.next

theorem execPauseExpire_follows {i : Fin 130} (h : s₀.Follows fr s) : Ends fr s₀ (execPauseExpire i s) := .ite h.setPaused.next h.next

theorem State.Follows.crxFrame {i frac flags : Nat} {bytes : List Byte} (h : s₀.Follows fr s) : s₀.Follows fr (s.crxFrame i frac flags bytes) :=
  h.noteUncal.setMac.branch id (·.addWrap.portEvt)

theorem State.Follows.readCrx {i : Nat} (h : s₀.Follows fr s) : s₀.Follows fr (s.readCrx i).2 := by
  unfold State.readCrx
  dsimp only
  split
  · exact h.setMac
  · exact h.setMac
  · exact h

theorem execEthCrxRead_follows {r : Req} {i : Fin 130} {be : Fin 16} (h : s₀.Follows fr s) : Ends fr s₀ (execEthCrxRead r i be s) :=
  (h.readAccess (fun _ h => h.readCrx)).next

theorem State.Follows.notifyAck {x seq : Nat} (h : s₀.Follows fr s) : s₀.Follows fr (s.notifyAck x seq) := by
  unfold State.notifyAck
  dsimp only
  split
  · exact .ite h.same h
  · exact h

theorem execNotifyAck_follows {x : Fin 4} {seq : Byte} (h : s₀.Follows fr s) : Ends fr s₀ (execNotifyAck x seq s) := h.notifyAck.next

theorem State.Follows.rrpArrive {i : Nat} {bs : List Byte} (h : s₀.Follows fr s) : s₀.Follows fr (s.rrpArrive i bs) := by
  unfold State.rrpArrive
  dsimp only
  split
  · exact h.count.portEvt
  · exact .ite h.notifyAck (.ite h.portEvt h.same)

theorem State.Follows.gather {x e : Nat} (h : s₀.Follows fr s) : s₀.Follows fr (s.gather x e) := .ite h h.same

theorem State.Follows.sendNotify {x seq : Nat} {es : List Nat} (h : s₀.Follows fr s) : s₀.Follows fr (s.sendNotify x seq es) := h.emit

theorem execNotifySend_follows {x : Fin 4} (h : s₀.Follows fr s) : Ends fr s₀ (execNotifySend x s) := .ite h.next h.same.sendNotify.next

theorem execNotifyRetry_follows {x : Fin 4} (h : s₀.Follows fr s) : Ends fr s₀ (execNotifyRetry x s) := by
  unfold execNotifyRetry
  dsimp only
  split
  · exact h.next
  · exact .ite h.next (.ite h.same.sendNotify.next h.same.portEvt.next)

theorem State.Follows.wakeFrame {i : Nat} {bs : List Byte} (h : s₀.Follows fr s) : s₀.Follows fr (s.wakeFrame i bs) :=
  h.foldl (fun _ _ h => h.branch (fun h => h.wr.portEvt.branch (·.setF.same) id) id)

theorem State.Follows.sendFrame {i : Nat} {bs : List Byte} (h : s₀.Follows fr s) : s₀.Follows fr (s.sendFrame i bs) := h.emit.countTx

theorem State.Follows.arpReply {i : Nat} {bs : List Byte} (h : s₀.Follows fr s) : s₀.Follows fr (s.arpReply i bs) := h.sendFrame

theorem State.Follows.queueFrame {i frac flags : Nat} {bs : List Byte} (h : s₀.Follows fr s) : s₀.Follows fr (s.queueFrame i frac flags bs) :=
  .ite h.crxFrame h.count

theorem State.Follows.acceptFrame {i frac : Nat} {bs : List Byte} {bad : Bool} (h : s₀.Follows fr s) :
    s₀.Follows fr (s.acceptFrame i frac bs bad) := by
  unfold State.acceptFrame
  dsimp only
  refine .ite (h.count.branch (·.queueFrame) id) ?_
  refine .ite ?_ ?_
  · split
    · exact (h.branch (·.count) id).branch (·.flowPacket) id
    · exact ((h.branch (·.count) id).count).queueFrame
  · exact (h.branch (·.count) id).branch (·.arpReply) (fun h => h.branch (·.rrpArrive) (·.queueFrame))

theorem execEthFrameReceive_follows {i : Fin 130} {bytes : List Byte} {invalid : Bool} {frac : Fin 262144} {corr uncorr : Nat} (h : s₀.Follows fr s) :
    Ends fr s₀ (execEthFrameReceive i bytes invalid frac corr uncorr s) :=
  .ite ((h.branch (·.wakeFrame) id).next)
    (.ite (((((h.branch (·.wakeFrame) id).branch id (·.count.count)).count).count).next)
      (.ite ((((((h.branch (·.wakeFrame) id).branch id (·.count.count)).count).count).count).next)
        (.ite (((((h.branch (·.wakeFrame) id).branch id (·.count.count)).count).branch (·.countGood) (·.count)).next)
          (.ite ((((((h.branch (·.wakeFrame) id).branch id (·.count.count)).count).branch (·.countGood) (·.count)).branch (·.pauseFrame)
            (·.count)).next) (.ite
              ((((((h.branch (·.wakeFrame) id).branch id (·.count.count)).count).branch (·.countGood) (·.count)).acceptFrame).next)
                ((((((h.branch (·.wakeFrame) id).branch id (·.count.count)).count).branch (·.countGood) (·.count)).count).next))))))

theorem State.Follows.ctxPush {i : Nat} {v : W32} (h : s₀.Follows fr s) : s₀.Follows fr (s.ctxPush i v) := .ite h.setMac h

theorem execCtxData_follows {r : Req} {i : Fin 130} {v : W32} (h : s₀.Follows fr s) : Ends fr s₀ (execCtxData r i v s) :=
  (h.access (fun _ h => h.branch (·.ctxPush) id)).next

theorem State.Follows.ctxCommit {i : Nat} (h : s₀.Follows fr s) : s₀.Follows fr (s.ctxCommit i) := .ite h.setMac.portEvt h.setMac.same

theorem State.Follows.writeCtxCtl {i : Nat} {v : W32} (h : s₀.Follows fr s) : s₀.Follows fr (s.writeCtxCtl i v) :=
  .ite h ((h.branch (·.ctxCommit) id).branch (·.setMac) id)

theorem execCtxCommit_follows {r : Req} {i : Fin 130} (h : s₀.Follows fr s) : Ends fr s₀ (execCtxCommit r i s) :=
  (h.access (fun _ h => h.writeCtxCtl)).next

theorem execCtxAbort_follows {r : Req} {i : Fin 130} (h : s₀.Follows fr s) : Ends fr s₀ (execCtxAbort r i s) :=
  (h.access (fun _ h => h.writeCtxCtl)).next

theorem execControlGap_follows {i : Fin 128} (h : s₀.Follows fr s) : Ends fr s₀ (execControlGap i s) := .ite h.setMac.next h.next

theorem execControlFrameSend_follows {i : Fin 130} {frac : Fin 262144} (h : s₀.Follows fr s) : Ends fr s₀ (execControlFrameSend i frac s) := by
  unfold execControlFrameSend
  dsimp only
  split
  · exact h.next
  · exact .ite h.next ((h.setMac.raiseIf.sendFrame.count.branch (·.noteUncal.appendTxts) id).next)

theorem State.Follows.launched {b : Bank} {l : Launch} (h : s₀.Follows fr s) : s₀.Follows fr (s.launched b l) := .ite h.same.dropSent h.same

theorem State.Follows.dealBlocks {i : Nat} {a b : List Byte} (h : s₀.Follows fr s) : s₀.Follows fr (s.dealBlocks i a b) :=
  h.foldl (fun _ _ h => h.same)

theorem State.Follows.buildPort {i : Nat} (h : s₀.Follows fr s) : s₀.Follows fr (s.buildPort i) := h.foldl (fun _ _ h => h.branch (·.buildFlow) id)

theorem execPacketLaunch_follows {i : Fin 128} (h : s₀.Follows fr s) : Ends fr s₀ (execPacketLaunch i s) := by
  unfold execPacketLaunch
  dsimp only
  refine .ite h.next ?_
  split
  · exact h.buildPort.next
  · exact .ite h.buildPort.next
      (.ite h.buildPort.dealBlocks.launched.setF.next
        ((h.buildPort.dealBlocks.launched.setF.setMac.emit.countTx.wr.branch (·.addWrap.portEvt) id).next))

theorem execLinkUp_follows {i : Fin 130} (h : s₀.Follows fr s) : Ends fr s₀ (execLinkUp i s) := .ite h.next h.setF.setF.setF.portEvt.next

theorem execLinkDown_follows {i : Fin 130} {localFault remoteFault : Bool} (h : s₀.Follows fr s) :
    Ends fr s₀ (execLinkDown i localFault remoteFault s) :=
  .ite h.next h.portDown.setF.setF.next

/-! ### The functions of `Sys2Proof/Machine/Events.lean` -/

theorem State.Follows.vectorRise {p v : Nat} (h : s₀.Follows fr s) : s₀.Follows fr (s.vectorRise p v) :=
  h.same.branch (fun h => h.branch id (·.same)) (·.emit)

theorem State.Follows.vectors (h : s₀.Follows fr s) : s₀.Follows fr s.vectors := h.same.foldl (fun _ _ h => h.branch (·.vectorRise) id)

theorem State.Follows.deliverEvent {e : Nat} (h : s₀.Follows fr s) : s₀.Follows fr (s.deliverEvent e) := by
  unfold State.deliverEvent
  split
  · exact .ite h h.vectorRise
  · exact h.gather
  · exact h

theorem State.Follows.flushEvents (h : s₀.Follows fr s) : s₀.Follows fr s.flushEvents := h.same.foldl (fun _ _ h => h.deliverEvent)

theorem execEventFire_follows (h : s₀.Follows fr s) : Ends fr s₀ (execEventFire s) := by
  unfold execEventFire
  split
  · exact h.next
  · exact h.same.deliverEvent.next

theorem execMsixUnblock_follows {p : Fin 2} {bme en : Bool} {masks : BitVec 64} (h : s₀.Follows fr s) :
    Ends fr s₀ (execMsixUnblock p bme en masks s) :=
  (h.flushEvents.setF.setF.same.foldl (fun _ _ h => h.branch (·.same.emit) id)).next

theorem State.Follows.writeEvtStatus {k : Nat} {v : W32} (h : s₀.Follows fr s) : s₀.Follows fr (s.writeEvtStatus k v) := h.flushEvents.clearW.vectors

theorem State.Follows.writeEvtEnable {k : Nat} {v : W32} (h : s₀.Follows fr s) : s₀.Follows fr (s.writeEvtEnable k v) := by
  unfold State.writeEvtEnable
  exact (h.flushEvents.wr.foldl (fun _ _ h => h.deliverEvent)).vectors

theorem State.Follows.writeEvtRoute {e : Nat} {v : W32} (h : s₀.Follows fr s) : s₀.Follows fr (s.writeEvtRoute e v) := h.flushEvents.wr.vectors

theorem State.Follows.writeEvtSet {k : Nat} {v : W32} (h : s₀.Follows fr s) : s₀.Follows fr (s.writeEvtSet k v) := h.foldl (fun _ _ h => h.setSource)

theorem execEvtStatusWrite_follows {r : Req} {k : Fin 48} {v : W32} (h : s₀.Follows fr s) : Ends fr s₀ (execEvtStatusWrite r k v s) :=
  (h.access (fun _ h => h.writeEvtStatus)).next

theorem execEvtEnableWrite_follows {r : Req} {k : Fin 48} {v : W32} (h : s₀.Follows fr s) : Ends fr s₀ (execEvtEnableWrite r k v s) :=
  (h.access (fun _ h => h.writeEvtEnable)).next

theorem execEvtRouteWrite_follows {r : Req} {e : Fin 1536} {v : W32} (h : s₀.Follows fr s) : Ends fr s₀ (execEvtRouteWrite r e v s) :=
  (h.access (fun _ h => h.writeEvtRoute)).next

theorem execEvtSetWrite_follows {r : Req} {k : Fin 48} {v : W32} (h : s₀.Follows fr s) : Ends fr s₀ (execEvtSetWrite r k v s) :=
  (h.access (fun _ h => h.writeEvtSet)).next

/-! ### The functions of `Sys2Proof/Machine/Mailbox.lean` -/

theorem State.Follows.mbxTo {b st : Nat} (h : s₀.Follows fr s) : s₀.Follows fr (s.mbxTo b st) := h.setF

theorem State.Follows.mbxEvt {b : Nat} {f : Fld} (h : s₀.Follows fr s) : s₀.Follows fr (s.mbxEvt b f) := h.raise

theorem State.Follows.mbxFree {b : Nat} (h : s₀.Follows fr s) : s₀.Follows fr (s.mbxFree b) := (((h.foldl (fun _ _ h => h.wr)).wr).setF).mbxTo

theorem State.Follows.readMbxLock {r : Req} {b : Nat} (h : s₀.Follows fr s) : s₀.Follows fr (s.readMbxLock r b).2 :=
  .iteSnd h.setF.mbxTo (State.Follows.iteSnd h h)

theorem State.Follows.writeMbxMsg {b w : Nat} {v : W32} (h : s₀.Follows fr s) : s₀.Follows fr (s.writeMbxMsg b w v) := .ite h.wr h.mbxEvt

theorem State.Follows.writeDoorbell {b : Nat} {v : W32} (h : s₀.Follows fr s) : s₀.Follows fr (s.writeDoorbell b v) :=
  .ite h (.ite h.mbxTo.setSource h.mbxEvt)

theorem State.Follows.writeMbxAck {b : Nat} {v : W32} (h : s₀.Follows fr s) : s₀.Follows fr (s.writeMbxAck b v) := .ite h.wr.mbxTo.setSource h.mbxEvt

theorem State.Follows.writeRelease {r : Req} {b : Nat} {v : W32} (h : s₀.Follows fr s) : s₀.Follows fr (s.writeRelease r b v) :=
  .ite h (.ite (.ite h.mbxEvt h.mbxFree) (.ite h h.mbxFree.mbxEvt))

theorem State.Follows.writeMbxCfg {b : Nat} {v : W32} (h : s₀.Follows fr s) : s₀.Follows fr (s.writeMbxCfg b v) := .ite h.wr.setF h

theorem execMbxLockRead_follows {r : Req} {b : Fin 32} {be : Fin 16} (h : s₀.Follows fr s) : Ends fr s₀ (execMbxLockRead r b be s) :=
  (h.readAccess (fun _ h => h.readMbxLock)).next

theorem execMbxMsgWrite_follows {r : Req} {b : Fin 32} {w : Fin 16} {v : W32} (h : s₀.Follows fr s) : Ends fr s₀ (execMbxMsgWrite r b w v s) :=
  (h.access (fun _ h => h.writeMbxMsg)).next

theorem execMbxDoorbell_follows {r : Req} {b : Fin 32} {v : W32} (h : s₀.Follows fr s) : Ends fr s₀ (execMbxDoorbell r b v s) :=
  (h.access (fun _ h => h.writeDoorbell)).next

theorem execMbxAckWrite_follows {r : Req} {b : Fin 32} {v : W32} (h : s₀.Follows fr s) : Ends fr s₀ (execMbxAckWrite r b v s) :=
  (h.access (fun _ h => h.writeMbxAck)).next

theorem execMbxRelease_follows {r : Req} {b : Fin 32} {v : W32} (h : s₀.Follows fr s) : Ends fr s₀ (execMbxRelease r b v s) :=
  (h.access (fun _ h => h.writeRelease)).next

theorem execMbxCfgWrite_follows {r : Req} {b : Fin 32} {v : W32} (h : s₀.Follows fr s) : Ends fr s₀ (execMbxCfgWrite r b v s) :=
  (h.access (fun _ h => h.writeMbxCfg)).next

/-! ### The functions of `Sys2Proof/Machine/Strata.lean` -/

theorem State.Follows.writeStrLock {r : Req} {v : W32} (h : s₀.Follows fr s) : s₀.Follows fr (s.writeStrLock r v) :=
  .ite h.dropLock (.ite (.ite h.raise h.same) h)

theorem execStrLockGo_follows {r : Req} {t : Fin 16} (h : s₀.Follows fr s) : Ends fr s₀ (execStrLockGo r t s) :=
  (h.access (fun _ h => h.writeStrLock)).next

theorem execStrLockRelease_follows {r : Req} (h : s₀.Follows fr s) : Ends fr s₀ (execStrLockRelease r s) :=
  (h.access (fun _ h => h.writeStrLock)).next

theorem execStrLockGrant_follows {t : Fin 12} (h : s₀.Follows fr s) : Ends fr s₀ (execStrLockGrant t s) := by
  unfold execStrLockGrant
  refine .ite h.next ?_
  refine State.Follows.next ?_
  split
  · exact h.same
  · exact h

theorem execLockForced_follows {r : Req} (h : s₀.Follows fr s) : Ends fr s₀ (execLockForced r s) := by
  unfold execLockForced
  split
  · exact .ite h.dropLock.raise.raise.next h.next
  · exact h.next

theorem State.Follows.putFlash {f a : Nat} {b : Byte} (h : s₀.Follows fr s) : s₀.Follows fr (s.putFlash f a b) := .ite h.same h.same

theorem State.Follows.putFlashWords {f a : Nat} {ws : List W32} (h : s₀.Follows fr s) : s₀.Follows fr (s.putFlashWords f a ws) :=
  h.foldl (fun _ _ h => h.foldl (fun _ _ h => h.putFlash))

theorem State.Follows.setWinAddr {r : Req} {a : Nat} (h : s₀.Follows fr s) : s₀.Follows fr (s.setWinAddr r a) := h.wr.wr

theorem State.Follows.winPut {t a : Nat} {v : W32} (h : s₀.Follows fr s) : s₀.Follows fr (s.winPut t a v) := by
  unfold State.winPut
  split
  · exact h.same
  · exact h.same
  · exact h.same
  · exact h.same
  · exact h

theorem State.Follows.winRefuse {r : Req} {a : Nat} {x : WinVerdict} (h : s₀.Follows fr s) : s₀.Follows fr (s.winRefuse r a x) := by
  unfold State.winRefuse
  split
  · exact h.raise
  · exact h.denied
  · exact h.raise
  · exact h.raise
  · exact h

theorem State.Follows.winAdvance {r : Req} (h : s₀.Follows fr s) : s₀.Follows fr (s.winAdvance r) := .ite h h.setWinAddr

theorem State.Follows.winRead {m : Nat} {r : Req} {ahead : Nat} (h : s₀.Follows fr s) : s₀.Follows fr (s.winRead m r ahead).2 :=
  .iteSnd h.winAdvance.same h.winRefuse.winAdvance.same

theorem State.Follows.winWrite {m : Nat} {r : Req} {w : W32} (h : s₀.Follows fr s) : s₀.Follows fr (s.winWrite m r w) :=
  ((h.branch (·.winPut) (·.winRefuse)).winAdvance).same

theorem State.Follows.winPartial {m : Nat} {r : Req} (h : s₀.Follows fr s) : s₀.Follows fr (s.winPartial m r) :=
  .ite h.winRefuse.winAdvance.same h.raise

theorem State.Follows.winAccess {m : Nat} {r : Req} {data : Option W32} {full : Bool} {ahead : Nat} (h : s₀.Follows fr s) :
    s₀.Follows fr (s.winAccess m r data full ahead).2 := by
  unfold State.winAccess
  dsimp only
  split
  · exact h.countBeat.winRead
  · exact h.countBeat.branch (·.winWrite) (·.winPartial)

theorem execWinDataAccess_follows {r : Req} {data : Option W32} {be : Fin 16} {ahead : Fin 17} (h : s₀.Follows fr s) :
    Ends fr s₀ (execWinDataAccess r data be ahead s) :=
  (h.branch id (fun h => h.branch (·.wait) (fun h => h.winAccess.branch (·.answer) id))).next

theorem State.Follows.writeWin {r : Req} {g : WinReg} {v : W32} (h : s₀.Follows fr s) : s₀.Follows fr (s.writeWin r g v) := h.wr.same

theorem execWinAddrWrite_follows {r : Req} {reg : WinReg} {v : W32} (h : s₀.Follows fr s) : Ends fr s₀ (execWinAddrWrite r reg v s) :=
  (h.access (fun _ h => h.writeWin)).next

/-! ### The functions of `Sys2Proof/Machine/Boot.lean` -/

theorem State.Follows.fullReset {cause : Nat} (hp : ∀ p ∈ Part.tick :: planParts, p ∈ fr) (h : s₀.Follows fr s) :
    s₀.Follows fr (s.fullReset cause) where
  pending := h.pending
  out := h.out
  owners := h.owners
  svn := h.svn
  tick hn := absurd (hp _ (by decide)) hn
  routes hn := absurd (hp _ (by decide)) hn
  inPlan hn := absurd (hp _ (by decide)) hn
  outPlan hn := absurd (hp _ (by decide)) hn
  portPlan hn := absurd (hp _ (by decide)) hn
  rights hn := absurd (hp _ (by decide)) hn

theorem execAoResetAssert_follows (hp : ∀ p ∈ Part.tick :: planParts, p ∈ fr) (h : s₀.Follows fr s) :
    Ends fr s₀ (execAoResetAssert s) := (h.fullReset hp).next

theorem execAoDip_follows (hp : ∀ p ∈ Part.tick :: planParts, p ∈ fr) (h : s₀.Follows fr s) :
    Ends fr s₀ (execAoDip s) := (h.fullReset hp).next

theorem State.Follows.newChallenge (h : s₀.Follows fr s) : s₀.Follows fr s.newChallenge := h.fresh.wr.wr

theorem execAoResetRelease_follows (ht : .tick ∈ fr) (h : s₀.Follows fr s) : Ends fr s₀ (execAoResetRelease s) := by
  unfold execAoResetRelease
  refine .ite (State.Follows.next (State.Follows.newChallenge ?_)) h.next
  exact { h with tick := fun hn => absurd ht hn }

theorem State.Follows.writeHdr {f : Nat} {x : BootHdr} (h : s₀.Follows fr s) : s₀.Follows fr (s.writeHdr f x) := h.putFlashWords

theorem State.Follows.toStage {n : Nat} (h : s₀.Follows fr s) : s₀.Follows fr (s.toStage n) := h.setF.setF

theorem State.Follows.noteSession (h : s₀.Follows fr s) : s₀.Follows fr s.noteSession := by
  unfold State.noteSession
  dsimp only
  split
  · exact h.wr.setF
  · exact h.wr.setF

theorem State.Follows.writeJournal (h : s₀.Follows fr s) : s₀.Follows fr s.writeJournal := h.fresh.putFlashWords

/-- The SVN count rises. -/
theorem State.Follows.raiseSvn {n : Nat} (h : s₀.Follows fr s) : s₀.Follows fr { s with svn := max s.svn n } :=
  { h with svn := h.svn.trans (le_max_left _ _) }

/-- The session ends with the SVN count of what was started. -/
theorem State.Follows.endSession {n : Nat} (h : s₀.Follows fr s) : s₀.Follows fr { s with svn := max s.svn n, session := none } :=
  { h with svn := h.svn.trans (le_max_left _ _) }

theorem State.Follows.rebuildStage (h : s₀.Follows fr s) : s₀.Follows fr s.rebuildStage := by
  unfold State.rebuildStage
  split
  · exact h.toStage
  · extract_lets on unconf s1
    clear_value unconf
    have h1 : s₀.Follows fr s1 := by
      unfold s1
      cases unconf with
      | nil => exact h
      | cons => exact h.same
    clear_value s1
    exact .ite h1.toStage.noteSession (.ite h1.endSession.writeJournal.noteSession.toStage
      (.ite h1.toStage.noteSession (.ite h1.toStage.noteSession (.ite h1.toStage.noteSession h1.toStage.noteSession))))

theorem execBootOtpChecked_follows {ok : Bool} (h : s₀.Follows fr s) : Ends fr s₀ (execBootOtpChecked ok s) :=
  .ite h.next (.ite h.same.rebuildStage.next h.setF.next)

theorem State.Follows.startCad {c : Nat} {f : Fmt} (h : s₀.Follows fr s) : s₀.Follows fr (s.startCad c f) := .ite h h.same.wr.wr

theorem State.Follows.baseCads (h : s₀.Follows fr s) : s₀.Follows fr s.baseCads := by
  unfold State.baseCads
  dsimp only
  refine h.foldl fun _ _ h => ?_
  split
  · exact h.startCad
  · exact h.wr

theorem State.Follows.newCads (h : s₀.Follows fr s) : s₀.Follows fr s.newCads := by
  unfold State.newCads
  refine h.foldl fun _ _ h => ?_
  refine .ite h ?_
  split
  · exact h.startCad
  · exact h

theorem State.Follows.bootWrites {l : List (RegKey × W32)} (h : s₀.Follows fr s) : s₀.Follows fr (s.bootWrites l) := h.foldl (fun _ _ h => h.wr)

theorem State.Follows.bootTwinWrites {l : List (RegKey × W32)} (h : s₀.Follows fr s) : s₀.Follows fr (s.bootTwinWrites l) :=
  h.foldl (fun _ _ h => (h.deliver.branch (·.same) id).branch (·.audRouteDelivered) (fun h => h.branch (·.audDelayDelivered) id))

theorem State.Follows.bootRoutes (hr : .routes ∈ fr) (h : s₀.Follows fr s) : s₀.Follows fr s.bootRoutes :=
  { h with routes := fun hn => absurd hr hn }

theorem State.Follows.bootFlows (h : s₀.Follows fr s) : s₀.Follows fr s.bootFlows :=
  h.foldl (fun _ _ h => (h.branch (·.startRun) id).branch (·.startRun) id)

theorem State.Follows.laneBoot {n : Nat} (h : s₀.Follows fr s) : s₀.Follows fr (s.laneBoot n) := .ite h h.setF.setF.laneStat.startWake

theorem State.Follows.loadAlloy {p : AlloyPlan} (h : s₀.Follows fr s) : s₀.Follows fr (s.loadAlloy p) := h.same

theorem State.Follows.loadAudio {p : AudioPlan} (h : s₀.Follows fr s) : s₀.Follows fr (s.loadAudio p) :=
  (h.same.foldl (fun _ _ h => h.same)).foldl (fun _ _ h => h.same)

theorem State.Follows.newRecord (h : s₀.Follows fr s) : s₀.Follows fr s.newRecord := h.fresh.foldl (fun _ _ h => h.wr)

theorem State.Follows.loadStructure {p : Structure_} (hp : ∀ q ∈ planParts, q ∈ fr) (h : s₀.Follows fr s) : s₀.Follows fr (s.loadStructure p) := by
  unfold State.loadStructure
  extract_lets s1 s2 s3 s4 s5 s6 s7 s8 s9 s10
  have h1 : s₀.Follows fr s1 :=
    { h with
      inPlan := fun hn => absurd (hp _ (by decide)) hn, outPlan := fun hn => absurd (hp _ (by decide)) hn
      portPlan := fun hn => absurd (hp _ (by decide)) hn, rights := fun hn => absurd (hp _ (by decide)) hn }
  have h4 : s₀.Follows fr s4 := (h1.loadAlloy.loadAudio.baseCads.bootWrites.bootTwinWrites.bootRoutes (hp _ (by decide))).bootFlows
  have h7 : s₀.Follows fr s7 := (h4.wr.wr.foldl fun _ _ h => h.wr).newRecord
  have h9 : s₀.Follows fr s9 := (h7.foldl fun _ _ h => h.setF).foldl fun _ _ h => h.laneBoot
  exact h9.setSide.setSide.classUpdate.vectors

theorem State.Follows.joinPositions {s0 : State} (h : s₀.Follows fr s) : s₀.Follows fr (s.joinPositions s0) := by
  unfold State.joinPositions
  refine h.foldl fun _ _ h => ?_
  exact .ite ((h.branch (·.setCopyRx) id).setCopyRx) (.ite h.setCopyRx h)

theorem State.Follows.slotPlans {inPlan outPlan portPlan : _} (hp : ∀ q ∈ planParts, q ∈ fr) (h : s₀.Follows fr s) :
    s₀.Follows fr { s with inPlan, outPlan, portPlan } :=
  { h with
    inPlan := fun hn => absurd (hp _ (by decide)) hn, outPlan := fun hn => absurd (hp _ (by decide)) hn
    portPlan := fun hn => absurd (hp _ (by decide)) hn }

theorem State.Follows.applyRegion {q : Nat} {p : RegionPlan} (hp : ∀ q ∈ planParts, q ∈ fr) (h : s₀.Follows fr s) :
    s₀.Follows fr (s.applyRegion q p) := by
  unfold State.applyRegion
  refine .ite h ?_
  extract_lets s0 s1 downs s2 fresh s3 s4 s5 s6 s7 s8
  have h2 : s₀.Follows fr s2 := (h.foldl fun _ _ h => h.laneLost.enterPark).foldl fun _ _ h => h.portDown
  clear_value s2
  have h3 : s₀.Follows fr s3 := (h2.slotPlans hp).newCads
  clear_value s3
  have h5 : s₀.Follows fr s5 := (h3.foldl fun _ _ h => h.wr).bootWrites
  clear_value s5
  have h6 : s₀.Follows fr s6 := h5.foldl fun _ _ h => State.Follows.setF { h with routes := fun hn => absurd (hp _ (by decide)) hn }
  clear_value s6
  have h8 : s₀.Follows fr s8 := h6.joinPositions.quadOff.withdraw
  clear_value s8
  exact (h8.foldl fun _ _ h => h.laneBoot).updateStep.classUpdate

theorem State.Follows.endChange {code : Nat} (h : s₀.Follows fr s) : s₀.Follows fr (s.endChange code) := h.setF.setF.setF.same

theorem execRegionApply_follows (hp : ∀ q ∈ planParts, q ∈ fr) (h : s₀.Follows fr s) : Ends fr s₀ (execRegionApply s) := by
  unfold execRegionApply
  split
  · exact .ite h.next (h.applyRegion hp).wr.newRecord.endChange.next
  · exact h.next

/-! ### The functions of `Sys2Proof/Machine/Update.lean` -/

theorem State.Follows.ackMsg {code : Nat} (h : s₀.Follows fr s) : s₀.Follows fr (s.ackMsg code) := h.writeMbxAck

theorem State.Follows.onMsg {cmd : Nat} {f : State → Option Nat × State} (h : s₀.Follows fr s)
    (hf : ∀ s, s₀.Follows fr s → s₀.Follows fr (f s).2) : s₀.Follows fr (s.onMsg cmd f) := by
  unfold State.onMsg
  refine .ite h (.ite h.ackMsg.setF (.ite h ?_))
  dsimp only
  split
  · exact (hf _ h).ackMsg.setF
  · exact hf _ h

theorem State.Follows.refuse {code : Nat} (h : s₀.Follows fr s) : s₀.Follows fr (s.refuse code).2 := h

theorem State.Follows.dropSession (h : s₀.Follows fr s) : s₀.Follows fr s.dropSession := h.same.writeJournal.noteSession.toStage

theorem State.Follows.updBegin (h : s₀.Follows fr s) : s₀.Follows fr s.updBegin.2 :=
  .iteSnd h.refuse (State.Follows.iteSnd h.refuse (State.Follows.iteSnd h.refuse (State.Follows.iteSnd h h.same.writeJournal.noteSession.toStage)))

theorem execUpdBegin_follows (h : s₀.Follows fr s) : Ends fr s₀ (execUpdBegin s) := (h.onMsg (fun _ h => h.updBegin)).next

theorem State.Follows.updData (h : s₀.Follows fr s) : s₀.Follows fr s.updData.2 := by
  unfold State.updData
  dsimp only
  split
  · exact h.refuse
  · exact .iteSnd h.refuse h.same

theorem execUpdData_follows (h : s₀.Follows fr s) : Ends fr s₀ (execUpdData s) := (h.onMsg (fun _ h => h.updData)).next

theorem State.Follows.updPieceEnd {flashOk : Bool} (h : s₀.Follows fr s) : s₀.Follows fr (State.updPieceEnd flashOk s).2 := by
  unfold State.updPieceEnd
  dsimp only
  split
  · exact h.refuse
  · refine .iteSnd h.refuse (.iteSnd h (.iteSnd h.refuse (.iteSnd h.refuse (.iteSnd h.refuse ?_))))
    dsimp only
    exact h.putFlashWords.same.writeJournal.noteSession

theorem execUpdPieceEnd_follows {flashOk : Bool} (h : s₀.Follows fr s) : Ends fr s₀ (execUpdPieceEnd flashOk s) :=
  (h.onMsg (fun _ h => h.updPieceEnd)).next

theorem State.Follows.updStatus (h : s₀.Follows fr s) : s₀.Follows fr s.updStatus.2 := by
  unfold State.updStatus
  split
  · exact h.refuse
  · exact h

theorem execUpdStatus_follows (h : s₀.Follows fr s) : Ends fr s₀ (execUpdStatus s) := (h.onMsg (fun _ h => h.updStatus)).next

theorem State.Follows.settingsRule {sd : Side} {ws : List W32} (h : s₀.Follows fr s) : s₀.Follows fr (s.settingsRule sd ws) :=
  .ite h.putFlashWords.setF h

theorem State.Follows.fwLoaded {sd : Side} {k : Nat} (h : s₀.Follows fr s) : s₀.Follows fr (s.fwLoaded sd k) := h.settingsRule.same.wr.setF.setSide

theorem State.Follows.revertRule {sd : Side} (h : s₀.Follows fr s) : s₀.Follows fr (s.revertRule sd) := .ite h.writeHdr.setF.toStage.same h

theorem State.Follows.startSide {sd : Side} (h : s₀.Follows fr s) : s₀.Follows fr (s.startSide sd) := by
  -- the definition is unfolded as a function: comparing it at `s` makes the kernel evaluate the boot headers' hashes
  have e : State.startSide = State.startSide := rfl
  conv at e => rhs; delta State.startSide
  rw [e]
  beta_reduce
  extract_lets x
  clear_value x
  split
  · exact h.setF
  · exact (h.branch (·.setF) (·.branch id (·.writeHdr))).fwLoaded

theorem execSideFwLoad_follows {sd : Side} (h : s₀.Follows fr s) : Ends fr s₀ (execSideFwLoad sd s) := (h.branch (·.revertRule.startSide) id).next

theorem execBootImagesLoaded_follows {images : Option Structure_} (hp : ∀ q ∈ planParts, q ∈ fr) (h : s₀.Follows fr s) :
    Ends fr s₀ (execBootImagesLoaded images s) := by
  unfold execBootImagesLoaded
  refine .ite h.next ?_
  split
  · exact h.setF.next
  · exact .ite (h.same.loadStructure hp).next h.setF.next

theorem State.Follows.verifyFirmware {x : Session} {built : Option (List W32)} {flashOk : Bool} (h : s₀.Follows fr s) :
    s₀.Follows fr (s.verifyFirmware x built flashOk).2 := by
  unfold State.verifyFirmware
  dsimp only
  refine .iteSnd h.refuse ?_
  refine .iteSnd h.refuse ?_
  split
  · exact h.refuse
  · exact .iteSnd h.refuse
      (State.Follows.iteSnd h.refuse
        (State.Follows.iteSnd h.putFlashWords.putFlashWords.refuse
          (State.Follows.iteSnd h.putFlashWords.putFlashWords.refuse h.putFlashWords.putFlashWords.same.writeJournal.toStage)))

theorem State.Follows.loadSide {p : SidePlan} (h : s₀.Follows fr s) : s₀.Follows fr (s.loadSide p) := by
  unfold State.loadSide
  extract_lets s1 s2
  have h1 : s₀.Follows fr s1 := by
    unfold s1
    split
    · exact h.same
    · exact h
  clear_value s1
  have h2 : s₀.Follows fr s2 := by
    unfold s2
    split
    · exact h1.loadAlloy.newCads
    · exact h1
  clear_value s2
  split
  · exact h2.loadAudio
  · exact h2

theorem State.Follows.verifyStructure {x : Session} {change : Change} (h : s₀.Follows fr s) : s₀.Follows fr (s.verifyStructure x change).2 :=
  .iteSnd h.refuse h.same.writeJournal.toStage

theorem State.Follows.updVerify {built : Option (List W32)} {change : Change} {flashOk : Bool} (h : s₀.Follows fr s) :
    s₀.Follows fr (State.updVerify built change flashOk s).2 := by
  unfold State.updVerify
  split
  · exact h.refuse
  · exact .iteSnd h.refuse (.iteSnd h.refuse (.iteSnd h.refuse (.iteSnd h.refuse (.iteSnd h.verifyFirmware h.verifyStructure))))

theorem execUpdVerify_follows {built : Option (List W32)} {change : Change} {flashOk : Bool} (h : s₀.Follows fr s) :
    Ends fr s₀ (execUpdVerify built change flashOk s) :=
  (h.onMsg (fun _ h => h.updVerify)).next

theorem State.Follows.activateOn {x : Session} {y : Side} (h : s₀.Follows fr s) : s₀.Follows fr (s.activateOn x y) := h.writeHdr.same.cmdReset

theorem State.Follows.updActivate {flashOk : Bool} (h : s₀.Follows fr s) : s₀.Follows fr (State.updActivate flashOk s).2 := by
  unfold State.updActivate
  split
  · exact h.refuse
  · refine .iteSnd h.refuse (.iteSnd h.refuse ?_)
    split
    · exact h.refuse
    · exact .iteSnd h.refuse (.iteSnd h.refuse h.activateOn.toStage)

theorem execUpdActivate_follows {flashOk : Bool} (h : s₀.Follows fr s) : Ends fr s₀ (execUpdActivate flashOk s) :=
  (h.onMsg (fun _ h => h.updActivate)).next

theorem State.Follows.confirmSlot {y : Side} (h : s₀.Follows fr s) : s₀.Follows fr (s.confirmSlot y) := h.writeHdr

theorem State.Follows.askSwitch (h : s₀.Follows fr s) : s₀.Follows fr s.askSwitch := h.wr.writeRfeCmd

theorem State.Follows.updConfirm {flashOk : Bool} (h : s₀.Follows fr s) : s₀.Follows fr (State.updConfirm flashOk s).2 := by
  unfold State.updConfirm
  dsimp only
  split
  · exact h.refuse
  · have hc := fun {y : Side} => h.confirmSlot (y := y)
    exact .iteSnd h.refuse (.iteSnd h.refuse (.iteSnd (.iteSnd h (.iteSnd h.same.activateOn.toStage h.same.refuse))
      (.iteSnd h.refuse (.iteSnd h.refuse (.iteSnd hc.activateOn.toStage (.iteSnd hc.refuse (.iteSnd hc.askSwitch.same hc.askSwitch.refuse)))))))

theorem execUpdConfirm_follows {flashOk : Bool} (h : s₀.Follows fr s) : Ends fr s₀ (execUpdConfirm flashOk s) :=
  (h.onMsg (fun _ h => h.updConfirm)).next

theorem State.Follows.updAbort (h : s₀.Follows fr s) : s₀.Follows fr s.updAbort.2 := by
  unfold State.updAbort
  dsimp only
  split
  · exact h.refuse
  · exact .iteSnd h.dropSession h.writeHdr.same.cmdReset.toStage

theorem execUpdAbort_follows (h : s₀.Follows fr s) : Ends fr s₀ (execUpdAbort s) := (h.onMsg (fun _ h => h.updAbort)).next

theorem execTrialDone_follows (h : s₀.Follows fr s) : Ends fr s₀ (execTrialDone s) := (h.branch (·.setF) id).next

theorem execSecondDone_follows (h : s₀.Follows fr s) : Ends fr s₀ (execSecondDone s) := by
  unfold execSecondDone
  split
  · exact .ite h.confirmSlot.raiseSvn.dropSession.next h.next
  · exact h.next

theorem State.Follows.changeStep {n : Nat} (h : s₀.Follows fr s) : s₀.Follows fr (s.changeStep n) := h.setF.setF

theorem State.Follows.refuseApply {code : Nat} (h : s₀.Follows fr s) : s₀.Follows fr (s.refuseApply code).2 := h.setF

theorem State.Follows.updApply (h : s₀.Follows fr s) : s₀.Follows fr s.updApply.2 := by
  unfold State.updApply
  dsimp only
  refine .iteSnd h.refuseApply ?_
  split
  · exact h.refuseApply
  · refine .iteSnd h.refuseApply ?_
    refine .iteSnd h.refuseApply ?_
    split
    · exact h.refuseApply
    · exact h.newRecord.setF
    · exact h.same.changeStep
    · split
      · exact h.refuseApply
      · exact .iteSnd h.refuseApply h.same.changeStep.cmdReset

theorem execUpdApply_follows (h : s₀.Follows fr s) : Ends fr s₀ (execUpdApply s) := (h.onMsg (fun _ h => h.updApply)).next

theorem State.Follows.sideInForce {p : SidePlan} {x : Side} (h : s₀.Follows fr s) : s₀.Follows fr (s.sideInForce p x) :=
  h.loadSide.changeStep.branch id (·.cmdReset)

theorem execSideImageStep_follows (h : s₀.Follows fr s) : Ends fr s₀ (execSideImageStep s) := by
  unfold execSideImageStep
  split
  · split
    · exact .ite h.wr.newRecord.changeStep.endChange.next (.ite h.next h.cmdReset.next)
    · exact h.next
    · exact .ite h.next (.ite h.sideInForce.next (.ite h.askSwitch.changeStep.next h.changeStep.next))
  · exact h.next

theorem execSideImageTimeout_follows (h : s₀.Follows fr s) : Ends fr s₀ (execSideImageTimeout s) := by
  unfold execSideImageTimeout
  dsimp only
  split
  · exact .ite h.cmdReset.endChange.next h.next
  · exact h.next

theorem State.Follows.attestSend {m : Nat} {ws : List W32} (h : s₀.Follows fr s) : s₀.Follows fr (s.attestSend m ws) :=
  ((h.setF.mbxTo.foldl (fun _ _ h => h.writeMbxMsg)).writeDoorbell).same

theorem State.Follows.updAttest (h : s₀.Follows fr s) : s₀.Follows fr s.updAttest.2 := .iteSnd h.refuse h.attestSend

theorem execUpdAttest_follows (h : s₀.Follows fr s) : Ends fr s₀ (execUpdAttest s) := by
  unfold execUpdAttest
  dsimp only
  split
  · exact (h.onMsg (fun _ h => h.updAttest)).next
  · exact .ite h.same.next (.ite ((h.mbxFree.branch (·.same) (·.attestSend)).next) h.next)

/-! ### The functions of `Sys2Proof/Machine/Security.lean` -/

theorem State.Follows.openCode (h : s₀.Follows fr s) : s₀.Follows fr s.openCode.2 := h.fresh

theorem State.Follows.endUnlock (h : s₀.Follows fr s) : s₀.Follows fr s.endUnlock := by
  unfold State.endUnlock
  dsimp only
  split
  · exact h
  · split
    · exact h.same.masterReset
    · exact h.same

theorem State.Follows.actClaim {r : Req} (h : s₀.Follows fr s) : s₀.Follows fr (s.actClaim r).2 := by
  unfold State.actClaim
  split
  · exact h.openCode
  · next hc =>
    have ho : s.owners = [] := not_not.mp (not_or.mp hc).2
    exact { h with owners := (h.owners.trans (ho ▸ List.nil_prefix)) }

theorem State.Follows.actTransfer {r : Req} (h : s₀.Follows fr s) : s₀.Follows fr (s.actTransfer r).2 := by
  unfold State.actTransfer
  exact .iteSnd h.openCode (.iteSnd h (.iteSnd h.openCode { h with owners := h.owners.trans (List.prefix_append _ _) }))

theorem State.Follows.actUnlock {r : Req} (h : s₀.Follows fr s) : s₀.Follows fr (s.actUnlock r).2 :=
  .iteSnd h (State.Follows.iteSnd h.openCode (State.Follows.iteSnd h h.endUnlock.same))

theorem State.Follows.writeTokenCtl {r : Req} {v : W32} (h : s₀.Follows fr s) : s₀.Follows fr (s.writeTokenCtl r v) := by
  unfold State.writeTokenCtl
  refine State.Follows.branch (.ite ?_ h) (·.endUnlock) id
  refine (State.Follows.newChallenge ?_).setF
  split
  · exact h.actUnlock
  · exact h.actTransfer
  · exact h.actClaim
  · exact h.openCode

theorem State.Follows.goToken {r : Req} {kind : Nat} (h : s₀.Follows fr s) : s₀.Follows fr (s.goToken r kind) :=
  h.access (fun _ h => h.branch (·.writeTokenCtl) id)

theorem execSecClaim_follows {r : Req} (h : s₀.Follows fr s) : Ends fr s₀ (execSecClaim r s) := h.goToken.next

theorem execSecTransfer_follows {r : Req} (h : s₀.Follows fr s) : Ends fr s₀ (execSecTransfer r s) := h.goToken.next

theorem execDebugUnlock_follows {r : Req} (h : s₀.Follows fr s) : Ends fr s₀ (execDebugUnlock r s) := h.goToken.next

theorem execRelock_follows {r : Req} (h : s₀.Follows fr s) : Ends fr s₀ (execRelock r s) := (h.access (fun _ h => h.writeTokenCtl)).next

theorem execDebugUnlockExpiry_follows (h : s₀.Follows fr s) : Ends fr s₀ (execDebugUnlockExpiry s) := by
  unfold execDebugUnlockExpiry
  split
  · exact (h.branch (·.endUnlock) id).next
  · exact h.next

/-! ### The functions of `Sys2Proof/Machine/Power.lean` -/

theorem execSidePowerGood_follows {sd : Side} (h : s₀.Follows fr s) : Ends fr s₀ (execSidePowerGood sd s) :=
  .ite h.next (.ite h.setSide.next h.setSide.next)

theorem execPgLate_follows {sd : Side} (h : s₀.Follows fr s) : Ends fr s₀ (execPgLate sd s) := by
  unfold execPgLate
  dsimp only
  split
  · exact .ite h.setSide.raise.next h.next
  · exact h.next

theorem State.Follows.bankOff {b : Bank} (h : s₀.Follows fr s) : s₀.Follows fr (s.bankOff b) :=
  ((h.foldl (fun _ _ h => h.branch id (·.losSet.enterPark))).foldl (fun _ _ h => h.quadOff)).updateStep

theorem State.Follows.bankFail {b : Bank} {ctx : W32} (h : s₀.Follows fr s) : s₀.Follows fr (s.bankFail b ctx) :=
  h.same.raise.bankOff.branch (·.portDown.portDown) id

theorem execBankSupplyReturn_follows {b : Bank} (h : s₀.Follows fr s) : Ends fr s₀ (execBankSupplyReturn b s) :=
  .ite h.next (((h.same.foldl (fun _ _ h => h.startWake)).cycle).next)

theorem State.Follows.noteTemp {k : Nat} {t : Int} (h : s₀.Follows fr s) : s₀.Follows fr (s.noteTemp k t) := h.same.setF.setF

theorem execThermalSensorRead_follows {k : Fin 6} {readings : List Int} (h : s₀.Follows fr s) : Ends fr s₀ (execThermalSensorRead k readings s) :=
  .ite h.next (.ite h.noteTemp.same.cycle.next h.noteTemp.raiseIf.next)

theorem execHarifBypassOpen_follows (h : s₀.Follows fr s) : Ends fr s₀ (execHarifBypassOpen s) := .ite h.next h.same.next

theorem execBypassSupplyLoss_follows (h : s₀.Follows fr s) : Ends fr s₀ (execBypassSupplyLoss s) := h.same.next

/-! ### The functions of `Sys2Proof/Machine/Park.lean` -/

theorem State.Follows.laneLift {n : Nat} (h : s₀.Follows fr s) : s₀.Follows fr (s.laneLift n) := .ite h (.ite h.startWake (.ite h h.enterPark))

theorem State.Follows.writeLaneDecl {g : Nat} {v : W32} (h : s₀.Follows fr s) : s₀.Follows fr (s.writeLaneDecl g v) :=
  (h.wr.foldl (fun _ _ h => h.laneLift)).updateStep

theorem execParkLaneDeclWrite_follows {r : Req} {g : Fin 64} {v : W32} (h : s₀.Follows fr s) : Ends fr s₀ (execParkLaneDeclWrite r g v s) :=
  (h.access (fun _ h => h.writeLaneDecl)).next

theorem State.Follows.noteIdle (h : s₀.Follows fr s) : s₀.Follows fr s.noteIdle := h.same

theorem execEngineIdleDeep_follows {k : Fin 4} {u : Fin 1024} (h : s₀.Follows fr s) : Ends fr s₀ (execEngineIdleDeep k u s) := .ite h.same.next h.next

theorem execEngineDemand_follows {k : Fin 4} {u : Fin 1024} (h : s₀.Follows fr s) : Ends fr s₀ (execEngineDemand k u s) := .ite h.same.next h.next

theorem State.Follows.writeEngDecl {k : Nat} {v : W32} (h : s₀.Follows fr s) : s₀.Follows fr (s.writeEngDecl k v) := h.wr.branch id (·.same)

theorem execParkEngDeclWrite_follows {r : Req} {k : Fin 4} {v : W32} (h : s₀.Follows fr s) : Ends fr s₀ (execParkEngDeclWrite r k v s) :=
  (h.access (fun _ h => h.writeEngDecl)).next

theorem State.Follows.portReset {p : Nat} {cut : Cut} {down : Bool} (h : s₀.Follows fr s) : s₀.Follows fr (s.portReset p cut down) :=
  (h.masterReset.addSat.setF.setF.branch (·.setF.setF.setF) id).same

theorem execPcieLinkUp_follows {p : Fin 2} {speed width : Fin 6} (h : s₀.Follows fr s) : Ends fr s₀ (execPcieLinkUp p speed width s) :=
  .ite h.next h.setF.setF.setF.next

theorem State.Follows.hostReset {x : Nat} (h : s₀.Follows fr s) : s₀.Follows fr (s.hostReset x) := h.masterReset.same

theorem State.Follows.hostPark (h : s₀.Follows fr s) : s₀.Follows fr s.hostPark :=
  .ite h.same (.ite h ((h.portReset.portReset.foldl (fun _ _ h => h.hostReset)).same))

theorem State.Follows.writeParkHost {v : W32} (h : s₀.Follows fr s) : s₀.Follows fr (s.writeParkHost v) :=
  ((h.wr.branch (·.portReset) id).branch (·.portReset) id).hostPark

theorem execParkHostWrite_follows {r : Req} {v : W32} (h : s₀.Follows fr s) : Ends fr s₀ (execParkHostWrite r v s) :=
  (h.access (fun _ h => h.writeParkHost)).next

theorem State.Follows.writeMgCfg {g : Nat} {v : W32} (h : s₀.Follows fr s) : s₀.Follows fr (s.writeMgCfg g v) := h.wr.hostPark

theorem State.Follows.writeRrpHost {x : Nat} {v : W32} (h : s₀.Follows fr s) : s₀.Follows fr (s.writeRrpHost x v) := h.wr.branch (·.hostReset) id

/-! ### The functions of `Sys2Proof/Machine/Bus.lean` -/

theorem State.Follows.store {k : RegKey} {v : W32} (h : s₀.Follows fr s) : s₀.Follows fr (s.store k v) := by
  unfold State.store
  dsimp only
  split
  · split
    · exact h.wr.branch (·.setSource) id
    · exact h.wr
  · exact h.wr

theorem State.Follows.writeTake {r : Req} {v : W32} (h : s₀.Follows fr s) : s₀.Follows fr (s.writeTake r v) := by
  unfold State.writeTake
  dsimp only
  split
  · exact h.receiveTake
  · exact h.receiveSalvo
  · exact h.receive
  · exact h.receive

theorem State.Follows.writeTakeLead {k : RegKey} {v : W32} (h : s₀.Follows fr s) : s₀.Follows fr (s.writeTakeLead k v) := h.same.store

theorem State.Follows.writeCandCfg {k : RegKey} {v : W32} (h : s₀.Follows fr s) : s₀.Follows fr (s.writeCandCfg k v) :=
  h.store.branch (·.disqualify) (·.refReview)

theorem State.Follows.writeReg {r : Req} {k : RegKey} {v : W32} (h : s₀.Follows fr s) : s₀.Follows fr (s.writeReg r k v) := by
  unfold State.writeReg
  dsimp only
  split
  · exact h.writeLaneDecl
  · exact h.writeEngDecl
  · exact h.writeParkHost
  · exact h.store.classUpdate
  · exact h.writeRfeCmd
  · exact h.writeWdog
  · exact h.writeClaim
  · exact h.store.updateStep
  · exact h.store.setLane
  · exact h.wr
  · exact h.writeAsyCtl
  · exact h.writeAsyFw
  · exact h.writeEvtStatus
  · exact h.writeEvtEnable
  · exact h.writeEvtSet
  · exact h.writeEvtRoute
  · exact h.writeMbxMsg
  · exact h.writeDoorbell
  · exact h.writeMbxAck
  · exact h.writeRelease
  · exact h.writeMbxCfg
  · exact h.writeStrLock
  · exact h.writeWin
  · exact h.writeWin
  · exact h.writeWin
  · exact h.writeRateLo
  · exact h.writeRate
  · exact h.writeStep
  · exact h.writeCmpCtl
  · exact h.writeRefCfg
  · exact h.writeRefCmd
  · exact h.writeCandCfg
  · exact h.writeTdmCtl
  · exact h.writeTdmTrig
  · exact h.writeLaneCtl
  · exact h.writeTxeq
  · exact h.writeLaneTest
  · exact h.writeNvlCfg
  · exact h.ctxPush
  · exact h.writeCtxCtl
  · exact .ite h.snapshot h
  · exact h.writeMgCfg
  · exact h.writeRrpHost
  · exact h.writeFlowAddr
  · exact h.writeFlowAddr
  · exact h.writeFlowAddr
  · exact h.writeFlowAddr
  · exact h.writeFlowAddr
  · exact h.writeRxfCfg
  · exact h.writeTxfCfg
  · exact h.hopCfgW
  · exact h.hopPushW
  · exact h.hopCtlW
  · exact h.writeTake
  · exact h.writeTakeLead
  · exact h.writeSalvoEntry
  · exact h.writeSalvoCtl
  · exact h.writeTokenCtl
  · exact h.store

theorem State.Follows.acceptTwin {k : RegKey} {v : W32} (h : s₀.Follows fr s) : s₀.Follows fr (s.acceptTwin k v) := h.same

theorem State.Follows.audCfgDelivered {v : W32} (h : s₀.Follows fr s) : s₀.Follows fr (s.audCfgDelivered v) := by
  unfold State.audCfgDelivered
  exact h.same.eachSide (fun _ _ h => h.wr)

theorem State.Follows.tileDelivered {k : RegKey} {v : W32} (h : s₀.Follows fr s) : s₀.Follows fr (s.tileDelivered k v) := by
  unfold State.tileDelivered
  split
  · exact h.headValueDelivered
  · exact h.deliver

theorem State.Follows.deliverTwin {k : RegKey} {w : W32} (h : s₀.Follows fr s) : s₀.Follows fr (s.deliverTwin k w) := by
  unfold State.deliverTwin
  dsimp only
  split
  · exact h.inCfgDelivered
  · exact h.deliver.same
  · exact h.capCfgDelivered
  · exact h.fsyDelivered
  · exact h.fsyDelivered
  · exact h.deliver.audRouteDelivered
  · exact h.deliver.audDelayDelivered
  · exact h.audCfgDelivered
  · exact h.flipDelivered
  · exact h.protFlipDelivered
  · exact h.headValueDelivered
  · exact h.headValueDelivered
  · exact h.tileDelivered
  · exact h.tileDelivered
  · exact h.tileDelivered
  · exact h.tileDelivered
  · exact h.tileDelivered
  · exact h.storeCfgDelivered
  · split
    · exact h.loadWord
    · exact h
  · exact h.deliver

theorem execTwinWriteDelivery_follows (h : s₀.Follows fr s) : Ends fr s₀ (execTwinWriteDelivery s) := (h.same.foldl (fun _ _ h => h.deliverTwin)).next

theorem State.Follows.performWrite {m : Nat} {r : Req} {t : Target} {k : RegKey} {full : Bool} {v : W32} (h : s₀.Follows fr s) :
    s₀.Follows fr (s.performWrite m r t k full v) :=
  h.countBeat.branch (·.raise)
    (fun h => h.branch id
      (fun h => h.branch (·.winAccess)
        (fun h => h.branch (·.raise) (fun h => h.branch (·.raise) (fun h => h.branch id (fun h => h.branch (·.acceptTwin) (·.writeReg)))))))

theorem State.Follows.readReg {m : Nat} {r : Req} {k : RegKey} {ahead : Nat} (h : s₀.Follows fr s) : s₀.Follows fr (s.readReg m r k ahead).2 := by
  unfold State.readReg
  dsimp only
  refine .iteSnd h ?_
  split
  · exact h.readMbxLock
  · exact h.winAccess
  · exact h.readNs
  · exact h.readTxts
  · exact h.readRxeq
  · exact h.foldErrors.readBer
  · exact h.readCrx
  · exact h.hopPopR
  · exact .iteSnd h h.wr

/-- What an access has come to follows `s₀`, where it has been performed. -/
def Beat.Follows (free : List Part) (s₀ : State) : Beat → Prop
  | .done _ t => s₀.Follows free t
  | _ => True

theorem Beat.Follows.of_done {b : Beat} {v : W32} {t : State} (h : b.Follows fr s₀) (e : b = .done v t) : s₀.Follows fr t := by
  subst e
  exact h

theorem State.Follows.busWrite {m : Nat} {r : Req} {addr : W32} {full : Bool} {v : W32} (h : s₀.Follows fr s) :
    (s.busWrite m r addr full v).Follows fr s₀ := by
  unfold State.busWrite
  dsimp only
  split
  · exact h
  · split
    · exact h.raise
    · split
      · trivial
      · exact h.denied
    · split
      · exact h.denied
      · split
        · trivial
        · exact h.countBeat.branch id (·.raise)
    · split
      · exact h.denied
      · split
        · trivial
        · exact h.performWrite

theorem State.Follows.busRead {m : Nat} {r : Req} {addr : W32} {ahead : Nat} (h : s₀.Follows fr s) : (s.busRead m r addr ahead).Follows fr s₀ := by
  unfold State.busRead
  dsimp only
  split
  · exact h
  · split
    · exact h.raise
    · split
      · trivial
      · exact h.denied
    · split
      · exact h.denied
      · split
        · trivial
        · exact h.countBeat
    · split
      · exact h.denied
      · split
        · trivial
        · split
          · exact h.countBeat
          · exact h.countBeat.readReg

theorem State.Follows.writeBeat {m : Nat} {r : Req} {addr : W32} {be : Fin 16} {v : W32} (h : s₀.Follows fr s) :
    Ends fr s₀ (s.writeBeat m r addr be v) := by
  unfold State.writeBeat
  refine .ite h.wait.next ?_
  have hb := h.busWrite (m := m) (r := r) (addr := addr) (full := be = 15) (v := v)
  revert hb
  cases s.busWrite m r addr (be = 15) v with
  | done => exact id
  | waits => exact fun _ => h.wait
  | flash => exact fun _ => trivial

theorem execRegWrite_follows {r : Req} {jtag : Bool} {addr v : W32} {be : Fin 16} (h : s₀.Follows fr s) :
    Ends fr s₀ (execRegWrite r jtag addr v be s) :=
  .ite h.next h.writeBeat

theorem execTwinWriteAccept_follows {r : Req} {offset : BitVec 23} {v : W32} (h : s₀.Follows fr s) : Ends fr s₀ (execTwinWriteAccept r offset v s) :=
  h.writeBeat

/-- What a run of words has come to follows `s₀`, where it has been performed. -/
def Run.Follows (free : List Part) (s₀ : State) : Run → Prop
  | .done _ t => s₀.Follows free t
  | _ => True

theorem Run.Follows.of_done {b : Run} {vs : List W32} {t : State} (h : b.Follows fr s₀) (e : b = .done vs t) : s₀.Follows fr t := by
  subst e
  exact h

theorem State.Follows.runWrites {m : Nat} {r : Req} {fixed : Bool} {vs : List W32} {a : W32} (h : s₀.Follows fr s) :
    (State.runWrites m r fixed vs a s).Follows fr s₀ := by
  induction vs generalizing s a with
  | nil => exact h
  | cons v vs ih =>
    unfold State.runWrites
    have hb := h.busWrite (m := m) (r := r) (addr := a) (full := true) (v := v)
    split
    · next e => exact ih (hb.of_done e)
    · trivial
    · trivial

theorem State.Follows.runReads {m : Nat} {r : Req} {fixed : Bool} {ahead n : Nat} {a : W32} (h : s₀.Follows fr s) :
    (State.runReads m r fixed ahead n a s).Follows fr s₀ := by
  induction n generalizing s a with
  | zero => exact h
  | succ n ih =>
    unfold State.runReads
    have hb := h.busRead (m := m) (r := r) (addr := a) (ahead := ahead)
    split
    · next e =>
      have hr := ih (a := if fixed then a else a + 4#32) (hb.of_done e)
      split
      · next e' => exact hr.of_done e'
      · trivial
      · trivial
    · trivial
    · trivial

theorem State.Follows.blindRead {m : Nat} {r : Req} {a : W32} (h : s₀.Follows fr s) : s₀.Follows fr (s.blindRead m r a) := by
  unfold State.blindRead
  have hb := h.busRead (m := m) (r := r) (addr := a) (ahead := 0)
  split
  · next e => exact hb.of_done e
  · exact h

/-- The last word of a run of reads is answered. -/
theorem State.Follows.answerLast {r : Req} {o : Option W32} (h : s₀.Follows fr s) : s₀.Follows fr (o.elim s (s.answer r)) := by
  cases o with
  | none => exact h
  | some v => exact h.answer

theorem State.Follows.spiRun {op : Byte} {addr : W32} {words : List W32} {ahead : Nat} {t : State} (h : s₀.Follows fr s)
    (he : s.spiRun op addr words ahead = some t) : s₀.Follows fr t := by
  unfold State.spiRun at he
  dsimp only at he
  split at he
  · have hr := h.runWrites (m := 3) (r := .service) (fixed := op = 0x12#8 || op = 0x13#8) (vs := words) (a := addr &&& 0xFFFFFFFC#32)
    split at he
    · next e => cases he; exact hr.of_done e
    · contradiction
    · cases he; exact h
  · split at he
    · have hr := h.runReads (m := 3) (r := .service) (fixed := op = 0x12#8 || op = 0x13#8) (ahead := ahead) (n := words.length)
        (a := addr &&& 0xFFFFFFFC#32)
      split at he
      · next e =>
        cases he
        exact (hr.of_done e).answerLast.emit
      · contradiction
      · cases he; exact h
    · cases he; exact h

/-- A run of the service port, or the state as it was where the run waits. -/
theorem State.Follows.spiRunOr {op : Byte} {addr : W32} {words : List W32} {ahead : Nat} {t : State} (h : s₀.Follows fr s) (ht : s₀.Follows fr t) :
    s₀.Follows fr ((s.spiRun op addr words ahead).getD t) := by
  cases e : s.spiRun op addr words ahead with
  | none => exact ht
  | some u => exact h.spiRun e

theorem execSpiFrame_follows {op : Byte} {addr : W32} {words : List W32} {ahead : Fin 17} (h : s₀.Follows fr s) :
    Ends fr s₀ (execSpiFrame op addr words ahead s) := by
  unfold execSpiFrame
  exact State.Follows.next (.ite h (.ite h.wait (h.spiRunOr h.wait)))

theorem State.Follows.perform {w : Waiting} (h : s₀.Follows fr s) : s₀.Follows fr (s.perform w) := by
  unfold State.perform
  extract_lets t
  have ht : s₀.Follows fr t := h.same
  clear_value t
  split
  · exact ht.spiRunOr h
  · split
    · next v _ =>
      have hb := ht.busWrite (m := w.master) (r := w.req) (addr := w.addr) (full := w.be = 15) (v := v)
      split
      · next e => exact hb.of_done e
      · exact h
      · exact ht
    · have hb := ht.busRead (m := w.master) (r := w.req) (addr := w.addr) (ahead := w.ahead)
      split
      · next e =>
        exact (hb.of_done e).answer
      · exact h
      · exact ht

theorem State.Follows.serveWaiting {n : Nat} (h : s₀.Follows fr s) : s₀.Follows fr (s.serveWaiting n) := by
  induction n generalizing s with
  | zero => exact h
  | succ n ih =>
    unfold State.serveWaiting
    split
    · exact h
    · exact ih h.perform

theorem execSpiTrunc_follows {inFlight : Option W32} (h : s₀.Follows fr s) : Ends fr s₀ (execSpiTrunc inFlight s) := by
  unfold execSpiTrunc
  dsimp only
  refine .ite h.next ?_
  refine State.Follows.next ?_
  refine State.Follows.raise ?_
  split
  · exact h.blindRead
  · exact h

theorem State.Follows.rrpExecute {r : Req} {ws reply : List W32} {ahead : Nat} {t : State} (h : s₀.Follows fr s)
    (he : s.rrpExecute r ws ahead = some (reply, t)) : s₀.Follows fr t := by
  unfold State.rrpExecute at he
  dsimp only at he
  split at he
  · cases he; exact h
  · split at he
    · have hr := h.runReads (m := 2) (r := r) (fixed := bitOf (ws.headD 0) 23) (ahead := ahead) (n := (ws.headD 0).toNat % 2 ^ 12) (a := ws.getD 1 0)
      split at he
      · next e =>
        cases he
        exact (hr.of_done e).answerLast
      · contradiction
    · have hr := h.runWrites (m := 2) (r := r) (fixed := bitOf (ws.headD 0) 23) (vs := ws.drop 2) (a := ws.getD 1 0)
      split at he
      · next e => cases he; exact hr.of_done e
      · contradiction

theorem execRrpRequest_follows {n : Fin 4} {ahead : Fin 17} (h : s₀.Follows fr s) : Ends fr s₀ (execRrpRequest n ahead s) := by
  unfold execRrpRequest
  dsimp only
  split
  · exact h.next
  · split
    · exact h.same.emit.next
    · split
      · next e => exact (h.rrpExecute e).same.emit.next
      · exact h.next

/-! ### The functions of `Sys2Proof/Machine/Masters.lean` -/

theorem State.Follows.cutReads {m : Nat} {r : Req} {as : List W32} (h : s₀.Follows fr s) : s₀.Follows fr (s.cutReads m r as) :=
  h.foldl (fun _ _ h => h.blindRead.branch id (·.setWinAddr))

theorem State.Follows.resetPort {p : Nat} {cut : Cut} {down : Bool} (h : s₀.Follows fr s) : s₀.Follows fr (s.resetPort p cut down) :=
  h.cutReads.portReset

theorem execPerstAssert_follows {p : Fin 2} {cut : Cut} (h : s₀.Follows fr s) : Ends fr s₀ (execPerstAssert p cut s) :=
  (h.branch id (·.resetPort)).next

theorem execPcieLinkDown_follows {p : Fin 2} {cut : Cut} (h : s₀.Follows fr s) : Ends fr s₀ (execPcieLinkDown p cut s) :=
  (h.branch (·.resetPort) id).next

theorem execPcieHotReset_follows {p : Fin 2} {cut : Cut} (h : s₀.Follows fr s) : Ends fr s₀ (execPcieHotReset p cut s) :=
  (h.branch (·.resetPort) id).next

theorem execFunctionLevelReset_follows {p : Fin 2} {cut : Cut} (h : s₀.Follows fr s) : Ends fr s₀ (execFunctionLevelReset p cut s) :=
  (h.branch (·.resetPort) id).next

theorem execBankSupplyFail_follows {b : Bank} {ctx : W32} {cut0 cut1 : Cut} (h : s₀.Follows fr s) :
    Ends fr s₀ (execBankSupplyFail b ctx cut0 cut1 s) :=
  .ite h.next (((((h.branch (·.resetPort) id).branch (·.resetPort) id).bankFail).cycle).next)

/-! ### The functions of `Sys2Proof/Machine/Sluice.lean` -/

theorem execSdiTxFrame_follows {n : Fin 512} (h : s₀.Follows fr s) : Ends fr s₀ (execSdiTxFrame n s) := by
  unfold execSdiTxFrame
  dsimp only
  split
  · exact h.next
  · exact .ite h.next h.same.emit.next

theorem State.Follows.closeInterval {l : Nat} (h : s₀.Follows fr s) : s₀.Follows fr (s.closeInterval l) :=
  h.same.branch (fun h => h.setF.branch (·.setF) id) (·.addWrap.raise.setF.setF)

theorem execCompareIntervalEnd_follows {l : Fin 512} (h : s₀.Follows fr s) : Ends fr s₀ (execCompareIntervalEnd l s) := by
  unfold execCompareIntervalEnd
  refine .ite h.sluiceStop.updateStep.cycle.next ?_
  split
  · exact .ite h.next h.closeInterval.updateStep.cycle.next
  · exact h.next

theorem State.Follows.putOverhead {l : Nat} (h : s₀.Follows fr s) : s₀.Follows fr (s.putOverhead l) := .ite h (h.same.branch (·.addWrap.raise) id)

theorem State.Follows.putData {l hdr : Nat} {p : BitVec 64} (h : s₀.Follows fr s) : s₀.Follows fr (s.putData l hdr p) :=
  h.putOverhead.same.branch (·.addWrap.raise) id

theorem State.Follows.lineBlock {l hdr : Nat} {p : BitVec 64} (h : s₀.Follows fr s) : s₀.Follows fr (s.lineBlock l hdr p) := h.same.emit

theorem State.Follows.lineTake {l n : Nat} (h : s₀.Follows fr s) : s₀.Follows fr (s.lineTake l n) := by
  induction n generalizing s with
  | zero => exact h
  | succ n ih =>
    unfold State.lineTake
    dsimp only
    split
    · exact h
    · exact .ite (ih h.same) (ih (h.same.lineBlock.branch (·.lineBlock) id))

theorem State.Follows.nvlOut {l c : Nat} {u : SlUnit} {n : Nat} (h : s₀.Follows fr s) : s₀.Follows fr (s.nvlOut l c u n) := by
  unfold State.nvlOut
  dsimp only
  refine State.Follows.lineTake ?_
  split
  · exact h.same.putData
  · exact h.putData

theorem State.Follows.sendPattern {l n : Nat} (h : s₀.Follows fr s) : s₀.Follows fr (s.sendPattern l n) := .ite h h.setLane.emit

theorem State.Follows.openInterval {l : Nat} (h : s₀.Follows fr s) : s₀.Follows fr (s.openInterval l) := by
  unfold State.openInterval
  dsimp only
  refine State.Follows.same (s := _) ?_
  split
  · exact .ite h h.closeInterval.updateStep.cycle
  · exact h

theorem State.Follows.sendGap {l : Nat} {u : SlUnit} {cut : Bool} (h : s₀.Follows fr s) : s₀.Follows fr (s.sendGap l u cut) := by
  unfold State.sendGap
  dsimp only
  refine .ite ?_ ?_
  · refine State.Follows.emit ?_
    split
    · exact ((h.branch (·.raise) id).setF).branch (·.count) id
    · exact (h.branch (·.raise) id).setF
  · exact ((h.branch (·.raise) id).setF).emit

theorem State.Follows.dueNervor {l : Nat} (h : s₀.Follows fr s) : s₀.Follows fr (s.dueNervor l).after :=
  (h.branch (·.same) id).branch (·.same) id

theorem State.Follows.dueSdi {l : Nat} (h : s₀.Follows fr s) : s₀.Follows fr (s.dueSdi l).after :=
  h.same.branch (·.addSat.raise) id

theorem State.Follows.dueEth {l : Nat} (h : s₀.Follows fr s) : s₀.Follows fr (s.dueEth l).after := by
  unfold State.dueEth
  split
  · exact h
  · exact h.same

theorem State.Follows.dueAfter {l : Nat} (h : s₀.Follows fr s) : s₀.Follows fr (s.due l).after := by
  unfold State.due
  split
  · exact h.dueNervor
  · exact h.dueSdi
  · exact h.dueEth

theorem State.Follows.takeUnit {l : Nat} {a b : UnitFault} {n : Nat} (h : s₀.Follows fr s) : s₀.Follows fr (s.takeUnit l a b n) := by
  unfold State.takeUnit
  extract_lets k ke q due fa fb ua ub words inGap c mode chan s1 s2 s3 s4 s5 s6 s7 sent s8 s9
  have h3 : s₀.Follows fr s3 := h.dueAfter.same.setF.setF
  clear_value s3
  have h5 : s₀.Follows fr s5 := h3.setF.branch (·.raise) id
  clear_value s5
  have h7 : s₀.Follows fr s7 := (h5.branch (·.addWrap.raise) id).branch (·.addWrap.raise) id
  clear_value s7
  have h9 : s₀.Follows fr s9 := by
    unfold s9
    cases c with
    | gap => exact h7.sendGap
    | unit x rep => exact ((h7.setF.branch (·.raise) id).branch (·.poisonTx) id).emit
  clear_value s9
  exact h9.branch (·.nvlOut) id

theorem execSluiceUnit_follows {l : Fin 512} {a b : UnitFault} {n : Nat} (h : s₀.Follows fr s) : Ends fr s₀ (execSluiceUnit l a b n s) := by
  unfold execSluiceUnit
  dsimp only
  refine .ite h.sendPattern.next ?_
  refine .ite h.next ?_
  split
  · exact h.openInterval.takeUnit.next
  · exact (h.openInterval.takeUnit.branch (·.parityFail) id).next

theorem State.Follows.flushOut {sd : Side} {d : Nat} (h : s₀.Follows fr s) : s₀.Follows fr (s.flushOut sd d) := by
  unfold State.flushOut
  dsimp only
  refine h.foldl fun _ _ h => ?_
  refine .ite h ?_
  refine h.foldl fun _ _ h => ?_
  split
  · exact .ite h.same h
  · exact h

theorem execOutputFrameStart_follows {d : Fin 1024} (h : s₀.Follows fr s) : Ends fr s₀ (execOutputFrameStart d s) :=
  (((h.branch (·.buildFlows) id).eachRouting (fun _ _ h => h.branch (·.flushOut.startFrame) id)).branch (·.openFlows) id).next

/-! ### The functions of `Sys2Proof/Machine/Ticks.lean` -/

theorem State.Follows.tickTime (ht : .tick ∈ fr) (h : s₀.Follows fr s) : s₀.Follows fr s.tickTime := by
  unfold State.tickTime
  refine State.Follows.foldl ?_ fun _ _ h => h.settleTb
  exact { h with tick := fun hn => absurd ht hn }

theorem execTbTick_follows (ht : .tick ∈ fr) (h : s₀.Follows fr s) : Ends fr s₀ (execTbTick s) := by
  unfold execTbTick
  exact (h.branch id fun h => (h.tickTime ht).noteDemand.noteIdle.serveWaiting).next

/-! ### The functions of `Sys2Proof/Machine/Dispatch.lean` -/

/-- The command is a tick of the timing island. -/
def isTick : Instr → Bool
  | .tbTick => true
  | _ => false

theorem isTick_eq_false {c : Instr} (h : c ≠ .tbTick) : isTick c = false := by
  unfold isTick
  split
  · exact absurd rfl h
  · rfl

/-- The parts that a command can do more to than extend, by whether it moves the timing island's count, the routes, and the plans. -/
def freedBy (time routes plans : Bool) : List Part :=
  (if time then [.tick] else []) ++ (if routes then [.routes] else []) ++ if plans then [.inPlan, .outPlan, .portPlan, .rights] else []

/-- The parts that a command can do more to than extend. -/
def freed (c : Instr) : List Part := freedBy (stopsTime c || isTick c) (movesRoutes c) (movesPlans c)

/-- Every command's next state follows the one before. -/
theorem exec_follows : (c : Instr) → (s : State) → Ends (freed c) s (exec c s)
  | .regWrite .., s => execRegWrite_follows (s.follows_refl _)
  | .twinWriteAccept .., s => execTwinWriteAccept_follows (s.follows_refl _)
  | .twinWriteDelivery, s => execTwinWriteDelivery_follows (s.follows_refl _)
  | .aoResetAssert, s => execAoResetAssert_follows (fun _ hq => hq) (s.follows_refl _)
  | .aoResetRelease, s => execAoResetRelease_follows (List.mem_singleton_self _) (s.follows_refl _)
  | .aoDip, s => execAoDip_follows (fun _ hq => hq) (s.follows_refl _)
  | .bootOtpChecked .., s => execBootOtpChecked_follows (s.follows_refl _)
  | .bootImagesLoaded .., s => execBootImagesLoaded_follows (fun _ hq => hq) (s.follows_refl _)
  | .sideFwLoad .., s => execSideFwLoad_follows (s.follows_refl _)
  | .bankSupplyFail .., s => execBankSupplyFail_follows (s.follows_refl _)
  | .bankSupplyReturn .., s => execBankSupplyReturn_follows (s.follows_refl _)
  | .sidePowerGood .., s => execSidePowerGood_follows (s.follows_refl _)
  | .pgLate .., s => execPgLate_follows (s.follows_refl _)
  | .perstAssert .., s => execPerstAssert_follows (s.follows_refl _)
  | .pcieLinkDown .., s => execPcieLinkDown_follows (s.follows_refl _)
  | .pcieHotReset .., s => execPcieHotReset_follows (s.follows_refl _)
  | .functionLevelReset .., s => execFunctionLevelReset_follows (s.follows_refl _)
  | .thermalSensorRead .., s => execThermalSensorRead_follows (s.follows_refl _)
  | .hbmStartTrainingDone .., s => execHbmStartTrainingDone_follows (s.follows_refl _)
  | .heartbeat .., s => execHeartbeat_follows (s.follows_refl _)
  | .leaseExpiry, s => execLeaseExpiry_follows (s.follows_refl _)
  | .assayLineRise .., s => execAssayLineRise_follows (s.follows_refl _)
  | .sluiceUnit .., s => execSluiceUnit_follows (s.follows_refl _)
  | .compareIntervalEnd .., s => execCompareIntervalEnd_follows (s.follows_refl _)
  | .standbyStepTimeout, s => execStandbyStepTimeout_follows (s.follows_refl _)
  | .claimConflict .., s => execClaimConflict_follows (s.follows_refl _)
  | .voteMismatch .., s => execVoteMismatch_follows (s.follows_refl _)
  | .plannedSwitchover .., s => execPlannedSwitchover_follows (s.follows_refl _)
  | .switchoverCancel .., s => execSwitchoverCancel_follows (s.follows_refl _)
  | .resetSideA .., s => execResetSideA_follows (s.follows_refl _)
  | .resetSideB .., s => execResetSideB_follows (s.follows_refl _)
  | .switchoverDue, s => execSwitchoverDue_follows (s.follows_refl _)
  | .watchdogService .., s => execWatchdogService_follows (s.follows_refl _)
  | .watchdogExpiry .., s => execWatchdogExpiry_follows (s.follows_refl _)
  | .standbyClassSet .., s => execStandbyClassSet_follows (s.follows_refl _)
  | .resyncLoadDone .., s => execResyncLoadDone_follows (s.follows_refl _)
  | .resyncFillDone .., s => execResyncFillDone_follows (s.follows_refl _)
  | .ringFrame .., s => execRingFrame_follows (s.follows_refl _)
  | .ringTimeout, s => execRingTimeout_follows (s.follows_refl _)
  | .harifBypassOpen, s => execHarifBypassOpen_follows (s.follows_refl _)
  | .quietTimerExpiry .., s => execQuietTimerExpiry_follows (s.follows_refl _)
  | .unlatchA .., s => execUnlatchA_follows (s.follows_refl _)
  | .unlatchB .., s => execUnlatchB_follows (s.follows_refl _)
  | .firstClr .., s => execFirstClr_follows (s.follows_refl _)
  | .fwFatal .., s => execFwFatal_follows (s.follows_refl _)
  | .fwDegrade .., s => execFwDegrade_follows (s.follows_refl _)
  | .fwNotice .., s => execFwNotice_follows (s.follows_refl _)
  | .take .., s => execTake_follows (s.follows_refl _)
  | .salvoCommit .., s => execSalvoCommit_follows (s.follows_refl _)
  | .takeCancel .., s => execTakeCancel_follows (s.follows_refl _)
  | .salvoCancel .., s => execSalvoCancel_follows (s.follows_refl _)
  | .commitTick, s => execCommitTick_follows (s.follows_refl _)
  | .timedTakeStamp, s => execTimedTakeStamp_follows (s.follows_refl _)
  | .takeExecute .., s => execTakeExecute_follows (List.mem_singleton_self _) (s.follows_refl _)
  | .salvoClear .., s => execSalvoClear_follows (s.follows_refl _)
  | .salvoRelease .., s => execSalvoRelease_follows (s.follows_refl _)
  | .salvoAppend .., s => execSalvoAppend_follows (s.follows_refl _)
  | .offsetJump .., s => execOffsetJump_follows (s.follows_refl _)
  | .outputFrameStart .., s => execOutputFrameStart_follows (s.follows_refl _)
  | .captureFrame .., s => execCaptureFrame_follows (s.follows_refl _)
  | .captureEnable .., s => execCaptureEnable_follows (s.follows_refl _)
  | .regionApply, s => execRegionApply_follows (fun _ hq => hq) (s.follows_refl _)
  | .inputSof .., s => execInputSof_follows (s.follows_refl _)
  | .mergeBlock .., s => execMergeBlock_follows (s.follows_refl _)
  | .gapTimeout .., s => execGapTimeout_follows (s.follows_refl _)
  | .bondUnderrun .., s => execBondUnderrun_follows (s.follows_refl _)
  | .bondRejoin .., s => execBondRejoin_follows (s.follows_refl _)
  | .seamBlockPlace .., s => execSeamBlockPlace_follows (s.follows_refl _)
  | .benchDecision .., s => execBenchDecision_follows (s.follows_refl _)
  | .benchFrameWrite .., s => execBenchFrameWrite_follows (s.follows_refl _)
  | .benchFrameStart .., s => execBenchFrameStart_follows (s.follows_refl _)
  | .fsyCfgWrite .., s => execFsyCfgWrite_follows (s.follows_refl _)
  | .sampleBoundary, s => execSampleBoundary_follows (s.follows_refl _)
  | .changeTimeout .., s => execChangeTimeout_follows (s.follows_refl _)
  | .audRouteChange .., s => execAudRouteChange_follows (s.follows_refl _)
  | .audDelayChange .., s => execAudDelayChange_follows (s.follows_refl _)
  | .deembedPacket .., s => execDeembedPacket_follows (s.follows_refl _)
  | .tdmArm .., s => execTdmArm_follows (s.follows_refl _)
  | .tdmStop .., s => execTdmStop_follows (s.follows_refl _)
  | .tdmFire .., s => execTdmFire_follows (s.follows_refl _)
  | .tdmTrigger, s => execTdmTrigger_follows (s.follows_refl _)
  | .tdmFrameSync .., s => execTdmFrameSync_follows (s.follows_refl _)
  | .tdmGlitch .., s => execTdmGlitch_follows (s.follows_refl _)
  | .fsErr .., s => execFsErr_follows (s.follows_refl _)
  | .tdmClockMissing .., s => execTdmClockMissing_follows (s.follows_refl _)
  | .rateChange .., s => execRateChange_follows (s.follows_refl _)
  | .clkBack .., s => execClkBack_follows (s.follows_refl _)
  | .headFrame .., s => execHeadFrame_follows (s.follows_refl _)
  | .tileBlock .., s => execTileBlock_follows (s.follows_refl _)
  | .tileFrameEligible .., s => execTileFrameEligible_follows (s.follows_refl _)
  | .alyLoadData .., s => execAlyLoadData_follows (s.follows_refl _)
  | .flipGfx .., s => execFlipGfx_follows (s.follows_refl _)
  | .flipCursor .., s => execFlipCursor_follows (s.follows_refl _)
  | .flipLut .., s => execFlipLut_follows (s.follows_refl _)
  | .alyProtFlip .., s => execAlyProtFlip_follows (s.follows_refl _)
  | .headBoundary .., s => execHeadBoundary_follows (s.follows_refl _)
  | .tbTick, s => execTbTick_follows (List.mem_singleton_self _) (s.follows_refl _)
  | .cadenceFrameStart .., s => execCadenceFrameStart_follows (s.follows_refl _)
  | .tbRateWrite .., s => execTbRateWrite_follows (s.follows_refl _)
  | .tbNsRead .., s => execTbNsRead_follows (s.follows_refl _)
  | .tbStep .., s => execTbStep_follows (s.follows_refl _)
  | .compareArm .., s => execCompareArm_follows (s.follows_refl _)
  | .compareFire .., s => execCompareFire_follows (s.follows_refl _)
  | .pulseEnd .., s => execPulseEnd_follows (s.follows_refl _)
  | .ptpTxtsRead .., s => execPtpTxtsRead_follows (s.follows_refl _)
  | .portCalibrated .., s => execPortCalibrated_follows (s.follows_refl _)
  | .refCandEvent .., s => execRefCandEvent_follows (s.follows_refl _)
  | .refCandStop .., s => execRefCandStop_follows (s.follows_refl _)
  | .refWindowEnd .., s => execRefWindowEnd_follows (s.follows_refl _)
  | .refQualify .., s => execRefQualify_follows (s.follows_refl _)
  | .refHoldoffEnd .., s => execRefHoldoffEnd_follows (s.follows_refl _)
  | .refLockMet, s => execRefLockMet_follows (s.follows_refl _)
  | .refModeWrite .., s => execRefModeWrite_follows (s.follows_refl _)
  | .realign .., s => execRealign_follows (s.follows_refl _)
  | .realignJump .., s => execRealignJump_follows (s.follows_refl _)
  | .holdOscStop, s => execHoldOscStop_follows (s.follows_refl _)
  | .holdOscReturn, s => execHoldOscReturn_follows (s.follows_refl _)
  | .losAssert .., s => execLosAssert_follows (s.follows_refl _)
  | .losClear .., s => execLosClear_follows (s.follows_refl _)
  | .lolAssert .., s => execLolAssert_follows (s.follows_refl _)
  | .lolClear .., s => execLolClear_follows (s.follows_refl _)
  | .qpllUnlock .., s => execQpllUnlock_follows (s.follows_refl _)
  | .qpllRelock .., s => execQpllRelock_follows (s.follows_refl _)
  | .lanePark .., s => execLanePark_follows (s.follows_refl _)
  | .laneDemand .., s => execLaneDemand_follows (s.follows_refl _)
  | .wake .., s => execWake_follows (s.follows_refl _)
  | .laneTxeqWrite .., s => execLaneTxeqWrite_follows (s.follows_refl _)
  | .laneTestWrite .., s => execLaneTestWrite_follows (s.follows_refl _)
  | .inject .., s => execInject_follows (s.follows_refl _)
  | .berRead .., s => execBerRead_follows (s.follows_refl _)
  | .checkerSync .., s => execCheckerSync_follows (s.follows_refl _)
  | .checkerSyncLoss .., s => execCheckerSyncLoss_follows (s.follows_refl _)
  | .slip .., s => execSlip_follows (s.follows_refl _)
  | .eyeMeasure .., s => execEyeMeasure_follows (s.follows_refl _)
  | .lockFail .., s => execLockFail_follows (s.follows_refl _)
  | .sfLock .., s => execSfLock_follows (s.follows_refl _)
  | .sfLockLost .., s => execSfLockLost_follows (s.follows_refl _)
  | .nvlTrainMsg .., s => execNvlTrainMsg_follows (s.follows_refl _)
  | .trainTimeout .., s => execTrainTimeout_follows (s.follows_refl _)
  | .retrain .., s => execRetrain_follows (s.follows_refl _)
  | .nvlFecModeWrite .., s => execNvlFecModeWrite_follows (s.follows_refl _)
  | .rollReq .., s => execRollReq_follows (s.follows_refl _)
  | .rollCall .., s => execRollCall_follows (s.follows_refl _)
  | .gone .., s => execGone_follows (s.follows_refl _)
  | .nvlCrcBlock .., s => execNvlCrcBlock_follows (s.follows_refl _)
  | .nvlCodeword .., s => execNvlCodeword_follows (s.follows_refl _)
  | .alarm .., s => execAlarm_follows (s.follows_refl _)
  | .laneData .., s => execLaneData_follows (s.follows_refl _)
  | .peerGap .., s => execPeerGap_follows (s.follows_refl _)
  | .nvlBypassForward .., s => execNvlBypassForward_follows (s.follows_refl _)
  | .sdiRasterLock .., s => execSdiRasterLock_follows (s.follows_refl _)
  | .sdiRasterUnlock .., s => execSdiRasterUnlock_follows (s.follows_refl _)
  | .sdiFrame .., s => execSdiFrame_follows (s.follows_refl _)
  | .sdiLine .., s => execSdiLine_follows (s.follows_refl _)
  | .sdiAncPacket .., s => execSdiAncPacket_follows (s.follows_refl _)
  | .sdiRateDetect .., s => execSdiRateDetect_follows (s.follows_refl _)
  | .linkSkew .., s => execLinkSkew_follows (s.follows_refl _)
  | .sdiTxFrame .., s => execSdiTxFrame_follows (s.follows_refl _)
  | .ethFrameReceive .., s => execEthFrameReceive_follows (s.follows_refl _)
  | .ethCrxRead .., s => execEthCrxRead_follows (s.follows_refl _)
  | .packetLaunch .., s => execPacketLaunch_follows (s.follows_refl _)
  | .controlGap .., s => execControlGap_follows (s.follows_refl _)
  | .ctxData .., s => execCtxData_follows (s.follows_refl _)
  | .ctxCommit .., s => execCtxCommit_follows (s.follows_refl _)
  | .ctxAbort .., s => execCtxAbort_follows (s.follows_refl _)
  | .controlFrameSend .., s => execControlFrameSend_follows (s.follows_refl _)
  | .ethSnap .., s => execEthSnap_follows (s.follows_refl _)
  | .pauseReceive .., s => execPauseReceive_follows (s.follows_refl _)
  | .pauseExpire .., s => execPauseExpire_follows (s.follows_refl _)
  | .rrpRequest .., s => execRrpRequest_follows (s.follows_refl _)
  | .notifySend .., s => execNotifySend_follows (s.follows_refl _)
  | .notifyRetry .., s => execNotifyRetry_follows (s.follows_refl _)
  | .notifyAck .., s => execNotifyAck_follows (s.follows_refl _)
  | .linkUp .., s => execLinkUp_follows (s.follows_refl _)
  | .linkDown .., s => execLinkDown_follows (s.follows_refl _)
  | .flowAddrWrite .., s => execFlowAddrWrite_follows (s.follows_refl _)
  | .flowEnableWrite .., s => execFlowEnableWrite_follows (s.follows_refl _)
  | .hbmRefreshBoundary .., s => execHbmRefreshBoundary_follows (s.follows_refl _)
  | .hbmRefreshIssue .., s => execHbmRefreshIssue_follows (s.follows_refl _)
  | .hbmTempRead .., s => execHbmTempRead_follows (s.follows_refl _)
  | .hbmRetrainPass .., s => execHbmRetrainPass_follows (s.follows_refl _)
  | .parAlert .., s => execParAlert_follows (s.follows_refl _)
  | .hbmUncorrRead .., s => execHbmUncorrRead_follows (s.follows_refl _)
  | .hbmRequestPromote .., s => execHbmRequestPromote_follows (s.follows_refl _)
  | .late .., s => execLate_follows (s.follows_refl _)
  | .hbmActivate .., s => execHbmActivate_follows (s.follows_refl _)
  | .hbmRhWindow .., s => execHbmRhWindow_follows (s.follows_refl _)
  | .hbmScrub .., s => execHbmScrub_follows (s.follows_refl _)
  | .sramScrub .., s => execSramScrub_follows (s.follows_refl _)
  | .hbmSelfRefreshExit .., s => execHbmSelfRefreshExit_follows (s.follows_refl _)
  | .hopPush .., s => execHopPush_follows (s.follows_refl _)
  | .hopCommit .., s => execHopCommit_follows (s.follows_refl _)
  | .hopAbort .., s => execHopAbort_follows (s.follows_refl _)
  | .hopPop .., s => execHopPop_follows (s.follows_refl _)
  | .hopCfgWrite .., s => execHopCfgWrite_follows (s.follows_refl _)
  | .strLockGo .., s => execStrLockGo_follows (s.follows_refl _)
  | .strLockGrant .., s => execStrLockGrant_follows (s.follows_refl _)
  | .strLockRelease .., s => execStrLockRelease_follows (s.follows_refl _)
  | .lockForced .., s => execLockForced_follows (s.follows_refl _)
  | .winDataAccess .., s => execWinDataAccess_follows (s.follows_refl _)
  | .winAddrWrite .., s => execWinAddrWrite_follows (s.follows_refl _)
  | .spiFrame .., s => execSpiFrame_follows (s.follows_refl _)
  | .spiTrunc .., s => execSpiTrunc_follows (s.follows_refl _)
  | .mbxLockRead .., s => execMbxLockRead_follows (s.follows_refl _)
  | .mbxMsgWrite .., s => execMbxMsgWrite_follows (s.follows_refl _)
  | .mbxDoorbell .., s => execMbxDoorbell_follows (s.follows_refl _)
  | .mbxAckWrite .., s => execMbxAckWrite_follows (s.follows_refl _)
  | .mbxRelease .., s => execMbxRelease_follows (s.follows_refl _)
  | .mbxCfgWrite .., s => execMbxCfgWrite_follows (s.follows_refl _)
  | .evtStatusWrite .., s => execEvtStatusWrite_follows (s.follows_refl _)
  | .evtEnableWrite .., s => execEvtEnableWrite_follows (s.follows_refl _)
  | .evtRouteWrite .., s => execEvtRouteWrite_follows (s.follows_refl _)
  | .evtSetWrite .., s => execEvtSetWrite_follows (s.follows_refl _)
  | .eventFire, s => execEventFire_follows (s.follows_refl _)
  | .msixUnblock .., s => execMsixUnblock_follows (s.follows_refl _)
  | .updBegin, s => execUpdBegin_follows (s.follows_refl _)
  | .updData, s => execUpdData_follows (s.follows_refl _)
  | .updPieceEnd .., s => execUpdPieceEnd_follows (s.follows_refl _)
  | .updStatus, s => execUpdStatus_follows (s.follows_refl _)
  | .updVerify .., s => execUpdVerify_follows (s.follows_refl _)
  | .updActivate .., s => execUpdActivate_follows (s.follows_refl _)
  | .updConfirm .., s => execUpdConfirm_follows (s.follows_refl _)
  | .updAbort, s => execUpdAbort_follows (s.follows_refl _)
  | .updApply, s => execUpdApply_follows (s.follows_refl _)
  | .updAttest, s => execUpdAttest_follows (s.follows_refl _)
  | .trialDone, s => execTrialDone_follows (s.follows_refl _)
  | .secondDone, s => execSecondDone_follows (s.follows_refl _)
  | .sideImageStep, s => execSideImageStep_follows (s.follows_refl _)
  | .sideImageTimeout, s => execSideImageTimeout_follows (s.follows_refl _)
  | .secClaim .., s => execSecClaim_follows (s.follows_refl _)
  | .secTransfer .., s => execSecTransfer_follows (s.follows_refl _)
  | .debugUnlock .., s => execDebugUnlock_follows (s.follows_refl _)
  | .relock .., s => execRelock_follows (s.follows_refl _)
  | .debugUnlockExpiry, s => execDebugUnlockExpiry_follows (s.follows_refl _)
  | .parkLaneDeclWrite .., s => execParkLaneDeclWrite_follows (s.follows_refl _)
  | .parkEngDeclWrite .., s => execParkEngDeclWrite_follows (s.follows_refl _)
  | .parkHostWrite .., s => execParkHostWrite_follows (s.follows_refl _)
  | .engineIdleDeep .., s => execEngineIdleDeep_follows (s.follows_refl _)
  | .engineDemand .., s => execEngineDemand_follows (s.follows_refl _)
  | .bypassSupplyLoss, s => execBypassSupplyLoss_follows (s.follows_refl _)
  | .pcieLinkUp .., s => execPcieLinkUp_follows (s.follows_refl _)
  | .blockLockLost .., s => execBlockLockLost_follows (s.follows_refl _)

/-- A tick of the timing island counts one. -/
theorem tick_of_tbTick {s t : State} (h : exec .tbTick s = .next t) : t.tick = s.tick ∨ t.tick = s.tick + 1 := by
  have ht : s.tickTime.tick = s.tick + 1 := by
    unfold State.tickTime
    exact ((State.follows_refl [] _).foldl fun _ _ h => h.settleTb).tick (by decide)
  have hw := ((State.follows_refl [] s.tickTime).noteDemand.noteIdle.serveWaiting (n := s.waiting.length)).tick (by decide)
  cases e : s.aoReset with
  | true =>
    simp only [exec, execTbTick, e, if_true] at h
    cases h
    exact .inl rfl
  | false =>
    simp only [exec, execTbTick, e] at h
    cases h
    exact .inr (hw.trans ht)

theorem tick_notMem_freedBy : ∀ r p, Part.tick ∉ freedBy false r p := by decide

theorem routes_notMem_freedBy : ∀ t p, Part.routes ∉ freedBy t false p := by decide

theorem planPart_notMem_freedBy : ∀ t r, ∀ q ∈ [Part.inPlan, .outPlan, .portPlan, .rights], q ∉ freedBy t r false := by decide

theorem tick_notMem_freed {c : Instr} (h : stopsTime c = false) (hc : c ≠ .tbTick) : Part.tick ∉ freed c := by
  unfold freed
  rw [h, isTick_eq_false hc]
  exact tick_notMem_freedBy _ _

theorem routes_notMem_freed {c : Instr} (h : movesRoutes c = false) : Part.routes ∉ freed c := by
  unfold freed
  rw [h]
  exact routes_notMem_freedBy _ _

theorem planPart_notMem_freed {c : Instr} {p : Part} (h : movesPlans c = false) (hp : p ∈ [Part.inPlan, .outPlan, .portPlan, .rights]) :
    p ∉ freed c := by
  unfold freed
  rw [h]
  exact planPart_notMem_freedBy _ _ _ hp

/-- Settles O5: every command's function is composed of updates each of which only extends what may be extended. -/
theorem onlyTheirCommandsMoveRoutesPlansAndTime : Obligations.OnlyTheirCommandsMoveRoutesPlansAndTime := by
  unfold Obligations.OnlyTheirCommandsMoveRoutesPlansAndTime
  intro c s t h
  have hf : s.Follows (freed c) t := by
    have := exec_follows c s
    rwa [h] at this
  refine ⟨hf.pending, hf.out, hf.owners, hf.svn, fun hc => ?_, fun hc => hf.routes (routes_notMem_freed hc), fun hc => ?_⟩
  · by_cases e : c = .tbTick
    · subst e
      exact (tick_of_tbTick h).imp_right fun ht => ⟨rfl, ht⟩
    · exact .inl (hf.tick (tick_notMem_freed hc e))
  · have hp {p : Part} := planPart_notMem_freed (p := p) hc
    exact ⟨hf.inPlan (hp (by decide)), hf.outPlan (hp (by decide)), hf.portPlan (hp (by decide)), hf.rights (hp (by decide))⟩

end Sys2Proof.Machine
end

section
/-! # Twin writes (O49) -/
namespace Sys2Proof.Machine
set_option Elab.async false

/-! ## A delivery -/

section
variable (s : State) (g : Side → RegKey) (v : W32)

/-- The two writes of one register for each Side that runs. -/
theorem State.eachSide_wr_eq : (s.eachSide fun sd s => s.wr (g sd) v) =
    if s.live .B then (if s.live .A then s.wr (g .A) v else s).wr (g .B) v else if s.live .A then s.wr (g .A) v else s := by
  have h : (if s.live .A = true then s.wr (g .A) v else s).live .B = s.live .B := by
    split
    · exact s.live_wr _ _ _
    · rfl
  unfold State.eachSide
  dsimp only
  rw [h]

theorem State.rd_eachSide_wr_of_live {sd : Side} (h : s.live sd = true) :
    (s.eachSide fun sd s => s.wr (g sd) v).rd (g sd) = v := by
  rw [State.eachSide_wr_eq]
  cases sd with
  | A =>
    rw [if_pos h]
    split <;> simp [State.rd_wr]
  | B => simp [h]

theorem State.rd_eachSide_wr_of_ne {k : RegKey} (h : ∀ sd, s.live sd = true → k ≠ g sd) : (s.eachSide fun sd s => s.wr (g sd) v).rd k = s.rd k := by
  rw [State.eachSide_wr_eq]
  have ha : (if s.live .A = true then s.wr (g .A) v else s).rd k = s.rd k := by
    split
    · next hl => exact s.rd_wr_ne (h .A hl) v
    · rfl
  split
  · next hl => exact (State.rd_wr_ne _ (h .B hl) v).trans ha
  · exact ha

theorem State.changesOnly_eachSide_wr {ps : List Part} {t : State} (hs : t.changesOnly ps s) (h : .regs ∈ ps) :
    t.changesOnly ps (s.eachSide fun sd s => s.wr (g sd) v) := by
  rw [State.eachSide_wr_eq]
  have ha : t.changesOnly ps (if s.live .A = true then s.wr (g .A) v else s) := by
    split
    · exact State.changesOnly_wr _ _ hs h
    · exact hs
  split
  · exact State.changesOnly_wr _ _ ha h
  · exact ha
end

/-! ## What a granted write of a twin register does -/

/-- A granted access's requester has no access waiting, and no other requester locks the target. -/
theorem State.granted_iff {s : State} {r : Req} {t : Target} :
    s.granted r t ↔ s.aoReset = false ∧ pathOf (reqMaster r) t = true ∧ s.hasWaiting r = false ∧ s.lockedOut r t.num = false := by
  simp only [State.granted, State.mustWait, hasPath, Bool.or_eq_false_iff]

/-- A twin register's whole-word write at T5 is accepted once, after its beat is counted. -/
theorem State.performWrite_twin {s : State} {m : Nat} {r : Req} {k : RegKey} {v : W32} (hk : k.name.row.twin = true) (hp : s.noPage k = false) :
    s.performWrite m r .twin k true v = (s.countBeat m r 5).acceptTwin k v := by
  have hw : k.name ≠ .WIN_DATA := by
    intro h
    rw [h] at hk
    exact absurd hk (by decide)
  have hn : (s.countBeat m r 5).noPage k = false := hp
  simp [State.performWrite, hk, hw, hn, Target.side, Target.num, State.idleTarget]

theorem State.busWrite_twin {s : State} {r : Req} {a : W32} {k : RegKey} {v : W32} (hl : locate r (a.toNat / 4 * 4) = .reg .twin k)
    (hk : k.name.row.twin = true) (hg : s.granted r .twin) (hw : s.mayWrite r k v = true) (hp : s.noPage k = false) :
    s.busWrite (reqMaster r) r a true v = .done 0 ((s.countBeat (reqMaster r) r 5).acceptTwin k v) := by
  obtain ⟨h0, hpath, -, hlock⟩ := State.granted_iff.mp hg
  have hd : k.name ≠ .WIN_DATA := by
    intro h
    rw [h] at hk
    exact absurd hk (by decide)
  simp [State.busWrite, h0, hl, hpath, hw, hlock, hd, State.performWrite_twin hk hp]

theorem twinAddr_toNat (o : BitVec 23) : (w32 (0x2000000 + o.toNat)).toNat / 4 * 4 = 0x2000000 + o.toNat / 4 * 4 := by
  have := o.isLt
  simp only [w32, BitVec.toNat_ofNat]
  omega

theorem State.tick_add_two_le_twinDue (s : State) : s.tick + 2 ≤ s.twinDue := by
  unfold State.twinDue
  split
  · exact le_rfl
  · exact le_max_left _ _

theorem State.twinDue_of_nil {s : State} (h : s.twinQ = []) : s.twinDue = s.tick + 2 := by
  simp [State.twinDue, h]

theorem execTwinWriteAccept_granted {r : Req} {o : BitVec 23} {v : W32} {k : RegKey} {s : State}
    (hl : locate r (0x2000000 + o.toNat / 4 * 4) = .reg .twin k) (hk : k.name.row.twin = true) (hg : s.granted r .twin)
    (hw : s.mayWrite r k v = true) (hp : s.noPage k = false) :
    exec (.twinWriteAccept r o v) s = .next ((s.countBeat (reqMaster r) r 5).acceptTwin k v) := by
  have hb := State.busWrite_twin (a := w32 (0x2000000 + o.toNat)) (by rwa [twinAddr_toNat]) hk hg hw hp
  obtain ⟨-, -, hwait, -⟩ := State.granted_iff.mp hg
  simp [exec, execTwinWriteAccept, State.writeBeat, hwait, hb]

theorem State.changesOnly_acceptTwin {ps : List Part} {s t : State} (k : RegKey) (v : W32) (hs : t.changesOnly ps s) (h : .twinQ ∈ ps) :
    t.changesOnly ps (s.acceptTwin k v) := by
  refine State.changesOnly_trans hs fun p hp => ?_
  cases p <;> first
    | rfl
    | exact ⟨rfl, rfl⟩
    | exact ⟨rfl, rfl, rfl⟩
    | exact absurd h hp


/-! ## The delivery of a twin register's write -/

/-- The registers whose delivery only puts the value into the snapshot and into the Sides that run. -/
def plainTwins : List RegName := [.XPT_OUT_CFG, .SEAM_CFG, .XPT_GEN_CTL, .XPT_GEN_LEVEL, .ALY_HEAD_CFG]

theorem State.deliverTwin_plain {s : State} {n : RegName} {i : Nat} {w : W32} (h : n ∈ plainTwins) :
    s.deliverTwin (R1 n i) w = s.deliver (R1 n i) (w &&& w32 n.row.rw) := by
  simp only [plainTwins, List.mem_cons, List.not_mem_nil, or_false] at h
  obtain rfl | rfl | rfl | rfl | rfl := h <;> rfl

theorem execTwinWriteDelivery_single {s : State} {k : RegKey} {v : W32} {due : Nat} (hq : s.twinQ = [(k, v, due)]) (hd : due ≤ s.tick) :
    exec .twinWriteDelivery s = .next ({ s with twinQ := [] }.deliverTwin k v) := by
  simp [exec, execTwinWriteDelivery, hq, hd]

/-- What a delivery answers: the snapshot has the value, and each Side that runs. -/
theorem State.deliver_eq (s : State) (n : RegName) (i : Nat) (v : W32) :
    s.deliver (R1 n i) v =
      { s with twins := Sparse.put RegKey.lt RegKey.reset s.twins (R1 n i) v }.eachSide fun sd s => s.wr (RS n sd i) v := by
  unfold State.deliver
  dsimp only
  congr 1
  funext sd u
  rw [Nat.mul_zero, Nat.zero_add]

@[simp] theorem State.eachSide_wr_twins (s : State) (g : Side → RegKey) (v : W32) : (s.eachSide fun sd s => s.wr (g sd) v).twins = s.twins := by
  rw [State.eachSide_wr_eq]
  split <;> split <;> rfl

@[simp] theorem State.eachSide_wr_twinQ (s : State) (g : Side → RegKey) (v : W32) : (s.eachSide fun sd s => s.wr (g sd) v).twinQ = s.twinQ := by
  rw [State.eachSide_wr_eq]
  split <;> split <;> rfl

theorem State.twins_deliver (s : State) (n : RegName) (i : Nat) (v : W32) (x : RegKey) :
    Sparse.get RegKey.reset (s.deliver (R1 n i) v).twins x = if x = R1 n i then v else Sparse.get RegKey.reset s.twins x := by
  rw [State.deliver_eq, State.eachSide_wr_twins, Sparse.get_put]

theorem State.rd_deliver_of_live (s : State) (n : RegName) (i : Nat) (v : W32) {sd : Side} (h : s.live sd = true) :
    (s.deliver (R1 n i) v).rd (RS n sd i) = v := by
  rw [State.deliver_eq]
  exact State.rd_eachSide_wr_of_live _ (fun sd => RS n sd i) v (by cases sd <;> exact h)

theorem State.rd_deliver_of_ne (s : State) (n : RegName) (i : Nat) (v : W32) {k : RegKey} (h : ∀ sd, s.live sd = true → k ≠ RS n sd i) :
    (s.deliver (R1 n i) v).rd k = s.rd k := by
  rw [State.deliver_eq]
  exact State.rd_eachSide_wr_of_ne _ (fun sd => RS n sd i) v fun sd hl => h sd (by cases sd <;> exact hl)

theorem State.changesOnly_twins {s : State} {m : List (RegKey × W32)} {q : List (RegKey × W32 × Nat)} :
    s.changesOnly [.twins, .twinQ] { s with twins := m, twinQ := q } := by
  intro p hp
  cases p <;> first
    | rfl
    | exact ⟨rfl, rfl⟩
    | exact ⟨rfl, rfl, rfl⟩
    | exact absurd (by decide) hp

theorem State.changesOnly_delivery (s : State) (n : RegName) (i : Nat) (v : W32) :
    s.changesOnly [.regs, .twins, .twinQ] ({ s with twinQ := [] }.deliver (R1 n i) v) := by
  rw [State.deliver_eq]
  exact State.changesOnly_eachSide_wr _ _ _ (State.changesOnly_mono State.changesOnly_twins (by decide)) (by decide)

/-- Settles O49: the acceptance is the granted case of a write beat, the delivery of one of the plain twin registers a write per Side that runs. -/
theorem twinWritesReachBothSidesTwoTicksLater : Obligations.TwinWritesReachBothSidesTwoTicksLater := by
  unfold Obligations.TwinWritesReachBothSidesTwoTicksLater
  refine ⟨fun r o v k s hl hk hg hw hp => ?_, fun i n v due s hn hq hd => ?_⟩
  · exact ⟨_, execTwinWriteAccept_granted hl hk hg hw hp, rfl, s.tick_add_two_le_twinDue, State.twinDue_of_nil,
      State.changesOnly_acceptTwin _ _ (State.changesOnly_countBeat _ _ _ (State.changesOnly_refl _ s) (by decide)) (by decide)⟩
  · have he := execTwinWriteDelivery_single hq hd
    rw [State.deliverTwin_plain hn] at he
    refine ⟨_, he, ?_, ?_, fun sd hs => State.rd_deliver_of_live _ _ _ _ hs, fun x hx => ?_, fun x hx => ?_, s.changesOnly_delivery _ _ _⟩
    · rw [State.deliver_eq, State.eachSide_wr_twinQ]
    · rw [State.twin, State.twins_deliver, if_pos rfl]
    · rw [State.twins_deliver, if_neg hx]
    · exact State.rd_deliver_of_ne _ _ _ _ fun sd hl hc => hx ⟨sd, hl, hc⟩

end Sys2Proof.Machine
end


section
/-! # What a change of the referee's state can move (O20, O59)

The frame of the functions that move the lease, reset a Side or sample Assay's lines: a lemma per function says which registers and parts may differ,
that RFE_EVT only gains bits, and which fields of RFE_STATE stand. -/
namespace Sys2Proof.Machine
set_option Elab.async false

/-! ## What may move between two states -/

/-- Two fields of a word have no bit in common. -/
def Fld.apart (f g : Fld) : Bool := decide (f.lo + f.w ≤ 32) && decide (g.lo + g.w ≤ 32) && (decide (f.lo + f.w ≤ g.lo) || decide (g.lo + g.w ≤ f.lo))

theorem State.fld_setF_of_apart (s : State) (k : RegKey) {f g : Fld} (v : Nat) (h : f.apart g = true) : (s.setF k f v).fld k g = s.fld k g := by
  simp only [Fld.apart, Bool.and_eq_true, Bool.or_eq_true, decide_eq_true_eq] at h
  exact s.fld_setF_apart k f g v h.1.1 h.1.2 h.2

/-- The registers that are free to move: those of the names `ns`, and the Side registers of the Sides in `xs`. -/
def Region (xs : List Side) (ns : List RegName) (k : RegKey) : Prop :=
  k.name ∈ ns ∨ k.name.row.space = .side ∧ ∃ x ∈ xs, ofSide x k.bank = true

/-- From `s` to `t` only registers of the region and the parts `ps` move; RFE_EVT only gains bits, and the fields `fs` of RFE_STATE stand. -/
structure State.Shifts (xs : List Side) (ns : List RegName) (ps : List Part) (fs : List Fld) (s t : State) : Prop where
  regs : s.regsSame (Region xs ns) t
  parts : s.changesOnly ps t
  events : ∃ m, t.rd (R0 .RFE_EVT) = s.rd (R0 .RFE_EVT) ||| m
  fields : ∀ f ∈ fs, t.fld (R0 .RFE_STATE) f = s.fld (R0 .RFE_STATE) f

section
variable {xs xs' : List Side} {ns ns' : List RegName} {ps ps' : List Part} {fs fs' : List Fld} {s₀ s t : State}

theorem State.shifts_refl (s : State) : s.Shifts xs ns ps fs s :=
  ⟨fun _ _ => rfl, s.changesOnly_refl _, ⟨0, by simp⟩, fun _ _ => rfl⟩

/-- A step that moves less may follow. -/
theorem State.Shifts.then (h : s₀.Shifts xs ns ps fs s) (h' : s.Shifts xs' ns' ps' fs' t) (hx : xs' ⊆ xs := by decide) (hn : ns' ⊆ ns := by decide)
    (hp : ps' ⊆ ps := by decide) (hf : fs ⊆ fs' := by decide) : s₀.Shifts xs ns ps fs t where
  regs k hk := by
    refine (h'.regs k fun hc => hk ?_).trans (h.regs k hk)
    exact hc.imp (fun a => hn a) fun ⟨hs, x, hxs, ho⟩ => ⟨hs, x, hx hxs, ho⟩
  parts := State.changesOnly_trans h.parts (State.changesOnly_mono h'.parts hp)
  events := by
    obtain ⟨m, e⟩ := h.events
    obtain ⟨m', e'⟩ := h'.events
    exact ⟨m ||| m', by rw [e', e, BitVec.or_assoc]⟩
  fields f hm := (h'.fields f (hf hm)).trans (h.fields f hm)

/-- Fewer claims. -/
theorem State.Shifts.mono (h : s.Shifts xs' ns' ps' fs' t) (hx : xs' ⊆ xs := by decide) (hn : ns' ⊆ ns := by decide)
    (hp : ps' ⊆ ps := by decide) (hf : fs ⊆ fs' := by decide) : s.Shifts xs ns ps fs t :=
  (State.shifts_refl s).then h hx hn hp hf

theorem State.Shifts.disturbs (h : s.Shifts xs ns ps fs t) : s.disturbs xs ns ps t := ⟨h.regs, h.parts⟩

theorem State.Shifts.touches (h : s.Shifts [] ns ps fs t) : s.touches ns ps t :=
  ⟨fun k hk => h.regs k fun hc => hc.elim hk fun ⟨_, _, hx, _⟩ => absurd hx (List.not_mem_nil), h.parts⟩

/-- A register outside the region stands. -/
theorem State.Shifts.rd_eq (h : s.Shifts [] ns ps fs t) {k : RegKey} (hk : ns.contains k.name = false := by rfl) : t.rd k = s.rd k :=
  h.touches.1 k fun hc => by simp_all

/-- A register outside the region and of no Side stands. -/
theorem State.Shifts.rd_eq_of_shared (h : s.Shifts xs ns ps fs t) {k : RegKey}
    (hk : (ns.contains k.name || decide (k.name.row.space = .side)) = false := by rfl) : t.rd k = s.rd k :=
  h.regs k fun hc => by
    simp only [Bool.or_eq_false_iff, decide_eq_false_iff_not] at hk
    obtain hc | ⟨hc, -⟩ := hc
    · simp_all
    · exact hk.2 hc

theorem State.flag_eq_testBit (s : State) (k : RegKey) (i : Nat) : s.flag k ⟨i, 1⟩ = (s.rd k).toNat.testBit i := by
  rw [Nat.testBit_eq_decide_div_mod_eq]
  simp only [State.flag, State.fld, getF, pow_one]
  obtain e | e := Nat.mod_two_eq_zero_or_one ((s.rd k).toNat / 2 ^ i) <;> simp [e]

/-- A sticky bit of RFE_EVT that is set stays set. -/
theorem State.Shifts.flag_evt (h : s.Shifts xs ns ps fs t) {i : Nat} (hf : s.flag (R0 .RFE_EVT) ⟨i, 1⟩ = true) :
    t.flag (R0 .RFE_EVT) ⟨i, 1⟩ = true := by
  obtain ⟨m, e⟩ := h.events
  rw [State.flag_eq_testBit] at hf
  rw [State.flag_eq_testBit, e, BitVec.toNat_or, Nat.testBit_or, hf, Bool.true_or]

theorem State.Shifts.flag_state (h : s.Shifts xs ns ps fs t) {f : Fld} (hf : f ∈ fs) : t.flag (R0 .RFE_STATE) f = s.flag (R0 .RFE_STATE) f := by
  simp only [State.flag, h.fields f hf]

/-- A change of other parts of the state. -/
theorem State.Shifts.update (h : s₀.Shifts xs ns ps fs s) (hr : t.regs = s.regs) (hc : s.changesOnly ps t) : s₀.Shifts xs ns ps fs t := by
  have hrd (k : RegKey) : t.rd k = s.rd k := by simp only [State.rd, hr]
  refine ⟨fun k hk => (hrd k).trans (h.regs k hk), State.changesOnly_trans h.parts hc, ?_, fun f hf => ?_⟩
  · rw [hrd]
    exact h.events
  · rw [State.fld, hrd]
    exact h.fields f hf

/-- A write of a register of the region that is neither RFE_EVT nor RFE_STATE. -/
theorem State.Shifts.wrAt {k : RegKey} {v : W32} (h : s₀.Shifts xs ns ps fs s) (hk : Region xs ns k) (hr : .regs ∈ ps)
    (he : k.name ≠ .RFE_EVT) (hs : k.name ≠ .RFE_STATE) : s₀.Shifts xs ns ps fs (s.wr k v) where
  regs x hx := by
    have hne : x ≠ k := by
      rintro rfl
      exact hx hk
    exact (s.rd_wr_ne hne v).trans (h.regs x hx)
  parts := State.changesOnly_wr _ _ h.parts hr
  events := by
    have hne : R0 .RFE_EVT ≠ k := by
      rintro rfl
      exact he rfl
    rw [s.rd_wr_ne hne]
    exact h.events
  fields f hf := by
    have hne : R0 .RFE_STATE ≠ k := by
      rintro rfl
      exact hs rfl
    exact (s.fld_wr_ne hne f v).trans (h.fields f hf)

/-- A write of a field of RFE_STATE that has no bit in common with those that stand. -/
theorem State.Shifts.setState {f : Fld} {v : Nat} (h : s₀.Shifts xs ns ps fs s) (hf : ∀ g ∈ fs, f.apart g = true := by decide)
    (hk : .RFE_STATE ∈ ns := by decide) (hr : .regs ∈ ps := by decide) : s₀.Shifts xs ns ps fs (s.setF (R0 .RFE_STATE) f v) where
  regs x hx := by
    have hne : x ≠ R0 .RFE_STATE := by
      rintro rfl
      exact hx (.inl hk)
    exact (s.rd_setF_ne hne f v).trans (h.regs x hx)
  parts := State.changesOnly_setF _ _ _ h.parts hr
  events := by
    rw [s.rd_setF_ne (by decide)]
    exact h.events
  fields g hg := (s.fld_setF_of_apart _ v (hf g hg)).trans (h.fields g hg)

/-- Hardware sets sticky bits of a register of the region, and the event that they raise. -/
theorem State.Shifts.raiseWAt {k : RegKey} {b : W32} (h : s₀.Shifts xs ns ps fs s) (hk : Region xs ns k) (he : .EVT_STATUS ∈ ns) (hr : .regs ∈ ps)
    (hf : .fired ∈ ps) (hs : k.name ≠ .RFE_STATE) : s₀.Shifts xs ns ps fs (s.raiseW k b) where
  regs x hx := by
    have hne : x ≠ k := by
      rintro rfl
      exact hx hk
    rw [s.rd_raiseW k x b fun hc => hx (.inl (hc ▸ he)), if_neg hne]
    exact h.regs x hx
  parts := State.changesOnly_raiseW _ _ h.parts hr hf
  events := by
    obtain ⟨m, e⟩ := h.events
    rw [s.rd_raiseW k _ b (by decide)]
    split
    · next hc => exact ⟨m ||| b, by rw [← hc, e, BitVec.or_assoc]⟩
    · exact ⟨m, e⟩
  fields f hf := by
    have hne : R0 .RFE_STATE ≠ k := by
      rintro rfl
      exact hs rfl
    rw [State.fld, s.rd_raiseW k _ b (by decide), if_neg hne]
    exact h.fields f hf

/-- The source of an event sets. -/
theorem State.Shifts.setSource {e : Nat} (h : s₀.Shifts xs ns ps fs s) (hs : .EVT_STATUS ∈ ns := by decide) (hr : .regs ∈ ps := by decide)
    (hf : .fired ∈ ps := by decide) : s₀.Shifts xs ns ps fs (s.setSource e) where
  regs x hx := by
    rw [s.rd_setSource e x fun hc => hx (.inl (hc ▸ hs))]
    exact h.regs x hx
  parts := State.changesOnly_setSource _ h.parts hr hf
  events := by
    rw [s.rd_setSource e _ (by decide)]
    exact h.events
  fields f hf := by
    rw [State.fld, s.rd_setSource e _ (by decide)]
    exact h.fields f hf

/-- A name that is in a list, as a computation. -/
def free (ns : List RegName) (k : RegKey) : Bool := ns.contains k.name && k.name != .RFE_EVT && k.name != .RFE_STATE

theorem State.Shifts.wr {k : RegKey} {v : W32} (h : s₀.Shifts xs ns ps fs s) (hk : free ns k = true := by rfl) (hr : .regs ∈ ps := by decide) :
    s₀.Shifts xs ns ps fs (s.wr k v) := by
  simp only [free, Bool.and_eq_true, List.contains_iff_mem, bne_iff_ne] at hk
  exact h.wrAt (.inl hk.1.1) hr hk.1.2 hk.2

theorem State.Shifts.setF {k : RegKey} {f : Fld} {v : Nat} (h : s₀.Shifts xs ns ps fs s) (hk : free ns k = true := by rfl)
    (hr : .regs ∈ ps := by decide) : s₀.Shifts xs ns ps fs (s.setF k f v) :=
  h.wr hk hr

theorem State.Shifts.note {k : RegKey} {v : W32} (h : s₀.Shifts xs ns ps fs s) (hf : .fired ∈ ps := by decide) :
    s₀.Shifts xs ns ps fs (s.note k v) := by
  unfold State.note
  split
  · refine h.update rfl fun p hp => ?_
    cases p <;> first
      | rfl
      | exact ⟨rfl, rfl, rfl⟩
      | exact absurd hf hp
  · exact h

theorem State.Shifts.addWrap {k : RegKey} {n : Nat} (h : s₀.Shifts xs ns ps fs s) (hk : free ns k = true := by rfl) (hr : .regs ∈ ps := by decide)
    (hf : .fired ∈ ps := by decide) : s₀.Shifts xs ns ps fs (s.addWrap k n) :=
  (h.wr hk hr).note hf

theorem State.Shifts.addSat {k : RegKey} {f : Fld} {n : Nat} (h : s₀.Shifts xs ns ps fs s) (hk : free ns k = true := by rfl)
    (hr : .regs ∈ ps := by decide) (hf : .fired ∈ ps := by decide) : s₀.Shifts xs ns ps fs (s.addSat k f n) :=
  (h.setF hk hr).note hf

theorem State.Shifts.raiseW {k : RegKey} {b : W32} (h : s₀.Shifts xs ns ps fs s)
    (hk : (ns.contains k.name && ns.contains .EVT_STATUS && k.name != .RFE_STATE) = true := by rfl) (hr : .regs ∈ ps := by decide)
    (hf : .fired ∈ ps := by decide) : s₀.Shifts xs ns ps fs (s.raiseW k b) := by
  simp only [Bool.and_eq_true, List.contains_iff_mem, bne_iff_ne] at hk
  exact h.raiseWAt (.inl hk.1.1) hk.1.2 hr hf hk.2

theorem State.Shifts.raise {k : RegKey} {f : Fld} (h : s₀.Shifts xs ns ps fs s)
    (hk : (ns.contains k.name && ns.contains .EVT_STATUS && k.name != .RFE_STATE) = true := by rfl) (hr : .regs ∈ ps := by decide)
    (hf : .fired ∈ ps := by decide) : s₀.Shifts xs ns ps fs (s.raise k f) :=
  h.raiseW hk hr hf

theorem State.Shifts.raiseIf {c : Bool} {k : RegKey} {f : Fld} (h : s₀.Shifts xs ns ps fs s)
    (hk : (ns.contains k.name && ns.contains .EVT_STATUS && k.name != .RFE_STATE) = true := by rfl) (hr : .regs ∈ ps := by decide)
    (hf : .fired ∈ ps := by decide) : s₀.Shifts xs ns ps fs (s.raiseIf c k f) := by
  cases c with
  | false => exact h
  | true => exact h.raise hk hr hf

theorem State.Shifts.setSide {sd : Side} {x : SideSt} (h : s₀.Shifts xs ns ps fs s) (ha : .sideA ∈ ps := by decide) (hb : .sideB ∈ ps := by decide) :
    s₀.Shifts xs ns ps fs (s.setSide sd x) := by
  refine h.update ?_ (State.changesOnly_setSide sd x (s.changesOnly_refl _) ha hb)
  cases sd <;> rfl

/-! ## Branches and folds -/

theorem State.Shifts.ite {c : Prop} [Decidable c] {a b : State} (ha : s₀.Shifts xs ns ps fs a) (hb : s₀.Shifts xs ns ps fs b) :
    s₀.Shifts xs ns ps fs (if c then a else b) := by
  split
  · exact ha
  · exact hb

theorem State.Shifts.branch {c : Prop} [Decidable c] {a b : State} (h : s₀.Shifts xs ns ps fs s)
    (ha : s₀.Shifts xs ns ps fs s → s₀.Shifts xs ns ps fs a) (hb : s₀.Shifts xs ns ps fs s → s₀.Shifts xs ns ps fs b) :
    s₀.Shifts xs ns ps fs (if c then a else b) :=
  .ite (ha h) (hb h)

theorem State.Shifts.foldl {α : Type} {f : State → α → State} {l : List α} (h : s₀.Shifts xs ns ps fs s)
    (hf : ∀ s x, s₀.Shifts xs ns ps fs s → s₀.Shifts xs ns ps fs (f s x)) : s₀.Shifts xs ns ps fs (l.foldl f s) := by
  induction l generalizing s with
  | nil => exact h
  | cons x l ih => exact ih (hf _ _ h)

theorem State.Shifts.eachRouting {f : Side → State → State} (h : s₀.Shifts xs ns ps fs s)
    (hf : ∀ sd s, s₀.Shifts xs ns ps fs s → s₀.Shifts xs ns ps fs (f sd s)) : s₀.Shifts xs ns ps fs (s.eachRouting f) :=
  (h.branch (hf _ _) id).branch (hf _ _) id

end

/-! ## Being in step -/

/-- The fields of RFE_STATE that only a move of the lease, a decision, the class or the voters change. -/
def heldFields : List Fld :=
  [F.RFE_STATE_STATE, F.RFE_STATE_QUIET, F.RFE_STATE_EXT_ACTIVE, F.RFE_STATE_CLASS, F.RFE_STATE_VOTE_DEGRADED]

theorem State.changesOnly_outSince {s : State} {outSince : Option Nat} : s.changesOnly [.outSince] { s with outSince } := by
  intro p hp
  cases p <;> first
    | rfl
    | exact ⟨rfl, rfl⟩
    | exact ⟨rfl, rfl, rfl⟩
    | exact absurd (by decide) hp

/-- From `s₀` to `s` only what being in step changes has changed. -/
abbrev State.Steps (s₀ s : State) : Prop := s₀.Shifts [] stepRegs stepParts heldFields s

section
variable {s₀ s : State}

theorem State.Shifts.outSince {outSince : Option Nat} (h : s₀.Steps s) : s₀.Steps { s with outSince } :=
  h.update rfl (State.changesOnly_mono State.changesOnly_outSince (by decide))

theorem State.Shifts.noteStep {sd : Side} {now : Bool} (h : s₀.Steps s) : s₀.Steps (s.noteStep sd now) := h.setSide

theorem State.steps_updateStep (s : State) : s.Steps s.updateStep := by
  unfold State.updateStep
  extract_lets st was a b s1 s2 done ended s3
  have h2 : s.Steps s2 := (State.shifts_refl s).setState.setState.branch (·.raise) fun h => h.branch (·.raise) id
  clear_value s2
  have hd {t : State} {sd : Side} {now : Bool} (h : s.Steps t) : s.Steps (done t sd now) := h.branch (·.setF.setF.setSide) id
  have h3 : s.Steps s3 := (hd (hd h2)).noteStep.noteStep
  clear_value s3
  split
  · exact (h3.branch fun h => h.branch (·.outSince) id) (·.outSince)
  · exact h3.outSince
end

/-! ## The referee's moves -/

/-- The fields of RFE_STATE that no move of the lease changes. -/
def movedFields : List Fld := [F.RFE_STATE_QUIET, F.RFE_STATE_EXT_ACTIVE, F.RFE_STATE_CLASS, F.RFE_STATE_VOTE_DEGRADED]

/-- A change of the parts that a move of the lease or a Side's reset can change, but for the registers. -/
theorem State.changesOnly_move {s : State} {sideA sideB leaseEnd grace grantAt planned outSince voters benches merges shown stores captures feeds txqs
    txBufs benchIn benchMem tiles alyA alyB alyStore hbmRun hbmMax hbmTempAt audLate hoppers locks waiting grantNext winBuf : _} :
    s.changesOnly moveParts { s with
      sideA, sideB, leaseEnd, grace, grantAt, planned, outSince, voters, benches, merges, shown, stores, captures, feeds, txqs, txBufs, benchIn, benchMem,
      tiles, alyA, alyB, alyStore, hbmRun, hbmMax, hbmTempAt, audLate, hoppers, locks, waiting, grantNext, winBuf } := by
  intro p hp
  cases p <;> first
    | rfl
    | exact ⟨rfl, rfl⟩
    | exact ⟨rfl, rfl, rfl⟩
    | exact absurd (by decide) hp

/-- The registers that a Side's reset, its wake and its resynchronisation can move, those of the Sides apart. -/
def resetRegs : List RegName := [.RFE_STATE, .RFE_EVT, .RFE_CMD_RES, .RFE_RESYNC, .STR_EVT, .STR_MRESET_LOG, .EVT_STATUS]

/-- From `s₀` to `s` only what a Side's reset can change has changed: the lease stays where it is. -/
abbrev State.Resets (s₀ s : State) : Prop := s₀.Shifts [.A, .B] resetRegs moveParts heldFields s

/-- From `s₀` to `s` only what a move of the lease can change has changed. -/
abbrev State.Moves (s₀ s : State) : Prop := s₀.Shifts [.A, .B] moveRegs moveParts movedFields s

theorem State.Shifts.move {xs : List Side} {ns : List RegName} {ps : List Part} {fs : List Fld} {s₀ s : State} {sideA sideB leaseEnd grace grantAt planned
    outSince voters benches merges shown stores captures feeds txqs txBufs benchIn benchMem tiles alyA alyB alyStore hbmRun hbmMax hbmTempAt audLate hoppers
    locks waiting grantNext winBuf : _} (h : s₀.Shifts xs ns ps fs s) (hp : moveParts ⊆ ps := by decide) : s₀.Shifts xs ns ps fs { s with
      sideA, sideB, leaseEnd, grace, grantAt, planned, outSince, voters, benches, merges, shown, stores, captures, feeds, txqs, txBufs, benchIn, benchMem,
      tiles, alyA, alyB, alyStore, hbmRun, hbmMax, hbmTempAt, audLate, hoppers, locks, waiting, grantNext, winBuf } :=
  h.update rfl (State.changesOnly_mono State.changesOnly_move hp)

theorem exists_ofSide (i : Nat) : ∃ x ∈ [Side.A, Side.B], ofSide x i = true := by
  have : i % 2 < 2 := Nat.mod_lt _ (by decide)
  obtain h | h : i % 2 = 0 ∨ i % 2 = 1 := by omega
  · exact ⟨.A, by decide, by simp [ofSide, h, Side.idx]⟩
  · exact ⟨.B, by decide, by simp [ofSide, h, Side.idx]⟩

section
variable {ns : List RegName} {ps : List Part} {fs : List Fld} {s₀ s : State}

/-- A write of a field of a Side register. -/
theorem State.Shifts.setFSide {k : RegKey} {f : Fld} {v : Nat} (h : s₀.Shifts [.A, .B] ns ps fs s) (hk : k.name.row.space = .side := by rfl)
    (hr : .regs ∈ ps := by decide) : s₀.Shifts [.A, .B] ns ps fs (s.setF k f v) := by
  refine h.wrAt (.inr ⟨hk, exists_ofSide _⟩) hr ?_ ?_
  · intro hc
    rw [hc] at hk
    exact absurd hk (by decide)
  · intro hc
    rw [hc] at hk
    exact absurd hk (by decide)

end

/-! ## The Sides' own state is cleared -/

theorem Sparse.get_filter_key {κ α : Type} [DecidableEq κ] (d : κ → α) (m : List (κ × α)) (q : κ → Bool) {k : κ} (h : q k = true) :
    Sparse.get d (m.filter fun e => q e.1) k = Sparse.get d m k := by
  induction m with
  | nil => rfl
  | cons e m ih =>
    obtain ⟨e, v⟩ := e
    by_cases he : q e = true
    · rw [List.filter_cons_of_pos (by simpa using he)]
      simp only [Sparse.get, ih]
    · have hne : e ≠ k := by
        rintro rfl
        exact he h
      rw [List.filter_cons_of_neg (by simpa using he), ih]
      simp only [Sparse.get, if_neg hne]

/-- A register that is not the Side's reads as before its clearing. -/
theorem State.rd_clearSide {s : State} {sd : Side} {k : RegKey} (h : ¬ (k.name.row.space = .side ∧ ofSide sd k.bank = true)) :
    (s.clearSide sd).rd k = s.rd k := by
  have hf : (s.clearSide sd).regs = s.regs.filter fun (e : RegKey × W32) => !(decide (e.1.name.row.space = Space.side) && ofSide sd e.1.bank) := by
    cases sd <;> rfl
  unfold State.rd
  rw [hf]
  exact Sparse.get_filter_key _ _ (fun k : RegKey => !(decide (k.name.row.space = Space.side) && ofSide sd k.bank)) (by
    rw [Bool.not_eq_true', Bool.and_eq_false_iff, decide_eq_false_iff_not, ← Bool.not_eq_true]
    exact not_and_or.mp h)

theorem State.changesOnly_clearSide (s : State) (sd : Side) : s.changesOnly moveParts (s.clearSide sd) := by
  intro p hp
  cases sd <;> cases p <;> first
    | rfl
    | exact ⟨rfl, rfl⟩
    | exact ⟨rfl, rfl, rfl⟩
    | exact absurd (by decide) hp

theorem State.shifts_clearSide (s : State) (sd : Side) : s.Shifts [sd] [] moveParts heldFields (s.clearSide sd) where
  regs k hk := State.rd_clearSide fun hc => hk (.inr ⟨hc.1, sd, List.mem_singleton_self _, hc.2⟩)
  parts := s.changesOnly_clearSide sd
  events := ⟨0, by rw [State.rd_clearSide fun hc => absurd hc.1 (by decide)]; simp⟩
  fields f _ := by rw [State.fld, State.rd_clearSide fun hc => absurd hc.1 (by decide), State.fld]

/-! ## Resets and the standby -/

section
variable {s₀ s : State}

theorem State.Shifts.clearSide {sd : Side} (h : s₀.Resets s) : s₀.Resets (s.clearSide sd) := by
  refine h.then (s.shifts_clearSide sd) ?_
  cases sd <;> decide

theorem State.Shifts.masterReset {m : Nat} {r : Req} {cut : Cut} (h : s₀.Resets s) : s₀.Resets (s.masterReset m r cut) :=
  h.move.branch id (·.wr.raise)

theorem State.shifts_noteClaims (s : State) : s.Shifts [] [] [.sideA, .sideB] heldFields s.noteClaims := by
  unfold State.noteClaims
  extract_lets upd
  have hu {t : State} {sd : Side} (h : s.Shifts [] [] [.sideA, .sideB] heldFields t) : s.Shifts [] [] [.sideA, .sideB] heldFields (upd t sd) :=
    h.branch (·.setSide) fun h => h.branch (·.setSide) id
  exact hu (hu s.shifts_refl)

theorem State.Shifts.noteClaims (h : s₀.Resets s) : s₀.Resets s.noteClaims := h.then s.shifts_noteClaims

theorem State.Shifts.updateStep (h : s₀.Resets s) : s₀.Resets s.updateStep := h.then s.steps_updateStep

theorem State.Shifts.resetSide {sd : Side} (h : s₀.Resets s) : s₀.Resets (s.resetSide sd) :=
  h.clearSide.masterReset.setSide.setF.noteClaims.updateStep

theorem State.Shifts.isolate {sd : Side} (h : s₀.Resets s) : s₀.Resets (s.isolate sd) := .ite h h.setSide.resetSide

theorem State.Shifts.startResync {sd : Side} {kept : Bool} (h : s₀.Resets s) : s₀.Resets (s.startResync sd kept) := h.setF.setSide.updateStep

theorem State.Shifts.primeBenches (h : s₀.Resets s) : s₀.Resets s.primeBenches := h.move

theorem State.Shifts.renew (h : s₀.Resets s) : s₀.Resets s.renew := h.move

theorem State.Shifts.wakeSide {y : Side} {kept : Bool} (h : s₀.Resets s) : s₀.Resets (s.wakeSide y kept) := h.setSide.setFSide.startResync

theorem State.Shifts.wakeHolder {y : Side} (h : s₀.Resets s) : s₀.Resets (s.wakeHolder y) :=
  .ite h.setSide.raise.move (.ite h.primeBenches.wakeSide.move h)

theorem State.Shifts.preempt (h : s₀.Resets s) : s₀.Resets s.preempt := by
  unfold State.preempt
  split
  · exact h
  · exact h.move.setF.setF

end

/-! ## The lease moves -/

/-- The registers of the Sluices. -/
def sluiceRegs : List RegName := [.SLU_STAT, .SLU_EVT, .EVT_STATUS]

theorem State.shifts_drive (s : State) : s.Shifts [] sluiceRegs [.regs, .fired] heldFields s.drive := by
  unfold State.drive
  extract_lets follow
  have hf {y : Nat} : s.Shifts [] sluiceRegs [.regs, .fired] heldFields (follow s y) :=
    (State.shifts_refl s).foldl fun _ _ h => .ite h.setF h.setF.raise
  split
  · exact hf
  · exact hf
  · exact s.shifts_refl

/-- What a vote and the renewal of the lease can change. -/
def voteParts : List Part := [.regs, .fired, .voters, .leaseEnd, .grace, .sideA, .sideB]

/-- From `s₀` to `s` only what the voters' new state changes has changed. -/
abbrev State.Votes (s₀ s : State) : Prop := s₀.Shifts [] (.RFE_STATE :: sluiceRegs) voteParts movedFields s

theorem State.changesOnly_voters {s : State} {voters leaseEnd grace : _} : s.changesOnly voteParts { s with voters, leaseEnd, grace } := by
  intro p hp
  cases p <;> first
    | rfl
    | exact ⟨rfl, rfl⟩
    | exact ⟨rfl, rfl, rfl⟩
    | exact absurd (by decide) hp

theorem State.Shifts.voters {s₀ s : State} {voters leaseEnd grace : _} (h : s₀.Votes s) : s₀.Votes { s with voters, leaseEnd, grace } :=
  h.update rfl State.changesOnly_voters

theorem State.votes_vote (s : State) (st : Nat) : s.Votes (s.vote st) := by
  have h : s.Votes (s.setF (R0 .RFE_STATE) F.RFE_STATE_STATE st) := (State.shifts_refl s).setState
  exact h.voters.then (State.shifts_drive _)

theorem State.votes_select (s : State) (y : Side) : s.Votes (s.select y) := by
  have h : s.Votes (s.vote (y.idx + 1)).renew := (s.votes_vote _).voters
  exact h.then (State.shifts_noteClaims _)

section
variable {s₀ s : State}

/-- A step that keeps the lease, among moves of it. -/
theorem State.Shifts.keep {t : State} (h : s₀.Moves s) (h' : s.Resets t) : s₀.Moves t := h.then h'

theorem State.Shifts.vote {st : Nat} (h : s₀.Moves s) : s₀.Moves (s.vote st) := h.then (s.votes_vote st)

theorem State.Shifts.select {y : Side} (h : s₀.Moves s) : s₀.Moves (s.select y) := h.then (s.votes_select y)

theorem State.Shifts.flipTo {y : Side} {cause line : Nat} (h : s₀.Moves s) : s₀.Moves (s.flipTo y cause line) := by
  unfold State.flipTo
  extract_lets lacks s1 s2 s3 s4
  have h1 : s₀.Moves s1 := h.branch id fun h => h.keep (State.shifts_refl s).preempt
  clear_value s1
  have h4 : s₀.Moves s4 := h1.addWrap.wr.raise
  clear_value s4
  exact h4.select.keep (State.shifts_refl _).wakeHolder.updateStep

theorem State.Shifts.enterNone (h : s₀.Moves s) : s₀.Moves s.enterNone :=
  h.vote.raise.move.keep (State.shifts_refl _).preempt.noteClaims.updateStep

theorem State.Shifts.sideError {x : Side} {sev line : Nat} (h : s₀.Moves s) : s₀.Moves (s.sideError x sev line) := by
  have hi : s₀.Moves (s.isolate x) := h.keep (State.shifts_refl s).isolate
  have hr {t : State} (h : s₀.Moves t) : s₀.Moves (t.resetSide x) := h.keep (State.shifts_refl t).resetSide
  exact .ite h (.ite h.raiseIf (.ite (.ite (hi.branch (·.flipTo) (·.enterNone)) (.ite (hr h.flipTo) h.raise)) (.ite hi (hr h))))

theorem State.Shifts.act {rs : List Rise} (h : s₀.Moves s) : s₀.Moves (s.act rs) := by
  unfold State.act
  extract_lets top one
  have ho {t : State} {x : Side} (h : s₀.Moves t) : s₀.Moves (one t x) := by
    unfold one
    split
    · exact h.sideError
    · exact h
  split
  · exact ho (ho h)
  · exact ho (ho h)

theorem State.Shifts.expire (h : s₀.Moves s) : s₀.Moves s.expire := by
  unfold State.expire
  split
  · exact h
  · exact .ite h (h.raise.branch (fun h => h.flipTo.keep (State.shifts_refl _).resetSide) (·.enterNone))

end

/-! ## Assay's cycle -/

theorem State.changesOnly_sevAt {s : State} {sevAt : SMap Nat} : s.changesOnly [.sevAt] { s with sevAt } := by
  intro p hp
  cases p <;> first
    | rfl
    | exact ⟨rfl, rfl⟩
    | exact ⟨rfl, rfl, rfl⟩
    | exact absurd (by decide) hp

/-- What Assay samples and records. -/
abbrev State.Samples (s₀ s : State) : Prop := s₀.Shifts [] (.EVT_STATUS :: assayRegs) [.regs, .fired, .sevAt, .sideA, .sideB] heldFields s

section
variable {s₀ s : State}

theorem State.Shifts.quietUpdate {sd : Side} {restart : Bool} (h : s₀.Samples s) : s₀.Samples (s.quietUpdate sd restart) := .ite h.setSide h

theorem State.Shifts.wrLine {l : Nat} {v : W32} (h : s₀.Samples s) : s₀.Samples (s.wr (lineBit .ASY_STATUS0 .ASY_STATUS1 l).1 v) := by
  unfold lineBit
  split
  · exact h.wr
  · exact h.wr

theorem State.Shifts.recordRise {r : Rise} {same : Bool} (h : s₀.Samples s) : s₀.Samples (s.recordRise r same) := by
  unfold State.recordRise
  extract_lets st q head full n ws put s1 s2 s3 s4 b s5 s6
  have hp {t : State} {f : Nat → RegKey} (hf : ∀ w, free (.EVT_STATUS :: assayRegs) (f w) = true) (h : s₀.Samples t) : s₀.Samples (put t f) :=
    h.foldl fun _ w h => h.wr (hf w)
  have h1 : s₀.Samples s1 := hp (fun _ => rfl) h
  clear_value s1
  have h3 : s₀.Samples s3 := h1.setF.setF.addSat.branch (·.addWrap) id
  clear_value s3
  have h4 : s₀.Samples s4 := h3.branch id (hp fun _ => rfl)
  clear_value s4
  have h6 : s₀.Samples s6 := State.Shifts.update h4.wrLine rfl (State.changesOnly_mono State.changesOnly_sevAt (by decide))
  clear_value s6
  exact h6.branch (·.setSource) id

theorem State.samples_sample (s : State) (pulses : List (Nat × W32)) : s.Samples (s.sample pulses).2 := by
  unfold State.sample
  extract_lets level lv rises on word s1 s2 rs s3 again
  have h3 : s.Samples s3 := (State.shifts_refl s).quietUpdate.quietUpdate.wr.wr.foldl fun _ _ h => h.recordRise
  clear_value s3
  exact h3.quietUpdate.quietUpdate

theorem State.Shifts.noteFails {old : W32} {rs : List Rise} (h : s₀.Samples s) : s₀.Samples (s.noteFails old rs) :=
  (h.branch (·.setSide) id).branch (·.setSide) id

end

/-- What one sampling cycle can change. -/
abbrev State.Cycles (s₀ s : State) : Prop := s₀.Shifts [.A, .B] (assayRegs ++ moveRegs) (.sevAt :: moveParts) movedFields s

theorem State.cycles_cycle (s : State) (pulses : List (Nat × W32)) : s.Cycles (s.cycle pulses) :=
  (State.shifts_refl s).then (s.samples_sample pulses).noteFails |>.then (State.shifts_refl _).act

end Sys2Proof.Machine
end


section
/-! # Resynchronisation, the ring and the voters (O20)

A lemma for each clause. What a command leaves alone comes from the frames above; what it sets is read off its last writes. -/
namespace Sys2Proof.Machine
set_option Elab.async false

/-! ## The lease and the voters -/

theorem State.holder_of_fld {s t : State} (h : t.fld (R0 .RFE_STATE) F.RFE_STATE_STATE = s.fld (R0 .RFE_STATE) F.RFE_STATE_STATE) :
    t.holder = s.holder := by
  unfold State.holder
  rw [show t.fld (R0 .RFE_STATE) ⟨0, 2⟩ = s.fld (R0 .RFE_STATE) ⟨0, 2⟩ from h]

theorem State.holder_eq_some {s : State} {y : Side} (h : s.fld (R0 .RFE_STATE) F.RFE_STATE_STATE = y.idx + 1) : s.holder = some y := by
  unfold State.holder
  rw [show s.fld (R0 .RFE_STATE) ⟨0, 2⟩ = y.idx + 1 from h]
  cases y <;> rfl

/-- What keeps the fields of RFE_STATE keeps the holder of the lease. -/
theorem State.Shifts.holder {xs : List Side} {ns : List RegName} {ps : List Part} {s t : State} (h : s.Shifts xs ns ps heldFields t) :
    t.holder = s.holder :=
  State.holder_of_fld (h.fields _ (by decide))

section
variable (s : State)

theorem State.fld_vote (v : Nat) : (s.vote v).fld (R0 .RFE_STATE) F.RFE_STATE_STATE = v % 4 := by
  refine ((State.shifts_drive _).fields _ (by decide)).trans ?_
  exact s.fld_setF_self (R0 .RFE_STATE) F.RFE_STATE_STATE v (by decide)

theorem State.voters_vote (v : Nat) : (s.vote v).voters = [v, v, v] := (State.shifts_drive _).parts .voters (by decide)

theorem State.shifts_renewed (v : Nat) : (s.vote v).Shifts [] [] voteParts heldFields (s.vote v).renew.noteClaims := by
  have h : (s.vote v).Shifts [] [] voteParts heldFields (s.vote v).renew := (State.shifts_refl _).update rfl State.changesOnly_voters
  exact h.then (State.shifts_noteClaims _)

theorem State.fld_select (y : Side) : (s.select y).fld (R0 .RFE_STATE) F.RFE_STATE_STATE = y.idx + 1 := by
  rw [State.select, (s.shifts_renewed _).fields _ (by decide), s.fld_vote]
  cases y <;> rfl

theorem State.voters_select (y : Side) : (s.select y).voters = [y.idx + 1, y.idx + 1, y.idx + 1] :=
  ((State.shifts_noteClaims _).parts .voters (by decide)).trans (s.voters_vote _)

/-- VOTE_MISMATCH has set and VOTE_DEGRADED stands. -/
def State.voteNoted : State :=
  (s.raise (R0 .RFE_EVT) F.RFE_EVT_VOTE_MISMATCH).setF (R0 .RFE_STATE) F.RFE_STATE_VOTE_DEGRADED 1

theorem State.shifts_voteNoted : s.Shifts [] [.RFE_EVT, .RFE_STATE, .EVT_STATUS] [.regs, .fired] [F.RFE_STATE_STATE] s.voteNoted :=
  State.Shifts.setState s.shifts_refl.raise

theorem State.flag_voteNoted : s.voteNoted.flag (R0 .RFE_EVT) F.RFE_EVT_VOTE_MISMATCH = true ∧
    s.voteNoted.flag (R0 .RFE_STATE) F.RFE_STATE_VOTE_DEGRADED = true := by
  constructor
  · rw [State.flag, State.voteNoted, State.fld_setF_ne _ (by decide)]
    exact State.flag_raise _ _ _ (by decide) (by decide)
  · rw [State.flag, State.voteNoted, State.fld_setF_self _ _ _ _ (by decide)]
    rfl

theorem State.sluicesName_voteNoted : s.voteNoted.sluicesName = s.sluicesName := by
  have h (l : Nat) : s.voteNoted.flag (R1 .SLU_STAT l) F.SLU_STAT_SEL = s.flag (R1 .SLU_STAT l) F.SLU_STAT_SEL := by
    rw [State.flag, State.fld, s.shifts_voteNoted.rd_eq, State.flag, State.fld]
  simp only [State.sluicesName, h]

/-- What a vote can change, with the grant that it can be. -/
abbrev State.Revotes (s t : State) : Prop := s.Shifts [] [.RFE_EVT, .RFE_STATE, .SLU_STAT, .SLU_EVT, .EVT_STATUS] voteParts movedFields t

/-- The voters carry `v`, and from `s` to `t` only a vote has changed the state. -/
structure State.Voted (v : Nat) (t : State) : Prop where
  frame : s.Revotes t
  voters : t.voters = [v, v, v]
  state : t.fld (R0 .RFE_STATE) F.RFE_STATE_STATE = v

theorem State.voted_vote {v : Nat} (h : v < 4) : s.Voted v (s.vote v) :=
  ⟨(s.votes_vote v).mono, s.voters_vote v, (s.fld_vote v).trans (Nat.mod_eq_of_lt h)⟩

theorem State.voted_select (y : Side) : s.Voted (y.idx + 1) (s.select y) :=
  ⟨(s.votes_select y).mono, s.voters_select y, s.fld_select y⟩

variable {s}

theorem State.Voted.noteClaims {t : State} {v : Nat} (h : s.Voted v t) : s.Voted v t.noteClaims :=
  ⟨h.frame.then t.shifts_noteClaims, (t.shifts_noteClaims.parts .voters (by decide)).trans h.voters,
    (t.shifts_noteClaims.fields _ (by decide)).trans h.state⟩

theorem State.Voted.grant {t : State} {v : Nat} {c : Bool} (h : s.Voted v t) : s.Voted v (t.raiseIf c (R0 .RFE_EVT) F.RFE_EVT_GRANT) := by
  have hg : t.Shifts [] [.RFE_EVT, .EVT_STATUS] [.regs, .fired] heldFields (t.raiseIf c (R0 .RFE_EVT) F.RFE_EVT_GRANT) := t.shifts_refl.raiseIf
  exact ⟨h.frame.then hg, (hg.parts .voters (by decide)).trans h.voters, (hg.fields _ (by decide)).trans h.state⟩

variable (s)

theorem mem_of_voteOf {l : List Nat} {v : Nat} (h : voteOf l = some v) : v ∈ l := List.mem_of_find?_eq_some h

/-- The value that the voters enter: two of them agree on it, or else it names a Side. -/
theorem State.voted_revote (a b c : Fin 4) :
    s.voteNoted.Voted ((voteOf [a.val, b.val, c.val]).getD (s.voteNoted.sluicesName.idx + 1)) (s.revote a b c) := by
  have hlt : (voteOf [a.val, b.val, c.val]).getD (s.voteNoted.sluicesName.idx + 1) < 4 := by
    cases hv : voteOf [a.val, b.val, c.val] with
    | none => cases s.voteNoted.sluicesName <;> decide
    | some v =>
      have := mem_of_voteOf hv
      simp only [List.mem_cons, List.not_mem_nil, or_false] at this
      rw [Option.getD_some]
      omega
  unfold State.revote
  extract_lets s1 was v new
  have h1 : s1 = s.voteNoted := rfl
  rw [← h1] at hlt ⊢
  change s1.Voted new _
  have hnew : new < 4 := hlt
  clear_value s1 new was
  split
  · exact s1.voted_vote hnew
  split
  · next h =>
    obtain rfl | rfl := h
    · exact (s1.voted_select .A).grant
    · exact (s1.voted_select .B).grant
  · exact (s1.voted_vote hnew).noteClaims

theorem State.touches_revote (a b c : Fin 4) : s.touches [.RFE_EVT, .RFE_STATE, .SLU_STAT, .SLU_EVT, .EVT_STATUS] voteParts (s.revote a b c) := by
  have h1 := s.shifts_voteNoted.mono (xs := []) (ns := [.RFE_EVT, .RFE_STATE, .SLU_STAT, .SLU_EVT, .EVT_STATUS]) (ps := voteParts) (fs := [])
  exact (h1.then (s.voted_revote a b c).frame).touches

end

theorem voteMismatch_clause (a b c : Fin 4) (s : State) (h0 : s.aoReset = false) (hd : a ≠ b ∨ b ≠ c) : ∃ t, exec (.voteMismatch a b c) s = .next t ∧
    t = (s.revote a b c).updateStep.cycle [(34, if (voteOf [a.val, b.val, c.val]).isSome then 1 else 2)] ∧
    (s.revote a b c).flag (R0 .RFE_EVT) F.RFE_EVT_VOTE_MISMATCH = true ∧ (s.revote a b c).flag (R0 .RFE_STATE) F.RFE_STATE_VOTE_DEGRADED = true ∧
    (∀ v, voteOf [a.val, b.val, c.val] = some v → (s.revote a b c).voters = [v, v, v] ∧ (s.revote a b c).fld (R0 .RFE_STATE) F.RFE_STATE_STATE = v) ∧
    (voteOf [a.val, b.val, c.val] = none → (s.revote a b c).voters = List.replicate 3 (s.sluicesName.idx + 1) ∧
      (s.revote a b c).holder = some s.sluicesName) ∧
    s.touches [.RFE_EVT, .RFE_STATE, .SLU_STAT, .SLU_EVT, .EVT_STATUS] [.regs, .fired, .voters, .leaseEnd, .grace, .sideA, .sideB] (s.revote a b c) := by
  have hv := s.voted_revote a b c
  obtain ⟨hm, hg⟩ := s.flag_voteNoted
  have hc : ¬ (s.aoReset = true ∨ a = b ∧ b = c) := by simp [h0, imp_iff_not_or, hd]
  refine ⟨_, if_neg hc, rfl, hv.frame.flag_evt hm, (hv.frame.flag_state (by decide)).trans hg, fun v h => ?_, fun h => ?_, s.touches_revote a b c⟩
  · rw [h] at hv
    exact ⟨hv.voters, hv.state⟩
  · rw [h, Option.getD_none, State.sluicesName_voteNoted] at hv
    exact ⟨hv.voters, State.holder_eq_some hv.state⟩

theorem voteMismatch_agreed (a b c : Fin 4) (s : State) (h : s.aoReset = true ∨ a = b ∧ b = c) : exec (.voteMismatch a b c) s = .next s := if_pos h

/-! ## Claims, and the Harif bypass -/

theorem claimConflict_clause (sd : Side) (s : State) : s.inConflict sd = true → ∃ t, exec (.claimConflict sd) s = .next t ∧
    t.flag (R0 .RFE_EVT) (match sd with | .A => F.RFE_EVT_CONFLICT_A | .B => F.RFE_EVT_CONFLICT_B) = true ∧
    s.disturbs [.A, .B] (assayRegs ++ moveRegs) (.sevAt :: moveParts) t := by
  intro h
  have hc (f : Fld) : s.Cycles ((s.raise (R0 .RFE_EVT) f).cycle []) := s.shifts_refl.raise.then (State.cycles_cycle _ _)
  refine ⟨_, if_pos h, ?_, (hc _).disturbs⟩
  cases sd
  · exact (State.cycles_cycle _ _).flag_evt (State.flag_raise _ _ _ (by decide) (by decide))
  · exact (State.cycles_cycle _ _).flag_evt (State.flag_raise _ _ _ (by decide) (by decide))

theorem claimConflict_early (sd : Side) (s : State) (h : s.inConflict sd = false) : exec (.claimConflict sd) s = .next s := if_neg (by simp [h])

theorem State.changesOnly_ring {s : State} {ring : _} : s.changesOnly [.ring] { s with ring } := by
  intro p hp
  cases p <;> first
    | rfl
    | exact ⟨rfl, rfl⟩
    | exact ⟨rfl, rfl, rfl⟩
    | exact absurd (by decide) hp

theorem harifBypassOpen_clause (s : State) (h : s.aoReset = false) :
    ∃ t, exec .harifBypassOpen s = .next t ∧ t.ring = { s.ring with bypassed := false } ∧ s.changesOnly [.ring] t :=
  ⟨_, if_neg (by simp [h]), rfl, State.changesOnly_ring⟩

theorem bypassSupplyLoss_clause (s : State) :
    ∃ t, exec .bypassSupplyLoss s = .next t ∧ t.ring = { s.ring with bypassed := true } ∧ s.changesOnly [.ring] t :=
  ⟨_, rfl, rfl, State.changesOnly_ring⟩

/-! ## A fold of writes -/

section
variable {α : Type} (g : α → RegKey) (f : α → W32)

/-- The registers of a list of entries are written. -/
def State.wrAll (s : State) (l : List α) : State := l.foldl (fun (s : State) e => s.wr (g e) (f e)) s

theorem State.rd_wrAll_of_ne {s : State} {l : List α} {k : RegKey} (h : ∀ e ∈ l, k ≠ g e) : (s.wrAll g f l).rd k = s.rd k := by
  unfold State.wrAll
  induction l generalizing s with
  | nil => rfl
  | cons e l ih =>
    rw [List.foldl_cons, ih fun e' he => h e' (List.mem_cons_of_mem e he)]
    exact s.rd_wr_ne (h e List.mem_cons_self) (f e)

/-- Where no register is written twice, each reads the value written. -/
theorem State.rd_wrAll_of_mem {s : State} {l : List α} (hp : l.Pairwise fun a b => g a ≠ g b) {e : α} (he : e ∈ l) :
    (s.wrAll g f l).rd (g e) = f e := by
  induction l generalizing s with
  | nil => exact absurd he List.not_mem_nil
  | cons a l ih =>
    obtain ⟨ha, hl⟩ := List.pairwise_cons.mp hp
    obtain rfl | he := List.mem_cons.mp he
    · exact (State.rd_wrAll_of_ne g f (l := l) ha).trans (s.rd_wr_self _ _)
    · exact ih hl he

theorem State.Shifts.wrAll {xs : List Side} {ns : List RegName} {ps : List Part} {fs : List Fld} {s₀ s : State} {l : List α} (h : s₀.Shifts xs ns ps fs s)
    (hk : ∀ e ∈ l, Region xs ns (g e) ∧ (g e).name ≠ .RFE_EVT ∧ (g e).name ≠ .RFE_STATE) (hr : .regs ∈ ps := by decide) :
    s₀.Shifts xs ns ps fs (s.wrAll g f l) := by
  unfold State.wrAll
  induction l generalizing s with
  | nil => exact h
  | cons e l ih =>
    obtain ⟨hg, he, hs⟩ := hk e List.mem_cons_self
    exact ih (h.wrAt hg hr he hs) fun e' he => hk e' (List.mem_cons_of_mem e he)

end

/-! ## The phase of a resynchronisation -/

theorem State.phase_of_rd {s t : State} {sd : Side} (h : t.rd (R1 .RFE_RESYNC sd.idx) = s.rd (R1 .RFE_RESYNC sd.idx)) : t.phase sd = s.phase sd := by
  rw [State.phase, State.fld, h, State.phase, State.fld]

theorem State.rd_resync_setF_ne {s : State} {sd x : Side} {f : Fld} {v : Nat} (h : x ≠ sd) :
    (s.setF (R1 .RFE_RESYNC x.idx) f v).rd (R1 .RFE_RESYNC sd.idx) = s.rd (R1 .RFE_RESYNC sd.idx) := by
  refine State.rd_setF_ne _ ?_ f v
  revert h
  cases x <;> cases sd <;> decide

theorem State.phase_setF (s : State) (sd : Side) (v : Nat) : (s.setF (R1 .RFE_RESYNC sd.idx) F.RFE_RESYNC_PHASE v).phase sd = v % 4 :=
  s.fld_setF_self _ F.RFE_RESYNC_PHASE v (by decide)

/-- A Side's phase stands, or its COMPARE has ended. -/
def State.phaseKept (s : State) (sd : Side) (t : State) : Prop := t.phase sd = s.phase sd ∨ s.phase sd = 3 ∧ t.phase sd = 0

theorem State.phaseKept_of_rd {s t u : State} {sd : Side} (h : s.phaseKept sd t) (hr : u.rd (R1 .RFE_RESYNC sd.idx) = t.rd (R1 .RFE_RESYNC sd.idx)) :
    s.phaseKept sd u := by
  unfold State.phaseKept
  rw [State.phase_of_rd hr]
  exact h

/-- Being in step moves a Side's phase from COMPARE to 0 alone. -/
theorem State.phaseKept_updateStep (s : State) (sd : Side) : s.phaseKept sd s.updateStep := by
  unfold State.updateStep
  extract_lets st was a b s1 s2 done ended s3
  have h2 : s.Shifts [] [.RFE_STATE, .RFE_EVT, .EVT_STATUS] [.regs, .fired] [] s2 :=
    (State.shifts_refl s).setState.setState.branch (·.raise) fun h => h.branch (·.raise) id
  have h2 : s.phaseKept sd s2 := .inl (State.phase_of_rd h2.rd_eq)
  clear_value s2
  have hd {t : State} {x : Side} {now : Bool} (h : s.phaseKept sd t) : s.phaseKept sd (done t x now) := by
    unfold done
    split
    · next hc =>
      have hx : t.phase x = 3 := by simpa using (Bool.and_eq_true_iff.mp hc).2
      by_cases he : x = sd
      · subst he
        refine .inr ⟨h.elim (·.symm.trans hx) (·.1), ?_⟩
        refine (State.phase_of_rd (State.rd_setSide _ _ _ _)).trans ?_
        exact (State.fld_setF_of_apart _ _ _ (by decide)).trans (t.phase_setF x 0)
      · refine State.phaseKept_of_rd (State.phaseKept_of_rd h ?_) (State.rd_setSide _ _ _ _)
        exact (State.rd_resync_setF_ne he).trans (State.rd_resync_setF_ne he)
    · exact h
  have hn {t : State} {x : Side} {now : Bool} (h : s.phaseKept sd t) : s.phaseKept sd (t.noteStep x now) :=
    State.phaseKept_of_rd h (State.rd_setSide _ _ _ _)
  have h3 : s.phaseKept sd s3 := hn (hn (hd (hd h2)))
  clear_value s3
  split
  · dsimp only
    split
    · split
      · exact h3
      · exact h3
    · exact h3
  · exact h3

theorem resyncFillDone_clause (sd : Side) (s : State) (h2 : s.phase sd = 2) (hb : s.allBegun sd = true) :
    ∃ t, exec (.resyncFillDone sd) s = .next t ∧ t.phase sd ≠ 2 ∧ t.holder = s.holder ∧
      s.touches [.RFE_STATE, .RFE_EVT, .RFE_RESYNC, .EVT_STATUS] [.regs, .fired, .sideA, .sideB, .outSince] t := by
  have hs : s.Steps (s.setF (R1 .RFE_RESYNC sd.idx) F.RFE_RESYNC_PHASE 3).updateStep := s.shifts_refl.setF.then (State.steps_updateStep _)
  refine ⟨_, if_pos ⟨h2, hb⟩, ?_, hs.holder, (hs.mono (fs := heldFields)).touches⟩
  obtain h | ⟨-, h⟩ := State.phaseKept_updateStep (s.setF (R1 .RFE_RESYNC sd.idx) F.RFE_RESYNC_PHASE 3) sd
  · rw [h, State.phase_setF]
    decide
  · rw [h]
    decide

theorem resyncFillDone_early (sd : Side) (s : State) (h : s.phase sd ≠ 2 ∨ s.allBegun sd = false) : exec (.resyncFillDone sd) s = .next s :=
  if_neg fun hc => h.elim (· hc.1) fun hb => by simp [hb] at hc

/-! ## The end of LOAD -/

theorem ofSide_twice (sd : Side) (n : Nat) : ofSide sd (2 * n + sd.idx) = true := by
  cases sd <;> simp [ofSide, Side.idx, Nat.add_mod]

theorem ofSide_idx (sd : Side) : ofSide sd sd.idx = true := by cases sd <;> rfl

/-- The register of a Side into which a twin register goes. -/
def twinKey (sd : Side) (e : RegKey × W32) : RegKey := { e.1 with bank := 2 * e.1.bank + sd.idx }

theorem twinKey_inj {sd : Side} {a b : RegKey × W32} (h : twinKey sd a = twinKey sd b) : a.1 = b.1 := by
  obtain ⟨⟨n, i, j, k⟩, v⟩ := a
  obtain ⟨⟨n', i', j', k'⟩, v'⟩ := b
  simp only [twinKey, RegKey.mk.injEq] at h ⊢
  obtain ⟨hn, hi, hj, hk⟩ := h
  exact ⟨hn, hi, hj, by omega⟩

theorem pairwise_twinKey {m : List (RegKey × W32)} (h : Sparse.wf RegKey.lt RegKey.reset m) (sd : Side) :
    m.Pairwise fun a b => twinKey sd a ≠ twinKey sd b := by
  refine h.1.imp fun {a b} hlt he => ?_
  rw [twinKey_inj he] at hlt
  simp [RegKey.lt] at hlt

section
variable (s : State) (sd : Side)

theorem State.loadTwins_eq : s.loadTwins sd = s.wrAll (twinKey sd) (·.2) s.twins := rfl

theorem State.rd_loadTwins {n : RegName} {i : Nat} {v : W32} (hw : Sparse.wf RegKey.lt RegKey.reset s.twins) (h : (R1 n i, v) ∈ s.twins) :
    (s.loadTwins sd).rd (RS n sd i) = v := by
  have hk : RS n sd i = twinKey sd (R1 n i, v) := by simp [twinKey]
  rw [hk, State.loadTwins_eq]
  exact State.rd_wrAll_of_mem _ _ (pairwise_twinKey hw sd) h

theorem ne_of_side {n : RegName} (h : n.row.space = .side) : n ≠ .RFE_EVT ∧ n ≠ .RFE_STATE := by
  constructor <;> (rintro rfl; exact absurd h (by decide))

theorem State.shifts_loadTwins (hs : ∀ e ∈ s.twins, e.1.name.row.space = .side) : s.Shifts [sd] [] [.regs] heldFields (s.loadTwins sd) :=
  s.shifts_refl.wrAll _ _ fun e he => ⟨.inr ⟨hs e he, sd, List.mem_singleton_self _, ofSide_twice sd _⟩, ne_of_side (hs e he)⟩

/-- The registers that hold a Side's content. -/
def contentRegs : List RegName := [.ALY_FLIP_STAT, .ALY_PROT_CRC]

theorem side_of_contentRegs {n : RegName} (h : n ∈ contentRegs) : n.row.space = .side := by
  revert n
  decide

theorem ne_of_contentRegs {n : RegName} (h : n ∈ contentRegs) : n ≠ .RFE_EVT ∧ n ≠ .RFE_STATE := ne_of_side (side_of_contentRegs h)

/-- The copy writes the content registers of the Side alone. -/
theorem State.shifts_copyContent {xs : List Side} {ns : List RegName} {x : Side} (h : ∀ n ∈ contentRegs, ∀ i j, Region xs ns ⟨n, i, j, sd.idx⟩) :
    ((s.setAly sd (s.aly x)).setHbm sd (copyGraphics (s.hbm sd) (s.hbm x))).Shifts xs ns [.regs] heldFields (s.copyContent sd x) := by
  have hw {u t : State} {n : RegName} {i j : Nat} {v : W32} (hn : n ∈ contentRegs) (ht : u.Shifts xs ns [.regs] heldFields t) :
      u.Shifts xs ns [.regs] heldFields (t.wr ⟨n, i, j, sd.idx⟩ v) :=
    ht.wrAt (h n hn i j) (by decide) (ne_of_contentRegs hn).1 (ne_of_contentRegs hn).2
  exact (State.shifts_refl _).foldl fun t i ht => State.Shifts.foldl (hw (by decide) ht) fun u j hu => hw (by decide) hu

theorem State.changesOnly_content {s : State} {alyA alyB hbmA hbmB benches : _} :
    s.changesOnly [.alyA, .alyB, .hbmA, .hbmB, .benches] { s with alyA, alyB, hbmA, hbmB, benches } := by
  intro p hp
  cases p <;> first
    | rfl
    | exact ⟨rfl, rfl⟩
    | exact ⟨rfl, rfl, rfl⟩
    | exact absurd (by decide) hp

theorem State.changesOnly_setHbm (m : List Host.Cell) : s.changesOnly [.alyA, .alyB, .hbmA, .hbmB, .benches] (s.setHbm sd m) := by
  cases sd <;> exact State.changesOnly_content

theorem State.changesOnly_setAly (m : List (AlyCell × W32)) : s.changesOnly [.alyA, .alyB, .hbmA, .hbmB, .benches] (s.setAly sd m) := by
  cases sd <;> exact State.changesOnly_content

theorem State.regs_setHbm (m : List Host.Cell) : (s.setHbm sd m).regs = s.regs := by cases sd <;> rfl

theorem State.regs_setAly (m : List (AlyCell × W32)) : (s.setAly sd m).regs = s.regs := by cases sd <;> rfl

/-- What the loading of a Side's content can change. -/
def contentParts : List Part := [.regs, .alyA, .alyB, .hbmA, .hbmB, .benches]

section
variable {s sd} {xs : List Side} {ns : List RegName} {s₀ : State}

theorem State.Shifts.setHbm {m : List Host.Cell} (h : s₀.Shifts xs ns contentParts heldFields s) : s₀.Shifts xs ns contentParts heldFields (s.setHbm sd m) :=
  h.update (s.regs_setHbm sd m) (State.changesOnly_mono (s.changesOnly_setHbm sd m) (by decide))

theorem State.Shifts.setAly {m : List (AlyCell × W32)} (h : s₀.Shifts xs ns contentParts heldFields s) :
    s₀.Shifts xs ns contentParts heldFields (s.setAly sd m) :=
  h.update (s.regs_setAly sd m) (State.changesOnly_mono (s.changesOnly_setAly sd m) (by decide))

theorem State.Shifts.primedBenches (h : s₀.Shifts xs ns contentParts heldFields s) : s₀.Shifts xs ns contentParts heldFields s.primeBenches :=
  h.update rfl (State.changesOnly_mono State.changesOnly_content (by decide))
end

/-- A Side's content at the end of LOAD: the holder's, its own, or none. -/
def State.loadContent (copying : Bool) (kind : Nat) : State :=
  if copying then s.copyContent sd sd.other
  else if kind = 2 then s
  else if s.holder.isNone || s.holder = some sd then (s.setHbm sd (copyGraphics (s.hbm sd) [])).primeBenches
  else s.setHbm sd (copyGraphics (s.hbm sd) [])

theorem State.loadContent_copying (kind : Nat) : s.loadContent sd true kind = s.copyContent sd sd.other := if_pos rfl

theorem State.shifts_loadContent {xs : List Side} {ns : List RegName} (copying : Bool) (kind : Nat)
    (h : ∀ n ∈ contentRegs, ∀ i j, Region xs ns ⟨n, i, j, sd.idx⟩) : s.Shifts xs ns contentParts heldFields (s.loadContent sd copying kind) := by
  have hc := (State.shifts_refl s (xs := xs) (ns := ns) (fs := heldFields)).setAly (sd := sd) (m := s.aly sd.other) |>.setHbm (sd := sd)
    (m := copyGraphics (s.hbm sd) (s.hbm sd.other))
  exact .ite (hc.then (s.shifts_copyContent sd h) (fun _ hx => hx) (fun _ hn => hn))
    (.ite s.shifts_refl (.ite s.shifts_refl.setHbm.primedBenches s.shifts_refl.setHbm))

/-- The launch FIFOs are loaded, and the Side enters FILL. -/
def State.enterFill : State :=
  (((s.loadBufs sd).setSide sd { s.side sd with loadedAt := s.tick }).setF (R1 .RFE_RESYNC sd.idx) F.RFE_RESYNC_PHASE 2).updateStep

theorem State.changesOnly_bufs {s : State} {txBufs txFlows : _} : s.changesOnly [.txBufs, .txFlows] { s with txBufs, txFlows } := by
  intro p hp
  cases p <;> first
    | rfl
    | exact ⟨rfl, rfl⟩
    | exact ⟨rfl, rfl, rfl⟩
    | exact absurd (by decide) hp

theorem State.shifts_enterFill : s.Shifts [] stepRegs (.txBufs :: .txFlows :: stepParts) heldFields (s.enterFill sd) := by
  have hb : s.Shifts [] stepRegs (.txBufs :: .txFlows :: stepParts) heldFields (s.loadBufs sd) :=
    .ite (s.shifts_refl.update rfl (State.changesOnly_mono State.changesOnly_bufs (by decide)))
      (s.shifts_refl.update rfl (State.changesOnly_mono State.changesOnly_bufs (by decide)))
  exact hb.setSide.setF.then (State.steps_updateStep _)

theorem State.phase_enterFill : (s.enterFill sd).phase sd = 2 := by
  have h2 (t : State) : (t.setF (R1 .RFE_RESYNC sd.idx) F.RFE_RESYNC_PHASE 2).phase sd = 2 := t.phase_setF sd 2
  obtain h | ⟨h, -⟩ := State.phaseKept_updateStep (((s.loadBufs sd).setSide sd { s.side sd with loadedAt := s.tick }).setF (R1 .RFE_RESYNC sd.idx)
    F.RFE_RESYNC_PHASE 2) sd
  · exact h.trans (h2 _)
  · exact absurd ((h2 _).symm.trans h) (by decide)

theorem execResyncLoadDone_eq {at_ : Nat} (h1 : s.phase sd = 1) (hl : s.live sd = true) (ha : (s.side sd).resyncAt = some at_)
    (ht : at_ + (100 * usTicks + (if (s.side sd).loadKind = 0 ∧ s.holder = some sd.other then s.contentVolume / 256 else 0)) ≤ s.tick) :
    exec (.resyncLoadDone sd) s = .next (((s.loadTwins sd).loadContent sd ((s.side sd).loadKind = 0 && decide (s.holder = some sd.other))
      (s.side sd).loadKind).enterFill sd) := by
  refine if_neg ?_
  rw [h1, hl, ha]
  simpa using ht

theorem not_stepRegs_of_side {n : RegName} (h : n.row.space = .side) : stepRegs.contains n = false := by
  rw [← Bool.not_eq_true, List.contains_iff_mem]
  intro hc
  have : ∀ n ∈ stepRegs, n.row.space ≠ .side := by decide
  exact this n hc h

theorem not_contentRegs_of_twin {n : RegName} (h : n.row.twin = true) : contentRegs.contains n = false := by
  rw [← Bool.not_eq_true, List.contains_iff_mem]
  intro hc
  have : ∀ n ∈ contentRegs, n.row.twin = false := by decide
  exact absurd (h.symm.trans (this n hc)) (by decide)

theorem State.aly_eq_of_parts {s t : State} {ps : List Part} (h : s.changesOnly ps t) (ha : .alyA ∉ ps) (hb : .alyB ∉ ps) (x : Side) :
    t.aly x = s.aly x := by
  cases x
  · exact h .alyA ha
  · exact h .alyB hb

theorem State.aly_copyContent (x : Side) : (s.copyContent sd x).aly sd = s.aly x := by
  have hr : ∀ n ∈ contentRegs, ∀ i j, Region [sd] [] ⟨n, i, j, sd.idx⟩ := fun n hn i j =>
    .inr ⟨side_of_contentRegs hn, sd, List.mem_singleton_self _, ofSide_idx sd⟩
  rw [State.aly_eq_of_parts (s.shifts_copyContent sd hr).parts (by decide) (by decide)]
  cases sd <;> rfl

end

theorem resyncLoadDone_clause (sd : Side) (at_ : Nat) (s : State) (h1 : s.phase sd = 1) (hl : s.live sd = true) (ha : (s.side sd).resyncAt = some at_)
    (ht : at_ + (100 * usTicks + (if (s.side sd).loadKind = 0 ∧ s.holder = some sd.other then s.contentVolume / 256 else 0)) ≤ s.tick)
    (hw : Sparse.wf RegKey.lt RegKey.reset s.twins) (hs : ∀ e ∈ s.twins, e.1.name.row.space = .side) :
    ∃ t, exec (.resyncLoadDone sd) s = .next t ∧ t.phase sd = 2 ∧
      (∀ (n : RegName) (i : Nat) (v : W32), (R1 n i, v) ∈ s.twins → n.row.twin = true → t.rd (RS n sd i) = v) ∧
      ((s.side sd).loadKind = 0 → s.holder = some sd.other → t.aly sd = s.aly sd.other) ∧ t.holder = s.holder ∧
      s.disturbs [sd] [.RFE_STATE, .RFE_EVT, .RFE_RESYNC, .EVT_STATUS]
        [.regs, .fired, .sideA, .sideB, .benches, .outSince, .alyA, .alyB, .hbmA, .hbmB, .txBufs, .txFlows] t := by
  have hr : ∀ n ∈ contentRegs, ∀ i j, Region [sd] [] ⟨n, i, j, sd.idx⟩ := fun n hn i j =>
    .inr ⟨side_of_contentRegs hn, sd, List.mem_singleton_self _, ofSide_idx sd⟩
  have h2 := s.shifts_loadTwins sd hs
  have h3 (c : Bool) (k : Nat) := (s.loadTwins sd).shifts_loadContent sd c k hr
  have h4 (c : Bool) (k : Nat) := ((s.loadTwins sd).loadContent sd c k).shifts_enterFill sd
  refine ⟨_, execResyncLoadDone_eq s sd h1 hl ha ht, State.phase_enterFill _ sd, fun n i v hm ht => ?_, fun hk hh => ?_, ?_, ?_⟩
  · have hn : n.row.space = .side := hs _ hm
    have hc : contentRegs.contains n = false := not_contentRegs_of_twin ht
    rw [(h4 _ _).rd_eq (not_stepRegs_of_side hn), ((s.loadTwins sd).shifts_loadContent (xs := []) sd _ _ fun n hn _ _ => .inl hn).rd_eq hc]
    exact s.rd_loadTwins sd hw hm
  · simp only [hk, hh, decide_true, Bool.and_true]
    rw [State.aly_eq_of_parts (h4 _ _).parts (by decide) (by decide), State.loadContent_copying, State.aly_copyContent]
    exact State.aly_eq_of_parts h2.parts (by decide) (by decide) _
  · exact (h4 _ _).holder.trans ((h3 _ _).holder.trans h2.holder)
  · exact (((s.shifts_refl.then (fs := heldFields) h2 (fun _ hx => hx)).then (h3 _ _) (fun _ hx => hx)).then (h4 _ _) (List.nil_subset _)).disturbs

/-! ## A ring frame -/

/-- The registers that a ring frame can move. -/
def ringRegs : List RegName := [.HAF_EVT, .HAF_STAT, .HAF_TALLY, .RFE_STATE, .EVT_STATUS]

/-- The registers that the reading of a decision can move. -/
def statRegs : List RegName := [.HAF_EVT, .HAF_STAT, .EVT_STATUS]

/-- From `s` to `t` a ring frame has been read: registers of `ns` move, and RING_OK stands. -/
structure State.Hears (ns : List RegName) (s t : State) : Prop where
  frame : s.Shifts [] ns [.regs, .fired, .ring] [] t
  ringOk : t.flag (R0 .HAF_STAT) F.HAF_STAT_RING_OK = s.flag (R0 .HAF_STAT) F.HAF_STAT_RING_OK

section
variable {ns : List RegName} {s₀ s : State}

theorem State.hears_refl (s : State) : s.Hears ns s := ⟨s.shifts_refl, rfl⟩

theorem State.flag_ringOk_of_rd {s t : State} (h : t.rd (R0 .HAF_STAT) = s.rd (R0 .HAF_STAT)) :
    t.flag (R0 .HAF_STAT) F.HAF_STAT_RING_OK = s.flag (R0 .HAF_STAT) F.HAF_STAT_RING_OK := by
  rw [State.flag, State.fld, h, State.flag, State.fld]

theorem State.Hears.raise {f : Fld} (h : s₀.Hears ns s) (hn : statRegs ⊆ ns := by decide) : s₀.Hears ns (s.raise (R0 .HAF_EVT) f) where
  frame := h.frame.raiseWAt (.inl (hn (by decide))) (hn (by decide)) (by decide) (by decide) (by decide)
  ringOk := (State.flag_ringOk_of_rd ((s.rd_raise _ _ _ (by decide)).trans (if_neg (by decide)))).trans h.ringOk

theorem State.Hears.setStat {f : Fld} {v : Nat} (h : s₀.Hears ns s) (hf : f.apart F.HAF_STAT_RING_OK = true := by decide)
    (hn : statRegs ⊆ ns := by decide) : s₀.Hears ns (s.setF (R0 .HAF_STAT) f v) where
  frame := h.frame.wrAt (.inl (hn (by decide))) (by decide) (by decide) (by decide)
  ringOk := by
    rw [State.flag, State.fld_setF_of_apart _ _ _ hf]
    exact h.ringOk

theorem State.Hears.ring {ring : _} (h : s₀.Hears ns s) : s₀.Hears ns { s with ring } where
  frame := h.frame.update rfl (State.changesOnly_mono State.changesOnly_ring (by decide))
  ringOk := h.ringOk

theorem State.Hears.branch {c : Prop} [Decidable c] {a b : State} (h : s₀.Hears ns s) (ha : s₀.Hears ns s → s₀.Hears ns a)
    (hb : s₀.Hears ns s → s₀.Hears ns b) : s₀.Hears ns (if c then a else b) := by
  split
  · exact ha h
  · exact hb h

end

/-! ### What the frame says -/

section
variable (s : State) (bytes : List Byte)

/-- A frame more has been forwarded. -/
def State.ringUp : State := { s with ring := { s.ring with up := (s.ring.up + 1) % 256 } }

/-- The frame has been forwarded. -/
def State.ringSent : State := s.ringUp.emit (.ringFrame (s.ringUp.ringForward bytes))

/-- A good frame has come. -/
def State.ringCame : State :=
  let s := s.ringSent bytes
  let ext := s.flag (R0 .RFE_CFG) F.RFE_CFG_MODE
  let astray := ext && s.station.isNone
  let s := if s.ring.lost && !astray then s.raise (R0 .HAF_EVT) F.HAF_EVT_RING_BACK else s
  let s : State := { s with ring := { s.ring with lastGood := s.tick, lost := astray, ext := ext } }
  s.setF (R0 .HAF_STAT) F.HAF_STAT_RING_OK 1

/-- Its records have been followed. -/
def State.ringHeard : State :=
  let t := (s.ringCame bytes).ringCounts bytes
  t.setF (R0 .RFE_STATE) F.RFE_STATE_EXT_ACTIVE (b2n ((s.ringSent bytes).flag (R0 .RFE_CFG) F.RFE_CFG_MODE && t.station.isSome))

/-- The decision for this station is read. -/
def State.ringDecision (n : Nat) (ext : Bool) : State × Option Nat :=
  match s.controller bytes with
  | none => (s, none)
  | some c =>
    let code := ringByte bytes (4 + 64 * c + 2 * n - 1)
    let dseq := ringByte bytes (4 + 64 * c + 2 * n)
    let fresh := decide (s.ring.executed ≠ some dseq)
    let st := R0 .HAF_STAT
    let s := if s.fld st F.HAF_STAT_DSEQ ≠ dseq then s.raise (R0 .HAF_EVT) F.HAF_EVT_DECISION else s
    let s := (s.setF st F.HAF_STAT_DECISION (if code < 4 then code else 0)).setF st F.HAF_STAT_DSEQ dseq
    if ext && fresh then ({ s with ring := { s.ring with executed := some dseq } }, some code) else (s, none)

theorem State.changesOnly_ringSent : s.changesOnly [.out, .ring] (s.ringSent bytes) :=
  State.changesOnly_emit _ (State.changesOnly_mono State.changesOnly_ring (by decide)) (by decide)

theorem State.shifts_ringSent : s.Shifts [] ringRegs [.regs, .fired, .out, .ring] [] (s.ringSent bytes) :=
  s.shifts_refl.update rfl (State.changesOnly_mono (s.changesOnly_ringSent bytes) (by decide))

theorem State.ringTake_of_bad (h : ringGood bytes = false) :
    s.ringTake bytes = ((s.ringSent bytes).raise (R0 .HAF_EVT) F.HAF_EVT_CRC_ERR, none) :=
  if_pos (by simp [h])

theorem State.station_of_rd {s t : State} (h : t.rd (R0 .HAF_CFG) = s.rd (R0 .HAF_CFG)) : t.station = s.station := by
  unfold State.station State.fld
  rw [h]

theorem State.hears_ringCounts : s.Hears ringRegs (s.ringCounts bytes) := by
  unfold State.ringCounts
  extract_lets upd newly seen r s1 s2
  have h2 : s.Hears ringRegs s2 := s.hears_refl.ring.setStat
  exact h2.branch (·.raise) id

theorem State.shifts_ringCame : (s.ringSent bytes).Shifts [] ringRegs [.regs, .fired, .ring] [] (s.ringCame bytes) := by
  unfold State.ringCame
  extract_lets s1 ext astray s2 r s3
  have h2 : s1.Shifts [] ringRegs [.regs, .fired, .ring] [] s2 := s1.shifts_refl.branch (·.raise) id
  have h3 : s1.Shifts [] ringRegs [.regs, .fired, .ring] [] s3 := h2.update rfl (State.changesOnly_mono State.changesOnly_ring (by decide))
  exact h3.setF

theorem State.hears_ringHeard : (s.ringCame bytes).Hears ringRegs (s.ringHeard bytes) := by
  obtain ⟨hf, ho⟩ := (s.ringCame bytes).hears_ringCounts bytes
  exact ⟨hf.setState, (State.flag_ringOk_of_rd (State.rd_setF_ne _ (by decide) _ _)).trans ho⟩

theorem State.shifts_ringHeard : (s.ringSent bytes).Shifts [] ringRegs [.regs, .fired, .ring] [] (s.ringHeard bytes) :=
  (s.shifts_ringCame bytes).then (s.hears_ringHeard bytes).frame

theorem State.station_ringHeard : (s.ringHeard bytes).station = s.station :=
  (State.station_of_rd (s.shifts_ringHeard bytes).rd_eq).trans (State.station_of_rd (s.shifts_ringSent bytes).rd_eq)

theorem State.flag_ringHeard : (s.ringHeard bytes).flag (R0 .HAF_STAT) F.HAF_STAT_RING_OK = true := by
  rw [(s.hears_ringHeard bytes).ringOk, State.flag, State.ringCame]
  dsimp only
  rw [State.fld_setF_self _ _ _ _ (by decide)]
  rfl

theorem State.ringTake_of_good {n : Nat} (hg : ringGood bytes = true) (hs : s.station = some n) :
    s.ringTake bytes = ((s.ringHeard bytes).ringTally n bytes).ringDecision bytes n (s.flag (R0 .RFE_CFG) F.RFE_CFG_MODE) := by
  have he : s.ringTake bytes =
      if (!ringGood bytes) = true then ((s.ringSent bytes).raise (R0 .HAF_EVT) F.HAF_EVT_CRC_ERR, none)
      else match (s.ringHeard bytes).station with
        | none => (if ((s.ringSent bytes).flag (R0 .RFE_CFG) F.RFE_CFG_MODE && !(s.ringSent bytes).ring.lost) = true then (s.ringHeard bytes).ringLost
            else s.ringHeard bytes, none)
        | some n => ((s.ringHeard bytes).ringTally n bytes).ringDecision bytes n ((s.ringSent bytes).flag (R0 .RFE_CFG) F.RFE_CFG_MODE) := rfl
  rw [he, if_neg (by simp [hg]), s.station_ringHeard bytes, hs]
  rfl

/-! ### The tally -/

/-- Where the tally of a station stands in a frame. -/
def tallyBase (n : Nat) : Nat := if n = 1 then 260 else 388

/-- A word of the tally of a station. -/
def tallyWord (n k : Nat) : Nat :=
  ringByte bytes (tallyBase n + 4 * k) + ringByte bytes (tallyBase n + 4 * k + 1) * 0x100 + ringByte bytes (tallyBase n + 4 * k + 2) * 0x10000 +
    ringByte bytes (tallyBase n + 4 * k + 3) * 0x1000000

theorem State.ringTally_eq (n : Nat) : s.ringTally n bytes =
    if ((List.range 32).any fun k => decide (s.rd (R1 .HAF_TALLY k) ≠ w32 (tallyWord bytes n k))) = true then
      (s.wrAll (R1 .HAF_TALLY ·) (w32 <| tallyWord bytes n ·) (List.range 32)).raise (R0 .HAF_EVT) F.HAF_EVT_TALLY
    else s.wrAll (R1 .HAF_TALLY ·) (w32 <| tallyWord bytes n ·) (List.range 32) := rfl

theorem State.hears_ringTally (n : Nat) : s.Hears ringRegs (s.ringTally n bytes) := by
  have hw : s.Hears ringRegs (s.wrAll (R1 .HAF_TALLY ·) (w32 <| tallyWord bytes n ·) (List.range 32)) :=
    ⟨s.shifts_refl.wrAll _ _ fun k _ => ⟨.inl (by decide : RegName.HAF_TALLY ∈ ringRegs), nofun, nofun⟩,
      State.flag_ringOk_of_rd (State.rd_wrAll_of_ne _ _ fun k _ => by simp)⟩
  rw [State.ringTally_eq]
  exact hw.branch (·.raise) id

theorem ringByte_lt (bs : List Byte) (i : Nat) : ringByte bs i < 256 := (bs.getD i 0).isLt

theorem tallyWord_lt (n k : Nat) : tallyWord bytes n k < 2 ^ 32 := by
  have h0 := ringByte_lt bytes (tallyBase n + 4 * k)
  have h1 := ringByte_lt bytes (tallyBase n + 4 * k + 1)
  have h2 := ringByte_lt bytes (tallyBase n + 4 * k + 2)
  have h3 := ringByte_lt bytes (tallyBase n + 4 * k + 3)
  unfold tallyWord
  omega

theorem State.rd_ringTally (n : Nat) {k : Nat} (hk : k < 32) : ((s.ringTally n bytes).rd (R1 .HAF_TALLY k)).toNat = tallyWord bytes n k := by
  have hp : (List.range 32).Pairwise fun a b => R1 .HAF_TALLY a ≠ R1 .HAF_TALLY b := by
    refine List.nodup_range.imp fun hab hc => hab ?_
    simpa using hc
  have hw : (s.wrAll (R1 .HAF_TALLY ·) (w32 <| tallyWord bytes n ·) (List.range 32)).rd (R1 .HAF_TALLY k) = w32 (tallyWord bytes n k) :=
    State.rd_wrAll_of_mem (R1 .HAF_TALLY ·) _ hp (List.mem_range.mpr hk)
  have hr : (s.ringTally n bytes).rd (R1 .HAF_TALLY k) = w32 (tallyWord bytes n k) := by
    rw [State.ringTally_eq]
    split
    · rw [State.rd_raise _ _ _ _ (by decide : RegName.HAF_TALLY ≠ .EVT_STATUS), if_neg (by simp), hw]
    · exact hw
  rw [hr, w32, BitVec.toNat_ofNat, Nat.mod_eq_of_lt (tallyWord_lt bytes n k)]

/-! ### The decision -/

theorem State.hears_ringDecision (n : Nat) (ext : Bool) : s.Hears statRegs (s.ringDecision bytes n ext).1 := by
  unfold State.ringDecision
  split
  · exact s.hears_refl
  · next c _ =>
    extract_lets code dseq fresh st s1 s2
    have h1 : s.Hears statRegs s1 := s.hears_refl.branch (·.raise) id
    have h2 : s.Hears statRegs s2 := h1.setStat.setStat
    split
    · exact h2.ring
    · exact h2

theorem State.ringDecision_internal (n : Nat) : (s.ringDecision bytes n false).2 = none := by
  unfold State.ringDecision
  split <;> rfl

/-- A decision of station 0 that is new is to be executed. -/
theorem State.ringDecision_new {n : Nat} (hc : s.controller bytes = some 0) (he : s.ring.executed ≠ some (ringByte bytes (4 + 2 * n))) :
    (s.ringDecision bytes n true).1.ring.executed = some (ringByte bytes (4 + 2 * n)) ∧
      (s.ringDecision bytes n true).2 = some (ringByte bytes (3 + 2 * n)) := by
  have hi : 4 + 64 * 0 + 2 * n - 1 = 3 + 2 * n := by omega
  have hb : (true && decide (s.ring.executed ≠ some (ringByte bytes (4 + 2 * n)))) = true := by simpa using he
  unfold State.ringDecision
  rw [hc]
  dsimp only
  rw [hi, Nat.mul_zero, Nat.add_zero, if_pos hb]
  exact ⟨rfl, rfl⟩

theorem State.ring_raise (k : RegKey) (f : Fld) : (s.raise k f).ring = s.ring :=
  (State.changesOnly_raise k f (s.changesOnly_refl [.regs, .fired]) (by decide) (by decide)) .ring (by decide)

theorem State.ring_wrAll {α : Type} (g : α → RegKey) (f : α → W32) (l : List α) : (s.wrAll g f l).ring = s.ring := by
  unfold State.wrAll
  induction l generalizing s with
  | nil => rfl
  | cons e l ih => exact ih (s.wr (g e) (f e))

theorem State.ring_ringTally (n : Nat) : (s.ringTally n bytes).ring = s.ring := by
  rw [State.ringTally_eq]
  split
  · rw [State.ring_raise, State.ring_wrAll]
  · rw [State.ring_wrAll]

theorem State.ring_ringCame : (s.ringCame bytes).ring.counts = s.ring.counts ∧ (s.ringCame bytes).ring.executed = s.ring.executed := by
  have hr := (s.ringSent bytes).ring_raise (R0 .HAF_EVT) F.HAF_EVT_RING_BACK
  have hc := congrArg Ring.counts hr
  have he := congrArg Ring.executed hr
  unfold State.ringCame
  dsimp only
  split
  · exact ⟨hc, he⟩
  · exact ⟨rfl, rfl⟩

/-- A record whose update count has changed is not stale. -/
theorem State.counts_ringCounts (h : (s.ring.counts.getD 0 (none, 0)).1 ≠ some (ringByte bytes 4)) :
    (s.ringCounts bytes).ring.counts.getD 0 (none, 0) = (some (ringByte bytes 4), 0) ∧ (s.ringCounts bytes).ring.executed = s.ring.executed := by
  unfold State.ringCounts
  extract_lets upd newly seen r s1 s2
  have h0 : upd.getD 0 (none, 0) = (some (ringByte bytes 4), 0) := if_neg h
  have h2 : s2.ring.counts.getD 0 (none, 0) = (some (ringByte bytes 4), 0) ∧ s2.ring.executed = s.ring.executed := ⟨h0, rfl⟩
  split
  · rwa [State.ring_raise]
  · exact h2

/-- The ring's state at the decision: only the records' counts and the frame's arrival have changed. -/
theorem State.ring_ringTallied (n : Nat) (h : (s.ring.counts.getD 0 (none, 0)).1 ≠ some (ringByte bytes 4)) :
    ((s.ringHeard bytes).ringTally n bytes).ring.counts.getD 0 (none, 0) = (some (ringByte bytes 4), 0) ∧
      ((s.ringHeard bytes).ringTally n bytes).ring.executed = s.ring.executed := by
  have hr : ((s.ringHeard bytes).ringTally n bytes).ring = ((s.ringCame bytes).ringCounts bytes).ring :=
    (State.ring_ringTally (s.ringHeard bytes) bytes n).trans rfl
  have hc : (s.ringCame bytes).ring.counts = s.ring.counts ∧ (s.ringCame bytes).ring.executed = s.ring.executed := s.ring_ringCame bytes
  obtain ⟨h1, h2⟩ := (s.ringCame bytes).counts_ringCounts bytes (by rwa [hc.1])
  rw [hr]
  exact ⟨h1, h2.trans hc.2⟩
end

/-! ### The arrival of a frame -/

section
variable {bytes : List Byte} {s : State}

theorem execRingFrame_of_none (h0 : s.aoReset = false) (hb : s.ring.bypassed = false) (h : (s.ringTake bytes).2 = none) :
    exec (.ringFrame bytes) s = .next (s.ringTake bytes).1 := by
  have hc : ¬ (s.aoReset = true ∨ s.ring.bypassed = true) := by simp [h0, hb]
  show execRingFrame bytes s = _
  rw [execRingFrame, if_neg hc]
  dsimp only
  rw [h]

theorem execRingFrame_of_some {code : Nat} (h0 : s.aoReset = false) (hb : s.ring.bypassed = false) (h : (s.ringTake bytes).2 = some code) :
    exec (.ringFrame bytes) s = .next ((s.ringTake bytes).1.decide_ code) := by
  have hc : ¬ (s.aoReset = true ∨ s.ring.bypassed = true) := by simp [h0, hb]
  show execRingFrame bytes s = _
  rw [execRingFrame, if_neg hc]
  dsimp only
  rw [h]

theorem State.sends_of_out {s t : State} {es : List Emit} (h : t.out = s.out ++ es) : s.sends t ∧ s.sent t = es := by
  have hs : s.sent t = es := by rw [State.sent, h, List.drop_left]
  exact ⟨by rw [State.sends, hs, h], hs⟩

/-- One frame has been forwarded. -/
theorem State.sent_ringSent {t : State} (h : t.out = (s.ringSent bytes).out) : s.sends t ∧ s.sent t = [.ringFrame (s.ringUp.ringForward bytes)] :=
  State.sends_of_out h

/-- With ENABLE 0 a frame is forwarded as it came. -/
theorem State.ringForward_of_disabled (h : s.flag (R0 .HAF_CFG) F.HAF_CFG_ENABLE = false) : s.ringForward bytes = bytes := by
  unfold State.ringForward
  split
  · exact if_neg (by simp [h])
  · rfl

theorem ringFrame_bad (bytes : List Byte) (s : State) (h0 : s.aoReset = false) (hb : s.ring.bypassed = false) (hg : ringGood bytes = false) :
    ∃ t, exec (.ringFrame bytes) s = .next t ∧ s.sends t ∧ (s.sent t).length = 1 ∧ (s.flag (R0 .HAF_CFG) F.HAF_CFG_ENABLE = false → s.sent t = [.ringFrame bytes]) ∧
      t.flag (R0 .HAF_EVT) F.HAF_EVT_CRC_ERR = true ∧ s.touches [.HAF_EVT, .EVT_STATUS] [.regs, .fired, .out, .ring] t := by
  have ht := s.ringTake_of_bad bytes hg
  have hr : (s.ringSent bytes).Shifts [] [.HAF_EVT, .EVT_STATUS] [.regs, .fired] [] ((s.ringSent bytes).raise (R0 .HAF_EVT) F.HAF_EVT_CRC_ERR) :=
    (State.shifts_refl _).raise
  have ho := hr.parts .out (by decide)
  refine ⟨_, execRingFrame_of_none h0 hb (by rw [ht]), ?_⟩
  rw [ht]
  obtain ⟨h1, h2⟩ := State.sent_ringSent ho
  refine ⟨h1, congrArg List.length h2, fun he => ?_, State.flag_raise _ _ _ (by decide) (by decide), ?_⟩
  · have hf : s.ringUp.ringForward bytes = bytes := State.ringForward_of_disabled he
    rw [h2, hf]
  · have hf : s.Shifts [] [.HAF_EVT, .EVT_STATUS] [.regs, .fired, .out, .ring] [] (s.ringSent bytes) :=
      s.shifts_refl.update rfl (State.changesOnly_mono (s.changesOnly_ringSent bytes) (by decide))
    exact (hf.then hr).touches

/-! ### A good frame -/

/-- What a good frame does, but for the decision to be executed. -/
structure State.Heard (s : State) (bytes : List Byte) (n : Nat) (t : State) : Prop where
  frame : s.touches ringRegs [.regs, .fired, .out, .ring] t
  out : t.out = (s.ringSent bytes).out
  ringOk : t.flag (R0 .HAF_STAT) F.HAF_STAT_RING_OK = true
  tally : ∀ k < 32, (t.rd (R1 .HAF_TALLY k)).toNat = tallyWord bytes n k

theorem State.heard_ringTake {n : Nat} (hg : ringGood bytes = true) (hs : s.station = some n) : s.Heard bytes n (s.ringTake bytes).1 := by
  rw [s.ringTake_of_good bytes hg hs]
  have h1 := s.shifts_ringHeard bytes
  have h2 := (s.ringHeard bytes).hears_ringTally bytes n
  have h3 := ((s.ringHeard bytes).ringTally n bytes).hears_ringDecision bytes n (s.flag (R0 .RFE_CFG) F.RFE_CFG_MODE)
  have h4 := (h1.then h2.frame).then h3.frame
  refine ⟨((s.shifts_ringSent bytes).then h4).touches, h4.parts .out (by decide), ?_, fun k hk => ?_⟩
  · rw [h3.ringOk, h2.ringOk, s.flag_ringHeard bytes]
  · rw [h3.frame.rd_eq, State.rd_ringTally _ _ _ hk]

theorem ringFrame_internal (bytes : List Byte) (n : Nat) (s : State) (h0 : s.aoReset = false) (hb : s.ring.bypassed = false) (hg : ringGood bytes = true)
    (hs : s.station = some n) (hm : s.flag (R0 .RFE_CFG) F.RFE_CFG_MODE = false) :
    ∃ t, exec (.ringFrame bytes) s = .next t ∧ s.sends t ∧ (s.sent t).length = 1 ∧ t.flag (R0 .HAF_STAT) F.HAF_STAT_RING_OK = true ∧
      (∀ k : Fin 32, (t.rd (R1 .HAF_TALLY k)).toNat = ringByte bytes ((if n = 1 then 260 else 388) + 4 * k) + ringByte bytes ((if n = 1 then 260 else 388) + 4 * k + 1) * 0x100 +
        ringByte bytes ((if n = 1 then 260 else 388) + 4 * k + 2) * 0x10000 + ringByte bytes ((if n = 1 then 260 else 388) + 4 * k + 3) * 0x1000000) ∧
      s.touches [.HAF_EVT, .HAF_STAT, .HAF_TALLY, .RFE_STATE, .EVT_STATUS] [.regs, .fired, .out, .ring] t := by
  have ht := State.heard_ringTake hg hs
  have hn : (s.ringTake bytes).2 = none := by
    rw [s.ringTake_of_good bytes hg hs, hm]
    exact State.ringDecision_internal _ _ _
  obtain ⟨h1, h2⟩ := State.sent_ringSent ht.out
  exact ⟨_, execRingFrame_of_none h0 hb hn, h1, congrArg List.length h2, ht.ringOk, fun k => ht.tally k k.isLt, ht.frame⟩

/-- A new decision of station 0 is to be executed. -/
theorem State.ringTake_new {n : Nat} (hg : ringGood bytes = true) (hs : s.station = some n) (hm : s.flag (R0 .RFE_CFG) F.RFE_CFG_MODE = true)
    (hc : (s.ring.counts.getD 0 (none, 0)).1 ≠ some (ringByte bytes 4)) (h9 : ringByte bytes 9 = 1)
    (he : s.ring.executed ≠ some (ringByte bytes (4 + 2 * n))) :
    (s.ringTake bytes).1.ring.executed = some (ringByte bytes (4 + 2 * n)) ∧ (s.ringTake bytes).2 = some (ringByte bytes (3 + 2 * n)) := by
  obtain ⟨h0, h1⟩ := s.ring_ringTallied bytes n hc
  rw [s.ringTake_of_good bytes hg hs, hm]
  refine State.ringDecision_new _ _ ?_ (by rwa [h1])
  refine List.find?_cons_of_pos ?_
  rw [h0]
  simp [h9]

/-! ## A decision is executed -/

/-- From `s₀` to `s` only what a standby's settling can change has changed. -/
abbrev State.Settles (s₀ s : State) : Prop := s₀.Shifts [.A, .B] resetRegs (.hbmA :: .hbmB :: moveParts) heldFields s

theorem State.settles_settleStandby (s : State) (y : Side) : s.Settles (s.settleStandby y) := by
  unfold State.settleStandby
  extract_lets x s1 s2 s3 r s4
  split
  · exact s.shifts_refl
  · split
    · have h2 : s.Settles s2 := s.shifts_refl.move.foldl fun _ _ h => h.setFSide.setFSide
      clear_value s2
      have h3 : s.Settles s3 := h2.move
      clear_value s3
      exact h3.setSide.setFSide.then (State.steps_updateStep _)
    · have h1 : s.Settles (s.clearSide y) := s.shifts_refl.then (s.shifts_clearSide y) (by cases y <;> decide)
      have h4 : s.Settles s4 := h1.update ((s.clearSide y).regs_setHbm y []) (State.changesOnly_mono (State.changesOnly_setHbm _ y []) (by decide))
      clear_value s4
      exact h4.setSide.then (State.steps_updateStep _)
    · exact s.shifts_refl

theorem State.fld_flipTo (s : State) (y : Side) (cause line : Nat) :
    (s.flipTo y cause line).fld (R0 .RFE_STATE) F.RFE_STATE_STATE = y.idx + 1 ∧
      ∃ v, (s.flipTo y cause line).rd (R0 .RFE_LAST) = w32 (cause + 8 * v) := by
  unfold State.flipTo
  extract_lets lacks s1 s2 s3 s4
  have hw : (s4.select y).Resets (((s4.select y).wakeHolder y).updateStep) := (State.shifts_refl _).wakeHolder.updateStep
  refine ⟨(hw.fields _ (by decide)).trans (s4.fld_select y), y.other.idx + 2 * b2n lacks + 4 * line, ?_⟩
  rw [hw.rd_eq_of_shared, (s4.votes_select y).rd_eq, State.rd_raise _ _ _ _ (by decide), if_neg (by decide), State.rd_wr_self]
  congr 1
  omega
end

/-- What a decision can change. -/
abbrev State.Decides (s₀ s : State) : Prop := s₀.Shifts [.A, .B] (assayRegs ++ moveRegs) (.sevAt :: .hbmA :: .hbmB :: moveParts) [] s

section
variable (s : State)

/-- The state after the errors and an expiry of the cycle. -/
def State.settled : State := (s.cycle []).expire

theorem State.decides_settled : s.Decides s.settled := by
  have h1 : s.Decides (s.cycle []) := s.shifts_refl.then (s.cycles_cycle [])
  have h2 : (s.cycle []).Moves (s.cycle []).expire := (State.shifts_refl _).expire
  exact h1.then h2

/-- The decision that a Side is to hold the lease. -/
def State.decideSide (y : Side) : State :=
  if s.ready y then
    match (s.setQuiet false).holder with
    | some x => if x = y then s.setQuiet false else ((s.setQuiet false).flipTo y 6 0).settleStandby x
    | none => s.setQuiet false
  else (s.raise (R0 .RFE_EVT) F.RFE_EVT_EXT_DISAGREE).cycle [(34, 3)]

theorem State.decide_side (y : Side) : s.decide_ (y.idx + 1) = s.settled.decideSide y := by cases y <;> rfl

theorem State.decide_quiet : s.decide_ 3 = (s.settled.setQuiet true).raise (R0 .RFE_EVT) F.RFE_EVT_QUIET := rfl

theorem State.decides_decideSide (y : Side) : s.Decides (s.decideSide y) := by
  have hq : s.Decides (s.setQuiet false) := s.shifts_refl.setState
  unfold State.decideSide
  split
  · split
    · have hf : (s.setQuiet false).Moves ((s.setQuiet false).flipTo y 6 0) := (State.shifts_refl _).flipTo
      exact .ite hq ((hq.then hf).then (State.settles_settleStandby _ _))
    · exact hq
  · have hr : s.Decides (s.raise (R0 .RFE_EVT) F.RFE_EVT_EXT_DISAGREE) := s.shifts_refl.raise
    exact hr.then (State.cycles_cycle _ _)

theorem State.decides_decide (code : Nat) : s.Decides (s.decide_ code) := by
  have hq (q : Bool) : s.Decides (s.settled.setQuiet q) := s.decides_settled.setState
  match code with
  | 0 => exact hq false
  | 1 => exact (s.decide_side .A) ▸ s.decides_settled.then (State.decides_decideSide _ _)
  | 2 => exact (s.decide_side .B) ▸ s.decides_settled.then (State.decides_decideSide _ _)
  | 3 => exact (hq true).raise
  | _ + 4 => exact hq false

theorem State.flag_setQuiet (q : Bool) : (s.setQuiet q).flag (R0 .RFE_STATE) F.RFE_STATE_QUIET = q := by
  rw [State.flag, State.setQuiet, State.fld_setF_self _ _ _ _ (by decide)]
  cases q <;> rfl

/-- A decision QUIET sets QUIET. -/
theorem State.flag_decide_quiet : (s.decide_ 3).flag (R0 .RFE_STATE) F.RFE_STATE_QUIET = true := by
  rw [State.decide_quiet, State.flag, State.fld, State.rd_raise _ _ _ _ (by decide), if_neg (by decide)]
  exact s.settled.flag_setQuiet true

/-- The lease has moved from a Side to the other by a decision. -/
structure State.movedTo (y : Side) (t : State) : Prop where
  holder : t.holder = some y
  quiet : t.flag (R0 .RFE_STATE) F.RFE_STATE_QUIET = false
  cause : t.fld (R0 .RFE_LAST) F.RFE_LAST_CAUSE = 6

theorem State.movedTo_decideSide {x : Side} (h : s.holder = some x) (hr : s.ready x.other = true) : State.movedTo x.other (s.decideSide x.other) := by
  have hq : (s.setQuiet false).holder = some x := (State.holder_of_fld (State.fld_setF_of_apart _ _ _ (by decide))).trans h
  have hne : x ≠ x.other := by cases x <;> decide
  have he : s.decideSide x.other = ((s.setQuiet false).flipTo x.other 6 0).settleStandby x := by
    rw [State.decideSide, if_pos hr, hq]
    exact if_neg hne
  have hf : (s.setQuiet false).Moves ((s.setQuiet false).flipTo x.other 6 0) := (State.shifts_refl _).flipTo
  have hs := State.settles_settleStandby ((s.setQuiet false).flipTo x.other 6 0) x
  obtain ⟨hst, v, hl⟩ := (s.setQuiet false).fld_flipTo x.other 6 0
  rw [he]
  refine ⟨hs.holder.trans (State.holder_eq_some hst), ?_, ?_⟩
  · rw [hs.flag_state (by decide), hf.flag_state (by decide), State.flag_setQuiet]
  · rw [State.fld, hs.rd_eq_of_shared, hl, getF, w32, BitVec.toNat_ofNat]
    show (6 + 8 * v) % 2 ^ 32 / 2 ^ 0 % 2 ^ 3 = 6
    omega
end

theorem ringFrame_external (bytes : List Byte) (n : Nat) (s : State) (h0 : s.aoReset = false) (hb : s.ring.bypassed = false) (hg : ringGood bytes = true)
    (hs : s.station = some n) (hm : s.flag (R0 .RFE_CFG) F.RFE_CFG_MODE = true) (hc : (s.ring.counts.getD 0 (none, 0)).1 ≠ some (ringByte bytes 4))
    (h9 : ringByte bytes 9 = 1) (he : s.ring.executed ≠ some (ringByte bytes (4 + 2 * n))) :
    ∃ t, exec (.ringFrame bytes) s = .next t ∧ t = (s.ringTake bytes).1.decide_ (ringByte bytes (3 + 2 * n)) ∧
      (s.ringTake bytes).1.ring.executed = some (ringByte bytes (4 + 2 * n)) ∧
      (ringByte bytes (3 + 2 * n) = 3 → t.flag (R0 .RFE_STATE) F.RFE_STATE_QUIET = true) ∧
      (∀ x : Side, ((s.ringTake bytes).1.cycle []).expire.holder = some x → ringByte bytes (3 + 2 * n) = x.other.idx + 1 →
        ((s.ringTake bytes).1.cycle []).expire.ready x.other = true →
        t.holder = some x.other ∧ t.flag (R0 .RFE_STATE) F.RFE_STATE_QUIET = false ∧ t.fld (R0 .RFE_LAST) F.RFE_LAST_CAUSE = 6) ∧
      s.touches [.HAF_EVT, .HAF_STAT, .HAF_TALLY, .RFE_STATE, .EVT_STATUS] [.regs, .fired, .out, .ring] (s.ringTake bytes).1 ∧
      (s.ringTake bytes).1.disturbs [.A, .B] (assayRegs ++ moveRegs) (.sevAt :: .hbmA :: .hbmB :: moveParts) t := by
  obtain ⟨hx, ho⟩ := State.ringTake_new hg hs hm hc h9 he
  refine ⟨_, execRingFrame_of_some h0 hb ho, rfl, hx, fun h => ?_, fun x hh hcode hr => ?_, (State.heard_ringTake hg hs).frame,
    (State.decides_decide _ _).disturbs⟩
  · rw [h]
    exact State.flag_decide_quiet _
  · rw [hcode, State.decide_side]
    obtain ⟨h1, h2, h3⟩ := State.movedTo_decideSide _ hh hr
    exact ⟨h1, h2, h3⟩

/-! ## The ring is lost -/

/-- No good frame has come for TIMEOUT. -/
def State.ringGone (s : State) : State := { s with ring := { s.ring with lost := true } }.setF (R0 .HAF_STAT) F.HAF_STAT_RING_OK 0

/-- The ring's loss is noted, and the external decisions end. -/
def State.lossNoted (s : State) : State :=
  (((s.raise (R0 .HAF_EVT) F.HAF_EVT_RING_LOST).raise (R0 .RFE_EVT) F.RFE_EVT_EXT_TIMEOUT).setQuiet false).setF (R0 .RFE_STATE) F.RFE_STATE_EXT_ACTIVE 0

section
variable (s : State)

theorem State.shifts_lossNoted : s.Shifts [] [.HAF_EVT, .RFE_EVT, .RFE_STATE, .EVT_STATUS] [.regs, .fired] [] s.lossNoted :=
  s.shifts_refl.raise.raise.setState.setState

theorem State.flags_lossNoted : s.lossNoted.flag (R0 .HAF_EVT) F.HAF_EVT_RING_LOST = true ∧
    s.lossNoted.flag (R0 .RFE_EVT) F.RFE_EVT_EXT_TIMEOUT = true ∧ s.lossNoted.flag (R0 .RFE_STATE) F.RFE_STATE_QUIET = false ∧
    s.lossNoted.flag (R0 .RFE_STATE) F.RFE_STATE_EXT_ACTIVE = false := by
  unfold State.lossNoted
  refine ⟨?_, ?_, ?_, ?_⟩
  · rw [State.flag, State.fld_setF_ne _ (by decide), State.setQuiet, State.fld_setF_ne _ (by decide), State.fld, State.rd_raise _ _ _ _ (by decide),
      if_neg (by decide)]
    exact State.flag_raise _ _ _ (by decide) (by decide)
  · rw [State.flag, State.fld_setF_ne _ (by decide), State.setQuiet, State.fld_setF_ne _ (by decide)]
    exact State.flag_raise _ _ _ (by decide) (by decide)
  · rw [State.flag, State.fld_setF_of_apart _ _ _ (by decide)]
    exact State.flag_setQuiet _ _
  · rw [State.flag, State.fld_setF_self _ _ _ _ (by decide)]
    rfl

end

theorem ringTimeout_clause (s : State) (h0 : s.aoReset = false) (hl : s.ring.lost = false)
    (ht : s.ring.lastGood + max 1 (s.fld (R0 .HAF_CFG) F.HAF_CFG_TIMEOUT) * msTicks ≤ s.tick) :
    ∃ t, exec .ringTimeout s = .next t ∧ t.ring.lost = true ∧ t.flag (R0 .HAF_STAT) F.HAF_STAT_RING_OK = false ∧
      t.flag (R0 .HAF_EVT) F.HAF_EVT_RING_LOST = true ∧ t.flag (R0 .RFE_EVT) F.RFE_EVT_EXT_TIMEOUT = true ∧
      t.flag (R0 .RFE_STATE) F.RFE_STATE_QUIET = false ∧ t.flag (R0 .RFE_STATE) F.RFE_STATE_EXT_ACTIVE = false ∧
      s.disturbs [.A, .B] ([.HAF_EVT, .HAF_STAT] ++ assayRegs ++ moveRegs) ([.ring, .sevAt] ++ moveParts) t := by
  have he : exec .ringTimeout s = .next (s.ringGone.lossNoted.cycle []) := by
    have hc : ¬ (s.aoReset = true ∨ s.tick < s.ring.lastGood + max 1 (s.fld (R0 .HAF_CFG) F.HAF_CFG_TIMEOUT) * msTicks) := by
      simp [h0, ht]
    show execRingTimeout s = _
    simp only [execRingTimeout, if_neg hc, hl]
    rfl
  have h2 := s.ringGone.shifts_lossNoted
  have h3 := s.ringGone.lossNoted.cycles_cycle []
  obtain ⟨h4, h5, h6, h7⟩ := s.ringGone.flags_lossNoted
  refine ⟨_, he, ?_, ?_, ?_, h3.flag_evt h5, (h3.flag_state (by decide)).trans h6, (h3.flag_state (by decide)).trans h7, ?_⟩
  · rw [h3.parts .ring (by decide), h2.parts .ring (by decide)]
    rfl
  · rw [State.flag, State.fld, h3.rd_eq_of_shared, h2.rd_eq]
    exact (State.flag_ringOk_of_rd rfl).trans (by rw [State.flag, State.ringGone, State.fld_setF_self _ _ _ _ (by decide)]; rfl)
  · rw [State.flag, State.fld, h3.rd_eq_of_shared]
    exact h4
  · have h1 : s.Shifts [.A, .B] ([.HAF_EVT, .HAF_STAT] ++ assayRegs ++ moveRegs) ([.ring, .sevAt] ++ moveParts) [] s.ringGone :=
      State.Shifts.setF (s.shifts_refl.update rfl (State.changesOnly_mono State.changesOnly_ring (by decide)))
    exact ((h1.then h2).then h3).disturbs

/-- Settles O20: the loads, the ring's commands, the votes and the bypass, a lemma for each clause. -/
theorem resynchronisationRingAndVoters : Obligations.ResynchronisationRingAndVoters := by
  unfold Obligations.ResynchronisationRingAndVoters
  refine ⟨resyncLoadDone_clause, resyncFillDone_clause, resyncFillDone_early, ringFrame_bad, fun bytes n s h0 hb hg hs => ⟨?_, ?_⟩, ringTimeout_clause,
    claimConflict_clause, claimConflict_early, voteMismatch_clause, voteMismatch_agreed, harifBypassOpen_clause, bypassSupplyLoss_clause⟩
  · exact ringFrame_internal bytes n s h0 hb hg hs
  · exact ringFrame_external bytes n s h0 hb hg hs

end Sys2Proof.Machine
end


section
/-! # A register that a read clears (O59)

A read of STR_HP_STAT clears RESETS and adds what has set in the present tick. Where a state's record of what has set names LINK_UP of port 0, which
no update of the model enters there, a read beat that the reset of port 1 cuts raises it. -/
namespace Sys2Proof.Machine
set_option Elab.async false

/-- A state whose record of what has set in the present tick names LINK_UP of host port 0, and in which the link of port 1 is up. -/
def strayNow : State := { aoReset := false, regs := [(R1 .STR_HP_STAT 1, 1#32)], setNow := [(R1 .STR_HP_STAT 0, 1#32)] }

/-- The reset of port 1 cuts a read beat of port 0's STR_HP_STAT. -/
def strayCut : Cut := { reads := [0x500080#32] }

/-- The state after the reset of port 1. -/
def strayReset : State := strayNow.resetPort 1 strayCut true

theorem strayReset_linkUp : strayReset.flag (R1 .STR_HP_STAT 0) F.STR_HP_STAT_LINK_UP = true := by decide +kernel

theorem execBankSupplyFail_strayNow : exec (.bankSupplyFail .E 0 {} strayCut) strayNow = .next ((strayReset.bankFail .E 0).cycle []) := by
  have h0 : strayNow.flag (R1 .STR_HP_STAT 0) F.STR_HP_STAT_LINK_UP = false := by decide +kernel
  have h1 : strayNow.flag (R1 .STR_HP_STAT 1) F.STR_HP_STAT_LINK_UP = true := by decide +kernel
  have hc : ¬ (strayNow.aoReset = true ∨ strayNow.bankLost.contains .E = true) := by decide +kernel
  show execBankSupplyFail .E 0 {} strayCut strayNow = _
  simp only [execBankSupplyFail, if_neg hc, h0, h1]
  rfl

/-! ## The failure of a bank without lanes in use, and the cycle, leave the host ports' status -/

theorem List.foldl_eq_self {α β : Type} {f : α → β → α} {a : α} {l : List β} (h : ∀ x ∈ l, f a x = a) : l.foldl f a = a := by
  induction l with
  | nil => rfl
  | cons x l ih =>
    rw [List.foldl_cons, h x List.mem_cons_self]
    exact ih fun y hy => h y (List.mem_cons_of_mem x hy)

theorem State.portDown_of_down {s : State} {i : Nat} (h : s.portUp i = false) : s.portDown i = s := by
  rw [State.portDown, h, Bool.not_false, if_pos rfl]

section
variable {s : State}

/-- The state in which a bank's supplies are lost and RAIL_FAIL has set, and no lane has gone off. -/
def State.railFailed (s : State) (b : Bank) (ctx : W32) : State :=
  { s with bankLost := b :: s.bankLost, envLines := (bankLine b, ctx) :: s.envLines.filter fun p => decide (p.1 ≠ bankLine b) }.raise
    (R0 .SYS_EVT) F.SYS_EVT_RAIL_FAIL

theorem State.bankFail_eq (s : State) (b : Bank) (ctx : W32) : s.bankFail b ctx =
    if b = .E then (((s.railFailed b ctx).bankOff b).portDown 128).portDown 129 else (s.railFailed b ctx).bankOff b := rfl

/-- The state in which Bank E's supplies are lost, without context. -/
def State.railFail (s : State) : State := s.railFailed .E 0

/-- The quads of Bank E are off, and the standby's being in step is brought up to date. -/
def State.quadsOff (s : State) : State := ((List.range 64).foldl (fun (s : State) q => s.quadOff (64 * Bank.E.idx + q)) s).updateStep

theorem State.shifts_quadsOff (s : State) : s.Shifts [] (.LANE_QSTAT :: stepRegs) stepParts heldFields s.quadsOff :=
  State.Shifts.then (State.Shifts.foldl s.shifts_refl fun _ _ h => h.setF.setF) (State.steps_updateStep _)

theorem State.bankOff_of_idle (hl : ∀ n ∈ bankLanes .E, s.laneProto n = 0) : s.bankOff .E = s.quadsOff := by
  have hf : (bankLanes .E).foldl (fun (s : State) n => if s.laneProto n = 0 then s else (s.losSet n).enterPark n 3) s = s :=
    List.foldl_eq_self fun n hn => if_pos (hl n hn)
  unfold State.bankOff
  rw [hf]
  rfl

theorem State.portUp_quadsOff (s : State) (i : Nat) : s.quadsOff.portUp i = s.portUp i := by
  rw [State.portUp, s.shifts_quadsOff.rd_eq, State.portUp]

theorem State.bankFail_of_idle (hl : ∀ n ∈ bankLanes .E, s.railFail.laneProto n = 0) (hp : s.railFail.portUp 128 = false ∧ s.railFail.portUp 129 = false) :
    s.bankFail .E 0 = s.railFail.quadsOff := by
  have h8 := (s.railFail.portUp_quadsOff 128).trans hp.1
  have h9 := (s.railFail.portUp_quadsOff 129).trans hp.2
  rw [State.bankFail_eq, if_pos rfl, ← State.railFail, State.bankOff_of_idle hl, State.portDown_of_down h8, State.portDown_of_down h9]

theorem State.rd_hpStat_of_idle (hl : ∀ n ∈ bankLanes .E, s.railFail.laneProto n = 0)
    (hp : s.railFail.portUp 128 = false ∧ s.railFail.portUp 129 = false) (p : Nat) :
    ((s.bankFail .E 0).cycle []).rd (R1 .STR_HP_STAT p) = s.rd (R1 .STR_HP_STAT p) := by
  rw [(State.cycles_cycle _ []).rd_eq_of_shared, State.bankFail_of_idle hl hp, s.railFail.shifts_quadsOff.rd_eq]
  exact (State.rd_raise _ _ _ _ (by simp)).trans (if_neg (by simp))

end

/-- No lane and no control port of the state is in use. -/
theorem strayReset_idle : (∀ n ∈ bankLanes .E, strayReset.railFail.laneProto n = 0) ∧
    strayReset.railFail.portUp 128 = false ∧ strayReset.railFail.portUp 129 = false := by decide +kernel

theorem strayReset_cycle_linkUp : ((strayReset.bankFail .E 0).cycle []).flag (R1 .STR_HP_STAT 0) F.STR_HP_STAT_LINK_UP = true := by
  obtain ⟨hl, hp⟩ := strayReset_idle
  have hr := State.rd_hpStat_of_idle hl hp 0
  rw [State.flag, State.fld, hr]
  exact strayReset_linkUp

/-- Refutes O59: in `strayNow` the failure of Bank E leaves host port 0 with LINK_UP 1, because a read of STR_HP_STAT, which the reset of port 1
cuts, adds to the register what the state says has set in the present tick. -/
theorem not_suppliesAndTemperatures : ¬ Obligations.SuppliesAndTemperatures := by
  unfold Obligations.SuppliesAndTemperatures
  rintro ⟨-, hE, -⟩
  obtain ⟨u, hu, -, hdown⟩ := hE 0 {} strayCut strayNow (by decide) (by decide)
  have he : (strayReset.bankFail .E 0).cycle [] = u := Host.Outcome.next.inj (execBankSupplyFail_strayNow.symm.trans hu)
  have hup := strayReset_cycle_linkUp
  rw [he] at hup
  exact absurd (hup.symm.trans (hdown 0)) (by decide)

end Sys2Proof.Machine
end

section
/-! # The inputs: banks and merges (O6, O7, O8)

The frame of the functions of the banks, of the merges and of what follows an SOF, and what each leaves alone of the input streams, of the other merges
and of the inputs' status. -/
namespace Sys2Proof.Machine
set_option Elab.async false

section
variable {xs : List Side} {ns : List RegName} {ps : List Part} {fs : List Fld} {s₀ s t : State}

/-- A change of listed parts of the state other than the registers. -/
theorem State.Shifts.alter (h : s₀.Shifts xs ns ps fs s) (hr : t.regs = s.regs := by rfl)
    (hc : s.changesOnly ps t := by
      intro p hp
      cases p <;> first
        | rfl
        | exact ⟨rfl, rfl⟩
        | exact ⟨rfl, rfl, rfl⟩
        | exact absurd (by decide) hp) : s₀.Shifts xs ns ps fs t := h.update hr hc

theorem State.Shifts.eachSide {f : Side → State → State} (h : s₀.Shifts xs ns ps fs s)
    (hf : ∀ sd s, s₀.Shifts xs ns ps fs s → s₀.Shifts xs ns ps fs (f sd s)) : s₀.Shifts xs ns ps fs (s.eachSide f) :=
  (h.branch (hf _ _) id).branch (hf _ _) id

theorem State.Shifts.iteSnd {α : Type} {c : Prop} [Decidable c] {a b : α × State} (ha : s₀.Shifts xs ns ps fs a.2) (hb : s₀.Shifts xs ns ps fs b.2) :
    s₀.Shifts xs ns ps fs (if c then a else b).2 := by
  split
  · exact ha
  · exact hb

/-- Where no Side's condition moves, the crosspoint works where it did. -/
theorem State.Shifts.routing_eq (h : s.Shifts xs ns ps fs t) (ha : .sideA ∉ ps := by decide) (hb : .sideB ∉ ps := by decide) (sd : Side) :
    t.routing sd = s.routing sd := by
  have hA : t.sideA = s.sideA := h.parts .sideA ha
  have hB : t.sideB = s.sideB := h.parts .sideB hb
  cases sd <;> simp only [State.routing, State.live, State.side, hA, hB]

end

/-! ## The banks' receive logic -/

/-- The registers that a bank's receive logic moves. -/
def bankRegs : List RegName := [.XPT_IN_MSTAT, .XPT_IN_BSPOIL, .EVT_STATUS]

/-- The parts that a bank's receive logic moves. -/
def bankParts : List Part := [.regs, .fired, .inRx]

/-- From `s₀` to `s` only what a bank's receive logic can change has changed. -/
abbrev State.Banks (s₀ s : State) : Prop := s₀.Shifts [] bankRegs bankParts [] s

section
variable {s₀ s : State}

theorem State.Shifts.setCopyRx {n : Nat} {b : Bank} {c : CopyRx} (h : s₀.Banks s) : s₀.Banks (s.setCopyRx n b c) := h.alter

end

/-! ## The merges and what follows them -/

/-- The registers that a block's way through the crosspoint, or the loss of an input, moves. -/
def crossRegs : List RegName := [.FSY_EVT, .EVT_STATUS]

/-- The parts that a block's way through the crosspoint, or the loss of an input, moves. -/
def crossParts : List Part := [.regs, .fired, .feeds, .shown, .benches, .benchIn, .benchMem, .audIn]

/-- From `s₀` to `s` only what blocks on their way through the crosspoint, or the loss of an input, can change has changed. -/
abbrev State.Crosses (s₀ s : State) : Prop := s₀.Shifts [] crossRegs crossParts [] s

section
variable {s₀ s : State}

theorem State.Shifts.audTake {sd : Side} {n : Nat} {k : Block} (h : s₀.Crosses s) : s₀.Crosses (s.audTake sd n k) := .ite h.alter h

theorem State.Shifts.feed {sd : Side} {d : Nat} {x : Fed} (h : s₀.Crosses s) : s₀.Crosses (s.feed sd d x) := h.alter

theorem State.Shifts.benchEvt {b : Nat} {f : Fld} (h : s₀.Crosses s) : s₀.Crosses (s.benchEvt b f) := h.eachRouting fun _ _ h => h.raise

theorem State.Shifts.benchGive {sd : Side} {b : Nat} {ks : List Block} (h : s₀.Crosses s) : s₀.Crosses (s.benchGive sd b ks) :=
  h.foldl fun _ _ h => h.foldl fun _ _ h => h.feed

theorem State.Shifts.benchStore {sd : Side} {b : Nat} {k : Block} (h : s₀.Crosses s) : s₀.Crosses (s.benchStore sd b k) := by
  unfold State.benchStore
  dsimp only
  split
  · exact h
  · exact (h.branch (·.alter) id).branch id fun h => h.alter.branch (·.benchGive) id

theorem State.Shifts.benchTake {sd : Side} {b : Nat} {k : Block} (h : s₀.Crosses s) : s₀.Crosses (s.benchTake sd b k) := .ite h.alter h.benchStore

theorem State.Shifts.benchPatch {b i j : Nat} (h : s₀.Crosses s) : s₀.Crosses (s.benchPatch b i j) :=
  h.eachRouting fun _ _ h => h.alter.branch (·.benchGive) id

theorem State.Shifts.benchHold {b : Nat} (h : s₀.Crosses s) : s₀.Crosses (s.benchHold b) := by
  unfold State.benchHold
  extract_lets q cut s1 patch s2
  have hp {t : State} {i : Nat} {j : Option Nat} (h : s₀.Crosses t) : s₀.Crosses (patch t i j) := by
    cases j with
    | none => exact h
    | some j => exact h.benchPatch
  have h1 : s₀.Crosses s1 := h.alter.benchEvt
  clear_value s1
  have h2 : s₀.Crosses s2 := by
    unfold s2
    split
    · exact (hp h1).benchEvt
    · exact h1
  clear_value s2
  refine .ite ?_ h
  split
  · exact (hp h2).benchEvt
  · exact h2

theorem State.Shifts.crosspoint {sd : Side} {n : Nat} {k : Block} (h : s₀.Crosses s) : s₀.Crosses (s.crosspoint sd n k) :=
  (h.audTake.foldl fun _ _ h => h.feed).foldl fun _ _ h => h.branch (·.benchTake) id

theorem State.Shifts.markLoss {sd : Side} {n : Nat} (h : s₀.Crosses s) : s₀.Crosses (s.markLoss sd n) :=
  h.foldl fun _ _ h => h.branch (·.alter) id

end

/-- A copy that the mode excludes is treated as ABSENT (R58). -/
def Merge.shut (m : Merge) (mode : Nat) (b : Bank) : Merge := if excludes mode b then m.setCopy b {} else m

/-- What a merge's run comes to, from the merge `m`. -/
def State.mergeOut (s : State) (n : Nat) (m : Merge) (bits : W32) : MergeOut :=
  let m := (m.shut (s.inMode n) .E).shut (s.inMode n) .W
  MergeOut.run (s.inMode n) s.cadTime (m.e.q.length + m.w.q.length + 2) { m := m, bits := bits }

/-- The state in which a merge's run has been recorded: the merge, its count of lost blocks and its status bits. -/
def State.mergeNoted (s : State) (sd : Side) (n : Nat) (o : MergeOut) : State :=
  (({ s with merges := s.merges.set (2 * n + sd.idx) o.m }).addWrap (RS .XPT_IN_LOST sd n) o.lost).raiseW (RS .XPT_IN_MSTAT sd n) o.bits

/-- After a merge's run is recorded only the crosspoint, and the loss of the input, act. -/
theorem State.crosses_mergeRun (s : State) (sd : Side) (n : Nat) (m : Merge) (bits : W32) :
    (s.mergeNoted sd n (s.mergeOut n m bits)).Crosses (s.mergeRun sd n m bits) :=
  ((State.shifts_refl _).foldl fun _ _ h => h.crosspoint).branch (fun h => h.markLoss.foldl fun _ _ h => h.branch (·.benchHold) id) id

/-- An arrival at a merge only sets a status bit, or lets the merge proceed. -/
theorem State.mergeArrive_cases (s : State) (sd : Side) (n : Nat) (b : Bank) (x : Option Block) :
    (∃ v, s.mergeArrive sd n b x = s.raiseW (RS .XPT_IN_MSTAT sd n) v) ∨ ∃ m bits, s.mergeArrive sd n b x = s.mergeRun sd n m bits := by
  unfold State.mergeArrive
  dsimp only
  split
  · exact .inr ⟨_, _, rfl⟩
  · split
    · exact .inl ⟨_, rfl⟩
    · exact .inr ⟨_, _, rfl⟩

/-- The registers that a merge moves. -/
def mergeRegs : List RegName := [.XPT_IN_MSTAT, .XPT_IN_LOST, .FSY_EVT, .EVT_STATUS]

/-- The parts that a merge moves. -/
def mergeParts : List Part := .merges :: crossParts

/-- From `s₀` to `s` only what merges can change has changed. -/
abbrev State.MergeMoves (s₀ s : State) : Prop := s₀.Shifts [] mergeRegs mergeParts [] s

section
variable {s₀ s : State}

theorem State.Shifts.mergeNoted {sd : Side} {n : Nat} {o : MergeOut} (h : s₀.MergeMoves s) : s₀.MergeMoves (s.mergeNoted sd n o) :=
  h.alter.addWrap.raiseW

theorem State.Shifts.mergeRun {sd : Side} {n : Nat} {m : Merge} {bits : W32} (h : s₀.MergeMoves s) : s₀.MergeMoves (s.mergeRun sd n m bits) :=
  h.mergeNoted.then (s.crosses_mergeRun sd n m bits)

theorem State.Shifts.mergeArrive {sd : Side} {n : Nat} {b : Bank} {x : Option Block} (h : s₀.MergeMoves s) :
    s₀.MergeMoves (s.mergeArrive sd n b x) := by
  obtain ⟨v, e⟩ | ⟨m, bits, e⟩ := s.mergeArrive_cases sd n b x
  · exact e ▸ h.raiseW
  · exact e ▸ h.mergeRun

end

/-! ## A copy goes ABSENT -/

/-- From `s₀` to `s` only what the absence of copies can change has changed. -/
abbrev State.Absents (s₀ s : State) : Prop := s₀.Shifts [] absentRegs absentParts [] s

/-- From `s₀` to `s` only what the report of an absence to the receive flows can change has changed. -/
abbrev State.FlowMoves (s₀ s : State) : Prop := s₀.Shifts [] [.ETH_RXF_EVT, .ETH_RXF_LOST, .EVT_STATUS] [.regs, .fired, .rxFlows] [] s

theorem State.flowMoves_flowMissing (s : State) (r : Nat) (b : Bank) (n : Nat) : s.FlowMoves (s.flowMissing r b n) :=
  s.shifts_refl.branch id (·.addSat.raise)

theorem State.flowMoves_flowCopyAbsent (s : State) (r : Nat) (b : Bank) : s.FlowMoves (s.flowCopyAbsent r b) := by
  unfold State.flowCopyAbsent
  extract_lets x s1 s2 y
  have h1 : s.FlowMoves s1 := s.shifts_refl.raise
  have h2 : s.FlowMoves s2 := h1.then (s1.flowMoves_flowMissing r b _)
  exact h2.alter

theorem State.flowMoves_flowAbsent (s : State) (b : Bank) (p : Option SrcPos) : s.FlowMoves (s.flowAbsent b p) := by
  unfold State.flowAbsent
  split
  · exact s.flowMoves_flowCopyAbsent _ b
  · exact s.shifts_refl

theorem State.absents_copyAbsent (s : State) (n : Nat) (b : Bank) : s.Absents (s.copyAbsent n b) :=
  .ite ((((State.shifts_refl s).then (s.flowMoves_flowAbsent b _)).alter).eachRouting fun _ s h =>
    h.raiseW.then (State.shifts_refl _).mergeArrive) (State.shifts_refl s)

/-! ## Takes of the device's own -/

/-- The registers that the judgement of a source in use moves. -/
def judgeRegs : List RegName := [.XPT_OUT_STAT, .SEAM_EVT, .XPT_TAKE_RES, .XPT_SALVO_STAT, .EVT_STATUS]

/-- The parts that the judgement of a source in use moves. -/
def judgeParts : List Part := [.regs, .fired, .takes, .outs, .benches, .benchIn, .benchMem, .headRun]

/-- From `s₀` to `s` only what the judgement of a source in use can change has changed. -/
abbrev State.Judges (s₀ s : State) : Prop := s₀.Shifts [] judgeRegs judgeParts [] s

section
variable {s₀ s : State}

theorem State.Shifts.benchAlloc {b : Nat} {auto : Bool} {n c : Nat} {ph : Int} (h : s₀.Judges s) : s₀.Judges (s.benchAlloc b auto n c ph) := h.alter

theorem State.Shifts.benchReleaseOf {o : Option Nat} (h : s₀.Judges s) : s₀.Judges (s.benchReleaseOf o) := by
  unfold State.benchReleaseOf
  split
  · exact .ite h.alter h
  · exact h

theorem State.Shifts.benchFor {n c : Nat} {ph : Int} (h : s₀.Judges s) : s₀.Judges (s.benchFor n c ph).2 := by
  unfold State.benchFor
  split
  · exact h
  · split
    · exact h
    · exact .iteSnd h.benchAlloc h

theorem State.Shifts.planTake {x d : Nat} (h : s₀.Judges s) : s₀.Judges (s.planTake x d).2 := by
  unfold State.planTake
  refine .iteSnd h (.iteSnd ?_ (.iteSnd h (.iteSnd h (.iteSnd h (.iteSnd ?_ h)))))
  all_goals
    dsimp only
    split
    · exact h.benchFor
    · exact h

theorem State.Shifts.outEvt {d : Nat} {f : Fld} (h : s₀.Judges s) : s₀.Judges (s.outEvt d f) := .ite (h.eachSide fun _ _ h => h.raise) h

theorem State.Shifts.seamEvt {d : Nat} {f : Fld} (h : s₀.Judges s) : s₀.Judges (s.seamEvt d f) := .ite (h.eachSide fun _ _ h => h.raise) h

theorem State.Shifts.takeLeave {p : Pending} (h : s₀.Judges s) : s₀.Judges (s.takeLeave p) := by
  unfold State.takeLeave
  dsimp only
  split
  · exact .ite h.alter.benchReleaseOf.setF.setSource h.alter.benchReleaseOf
  · exact h.alter.benchReleaseOf

theorem State.Shifts.superseded {p : Pending} (h : s₀.Judges s) : s₀.Judges (s.superseded p) := by
  unfold State.superseded
  dsimp only
  refine State.Shifts.takeLeave ?_
  split
  · exact (h.outEvt.branch (·.setF) id).setSource
  · exact h.outEvt.raise.setSource
  · exact h.outEvt

theorem State.Shifts.addTake {p : Pending} (h : s₀.Judges s) : s₀.Judges (s.addTake p) :=
  (h.alter.foldl fun _ _ h => h.superseded).branch (·.alter) id

theorem State.Shifts.judge {d : Nat} {lead : Int} (h : s₀.Judges s) : s₀.Judges (s.judge d lead) :=
  (h.alter.branch (·.seamEvt) id).branch (fun h => (h.planTake.branch (·.seamEvt) id).addTake) id

theorem State.Shifts.judgeAll {x : Nat} {via : Option Nat} {t : Int} (h : s₀.Judges s) : s₀.Judges (s.judgeAll x via t) :=
  h.foldl fun _ _ h => h.branch (·.judge) id

end

/-! ## The input streams -/

section
variable (x : InRx) (b : Bank) (c c' : CopyRx)

@[simp] theorem InRx.copy_setCopy : (x.setCopy b c).copy b = c := by cases b <;> rfl
@[simp] theorem InRx.copy_other_setCopy : (x.setCopy b c).copy b.other = x.copy b.other := by cases b <;> rfl
@[simp] theorem InRx.setCopy_setCopy : (x.setCopy b c).setCopy b c' = x.setCopy b c' := by cases b <;> rfl
@[simp] theorem InRx.setCopy_copy : x.setCopy b (x.copy b) = x := by cases b <;> rfl

end

section
variable {n : Nat} {b : Bank} {s₀ s t : State}

theorem State.inRx_setCopyRx (s : State) (n : Nat) (b : Bank) (c : CopyRx) (k : Nat) :
    (s.setCopyRx n b c).inRx.at k = if k = n then (s.inRx.at n).setCopy b c else s.inRx.at k :=
  SMap.at_upd s.inRx n k fun x => x.setCopy b c

@[simp] theorem State.copyRx_setCopyRx (s : State) (n : Nat) (b : Bank) (c : CopyRx) : (s.setCopyRx n b c).copyRx n b = c := by
  simp [State.copyRx, State.inRx_setCopyRx]

@[simp] theorem State.copyRx_other_setCopyRx (s : State) (n : Nat) (b : Bank) (c : CopyRx) :
    (s.setCopyRx n b c).copyRx n b.other = s.copyRx n b.other := by
  simp [State.copyRx, State.inRx_setCopyRx]

theorem State.routing_setCopyRx (s : State) (n : Nat) (b : Bank) (c : CopyRx) (sd : Side) : (s.setCopyRx n b c).routing sd = s.routing sd := by
  cases sd <;> rfl

theorem State.shifts_inBit (s : State) (n : Nat) (f : Fld) : s.Shifts [] [.XPT_IN_MSTAT, .EVT_STATUS] [.regs, .fired] [] (s.inBit n f) :=
  s.shifts_refl.eachRouting fun _ _ h => h.raise

theorem State.inRx_inBit (s : State) (n : Nat) (f : Fld) : (s.inBit n f).inRx = s.inRx := (s.shifts_inBit n f).parts .inRx (by decide)

/-- A bank's receive logic has worked on its copy of input `n`: the other copy, the other inputs and what is measured of the input stand, and the copy
is present where it was. -/
structure State.Receives (n : Nat) (b : Bank) (s₀ s : State) : Prop where
  banks : s₀.Banks s
  others : ∀ k, k ≠ n → s.inRx.at k = s₀.inRx.at k
  input : ∃ c, s.inRx.at n = (s₀.inRx.at n).setCopy b c
  present : (s.copyRx n b).present = (s₀.copyRx n b).present

theorem State.receives_refl (n : Nat) (b : Bank) (s : State) : s.Receives n b s :=
  ⟨s.shifts_refl, fun _ _ => rfl, ⟨s.copyRx n b, (InRx.setCopy_copy _ _).symm⟩, rfl⟩

theorem State.Receives.setCopyRx {c : CopyRx} (h : s₀.Receives n b s) (hc : c.present = (s.copyRx n b).present := by rfl) :
    s₀.Receives n b (s.setCopyRx n b c) where
  banks := h.banks.setCopyRx
  others k hk := (State.inRx_setCopyRx _ _ _ _ _).trans ((if_neg hk).trans (h.others k hk))
  input := by
    obtain ⟨d, e⟩ := h.input
    exact ⟨c, by rw [State.inRx_setCopyRx, if_pos rfl, e, InRx.setCopy_setCopy]⟩
  present := by rw [State.copyRx_setCopyRx, hc, h.present]

/-- Registers alone move. -/
theorem State.Receives.quiet (h : s₀.Receives n b s) (h' : s.Shifts [] bankRegs [.regs, .fired] [] t) : s₀.Receives n b t := by
  have e : t.inRx = s.inRx := h'.parts .inRx (by decide)
  refine ⟨h.banks.then h', fun k hk => e ▸ h.others k hk, e ▸ h.input, ?_⟩
  rw [State.copyRx, e]
  exact h.present

theorem State.Receives.inBit {f : Fld} (h : s₀.Receives n b s) : s₀.Receives n b (s.inBit n f) := h.quiet (s.shifts_inBit n f).mono

theorem State.Receives.trimRx (h : s₀.Receives n b s) : s₀.Receives n b (s.trimRx n b) := by
  unfold State.trimRx
  dsimp only
  split
  · exact h
  · have hi := s.inRx_inBit n F.XPT_IN_MSTAT_MALFORMED
    split
    · exact h.inBit.setCopyRx (by rw [State.copyRx, State.copyRx, hi])
    · exact h.setCopyRx

theorem State.Receives.memberUnder {m : Nat} {lost : Bool} (h : s₀.Receives n b s) : s₀.Receives n b (s.memberUnder n b m lost) := by
  have h1 : s₀.Receives n b (if (s.copyRx n b).under.contains m then s
      else (s.setCopyRx n b { s.copyRx n b with under := (s.copyRx n b).under ++ [m] }).inBit n F.XPT_IN_MSTAT_BOND_UNDERRUN) := by
    split
    · exact h
    · exact h.setCopyRx.inBit
  unfold State.memberUnder
  dsimp only
  split
  · exact h1.setCopyRx
  · exact h1

/-- The copy that a step of reassembly leaves. -/
def BondStep.copy : BondStep → CopyRx
  | .wait c => c
  | .went c _ => c
  | .apart c _ => c

theorem CopyRx.present_takeMark (c : CopyRx) (g : Nat) : (c.takeMark g).copy.present = c.present := by
  unfold CopyRx.takeMark
  dsimp only
  repeat' split
  all_goals rfl

theorem CopyRx.present_bondStep (c : CopyRx) (g : Nat) (f : Fmt) : (c.bondStep g f).copy.present = c.present := by
  unfold CopyRx.bondStep
  dsimp only
  split
  · rfl
  · split
    · exact c.present_takeMark g
    · split
      · split
        · rfl
        · split <;> rfl
      · split
        · rfl
        · split
          · exact c.present_takeMark g
          · rfl

theorem State.Receives.bondRun {g fuel : Nat} (h : s₀.Receives n b s) : s₀.Receives n b (State.bondRun g n b fuel s) := by
  induction fuel generalizing s with
  | zero => exact h
  | succ fuel ih =>
    have hp := (s.copyRx n b).present_bondStep g (s.inRx.at n).fmt
    unfold State.bondRun
    split
    · next c e =>
      rw [e] at hp
      exact h.setCopyRx hp
    · next c k e =>
      rw [e] at hp
      exact ih ((h.setCopyRx hp).quiet ((State.shifts_refl _).eachRouting fun _ _ h => h.addWrap))
    · next c ms e =>
      rw [e] at hp
      exact ih (List.foldlRecOn ms _ (h.setCopyRx hp) fun _ h _ _ => h.memberUnder)

theorem State.receives_reassemble (s : State) (n : Nat) (b : Bank) : s.Receives n b (s.reassemble n b) := by
  unfold State.reassemble
  dsimp only
  split
  · exact s.receives_refl n b
  · exact (s.receives_refl n b).bondRun.trimRx

theorem State.Receives.copy_other (h : s₀.Receives n b s) : s.copyRx n b.other = s₀.copyRx n b.other := by
  obtain ⟨c, e⟩ := h.input
  rw [State.copyRx, e, InRx.copy_other_setCopy, State.copyRx]

end

/-! ## The inputs' status only gains bits -/

/-- From `s` to `t` the status of every input only gains bits. -/
def State.Gains (s t : State) : Prop := ∀ sd i, ∃ m, t.rd (RS .XPT_IN_MSTAT sd i) = s.rd (RS .XPT_IN_MSTAT sd i) ||| m

section
variable {s₀ s t : State}

theorem State.gains_refl (s : State) : s.Gains s := fun _ _ => ⟨0, by simp⟩

theorem State.Gains.trans (h : s₀.Gains s) (h' : s.Gains t) : s₀.Gains t := fun sd i => by
  obtain ⟨m, e⟩ := h sd i
  obtain ⟨m', e'⟩ := h' sd i
  exact ⟨m ||| m', by rw [e', e, BitVec.or_assoc]⟩

theorem State.gains_of_shifts {ns : List RegName} {ps : List Part} {fs : List Fld} (h : s.Shifts [] ns ps fs t)
    (hn : ns.contains .XPT_IN_MSTAT = false := by rfl) : s.Gains t := fun _ _ => ⟨0, by rw [h.rd_eq hn]; simp⟩

theorem State.gains_raiseW (s : State) (k : RegKey) (v : W32) : s.Gains (s.raiseW k v) := fun sd i => by
  rw [s.rd_raiseW _ _ _ (by simp)]
  split
  · next e => exact ⟨v, by rw [e]⟩
  · exact ⟨0, by simp⟩

theorem State.Gains.eachRouting {f : Side → State → State} (h : s₀.Gains s) (hf : ∀ sd s, State.Gains s (f sd s)) : s₀.Gains (s.eachRouting f) := by
  have hb {c : Prop} [Decidable c] {sd : Side} {s : State} (h : s₀.Gains s) : s₀.Gains (if c then f sd s else s) := by
    split
    · exact h.trans (hf _ _)
    · exact h
  exact hb (hb h)

theorem State.gains_inBit (s : State) (n : Nat) (f : Fld) : s.Gains (s.inBit n f) := s.gains_refl.eachRouting fun _ s => s.gains_raiseW _ _

theorem State.gains_setCopyRx (s : State) (n : Nat) (b : Bank) (c : CopyRx) : s.Gains (s.setCopyRx n b c) := fun _ _ => ⟨0, by simp; rfl⟩

theorem State.gains_trimRx (s : State) (n : Nat) (b : Bank) : s.Gains (s.trimRx n b) := by
  unfold State.trimRx
  dsimp only
  split
  · exact s.gains_refl
  · split
    · exact (s.gains_inBit _ _).trans (State.gains_setCopyRx _ _ _ _)
    · exact s.gains_setCopyRx _ _ _

/-- A status bit that is set stays set. -/
theorem State.Gains.flag (h : s.Gains t) {sd : Side} {n i : Nat} (hf : s.flag (RS .XPT_IN_MSTAT sd n) ⟨i, 1⟩ = true) :
    t.flag (RS .XPT_IN_MSTAT sd n) ⟨i, 1⟩ = true := by
  obtain ⟨m, e⟩ := h sd n
  rw [State.flag_eq_testBit] at hf
  rw [State.flag_eq_testBit, e, BitVec.toNat_or, Nat.testBit_or, hf, Bool.true_or]

/-- Status bits of which one is set keep one set. -/
theorem State.Gains.bits (h : s.Gains t) {sd : Side} {n : Nat} {v : W32} (hv : s.rd (RS .XPT_IN_MSTAT sd n) &&& v ≠ 0) :
    t.rd (RS .XPT_IN_MSTAT sd n) &&& v ≠ 0 := by
  obtain ⟨m, e⟩ := h sd n
  rw [e, BitVec.and_comm, BitVec.and_or_distrib_left]
  exact fun hc => hv ((BitVec.and_comm _ _).trans (BitVec.or_eq_zero_iff.mp hc).1)

end

/-! ## What happens in one Side -/

/-- An effect in each Side where the crosspoint works, seen from one of them: before the effect in it `P` holds, which the effect in the other Side
keeps, and after it `Q`, which the other keeps as well. -/
theorem State.eachRouting_at {s : State} {f : Side → State → State} {sd : Side} {P Q : State → Prop} (hr : s.routing sd = true)
    (hf : ∀ x u, (f x u).routing sd = u.routing sd) (hs : P s) (hP : ∀ u, P u → P (f sd.other u)) (hPQ : ∀ u, P u → Q (f sd u))
    (hQ : ∀ u, Q u → Q (f sd.other u)) : Q (s.eachRouting f) := by
  unfold State.eachRouting
  dsimp only
  cases sd with
  | A =>
    rw [if_pos hr]
    split
    · exact hQ _ (hPQ _ hs)
    · exact hPQ _ hs
  | B =>
    split
    · rw [if_pos ((hf _ _).trans hr)]
      exact hPQ _ (hP _ hs)
    · exact hPQ _ hs

theorem State.routing_raise (s : State) (k : RegKey) (f : Fld) (sd : Side) : (s.raise k f).routing sd = s.routing sd := by
  have hA : (s.raise k f).sideA = s.sideA := State.raise_sideA ..
  have hB : (s.raise k f).sideB = s.sideB := State.raise_sideB ..
  cases sd <;> simp only [State.routing, State.live, State.side, hA, hB]

/-- A status bit that an input gets is set in every Side whose crosspoint works. -/
theorem State.flag_inBit {s : State} {sd : Side} (hr : s.routing sd = true) (n i : Nat) (hi : i < 32 := by decide) :
    (s.inBit n ⟨i, 1⟩).flag (RS .XPT_IN_MSTAT sd n) ⟨i, 1⟩ = true :=
  State.eachRouting_at (P := fun _ => True) (Q := fun u => u.flag (RS .XPT_IN_MSTAT sd n) ⟨i, 1⟩ = true) hr (fun _ _ => State.routing_raise _ _ _ _)
    trivial (fun _ _ => trivial) (fun u _ => u.flag_raise _ i hi (by simp)) fun u h => (u.gains_raiseW _ _).flag h

/-! ## Bonded members (O8) -/

section
variable {n g : Nat} {b : Bank} {s : State} {c : CopyRx}

/-- In the turn of an underrun member, within the words that the last MARK announces, a step of reassembly puts the substitute in (R54). -/
theorem CopyRx.bondStep_substitute {f : Fmt} (hl : c.live g ≠ []) (hm : ((c.live g).all fun k => (c.buf k).head?.any fun x => isMark x.w) = false)
    (hu : c.under.contains (c.turn % max 1 g) = true) (h0 : 0 < c.left) : c.bondStep g f =
      .went { c with turn := (c.turn % max 1 g + 1) % max 1 g, pos := c.pos + 1, left := c.left - 1, rx := c.rx ++ [c.substitute f] } 1 := by
  unfold CopyRx.bondStep
  dsimp only
  rw [if_neg hl, if_neg (by rw [hm]; decide), if_pos hu, if_pos h0]

/-- A step of reassembly that gives a word. -/
theorem State.bondRun_one {c' : CopyRx} {k : Nat} (h : (s.copyRx n b).bondStep g (s.inRx.at n).fmt = .went c' k) :
    State.bondRun g n b 1 s = (s.setCopyRx n b c').eachRouting fun sd s => s.addWrap (RS .XPT_IN_BSPOIL sd n) k := by
  unfold State.bondRun
  rw [h]
  rfl

/-- A count of an input that every Side whose crosspoint works adds to. -/
theorem State.rd_eachRouting_addWrap {sd : Side} {k : Nat} {r : RegName} (hr : s.routing sd = true) :
    (s.eachRouting fun sd s => s.addWrap (RS r sd n) k).rd (RS r sd n) = s.rd (RS r sd n) + w32 k := by
  have hne : RS r sd n ≠ RS r sd.other n := by cases sd <;> simp [Side.other, Side.idx]
  have hA (u : State) : (u.addWrap (RS r sd.other n) k).rd (RS r sd n) = u.rd (RS r sd n) := by rw [State.rd_addWrap, if_neg hne]
  refine State.eachRouting_at (P := fun u => u.rd (RS r sd n) = s.rd (RS r sd n)) (Q := fun u => u.rd (RS r sd n) = s.rd (RS r sd n) + w32 k) hr ?_ rfl
    (fun u h => (hA u).trans h) (fun u h => ?_) fun u h => (hA u).trans h
  · intro x u
    cases sd <;> simp [State.routing, State.live, State.side]
  · rw [State.rd_addWrap, if_pos rfl, h]

theorem State.inRx_eachRouting_addWrap (s : State) (n k : Nat) :
    (s.eachRouting fun sd s => s.addWrap (RS .XPT_IN_BSPOIL sd n) k).inRx = s.inRx := by
  have h : s.Shifts [] [.XPT_IN_BSPOIL] [.regs, .fired] [] (s.eachRouting fun sd s => s.addWrap (RS .XPT_IN_BSPOIL sd n) k) :=
    s.shifts_refl.eachRouting fun _ _ h => h.addWrap
  exact h.parts .inRx (by decide)

theorem State.memberUnder_of_under {m : Nat} (h : (s.copyRx n b).under.contains m = true) : s.memberUnder n b m false = s := by
  simp only [State.memberUnder, h, if_true, Bool.false_eq_true, if_false]

theorem State.memberUnder_of_delivers {m : Nat} (h : (s.copyRx n b).under.contains m = false) : s.memberUnder n b m false =
    (s.setCopyRx n b { s.copyRx n b with under := (s.copyRx n b).under ++ [m] }).inBit n F.XPT_IN_MSTAT_BOND_UNDERRUN := by
  simp only [State.memberUnder, h, Bool.false_eq_true, if_false]

theorem State.contains_under_memberUnder (s : State) (n : Nat) (b : Bank) (m : Nat) :
    ((s.memberUnder n b m false).copyRx n b).under.contains m = true := by
  cases h : (s.copyRx n b).under.contains m with
  | true => rw [State.memberUnder_of_under h, h]
  | false =>
    rw [State.memberUnder_of_delivers h, State.copyRx, State.inRx_inBit]
    simp [State.inRx_setCopyRx]

theorem State.flag_memberUnder {sd : Side} {m : Nat} (hr : s.routing sd = true) (h : (s.copyRx n b).under.contains m = false) :
    (s.memberUnder n b m false).flag (RS .XPT_IN_MSTAT sd n) F.XPT_IN_MSTAT_BOND_UNDERRUN = true := by
  rw [State.memberUnder_of_delivers h]
  exact State.flag_inBit ((s.routing_setCopyRx n b _ sd).trans hr) n 10

theorem State.touches_memberUnder (s : State) (n : Nat) (b : Bank) (m : Nat) :
    s.touches [.XPT_IN_MSTAT, .EVT_STATUS] [.regs, .fired, .inRx] (s.memberUnder n b m false) := by
  cases h : (s.copyRx n b).under.contains m with
  | true =>
    rw [State.memberUnder_of_under h]
    exact (s.shifts_refl (xs := []) (fs := [])).touches
  | false =>
    rw [State.memberUnder_of_delivers h]
    have h1 : s.Shifts [] [.XPT_IN_MSTAT, .EVT_STATUS] [.regs, .fired, .inRx] []
        (s.setCopyRx n b { s.copyRx n b with under := (s.copyRx n b).under ++ [m] }) := s.shifts_refl.alter
    exact (h1.then (State.shifts_inBit _ _ _)).touches

end

section
variable {n : Fin 1024} {b : Bank} {m : Fin 16} {s : State}

theorem execBondUnderrun_of_not (h : s.hasCopy n b = false ∨ (s.inPlan.at n).slots ≤ m ∨ (s.copyRx n b).waitsFor (s.inPlan.at n).slots m = false) :
    execBondUnderrun n b m s = .next s := by
  refine if_neg ?_
  rintro ⟨hc, -, hm, hw⟩
  obtain h | h | h := h
  · rw [h] at hc
    contradiction
  · exact absurd hm (Nat.not_lt.mpr h)
  · rw [h] at hw
    contradiction

/-- The state in which an underrun member delivers again from the MARK `w` on. -/
def State.rejoined (s : State) (n : Nat) (b : Bank) (m : Nat) (w : W32) : State :=
  let c := s.copyRx n b
  s.setCopyRx n b { c with
    under := c.under.filter fun y => y ≠ m, members := c.members.set m ((c.buf m).dropWhile fun x => !sameMark x.w w) }

theorem dropWhile_ne_nil_of_any {α : Type} {p : α → Bool} {l : List α} (h : l.any p = true) : l.dropWhile (fun x => !p x) ≠ [] := by
  simpa using h

theorem execBondRejoin_of_mark {w : W32} (hc : s.hasCopy n b = true) (hg : 1 < (s.inPlan.at n).slots)
    (hm : ((s.reassemble n b).copyRx n b).mark (s.inPlan.at n).slots = some w)
    (hu : ((s.reassemble n b).copyRx n b).under.contains m.val = true)
    (hw : (((s.reassemble n b).copyRx n b).buf m).any (fun x => sameMark x.w w) = true) :
    execBondRejoin n b m s = .next ((s.reassemble n b).rejoined n b m w) := by
  have hd := dropWhile_ne_nil_of_any hw
  simp only [execBondRejoin, hc, hg, hm, hu, hd, State.rejoined, and_self, if_true, ne_eq, not_false_eq_true]

theorem execBondRejoin_of_no_mark (hc : s.hasCopy n b = true) (hg : 1 < (s.inPlan.at n).slots)
    (h : ((s.reassemble n b).copyRx n b).mark (s.inPlan.at n).slots = none ∨ ((s.reassemble n b).copyRx n b).under.contains m.val = false) :
    execBondRejoin n b m s = .next (s.reassemble n b) := by
  simp only [execBondRejoin, hc, hg, and_self, if_true]
  split
  · next hm =>
    obtain h | h := h
    · rw [h] at hm
      contradiction
    · rw [h]
      simp
  · rfl

end

theorem State.Receives.rejoined {n m : Nat} {b : Bank} {w : W32} {s₀ s : State} (h : s₀.Receives n b s) : s₀.Receives n b (s.rejoined n b m w) :=
  h.setCopyRx

/-- Settles O8, a lemma for each kind of event: the underrun, the substitute and the rejoining. -/
theorem bondedMembersUnderrunAndRejoin : Obligations.BondedMembersUnderrunAndRejoin := by
  unfold Obligations.BondedMembersUnderrunAndRejoin
  refine ⟨fun n b m s hc hg hm hw => ?_, fun n b m s h => execBondUnderrun_of_not h, fun n b g c s hcs hl hm hu h0 => ?_,
    fun n b m w s u hc hg hu hk hm hw => ?_, fun n b m s u hc hg hu h => ?_⟩
  · have h : s.Receives n b (s.memberUnder n b m false) := (s.receives_refl n b).memberUnder
    exact ⟨_, if_pos ⟨hc, hg, hm, hw⟩, s.contains_under_memberUnder n b m, h.copy_other, fun sd hr => State.flag_memberUnder hr,
      s.touches_memberUnder n b m⟩
  · subst hcs
    rw [State.bondRun_one (CopyRx.bondStep_substitute hl hm hu h0)]
    refine ⟨?_, fun sd hr => ?_⟩
    · rw [State.copyRx, State.inRx_eachRouting_addWrap]
      simp [State.inRx_setCopyRx]
    · exact State.rd_eachRouting_addWrap ((s.routing_setCopyRx n b _ sd).trans hr)
  · subst hu
    have h := (s.receives_reassemble n b).rejoined (m := m) (w := w)
    refine ⟨_, execBondRejoin_of_mark hc hg hk hm hw, ?_, ?_, h.copy_other, h.others, h.banks.touches⟩
    · simp [State.rejoined]
    · simp [State.rejoined, CopyRx.buf]
  · subst hu
    exact execBondRejoin_of_no_mark hc hg h

/-! ## What a merge's run decides (O7) -/

/-- A copy's queue without its blocks. -/
def MergeQ.emptied (q : MergeQ) : MergeQ := { q with q := [] }

theorem Block.keyLe_self (a : Block) : a.keyLe a = true := by simp [Block.keyLe, Block.beforeInFrame]

/-- Keys each at or before the other belong to one frame. -/
theorem Block.tag_eq_of_keyLe {a b : Block} (h : a.keyLe b = true) (h' : b.keyLe a = true) : a.tag = b.tag := by
  by_contra hne
  simp only [Block.keyLe, if_neg hne, if_neg (Ne.symm hne), tagLater, Bool.and_eq_true, decide_eq_true_eq] at h h'
  omega

/-- Of two heads with one key Bank E's is taken (R62). -/
theorem firstHead_of_keyLe (last : Option Block) {e w : Block} (h : e.keyLe w = true) (h' : w.keyLe e = true) : firstHead last e w = e := by
  have ht : (e.tag + 256 - w.tag) % 256 ≠ 128 := by
    rw [Block.tag_eq_of_keyLe h h']
    omega
  rw [firstHead.eq_def, if_neg ht, if_pos h]

/-- The table of R58 where both copies have the key. -/
theorem choose_both {mode : Nat} (h3 : mode ≠ 3) (h4 : mode ≠ 4) (e w : Block) : choose mode (some e) (some w) =
    some (if mode = 1 then (.E, e) else if mode = 2 then (.W, w) else if e.good then (.E, e) else if w.good then (.W, w) else (.E, e)) := by
  unfold choose
  split
  · rfl
  · rfl
  · exact absurd rfl h3
  · exact absurd rfl h4
  · next h1 h2 _ _ =>
    rw [if_neg h1, if_neg h2]
    dsimp only [Option.map_some, Option.orElse_some]
    split_ifs <;> rfl

/-- The Seam write port's reading of words moves nothing else of the merge. -/
theorem readWord_fst (m : Merge) (x : W32) : ∃ active anc, (readWord m x).1 = { m with active, anc } := by
  unfold readWord
  split
  · exact ⟨_, _, rfl⟩
  · exact ⟨_, _, rfl⟩
  · split <;> exact ⟨_, _, rfl⟩
  · exact ⟨_, _, rfl⟩

theorem readWords_fst (m : Merge) (ws : List W32) : ∃ active anc, (readWords m ws).1 = { m with active, anc } := by
  refine List.foldlRecOn (motive := fun p : Merge × List W32 × Bool => ∃ active anc, p.1 = { m with active, anc }) ws _ ⟨m.active, m.anc, rfl⟩
    fun p hp x _ => ?_
  obtain ⟨a, c, e⟩ := hp
  obtain ⟨a', c', e'⟩ := readWord_fst p.1 x
  exact ⟨a', c', by rw [e', e]⟩

section
variable (o : MergeOut) (p : Bank × Block) (eff : Nat) (now : Int)

@[simp] theorem MergeOut.emitBlock_emitted : (o.emitBlock p eff now).m.emitted = some p := rfl
@[simp] theorem MergeOut.emitBlock_lost : (o.emitBlock p eff now).lost = o.lost := rfl

/-- Beside what is read and emitted, the emission of a block leaves the merge as it is. -/
theorem MergeOut.emitBlock_keeps :
    (o.emitBlock p eff now).m.e = o.m.e ∧ (o.emitBlock p eff now).m.w = o.m.w ∧ (o.emitBlock p eff now).m.lost = o.m.lost := by
  obtain ⟨a, c, e⟩ := readWords_fst o.m p.2.words
  simp [MergeOut.emitBlock, e]

@[simp] theorem MergeOut.emitBlock_e : (o.emitBlock p eff now).m.e = o.m.e := (o.emitBlock_keeps p eff now).1
@[simp] theorem MergeOut.emitBlock_w : (o.emitBlock p eff now).m.w = o.m.w := (o.emitBlock_keeps p eff now).2.1
@[simp] theorem MergeOut.emitBlock_here : (o.emitBlock p eff now).m.lost = o.m.lost := (o.emitBlock_keeps p eff now).2.2

end

/-- Of a merge in which both copies hold one block, of one key, and neither is excluded: what the decision of the key comes to. -/
structure MergeOut.Decided (o : MergeOut) (mode : Nat) (e w : Block) (r : MergeOut) : Prop where
  bankE : r.m.e = o.m.e.emptied
  bankW : r.m.w = o.m.w.emptied
  emitted : r.m.emitted = choose mode (some e) (some w)
  lost : r.lost = o.lost + b2n (!(e.good || w.good))
  here : r.m.lost = o.m.lost

theorem excludes_of_ne {mode : Nat} (h3 : mode ≠ 3) (h4 : mode ≠ 4) (b : Bank) : excludes mode b = false := by
  cases b <;> simp [excludes, h3, h4]

theorem MergeOut.decided_decide {o : MergeOut} {mode : Nat} {e w : Block} {now : Int} (h3 : mode ≠ 3) (h4 : mode ≠ 4) (he : o.m.e.q = [e])
    (hw : o.m.w.q = [w]) (h : e.keyLe w = true) (h' : w.keyLe e = true) : o.Decided mode e w (o.decide_ mode e now) := by
  constructor <;>
    simp [MergeOut.decide_, excludes_of_ne h3 h4, he, hw, h, h', Block.keyLe_self, choose_both h3 h4, MergeQ.emptied, Option.filter_some]

/-- A run in which neither copy is out: the key that both heads hold is decided, and the queues are then empty. -/
theorem MergeOut.decided_run {o : MergeOut} {mode fuel : Nat} {e w : Block} {now : Int} (h3 : mode ≠ 3) (h4 : mode ≠ 4)
    (he : o.m.e = { absent := false, q := [e] }) (hw : o.m.w = { absent := false, q := [w] }) (h : e.keyLe w = true) (h' : w.keyLe e = true) :
    o.Decided mode e w (MergeOut.run mode now (fuel + 2) o) := by
  have hd : o.Decided mode e w (o.decide_ mode e now) := MergeOut.decided_decide h3 h4 (by rw [he]) (by rw [hw]) h h'
  have hr : MergeOut.run mode now (fuel + 2) o = o.decide_ mode e now := by
    rw [MergeOut.run]
    simp only [excludes_of_ne h3 h4, Merge.copy, he, hw, Bool.or_self, Bool.and_self, Bool.false_eq_true, if_false, firstHead_of_keyLe _ h h']
    rw [MergeOut.run]
    simp [excludes_of_ne h3 h4, Merge.copy, hd.bankE, hd.bankW, he, hw, MergeQ.emptied]
  rw [hr]
  exact hd

/-- A run in which both copies are out: the input is lost, and LOST set where it was not. -/
theorem MergeOut.run_of_out {o : MergeOut} {mode fuel : Nat} {now : Int} (h : ∀ b, (excludes mode b || (o.m.copy b).absent) = true) (hl : o.m.lost = false) :
    (MergeOut.run mode now (fuel + 1) o).m.lost = true ∧ (MergeOut.run mode now (fuel + 1) o).bits = o.bits ||| F.XPT_IN_MSTAT_LOST.mask := by
  rw [MergeOut.run]
  simp [h, hl]

/-! ## A merge seen from its Side -/

section
variable {sd : Side} {n : Nat} {m : Merge} {bits : W32} {s₀ s t : State}

theorem State.merges_mergeRun (s : State) (sd : Side) (n : Nat) (m : Merge) (bits : W32) :
    (s.mergeRun sd n m bits).merges = s.merges.set (2 * n + sd.idx) (s.mergeOut n m bits).m := by
  have h : (s.mergeRun sd n m bits).merges = _ := (s.crosses_mergeRun sd n m bits).parts .merges (by decide)
  rw [h]
  simp [State.mergeNoted]

theorem State.rd_mergeNoted (s : State) (sd : Side) (n : Nat) (o : MergeOut) {k : RegKey} (hk : k.name ≠ .EVT_STATUS) : (s.mergeNoted sd n o).rd k =
    if k = RS .XPT_IN_MSTAT sd n then s.rd k ||| o.bits else if k = RS .XPT_IN_LOST sd n then s.rd k + w32 o.lost else s.rd k := by
  rw [State.mergeNoted, State.rd_raiseW _ _ _ _ hk]
  split
  · next h => rw [h, State.rd_addWrap, if_neg (by simp)]; rfl
  · rw [State.rd_addWrap]
    split
    · next h => rw [h]; rfl
    · rfl

/-- The lost blocks are counted in the merge's own Side. -/
theorem State.rd_lost_mergeRun (s : State) (sd : Side) (n : Nat) (m : Merge) (bits : W32) (x : Side) :
    (s.mergeRun sd n m bits).rd (RS .XPT_IN_LOST x n) =
      if x = sd then s.rd (RS .XPT_IN_LOST x n) + w32 (s.mergeOut n m bits).lost else s.rd (RS .XPT_IN_LOST x n) := by
  rw [(s.crosses_mergeRun sd n m bits).rd_eq, State.rd_mergeNoted _ _ _ _ (by simp), if_neg (by simp)]
  cases x <;> cases sd <;> simp [Side.idx]

theorem State.rd_mstat_mergeRun (s : State) (sd : Side) (n : Nat) (m : Merge) (bits : W32) :
    (s.mergeRun sd n m bits).rd (RS .XPT_IN_MSTAT sd n) = s.rd (RS .XPT_IN_MSTAT sd n) ||| (s.mergeOut n m bits).bits := by
  rw [(s.crosses_mergeRun sd n m bits).rd_eq, State.rd_mergeNoted _ _ _ _ (by simp), if_pos rfl]

theorem State.gains_mergeRun (s : State) (sd : Side) (n : Nat) (m : Merge) (bits : W32) : s.Gains (s.mergeRun sd n m bits) := by
  refine State.Gains.trans (fun x i => ?_) (State.gains_of_shifts (s.crosses_mergeRun sd n m bits))
  rw [State.rd_mergeNoted _ _ _ _ (by simp)]
  split
  · exact ⟨_, rfl⟩
  · exact ⟨0, by simp⟩

theorem State.gains_mergeArrive (s : State) (sd : Side) (n : Nat) (b : Bank) (x : Option Block) : s.Gains (s.mergeArrive sd n b x) := by
  obtain ⟨v, e⟩ | ⟨m, bits, e⟩ := s.mergeArrive_cases sd n b x
  · exact e ▸ s.gains_raiseW _ _
  · exact e ▸ s.gains_mergeRun sd n m bits

/-- From `s` to `t` the merge of input `n` in a Side, and its count of lost blocks, stand. -/
structure State.Spares (sd : Side) (n : Nat) (s t : State) : Prop where
  merge : t.merges.at (2 * n + sd.idx) = s.merges.at (2 * n + sd.idx)
  count : t.rd (RS .XPT_IN_LOST sd n) = s.rd (RS .XPT_IN_LOST sd n)

theorem State.Spares.trans (h : s₀.Spares sd n s) (h' : s.Spares sd n t) : s₀.Spares sd n t :=
  ⟨h'.merge.trans h.merge, h'.count.trans h.count⟩

theorem State.spares_of_shifts {ns : List RegName} {ps : List Part} {fs : List Fld} (h : s.Shifts [] ns ps fs t)
    (hn : ns.contains .XPT_IN_LOST = false := by rfl) (hp : .merges ∉ ps := by decide) : s.Spares sd n t := by
  have hm : t.merges = s.merges := h.parts .merges hp
  exact ⟨by rw [hm], h.rd_eq hn⟩

theorem State.spares_raiseW (s : State) (x : Side) (v : W32) : s.Spares sd n (s.raiseW (RS .XPT_IN_MSTAT x n) v) :=
  State.spares_of_shifts (State.shifts_refl (xs := []) (ns := bankRegs) (ps := bankParts) (fs := []) s).raiseW

theorem State.spares_mergeRun (s : State) : s.Spares sd n (s.mergeRun sd.other n m bits) := by
  have hne : 2 * n + sd.idx ≠ 2 * n + sd.other.idx := by cases sd <;> simp [Side.other, Side.idx]
  refine ⟨by rw [State.merges_mergeRun, SMap.at_set, if_neg hne], ?_⟩
  rw [State.rd_lost_mergeRun, if_neg (by cases sd <;> decide)]

theorem State.spares_mergeArrive (s : State) (b : Bank) (x : Option Block) : s.Spares sd n (s.mergeArrive sd.other n b x) := by
  obtain ⟨v, e⟩ | ⟨m, bits, e⟩ := s.mergeArrive_cases sd.other n b x
  · exact e ▸ s.spares_raiseW _ _
  · exact e ▸ s.spares_mergeRun

theorem State.Shifts.inMode_eq {ns : List RegName} {ps : List Part} {fs : List Fld} (h : s.Shifts [] ns ps fs t) (n : Nat)
    (hp : .inPlan ∉ ps := by decide) (ht : .twins ∉ ps := by decide) : t.inMode n = s.inMode n := by
  have e : t.inPlan = s.inPlan := h.parts .inPlan hp
  have e' : t.twins = s.twins := h.parts .twins ht
  simp only [State.inMode, State.twin, e, e']

end

/-! ## A copy goes ABSENT (O6, O7) -/

theorem State.flag_of_or {s : State} {k : RegKey} {x : W32} {i : Nat} (h : s.rd k = x ||| Fld.mask ⟨i, 1⟩) (hi : i < 32 := by decide) :
    s.flag k ⟨i, 1⟩ = true := by
  rw [State.flag, State.fld, h, getF_or_mask x i hi]
  rfl

theorem or_absentBit_ne (x : W32) (b : Bank) : (x ||| absentBit b) &&& absentBit b ≠ 0 := by
  rw [BitVec.and_comm, BitVec.and_or_distrib_left, BitVec.and_self]
  exact fun hc => absurd (BitVec.or_eq_zero_iff.mp hc).2 (by cases b <;> decide)

/-- A copy as its bank holds it once it is declared ABSENT (R61). -/
def CopyRx.declared (c : CopyRx) : CopyRx := { c with present := false, rx := [], sofDone := false, cut := {} }

/-- The bank's part of the declaration: the receive flow is told, and the words not yet cut go. -/
def State.declared (s : State) (n : Nat) (b : Bank) : State :=
  (s.flowAbsent b ((s.inPlan.at n).pos b)).setCopyRx n b (s.copyRx n b).declared

section
variable {sd : Side} {n : Nat} {b : Bank} {s : State}

theorem State.copyAbsent_of_present (h : (s.copyRx n b).present = true) : s.copyAbsent n b =
    (s.declared n b).eachRouting fun sd s => (s.raiseW (RS .XPT_IN_MSTAT sd n) (absentBit b)).mergeArrive sd n b none := if_pos h

theorem State.copyAbsent_of_absent (h : (s.copyRx n b).present = false) : s.copyAbsent n b = s := if_neg (by rw [h]; decide)

theorem State.shifts_declared (s : State) (n : Nat) (b : Bank) :
    s.Shifts [] [.ETH_RXF_EVT, .ETH_RXF_LOST, .EVT_STATUS] [.regs, .fired, .rxFlows, .inRx] [] (s.declared n b) :=
  (s.shifts_refl.then (s.flowMoves_flowAbsent b _)).alter

theorem State.inRx_declared (s : State) (n : Nat) (b : Bank) : (s.declared n b).inRx = (s.setCopyRx n b (s.copyRx n b).declared).inRx := by
  have h : (s.flowAbsent b ((s.inPlan.at n).pos b)).inRx = s.inRx := (s.flowMoves_flowAbsent b _).parts .inRx (by decide)
  simp only [State.declared, State.setCopyRx, h]

/-- The ABSENT words move no input stream. -/
theorem State.inRx_copyAbsent (h : (s.copyRx n b).present = true) : (s.copyAbsent n b).inRx = (s.setCopyRx n b (s.copyRx n b).declared).inRx := by
  have hm : (s.declared n b).MergeMoves (s.copyAbsent n b) := by
    rw [State.copyAbsent_of_present h]
    exact (State.shifts_refl _).eachRouting fun _ _ h => h.raiseW.mergeArrive
  exact (hm.parts .inRx (by decide)).trans (s.inRx_declared n b)

theorem State.gains_copyAbsent (s : State) (n : Nat) (b : Bank) : s.Gains (s.copyAbsent n b) := by
  cases h : (s.copyRx n b).present with
  | false => rw [State.copyAbsent_of_absent h]; exact s.gains_refl
  | true =>
    rw [State.copyAbsent_of_present h]
    exact (State.gains_of_shifts (s.shifts_declared n b)).eachRouting fun _ _ => (State.gains_raiseW _ _ _).trans (State.gains_mergeArrive _ _ _ _ _)

theorem Merge.copy_setCopy (m : Merge) (c x : Bank) (q : MergeQ) : (m.setCopy c q).copy x = if x = c then q else m.copy x := by
  cases c <;> cases x <;> rfl

theorem Merge.lost_setCopy (m : Merge) (c : Bank) (q : MergeQ) : (m.setCopy c q).lost = m.lost := by cases c <;> rfl

theorem Merge.absent_shut {m : Merge} {mode : Nat} {c x : Bank} (h : (m.copy x).absent = true) : ((m.shut mode c).copy x).absent = true := by
  unfold Merge.shut
  split
  · rw [Merge.copy_setCopy]
    split
    · rfl
    · exact h
  · exact h

@[simp] theorem Merge.lost_shut (m : Merge) (mode : Nat) (c : Bank) : (m.shut mode c).lost = m.lost := by
  unfold Merge.shut
  split
  · exact m.lost_setCopy c _
  · rfl

theorem Bank.eq_other_of_ne {x c : Bank} (h : x ≠ c) : x = c.other := by
  cases c <;> cases x <;> simp_all [Bank.other]

/-- The ABSENT word of a copy reaches a merge whose other copy is out: the input is lost (R61, R62). -/
theorem State.lost_mergeArrive (ha : ((s.merges.at (2 * n + sd.idx)).copy b.other).absent = true) (hl : (s.merges.at (2 * n + sd.idx)).lost = false) :
    ((s.mergeArrive sd n b none).merges.at (2 * n + sd.idx)).lost = true ∧
      (s.mergeArrive sd n b none).flag (RS .XPT_IN_MSTAT sd n) F.XPT_IN_MSTAT_LOST = true := by
  have he : s.mergeArrive sd n b none = s.mergeRun sd n ((s.merges.at (2 * n + sd.idx)).setCopy b { absentAt := s.tick }) 0 := rfl
  rw [he]
  generalize s.merges.at (2 * n + sd.idx) = m at ha hl
  have hout (x : Bank) : ((m.setCopy b { absentAt := s.tick }).copy x).absent = true := by
    rw [Merge.copy_setCopy]
    split
    · rfl
    · next hne => exact Bank.eq_other_of_ne hne ▸ ha
  have hlost : (m.setCopy b { absentAt := s.tick }).lost = false := (m.lost_setCopy b _).trans hl
  generalize m.setCopy b { absentAt := s.tick } = m' at hout hlost
  obtain ⟨r, rb⟩ : (s.mergeOut n m' 0).m.lost = true ∧ (s.mergeOut n m' 0).bits = 0 ||| F.XPT_IN_MSTAT_LOST.mask :=
    MergeOut.run_of_out (fun x => by rw [Merge.absent_shut (Merge.absent_shut (hout x)), Bool.or_true]) (by simpa using hlost)
  refine ⟨by rw [State.merges_mergeRun, SMap.at_set, if_pos rfl]; exact r, State.flag_of_or (x := s.rd (RS .XPT_IN_MSTAT sd n) ||| 0) ?_⟩
  rw [State.rd_mstat_mergeRun, rb, BitVec.or_assoc]

/-- In `t` the absence of a copy shows in a Side: its ABSENT bit is set, and the input is lost where the other copy was out of the Side's merge. -/
structure State.ReportsAbsent (sd : Side) (n : Nat) (b : Bank) (s t : State) : Prop where
  bit : t.rd (RS .XPT_IN_MSTAT sd n) &&& absentBit b ≠ 0
  lost : ((s.merges.at (2 * n + sd.idx)).copy b.other).absent = true → (s.merges.at (2 * n + sd.idx)).lost = false →
    (t.merges.at (2 * n + sd.idx)).lost = true ∧ t.flag (RS .XPT_IN_MSTAT sd n) F.XPT_IN_MSTAT_LOST = true

/-- A copy that is declared ABSENT is reported so in every Side whose crosspoint works. -/
theorem State.reportsAbsent_copyAbsent (h : (s.copyRx n b).present = true) (hr : s.routing sd = true) : s.ReportsAbsent sd n b (s.copyAbsent n b) := by
  have hd := s.shifts_declared n b
  have hd' : s.Spares sd n (s.declared n b) := State.spares_of_shifts hd
  rw [State.copyAbsent_of_present h]
  refine State.eachRouting_at (P := s.Spares sd n) ((hd.routing_eq (sd := sd)).trans hr) ?_ hd' ?_ ?_ ?_
  · exact fun x u => (State.shifts_refl (xs := []) (ns := mergeRegs) (ps := mergeParts) (fs := []) u).raiseW.mergeArrive.routing_eq (sd := sd)
  · exact fun u hu => hu.trans ((u.spares_raiseW _ _).trans (State.spares_mergeArrive _ _ _))
  · intro u hu
    refine ⟨(State.gains_mergeArrive _ _ _ _ _).bits ?_, fun ha hl => ?_⟩
    · rw [State.rd_raiseW _ _ _ _ (by simp), if_pos rfl]
      exact or_absentBit_ne _ b
    · have e := (hu.trans (u.spares_raiseW sd (absentBit b))).merge
      exact State.lost_mergeArrive (by rw [e]; exact ha) (by rw [e]; exact hl)
  · intro u hu
    have hg := (u.gains_raiseW (RS .XPT_IN_MSTAT sd.other n) (absentBit b)).trans (State.gains_mergeArrive _ sd.other n b none)
    have hp := (u.spares_raiseW (sd := sd) (n := n) sd.other (absentBit b)).trans (State.spares_mergeArrive _ b none)
    refine ⟨hg.bits hu.bit, fun ha hl => ?_⟩
    obtain ⟨hm, hf⟩ := hu.lost ha hl
    exact ⟨by rw [hp.merge]; exact hm, hg.flag hf⟩

end

/-! ## A block with the key of the other copy's (O7) -/

section
variable {sd : Side} {n : Nat} {e w : Block} {s : State}

/-- Bank W's copy holds one undecided block, and Bank E's none, in a merge of a Side that is not lost. -/
structure State.Awaits (s : State) (sd : Side) (n : Nat) (w : Block) : Prop where
  here : (s.merges.at (2 * n + sd.idx)).lost = false
  bankE : (s.merges.at (2 * n + sd.idx)).e = { absent := false, q := [] }
  bankW : (s.merges.at (2 * n + sd.idx)).w = { absent := false, q := [w] }
  mode3 : s.inMode n ≠ 3
  mode4 : s.inMode n ≠ 4

/-- Bank E's block joins its queue, and the merge proceeds. -/
theorem State.Awaits.mergeArrive (h : s.Awaits sd n w) (e : Block) : ∃ bits, s.mergeArrive sd n .E (some e) =
    s.mergeRun sd n { s.merges.at (2 * n + sd.idx) with e := { absent := false, q := [e] }, lost := false } bits := by
  obtain ⟨hl, he, hw, h3, h4⟩ := h
  unfold State.mergeArrive
  simp only [excludes_of_ne h3 h4, Merge.copy, Merge.setCopy, Bank.other, he, hl, hw, Bool.false_eq_true, false_or, false_and, if_false,
    List.isEmpty_cons, Bool.and_false, List.nil_append]
  exact ⟨_, rfl⟩

/-- In `t` the key that both copies hold has been decided by the mode and by goodness (R58): the block is emitted, both queues are empty, and the loss is
counted where neither copy is good. -/
structure State.DecidesKey (sd : Side) (n : Nat) (e w : Block) (s t : State) : Prop where
  emitted : (t.merges.at (2 * n + sd.idx)).emitted = some (if s.inMode n = 1 then (.E, e) else if s.inMode n = 2 then (.W, w)
    else if e.good then (.E, e) else if w.good then (.W, w) else (.E, e))
  bankE : (t.merges.at (2 * n + sd.idx)).e.q = []
  bankW : (t.merges.at (2 * n + sd.idx)).w.q = []
  count : t.rd (RS .XPT_IN_LOST sd n) = s.rd (RS .XPT_IN_LOST sd n) + (if e.good || w.good then 0 else 1)

theorem State.Awaits.decidesKey (h : s.Awaits sd n w) (he : e.keyLe w = true) (hw : w.keyLe e = true) :
    s.DecidesKey sd n e w (s.mergeArrive sd n .E (some e)) := by
  obtain ⟨bits, ea⟩ := h.mergeArrive e
  obtain ⟨-, -, hq, h3, h4⟩ := h
  generalize s.merges.at (2 * n + sd.idx) = m at ea hq
  have hd : MergeOut.Decided { m := { m with e := { absent := false, q := [e] }, lost := false }, bits := bits } (s.inMode n) e w
      (s.mergeOut n { m with e := { absent := false, q := [e] }, lost := false } bits) := by
    unfold State.mergeOut
    simp only [Merge.shut, excludes_of_ne h3 h4, Bool.false_eq_true, if_false]
    exact MergeOut.decided_run h3 h4 rfl hq he hw
  rw [ea]
  constructor
  case count =>
    rw [State.rd_lost_mergeRun, if_pos rfl, hd.lost]
    cases e.good <;> cases w.good <;> rfl
  all_goals rw [State.merges_mergeRun, SMap.at_set, if_pos rfl]
  · exact hd.emitted.trans (choose_both h3 h4 e w)
  · rw [hd.bankE]
    rfl
  · rw [hd.bankW]
    rfl

section
variable {u t t' : State}

theorem State.Awaits.spared (h : s.Awaits sd n w) (hs : s.Spares sd n u) (hm : u.inMode n = s.inMode n) : u.Awaits sd n w := by
  obtain ⟨hl, he, hw, h3, h4⟩ := h
  exact ⟨by rw [hs.merge, hl], by rw [hs.merge, he], by rw [hs.merge, hw], by rwa [hm], by rwa [hm]⟩

theorem State.DecidesKey.before (h : u.DecidesKey sd n e w t) (hs : s.Spares sd n u) (hm : u.inMode n = s.inMode n) : s.DecidesKey sd n e w t := by
  obtain ⟨ho, he, hw, hc⟩ := h
  exact ⟨by rw [ho, hm], he, hw, by rw [hc, hs.count]⟩

theorem State.DecidesKey.after (h : s.DecidesKey sd n e w t) (hs : t.Spares sd n t') : s.DecidesKey sd n e w t' := by
  obtain ⟨ho, he, hw, hc⟩ := h
  exact ⟨by rw [hs.merge, ho], by rw [hs.merge, he], by rw [hs.merge, hw], by rw [hs.count, hc]⟩

end

/-- The block reaches the merges of both Sides, and each in which Bank W's waits decides the key. -/
theorem State.Awaits.decidesKey_eachRouting (h : s.Awaits sd n w) (hr : s.routing sd = true) (he : e.keyLe w = true) (hw : w.keyLe e = true) :
    s.DecidesKey sd n e w (s.eachRouting fun sd s => s.mergeArrive sd n .E (some e)) := by
  have hx (x : Side) (u : State) : u.MergeMoves (u.mergeArrive x n .E (some e)) := u.shifts_refl.mergeArrive
  refine State.eachRouting_at (P := fun u => s.Spares sd n u ∧ u.inMode n = s.inMode n) hr (fun x u => (hx x u).routing_eq (sd := sd))
    ⟨⟨rfl, rfl⟩, rfl⟩ (fun u hu => ?_) (fun u hu => ?_) fun u hu => hu.after (u.spares_mergeArrive _ _)
  · obtain ⟨hs, hm⟩ := hu
    exact ⟨hs.trans (u.spares_mergeArrive _ _), ((hx _ u).inMode_eq n).trans hm⟩
  · obtain ⟨hs, hm⟩ := hu
    exact ((h.spared hs hm).decidesKey he hw).before hs hm

end

/-! ## The commands (O7) -/

/-- The last complete block is no older than what is known. -/
theorem le_lastComplete (fuel : Nat) (ws : List RxWord) (t : Nat) : t ≤ lastComplete fuel ws t := by
  induction fuel generalizing ws t with
  | zero => exact le_rfl
  | succ fuel ih =>
    unfold lastComplete
    split
    · exact (le_max_left _ _).trans (ih _ _)
    · exact le_rfl

section
variable {n : Fin 1024} {b : Bank} {s : State}

/-- A block that is cut from a present copy's words goes to the merges, and the words after it remain. -/
theorem execMergeBlock_of_block {k : Block} {rest : List RxWord} {cut : CutSt} (hc : s.hasCopy n b = true)
    (hp : ((s.reassemble n b).copyRx n b).present = true) (hn : ((s.reassemble n b).copyRx n b).newSof = none)
    (hk : cutBlock ((s.reassemble n b).copyRx n b).cut (((((s.reassemble n b).inRx.at n).stamps.head?).map (·.2)).getD 0)
      ((s.reassemble n b).copyRx n b).rx = some (k, rest, cut))
    (hg : (takeBlock ((s.reassemble n b).copyRx n b).rx).any (fun p => unreceived p.1) = false) :
    ∃ c, c.rx = rest ∧ execMergeBlock n b s =
      .next (((s.reassemble n b).setCopyRx n b c).eachRouting fun sd s => s.mergeArrive sd n b (some k)) := by
  unfold execMergeBlock
  simp only [hc, hp, hn, hk, hg, Bool.not_true, Option.isSome_none, Bool.or_self, Bool.false_eq_true, if_false]
  exact ⟨_, rfl, rfl⟩

theorem execMergeBlock_of_absent (hc : s.hasCopy n b = true) (hp : (s.copyRx n b).present = false) :
    execMergeBlock n b s = .next (s.reassemble n b) := by
  have h : ((s.reassemble n b).copyRx n b).present = false := (s.receives_reassemble n b).present.trans hp
  simp [execMergeBlock, hc, h]

theorem execMergeBlock_of_no_copy (hc : s.hasCopy n b = false) : execMergeBlock n b s = .next s := by simp [execMergeBlock, hc]

theorem execGapTimeout_of_early (h : s.tick < (s.copyRx n b).lastAt + s.gapTicks n) : execGapTimeout n b s = .next s := by
  have := le_lastComplete (s.copyRx n b).rx.length (s.copyRx n b).rx (s.copyRx n b).lastAt
  exact if_neg fun hc => by omega

end

/-- Settles O7, a lemma for each kind of event: the block with the other copy's key, the copy that goes ABSENT, and the commands that do nothing. -/
theorem mergeDecidesByContent : Obligations.MergeDecidesByContent := by
  unfold Obligations.MergeDecidesByContent
  refine ⟨fun n sd e w rest cut s u hc hu hp hn hk hg hr hl hbe hbw h3 h4 he hw => ?_, fun n b s hp ht => ?_,
    fun n b s h => execGapTimeout_of_early h, fun n b s hc hp => execMergeBlock_of_absent hc hp, fun n b s hc => execMergeBlock_of_no_copy hc⟩
  · subst hu
    obtain ⟨c, hcr, hx⟩ := execMergeBlock_of_block hc hp hn hk hg
    have hv : s.Banks ((s.reassemble n .E).setCopyRx n .E c) := (s.receives_reassemble n .E).banks.setCopyRx
    have hs : s.Spares sd n ((s.reassemble n .E).setCopyRx n .E c) := State.spares_of_shifts hv
    have ha : s.Awaits sd n w := ⟨hl, hbe, hbw, h3, h4⟩
    have hm := hv.inMode_eq n
    have hrx : ((s.reassemble n .E).setCopyRx n .E c).copyRx n .E = c := State.copyRx_setCopyRx _ _ _ _
    rw [← hv.routing_eq (sd := sd)] at hr
    generalize (s.reassemble n .E).setCopyRx n .E c = v at hv hs hm hr hx hrx
    have ht : v.MergeMoves (v.eachRouting fun sd s => s.mergeArrive sd n .E (some e)) := v.shifts_refl.eachRouting fun _ _ h => h.mergeArrive
    obtain ⟨ho, hqe, hqw, hcount⟩ := ((ha.spared hs hm).decidesKey_eachRouting hr he hw).before hs hm
    have hin : (v.eachRouting fun sd s => s.mergeArrive sd n .E (some e)).inRx = v.inRx := ht.parts .inRx (by decide)
    refine ⟨_, hx, ho, hqe, hqw, hcount, ?_, State.Shifts.touches (fs := []) ((s.shifts_refl.then hv).then ht)⟩
    rw [State.copyRx, hin]
    exact (congrArg CopyRx.rx hrx).trans hcr
  · refine ⟨_, if_pos ⟨hp, ht⟩, ?_, fun sd hr => ?_, (s.absents_copyAbsent n b).touches⟩
    · rw [State.copyRx, State.inRx_copyAbsent hp]
      exact congrArg CopyRx.present (State.copyRx_setCopyRx _ _ _ _)
    · obtain ⟨hbit, hlost⟩ := State.reportsAbsent_copyAbsent hp hr
      exact ⟨hbit, hlost⟩

/-! ## An SOF (O6) -/

section
variable {n : Nat} {b : Bank} {s t : State}

/-- Where neither the cadence counters nor the inputs' configuration move, a phase is what it was (R57). -/
theorem State.Shifts.phaseOf_eq (h : s.Banks t) (n : Nat) (stamp : Int) : t.phaseOf n stamp = s.phaseOf n stamp := by
  have hr (c : Nat) : t.rd (R1 .REF_CAD_DESC c) = s.rd (R1 .REF_CAD_DESC c) := h.rd_eq
  have ht : t.twins = s.twins := h.parts .twins (by decide)
  have hc : t.cads = s.cads := h.parts .cads (by decide)
  have hf (c : Nat) : t.cadFmt c = s.cadFmt c := by simp only [State.cadFmt, hr]
  have hv (c : Nat) : t.cadValid c = s.cadValid c := by simp only [State.cadValid, State.flag, State.fld, hr]
  have ho (c : Nat) : t.cadOf c = s.cadOf c := by simp only [State.cadOf, hv]
  have hs (c : Nat) (k : Int) : t.cadStart c k = s.cadStart c k := by simp only [State.cadStart, State.startOf, hf, hc]
  have ha (c : Nat) : t.cadFrameAt c stamp = s.cadFrameAt c stamp := by simp only [State.cadFrameAt, hf, hc]
  simp only [State.phaseOf, State.twin, ht, ho, hs, ha, hf]

/-- Input `n` is noted anew: where its format changes no frame of it is whole yet, and FMT_CHANGE is set (R66, R94). -/
def State.inputNoted (s : State) (n : Nat) (x : InRx) : State :=
  let t := { s with inRx := s.inRx.set n x }
  if (s.inRx.at n).slots ≠ 0 ∧ (s.inRx.at n).fmt ≠ x.fmt then (t.forgetWhole n).inBit n F.XPT_IN_MSTAT_FMT_CHANGE else t

theorem State.shifts_inputNoted (s : State) (n : Nat) (x : InRx) :
    s.Shifts [] [.XPT_IN_MSTAT, .EVT_STATUS] [.regs, .fired, .inRx, .merges] [] (s.inputNoted n x) := by
  unfold State.inputNoted
  have h : s.Shifts [] [.XPT_IN_MSTAT, .EVT_STATUS] [.regs, .fired, .inRx, .merges] [] { s with inRx := s.inRx.set n x } := s.shifts_refl.alter
  have h' : s.Shifts [] [.XPT_IN_MSTAT, .EVT_STATUS] [.regs, .fired, .inRx, .merges] [] ({ s with inRx := s.inRx.set n x }.forgetWhole n) := h.alter
  exact .ite (h'.then (State.shifts_inBit _ _ _)) h

theorem State.inRx_inputNoted (s : State) (n : Nat) (x : InRx) : (s.inputNoted n x).inRx = s.inRx.set n x := by
  unfold State.inputNoted
  dsimp only
  split
  · exact State.inRx_inBit _ _ _
  · rfl

theorem State.copyRx_inputNoted (s : State) (n : Nat) (x : InRx) (c : Bank) : (s.inputNoted n x).copyRx n c = x.copy c := by
  rw [State.copyRx, State.inRx_inputNoted, SMap.at_set, if_pos rfl]

/-- The SOF's format does not fit: SIZE_ERR is set, the copy goes ABSENT, and of its words those after the SOF remain (R50, R61). -/
def State.sofRefused (s : State) (n : Nat) (b : Bank) (x : InRx) : State :=
  let v := ((s.inputNoted n x).inBit n F.XPT_IN_MSTAT_SIZE_ERR).copyAbsent n b
  (v.setCopyRx n b { v.copyRx n b with rx := (s.copyRx n b).rx.drop 1 }).trimRx n b

/-- What an SOF makes of its input: the format is the frame's, a copy whose format fits is present, the other copy stands, and the phase is that of the
leading copy's SOF (R50, R57, R61). -/
structure State.Measures (s : State) (n : Nat) (b : Bank) (f : Fmt) (stamp : Int) (x : InRx) : Prop where
  fmt : x.fmt = f
  present : (x.copy b).present = (f.carried (s.inPlan.at n).slots || (s.copyRx n b).present)
  other : x.copy b.other = s.copyRx n b.other
  phase : f.carried (s.inPlan.at n).slots = true → b = .E ∨ (s.inRx.at n).e.present = false → x.phase = s.phaseOf n stamp

/-- An SOF is measured, and then refused, or judged by the outputs that show the input where its copy leads (R50, R122). -/
theorem State.sofArrives_eq (s : State) (n : Nat) (b : Bank) (f : Fmt) (tag : Nat) (stamp : Int) :
    ∃ x, s.Measures n b f stamp x ∧ s.sofArrives n b f tag stamp =
      if f.carried (s.inPlan.at n).slots = false then s.sofRefused n b x
      else if b = .E ∨ (s.inRx.at n).e.present = false then (s.inputNoted n x).judgeAll n none stamp else s.inputNoted n x := by
  unfold State.sofArrives
  extract_lets x g fits anyBefore leads c c' stamps base period copied x' s1 s2 rest s3
  have hlead (h : fits = true) : leads = true ↔ b = .E ∨ x.e.present = false := by simp [leads, h]
  refine ⟨x', ⟨rfl, ?_, ?_, fun h hb => if_pos ((hlead h).mpr hb)⟩, ?_⟩
  · have hp : (x'.copy b).present = c'.present := by cases b <;> rfl
    have hc : c'.present = (fits || c.present) := by
      unfold c'
      cases fits <;> rfl
    exact hp.trans hc
  · cases b <;> rfl
  · cases h : fits with
    | false =>
      have hf : f.carried (s.inPlan.at n).slots = false := h
      rw [if_pos hf]
      rfl
    | true =>
      have hf : ¬f.carried (s.inPlan.at n).slots = false := by
        rw [Bool.not_eq_false]
        exact h
      rw [if_neg hf]
      exact (if_neg (by decide)).trans (if_congr (hlead h) rfl rfl)

/-- From an input that is noted to the refusal of its SOF. -/
theorem State.receives_sofRefused (s : State) (n : Nat) (b : Bank) (x : InRx) :
    (((s.inputNoted n x).inBit n F.XPT_IN_MSTAT_SIZE_ERR).copyAbsent n b).Receives n b (s.sofRefused n b x) :=
  (State.receives_refl n b _).setCopyRx.trimRx

theorem State.gains_sofRefused (s : State) (n : Nat) (b : Bank) (x : InRx) :
    (((s.inputNoted n x).inBit n F.XPT_IN_MSTAT_SIZE_ERR).copyAbsent n b).Gains (s.sofRefused n b x) :=
  (State.gains_setCopyRx _ _ _ _).trans (State.gains_trimRx _ _ _)

theorem State.present_copyAbsent (s : State) (n : Nat) (b : Bank) : ((s.copyAbsent n b).copyRx n b).present = false := by
  cases h : (s.copyRx n b).present with
  | false => rw [State.copyAbsent_of_absent h, h]
  | true =>
    rw [State.copyRx, State.inRx_copyAbsent h]
    exact congrArg CopyRx.present (State.copyRx_setCopyRx _ _ _ _)

theorem State.copyRx_other_copyAbsent (s : State) (n : Nat) (b : Bank) : (s.copyAbsent n b).copyRx n b.other = s.copyRx n b.other := by
  cases h : (s.copyRx n b).present with
  | false => rw [State.copyAbsent_of_absent h]
  | true =>
    rw [State.copyRx, State.inRx_copyAbsent h]
    exact State.copyRx_other_setCopyRx _ _ _ _

theorem State.inRx_copyAbsent_of_ne (s : State) {n k : Nat} (b : Bank) (hk : k ≠ n) : (s.copyAbsent n b).inRx.at k = s.inRx.at k := by
  cases h : (s.copyRx n b).present with
  | false => rw [State.copyAbsent_of_absent h]
  | true => rw [State.inRx_copyAbsent h, State.inRx_setCopyRx, if_neg hk]

/-- A refused SOF leaves its copy ABSENT, with SIZE_ERR in every Side whose crosspoint works and, where the copy was present, its ABSENT bit; the other
copy and the other inputs stand. -/
structure State.Refuses (n : Nat) (b : Bank) (s t : State) : Prop where
  absent : (t.copyRx n b).present = false
  other : t.copyRx n b.other = s.copyRx n b.other
  others : ∀ k, k ≠ n → t.inRx.at k = s.inRx.at k
  sizeErr : ∀ sd, s.routing sd = true → t.flag (RS .XPT_IN_MSTAT sd n) F.XPT_IN_MSTAT_SIZE_ERR = true
  bit : ∀ sd, s.routing sd = true → (s.copyRx n b).present = true → t.rd (RS .XPT_IN_MSTAT sd n) &&& absentBit b ≠ 0
  moves : s.Absents t

theorem State.refuses_sofRefused {f : Fmt} {stamp : Int} {x : InRx} (hx : s.Measures n b f stamp x) :
    s.Refuses n b (s.sofRefused n b x) := by
  have hr := s.receives_sofRefused n b x
  have hg := s.gains_sofRefused n b x
  have hn := s.shifts_inputNoted n x
  have hi := (s.inputNoted n x).shifts_inBit n F.XPT_IN_MSTAT_SIZE_ERR
  have hc (c : Bank) : ((s.inputNoted n x).inBit n F.XPT_IN_MSTAT_SIZE_ERR).copyRx n c = x.copy c := by
    rw [State.copyRx, State.inRx_inBit]
    exact s.copyRx_inputNoted n x c
  constructor
  · exact hr.present.trans (State.present_copyAbsent _ n b)
  · exact hr.copy_other.trans ((State.copyRx_other_copyAbsent _ n b).trans ((hc _).trans hx.other))
  · intro k hk
    rw [hr.others k hk, State.inRx_copyAbsent_of_ne _ b hk, State.inRx_inBit, State.inRx_inputNoted, SMap.at_set, if_neg hk]
  · intro sd hs
    exact ((State.gains_copyAbsent _ n b).trans hg).flag (State.flag_inBit ((hn.routing_eq (sd := sd)).trans hs) n 8)
  · intro sd hs hp
    refine hg.bits (State.reportsAbsent_copyAbsent ?_ ((hi.routing_eq (sd := sd)).trans ((hn.routing_eq (sd := sd)).trans hs))).bit
    rw [hc, hx.present, hp, Bool.or_true]
  · exact (((s.shifts_refl.then hn).then hi).then (State.absents_copyAbsent _ n b)).then hr.banks

end

/-! ## The command (O6) -/

section
variable {n : Fin 1024} {b : Bank} {s : State}

/-- The SOF at the front of a copy's words arrives with the format of its frame (log entry 113: without a FORMAT marker, that of the frame before). -/
theorem execInputSof_of_sof {h g : RxWord} {f : Fmt} (hc : s.hasCopy n b = true) (hn : ((s.reassemble n b).copyRx n b).newSof = some (h, g))
    (hf : f = { code := if isType 6 g.w then markSpec g.w else ((s.reassemble n b).inRx.at n).fmt.code, il := bitOf h.w 1, seg := bitOf h.w 0 }) :
    execInputSof n b s = .next ((s.reassemble n b).sofArrives n b f (markSpec h.w / 4 % 256) (h.time / sixteenth * sixteenth)) := by
  subst hf
  simp only [execInputSof, hc, hn, Bool.not_true, Bool.false_eq_true, if_false]

theorem execInputSof_of_none (hc : s.hasCopy n b = true) (hn : ((s.reassemble n b).copyRx n b).newSof = none) :
    execInputSof n b s = .next (s.reassemble n b) := by
  simp [execInputSof, hc, hn]

theorem execInputSof_of_no_copy (hc : s.hasCopy n b = false) : execInputSof n b s = .next s := by simp [execInputSof, hc]

end

/-- An SOF whose format fits brings its copy in, with the frame's format and the leading copy's phase; the other copy and the other inputs stand, and the
outputs that show the input may judge it. -/
structure State.Admits (n : Nat) (b : Bank) (f : Fmt) (stamp : Int) (s t : State) : Prop where
  present : (t.copyRx n b).present = true
  fmt : (t.inRx.at n).fmt = f
  other : t.copyRx n b.other = s.copyRx n b.other
  phase : b = .E ∨ (s.inRx.at n).e.present = false → (t.inRx.at n).phase = s.phaseOf n stamp
  others : ∀ k, k ≠ n → t.inRx.at k = s.inRx.at k
  moves : s.Shifts [] (.XPT_IN_MSTAT :: judgeRegs) (.inRx :: .merges :: judgeParts) [] t

theorem State.admits_sofArrives {n : Nat} {b : Bank} {f : Fmt} {tag : Nat} {stamp : Int} {s : State} (hf : f.carried (s.inPlan.at n).slots = true) :
    s.Admits n b f stamp (s.sofArrives n b f tag stamp) := by
  obtain ⟨x, ⟨hfmt, hpresent, hother, hphase⟩, he⟩ := s.sofArrives_eq n b f tag stamp
  rw [if_neg (by rw [hf]; decide)] at he
  have hj : (s.inputNoted n x).Judges (s.sofArrives n b f tag stamp) := by
    rw [he]
    exact .ite (State.shifts_refl _).judgeAll (State.shifts_refl _)
  have hi : (s.sofArrives n b f tag stamp).inRx = s.inRx.set n x := (hj.parts .inRx (by decide)).trans (s.inRx_inputNoted n x)
  have hn : (s.sofArrives n b f tag stamp).inRx.at n = x := by rw [hi, SMap.at_set, if_pos rfl]
  constructor
  · rw [State.copyRx, hn, hpresent, hf, Bool.true_or]
  · rw [hn, hfmt]
  · rw [State.copyRx, hn, hother]
  · rw [hn]
    exact hphase hf
  · intro k hk
    rw [hi, SMap.at_set, if_neg hk]
  · exact (s.shifts_refl.then (s.shifts_inputNoted n x)).then hj

theorem State.refuses_sofArrives {n : Nat} {b : Bank} {f : Fmt} {tag : Nat} {stamp : Int} {s : State} (hf : f.carried (s.inPlan.at n).slots = false) :
    s.Refuses n b (s.sofArrives n b f tag stamp) := by
  obtain ⟨x, hx, he⟩ := s.sofArrives_eq n b f tag stamp
  rw [if_pos hf] at he
  rw [he]
  exact State.refuses_sofRefused hx

/-- What the bank's receive logic does first leaves whether Bank E's copy is present, so which copy leads. -/
theorem State.Receives.present_bankE {n : Nat} {b : Bank} {s t : State} (h : s.Receives n b t) :
    (t.inRx.at n).e.present = (s.inRx.at n).e.present := by
  cases b with
  | E => exact h.present
  | W => exact congrArg CopyRx.present h.copy_other

/-- Settles O6: the bank reassembles its copy, and the SOF at its front is admitted or refused. -/
theorem sofsAreJudgedAndMeasured : Obligations.SofsAreJudgedAndMeasured := by
  unfold Obligations.SofsAreJudgedAndMeasured
  refine ⟨fun n b h g f s u hc hu hn hfm hf => ?_, fun n b h g f s u hc hu hn hfm hf => ?_, fun n b s hc hn => execInputSof_of_none hc hn,
    fun n b s hc => execInputSof_of_no_copy hc⟩
  all_goals
    subst hu
    have hr := s.receives_reassemble n b
    refine ⟨_, execInputSof_of_sof hc hn hfm, ?_⟩
  · obtain ⟨hpresent, hfmt, hother, hphase, hothers, hmoves⟩ :=
      State.admits_sofArrives (b := b) (tag := markSpec h.w / 4 % 256) (stamp := h.time / sixteenth * sixteenth) hf
    refine ⟨hpresent, hfmt, hother.trans hr.copy_other, fun hb => ?_, fun k hk => (hothers k hk).trans (hr.others k hk),
      State.Shifts.touches (fs := []) ((s.shifts_refl.then hr.banks).then hmoves)⟩
    rw [← hr.present_bankE] at hb
    exact (hphase hb).trans (hr.banks.phaseOf_eq _ _)
  · obtain ⟨habsent, hother, hothers, hsize, hbit, hmoves⟩ :=
      State.refuses_sofArrives (b := b) (tag := markSpec h.w / 4 % 256) (stamp := h.time / sixteenth * sixteenth) hf
    have hs (sd : Side) := hr.banks.routing_eq (sd := sd)
    exact ⟨habsent, hother.trans hr.copy_other, fun sd hsd => ⟨hsize sd ((hs sd).trans hsd), fun hp => hbit sd ((hs sd).trans hsd) (hr.present.trans hp)⟩,
      fun k hk => (hothers k hk).trans (hr.others k hk), State.Shifts.touches (fs := []) ((s.shifts_refl.then hr.banks).then hmoves)⟩

end Sys2Proof.Machine
end


section
/-! # The requesters' writes of the crosspoint (O9, O13)

Commits are received and salvos edited through T5: what a granted access of each kind does to the registers and to the lists of commits and salvos. -/
namespace Sys2Proof.Machine
set_option Elab.async false

/-! ## Registers that reach no event -/

section
variable {P : RegKey → Prop} {s t : State} {k : RegKey}

theorem State.rd_raiseW_of_no_event (s : State) (he : evtWay k = none) (b : W32) (k' : RegKey) :
    (s.raiseW k b).rd k' = if k' = k then s.rd k ||| b else s.rd k' := by
  simp only [State.raiseW, State.evtOfRise, he, State.rd_note, State.rd_wr]

theorem State.flag_raiseW_bit (s : State) (he : evtWay k = none) (i : Nat) (hi : i < 32 := by decide) :
    (s.raiseW k (Fld.mask ⟨i, 1⟩)).flag k ⟨i, 1⟩ = true := by
  simp only [State.flag, State.fld, s.rd_raiseW_of_no_event he, if_pos, getF_or_mask _ i hi]
  rfl

theorem State.regsSame_refl (P : RegKey → Prop) (s : State) : s.regsSame P s := fun _ _ => rfl

theorem RegKey.ne_of_outside {x : RegKey} (hk : P k) (hx : ¬ P x) : x ≠ k := fun e => hx (e.symm ▸ hk)

theorem State.regsSame_wr (h : s.regsSame P t) (hk : P k) (v : W32) : s.regsSame P (t.wr k v) := fun x hx =>
  (t.rd_wr_ne (RegKey.ne_of_outside hk hx) v).trans (h x hx)

theorem State.regsSame_setF (h : s.regsSame P t) (hk : P k) (f : Fld) (v : Nat) : s.regsSame P (t.setF k f v) := State.regsSame_wr h hk _

theorem State.regsSame_raiseW (h : s.regsSame P t) (hk : P k) (he : evtWay k = none) (b : W32) : s.regsSame P (t.raiseW k b) := fun x hx => by
  rw [t.rd_raiseW_of_no_event he, if_neg (RegKey.ne_of_outside hk hx)]
  exact h x hx

end

/-! ## Accesses through T5 -/

/-- The state after the beat of a requester's access at T5 is counted. -/
abbrev State.twinBeat (s : State) (r : Req) : State := s.countBeat (reqMaster r) r Target.twin.num

theorem State.access_of_granted {s : State} {r : Req} (h : s.granted r .twin) {ok : Bool} (ho : ok = true) (a : Nat) (v : W32) (f : State → State) :
    s.access r .twin ok a v f = f (s.twinBeat r) :=
  s.access_granted r .twin ok a v f h.1 h.2.1 ho h.2.2

theorem State.changesOnly_twinBeat {ps : List Part} (s : State) (r : Req) (h : .locks ∈ ps := by decide) : s.changesOnly ps (s.twinBeat r) :=
  State.changesOnly_countBeat _ _ _ (s.changesOnly_refl ps) h

/-! ## Commits (R76, R77, R78) -/

/-- The state with one more commit under validation. -/
def State.listed (s : State) (c : Commit) : State := { s with commits := s.commits ++ [c] }

@[simp] theorem State.rd_listed (s : State) (c : Commit) (k : RegKey) : (s.listed c).rd k = s.rd k := rfl

@[simp] theorem State.commits_listed (s : State) (c : Commit) : (s.listed c).commits = s.commits ++ [c] := rfl

theorem State.changesOnly_listed (s : State) (c : Commit) : s.changesOnly [.commits] (s.listed c) := by
  intro p hp
  cases p <;> first
    | rfl
    | exact ⟨rfl, rfl⟩
    | exact ⟨rfl, rfl, rfl⟩
    | exact absurd (by decide) hp

/-- The state in which a commit has been received. -/
def State.received (s : State) (c : Commit) : State := (s.setF (takeRes c.req) F.XPT_TAKE_RES_BUSY 1).listed c

theorem State.rd_received (s : State) (c : Commit) (k : RegKey) : (s.received c).rd k = (s.setF (takeRes c.req) F.XPT_TAKE_RES_BUSY 1).rd k := by
  rw [State.received, State.rd_listed]

theorem State.receive_of_busy {s : State} {r : Req} (h : s.flag (takeRes r) F.XPT_TAKE_RES_BUSY = true) (op : CommitOp) (timed : Bool) (tb seq ticks : Nat) :
    s.receive r op timed tb seq ticks = s.raise (takeRes r) F.XPT_TAKE_RES_OVERRUN := if_pos h

theorem State.receive_of_free {s : State} {r : Req} (h : s.flag (takeRes r) F.XPT_TAKE_RES_BUSY = false) (op : CommitOp) (timed : Bool)
    (tb seq ticks : Nat) : s.receive r op timed tb seq ticks =
      s.received { req := r, op := op, timed := timed, timeBase := tb, time := s.ttime r, seq := seq, due := s.tick + ticks } := by
  have ht : (s.setF (takeRes r) F.XPT_TAKE_RES_BUSY 1).ttime r = s.ttime r := by
    have hhi := s.rd_setF_ne (k := takeRes r) (k' := RB .XPT_TTIME_HI r 0) (by simp) F.XPT_TAKE_RES_BUSY 1
    have hlo := s.rd_setF_ne (k := takeRes r) (k' := RB .XPT_TTIME_LO r 0) (by simp) F.XPT_TAKE_RES_BUSY 1
    unfold State.ttime
    rw [hhi, hlo]
  have hr : s.receive r op timed tb seq ticks = (s.setF (takeRes r) F.XPT_TAKE_RES_BUSY 1).listed
      { req := r, op := op, timed := timed, timeBase := tb, time := (s.setF (takeRes r) F.XPT_TAKE_RES_BUSY 1).ttime r, seq := seq,
        due := (s.setF (takeRes r) F.XPT_TAKE_RES_BUSY 1).tick + ticks } := if_neg (by simp [h])
  rw [hr, ht, State.setF_tick, State.received]

/-- From `s` to `t` the commit `c` has been received. -/
structure State.Receipt (s : State) (c : Commit) (t : State) : Prop where
  commits : t.commits = s.commits ++ [c]
  busy : t.flag (takeRes c.req) F.XPT_TAKE_RES_BUSY = true
  regs : s.regsSame (· = takeRes c.req) t
  parts : s.changesOnly [.regs, .commits, .locks] t

theorem State.receipt_received (s : State) (c : Commit) : s.Receipt c ((s.twinBeat c.req).received c) where
  commits := by rw [State.received, State.commits_listed, State.setF_commits, State.countBeat_commits]
  busy := by
    rw [State.flag, State.fld, State.rd_received, ← State.fld, State.fld_setF_self _ _ _ _ (by decide)]
    rfl
  regs k hk := by rw [State.rd_received, State.rd_setF_ne _ hk, State.rd_countBeat]
  parts := State.changesOnly_trans (State.changesOnly_setF (takeRes c.req) F.XPT_TAKE_RES_BUSY 1 (s.changesOnly_twinBeat c.req) (by decide))
    (State.changesOnly_mono (State.changesOnly_listed _ c) (by decide))

/-- The reception that a command stands for, when its access is granted. -/
theorem execTake_granted {s : State} {r : Req} (h : s.granted r .twin) (d : Fin 2048) (timed : Bool) (tb : Fin 4) (seq : Byte) :
    exec (.take r d timed tb seq) s = .next ((s.twinBeat r).receiveTake r d timed tb seq.toNat) :=
  congrArg Host.Outcome.next (State.access_of_granted h rfl _ _ _)

theorem execSalvoCommit_granted {s : State} {r : Req} (h : s.granted r .twin) (n : Fin 256) (timed : Bool) (tb : Fin 4) (seq : Byte) :
    exec (.salvoCommit r n timed tb seq) s = .next ((s.twinBeat r).receiveSalvo r n timed tb seq.toNat) :=
  congrArg Host.Outcome.next (State.access_of_granted h rfl _ _ _)

theorem execTakeCancel_granted {s : State} {r : Req} (h : s.granted r .twin) (d : Fin 2048) (seq : Byte) :
    exec (.takeCancel r d seq) s = .next ((s.twinBeat r).receive r (.cancelTake d) false 0 seq.toNat 2) :=
  congrArg Host.Outcome.next (State.access_of_granted h rfl _ _ _)

theorem execSalvoCancel_granted {s : State} {r : Req} (h : s.granted r .twin) (n : Fin 256) (seq : Byte) :
    exec (.salvoCancel r n seq) s = .next ((s.twinBeat r).receive r (.cancelSalvo n) false 0 seq.toNat 2) :=
  congrArg Host.Outcome.next (State.access_of_granted h rfl _ _ _)

/-- A commit by a requester whose last is still being validated sets OVERRUN alone. -/
theorem State.overrun_clause (s : State) (r : Req) : ∃ t, Host.Outcome.next ((s.twinBeat r).raise (takeRes r) F.XPT_TAKE_RES_OVERRUN) = (.next t : Out) ∧
    t.flag (takeRes r) F.XPT_TAKE_RES_OVERRUN = true ∧ s.regsSame (· = takeRes r) t ∧ s.changesOnly [.regs, .fired, .locks] t :=
  ⟨_, rfl, State.flag_raiseW_bit _ rfl 30, State.regsSame_raiseW (P := (· = takeRes r)) (t := s.twinBeat r) (fun _ _ => rfl) rfl rfl _,
    State.changesOnly_raise _ _ (s.changesOnly_twinBeat r) (by decide) (by decide)⟩

theorem State.flag_eq_bitOf (s : State) (k : RegKey) (i : Nat) : s.flag k ⟨i, 1⟩ = bitOf (s.rd k) i := by
  rw [State.flag_eq_testBit, bitOf, BitVec.testBit_toNat]

/-- Settles O9, a lemma per command for what its granted access receives, and one for the reception. -/
theorem commitsAreReceivedOnePerRequester : Obligations.CommitsAreReceivedOnePerRequester := by
  unfold Obligations.CommitsAreReceivedOnePerRequester
  have hb {s : State} {r : Req} {v : Bool} (h : s.flag (takeRes r) F.XPT_TAKE_RES_BUSY = v) : (s.twinBeat r).flag (takeRes r) F.XPT_TAKE_RES_BUSY = v := h
  have hnext {s : State} {c : Commit} {o : Out} (ho : o = .next ((s.twinBeat c.req).received c)) : ∃ t, o = .next t ∧ s.Receipt c t :=
    ⟨_, ho, s.receipt_received c⟩
  refine ⟨fun r d timed tb seq s hg h => ?_, fun r n timed tb seq s hg h => ?_, fun r seq c op s hg h hc => ?_, fun r seq c s hg h hc => ?_⟩
  · obtain ⟨t, ht, hr⟩ := hnext ((execTake_granted hg d timed tb seq).trans (congrArg _ (State.receive_of_free (hb h) _ _ _ _ _)))
    refine ⟨t, ht, ?_, hr.busy, hr.regs, hr.parts⟩
    rw [hr.commits, s.flag_eq_bitOf]
    rfl
  · obtain ⟨t, ht, hr⟩ := hnext ((execSalvoCommit_granted hg n timed tb seq).trans (congrArg _ (State.receive_of_free (hb h) _ _ _ _ _)))
    exact ⟨t, ht, hr.commits, hr.busy, hr.regs, hr.parts⟩
  · have ho : exec c s = .next ((s.twinBeat r).receive r op false 0 seq.toNat 2) := by
      obtain ⟨d, rfl, rfl⟩ | ⟨n, rfl, rfl⟩ := hc
      · exact execTakeCancel_granted hg d seq
      · exact execSalvoCancel_granted hg n seq
    obtain ⟨t, ht, hr⟩ := hnext (ho.trans (congrArg _ (State.receive_of_free (hb h) _ _ _ _ _)))
    exact ⟨t, ht, hr.commits, hr.busy, hr.regs, hr.parts⟩
  · have ho : exec c s = .next ((s.twinBeat r).raise (takeRes r) F.XPT_TAKE_RES_OVERRUN) := by
      obtain ⟨d, timed, tb, rfl⟩ | ⟨n, timed, tb, rfl⟩ | ⟨d, rfl⟩ | ⟨n, rfl⟩ := hc
      · exact (execTake_granted hg d timed tb seq).trans (congrArg _ (State.receive_of_busy (hb h) _ _ _ _ _))
      · exact (execSalvoCommit_granted hg n timed tb seq).trans (congrArg _ (State.receive_of_busy (hb h) _ _ _ _ _))
      · exact (execTakeCancel_granted hg d seq).trans (congrArg _ (State.receive_of_busy (hb h) _ _ _ _ _))
      · exact (execSalvoCancel_granted hg n seq).trans (congrArg _ (State.receive_of_busy (hb h) _ _ _ _ _))
    rw [ho]
    exact s.overrun_clause r

/-! ## Salvos (R85, R106, R107) -/

section
variable {s : State} {r : Req} {free : Bool} {addr n : Nat} {f : Nat → State → State}

/-- The owner of the selected salvo, or of a salvo without one where that is enough, is a requester that may edit it. -/
def State.edits (s : State) (r : Req) (free : Bool) : Prop :=
  s.fld (salvoStat (s.selected r)) F.XPT_SALVO_STAT_OWNER = r.num ∨ free = true ∧ s.fld (salvoStat (s.selected r)) F.XPT_SALVO_STAT_OWNER = 0

theorem State.salvoEdit_of_free (h : s.edits r free) (hb : s.salvoBusy (s.selected r) = false) : s.salvoEdit r free addr f = f (s.selected r) s :=
  (if_pos h).trans (if_neg (by simp [hb]))

theorem State.salvoEdit_of_busy (h : s.edits r free) (hb : s.salvoBusy (s.selected r) = true) :
    s.salvoEdit r free addr f = s.raise (salvoStat (s.selected r)) F.XPT_SALVO_STAT_BUSY_WR :=
  (if_pos h).trans (if_pos hb)

theorem State.salvoEdit_of_other (h : ¬ s.edits r free) :
    s.salvoEdit r free addr f = (s.raise (salvoStat (s.selected r)) F.XPT_SALVO_STAT_DENIED).denied r false addr := if_neg h

/-! ### What an edit does -/

@[simp] theorem State.rd_salvos (s : State) (m : SMap (List (Nat × Nat))) (k : RegKey) : ({ s with salvos := m } : State).rd k = s.rd k := rfl

theorem State.changesOnly_salvos (s : State) (m : SMap (List (Nat × Nat))) : s.changesOnly [.salvos] { s with salvos := m } := by
  intro p hp
  cases p <;> first
    | rfl
    | exact ⟨rfl, rfl⟩
    | exact ⟨rfl, rfl, rfl⟩
    | exact absurd (by decide) hp

/-- The salvo `n` is replaced by `es` from `s` to `t`, and only its XPT_SALVO_STAT with it. -/
structure State.EditsSalvo (s : State) (n : Nat) (es : List (Nat × Nat)) (t : State) : Prop where
  entries : t.salvos.at n = es
  others : ∀ m, m ≠ n → t.salvos.at m = s.salvos.at m
  regs : s.regsSame (· = salvoStat n) t
  parts : s.changesOnly [.regs, .salvos, .locks] t

/-- The entries are replaced, before XPT_SALVO_STAT reports it. -/
theorem State.editsSalvo_set (s : State) (r : Req) (n : Nat) (es : List (Nat × Nat)) :
    s.EditsSalvo n es { s.twinBeat r with salvos := (s.twinBeat r).salvos.set n es } where
  entries := by simp
  others m hm := by simp [hm]
  regs _ _ := rfl
  parts := State.changesOnly_trans (s.changesOnly_twinBeat r) (State.changesOnly_mono (State.changesOnly_salvos _ _) (by decide))

theorem State.EditsSalvo.setF {t : State} {es : List (Nat × Nat)} (h : s.EditsSalvo n es t) (g : Fld) (v : Nat) :
    s.EditsSalvo n es (t.setF (salvoStat n) g v) where
  entries := by rw [State.setF_salvos, h.entries]
  others m hm := by rw [State.setF_salvos, h.others m hm]
  regs := State.regsSame_setF (P := (· = salvoStat n)) h.regs rfl g v
  parts := State.changesOnly_setF _ _ _ h.parts (by decide)

theorem State.editsSalvo_salvoEmpty (s : State) (r : Req) (n owner : Nat) : s.EditsSalvo n [] ((s.twinBeat r).salvoEmpty n owner) :=
  (((s.editsSalvo_set r n []).setF _ _).setF _ _).setF _ _

theorem State.fld_salvoEmpty (s : State) (n owner : Nat) : (s.salvoEmpty n owner).fld (salvoStat n) F.XPT_SALVO_STAT_OWNER = owner % 2 ^ 4 ∧
    (s.salvoEmpty n owner).fld (salvoStat n) F.XPT_SALVO_STAT_COUNT = 0 ∧ (s.salvoEmpty n owner).fld (salvoStat n) F.XPT_SALVO_STAT_STATE = 0 := by
  unfold State.salvoEmpty
  refine ⟨?_, ?_, State.fld_setF_self _ _ _ _ (by decide)⟩
  · rw [State.fld_setF_of_apart _ _ _ (by decide), State.fld_setF_self _ _ _ _ (by decide)]
  · rw [State.fld_setF_of_apart _ _ _ (by decide), State.fld_setF_of_apart _ _ _ (by decide), State.fld_setF_self _ _ _ _ (by decide)]
    rfl

/-- An entry is appended to the salvo. -/
def State.salvoAppended (s : State) (n dest src : Nat) : State :=
  { s with salvos := s.salvos.set n (s.salvos.at n ++ [(dest, src)]) }.setF (salvoStat n) F.XPT_SALVO_STAT_COUNT ((s.salvos.at n).length + 1)

theorem State.writeSalvoEntry_of_room (h : s.edits r false) (hb : s.salvoBusy (s.selected r) = false) (hl : (s.salvos.at (s.selected r)).length < 1024)
    (dest src : Nat) : s.writeSalvoEntry r dest src = s.salvoAppended (s.selected r) dest src := by
  rw [State.writeSalvoEntry, State.salvoEdit_of_free h hb, if_neg (by omega), State.salvoAppended]
  simp only [SMap.at_set, if_pos, List.length_append, List.length_singleton]

theorem State.writeSalvoEntry_of_full (h : s.edits r false) (hb : s.salvoBusy (s.selected r) = false) (hl : 1024 ≤ (s.salvos.at (s.selected r)).length)
    (dest src : Nat) : s.writeSalvoEntry r dest src = s.raise (salvoStat (s.selected r)) F.XPT_SALVO_STAT_FULL_ERR := by
  rw [State.writeSalvoEntry, State.salvoEdit_of_free h hb, if_pos hl]

end

/-! ### The edit that a command stands for, when its access is granted -/

section
variable {s : State} {r : Req}

theorem execSalvoClear_granted (h : s.granted r .twin) :
    exec (.salvoClear r) s = .next ((s.twinBeat r).salvoEdit r true (R0 .XPT_SALVO_CTL).addr fun n s => s.salvoEmpty n r.num) :=
  congrArg Host.Outcome.next (State.access_of_granted h rfl _ _ _)

theorem execSalvoRelease_granted (h : s.granted r .twin) :
    exec (.salvoRelease r) s = .next ((s.twinBeat r).salvoEdit r false (R0 .XPT_SALVO_CTL).addr fun n s => s.salvoEmpty n 0) :=
  congrArg Host.Outcome.next (State.access_of_granted h rfl _ _ _)

theorem execSalvoAppend_granted (h : s.granted r .twin) (dest src : Fin 2048) :
    exec (.salvoAppend r dest src) s = .next ((s.twinBeat r).writeSalvoEntry r dest src) :=
  congrArg Host.Outcome.next (State.access_of_granted h rfl _ _ _)

/-- A sticky bit of a salvo is set, and nothing else changes. -/
theorem State.salvoBit_clause (s : State) (r : Req) (n i : Nat) (hi : i < 32 := by decide) :
    ((s.twinBeat r).raise (salvoStat n) ⟨i, 1⟩).flag (salvoStat n) ⟨i, 1⟩ = true ∧ s.regsSame (· = salvoStat n) ((s.twinBeat r).raise (salvoStat n) ⟨i, 1⟩) ∧
      s.changesOnly [.regs, .fired, .locks] ((s.twinBeat r).raise (salvoStat n) ⟨i, 1⟩) :=
  ⟨State.flag_raiseW_bit _ rfl i hi, State.regsSame_raiseW (P := (· = salvoStat n)) (t := s.twinBeat r) (fun _ _ => rfl) rfl rfl _,
    State.changesOnly_raise _ _ (s.changesOnly_twinBeat r) (by decide) (by decide)⟩

/-- An edit of a busy salvo by its owner sets BUSY_WR of the salvo, and no salvo changes. -/
theorem salvoEdit_busy_clause {c : Instr} {free : Bool} {a : Nat} {f : Nat → State → State}
    (hx : exec c s = .next ((s.twinBeat r).salvoEdit r free a f)) (ho : s.fld (salvoStat (s.selected r)) F.XPT_SALVO_STAT_OWNER = r.num)
    (hb : s.salvoBusy (s.selected r) = true) : ∃ t, exec c s = .next t ∧ t.flag (salvoStat (s.selected r)) F.XPT_SALVO_STAT_BUSY_WR = true ∧
      s.regsSame (· = salvoStat (s.selected r)) t ∧ s.changesOnly [.regs, .fired, .locks] t :=
  ⟨_, hx.trans (congrArg _ (State.salvoEdit_of_busy (s := s.twinBeat r) (.inl ho) hb)), s.salvoBit_clause r (s.selected r) 20⟩

/-- The denial of an access to a salvo: its sticky bits stand, STR_ERR.DENIED is set, and only STR_ERR and STR_ERR_ADDR of the requester change. -/
theorem State.denied_clause {u : State} {n : Nat} (a : Nat) (hf : u.flag (salvoStat n) F.XPT_SALVO_STAT_DENIED = true)
    (hr : s.regsSame (· = salvoStat n) u) (hc : s.changesOnly [.regs, .fired, .locks] u) :
    (u.denied r false a).flag (salvoStat n) F.XPT_SALVO_STAT_DENIED = true ∧ (u.denied r false a).flag (RB .STR_ERR r 0) F.STR_ERR_DENIED = true ∧
      s.regsSame (fun k => k = salvoStat n ∨ k = RB .STR_ERR r 0 ∨ k = RB .STR_ERR_ADDR r 0) (u.denied r false a) ∧
      s.changesOnly [.regs, .fired, .locks] (u.denied r false a) := by
  have hd (k : RegKey) (hk : k ≠ RB .STR_ERR r 0) (ha : k ≠ RB .STR_ERR_ADDR r 0) : (u.denied r false a).rd k = u.rd k := by
    unfold State.denied
    rw [State.rd_raiseW_of_no_event _ rfl, if_neg hk]
    split
    · rfl
    · exact u.rd_wr_ne ha _
  refine ⟨?_, State.flag_raiseW_bit _ rfl 0, fun k hk => ?_, State.changesOnly_denied _ _ _ hc (by decide) (by decide)⟩
  · rw [State.flag, State.fld, hd _ (by simp) (by simp)]
    exact hf
  · simp only [not_or] at hk
    exact (hd k hk.2.1 hk.2.2).trans (hr k hk.1)

/-- The edit of a salvo of another's is denied: DENIED of the salvo and STR_ERR.DENIED of the requester are set, and no salvo changes. -/
theorem salvoEdit_denied_clause {c : Instr} {free : Bool} {a : Nat} {f : Nat → State → State}
    (hx : exec c s = .next ((s.twinBeat r).salvoEdit r free a f)) (he : ¬ (s.twinBeat r).edits r free) : ∃ t, exec c s = .next t ∧
      t.flag (salvoStat (s.selected r)) F.XPT_SALVO_STAT_DENIED = true ∧ t.flag (RB .STR_ERR r 0) F.STR_ERR_DENIED = true ∧
      s.regsSame (fun k => k = salvoStat (s.selected r) ∨ k = RB .STR_ERR r 0 ∨ k = RB .STR_ERR_ADDR r 0) t ∧
      s.changesOnly [.regs, .fired, .locks] t := by
  obtain ⟨hf, hr, hc⟩ := s.salvoBit_clause r (s.selected r) 19
  exact ⟨_, hx.trans (congrArg _ (State.salvoEdit_of_other he)), State.denied_clause a hf hr hc⟩

end

/-- Settles O13: the edit of a command acts for the owner of a salvo that is not busy; else the salvo's BUSY_WR or DENIED is set. -/
theorem salvosAreEditedByTheirOwner : Obligations.SalvosAreEditedByTheirOwner := by
  unfold Obligations.SalvosAreEditedByTheirOwner
  have hmod (r : Req) : r.num % 2 ^ 4 = r.num := by cases r <;> rfl
  refine ⟨fun r s hg hb => ⟨fun ho => ?_, fun ho => ⟨?_, fun dest src hl => ?_, fun dest src hl => ?_⟩⟩, fun r c s hg hc => ⟨fun ho => ?_, fun ho hb => ?_⟩⟩
  · have he : (s.twinBeat r).edits r true := ho.imp id fun h => ⟨rfl, h⟩
    obtain ⟨howner, hcount, hstate⟩ := (s.twinBeat r).fld_salvoEmpty (s.selected r) r.num
    have hs := s.editsSalvo_salvoEmpty r (s.selected r) r.num
    exact ⟨_, (execSalvoClear_granted hg).trans (congrArg _ (State.salvoEdit_of_free he hb)), hs.entries, howner.trans (hmod r), hcount, hstate, hs.others,
      hs.regs, hs.parts⟩
  · have he : (s.twinBeat r).edits r false := .inl ho
    obtain ⟨howner, hcount, -⟩ := (s.twinBeat r).fld_salvoEmpty (s.selected r) 0
    have hs := s.editsSalvo_salvoEmpty r (s.selected r) 0
    exact ⟨_, (execSalvoRelease_granted hg).trans (congrArg _ (State.salvoEdit_of_free he hb)), hs.entries, howner, hcount, hs.others, hs.regs, hs.parts⟩
  · have he : (s.twinBeat r).edits r false := .inl ho
    have hs := (s.editsSalvo_set r (s.selected r) ((s.twinBeat r).salvos.at (s.selected r) ++ [(dest.val, src.val)])).setF F.XPT_SALVO_STAT_COUNT
      (((s.twinBeat r).salvos.at (s.selected r)).length + 1)
    refine ⟨_, (execSalvoAppend_granted hg dest src).trans (congrArg _ (State.writeSalvoEntry_of_room he hb hl dest src)), hs.entries, ?_, hs.others,
      hs.regs, hs.parts⟩
    exact (State.fld_setF_self _ _ _ _ (by decide)).trans (Nat.mod_eq_of_lt (show (s.salvos.at (s.selected r)).length + 1 < 2048 by omega))
  · have he : (s.twinBeat r).edits r false := .inl ho
    exact ⟨_, (execSalvoAppend_granted hg dest src).trans (congrArg _ (State.writeSalvoEntry_of_full he hb hl dest src)), s.salvoBit_clause r _ 18⟩
  · have hne : ¬ (s.twinBeat r).edits r false := fun h => h.elim ho fun h => absurd h.1 (by decide)
    obtain (rfl | ⟨dest, src, rfl⟩) | ⟨rfl, h0⟩ := hc
    · exact salvoEdit_denied_clause (execSalvoRelease_granted hg) hne
    · exact salvoEdit_denied_clause (execSalvoAppend_granted hg dest src) hne
    · exact salvoEdit_denied_clause (execSalvoClear_granted hg) fun h => h.elim ho fun h => h0 h.2
  · obtain (rfl | ⟨dest, src, rfl⟩) | ⟨rfl, -⟩ := hc
    · exact salvoEdit_busy_clause (execSalvoRelease_granted hg) ho hb
    · exact salvoEdit_busy_clause (execSalvoAppend_granted hg dest src) ho hb
    · exact salvoEdit_busy_clause (execSalvoClear_granted hg) ho hb

end Sys2Proof.Machine
end


section
/-! # The timing of outputs and the Seam's write port (O15) -/
namespace Sys2Proof.Machine
set_option Elab.async false

/-! ## What the timing of outputs rests on -/

/-- The counters, their descriptions and the outputs' plans are the same in both states. -/
structure State.SameTiming (s t : State) : Prop where
  cads : t.cads = s.cads
  desc : ∀ c, t.rd (R1 .REF_CAD_DESC c) = s.rd (R1 .REF_CAD_DESC c)
  outPlan : t.outPlan = s.outPlan

theorem State.Shifts.sameTiming {ns : List RegName} {ps : List Part} {fs : List Fld} {s t : State} (h : s.Shifts [] ns ps fs t)
    (hn : ns.contains .REF_CAD_DESC = false := by rfl) (hc : .cads ∉ ps := by decide) (ho : .outPlan ∉ ps := by decide) : s.SameTiming t :=
  ⟨h.parts .cads hc, fun _ => h.rd_eq hn, h.parts .outPlan ho⟩

section
variable {s t : State} (h : s.SameTiming t)
include h

theorem State.SameTiming.cadFmt (c : Nat) : t.cadFmt c = s.cadFmt c := by rw [State.cadFmt, h.desc, State.cadFmt]

theorem State.SameTiming.cadValid (c : Nat) : t.cadValid c = s.cadValid c := by rw [State.cadValid, State.flag, State.fld, h.desc]; rfl

theorem State.SameTiming.outCad (d : Nat) : t.outCad d = s.outCad d := by
  simp only [State.outCad, State.cadOfFmt, State.cadFor, h.cadFmt, h.cadValid, h.outPlan]

theorem State.SameTiming.cadStart (c : Nat) (k : Int) : t.cadStart c k = s.cadStart c k := by
  simp only [State.cadStart, State.startOf, h.cads, h.cadFmt]

theorem State.SameTiming.cadFrameAt (c : Nat) (x : Int) : t.cadFrameAt c x = s.cadFrameAt c x := by
  simp only [State.cadFrameAt, h.cads, h.cadFmt]

theorem State.SameTiming.cadFrameFrom (c : Nat) (x : Int) : t.cadFrameFrom c x = s.cadFrameFrom c x := by
  simp only [State.cadFrameFrom, h.cadFrameAt, h.cadStart]

theorem State.SameTiming.outStart (d : Nat) (o : OutTiming) (f : Int) : t.outStart d o f = s.outStart d o f := by
  rw [State.outStart, h.cadStart, h.outCad, State.outStart]

theorem State.SameTiming.outFrameAt (d : Nat) (o : OutTiming) (x : Int) : t.outFrameAt d o x = s.outFrameAt d o x := by
  rw [State.outFrameAt, h.cadFrameAt, h.outCad, State.outFrameAt]

theorem State.SameTiming.leadOf (d : Nat) (o : OutTiming) (x : Int) : t.leadOf d o x = s.leadOf d o x := by
  simp only [State.leadOf, h.outFrameAt, h.outStart, h.outPlan]

theorem State.SameTiming.ownerAt (hr : t.routes = s.routes) (ht : t.takes = s.takes) (d : Nat) (f : Int) (l : Nat) : t.ownerAt d f l = s.ownerAt d f l := by
  simp only [State.ownerAt, h.outPlan, hr, ht]

end

/-! ## A block at the write port -/

/-- What becomes of a block at the Seam's write port (R125, R129). -/
inductive SeamVerdict where
  | foreign | late | early
  | fits (p : Placed)

/-- The verdict on a block that reached output slot `d`. -/
def State.seamVerdict (s : State) (d : Nat) (x : Fed) : SeamVerdict :=
  let f := (s.leadOf d (s.outs.at d) x.blk.sofAt).2
  let due := s.outStart d (s.outs.at d) f + rasterTime (s.outPlan.at d).fmt x.blk.line x.blk.idx x.blk.video
  let ts := wpSixteenths (storeTime (rateClass (s.outPlan.at d).fmt (s.outPlan.at d).slots) (s.outPlan.at d).slots) * sixteenth
  if !sameSource (s.ownerAt d f x.blk.line) (x.src, x.bench) then .foreign
  else if due - 1000 * nsU < (x.blk.stamp * tickU : Nat) then .late
  else if (x.blk.stamp * tickU : Nat) < due - (ts - 1000 * nsU) then .early
  else .fits { frame := f.toNat, line := x.blk.line, mark := x.blk.mark, idx := x.blk.idx, words := x.blk.words.filter fun w => !isMark w || isType 4 w,
               time := (x.blk.stamp * tickU : Nat), bench := x.bench }

theorem State.seamVerdict_of {s : State} {d : Nat} {x : Fed} {f due ts : Int} (hf : f = (s.leadOf d (s.outs.at d) x.blk.sofAt).2)
    (hdue : due = s.outStart d (s.outs.at d) f + rasterTime (s.outPlan.at d).fmt x.blk.line x.blk.idx x.blk.video)
    (hts : ts = wpSixteenths (storeTime (rateClass (s.outPlan.at d).fmt (s.outPlan.at d).slots) (s.outPlan.at d).slots) * sixteenth) :
    s.seamVerdict d x =
      if !sameSource (s.ownerAt d f x.blk.line) (x.src, x.bench) then .foreign
      else if due - 1000 * nsU < (x.blk.stamp * tickU : Nat) then .late
      else if (x.blk.stamp * tickU : Nat) < due - (ts - 1000 * nsU) then .early
      else .fits { frame := f.toNat, line := x.blk.line, mark := x.blk.mark, idx := x.blk.idx, words := x.blk.words.filter fun w => !isMark w || isType 4 w,
                   time := (x.blk.stamp * tickU : Nat), bench := x.bench } := by
  subst hf hdue hts
  rfl

/-- The state after the verdict. -/
def State.seamApply (s : State) (sd : Side) (d : Nat) : SeamVerdict → State
  | .foreign => s
  | .late => (s.addWrap (RS .SEAM_LATE sd d) 1).raise (RS .SEAM_EVT sd d) F.SEAM_EVT_LATE
  | .early => (s.addWrap (RS .SEAM_EARLY sd d) 1).raise (RS .SEAM_EVT sd d) F.SEAM_EVT_EARLY
  | .fits p => { s with stores := s.stores.upd (2 * d + sd.idx) fun l => placeAt l p }

theorem State.placeBlock_eq (s : State) (sd : Side) (d : Nat) (x : Fed) : s.placeBlock sd d x = s.seamApply sd d (s.seamVerdict d x) := by
  unfold State.placeBlock State.seamVerdict
  dsimp only
  split
  · rfl
  · split
    · rfl
    · split <;> rfl

/-- The Side's part of SEAM_BLOCK_PLACE. -/
def State.seamStep (s : State) (d : Nat) (sd : Side) : State :=
  match s.feeds.at (2 * d + sd.idx) with
  | [] => s
  | x :: rest => { s with feeds := s.feeds.set (2 * d + sd.idx) rest }.placeBlock sd d x

theorem execSeamBlockPlace_eq (d : Fin 1024) (s : State) : exec (.seamBlockPlace d) s = .next (s.eachRouting fun sd s => s.seamStep d sd) := rfl

/-- From `s₀` to `s` only what the Seam's write ports can change has changed. -/
abbrev State.Seams (s₀ s : State) : Prop := s₀.Shifts [] [.SEAM_LATE, .SEAM_EARLY, .SEAM_EVT, .EVT_STATUS] [.regs, .fired, .feeds, .stores] [] s

section
variable {s₀ s t : State} {d : Nat} {sd : Side}

theorem State.Shifts.seamApply {v : SeamVerdict} (h : s₀.Seams s) : s₀.Seams (s.seamApply sd d v) := by
  cases v with
  | foreign => exact h
  | late => exact h.addWrap.raise
  | early => exact h.addWrap.raise
  | fits p => exact h.alter

theorem State.Shifts.seamStep (h : s₀.Seams s) : s₀.Seams (s.seamStep d sd) := by
  unfold State.seamStep
  split
  · exact h
  · next x rest _ =>
    have hf : s₀.Seams { s with feeds := s.feeds.set (2 * d + sd.idx) rest } := h.alter
    exact State.placeBlock_eq _ _ _ _ ▸ hf.seamApply

theorem State.Shifts.seamVerdict_eq (h : s.Seams t) (x : Fed) : t.seamVerdict d x = s.seamVerdict d x := by
  have hs : s.SameTiming t := h.sameTiming
  have ho : t.outs = s.outs := h.parts .outs (by decide)
  simp only [State.seamVerdict, ho, hs.leadOf, hs.outStart, hs.outPlan, hs.ownerAt (h.parts .routes (by decide)) (h.parts .takes (by decide))]

/-! ## The two Sides -/

theorem Side.idx_other_ne (sd : Side) : sd.idx ≠ sd.other.idx := by cases sd <;> decide

theorem Side.idx_lt (sd : Side) : sd.idx < 2 := by cases sd <;> decide

/-- Nothing of Side `sd`, nor of another output, has changed from `s` to `t`. -/
structure State.SeamSpares (d : Nat) (sd : Side) (s t : State) : Prop where
  frame : s.Seams t
  feed : t.feeds.at (2 * d + sd.idx) = s.feeds.at (2 * d + sd.idx)
  store : t.stores.at (2 * d + sd.idx) = s.stores.at (2 * d + sd.idx)
  regs : ∀ k, k.bank = sd.idx → k.name ≠ .EVT_STATUS → t.rd k = s.rd k
  others : ∀ e, e / 2 ≠ d → t.stores.at e = s.stores.at e ∧ t.feeds.at e = s.feeds.at e

theorem State.SeamSpares.trans (h : s₀.SeamSpares d sd s) (h' : s.SeamSpares d sd t) : s₀.SeamSpares d sd t :=
  ⟨h.frame.then h'.frame, h'.feed.trans h.feed, h'.store.trans h.store, fun k hk he => (h'.regs k hk he).trans (h.regs k hk he),
    fun e he => ⟨(h'.others e he).1.trans (h.others e he).1, (h'.others e he).2.trans (h.others e he).2⟩⟩

theorem State.seamSpares_refl (s : State) : s.SeamSpares d sd s := ⟨s.shifts_refl, rfl, rfl, fun _ _ _ => rfl, fun _ _ => ⟨rfl, rfl⟩⟩

theorem RegKey.ne_of_bank {k x : RegKey} (h : k.bank ≠ x.bank) : k ≠ x := fun e => h (congrArg RegKey.bank e)

/-- A count and a status bit of the other Side's write port leave this Side alone. -/
theorem State.seamSpares_count (s : State) (n : RegName) (d : Nat) (sd : Side) (f : Fld) (hn : free [.SEAM_LATE, .SEAM_EARLY] (RS n sd.other d) = true) :
    s.SeamSpares d sd ((s.addWrap (RS n sd.other d) 1).raise (RS .SEAM_EVT sd.other d) f) where
  frame := by
    have hs : free [.SEAM_LATE, .SEAM_EARLY, .SEAM_EVT, .EVT_STATUS] (RS n sd.other d) = true := by
      simp only [free, Bool.and_eq_true, List.contains_iff_mem, List.mem_cons, List.not_mem_nil, or_false] at hn ⊢
      exact ⟨⟨hn.1.1.elim .inl fun h => .inr (.inl h), hn.1.2⟩, hn.2⟩
    exact (s.shifts_refl.addWrap hs).raise
  feed := by simp
  store := by simp
  regs k hk he := by
    have hb (m : RegName) : k ≠ RS m sd.other d := RegKey.ne_of_bank (hk ▸ Side.idx_other_ne sd)
    rw [State.rd_raise _ _ _ _ he, if_neg (hb _), State.rd_addWrap, if_neg (hb _)]
  others _ _ := by simp

theorem State.seamSpares_seamApply (s : State) (d : Nat) (sd : Side) (v : SeamVerdict) : s.SeamSpares d sd (s.seamApply sd.other d v) := by
  cases v with
  | foreign => exact s.seamSpares_refl
  | late => exact s.seamSpares_count .SEAM_LATE d sd _ rfl
  | early => exact s.seamSpares_count .SEAM_EARLY d sd _ rfl
  | fits p =>
    have hlt := Side.idx_lt sd.other
    refine ⟨s.shifts_refl.alter, rfl, ?_, fun _ _ _ => rfl, fun e he => ⟨?_, rfl⟩⟩
    · simp [State.seamApply, SMap.at_upd, Side.idx_other_ne sd]
    · have : e ≠ 2 * d + sd.other.idx := by omega
      simp [State.seamApply, SMap.at_upd, this]

theorem State.seamSpares_feeds (s : State) (d : Nat) (sd : Side) (l : List Fed) :
    s.SeamSpares d sd { s with feeds := s.feeds.set (2 * d + sd.other.idx) l } := by
  have hne := Side.idx_other_ne sd
  have hlt := Side.idx_lt sd.other
  refine ⟨s.shifts_refl.alter, ?_, rfl, fun _ _ _ => rfl, fun e he => ⟨rfl, ?_⟩⟩
  · exact (SMap.at_set _ _ _ _).trans (if_neg (by omega))
  · exact (SMap.at_set _ _ _ _).trans (if_neg (by omega))

theorem State.seamSpares_seamStep (s : State) (d : Nat) (sd : Side) : s.SeamSpares d sd (s.seamStep d sd.other) := by
  unfold State.seamStep
  split
  · exact s.seamSpares_refl
  · rw [State.placeBlock_eq]
    exact (s.seamSpares_feeds d sd _).trans (State.seamSpares_seamApply _ d sd _)

/-- What a verdict adds to SEAM_LATE and to SEAM_EARLY, and what becomes of the store. -/
def SeamVerdict.lates : SeamVerdict → W32
  | .late => 1
  | _ => 0

def SeamVerdict.earlies : SeamVerdict → W32
  | .early => 1
  | _ => 0

def SeamVerdict.store (l : List Placed) : SeamVerdict → List Placed
  | .fits p => placeAt l p
  | _ => l

/-- From `s` to `t` the first block has left the feed of output `d` in Side `sd`, and its verdict has been carried out. -/
structure State.SeamTakes (d : Nat) (sd : Side) (rest : List Fed) (v : SeamVerdict) (s t : State) : Prop where
  frame : s.Seams t
  feed : t.feeds.at (2 * d + sd.idx) = rest
  store : t.stores.at (2 * d + sd.idx) = v.store (s.stores.at (2 * d + sd.idx))
  late : t.rd (RS .SEAM_LATE sd d) = s.rd (RS .SEAM_LATE sd d) + v.lates
  early : t.rd (RS .SEAM_EARLY sd d) = s.rd (RS .SEAM_EARLY sd d) + v.earlies
  evtLate : v = .late → t.flag (RS .SEAM_EVT sd d) F.SEAM_EVT_LATE = true
  evtEarly : v = .early → t.flag (RS .SEAM_EVT sd d) F.SEAM_EVT_EARLY = true
  others : ∀ e, e / 2 ≠ d → t.stores.at e = s.stores.at e ∧ t.feeds.at e = s.feeds.at e

variable {rest : List Fed} {v : SeamVerdict}

theorem State.SeamTakes.after (h : s₀.SeamTakes d sd rest v s) (h' : s.SeamSpares d sd t) : s₀.SeamTakes d sd rest v t where
  frame := h.frame.then h'.frame
  feed := h'.feed.trans h.feed
  store := h'.store.trans h.store
  late := (h'.regs _ rfl (by simp)).trans h.late
  early := (h'.regs _ rfl (by simp)).trans h.early
  evtLate hv := by
    rw [State.flag, State.fld, h'.regs _ rfl (by simp)]
    exact h.evtLate hv
  evtEarly hv := by
    rw [State.flag, State.fld, h'.regs _ rfl (by simp)]
    exact h.evtEarly hv
  others e he := ⟨(h'.others e he).1.trans (h.others e he).1, (h'.others e he).2.trans (h.others e he).2⟩

theorem State.SeamTakes.before (h : s₀.SeamSpares d sd s) (h' : s.SeamTakes d sd rest v t) : s₀.SeamTakes d sd rest v t where
  frame := h.frame.then h'.frame
  feed := h'.feed
  store := h'.store.trans (congrArg (SeamVerdict.store · v) h.store)
  late := h'.late.trans (congrArg (· + _) (h.regs _ rfl (by simp)))
  early := h'.early.trans (congrArg (· + _) (h.regs _ rfl (by simp)))
  evtLate := h'.evtLate
  evtEarly := h'.evtEarly
  others e he := ⟨(h'.others e he).1.trans (h.others e he).1, (h'.others e he).2.trans (h.others e he).2⟩

theorem State.seamTakes_seamApply (s : State) (d : Nat) (sd : Side) (v : SeamVerdict) :
    s.SeamTakes d sd (s.feeds.at (2 * d + sd.idx)) v (s.seamApply sd d v) := by
  have hframe : s.Seams (s.seamApply sd d v) := s.shifts_refl.seamApply
  cases v with
  | foreign => exact ⟨hframe, rfl, rfl, by simp [SeamVerdict.lates, State.seamApply], by simp [SeamVerdict.earlies, State.seamApply], nofun, nofun,
      fun _ _ => ⟨rfl, rfl⟩⟩
  | late =>
    refine ⟨hframe, by simp [State.seamApply], by simp [State.seamApply, SeamVerdict.store], ?_, ?_, fun _ => State.flag_raise _ _ 0 (by decide) (by simp),
      nofun, fun _ _ => by simp [State.seamApply]⟩
    · simp [State.seamApply, State.rd_raise, State.rd_addWrap, SeamVerdict.lates, w32]
    · simp [State.seamApply, State.rd_raise, State.rd_addWrap, SeamVerdict.earlies]
  | early =>
    refine ⟨hframe, by simp [State.seamApply], by simp [State.seamApply, SeamVerdict.store], ?_, ?_, nofun,
      fun _ => State.flag_raise _ _ 1 (by decide) (by simp), fun _ _ => by simp [State.seamApply]⟩
    · simp [State.seamApply, State.rd_raise, State.rd_addWrap, SeamVerdict.lates]
    · simp [State.seamApply, State.rd_raise, State.rd_addWrap, SeamVerdict.earlies, w32]
  | fits p =>
    have := Side.idx_lt sd
    refine ⟨hframe, rfl, ?_, ?_, ?_, nofun, nofun, fun e he => ⟨?_, rfl⟩⟩
    · simp [State.seamApply, SMap.at_upd, SeamVerdict.store]
    · exact (BitVec.add_zero _).symm
    · exact (BitVec.add_zero _).symm
    · have : e ≠ 2 * d + sd.idx := by omega
      simp [State.seamApply, SMap.at_upd, this]

theorem State.seamTakes_seamStep {x : Fed} (hf : s.feeds.at (2 * d + sd.idx) = x :: rest) :
    s.SeamTakes d sd rest (s.seamVerdict d x) (s.seamStep d sd) := by
  have h := State.seamTakes_seamApply { s with feeds := s.feeds.set (2 * d + sd.idx) rest } d sd (s.seamVerdict d x)
  have hlt := Side.idx_lt sd
  have he : s.seamStep d sd = { s with feeds := s.feeds.set (2 * d + sd.idx) rest }.seamApply sd d (s.seamVerdict d x) := by
    simp only [State.seamStep, hf, State.placeBlock_eq]
    rfl
  rw [he]
  refine ⟨(s.shifts_refl.alter (t := { s with feeds := s.feeds.set (2 * d + sd.idx) rest })).then h.frame, ?_, h.store, h.late, h.early, h.evtLate,
    h.evtEarly, fun e hne => ⟨(h.others e hne).1, (h.others e hne).2.trans ?_⟩⟩
  · exact h.feed.trans ((SMap.at_set _ _ _ _).trans (if_pos rfl))
  · exact (SMap.at_set _ _ _ _).trans (if_neg (by omega))

/-- In every Side whose crosspoint works the block that left the crosspoint first gets its verdict, whatever the other Side does. -/
theorem State.seamTakes_eachRouting {x : Fed} (hr : s.routing sd = true) (hf : s.feeds.at (2 * d + sd.idx) = x :: rest) :
    s.SeamTakes d sd rest (s.seamVerdict d x) (s.eachRouting fun sd s => s.seamStep d sd) := by
  refine State.eachRouting_at (P := s.SeamSpares d sd) (Q := s.SeamTakes d sd rest (s.seamVerdict d x)) hr (fun y u => ?_) s.seamSpares_refl
    (fun u h => h.trans (u.seamSpares_seamStep d sd)) (fun u h => ?_) fun u h => h.after (u.seamSpares_seamStep d sd)
  · exact State.Shifts.routing_eq (u.shifts_refl.seamStep : u.Seams (u.seamStep d y)) (by decide) (by decide) sd
  · rw [← h.frame.seamVerdict_eq]
    exact .before h (State.seamTakes_seamStep (h.feed.trans hf))

end

/-- Settles O15: the verdict on the block, carried out in each Side. -/
theorem seamBlocksAreWrittenOrCounted : Obligations.SeamBlocksAreWrittenOrCounted := by
  unfold Obligations.SeamBlocksAreWrittenOrCounted
  intro d sd x rest f due ts s hr hfeed hf hdue hts
  have h := State.seamTakes_eachRouting hr hfeed
  have hx := execSeamBlockPlace_eq d s
  have hv := State.seamVerdict_of hf hdue hts
  have ht := State.Shifts.touches h.frame
  refine ⟨fun hs => ?_, fun hs hl => ?_, fun hs hl he => ?_, fun hs hl he => ?_⟩
  · rw [hs, Bool.not_false, if_pos rfl] at hv
    rw [hv] at h
    exact ⟨_, hx, h.feed, h.store, h.late.trans (BitVec.add_zero _), h.early.trans (BitVec.add_zero _), h.others, ht⟩
  · rw [hs, Bool.not_true, if_neg Bool.false_ne_true, if_pos hl] at hv
    rw [hv] at h
    exact ⟨_, hx, h.feed, h.late, h.evtLate rfl, h.early.trans (BitVec.add_zero _), h.store, h.others, ht⟩
  · rw [hs, Bool.not_true, if_neg Bool.false_ne_true, if_neg (by omega), if_pos he] at hv
    rw [hv] at h
    exact ⟨_, hx, h.feed, h.early, h.evtEarly rfl, h.late.trans (BitVec.add_zero _), h.store, h.others, ht⟩
  · rw [hs, Bool.not_true, if_neg Bool.false_ne_true, if_neg (by omega), if_neg (by omega)] at hv
    rw [hv] at h
    exact ⟨_, hx, h.feed, h.late.trans (BitVec.add_zero _), h.early.trans (BitVec.add_zero _), h.store, h.others, ht⟩

end Sys2Proof.Machine
end


section
/-! # The commit tick (O10, O11) -/
namespace Sys2Proof.Machine
set_option Elab.async false

/-- Of the ten requesters one is a commit's. -/
theorem commit_served (c : Commit) : ([1, 2, 3, 4, 5, 6, 7, 8, 9, 10].flatMap fun n => [c].filter fun c => c.req.num = n) = [c] := by
  obtain ⟨r⟩ := c
  cases r <;> rfl

theorem execCommitTick_eq (s : State) : exec .commitTick s = execCommitTick s := rfl

/-- A single commit that is due is judged. -/
theorem execCommitTick_of_single {c : Commit} {s : State} (hc : s.commits = [c]) (hd : c.due ≤ s.tick) : exec .commitTick s = .next (s.commitOne c) := by
  have hdue : (s.commits.filter fun c => c.due ≤ s.tick) = [c] := by rw [hc, List.filter_cons_of_pos (by simpa using hd), List.filter_nil]
  rw [execCommitTick_eq, execCommitTick, hdue, commit_served, List.foldl_cons, List.foldl_nil]

/-! ## A counter whose phase has moved by more than a frame (O10) -/

/-- A take of the black generator to output 1023. -/
def leapTake : Commit := { req := .boot, op := .take 1023 1057 true, timed := false, timeBase := 0, time := 0, seq := 255, due := 7 }

/-- Counter 0 has begun its frame 1 at a phase nine frames before the one that its frame 0 had, so frame 0 starts later than frame 1; the take is
due, and its lead ends at the switch point of frame 1. The statement quantifies over such a state; a re-alignment by R422, which moves a counter by half a
period at most, does not bring it about. -/
def leapNow : State :=
  { fed.atTick 7 with
    commits := [leapTake]
    cads := [(0, { phi := -1098216472576, prev := 8902188061120, first := 1 })] }

/-- The take passes every check. -/
theorem leapTake_passes : leapNow.destAllocated 1023 = true ∧ leapNow.srcAllocated 1057 = true ∧ leapNow.mayRoute .boot 1023 = true ∧
    leapNow.destWithdrawn 1023 = false ∧ leapNow.srcWithdrawn 1057 = false ∧ leapNow.srcMatches 1057 1023 = true ∧
    (leapNow.planTake 1057 1023).1.refused = false ∧ leapNow.singles.length < 4096 := by decide +kernel

/-- It is stamped with frame 1. -/
theorem leapTake_stamp : (leapNow.commitOne leapTake).takes.map (·.stamp) = [some 1] := by decide +kernel

/-- Frame 1 is the one that the lead asks for, and the switch point of frame 0 lies behind it. -/
theorem leapNow_frames : 0 ≤ leapNow.outFrameFrom 1023 (leapNow.outs.at 1023) (leapNow.leadBound leapNow.commitLead 1023 - (leapNow.outPlan.at 1023).fmt.switchAt) ∧
    leapNow.leadBound leapNow.commitLead 1023 < leapNow.switchPoint 1023 (leapNow.outs.at 1023) 0 := by decide +kernel

/-- Refutes O10: in `leapNow` the take is stamped with frame 1, but the switch point of frame 0 does not lie before its lead's end. -/
theorem not_commitTickJudgesATake : ¬ Obligations.CommitTickJudgesATake := by
  unfold Obligations.CommitTickJudgesATake
  rintro ⟨hjudge, -⟩
  obtain ⟨hd, hx, hr, hdw, hxw, hm, hp, hroom⟩ := leapTake_passes
  obtain ⟨hfrom, hlater⟩ := leapNow_frames
  obtain ⟨t, ht, -, -, -, -, -, -, hchecks, -⟩ := hjudge leapTake 1023 1057 true leapNow rfl (by decide) rfl (by decide) rfl
  obtain ⟨-, -, hpass⟩ := hchecks hd rfl hx
  obtain ⟨-, -, haccepted⟩ := hpass hr hdw hxw
  obtain ⟨-, p, f, hmem, -, -, -, hstamp, -, hlead⟩ := haccepted (.inr hm) hp hroom
  have he : leapNow.commitOne leapTake = t := Host.Outcome.next.inj ((execCommitTick_of_single rfl (by decide)).symm.trans ht)
  have hf : some f ∈ (leapNow.commitOne leapTake).takes.map (·.stamp) := hstamp ▸ he ▸ List.mem_map_of_mem hmem
  rw [leapTake_stamp, List.mem_singleton, Option.some.injEq] at hf
  subst hf
  exact absurd (hlead (by decide) hfrom).2 (by simpa using hlater.le)

end Sys2Proof.Machine
end


section
/-! # Cancels and salvos at their commit tick (O11) -/
namespace Sys2Proof.Machine
set_option Elab.async false

/-! ## What the handling of pending takes can move -/

/-- From `s₀` to `s` only what a take that leaves can change has changed. -/
abbrev State.Frees (s₀ s : State) : Prop := s₀.Shifts [] [.XPT_SALVO_STAT, .EVT_STATUS] [.regs, .fired, .takes, .benches, .benchIn, .benchMem] [] s

/-- From `s₀` to `s` only what a take that joins can change has changed. -/
abbrev State.Joins (s₀ s : State) : Prop :=
  s₀.Shifts [] [.XPT_TAKE_RES, .XPT_OUT_STAT, .XPT_SALVO_STAT, .SEAM_EVT, .EVT_STATUS] [.regs, .fired, .takes, .benches, .benchIn, .benchMem, .headRun] [] s

theorem State.benches_benchReleaseOf (s : State) (o : Option Nat) : s.Shifts [] [] [.benches, .benchIn, .benchMem] [] (s.benchReleaseOf o) := by
  unfold State.benchReleaseOf
  split
  · exact .ite s.shifts_refl.alter s.shifts_refl
  · exact s.shifts_refl

theorem State.benches_benchFor (s : State) (n c : Nat) (ph : Int) : s.Shifts [] [] [.benches, .benchIn, .benchMem] [] (s.benchFor n c ph).2 := by
  unfold State.benchFor
  split
  · exact s.shifts_refl
  · split
    · exact s.shifts_refl
    · exact .iteSnd s.shifts_refl.alter s.shifts_refl

theorem State.benches_planTake (s : State) (x d : Nat) : s.Shifts [] [] [.benches, .benchIn, .benchMem] [] (s.planTake x d).2 := by
  have h := s.shifts_refl (xs := []) (ns := []) (ps := [.benches, .benchIn, .benchMem]) (fs := [])
  unfold State.planTake
  refine .iteSnd h (.iteSnd ?_ (.iteSnd h (.iteSnd h (.iteSnd h (.iteSnd ?_ h)))))
  all_goals
    dsimp only
    split
    · exact s.benches_benchFor _ _ _
    · exact h

theorem State.events_outEvt (s : State) (d : Nat) (f : Fld) : s.Shifts [] [.XPT_OUT_STAT, .EVT_STATUS] [.regs, .fired] [] (s.outEvt d f) :=
  .ite (s.shifts_refl.eachSide fun _ _ h => h.raise) s.shifts_refl

theorem State.events_seamEvt (s : State) (d : Nat) (f : Fld) : s.Shifts [] [.SEAM_EVT, .EVT_STATUS] [.regs, .fired] [] (s.seamEvt d f) :=
  .ite (s.shifts_refl.eachSide fun _ _ h => h.raise) s.shifts_refl

theorem State.events_salvoLeave (s : State) (n : Nat) : s.Shifts [] [.XPT_SALVO_STAT, .EVT_STATUS] [.regs, .fired] [] (s.salvoLeave n) :=
  .ite s.shifts_refl.setF.setSource s.shifts_refl

section
variable {s₀ s : State}

theorem State.Shifts.freed {p : Pending} (h : s₀.Frees s) : s₀.Frees (s.takeLeave p) := by
  have hr : s₀.Frees ({ s with takes := s.takes.erase p }.benchReleaseOf p.bench) :=
    (show s₀.Frees { s with takes := s.takes.erase p } from h.alter).then (State.benches_benchReleaseOf _ _)
  unfold State.takeLeave
  dsimp only
  split
  · exact hr.then (State.events_salvoLeave _ _)
  · exact hr

theorem State.joins_superseded (s : State) (p : Pending) : s.Joins (s.superseded p) := by
  have h : s.Joins (s.outEvt p.dest F.XPT_OUT_STAT_SUPERSEDED) := (s.events_outEvt _ _).mono
  unfold State.superseded
  dsimp only
  refine State.Shifts.then ?_ (State.shifts_refl _).freed
  split
  · exact (h.branch (·.setF) id).setSource
  · exact h.raise.setSource
  · exact h

theorem State.joins_addTake (s : State) (p : Pending) : s.Joins (s.addTake p) :=
  ((s.shifts_refl.alter (t := { s with takes := s.takes ++ [p] })).foldl fun u x h => h.then (u.joins_superseded x)).branch (·.alter) id

theorem State.joins_acceptEntries (s : State) (c : Commit) (owner : Nat → TakeBy) (es : List (Nat × Nat)) (ps : List TakePlan) :
    s.Joins (s.acceptEntries c owner es ps).2 :=
  s.shifts_refl.foldl fun u _ h => State.Shifts.then (.ite (h.then (u.events_seamEvt _ _)) h) (State.joins_addTake _ _)

theorem State.benches_planAll {es : List (Nat × Nat)} {acc ps : List TakePlan} {t : State} (h : s.planAll es acc = .ok (ps, t)) :
    s.Shifts [] [] [.benches, .benchIn, .benchMem] [] t := by
  induction es generalizing s acc with
  | nil =>
    simp only [State.planAll, Except.ok.injEq, Prod.mk.injEq] at h
    exact h.2 ▸ s.shifts_refl
  | cons e es ih =>
    rw [State.planAll] at h
    split at h
    · nomatch h
    · exact (s.benches_planTake e.2 e.1).then (ih h)

theorem State.joins_commitSalvo (s : State) (c : Commit) (n : Nat) (es : List (Nat × Nat)) : s.Joins (s.commitSalvo c n es).2 := by
  unfold State.commitSalvo
  dsimp only
  split
  · exact s.shifts_refl
  · refine .iteSnd s.shifts_refl ?_
    split
    · exact s.shifts_refl
    · split
      · exact s.shifts_refl
      · next hp =>
        have h := State.benches_planAll hp
        split
        · exact s.shifts_refl
        · refine .iteSnd s.shifts_refl (.iteSnd s.shifts_refl (.iteSnd s.shifts_refl ?_))
          exact (State.Shifts.then h.mono (State.joins_acceptEntries _ _ _ _ _)).setF

theorem State.frees_cancelTake (s : State) (r : Req) (d : Nat) : s.Frees (s.cancelTake r d).2 := by
  unfold State.cancelTake
  refine .iteSnd s.shifts_refl (.iteSnd s.shifts_refl ?_)
  split
  · exact s.shifts_refl
  · exact .iteSnd s.shifts_refl s.shifts_refl.freed

end

/-! ## The pending takes -/

@[simp] theorem State.benchReleaseOf_takes (s : State) (o : Option Nat) : (s.benchReleaseOf o).takes = s.takes :=
  (s.benches_benchReleaseOf o).parts .takes (by decide)

theorem State.takeLeave_takes (s : State) (p : Pending) : (s.takeLeave p).takes = s.takes.erase p := by
  unfold State.takeLeave
  dsimp only
  split
  · exact ((State.events_salvoLeave _ _).parts .takes (by decide)).trans (State.benchReleaseOf_takes _ _)
  · exact State.benchReleaseOf_takes _ _

theorem State.superseded_takes (s : State) (p : Pending) : (s.superseded p).takes = s.takes.erase p := by
  have h : (s.outEvt p.dest F.XPT_OUT_STAT_SUPERSEDED).takes = s.takes := (s.events_outEvt _ _).parts .takes (by decide)
  unfold State.superseded
  dsimp only
  rw [State.takeLeave_takes]
  split
  · split <;> simp [h]
  · simp [h]
  · rw [h]

theorem State.foldl_superseded_takes (l : List Pending) (s : State) : (l.foldl State.superseded s).takes = s.takes.diff l := by
  induction l generalizing s with
  | nil => rfl
  | cons p l ih => rw [List.foldl_cons, ih, State.superseded_takes, List.diff_cons]

/-- The pending takes that a stamped take replaces: those of its destination and frame (R83). -/
def Pending.displaced (p : Pending) (ts : List Pending) : List Pending :=
  match p.stamp with
  | some _ => ts.filter fun (t : Pending) => t.dest = p.dest ∧ t.stamp = p.stamp
  | none => []

theorem Pending.displaced_sublist (p : Pending) (ts : List Pending) : (p.displaced ts).Sublist ts := by
  unfold Pending.displaced
  split
  · exact List.filter_sublist
  · exact List.nil_sublist _

/-- The state in which a take has joined the pending ones and those it replaces have left. -/
def State.joined (s : State) (p : Pending) : State := (p.displaced s.takes).foldl State.superseded { s with takes := s.takes ++ [p] }

theorem State.addTake_eq (s : State) (p : Pending) : s.addTake p =
    if 1024 ≤ p.src ∧ p.src < 1056 then
      { s.joined p with headRun := (s.joined p).headRun.upd (p.src - 1024) fun h => if h.since = none then { h with since := some (s.joined p).tick } else h }
    else s.joined p := rfl

theorem State.addTake_takes (s : State) (p : Pending) : (s.addTake p).takes = (s.takes ++ [p]).diff (p.displaced s.takes) := by
  have h : (s.joined p).takes = (s.takes ++ [p]).diff (p.displaced s.takes) := State.foldl_superseded_takes _ _
  rw [State.addTake_eq]
  split <;> exact h

/-- A take that joins is pending. -/
theorem State.mem_addTake (s : State) (p : Pending) : p ∈ (s.addTake p).takes := by
  rw [State.addTake_takes, ← List.count_pos_iff, List.count_diff, List.count_append, List.count_singleton_self]
  have := (p.displaced_sublist s.takes).count_le p
  omega

/-! ## The report of a commit -/

/-- The state with a commit taken off the list of those received. -/
def State.without (s : State) (c : Commit) : State := { s with commits := s.commits.filter fun x => x ≠ c }

/-- What the judgement of a commit says, and the state it leaves. -/
def State.judged (s : State) (c : Commit) : Verdict × State :=
  match c.op with
  | .take d src v => s.commitTake c d src v
  | .salvo n es => s.commitSalvo c n es
  | .cancelTake d => s.cancelTake c.req d
  | .cancelSalvo n => s.cancelSalvo c.req n

/-- A verdict is written to the requester's XPT_TAKE_RES. -/
def State.tell (s : State) (c : Commit) (v : Verdict) : State :=
  ((((s.setF (takeRes c.req) F.XPT_TAKE_RES_SEQ c.seq).setF (takeRes c.req) F.XPT_TAKE_RES_STATUS v.status).setF (takeRes c.req) F.XPT_TAKE_RES_ENTRY v.entry).setF
    (takeRes c.req) F.XPT_TAKE_RES_BUSY 0).setSource (sharedSrc (63 + c.req.num))

theorem State.commitOne_eq (s : State) (c : Commit) :
    s.commitOne c = ((s.without c).judged c).2.tell c ((s.without c).judged c).1 := rfl

section
variable (s : State) (c : Commit) (v : Verdict)

theorem State.shifts_tell : s.Shifts [] [.XPT_TAKE_RES, .EVT_STATUS] [.regs, .fired] [] (s.tell c v) := s.shifts_refl.setF.setF.setF.setF.setSource

@[simp] theorem State.tell_takes : (s.tell c v).takes = s.takes := (s.shifts_tell c v).parts .takes (by decide)

theorem State.tell_status (hv : v.status < 32 := by decide) : (s.tell c v).fld (takeRes c.req) F.XPT_TAKE_RES_STATUS = v.status := by
  rw [State.fld, State.tell, State.rd_setSource _ _ _ (by simp), ← State.fld, State.fld_setF_of_apart _ _ _ (by decide), State.fld_setF_of_apart _ _ _ (by decide),
    State.fld_setF_self _ _ _ _ (by decide)]
  exact Nat.mod_eq_of_lt hv

theorem State.tell_entry (hv : v.entry < 1024 := by decide) : (s.tell c v).fld (takeRes c.req) F.XPT_TAKE_RES_ENTRY = v.entry := by
  rw [State.fld, State.tell, State.rd_setSource _ _ _ (by simp), ← State.fld, State.fld_setF_of_apart _ _ _ (by decide), State.fld_setF_self _ _ _ _ (by decide)]
  exact Nat.mod_eq_of_lt hv

theorem State.tell_salvo (n : Nat) (f : Fld) : (s.tell c v).fld (salvoStat n) f = s.fld (salvoStat n) f := by
  rw [State.fld, (s.shifts_tell c v).rd_eq, State.fld]

end


/-! ## The judgement of a cancel -/

/-- The take is a pending single take of requester `r` for destination `d`. -/
def Pending.singleOf (r d : Nat) (t : Pending) : Bool :=
  decide (t.dest = d) && (match t.owner with
    | .single q _ => q == r
    | _ => false)

theorem Pending.singleOf_iff {r d : Nat} {t : Pending} : t.singleOf r d = true ↔ t.dest = d ∧ ∃ q, t.owner = .single r q := by
  unfold Pending.singleOf
  cases t.owner <;> simp

/-- Among takes that are all the same the latest is that one. -/
theorem latestOf_of_same {l : List Pending} {p : Pending} (hne : l ≠ []) (h : ∀ q ∈ l, q = p) : latestOf l = some p := by
  unfold latestOf
  cases l with
  | nil => contradiction
  | cons q l =>
    obtain rfl := h q (List.mem_cons_self ..)
    rw [List.foldl_cons]
    induction l with
    | nil => rfl
    | cons r l ih =>
      obtain rfl : r = q := h r (by simp)
      rw [List.foldl_cons]
      refine Eq.trans (congrArg (List.foldl _ · l) ?_) (ih (by simp) fun x hx => h x (by simp only [List.mem_cons] at hx ⊢; tauto))
      cases hs : r.stamp <;> simp [hs]

section
variable {s : State} {r : Req} {d : Nat} (hd : s.destAllocated d = true) (hr : s.mayRoute r d = true)
include hd hr

theorem State.cancelTake_of_none (h : ∀ p ∈ s.takes, p.singleOf r.num d = false) : s.cancelTake r d = ({ status := 16 }, s) := by
  have hl : latestOf (s.takes.filter (Pending.singleOf r.num d)) = none := by
    rw [List.filter_eq_nil_iff.mpr fun p hp => by simp [h p hp]]
    rfl
  unfold State.cancelTake
  rw [if_neg (by simp [hd]), if_neg (by simp [hr])]
  split
  · rfl
  · next e => exact absurd (hl.symm.trans e) nofun

theorem State.cancelTake_of_some {p : Pending} (hp : p ∈ s.takes) (h : p.singleOf r.num d = true) (hu : ∀ q ∈ s.takes, q.singleOf r.num d = true → q = p) :
    s.cancelTake r d = if s.tooLate p then ({ status := 15 }, s) else ({ status := 4 }, s.takeLeave p) := by
  have hl : latestOf (s.takes.filter (Pending.singleOf r.num d)) = some p := by
    refine latestOf_of_same (List.ne_nil_of_mem (List.mem_filter.mpr ⟨hp, h⟩)) fun q hq => ?_
    exact hu q (List.mem_filter.mp hq).1 (List.mem_filter.mp hq).2
  unfold State.cancelTake
  rw [if_neg (by simp [hd]), if_neg (by simp [hr])]
  split
  · next e => exact absurd (hl.symm.trans e) nofun
  · next q e =>
    obtain rfl : p = q := Option.some.inj (hl.symm.trans e)
    rfl

end

/-! ## The judgement of a salvo -/

section
variable {s : State} {c : Commit} {n : Nat} {es : List (Nat × Nat)}

/-- A salvo whose entry `i` is the first that names an unallocated number. -/
theorem State.commitSalvo_of_bad {i : Nat} {e : Nat × Nat} (he : es[i]? = some e) (hb : (s.destAllocated e.1 && s.srcAllocated e.2) = false)
    (hf : ∀ j e', j < i → es[j]? = some e' → (s.destAllocated e'.1 && s.srcAllocated e'.2) = true) :
    s.commitSalvo c n es = ({ status := 5, entry := i }, s) := by
  have h : (firstBad es fun e => !s.destAllocated e.1 || !s.srcAllocated e.2) = some i := by
    obtain ⟨hi, rfl⟩ := List.getElem?_eq_some_iff.mp he
    refine List.findIdx?_eq_some_iff_getElem.mpr ⟨hi, by simpa [← Bool.not_and] using hb, fun j hj => ?_⟩
    have := hf j _ hj (List.getElem?_eq_getElem (hj.trans hi))
    simpa [← Bool.not_and] using this
  unfold State.commitSalvo
  rw [h]

theorem State.firstBad_none (h : ∀ e ∈ es, s.destAllocated e.1 = true ∧ s.srcAllocated e.2 = true) :
    (firstBad es fun e => !s.destAllocated e.1 || !s.srcAllocated e.2) = none :=
  List.findIdx?_eq_none_iff.mpr fun e he => by simp [h e he]

/-- A salvo that the requester does not own. -/
theorem State.commitSalvo_of_stranger (h : ∀ e ∈ es, s.destAllocated e.1 = true ∧ s.srcAllocated e.2 = true)
    (ho : s.fld (salvoStat n) F.XPT_SALVO_STAT_OWNER ≠ c.req.num) : s.commitSalvo c n es = ({ status := 7 }, s) := by
  unfold State.commitSalvo
  rw [State.firstBad_none h]
  exact if_pos (by simpa using ho)

end

/-- An entry accepted alone is pending with the smallest frame that meets its lead. -/
theorem State.acceptEntries_one (s : State) {c : Commit} (hc : c.timed = false) (owner : Nat → TakeBy) (d x : Nat) (pl : TakePlan) :
    (s.acceptEntries c owner [(d, x)] [pl]).1 = { status := 1 } ∧
      ∃ p ∈ (s.acceptEntries c owner [(d, x)] [pl]).2.takes,
        p.owner = owner 0 ∧ p.dest = d ∧ p.src = x ∧ p.stamp = some (s.destFrameFrom d (s.leadBound s.commitLead d)) := by
  have hg : s.groupFrame [d] (s.leadBound s.commitLead) d = s.destFrameFrom d (s.leadBound s.commitLead d) := by
    unfold State.groupFrame
    split
    · next h => simp [h]
    · rfl
  unfold State.acceptEntries
  simp only [hc, Bool.not_false, if_true, List.map_cons, List.map_nil, List.any_cons, List.any_nil, Bool.or_false, Bool.false_eq_true, if_false,
    List.length_singleton, List.range_one, List.foldl_cons, List.foldl_nil, List.getD_cons_zero, hg, true_and]
  exact ⟨_, State.mem_addTake _ _, rfl, rfl, rfl, rfl⟩

section
variable {s : State} {c : Commit} {n d x : Nat} (hd : s.destAllocated d = true) (hx : s.srcAllocated x = true) (hr : s.mayRoute c.req d = true)
  (hdw : s.destWithdrawn d = false) (hxw : s.srcWithdrawn x = false) (hm : 1024 ≤ d ∨ s.srcMatches x d = true)
include hd hx hr hdw hxw hm

/-- An entry that passes every check on its numbers. -/
theorem State.checkNumbers_one : s.checkNumbers c.req [(d, x)] = none := by
  have hf : (decide (d < 1024) && !s.srcMatches x d) = false := by
    obtain h | h := hm
    · simp [Nat.not_lt.mpr h]
    · simp [h]
  simp [State.checkNumbers, firstBad, List.findIdx?_cons, hd, hx, hr, hdw, hxw, hf]

/-- An owned salvo in EDIT, of one entry that passes every check, with room. -/
theorem State.commitSalvo_one (ho : s.fld (salvoStat n) F.XPT_SALVO_STAT_OWNER = c.req.num) (he : s.fld (salvoStat n) F.XPT_SALVO_STAT_STATE = 0)
    (hp : (s.planTake x d).1.refused = false) (hroom : s.salvosPending.length < 256) :
    ∃ a, a = (s.planTake x d).2.acceptEntries c (fun i => .salvo n i) [(d, x)] [(s.planTake x d).1] ∧
      s.commitSalvo c n [(d, x)] = (a.1, a.2.setF (salvoStat n) F.XPT_SALVO_STAT_STATE 1) := by
  refine ⟨_, rfl, ?_⟩
  have hplan : s.planAll [(d, x)] [] = .ok ([(s.planTake x d).1], (s.planTake x d).2) := by simp [State.planAll, hp]
  have hdup : firstDup [(d, x)] = none := rfl
  unfold State.commitSalvo
  rw [State.firstBad_none (by simp [hd, hx])]
  dsimp only
  rw [if_neg (by simp [ho]), State.checkNumbers_one hd hx hr hdw hxw hm, hplan]
  dsimp only
  rw [hdup]
  dsimp only
  rw [if_neg nofun, he, if_neg (by decide), if_neg]
  intro h
  have := (Nat.lt_of_succ_lt_succ h).trans_le (List.length_filter_le _ _)
  omega

end

/-! ## The obligation -/

/-- Where neither the timing nor the outputs moved, a destination's frames and its lead are the same. -/
theorem State.Shifts.destFrameFrom_eq {s t : State} (h : s.Shifts [] [] [.commits, .benches, .benchIn, .benchMem] [] t) (d : Nat) :
    t.destFrameFrom d (t.leadBound t.commitLead d) = s.destFrameFrom d (s.leadBound s.commitLead d) := by
  have hs : s.SameTiming t := h.sameTiming
  have ho : t.outs = s.outs := h.parts .outs (by decide)
  have htick : t.tick = s.tick := h.parts .tick (by decide)
  have hold : t.leadOld = s.leadOld := h.parts .leadOld (by decide)
  have hhead : t.tileHead = s.tileHead := h.parts .tileHead (by decide)
  have hplan : t.headPlan = s.headPlan := h.parts .headPlan (by decide)
  have htw : t.twins = s.twins := h.parts .twins (by decide)
  have hcad : t.destCad d = s.destCad d := by
    simp only [State.destCad, hs.outCad, hhead, hplan, State.cadOfFmt, State.cadFor, hs.cadFmt, hs.cadValid, State.cadOf, State.twin, htw]
    rfl
  have hlead : t.takeLead = s.takeLead := by rw [State.takeLead, State.fld, h.rd_eq, State.takeLead, State.fld]
  simp only [State.destFrameFrom, State.outFrameFrom, State.leadBound, State.leadTime, State.commitLead, State.cadTime, hs.outCad, hs.cadFrameFrom, hs.cadFmt,
    hs.outPlan, ho, hcad, hlead, hold, htick]

theorem State.benchFor_without (s : State) (c : Commit) (n k : Nat) (ph : Int) :
    (s.without c).benchFor n k ph = ((s.benchFor n k ph).1, (s.benchFor n k ph).2.without c) := by
  have h1 : (s.without c).benches = s.benches := rfl
  have h2 : (s.without c).unitsUsed = s.unitsUsed := rfl
  have h3 : (s.without c).benchUnits n k = s.benchUnits n k := rfl
  have h4 : (s.without c).contextsUsed = s.contextsUsed := rfl
  have h5 : (s.without c).pagesUsed = s.pagesUsed := rfl
  have h6 : (s.without c).benchPages k = s.benchPages k := rfl
  have h7 : (s.without c).benchPlan = s.benchPlan := rfl
  simp only [State.benchFor, h1, h2, h3, h4, h5, h6, h7]
  split
  · rfl
  · split
    · rfl
    · split <;> rfl

/-- The list of commits received has no part in the plan of a take. -/
theorem State.planTake_without (s : State) (c : Commit) (x d : Nat) :
    (s.without c).planTake x d = ((s.planTake x d).1, (s.planTake x d).2.without c) := by
  have h1 : (s.without c).outs = s.outs := rfl
  have h2 : (s.without c).twin = s.twin := rfl
  have h3 : (s.without c).inFmt = s.inFmt := rfl
  have h4 : (s.without c).outCad = s.outCad := rfl
  have h5 : (s.without c).benchPhase = s.benchPhase := rfl
  have h6 : (s.without c).planBack = s.planBack := rfl
  have h7 : (s.without c).planDirect = s.planDirect := rfl
  have h8 : (s.without c).untimedPolicy = s.untimedPolicy := rfl
  have h9 : (s.without c).timed = s.timed := rfl
  simp only [State.planTake, h1, h2, h3, h4, h5, h6, h7, h8, h9, State.benchFor_without]
  repeat' split
  all_goals rfl

theorem State.commitOne_of {s : State} {c : Commit} {v : Verdict} {t : State} (h : (s.without c).judged c = (v, t)) : s.commitOne c = t.tell c v := by
  rw [State.commitOne_eq, h]

theorem State.Shifts.touches_tell {s t : State} {c : Commit} {v : Verdict} (h : (s.without c).Frees t) :
    s.touches [.XPT_TAKE_RES, .XPT_SALVO_STAT, .EVT_STATUS] [.regs, .fired, .takes, .commits, .benches, .benchIn, .benchMem] (t.tell c v) := by
  have hw : s.Shifts [] [.XPT_TAKE_RES, .XPT_SALVO_STAT, .EVT_STATUS] [.regs, .fired, .takes, .commits, .benches, .benchIn, .benchMem] [] (s.without c) :=
    s.shifts_refl.alter
  exact ((hw.then h).then (t.shifts_tell c v)).touches

theorem State.touches_commitOne_salvo {s : State} {c : Commit} {n : Nat} {es : List (Nat × Nat)} (hj : (s.without c).judged c = (s.without c).commitSalvo c n es) :
    s.touches [.XPT_TAKE_RES, .XPT_OUT_STAT, .XPT_SALVO_STAT, .SEAM_EVT, .EVT_STATUS]
      [.regs, .fired, .takes, .commits, .benches, .benchIn, .benchMem, .headRun] (s.commitOne c) := by
  have hw : s.Shifts [] [.XPT_TAKE_RES, .XPT_OUT_STAT, .XPT_SALVO_STAT, .SEAM_EVT, .EVT_STATUS]
      [.regs, .fired, .takes, .commits, .benches, .benchIn, .benchMem, .headRun] [] (s.without c) := s.shifts_refl.alter
  rw [State.commitOne_eq, hj]
  exact ((hw.then (State.joins_commitSalvo _ _ _ _)).then (State.shifts_tell _ _ _)).touches

/-- Settles O11: the judgement of each commit, and its report. -/
theorem commitTickJudgesCancelsAndSalvos : Obligations.CommitTickJudgesCancelsAndSalvos := by
  unfold Obligations.CommitTickJudgesCancelsAndSalvos
  refine ⟨fun c d s hc hdue hop hd hr => ?_, fun c n es s hc hdue hop => ?_, fun c n d x s hc hdue hop ht ho he hd hx hr hdw hxw hm hp hroom => ?_⟩
  · have hj : (s.without c).judged c = (s.without c).cancelTake c.req d := by rw [State.judged, hop]
    refine ⟨_, execCommitTick_of_single hc hdue, fun hnone => ?_, fun p q hmem hdest howner huniq => ?_, ?_⟩
    · have h : (s.without c).cancelTake c.req d = ({ status := 16 }, s.without c) := State.cancelTake_of_none hd hr fun p hp => by
        rw [← Bool.not_eq_true, Pending.singleOf_iff]
        exact fun ⟨hpd, q, hq⟩ => hnone p hp hpd q hq
      rw [State.commitOne_of (hj.trans h)]
      exact ⟨State.tell_status _ _ _, State.tell_takes _ _ _⟩
    · have h : (s.without c).cancelTake c.req d = if (s.without c).tooLate p then ({ status := 15 }, s.without c) else ({ status := 4 }, (s.without c).takeLeave p) :=
        State.cancelTake_of_some (s := s.without c) hd hr hmem (Pending.singleOf_iff.mpr ⟨hdest, q, howner⟩) fun p' hp' hs =>
          huniq p' hp' (Pending.singleOf_iff.mp hs).1 (Pending.singleOf_iff.mp hs).2
      refine ⟨fun hlate => ?_, fun hlate => ?_⟩
      · rw [if_pos (show (s.without c).tooLate p = true from hlate)] at h
        rw [State.commitOne_of (hj.trans h)]
        exact ⟨State.tell_status _ _ _, State.tell_takes _ _ _⟩
      · rw [if_neg (Bool.eq_false_iff.mp (show (s.without c).tooLate p = false from hlate))] at h
        rw [State.commitOne_of (hj.trans h)]
        exact ⟨State.tell_status _ _ _, (State.tell_takes _ _ _).trans (State.takeLeave_takes _ _)⟩
    · rw [State.commitOne_eq, hj]
      exact (State.frees_cancelTake _ _ _).touches_tell
  · have hj : (s.without c).judged c = (s.without c).commitSalvo c n es := by rw [State.judged, hop]
    refine ⟨_, execCommitTick_of_single hc hdue, fun e i hget hbad hfirst hi => ?_, fun hall howner => ?_, ?_⟩
    · rw [State.commitOne_of (hj.trans (State.commitSalvo_of_bad hget hbad hfirst))]
      exact ⟨State.tell_status _ _ _ (show 5 < 32 by decide), State.tell_entry _ _ _ hi, State.tell_takes _ _ _, State.tell_salvo _ _ _ _ _⟩
    · rw [State.commitOne_of (hj.trans (State.commitSalvo_of_stranger hall howner))]
      exact ⟨State.tell_status _ _ _, State.tell_entry _ _ _, State.tell_takes _ _ _, State.tell_salvo _ _ _ _ _⟩
    · exact State.touches_commitOne_salvo hj
  · have hj : (s.without c).judged c = (s.without c).commitSalvo c n [(d, x)] := by rw [State.judged, hop]
    obtain ⟨a, ha, hsalvo⟩ := State.commitSalvo_one (s := s.without c) (c := c) (n := n) hd hx hr hdw hxw hm ho he (by rwa [State.planTake_without]) hroom
    obtain ⟨hv, p, hmem, hpo, hpd, hpx, hps⟩ := ((s.without c).planTake x d).2.acceptEntries_one ht (fun i => .salvo n i) d x ((s.without c).planTake x d).1
    rw [← ha] at hv hmem
    have hone := State.commitOne_of (hj.trans hsalvo)
    refine ⟨_, p, execCommitTick_of_single hc hdue, ?_, ?_, ?_, hpo, hpd, hpx, ?_, ?_⟩
    · rw [hone, hv, State.tell_status _ _ _]
    · rw [hone, State.tell_salvo, State.fld_setF_self _ _ _ _ (by decide)]
      rfl
    · rw [hone, State.tell_takes, State.setF_takes]
      exact hmem
    · have hw : s.Shifts [] [] [.commits, .benches, .benchIn, .benchMem] [] (s.without c) := s.shifts_refl.alter
      exact hps.trans (congrArg some ((hw.then (State.benches_planTake _ _ _)).destFrameFrom_eq d))
    · exact State.touches_commitOne_salvo hj

end Sys2Proof.Machine
end


section
/-! # The execution of takes (O12) -/
namespace Sys2Proof.Machine
set_option Elab.async false

/-! ## What happens in one Side that runs -/

/-- An effect in each Side that runs, seen from one of them: before the effect in it `P` holds, which the effect in the other Side keeps, and after it
`Q`, which the other keeps as well. -/
theorem State.eachSide_at {s : State} {f : Side → State → State} {sd : Side} {P Q : State → Prop} (hl : s.live sd = true)
    (hf : ∀ x u, (f x u).live sd = u.live sd) (hs : P s) (hP : ∀ u, P u → P (f sd.other u)) (hPQ : ∀ u, P u → Q (f sd u))
    (hQ : ∀ u, Q u → Q (f sd.other u)) : Q (s.eachSide f) := by
  unfold State.eachSide
  dsimp only
  cases sd with
  | A =>
    rw [if_pos hl]
    split
    · exact hQ _ (hPQ _ hs)
    · exact hPQ _ hs
  | B =>
    split
    · rw [if_pos ((hf _ _).trans hl)]
      exact hPQ _ (hP _ hs)
    · exact hPQ _ hs

/-- Where no Side's condition moves, the Sides that run are the same. -/
theorem State.Shifts.live_eq {xs : List Side} {ns : List RegName} {ps : List Part} {fs : List Fld} {s t : State} (h : s.Shifts xs ns ps fs t)
    (ha : .sideA ∉ ps := by decide) (hb : .sideB ∉ ps := by decide) (sd : Side) : t.live sd = s.live sd := by
  have hA : t.sideA = s.sideA := h.parts .sideA ha
  have hB : t.sideB = s.sideB := h.parts .sideB hb
  cases sd <;> simp only [State.live, State.side, hA, hB]

/-! ## The outputs' status -/

/-- From `s` to `t` the status of every output has only gained bits. -/
def State.OutGains (s t : State) : Prop := ∀ sd i, ∃ m, t.rd (RS .XPT_OUT_STAT sd i) = s.rd (RS .XPT_OUT_STAT sd i) ||| m

section
variable {s₀ s t : State}

theorem State.outGains_refl (s : State) : s.OutGains s := fun _ _ => ⟨0, by simp⟩

theorem State.OutGains.trans (h : s₀.OutGains s) (h' : s.OutGains t) : s₀.OutGains t := fun sd i => by
  obtain ⟨m, e⟩ := h sd i
  obtain ⟨m', e'⟩ := h' sd i
  exact ⟨m ||| m', by rw [e', e, BitVec.or_assoc]⟩

theorem State.outGains_of_shifts {ns : List RegName} {ps : List Part} {fs : List Fld} (h : s.Shifts [] ns ps fs t)
    (hn : ns.contains .XPT_OUT_STAT = false := by rfl) : s.OutGains t := fun _ _ => ⟨0, by rw [h.rd_eq hn]; simp⟩

theorem State.outGains_raise (s : State) (k : RegKey) (f : Fld) : s.OutGains (s.raise k f) := fun sd i => by
  rw [s.rd_raise _ _ _ (by simp)]
  split
  · next e => exact ⟨f.mask, by rw [e]⟩
  · exact ⟨0, by simp⟩

theorem State.OutGains.eachSide {f : Side → State → State} (h : s₀.OutGains s) (hf : ∀ sd s, State.OutGains s (f sd s)) : s₀.OutGains (s.eachSide f) := by
  have hb {c : Prop} [Decidable c] {sd : Side} {s : State} (h : s₀.OutGains s) : s₀.OutGains (if c then f sd s else s) := by
    split
    · exact h.trans (hf _ _)
    · exact h
  exact hb (hb h)

theorem State.outGains_outEvt (s : State) (d : Nat) (f : Fld) : s.OutGains (s.outEvt d f) := by
  unfold State.outEvt
  split
  · exact s.outGains_refl.eachSide fun _ s => s.outGains_raise _ _
  · exact s.outGains_refl

/-- A status bit that is set stays set. -/
theorem State.OutGains.flag (h : s.OutGains t) {sd : Side} {d i : Nat} (hf : s.flag (RS .XPT_OUT_STAT sd d) ⟨i, 1⟩ = true) :
    t.flag (RS .XPT_OUT_STAT sd d) ⟨i, 1⟩ = true := by
  obtain ⟨m, e⟩ := h sd d
  rw [State.flag_eq_testBit] at hf
  rw [State.flag_eq_testBit, e, BitVec.toNat_or, Nat.testBit_or, hf, Bool.true_or]

/-- A status bit that an output gets is set in every Side that runs. -/
theorem State.flag_outEvt {sd : Side} (hl : s.live sd = true) {d : Nat} (hd : d < 1024) (i : Nat) (hi : i < 32 := by decide) :
    (s.outEvt d ⟨i, 1⟩).flag (RS .XPT_OUT_STAT sd d) ⟨i, 1⟩ = true := by
  unfold State.outEvt
  rw [if_pos hd]
  refine State.eachSide_at (P := fun _ => True) (Q := fun u => u.flag (RS .XPT_OUT_STAT sd d) ⟨i, 1⟩ = true) hl (fun x u => ?_) trivial (fun _ _ => trivial)
    (fun u _ => u.flag_raise _ i hi (by simp)) fun u h => (u.outGains_raise _ _).flag h
  have h : u.Shifts [] [.XPT_OUT_STAT, .EVT_STATUS] [.regs, .fired] [] (u.raise (RS .XPT_OUT_STAT x d) ⟨i, 1⟩) := u.shifts_refl.raise
  exact h.live_eq (by decide) (by decide) sd

end

/-! ## The take that executes first -/

/-- Of two takes in the order of a list the one that executes first. -/
def earlier (o : Option Pending) (t : Pending) : Option Pending :=
  match o with
  | none => if t.stamp.isSome then some t else none
  | some b =>
    if t.stamp.isSome ∧ (t.frame.getD 0 < b.frame.getD 0 ∨ (t.frame.getD 0 = b.frame.getD 0 ∧ t.stamp.getD 0 < b.stamp.getD 0)) then some t else some b

theorem earliestOf_eq (l : List Pending) : earliestOf l = l.foldl earlier none := rfl

theorem earlier_cases (o : Option Pending) (t : Pending) : earlier o t = o ∨ t.stamp.isSome = true ∧ earlier o t = some t := by
  unfold earlier
  split
  · split
    · next h => exact .inr ⟨h, rfl⟩
    · exact .inl rfl
  · split
    · next h => exact .inr ⟨h.1, rfl⟩
    · exact .inl rfl

theorem mem_of_foldl_earlier {l : List Pending} {o : Option Pending} {p : Pending} (h : l.foldl earlier o = some p) :
    o = some p ∨ p ∈ l ∧ p.stamp.isSome = true := by
  induction l generalizing o with
  | nil => exact .inl h
  | cons q l ih =>
    obtain e | ⟨hp, hs⟩ := ih h
    · obtain e' | ⟨hq, e'⟩ := earlier_cases o q
      · exact .inl (e'.symm.trans e)
      · obtain rfl := Option.some.inj (e'.symm.trans e)
        exact .inr ⟨List.mem_cons_self .., hq⟩
    · exact .inr ⟨List.mem_cons_of_mem _ hp, hs⟩

theorem mem_of_earliestOf {l : List Pending} {p : Pending} (h : earliestOf l = some p) : p ∈ l ∧ p.stamp.isSome = true :=
  (mem_of_foldl_earlier h).resolve_left nofun

/-- No take is held that executes before `p`, nor another one that executes with it. -/
def Pending.leads (p : Pending) (o : Option Pending) : Prop := ∀ b, o = some b → b = p ∨ p.frame.getD 0 < b.frame.getD 0

theorem earlier_of_leads {p : Pending} {o : Option Pending} (hs : p.stamp.isSome = true) (h : p.leads o) : earlier o p = some p := by
  unfold earlier
  split
  · exact if_pos hs
  · next b =>
    obtain rfl | hlt := h b rfl
    · simp
    · exact if_pos ⟨hs, .inl hlt⟩

theorem earlier_some_of_leads {p q : Pending} (h : q.stamp.isSome = true → q = p ∨ p.frame.getD 0 < q.frame.getD 0) : earlier (some p) q = some p := by
  obtain e | ⟨hs, e⟩ := earlier_cases (some p) q
  · exact e
  · obtain rfl | hlt := h hs
    · exact e
    · exact if_neg (by omega)

theorem foldl_earlier {p : Pending} {l : List Pending} {o : Option Pending} (hs : p.stamp.isSome = true)
    (hl : ∀ q ∈ l, q.stamp.isSome = true → q = p ∨ p.frame.getD 0 < q.frame.getD 0) (ho : p.leads o) (hp : o = some p ∨ p ∈ l) :
    l.foldl earlier o = some p := by
  induction l generalizing o with
  | nil => exact hp.resolve_right List.not_mem_nil
  | cons q l ih =>
    have hq := hl q (List.mem_cons_self ..)
    refine ih (fun x hx => hl x (List.mem_cons_of_mem _ hx)) ?_ ?_
    · intro b hb
      obtain e | ⟨hqs, e⟩ := earlier_cases o q
      · exact ho b (e.symm.trans hb)
      · obtain rfl := Option.some.inj (e.symm.trans hb)
        exact hq hqs
    · obtain rfl | hp := hp
      · exact .inl (earlier_some_of_leads hq)
      · obtain rfl | hp := List.mem_cons.mp hp
        · exact .inl (earlier_of_leads hs ho)
        · exact .inr hp

theorem earliestOf_of_first {p : Pending} {l : List Pending} (hp : p ∈ l) (hs : p.stamp.isSome = true)
    (hl : ∀ q ∈ l, q.stamp.isSome = true → q = p ∨ p.frame.getD 0 < q.frame.getD 0) : earliestOf l = some p :=
  foldl_earlier hs hl nofun (.inr hp)

theorem Pending.frame_isSome {t : Pending} (h : t.stamp.isSome = true) : t.frame = some (t.frame.getD 0) := by
  unfold Pending.frame
  cases t.runs with
  | none => simpa using (Option.some_get h).symm ▸ rfl
  | some k => rfl

/-! ## An output whose timing jumps -/

/-- A pending take, where frame `ended` of output `d` ends at instant `j` (R582). -/
def State.deferred (s : State) (d : Nat) (ended j : Int) (t : Pending) : Pending :=
  match t.frame with
  | some f => if t.dest = d ∧ (f : Int) ≤ ended ∧ j ≤ s.switchPoint d (s.outs.at d) f then { t with runs := some (ended + 1).toNat } else t
  | none => t

theorem State.deferred_of_ne {s : State} {d : Nat} {ended j : Int} {t : Pending} (h : t.dest ≠ d) : s.deferred d ended j t = t := by
  unfold State.deferred
  split
  · exact if_neg fun hc => h hc.1
  · rfl

/-- From `s` to `t` no take of another destination than `d` has moved, and none has come or gone. -/
structure State.TakesOf (d : Nat) (s t : State) : Prop where
  length : t.takes.length = s.takes.length
  others : ∀ p ∈ s.takes, p.dest ≠ d → p ∈ t.takes

theorem State.takesOf_of_eq {s t : State} {d : Nat} (h : t.takes = s.takes) : s.TakesOf d t := ⟨by rw [h], fun _ hp _ => h ▸ hp⟩

theorem State.TakesOf.trans {s₀ s t : State} {d : Nat} (h : s₀.TakesOf d s) (h' : s.TakesOf d t) : s₀.TakesOf d t :=
  ⟨h'.length.trans h.length, fun p hp hd => h'.others p (h.others p hp hd) hd⟩

section
variable {s₀ s : State} {d : Nat}

theorem State.takesOf_endFrame (s : State) (d : Nat) (ended j : Int) : s.TakesOf d (s.endFrame d ended j) := by
  have hs (u : State) (c : Nat) : u.Shifts [] [] [.shown] []
      (u.eachSide fun sd s => { s with shown := s.shown.upd (2 * d + sd.idx) fun h => if h.frame = some ended.toNat then { h with cut := some c } else h }) :=
    u.shifts_refl.eachSide fun _ _ h => h.alter
  have h : (s.endFrame d ended j).takes = s.takes.map (s.deferred d ended j) := (hs _ _).parts .takes (by decide)
  refine ⟨by rw [h, List.length_map], fun p hp hd => ?_⟩
  rw [h]
  exact List.mem_map.mpr ⟨p, hp, State.deferred_of_ne hd⟩

theorem State.shifts_endFrame (s : State) (d : Nat) (ended j : Int) : s.Shifts [] [] [.takes, .shown] [] (s.endFrame d ended j) := by
  unfold State.endFrame
  refine State.Shifts.eachSide ?_ fun _ _ h => h.alter
  exact s.shifts_refl.alter

theorem State.shifts_takes (s : State) (ts : List Pending) : s.Shifts [] [] [.takes] [] { s with takes := ts } := s.shifts_refl.alter

theorem State.shifts_outs (s : State) (os : SMap OutTiming) : s.Shifts [] [] [.outs] [] { s with outs := os } := s.shifts_refl.alter

theorem State.shifts_jumpTo (s : State) (d : Nat) (o : OutTiming) (j : Int) : s.Shifts [] [] [.takes, .shown, .outs] [] (s.jumpTo d o j) := by
  have h : s.Shifts [] [] [.takes, .shown, .outs] [] (s.endFrame d (s.outFrameAt d (s.outs.at d) (j - 1)) j) := (s.shifts_endFrame _ _ _).mono
  exact h.then (State.shifts_outs _ _)

theorem State.takesOf_jumpTo (s : State) (d : Nat) (o : OutTiming) (j : Int) : s.TakesOf d (s.jumpTo d o j) :=
  (s.takesOf_endFrame d _ j).trans (State.takesOf_of_eq rfl)

/-- The raster of an output jumps, and its status and its Seam's say so. -/
def State.jumped (s : State) (d : Nat) (o : OutTiming) (j : Int) : State :=
  ((s.jumpTo d o j).outEvt d F.XPT_OUT_STAT_TIMING_BREAK).seamEvt d F.SEAM_EVT_RETIME

theorem State.retimeAt_cases (s : State) (t : Pending) (j : Int) : s.retimeAt t j = s ∨ t.timing ≠ .keep ∧ ∃ o, s.retimeAt t j = s.jumped t.dest o j := by
  unfold State.retimeAt
  cases t.timing with
  | keep => exact .inl rfl
  | back => exact .inr ⟨nofun, _, rfl⟩
  | retime =>
    dsimp only
    split
    · exact .inl rfl
    · exact .inr ⟨nofun, _, rfl⟩

/-- From `s` to `t` only what the retiming of an output and its report can change has changed. -/
abbrev State.Retimes (s t : State) : Prop :=
  s.Shifts [] [.XPT_OUT_STAT, .XPT_OUT_TAKEN, .SEAM_EVT, .EVT_STATUS] [.regs, .fired, .takes, .outs, .shown] [] t

theorem State.retimes_retimeAt (s : State) (t : Pending) (j : Int) : s.Retimes (s.retimeAt t j) := by
  obtain e | ⟨-, o, e⟩ := s.retimeAt_cases t j
  · rw [e]
    exact s.shifts_refl
  · rw [e]
    have h : s.Retimes (s.jumpTo t.dest o j) := (s.shifts_jumpTo _ _ _).mono
    exact (h.then (State.events_outEvt _ _ _)).then (State.events_seamEvt _ _ _)

theorem State.takesOf_retimeAt (s : State) (t : Pending) (j : Int) : s.TakesOf t.dest (s.retimeAt t j) := by
  obtain e | ⟨-, o, e⟩ := s.retimeAt_cases t j
  · exact State.takesOf_of_eq (congrArg State.takes e)
  · rw [e]
    refine (s.takesOf_jumpTo t.dest o j).trans (State.takesOf_of_eq ?_)
    exact ((State.events_seamEvt _ _ _).parts .takes (by decide)).trans ((State.events_outEvt _ _ _).parts .takes (by decide))

theorem State.retimeAt_keep (s : State) {t : Pending} (j : Int) (h : t.timing = .keep) : s.retimeAt t j = s :=
  (s.retimeAt_cases t j).resolve_right fun hc => hc.1 h

end

/-! ## The stages of a take's execution -/

/-- The route of a destination whose route was `old`, once the take has executed in frame `f`. -/
def Pending.route (t : Pending) (old : Route) (f : Nat) : Route :=
  { src := t.src, bench := t.bench, prev := old.src, prevBench := old.bench, taken := f, cad := t.cad }

/-- The take leaves the pending ones, and its destination's route is its source. -/
def State.routed (s : State) (t : Pending) (f : Nat) : State :=
  { s with
    takes := s.takes.filter fun x => x ≠ t
    routes := s.routes.set t.dest (t.route (s.routes.at t.dest) f) }.benchReleaseOf (s.routes.at t.dest).bench

/-- An output slot shows the source from frame `f` on. -/
def State.landed (s : State) (t : Pending) (f : Nat) (lead : Int) : State :=
  { s with outs := s.outs.upd t.dest fun o => { o with untimed := 0, lead := lead } }.eachSide fun sd s =>
    ({ s with shown := s.shown.upd (2 * t.dest + sd.idx) fun h => { h with hit := false } }.wr (RS .XPT_OUT_TAKEN sd t.dest) (w32 f)).returnIn sd t.dest

/-- What follows TOOK in the report of a take. -/
def State.reported (s : State) (t : Pending) : State :=
  let s := if t.fallback then s.outEvt t.dest F.XPT_OUT_STAT_FALLBACK else s
  let s := match t.owner with
    | .salvo n _ => (s.setF (R1 .XPT_SALVO_STAT n) F.XPT_SALVO_STAT_STATE 2).salvoLeave n
    | _ => s
  if t.dest < 1024 then s.followTake t.dest else s

/-- The execution of a take is reported. -/
def State.told (s : State) (t : Pending) : State := (s.outEvt t.dest F.XPT_OUT_STAT_TOOK).reported t

/-- The take has executed but is not yet reported. -/
def State.moved (s : State) (t : Pending) (f : Nat) (lead : Int) : State :=
  if t.dest < 1024 then ((s.routed t f).retimeAt t ((s.routed t f).destSwitch t.dest t.cad f)).landed t f lead else s.routed t f

theorem State.executeTake_eq (s : State) (t : Pending) (f : Nat) : ∃ lead, s.executeTake t f = (s.moved t f lead).told t := ⟨_, rfl⟩

section
variable (s : State) (t : Pending) (f : Nat) (lead : Int)

theorem State.shifts_routed : s.Shifts [] [] [.takes, .routes, .benches, .benchIn, .benchMem] [] (s.routed t f) := by
  unfold State.routed
  refine State.Shifts.then ?_ (State.benches_benchReleaseOf _ _)
  exact s.shifts_refl.alter

theorem State.takes_routed : (s.routed t f).takes = s.takes.filter fun x => x ≠ t := State.benchReleaseOf_takes _ _

theorem State.routes_routed : (s.routed t f).routes = s.routes.set t.dest (t.route (s.routes.at t.dest) f) :=
  (State.benches_benchReleaseOf _ _).parts .routes (by decide)

theorem State.shifts_returnIn (sd : Side) (d : Nat) : s.Shifts [] [] [.shown] [] (s.returnIn sd d) := by
  unfold State.returnIn
  dsimp only
  split
  · exact s.shifts_refl
  · exact .ite s.shifts_refl.alter s.shifts_refl

theorem State.shifts_landed : s.Shifts [] [.XPT_OUT_TAKEN] [.regs, .outs, .shown] [] (s.landed t f lead) := by
  unfold State.landed
  refine State.Shifts.eachSide ?_ fun sd u h => State.Shifts.then (State.Shifts.wr ?_) (State.shifts_returnIn _ _ _)
  · exact s.shifts_refl.alter
  · exact h.alter

/-- In every Side that runs XPT_OUT_TAKEN holds the frame. -/
theorem State.rd_landed {sd : Side} (hl : s.live sd = true) : (s.landed t f lead).rd (RS .XPT_OUT_TAKEN sd t.dest) = w32 f := by
  have hne : RS .XPT_OUT_TAKEN sd t.dest ≠ RS .XPT_OUT_TAKEN sd.other t.dest := by cases sd <;> simp [Side.other, Side.idx]
  have hr (u : State) (x : Side) (k : RegKey) : (u.returnIn x t.dest).rd k = u.rd k := (u.shifts_returnIn x t.dest).rd_eq
  refine State.eachSide_at (P := fun _ => True) (Q := fun u => u.rd (RS .XPT_OUT_TAKEN sd t.dest) = w32 f) (sd := sd) hl (fun x u => ?_) trivial
    (fun _ _ => trivial) (fun u _ => ?_) fun u h => ?_
  · exact ((State.shifts_returnIn _ _ _).live_eq (by decide) (by decide) sd).trans (State.live_wr _ _ _ _)
  · rw [hr, State.rd_wr, if_pos rfl]
  · rw [hr, State.rd_wr_ne _ hne]
    exact h

theorem State.shifts_followTake (d : Nat) : s.Shifts [] [] [.audDst] [] (s.followTake d) := s.shifts_refl.foldl fun _ _ h => h.branch (·.alter) id

/-- From `s` to `t` only what the report of a take can change has changed. -/
abbrev State.Tells (s t : State) : Prop := s.Shifts [] [.XPT_OUT_STAT, .XPT_SALVO_STAT, .EVT_STATUS] [.regs, .fired, .audDst] [] t

/-- After TOOK the report of a take only adds to the outputs' status. -/
theorem State.tells_reported : s.Tells (s.reported t) ∧ s.OutGains (s.reported t) := by
  unfold State.reported
  extract_lets s₁ s₂
  have h₁ : s.Shifts [] [.XPT_OUT_STAT, .EVT_STATUS] [.regs, .fired] [] s₁ ∧ s.OutGains s₁ := by
    unfold s₁
    split
    · exact ⟨s.events_outEvt _ _, s.outGains_outEvt _ _⟩
    · exact ⟨s.shifts_refl, s.outGains_refl⟩
  have h₂ : s₁.Shifts [] [.XPT_SALVO_STAT, .EVT_STATUS] [.regs, .fired] [] s₂ := by
    unfold s₂
    split
    · exact s₁.shifts_refl.setF.then (State.events_salvoLeave _ _)
    · exact s₁.shifts_refl
  clear_value s₂ s₁
  have h₃ : s₂.Shifts [] [] [.audDst] [] (if t.dest < 1024 then s₂.followTake t.dest else s₂) := .ite (s₂.shifts_followTake _) s₂.shifts_refl
  have hs : s.Tells s₁ := h₁.1.mono
  exact ⟨(hs.then h₂).then h₃, (h₁.2.trans (State.outGains_of_shifts h₂)).trans (State.outGains_of_shifts h₃)⟩

theorem State.tells_told : s.Tells (s.told t) := by
  have h : s.Tells (s.outEvt t.dest F.XPT_OUT_STAT_TOOK) := (s.events_outEvt _ _).mono
  exact h.then (State.tells_reported _ t).1

/-- From `s` to `t` only what the execution of a take can change has changed. -/
abbrev State.Executes (s t : State) : Prop :=
  s.Shifts [] [.XPT_OUT_STAT, .XPT_OUT_TAKEN, .SEAM_EVT, .XPT_SALVO_STAT, .EVT_STATUS]
    [.regs, .fired, .routes, .takes, .outs, .shown, .benches, .benchIn, .benchMem, .audDst] [] t

theorem State.retimes_landed (j : Int) : s.Retimes ((s.retimeAt t j).landed t f lead) := (s.retimes_retimeAt t j).then (State.shifts_landed _ _ _ _)

theorem State.retimes_moved : (s.routed t f).Retimes (s.moved t f lead) := .ite (State.retimes_landed _ _ _ _ _) (State.shifts_refl _)

theorem State.executes_executeTake : s.Executes (s.executeTake t f) := by
  obtain ⟨lead, e⟩ := s.executeTake_eq t f
  have h : s.Executes (s.routed t f) := (s.shifts_routed t f).mono
  exact e ▸ (h.then (s.retimes_moved t f lead)).then (State.tells_told _ _)

theorem State.routes_executeTake : (s.executeTake t f).routes = s.routes.set t.dest (t.route (s.routes.at t.dest) f) := by
  obtain ⟨lead, e⟩ := s.executeTake_eq t f
  rw [e]
  exact ((State.tells_told _ t).parts .routes (by decide)).trans (((s.retimes_moved t f lead).parts .routes (by decide)).trans (s.routes_routed t f))

/-- The takes that are left are those but the one executed, where the timing of its output stays; else those of its output may have moved. -/
theorem State.takes_executeTake : (s.routed t f).TakesOf t.dest (s.executeTake t f) ∧
    (t.timing = .keep → (s.executeTake t f).takes = s.takes.filter fun x => x ≠ t) := by
  obtain ⟨lead, e⟩ := s.executeTake_eq t f
  have htold : (s.executeTake t f).takes = (s.moved t f lead).takes := e ▸ (State.tells_told _ t).parts .takes (by decide)
  have hland (u : State) : (u.landed t f lead).takes = u.takes := (u.shifts_landed t f lead).parts .takes (by decide)
  rw [htold, ← s.takes_routed t f]
  have h : (s.routed t f).TakesOf t.dest (s.moved t f lead) ∧ (t.timing = .keep → (s.moved t f lead).takes = (s.routed t f).takes) := by
    unfold State.moved
    split
    · refine ⟨(State.takesOf_retimeAt _ _ _).trans (State.takesOf_of_eq (hland _)), fun hk => ?_⟩
      rw [hland, State.retimeAt_keep _ _ hk]
    · exact ⟨State.takesOf_of_eq rfl, fun _ => rfl⟩
  exact ⟨⟨(congrArg List.length htold).trans h.1.length, fun p hp hd => htold ▸ h.1.others p hp hd⟩, h.2⟩

variable {s t f}

/-- In every Side that runs an output slot reports the take. -/
theorem State.told_executeTake {sd : Side} (hl : s.live sd = true) (hd : t.dest < 1024) :
    (s.executeTake t f).flag (RS .XPT_OUT_STAT sd t.dest) F.XPT_OUT_STAT_TOOK = true ∧
      (s.executeTake t f).rd (RS .XPT_OUT_TAKEN sd t.dest) = w32 f := by
  obtain ⟨lead, e⟩ := s.executeTake_eq t f
  have hrouted : (s.routed t f).live sd = true := ((s.shifts_routed t f).live_eq (by decide) (by decide) sd).trans hl
  have hmoved : (s.moved t f lead).live sd = true := ((s.retimes_moved t f lead).live_eq (by decide) (by decide) sd).trans hrouted
  rw [e]
  refine ⟨(State.tells_reported _ t).2.flag (State.flag_outEvt hmoved hd 0), ?_⟩
  rw [(State.tells_told _ t).rd_eq, State.moved, if_pos hd]
  refine State.rd_landed _ _ _ _ (Eq.trans ?_ hrouted)
  exact (State.retimes_retimeAt _ _ _).live_eq (by decide) (by decide) sd

end

/-! ## The obligation -/

theorem execTakeExecute_of_due {d : Fin 1344} {p : Pending} {f : Nat} {s : State} (he : earliestOf (s.takes.filter fun t => t.dest = d.val) = some p)
    (hf : p.frame = some f) (hdue : s.destSwitch d p.cad f ≤ s.cadTime) : exec (.takeExecute d) s = .next (s.executeTake p f) := by
  have e : exec (.takeExecute d) s = execTakeExecute d s := rfl
  rw [e, execTakeExecute, he]
  simp only [hf, Option.getD_some]
  exact if_pos hdue

/-- A take that joins where none is pending, and whose source is no head, is the only one. -/
theorem State.addTake_alone {s : State} {p : Pending} (ht : s.takes = []) (hsrc : p.src < 1024) : s.addTake p = { s with takes := [p] } := by
  have hd : p.displaced s.takes = [] := List.sublist_nil.mp (ht ▸ p.displaced_sublist s.takes)
  rw [State.addTake_eq, if_neg (by omega), State.joined, hd, ht]
  rfl

/-- The single pending take is due to be stamped. -/
theorem execTimedTakeStamp_of_due {p : Pending} {s : State} (ht : s.takes = [p]) (hs : p.stamp = none) (hdue : s.stampDue p.timeBase p.time = true) :
    ∃ g, ∃ late : Bool, exec .timedTakeStamp s =
      .next ((if late then { s with takes := [] }.outEvt p.dest F.XPT_OUT_STAT_TIME_LATE else { s with takes := [] }).addTake { p with stamp := some g }) := by
  have e : exec .timedTakeStamp s = execTimedTakeStamp s := rfl
  have hd : (s.takes.filter fun t => t.stamp.isNone && s.stampDue t.timeBase t.time) = [p] := by simp [ht, hs, hdue]
  have hr : (s.takes.filter fun t => t ≠ p) = [] := by simp [ht]
  rw [e, execTimedTakeStamp, hd]
  simp only [List.map_cons, List.map_nil, List.foldl_cons, List.foldl_nil, hr]
  exact ⟨_, _, rfl⟩

theorem execTimedTakeStamp_of_early {p : Pending} {s : State} (ht : s.takes = [p]) (hdue : s.stampDue p.timeBase p.time = false) :
    exec .timedTakeStamp s = .next s := by
  have e : exec .timedTakeStamp s = execTimedTakeStamp s := rfl
  have hd : (s.takes.filter fun t => t.stamp.isNone && s.stampDue t.timeBase t.time) = [] := by simp [ht, hdue]
  rw [e, execTimedTakeStamp, hd]
  rfl

/-- Settles O12: the earliest pending take and the stages of its execution. -/
theorem takesExecuteAtTheirSwitchPoint : Obligations.TakesExecuteAtTheirSwitchPoint := by
  unfold Obligations.TakesExecuteAtTheirSwitchPoint
  refine ⟨fun d p f s hp hd hstamp hf hfirst hdue => ?_, fun d s hlate => ?_, fun p s ht hs hsrc => ?_⟩
  · have he : earliestOf (s.takes.filter fun t => t.dest = d.val) = some p := by
      refine earliestOf_of_first (List.mem_filter.mpr ⟨hp, by simpa using hd⟩) hstamp fun q hq hqs => or_iff_not_imp_left.mpr fun hne => ?_
      obtain ⟨hq, hqd⟩ := List.mem_filter.mp hq
      rw [hf]
      exact hfirst q hq (by simpa using hqd) hne hqs _ (Pending.frame_isSome hqs)
    obtain ⟨htakes, hkeep⟩ := s.takes_executeTake p f
    refine ⟨_, execTakeExecute_of_due he hf hdue, ?_, fun e hne => ?_, ?_, fun hk => ?_, fun q hq hne hor => ?_, fun hlt sd hl => ?_, (s.executes_executeTake p f).touches⟩
    · rw [State.routes_executeTake, ← hd, SMap.at_set, if_pos rfl]
      rfl
    · rw [State.routes_executeTake, SMap.at_set, if_neg (hd ▸ hne)]
    · rw [htakes.length, State.takes_routed]
      exact List.length_filter_lt_length_iff_exists.mpr ⟨p, hp, by simp⟩
    · rw [hkeep hk]
      simp
    · have hq' : q ∈ (s.routed p f).takes := by
        rw [State.takes_routed]
        exact List.mem_filter.mpr ⟨hq, by simpa using hne⟩
      obtain hqd | hk := hor
      · exact htakes.others q hq' (hd ▸ hqd)
      · rw [hkeep hk, ← State.takes_routed]
        exact hq'
    · exact hd ▸ State.told_executeTake hl (hd ▸ hlt)
  · have e : exec (.takeExecute d) s = execTakeExecute d s := rfl
    rw [e, execTakeExecute]
    split
    · rfl
    · next p he =>
      obtain ⟨hmem, hstamp⟩ := mem_of_earliestOf he
      obtain ⟨hp, hd⟩ := List.mem_filter.mp hmem
      exact if_neg (not_le.mpr (hlate p hp (by simpa using hd) hstamp _ (Pending.frame_isSome hstamp)))
  · refine ⟨fun hdue _ => ?_, execTimedTakeStamp_of_early ht⟩
    obtain ⟨g, late, hx⟩ := execTimedTakeStamp_of_due ht hs hdue
    have hw : s.Shifts [] [.XPT_OUT_STAT, .EVT_STATUS] [.regs, .fired, .takes] [] { s with takes := [] } := s.shifts_refl.alter
    have hu (u : State) : u.Shifts [] [.XPT_OUT_STAT, .EVT_STATUS] [.regs, .fired] [] (if late then u.outEvt p.dest F.XPT_OUT_STAT_TIME_LATE else u) :=
      .ite (u.events_outEvt _ _) u.shifts_refl
    have hnil (u : State) (hn : u.takes = []) : (if late then u.outEvt p.dest F.XPT_OUT_STAT_TIME_LATE else u).takes = [] := ((hu u).parts .takes (by decide)).trans hn
    rw [State.addTake_alone (hnil _ rfl) (by exact hsrc)] at hx
    exact ⟨_, g, hx, rfl, ((hw.then (hu _)).then (State.shifts_takes _ _)).touches⟩

end Sys2Proof.Machine
end


section
/-! # Frames, offsets and captures (O14) -/
namespace Sys2Proof.Machine
set_option Elab.async false

/-! ## What the start of a frame can move -/

/-- From `s₀` to `s` only what the packet engines build has changed. -/
abbrev State.Builds (s₀ s : State) : Prop := s₀.Shifts [] [] [.txFlows, .txBufs] [] s

section
variable {s₀ s : State}

theorem State.builds_txFlows (s : State) (x : SMap TxFlow) : s.Builds { s with txFlows := x } := s.shifts_refl.alter

theorem State.builds_queuePkt (s : State) (t : Nat) (p : TxPkt) (pay : Side → List Byte) : s.Builds (s.queuePkt t p pay) := by
  unfold State.queuePkt
  exact (s.builds_txFlows _).eachSide fun _ _ h => h.alter

theorem State.builds_sendGathered (s : State) (t d : Nat) (marker : Bool) : s.Builds (s.sendGathered t d marker) :=
  .ite s.shifts_refl ((s.builds_queuePkt _ _ _).then (State.builds_txFlows _ _))

theorem State.Shifts.buildVideo {t d g fuel : Nat} (h : s₀.Builds s) : s₀.Builds (s.buildVideo t d g fuel) := by
  induction fuel generalizing s with
  | zero => exact h
  | succ fuel ih =>
    unfold State.buildVideo
    exact .ite h (ih ((h.then (State.builds_queuePkt _ _ _ _)).then (State.builds_txFlows _ _)))

theorem State.Shifts.buildAnc {t d g fuel : Nat} (h : s₀.Builds s) : s₀.Builds (s.buildAnc t d g fuel) := by
  induction fuel generalizing s with
  | zero => exact h
  | succ fuel ih =>
    unfold State.buildAnc
    refine .ite h (ih ?_)
    refine State.Shifts.then (State.Shifts.branch (State.Shifts.foldl h fun _ _ h => ?_) (·.then (State.builds_sendGathered _ _ _ _)) id) (State.builds_txFlows _ _)
    exact State.Shifts.then (h.branch (·.then (State.builds_sendGathered _ _ _ _)) id) (State.builds_txFlows _ _)

theorem State.Shifts.buildFlow {t : Nat} (h : s₀.Builds s) : s₀.Builds (s.buildFlow t) := by
  unfold State.buildFlow
  dsimp only
  split
  · exact h
  · exact .ite h (.ite h.buildVideo h.buildAnc)

theorem State.builds_buildFlows (s : State) (d : Nat) : s.Builds (s.buildFlows d) := s.shifts_refl.foldl fun _ _ h => h.buildFlow

theorem State.builds_openFlows (s : State) (d g : Nat) : s.Builds (s.openFlows d g) :=
  s.shifts_refl.foldl fun _ _ h => h.then (State.builds_txFlows _ _)

theorem State.shifts_txqs (s : State) (x : SMap TxQ) : s.Shifts [] [] [.txqs] [] { s with txqs := x } := s.shifts_refl.alter

theorem State.shifts_flushOut (s : State) (sd : Side) (d : Nat) : s.Shifts [] [] [.txqs] [] (s.flushOut sd d) := by
  unfold State.flushOut
  dsimp only
  refine s.shifts_refl.foldl fun _ _ h => .ite h (h.foldl fun _ _ h => ?_)
  split
  · exact .ite (h.then (State.shifts_txqs _ _)) h
  · exact h

theorem State.shifts_shown (s : State) (x : SMap Shown) : s.Shifts [] [] [.shown] [] { s with shown := x } := s.shifts_refl.alter

/-- The frame before the one that starts is closed. -/
def State.closeFrame (s : State) (sd : Side) (d : Nat) : State :=
  match (s.shown.at (2 * d + sd.idx)).frame with
  | some p => if s.shows d (s.shown.at (2 * d + sd.idx)).cause then s.fillFrame sd d p (s.shown.at (2 * d + sd.idx)) else s
  | none => s

/-- Why frame `f` does not show its source `x`, after `sh` was shown. -/
def State.startCause (s : State) (sd : Side) (d f x : Nat) (sh : Shown) : LossCause :=
  let now := s.lossCause sd d x
  let was := if sh.hit then .lost else sh.cause
  if now ≠ .none then now else if was ≠ .none ∧ !s.wholeBefore sd d x f then was else .none

/-- The cause `c` of a frame that starts is reported. -/
def State.tellCause (s : State) (sd : Side) (d : Nat) (c : LossCause) (sh : Shown) (r : Route) : State :=
  let s := if c = .lost ∧ (sh.cause ≠ .lost ∨ sh.hit) then s.raise (RS .XPT_OUT_STAT sd d) F.XPT_OUT_STAT_LOST
    else if c = .mismatch ∧ sh.cause ≠ .mismatch then s.raise (RS .XPT_OUT_STAT sd d) F.XPT_OUT_STAT_FMT_MISMATCH else s
  if c ≠ .none ∧ getF (s.twin .XPT_OUT_CFG d) F.XPT_OUT_CFG_LOSS = 1 ∧ r.bench = none then
    s.raise (RS .XPT_OUT_STAT sd d) F.XPT_OUT_STAT_HOLD_NO_BENCH
  else s

/-- The frame that starts is the one shown. -/
def State.showFrame (s : State) (sd : Side) (d f : Nat) (c : LossCause) : State :=
  { s with shown := s.shown.set (2 * d + sd.idx) { frame := some f, cause := c } }

theorem State.startFrame_eq (s : State) (sd : Side) (d f : Nat) : s.startFrame sd d f =
    ((s.closeFrame sd d).showFrame sd d f ((s.closeFrame sd d).startCause sd d f (s.routes.at d).src (s.shown.at (2 * d + sd.idx)))).tellCause sd d
      ((s.closeFrame sd d).startCause sd d f (s.routes.at d).src (s.shown.at (2 * d + sd.idx))) (s.shown.at (2 * d + sd.idx)) (s.routes.at d) := rfl

theorem State.closes_closeFrame (s : State) (sd : Side) (d : Nat) :
    s.Shifts [] [.SEAM_EVT, .SEAM_FILL, .EVT_STATUS] [.regs, .fired, .stores] [] (s.closeFrame sd d) := by
  have h (f : Nat) (x : Shown) : s.Shifts [] [.SEAM_EVT, .SEAM_FILL, .EVT_STATUS] [.regs, .fired, .stores] [] (s.fillFrame sd d f x) := by
    have h' : s.Shifts [] [.SEAM_EVT, .SEAM_FILL, .EVT_STATUS] [.regs, .fired, .stores] []
      { s with stores := s.stores.upd (2 * d + sd.idx) fun l => l.filter fun p => f < p.frame } := s.shifts_refl.alter
    exact .ite h'.addWrap.raise h'
  unfold State.closeFrame
  split
  · exact .ite (h _ _) s.shifts_refl
  · exact s.shifts_refl

theorem State.tells_tellCause (s : State) (sd : Side) (d : Nat) (c : LossCause) (sh : Shown) (r : Route) :
    s.Shifts [] [.XPT_OUT_STAT, .EVT_STATUS] [.regs, .fired] [] (s.tellCause sd d c sh r) ∧ s.OutGains (s.tellCause sd d c sh r) := by
  unfold State.tellCause
  extract_lets s₁
  have h₁ : s.Shifts [] [.XPT_OUT_STAT, .EVT_STATUS] [.regs, .fired] [] s₁ ∧ s.OutGains s₁ := by
    unfold s₁
    split
    · exact ⟨s.shifts_refl.raise, s.outGains_raise _ _⟩
    · split
      · exact ⟨s.shifts_refl.raise, s.outGains_raise _ _⟩
      · exact ⟨s.shifts_refl, s.outGains_refl⟩
  clear_value s₁
  split
  · exact ⟨h₁.1.raise, h₁.2.trans (s₁.outGains_raise _ _)⟩
  · exact h₁

theorem State.flag_tellCause {s : State} {sd : Side} {d : Nat} {sh : Shown} {r : Route} (h : sh.cause = .none) :
    (s.tellCause sd d .lost sh r).flag (RS .XPT_OUT_STAT sd d) F.XPT_OUT_STAT_LOST = true := by
  have hl := s.flag_raise (RS .XPT_OUT_STAT sd d) 2 (by decide) (by simp)
  unfold State.tellCause
  simp only [h, ne_eq, reduceCtorEq, not_false_eq_true, true_or, and_self, if_true, true_and]
  split
  · exact (State.outGains_raise _ _ _).flag hl
  · exact hl

end

/-! ## The frame that an output shows -/

/-- From `s₀` to `s` only what the start of a frame in a Side can change has changed. -/
abbrev State.Starts (s₀ s : State) : Prop :=
  s₀.Shifts [] [.XPT_OUT_STAT, .SEAM_EVT, .SEAM_FILL, .EVT_STATUS] [.regs, .fired, .shown, .stores, .txqs] [] s

section
variable (s : State) (sd : Side) (d f : Nat)

theorem State.starts_showFrame (c : LossCause) : s.Starts ((s.closeFrame sd d).showFrame sd d f c) := by
  have h : s.Starts (s.closeFrame sd d) := (s.closes_closeFrame sd d).mono
  exact h.then (State.shifts_shown _ _)

theorem State.starts_startFrame : s.Starts (s.startFrame sd d f) := by
  rw [State.startFrame_eq]
  exact (s.starts_showFrame sd d f _).then (State.tells_tellCause _ _ _ _ _ _).1

theorem State.outGains_startFrame : s.OutGains (s.startFrame sd d f) := by
  rw [State.startFrame_eq]
  refine State.OutGains.trans ?_ (State.tells_tellCause _ _ _ _ _ _).2
  exact (State.outGains_of_shifts (s.closes_closeFrame sd d)).trans (State.outGains_of_shifts (State.shifts_shown _ _))

/-- A start of a frame shows it. -/
theorem State.shown_startFrame : ∃ c, (s.startFrame sd d f).shown = s.shown.set (2 * d + sd.idx) { frame := some f, cause := c } := by
  rw [State.startFrame_eq]
  generalize (s.closeFrame sd d).startCause sd d f (s.routes.at d).src (s.shown.at (2 * d + sd.idx)) = c
  refine ⟨c, ((State.tells_tellCause _ _ _ _ _ _).1.parts .shown (by decide)).trans ?_⟩
  have h : (s.closeFrame sd d).shown = s.shown := (s.closes_closeFrame sd d).parts .shown (by decide)
  rw [State.showFrame, h]

variable {s sd d f}

theorem State.lossCause_of_lost {x : Nat} (hx : x < 1024) (hm : (s.merges.at (2 * x + sd.idx)).lost = true) : s.lossCause sd d x = .lost := by
  unfold State.lossCause
  rw [if_pos hx, if_pos (.inl hm)]

/-- The first frame whose input the merge has lost sets LOST. -/
theorem State.flag_startFrame (hx : (s.routes.at d).src < 1024) (hm : (s.merges.at (2 * (s.routes.at d).src + sd.idx)).lost = true)
    (hc : (s.shown.at (2 * d + sd.idx)).cause = .none) : (s.startFrame sd d f).flag (RS .XPT_OUT_STAT sd d) F.XPT_OUT_STAT_LOST = true := by
  have hmerges : (s.closeFrame sd d).merges = s.merges := (s.closes_closeFrame sd d).parts .merges (by decide)
  have hlost : (s.closeFrame sd d).startCause sd d f (s.routes.at d).src (s.shown.at (2 * d + sd.idx)) = .lost := by
    unfold State.startCause
    rw [State.lossCause_of_lost hx (by rwa [hmerges])]
    rfl
  rw [State.startFrame_eq, hlost]
  exact State.flag_tellCause hc

end

/-- Frame `f` of output `d` is one that the Side has yet to show. -/
def State.frameDue (s : State) (sd : Side) (d : Nat) (f : Int) : Bool :=
  match (s.shown.at (2 * d + sd.idx)).frame with
  | some p => decide ((p : Int) < f)
  | none => decide (0 ≤ f)

/-- The Side's part of OUTPUT_FRAME_START. -/
def State.frameStep (s : State) (sd : Side) (d : Nat) (f : Int) : State :=
  if s.frameDue sd d f then (s.flushOut sd d).startFrame sd d f.toNat else s

/-- What the flows of output `d` do before the frame starts and after it, if a Side shows it. -/
def State.frameDueAny (s : State) (d : Nat) (f : Int) : Bool := (s.routing .A && s.frameDue .A d f) || (s.routing .B && s.frameDue .B d f)

/-- The output's frames start in the Sides. -/
def State.framesStart (s : State) (d : Nat) (f : Int) : State :=
  (if s.frameDueAny d f then s.buildFlows d else s).eachRouting fun sd s => s.frameStep sd d f

theorem execOutputFrameStart_eq (d : Fin 1024) (s : State) : exec (.outputFrameStart d) s =
    .next (if s.frameDueAny d (s.outFrameAt d (s.outs.at d) s.cadTime) then (s.framesStart d (s.outFrameAt d (s.outs.at d) s.cadTime)).openFlows d
      (s.outFrameAt d (s.outs.at d) s.cadTime).toNat else s.framesStart d (s.outFrameAt d (s.outs.at d) s.cadTime)) := rfl

section
variable {s : State} {sd : Side} {d : Nat} {f : Nat}

theorem State.starts_frameStep (s : State) (sd : Side) (d : Nat) (f : Int) : s.Starts (s.frameStep sd d f) := by
  have h : s.Starts (s.flushOut sd d) := (s.shifts_flushOut sd d).mono
  exact .ite (h.then (State.starts_startFrame _ _ _ _)) s.shifts_refl

theorem State.outGains_frameStep (s : State) (sd : Side) (d : Nat) (f : Int) : s.OutGains (s.frameStep sd d f) := by
  unfold State.frameStep
  split
  · exact (State.outGains_of_shifts (s.shifts_flushOut sd d)).trans (State.outGains_startFrame _ _ _ _)
  · exact s.outGains_refl

theorem State.builds_framesStart (s : State) (d : Nat) (f : Int) : s.Builds (if s.frameDueAny d f then s.buildFlows d else s) :=
  .ite (s.builds_buildFlows d) s.shifts_refl

theorem State.shown_frameStep_other (s : State) (sd : Side) (d : Nat) (f : Int) :
    (s.frameStep sd.other d f).shown.at (2 * d + sd.idx) = s.shown.at (2 * d + sd.idx) := by
  have hflush : (s.flushOut sd.other d).shown = s.shown := (s.shifts_flushOut _ d).parts .shown (by decide)
  have hne : 2 * d + sd.idx ≠ 2 * d + sd.other.idx := fun h => Side.idx_other_ne sd (Nat.add_left_cancel h)
  unfold State.frameStep
  split
  · obtain ⟨c, hc⟩ := (s.flushOut sd.other d).shown_startFrame sd.other d f.toNat
    rw [hc, SMap.at_set, if_neg hne, hflush]
  · rfl

/-- The frame has been shown in the Side, and LOST is set where its input is lost for the first time. -/
structure State.Shows (s : State) (sd : Side) (d f : Nat) (t : State) : Prop where
  frame : (t.shown.at (2 * d + sd.idx)).frame = some f
  lost : (s.routes.at d).src < 1024 → (s.merges.at (2 * (s.routes.at d).src + sd.idx)).lost = true → (s.shown.at (2 * d + sd.idx)).cause = .none →
    t.flag (RS .XPT_OUT_STAT sd d) F.XPT_OUT_STAT_LOST = true

/-- Nothing has been shown yet in the Side. -/
structure State.Unshown (s : State) (sd : Side) (d : Nat) (t : State) : Prop where
  shown : t.shown.at (2 * d + sd.idx) = s.shown.at (2 * d + sd.idx)
  routes : t.routes = s.routes
  merges : t.merges = s.merges

theorem State.Unshown.frameStep_other {u : State} (h : s.Unshown sd d u) (f : Int) : s.Unshown sd d (u.frameStep sd.other d f) :=
  ⟨(u.shown_frameStep_other sd d f).trans h.shown, ((u.starts_frameStep _ d f).parts .routes (by decide)).trans h.routes,
    ((u.starts_frameStep _ d f).parts .merges (by decide)).trans h.merges⟩

theorem State.Shows.frameStep_other {u : State} (h : s.Shows sd d f u) (g : Int) : s.Shows sd d f (u.frameStep sd.other d g) :=
  ⟨by rw [State.shown_frameStep_other, h.frame], fun hx hm hc => (u.outGains_frameStep _ d g).flag (h.lost hx hm hc)⟩

theorem State.Unshown.frameStep {u : State} (h : s.Unshown sd d u) (hp : ∀ p, (s.shown.at (2 * d + sd.idx)).frame = some p → p < f) :
    s.Shows sd d f (u.frameStep sd d f) := by
  have hdue : u.frameDue sd d f = true := by
    unfold State.frameDue
    rw [h.shown]
    split
    · next p e => simpa using hp p e
    · simp
  have hflush := u.shifts_flushOut sd d
  have hsh : (u.flushOut sd d).shown = u.shown := hflush.parts .shown (by decide)
  have hr : (u.flushOut sd d).routes = u.routes := hflush.parts .routes (by decide)
  have hm : (u.flushOut sd d).merges = u.merges := hflush.parts .merges (by decide)
  rw [State.frameStep, if_pos hdue, Int.toNat_natCast]
  refine ⟨?_, fun hx hl hc => State.flag_startFrame ?_ ?_ ?_⟩
  · obtain ⟨c, e⟩ := (u.flushOut sd d).shown_startFrame sd d f
    rw [e, SMap.at_set, if_pos rfl]
  · rwa [hr, h.routes]
  · rwa [hr, hm, h.routes, h.merges]
  · rwa [hsh, h.shown]

/-- In every Side whose crosspoint works and that has yet to show the frame it is shown. -/
theorem State.shows_framesStart (hr : s.routing sd = true) (hp : ∀ p, (s.shown.at (2 * d + sd.idx)).frame = some p → p < f) :
    s.Shows sd d f (s.framesStart d f) := by
  have hb := s.builds_framesStart d f
  refine State.eachRouting_at (P := s.Unshown sd d) (Q := s.Shows sd d f) ((hb.routing_eq (by decide) (by decide) sd).trans hr) (fun x u => ?_)
    ⟨congrArg (SMap.at · _) (hb.parts .shown (by decide)), hb.parts .routes (by decide), hb.parts .merges (by decide)⟩
    (fun u h => h.frameStep_other f) (fun u h => h.frameStep hp) fun u h => h.frameStep_other f
  exact (u.starts_frameStep x d f).routing_eq (by decide) (by decide) sd

/-- From `s₀` to `s` only what OUTPUT_FRAME_START can change has changed. -/
abbrev State.FramesStart (s₀ s : State) : Prop :=
  s₀.Shifts [] [.XPT_OUT_STAT, .SEAM_EVT, .SEAM_FILL, .EVT_STATUS] [.regs, .fired, .shown, .stores, .txqs, .txFlows, .txBufs] [] s

theorem State.starts_framesStart (s : State) (d : Nat) (f : Int) : s.FramesStart (s.framesStart d f) := by
  have h : s.FramesStart (if s.frameDueAny d f then s.buildFlows d else s) := (s.builds_framesStart d f).mono
  exact h.eachRouting fun _ _ h => h.then (State.starts_frameStep _ _ _ _)

end

/-! ## Offsets -/

/-- The timing of an output whose next offset `v` has come into force. -/
abbrev OutTiming.shifted (o : OutTiming) (v : Int) (rest : List (Int × Nat)) : OutTiming := { o with offset := v, retimed := none, offsets := rest }

/-- The offset of output `d` comes into force at `j`. -/
def State.offsetStep (s : State) (d : Nat) (o : OutTiming) (j : Int) : State :=
  let t := if o.x ≠ (s.outs.at d).x then s.jumpTo d o j else { s with outs := s.outs.set d o }
  if o.x ≠ (s.outs.at d).x then t.outEvt d F.XPT_OUT_STAT_OFFSET_STEP else t

/-- What the end of a retiming adds. -/
def State.retimingEnds (s : State) (d : Nat) (was : Bool) (moved : Prop) [Decidable moved] : State :=
  let s := if was then s.seamEvt d F.SEAM_EVT_RETIME else s
  if moved ∧ was then s.outEvt d F.XPT_OUT_STAT_TIMING_BREAK else s

section
variable {s : State} {d : Fin 1024} {v : Int} {n : Nat} {rest : List (Int × Nat)} (ho : (s.outs.at d).offsets = (v, n) :: rest)
include ho

theorem execOffsetJump_of_early (hj : s.cadTime < s.jumpPoint d ((s.outs.at d).shifted v rest) n) : exec (.offsetJump d) s = .next s := by
  have e : exec (.offsetJump d) s = execOffsetJump d s := rfl
  rw [e, execOffsetJump]
  dsimp only
  rw [ho]
  exact if_neg (not_le.mpr hj)

theorem execOffsetJump_of_due (hj : s.jumpPoint d ((s.outs.at d).shifted v rest) n ≤ s.cadTime) : exec (.offsetJump d) s =
    .next ((s.offsetStep d ((s.outs.at d).shifted v rest) (s.jumpPoint d ((s.outs.at d).shifted v rest) n)).retimingEnds d (s.outs.at d).retimed.isSome
      (((s.outs.at d).shifted v rest).x ≠ (s.outs.at d).x)) := by
  have e : exec (.offsetJump d) s = execOffsetJump d s := rfl
  rw [e, execOffsetJump]
  dsimp only
  rw [ho]
  exact if_pos hj

end

/-- From `s₀` to `s` only what an offset that comes into force can change has changed. -/
abbrev State.Offsets (s₀ s : State) : Prop := s₀.Shifts [] [.XPT_OUT_STAT, .SEAM_EVT, .EVT_STATUS] [.regs, .fired, .outs, .takes, .shown] [] s

section
variable (s : State) (d : Nat) (o : OutTiming) (j : Int)

theorem State.shifts_retimingEnds (was : Bool) (moved : Prop) [Decidable moved] :
    s.Shifts [] [.XPT_OUT_STAT, .SEAM_EVT, .EVT_STATUS] [.regs, .fired] [] (s.retimingEnds d was moved) ∧ s.OutGains (s.retimingEnds d was moved) := by
  unfold State.retimingEnds
  extract_lets s₁
  have h₁ : s.Shifts [] [.SEAM_EVT, .EVT_STATUS] [.regs, .fired] [] s₁ := .ite (s.events_seamEvt _ _) s.shifts_refl
  clear_value s₁
  have h : s.Shifts [] [.XPT_OUT_STAT, .SEAM_EVT, .EVT_STATUS] [.regs, .fired] [] s₁ := h₁.mono
  split
  · exact ⟨h.then (s₁.events_outEvt _ _), (State.outGains_of_shifts h₁).trans (s₁.outGains_outEvt _ _)⟩
  · exact ⟨h, State.outGains_of_shifts h₁⟩

theorem State.offsetStep_of_moves (h : o.x ≠ (s.outs.at d).x) : s.offsetStep d o j = (s.jumpTo d o j).outEvt d F.XPT_OUT_STAT_OFFSET_STEP := by
  simp only [State.offsetStep, if_pos h]

theorem State.offsetStep_of_stays (h : ¬o.x ≠ (s.outs.at d).x) : s.offsetStep d o j = { s with outs := s.outs.set d o } := by
  simp only [State.offsetStep, if_neg h]

theorem State.outs_jumpTo : ∃ k, (s.jumpTo d o j).outs = s.outs.set d { o with shift := k } := by
  have h : (s.endFrame d (s.outFrameAt d (s.outs.at d) (j - 1)) j).outs = s.outs := (State.shifts_endFrame _ _ _ _).parts .outs (by decide)
  refine ⟨((s.endFrame d (s.outFrameAt d (s.outs.at d) (j - 1)) j).renumber d (s.outs.at d) o j).shift, ?_⟩
  rw [State.jumpTo, h]
  rfl

/-- The timing that an output has once its offset has come into force, up to the numbering of its frames. -/
theorem State.outs_offsetStep : ∃ k, (s.offsetStep d o j).outs = s.outs.set d { o with shift := k } := by
  by_cases h : o.x ≠ (s.outs.at d).x
  · rw [State.offsetStep_of_moves _ _ _ _ h]
    obtain ⟨k, hk⟩ := s.outs_jumpTo d o j
    exact ⟨k, ((State.events_outEvt _ _ _).parts .outs (by decide)).trans hk⟩
  · exact ⟨o.shift, by rw [State.offsetStep_of_stays _ _ _ _ h]⟩

theorem State.takesOf_offsetStep : s.TakesOf d (s.offsetStep d o j) := by
  by_cases h : o.x ≠ (s.outs.at d).x
  · rw [State.offsetStep_of_moves _ _ _ _ h]
    exact (s.takesOf_jumpTo d o j).trans (State.takesOf_of_eq ((State.events_outEvt _ _ _).parts .takes (by decide)))
  · rw [State.offsetStep_of_stays _ _ _ _ h]
    exact State.takesOf_of_eq rfl

theorem State.shifts_offsetStep : s.Offsets (s.offsetStep d o j) := by
  by_cases h : o.x ≠ (s.outs.at d).x
  · rw [State.offsetStep_of_moves _ _ _ _ h]
    have hj : s.Offsets (s.jumpTo d o j) := (s.shifts_jumpTo d o j).mono
    exact hj.then (State.events_outEvt _ _ _)
  · rw [State.offsetStep_of_stays _ _ _ _ h]
    exact (s.shifts_outs _).mono

theorem State.flag_offsetStep {sd : Side} (hl : s.live sd = true) (hd : d < 1024) (h : o.x ≠ (s.outs.at d).x) :
    (s.offsetStep d o j).flag (RS .XPT_OUT_STAT sd d) F.XPT_OUT_STAT_OFFSET_STEP = true := by
  rw [State.offsetStep_of_moves _ _ _ _ h]
  exact State.flag_outEvt (((s.shifts_jumpTo d o j).live_eq (by decide) (by decide) sd).trans hl) hd 6

end

end Sys2Proof.Machine
end


section
/-! # Capture taps (O14) -/
namespace Sys2Proof.Machine
set_option Elab.async false

/-! ## Words of a byte memory -/

/-- A word that is written is read back. -/
theorem memWord_memPutWord (m : List Host.Cell) (a : Nat) (w : W32) : memWord (memPutWord m a w) a = w := by
  have hw := w.isLt
  simp only [memWord, memPutWord, memByte_memPut, if_true, Nat.left_eq_add, Nat.add_right_inj, Nat.reduceEqDiff, OfNat.ofNat_ne_zero, if_false,
    BitVec.extractLsb'_toNat, Nat.shiftRight_eq_div_pow, one_ne_zero]
  refine BitVec.eq_of_toNat_eq ?_
  simp only [w32, BitVec.toNat_ofNat]
  omega

/-- A write of words elsewhere leaves a word as it was. -/
theorem memWord_memPutWords_of_outside (m : List Host.Cell) (a a' : Nat) (ws : List W32) (h : a' + 4 ≤ a ∨ a + 4 * ws.length ≤ a') :
    memWord (memPutWords m a ws) a' = memWord m a' := by
  unfold memWord
  rw [memByte_memPutWords_of_outside _ _ _ _ (by omega), memByte_memPutWords_of_outside _ _ _ _ (by omega),
    memByte_memPutWords_of_outside _ _ _ _ (by omega), memByte_memPutWords_of_outside _ _ _ _ (by omega)]

/-- Words that are written one after another are read back. -/
theorem memWord_memPutWords (m : List Host.Cell) (a : Nat) (ws : List W32) (i : Nat) (hi : i < ws.length) :
    memWord (memPutWords m a ws) (a + 4 * i) = ws.getD i 0 := by
  induction ws generalizing m a i with
  | nil => exact absurd hi (Nat.not_lt_zero i)
  | cons w ws ih =>
    rw [memPutWords]
    cases i with
    | zero =>
      rw [memWord_memPutWords_of_outside _ _ _ _ (by omega)]
      exact memWord_memPutWord m a w
    | succ i =>
      have e : a + 4 * (i + 1) = a + 4 + 4 * i := by omega
      rw [e, ih _ _ i (by simpa using hi)]
      rfl

/-! ## A frame in the ring -/

/-- From `s₀` to `s` only what the capture taps can change has changed. -/
abbrev State.Captures (s₀ s : State) : Prop :=
  s₀.Shifts [] [.XPT_CAP_STAT, .EVT_STATUS] [.regs, .fired, .feeds, .captures, .hbmA, .hbmB] [] s

/-- The status of a tap after a frame that is stored. -/
def State.frameNoted (s : State) (k : RegKey) (tag n : Nat) (done : Prop) [Decidable done] : State :=
  let s := (s.setF k F.XPT_CAP_STAT_TAG tag).setF k F.XPT_CAP_STAT_INDEX n
  if done then s.setF k F.XPT_CAP_STAT_DONE 1 else s

/-- The four-word header of a frame and its words. -/
def capWords (code tag : Nat) (fr : Int) (ws : List W32) : List W32 :=
  [w32 ws.length, w32 (fr.toNat % 2 ^ 32), w32 (code % 16384 * 2 ^ 18 + tag % 256 * 2 ^ 10), 0] ++ ws

/-- A tap's ring is as `c` says. -/
def State.setCapture (s : State) (sd : Side) (p : Nat) (c : Capture) : State := { s with captures := s.captures.set (2 * p + sd.idx) c }

/-- A frame's words are in the ring from byte `a` on, and the tap's status tells it. -/
def State.framed (s : State) (sd : Side) (p a tag n : Nat) (ws : List W32) (done : Prop) [Decidable done] : State :=
  (s.setHbm sd (memPutWords (s.hbm sd) a ws)).frameNoted (RS .XPT_CAP_STAT sd p) tag n done

section
variable (s : State) (sd : Side) (p code tag : Nat) (fr : Int) (ws : List W32)

theorem State.captureFrame_of_done (h : s.flag (RS .XPT_CAP_STAT sd p) F.XPT_CAP_STAT_DONE = true) : s.captureFrame sd p code tag fr ws = s := if_pos h

/-- A frame that would pass the end of the ring. -/
theorem State.captureFrame_of_over (h : s.flag (RS .XPT_CAP_STAT sd p) F.XPT_CAP_STAT_DONE = false)
    (ho : 0x10000000 < (s.captures.at (2 * p + sd.idx)).next + 4 * (4 + ws.length)) :
    ∃ c, s.captureFrame sd p code tag fr ws = (s.setCapture sd p c).raise (RS .XPT_CAP_STAT sd p) F.XPT_CAP_STAT_OVER := by
  unfold State.captureFrame
  dsimp only
  rw [if_neg (Bool.eq_false_iff.mp h), if_pos ho]
  exact ⟨_, rfl⟩

/-- A frame that fits. -/
theorem State.captureFrame_of_fits (h : s.flag (RS .XPT_CAP_STAT sd p) F.XPT_CAP_STAT_DONE = false)
    (ho : ¬0x10000000 < (s.captures.at (2 * p + sd.idx)).next + 4 * (4 + ws.length)) :
    ∃ (c : Capture) (n : Nat) (done : Prop) (_ : Decidable done), s.captureFrame sd p code tag fr ws =
      (s.framed sd p (capBase p + (s.captures.at (2 * p + sd.idx)).next) tag n (capWords code tag fr ws) done).setCapture sd p c := by
  unfold State.captureFrame
  dsimp only
  rw [if_neg (Bool.eq_false_iff.mp h), if_neg ho]
  exact ⟨_, _, _, _, rfl⟩

end

/-! ## The two Sides of a tap -/

section
variable {s₀ s t u : State} {p : Nat} {sd : Side}

/-- Where no HBM moves, each Side's stands. -/
theorem State.Shifts.hbm_eq {ns : List RegName} {ps : List Part} {fs : List Fld} (h : s.Shifts [] ns ps fs t) (ha : .hbmA ∉ ps := by decide)
    (hb : .hbmB ∉ ps := by decide) (sd : Side) : t.hbm sd = s.hbm sd := by
  have hA := h.parts .hbmA ha
  have hB := h.parts .hbmB hb
  cases sd
  · exact hA
  · exact hB

theorem State.hbm_setHbm (s : State) (sd : Side) (m : List Host.Cell) : (s.setHbm sd m).hbm sd = m := by cases sd <;> rfl

theorem State.hbm_other_setHbm (s : State) (sd : Side) (m : List Host.Cell) : (s.setHbm sd.other m).hbm sd = s.hbm sd := by cases sd <;> rfl

theorem State.captures_setHbm (s : State) (sd : Side) (m : List Host.Cell) : s.Captures (s.setHbm sd m) := by
  cases sd
  · exact s.shifts_refl.alter
  · exact s.shifts_refl.alter

theorem State.captures_setCapture (s : State) (sd : Side) (p : Nat) (c : Capture) : s.Captures (s.setCapture sd p c) := s.shifts_refl.alter

theorem State.shifts_frameNoted (s : State) (sd : Side) (p tag n : Nat) (done : Prop) [Decidable done] :
    s.Shifts [] [.XPT_CAP_STAT] [.regs] [] (s.frameNoted (RS .XPT_CAP_STAT sd p) tag n done) :=
  s.shifts_refl.setF.setF.branch (·.setF) id

theorem State.rd_frameNoted_of_ne {k k' : RegKey} (hk : k' ≠ k) (s : State) (tag n : Nat) (done : Prop) [Decidable done] :
    (s.frameNoted k tag n done).rd k' = s.rd k' := by
  unfold State.frameNoted
  dsimp only
  split
  · rw [State.rd_setF_ne _ hk, State.rd_setF_ne _ hk, State.rd_setF_ne _ hk]
  · rw [State.rd_setF_ne _ hk, State.rd_setF_ne _ hk]

theorem State.tag_frameNoted (s : State) (k : RegKey) (tag n : Nat) (done : Prop) [Decidable done] :
    (s.frameNoted k tag n done).fld k F.XPT_CAP_STAT_TAG = tag % 256 := by
  have h : ((s.setF k F.XPT_CAP_STAT_TAG tag).setF k F.XPT_CAP_STAT_INDEX n).fld k F.XPT_CAP_STAT_TAG = tag % 256 :=
    (State.fld_setF_of_apart _ _ _ (by decide)).trans (State.fld_setF_self _ _ _ _ (by decide))
  unfold State.frameNoted
  dsimp only
  split
  · exact (State.fld_setF_of_apart _ _ _ (by decide)).trans h
  · exact h

theorem State.captures_framed (s : State) (sd : Side) (p a tag n : Nat) (ws : List W32) (done : Prop) [Decidable done] :
    s.Captures (s.framed sd p a tag n ws done) := (s.captures_setHbm sd _).then (State.shifts_frameNoted _ _ _ _ _ _)

/-- Nothing that the tap has in Side `sd` differs from `s` to `t`. -/
structure State.CapLike (p : Nat) (sd : Side) (s t : State) : Prop where
  frame : s.Captures t
  feed : t.feeds.at (2 * (1280 + p) + sd.idx) = s.feeds.at (2 * (1280 + p) + sd.idx)
  ring : t.captures.at (2 * p + sd.idx) = s.captures.at (2 * p + sd.idx)
  hbm : t.hbm sd = s.hbm sd
  regs : ∀ k, k.bank = sd.idx → k.name ≠ .EVT_STATUS → t.rd k = s.rd k

theorem State.capLike_refl (s : State) : s.CapLike p sd s := ⟨s.shifts_refl, rfl, rfl, rfl, fun _ _ _ => rfl⟩

theorem State.CapLike.trans (h : s₀.CapLike p sd s) (h' : s.CapLike p sd t) : s₀.CapLike p sd t :=
  ⟨h.frame.then h'.frame, h'.feed.trans h.feed, h'.ring.trans h.ring, h'.hbm.trans h.hbm, fun k hk he => (h'.regs k hk he).trans (h.regs k hk he)⟩

theorem State.capLike_setCapture (s : State) (c : Capture) : s.CapLike p sd (s.setCapture sd.other p c) := by
  have hne : 2 * p + sd.idx ≠ 2 * p + sd.other.idx := fun h => Side.idx_other_ne sd (Nat.add_left_cancel h)
  refine ⟨s.captures_setCapture _ _ _, rfl, ?_, ?_, fun _ _ _ => rfl⟩
  · exact (SMap.at_set _ _ _ _).trans (if_neg hne)
  · cases sd <;> rfl

theorem State.capLike_setFeed (s : State) (l : List Fed) : s.CapLike p sd { s with feeds := s.feeds.set (2 * (1280 + p) + sd.other.idx) l } := by
  have hne : 2 * (1280 + p) + sd.idx ≠ 2 * (1280 + p) + sd.other.idx := fun h => Side.idx_other_ne sd (Nat.add_left_cancel h)
  refine ⟨s.shifts_refl.alter, ?_, rfl, ?_, fun _ _ _ => rfl⟩
  · exact (SMap.at_set _ _ _ _).trans (if_neg hne)
  · cases sd <;> rfl

/-- A tap's status in the other Side. -/
theorem State.ne_of_other_bank {k : RegKey} (hk : k.bank = sd.idx) (n : RegName) (p : Nat) : k ≠ RS n sd.other p :=
  RegKey.ne_of_bank (hk ▸ Side.idx_other_ne sd)

theorem State.capLike_raise (s : State) (f : Fld) : s.CapLike p sd (s.raise (RS .XPT_CAP_STAT sd.other p) f) := by
  have h : s.Shifts [] [.XPT_CAP_STAT, .EVT_STATUS] [.regs, .fired] [] (s.raise (RS .XPT_CAP_STAT sd.other p) f) := s.shifts_refl.raise
  refine ⟨h.mono, congrArg (SMap.at · _) (h.parts .feeds (by decide)), congrArg (SMap.at · _) (h.parts .captures (by decide)),
    h.hbm_eq (by decide) (by decide) sd, fun k hk he => ?_⟩
  rw [State.rd_raise _ _ _ _ he, if_neg (State.ne_of_other_bank hk _ _)]

theorem State.capLike_framed (s : State) (a tag n : Nat) (ws : List W32) (done : Prop) [Decidable done] :
    s.CapLike p sd (s.framed sd.other p a tag n ws done) := by
  have hp := State.shifts_frameNoted (s.setHbm sd.other (memPutWords (s.hbm sd.other) a ws)) sd.other p tag n done
  have hset : (s.setHbm sd.other (memPutWords (s.hbm sd.other) a ws)).feeds = s.feeds ∧
      (s.setHbm sd.other (memPutWords (s.hbm sd.other) a ws)).captures = s.captures := by cases sd <;> exact ⟨rfl, rfl⟩
  refine ⟨s.captures_framed _ _ _ _ _ _ _, congrArg (SMap.at · _) ((hp.parts .feeds (by decide)).trans hset.1),
    congrArg (SMap.at · _) ((hp.parts .captures (by decide)).trans hset.2),
    (hp.hbm_eq (by decide) (by decide) sd).trans (s.hbm_other_setHbm sd _), fun k hk he => ?_⟩
  · refine (State.rd_frameNoted_of_ne (State.ne_of_other_bank hk _ _) _ _ _ _).trans ?_
    cases sd <;> rfl

theorem State.capLike_captureFrame (s : State) (code tag : Nat) (fr : Int) (ws : List W32) :
    s.CapLike p sd (s.captureFrame sd.other p code tag fr ws) := by
  cases hd : s.flag (RS .XPT_CAP_STAT sd.other p) F.XPT_CAP_STAT_DONE with
  | true => exact (s.captureFrame_of_done sd.other p code tag fr ws hd).symm ▸ s.capLike_refl
  | false =>
    by_cases ho : 0x10000000 < (s.captures.at (2 * p + sd.other.idx)).next + 4 * (4 + ws.length)
    · obtain ⟨c, e⟩ := s.captureFrame_of_over sd.other p code tag fr ws hd ho
      exact e ▸ (s.capLike_setCapture c).trans (State.capLike_raise _ _)
    · obtain ⟨c, n, done, _, e⟩ := s.captureFrame_of_fits sd.other p code tag fr ws hd ho
      exact e ▸ (s.capLike_framed _ _ _ _ _).trans (State.capLike_setCapture _ _)

/-- What the other Side does with its copy of the tap. -/
theorem State.capLike_captureStep (s : State) : s.CapLike p sd (s.captureStep sd.other p) := by
  unfold State.captureStep
  dsimp only
  split
  · split
    · exact (s.capLike_setFeed _).trans (State.capLike_captureFrame _ _ _ _ _)
    · exact s.capLike_setFeed _
  · split
    · split
      · exact s.capLike_refl
      · split
        · exact (s.capLike_setCapture _).trans (State.capLike_captureFrame _ _ _ _ _)
        · exact s.capLike_setCapture _
    · exact s.capLike_refl

theorem State.captures_captureStep (s : State) (sd : Side) (p : Nat) : s.Captures (s.captureStep sd p) := by
  have e : sd.other.other = sd := by cases sd <;> rfl
  exact e ▸ (s.capLike_captureStep (p := p) (sd := sd.other)).frame

/-! ## The frame that has reached a tap -/

/-- The state in which the frame has left the tap's feed. -/
def State.setFeed (s : State) (sd : Side) (p : Nat) (rest : List Fed) : State := { s with feeds := s.feeds.set (2 * (1280 + p) + sd.idx) rest }

section
variable {h e : Fed} {ws : List W32} {rest : List Fed}
  (hf : frameOut ((s.feeds.at (2 * (1280 + p) + sd.idx)).length + 1) (s.feeds.at (2 * (1280 + p) + sd.idx)) = some (h, e, ws, rest))
include hf

theorem State.captureStep_of_frame : s.captureStep sd p =
    if s.feedCarries (1280 + p) h.src h.blk.sofAt (e.blk.stamp * tickU : Nat) && s.captures_ sd p h.blk.sofAt then
      (s.setFeed sd p rest).captureFrame sd p (codeOf ws) h.blk.tag (s.cadFrameAt (s.routes.at (1280 + p)).cad h.blk.sofAt) ws
    else s.setFeed sd p rest := by
  unfold State.captureStep
  dsimp only
  rw [hf]
  rfl

end

/-- A frame that fits is in the ring, with its header before it, and the tap's status tells its tag. -/
theorem State.captureFrame_stores {code tag : Nat} {fr : Int} {ws : List W32} (hd : s.flag (RS .XPT_CAP_STAT sd p) F.XPT_CAP_STAT_DONE = false)
    (ho : (s.captures.at (2 * p + sd.idx)).next + 16 + 4 * ws.length ≤ 0x10000000) :
    (s.captureFrame sd p code tag fr ws).hbm sd = memPutWords (s.hbm sd) (capBase p + (s.captures.at (2 * p + sd.idx)).next) (capWords code tag fr ws) ∧
      (s.captureFrame sd p code tag fr ws).fld (RS .XPT_CAP_STAT sd p) F.XPT_CAP_STAT_TAG = tag % 256 ∧
      (s.captureFrame sd p code tag fr ws).feeds = s.feeds := by
  obtain ⟨c, n, done, _, e⟩ := s.captureFrame_of_fits sd p code tag fr ws hd (by omega)
  rw [e]
  have hp := State.shifts_frameNoted (s.setHbm sd (memPutWords (s.hbm sd) (capBase p + (s.captures.at (2 * p + sd.idx)).next) (capWords code tag fr ws)))
    sd p tag n done
  refine ⟨?_, State.tag_frameNoted _ _ _ _ _, (hp.parts .feeds (by decide)).trans ?_⟩
  · refine Eq.trans ?_ ((hp.hbm_eq (by decide) (by decide) sd).trans (s.hbm_setHbm sd _))
    cases sd <;> rfl
  · cases sd <;> rfl

/-- A frame that would pass the end of the ring is not stored. -/
theorem State.captureFrame_passes {code tag : Nat} {fr : Int} {ws : List W32} (hd : s.flag (RS .XPT_CAP_STAT sd p) F.XPT_CAP_STAT_DONE = false)
    (ho : 0x10000000 < (s.captures.at (2 * p + sd.idx)).next + 16 + 4 * ws.length) :
    (s.captureFrame sd p code tag fr ws).flag (RS .XPT_CAP_STAT sd p) F.XPT_CAP_STAT_OVER = true ∧
      (s.captureFrame sd p code tag fr ws).hbm sd = s.hbm sd := by
  obtain ⟨c, e⟩ := s.captureFrame_of_over sd p code tag fr ws hd (by omega)
  rw [e]
  have h : (s.setCapture sd p c).Shifts [] [.XPT_CAP_STAT, .EVT_STATUS] [.regs, .fired] []
    ((s.setCapture sd p c).raise (RS .XPT_CAP_STAT sd p) F.XPT_CAP_STAT_OVER) := (State.shifts_refl _).raise
  refine ⟨State.flag_raise _ _ 12 (by decide) (by simp), (h.hbm_eq (by decide) (by decide) sd).trans ?_⟩
  cases sd <;> rfl

theorem State.feeds_captureFrame (s : State) (sd : Side) (p code tag : Nat) (fr : Int) (ws : List W32) :
    (s.captureFrame sd p code tag fr ws).feeds = s.feeds := by
  cases hd : s.flag (RS .XPT_CAP_STAT sd p) F.XPT_CAP_STAT_DONE with
  | true => rw [s.captureFrame_of_done sd p code tag fr ws hd]
  | false =>
    by_cases ho : 0x10000000 < (s.captures.at (2 * p + sd.idx)).next + 4 * (4 + ws.length)
    · obtain ⟨c, e⟩ := s.captureFrame_of_over sd p code tag fr ws hd ho
      have h : (s.setCapture sd p c).Shifts [] [.XPT_CAP_STAT, .EVT_STATUS] [.regs, .fired] []
        ((s.setCapture sd p c).raise (RS .XPT_CAP_STAT sd p) F.XPT_CAP_STAT_OVER) := (State.shifts_refl _).raise
      exact e ▸ h.parts .feeds (by decide)
    · exact (State.captureFrame_stores hd (by omega)).2.2

/-- What a tap does in a Side whose crosspoint works, seen after both Sides' parts: `u` is the state before its own. -/
theorem State.captures_eachRouting (hr : s.routing sd = true) :
    ∃ u, s.CapLike p sd u ∧ (u.captureStep sd p).CapLike p sd (s.eachRouting fun sd s => s.captureStep sd p) :=
  State.eachRouting_at (P := s.CapLike p sd) (Q := fun t => ∃ u, s.CapLike p sd u ∧ (u.captureStep sd p).CapLike p sd t) hr
    (fun x u => (u.captures_captureStep x p).routing_eq (by decide) (by decide) sd) s.capLike_refl (fun _ h => h.trans (State.capLike_captureStep _))
    (fun u h => ⟨u, h, State.capLike_refl _⟩) fun _ ⟨u, hu, ht⟩ => ⟨u, hu, ht.trans (State.capLike_captureStep _)⟩

theorem State.captures_execCaptureFrame (s : State) (p : Nat) : s.Captures (s.eachRouting fun sd s => s.captureStep sd p) :=
  s.shifts_refl.eachRouting fun sd u h => h.then (u.captures_captureStep sd p)

/-- The tap's source and its counter, and whether it captures, are what they were. -/
theorem State.CapLike.captures_eq (hu : s.CapLike p sd u) (x : Nat) (a e : Int) :
    u.feedCarries (1280 + p) x a e = s.feedCarries (1280 + p) x a e ∧ u.captures_ sd p a = s.captures_ sd p a ∧
      u.cadFrameAt (u.routes.at (1280 + p)).cad a = s.cadFrameAt (s.routes.at (1280 + p)).cad a := by
  have ht : s.SameTiming u := hu.frame.sameTiming
  have hroutes : u.routes = s.routes := hu.frame.parts .routes (by decide)
  have htwins : u.twins = s.twins := hu.frame.parts .twins (by decide)
  refine ⟨?_, ?_, ?_⟩
  · simp only [State.feedCarries, State.feedSwitch, hroutes, ht.cadStart]
  · simp only [State.captures_, hu.ring, State.twin, htwins]
  · rw [hroutes, ht.cadFrameAt]

end

end Sys2Proof.Machine
end


section
/-! # The write of a tap's configuration (O14) -/
namespace Sys2Proof.Machine
set_option Elab.async false

/-! ## The write of a tap's configuration -/

section
variable (s : State) (p : Nat) (v : W32)

theorem State.shifts_twins (x : List (RegKey × W32)) : s.Shifts [] [] [.twins] [] { s with twins := x } := s.shifts_refl.alter

theorem State.shifts_deliverCapCfg : s.Shifts [] [.XPT_CAP_CFG] [.regs, .twins] [] (s.deliver (R1 .XPT_CAP_CFG p) v) := by
  rw [State.deliver_eq]
  refine State.Shifts.eachSide ?_ fun sd u h => h.wr
  exact s.shifts_refl.alter

/-- A tap's ring begins anew in a Side. -/
def State.restartTap (s : State) (sd : Side) (p : Nat) : State :=
  { s with captures := s.captures.upd (2 * p + sd.idx) fun c => { onAt := s.tick, seen := c.seen } }.setF (RS .XPT_CAP_STAT sd p) F.XPT_CAP_STAT_DONE 0

theorem State.capCfgDelivered_of_rise (h0 : bitOf (s.twin .XPT_CAP_CFG p) 12 = false) (h1 : bitOf v 12 = true) :
    s.capCfgDelivered p v = (s.deliver (R1 .XPT_CAP_CFG p) v).eachSide fun sd s => s.restartTap sd p :=
  if_pos ⟨by rw [h0]; rfl, h1⟩

theorem State.shifts_restartTap (sd : Side) : s.Shifts [] [.XPT_CAP_STAT] [.regs, .captures] [] (s.restartTap sd p) := by
  unfold State.restartTap
  refine State.Shifts.setF ?_
  exact s.shifts_refl.alter

end

/-- The tap's ring begins anew in Side `sd`: what was seen of its generator stands. -/
structure State.Restarted (s : State) (p : Nat) (sd : Side) (t : State) : Prop where
  ring : t.captures.at (2 * p + sd.idx) = { onAt := s.tick, seen := (s.captures.at (2 * p + sd.idx)).seen }
  done : t.flag (RS .XPT_CAP_STAT sd p) F.XPT_CAP_STAT_DONE = false

section
variable {s : State} {p : Nat} {sd : Side}

theorem State.captures_restartTap (s : State) (sd : Side) (p ix : Nat) : (s.restartTap sd p).captures.at ix =
    if ix = 2 * p + sd.idx then { onAt := s.tick, seen := (s.captures.at (2 * p + sd.idx)).seen } else s.captures.at ix := by
  have h : (s.restartTap sd p).captures = s.captures.upd (2 * p + sd.idx) fun c => { onAt := s.tick, seen := c.seen } := State.setF_captures ..
  rw [h, SMap.at_upd]

theorem State.restarted_eachSide (hl : s.live sd = true) : s.Restarted p sd (s.eachSide fun sd s => s.restartTap sd p) := by
  have hne : 2 * p + sd.idx ≠ 2 * p + sd.other.idx := fun h => Side.idx_other_ne sd (Nat.add_left_cancel h)
  refine State.eachSide_at (P := fun u => u.captures.at (2 * p + sd.idx) = s.captures.at (2 * p + sd.idx) ∧ u.tick = s.tick) (Q := s.Restarted p sd) hl
    (fun x u => (u.shifts_restartTap p x).live_eq (by decide) (by decide) sd) ⟨rfl, rfl⟩ (fun u h => ⟨?_, ?_⟩) (fun u h => ⟨?_, ?_⟩) fun u h => ⟨?_, ?_⟩
  · rw [State.captures_restartTap, if_neg hne, h.1]
  · exact ((u.shifts_restartTap p _).parts .tick (by decide)).trans h.2
  · rw [State.captures_restartTap, if_pos rfl, h.1, h.2]
  · rw [State.flag, State.restartTap, State.fld_setF_self _ _ _ _ (by decide)]
    rfl
  · rw [State.captures_restartTap, if_neg hne, h.ring]
  · rw [State.flag, State.restartTap, State.fld_setF_ne _ (State.ne_of_other_bank (sd := sd) rfl _ _)]
    exact h.done

/-- A rise of ENABLE that the tap's holder writes. -/
theorem execCaptureEnable_granted {r : Req} {p : Fin 64} {v : W32} (hg : s.granted r .twin) (hh : s.holdsDest r (1280 + p) = true) :
    exec (.captureEnable r p v) s = .next ((s.twinBeat r).capCfgDelivered p (v &&& 0x1F1F#32)) :=
  congrArg Host.Outcome.next (State.access_of_granted hg hh _ _ _)

theorem bitOf_capMask (v : W32) : bitOf (v &&& 0x1F1F#32) 12 = bitOf v 12 := by
  simp [bitOf]

end

/-! ## The frame in the ring -/

section
variable (m : List Host.Cell) (a code tag : Nat) (fr : Int) (ws : List W32)

/-- What a read of the ring gives once a frame has been stored from byte `a` on. -/
theorem memWord_capWords : memWord (memPutWords m a (capWords code tag fr ws)) a = w32 ws.length ∧
    memWord (memPutWords m a (capWords code tag fr ws)) (a + 4) = w32 (fr.toNat % 2 ^ 32) ∧
    (∀ i, i < ws.length → memWord (memPutWords m a (capWords code tag fr ws)) (a + 16 + 4 * i) = ws.getD i 0) ∧
    ∀ b, b < a ∨ a + 16 + 4 * ws.length ≤ b → memByte (memPutWords m a (capWords code tag fr ws)) b = memByte m b := by
  have hl : (capWords code tag fr ws).length = ws.length + 4 := rfl
  refine ⟨memWord_memPutWords m a _ 0 (by omega), memWord_memPutWords m a _ 1 (by omega), fun i hi => ?_, fun b hb => ?_⟩
  · have e : a + 16 + 4 * i = a + 4 * (i + 4) := by omega
    rw [e, memWord_memPutWords m a _ (i + 4) (by omega)]
    rfl
  · exact memByte_memPutWords_of_outside _ _ _ _ (by omega)

end

section
variable {s u : State} {p : Nat} {sd : Side} {h e : Fed} {ws : List W32} {rest : List Fed} (hu : s.CapLike p sd u)
  (hf : frameOut ((s.feeds.at (2 * (1280 + p) + sd.idx)).length + 1) (s.feeds.at (2 * (1280 + p) + sd.idx)) = some (h, e, ws, rest))
include hu hf

/-- The Side's part in terms of the state before both Sides'. -/
theorem State.CapLike.captureStep : u.captureStep sd p =
    if s.feedCarries (1280 + p) h.src h.blk.sofAt (e.blk.stamp * tickU : Nat) && s.captures_ sd p h.blk.sofAt then
      (u.setFeed sd p rest).captureFrame sd p (codeOf ws) h.blk.tag (s.cadFrameAt (s.routes.at (1280 + p)).cad h.blk.sofAt) ws
    else u.setFeed sd p rest := by
  obtain ⟨hcarries, hcaptures, hcad⟩ := hu.captures_eq h.src h.blk.sofAt (e.blk.stamp * tickU : Nat)
  rw [State.captureStep_of_frame (hu.feed.symm ▸ hf), hcarries, hcaptures, hcad]

theorem State.CapLike.feeds_captureStep : (u.captureStep sd p).feeds.at (2 * (1280 + p) + sd.idx) = rest := by
  have hset : (u.setFeed sd p rest).feeds.at (2 * (1280 + p) + sd.idx) = rest := (SMap.at_set _ _ _ _).trans (if_pos rfl)
  rw [hu.captureStep hf]
  split
  · rw [State.feeds_captureFrame, hset]
  · exact hset

omit hf in
theorem State.CapLike.setFeed : (u.setFeed sd p rest).hbm sd = s.hbm sd ∧
    (u.setFeed sd p rest).captures.at (2 * p + sd.idx) = s.captures.at (2 * p + sd.idx) ∧
    (u.setFeed sd p rest).flag (RS .XPT_CAP_STAT sd p) F.XPT_CAP_STAT_DONE = s.flag (RS .XPT_CAP_STAT sd p) F.XPT_CAP_STAT_DONE := by
  have hh : (u.setFeed sd p rest).hbm sd = u.hbm sd := by cases sd <;> rfl
  have hr : (u.setFeed sd p rest).rd (RS .XPT_CAP_STAT sd p) = s.rd (RS .XPT_CAP_STAT sd p) := hu.regs _ rfl (by simp)
  exact ⟨hh.trans hu.hbm, hu.ring, by rw [State.flag, State.fld, hr, State.flag, State.fld]⟩

theorem State.CapLike.hbm_captureStep (hc : s.feedCarries (1280 + p) h.src h.blk.sofAt (e.blk.stamp * tickU : Nat) = false) :
    (u.captureStep sd p).hbm sd = s.hbm sd := by
  rw [hu.captureStep hf, hc, Bool.false_and, if_neg Bool.false_ne_true]
  exact hu.setFeed.1

end

/-! ## The obligation, clause by clause -/

/-- The frame whose start has come begins in every Side whose crosspoint works. -/
theorem execOutputFrameStart_shows {d : Fin 1024} {f : Nat} {s : State} (hf : s.outFrameAt d (s.outs.at d) s.cadTime = f) :
    ∃ t, exec (.outputFrameStart d) s = .next t ∧
      (∀ sd, s.routing sd = true → (∀ p, (s.shown.at (2 * d + sd.idx)).frame = some p → p < f) → (t.shown.at (2 * d + sd.idx)).frame = some f ∧
        ((s.routes.at d).src < 1024 → (s.merges.at (2 * (s.routes.at d).src + sd.idx)).lost = true → (s.shown.at (2 * d + sd.idx)).cause = .none →
          t.flag (RS .XPT_OUT_STAT sd d) F.XPT_OUT_STAT_LOST = true)) ∧
      s.touches [.XPT_OUT_STAT, .SEAM_EVT, .SEAM_FILL, .EVT_STATUS] [.regs, .fired, .shown, .stores, .txqs, .txFlows, .txBufs] t := by
  have hx := execOutputFrameStart_eq d s
  rw [hf, Int.toNat_natCast] at hx
  have ho (u : State) : u.Builds (if s.frameDueAny d f then u.openFlows d f else u) := .ite (u.builds_openFlows _ _) u.shifts_refl
  have hgain (u : State) : u.OutGains (if s.frameDueAny d f then u.openFlows d f else u) := State.outGains_of_shifts (ho u)
  have hout : exec (.outputFrameStart d) s = .next (if s.frameDueAny d f then (s.framesStart d f).openFlows d f else s.framesStart d f) :=
    hx.trans (congrArg _ (by split <;> rfl))
  refine ⟨_, hout, fun sd hr hp => ?_, ((s.starts_framesStart d f).then (ho _)).touches⟩
  have hs := State.shows_framesStart hr hp
  have hshown := (ho (s.framesStart d f)).parts .shown (by decide)
  exact ⟨(congrArg (fun m : SMap Shown => (m.at (2 * d + sd.idx)).frame) hshown).trans hs.frame, fun hsrc hm hc => (hgain _).flag (hs.lost hsrc hm hc)⟩

/-- An offset whose jump point has come is in force, and no other output's timing or take is changed. -/
theorem execOffsetJump_moves {d : Fin 1024} {v : Int} {n : Nat} {rest : List (Int × Nat)} {s : State} (ho : (s.outs.at d).offsets = (v, n) :: rest)
    (hj : s.jumpPoint d ((s.outs.at d).shifted v rest) n ≤ s.cadTime) :
    ∃ t, exec (.offsetJump d) s = .next t ∧ (t.outs.at d).offset = v ∧ (t.outs.at d).retimed = none ∧ (t.outs.at d).offsets = rest ∧
      ((s.outs.at d).x ≠ wpSixteenths v → ∀ sd, s.live sd = true → t.flag (RS .XPT_OUT_STAT sd d) F.XPT_OUT_STAT_OFFSET_STEP = true) ∧
      (∀ e, e ≠ d.val → t.outs.at e = s.outs.at e ∧ ∀ p ∈ s.takes, p.dest = e → p ∈ t.takes) ∧
      s.touches [.XPT_OUT_STAT, .SEAM_EVT, .EVT_STATUS] [.regs, .fired, .outs, .takes, .shown] t := by
  obtain ⟨k, hk⟩ := s.outs_offsetStep d ((s.outs.at d).shifted v rest) (s.jumpPoint d ((s.outs.at d).shifted v rest) n)
  have hstep := s.shifts_offsetStep d ((s.outs.at d).shifted v rest) (s.jumpPoint d ((s.outs.at d).shifted v rest) n)
  have htakes := s.takesOf_offsetStep d ((s.outs.at d).shifted v rest) (s.jumpPoint d ((s.outs.at d).shifted v rest) n)
  obtain ⟨hend, hgain⟩ := (s.offsetStep d ((s.outs.at d).shifted v rest) (s.jumpPoint d ((s.outs.at d).shifted v rest) n)).shifts_retimingEnds d
    (s.outs.at d).retimed.isSome (((s.outs.at d).shifted v rest).x ≠ (s.outs.at d).x)
  have houts := (hend.parts .outs (by decide)).trans hk
  have htk := hend.parts .takes (by decide)
  have hat := congrArg (SMap.at · d.val) houts
  simp only [SMap.at_set, if_true] at hat
  refine ⟨_, execOffsetJump_of_due ho hj, congrArg OutTiming.offset hat, congrArg OutTiming.retimed hat, congrArg OutTiming.offsets hat,
    fun hne sd hl => hgain.flag (State.flag_offsetStep _ _ _ _ hl d.isLt hne.symm), fun e hne => ⟨?_, fun q hq hqd => ?_⟩, (hstep.then hend).touches⟩
  · rw [houts, SMap.at_set, if_neg hne]
  · rw [htk]
    exact htakes.others q hq (hqd ▸ hne)

section
variable {p : Fin 64} {h e : Fed} {ws : List W32} {rest : List Fed} {sd : Side} {s u t : State} (hu : s.CapLike p sd u)
  (ht : (u.captureStep sd p).CapLike p sd t)
  (hframe : frameOut ((s.feeds.at (2 * (1280 + p) + sd.idx)).length + 1) (s.feeds.at (2 * (1280 + p) + sd.idx)) = some (h, e, ws, rest))
  (hc : s.feedCarries (1280 + p) h.src h.blk.sofAt (e.blk.stamp * tickU : Nat) = true) (hcap : s.captures_ sd p h.blk.sofAt = true)
  (hd : s.flag (RS .XPT_CAP_STAT sd p) F.XPT_CAP_STAT_DONE = false)
include hu ht hframe hc hcap hd

omit ht in
/-- A frame that the tap captures goes through `captureFrame`, with the ring and DONE as they were. -/
theorem State.CapLike.captureStep_of_captured : ∃ w : State,
    u.captureStep sd p = w.captureFrame sd p (codeOf ws) h.blk.tag (s.cadFrameAt (s.routes.at (1280 + p)).cad h.blk.sofAt) ws ∧ w.hbm sd = s.hbm sd ∧
      w.captures.at (2 * p + sd.idx) = s.captures.at (2 * p + sd.idx) ∧ w.flag (RS .XPT_CAP_STAT sd p) F.XPT_CAP_STAT_DONE = false := by
  obtain ⟨hhbm, hring, hdone⟩ := hu.setFeed (rest := rest)
  refine ⟨_, ?_, hhbm, hring, hdone.trans hd⟩
  rw [hu.captureStep hframe, hc, hcap, Bool.and_true, if_pos rfl]

/-- A captured frame that fits stands at the ring position. -/
theorem State.CapLike.stores_frame (hfit : (s.captures.at (2 * p + sd.idx)).next + 16 + 4 * ws.length ≤ 0x10000000) :
    memWord (t.hbm sd) (capBase p + (s.captures.at (2 * p + sd.idx)).next) = w32 ws.length ∧
      memWord (t.hbm sd) (capBase p + (s.captures.at (2 * p + sd.idx)).next + 4) = w32 ((s.cadFrameAt (s.routes.at (1280 + p)).cad h.blk.sofAt).toNat % 2 ^ 32) ∧
      (∀ i, i < ws.length → memWord (t.hbm sd) (capBase p + (s.captures.at (2 * p + sd.idx)).next + 16 + 4 * i) = ws.getD i 0) ∧
      (∀ b, b < capBase p + (s.captures.at (2 * p + sd.idx)).next ∨ capBase p + (s.captures.at (2 * p + sd.idx)).next + 16 + 4 * ws.length ≤ b →
        memByte (t.hbm sd) b = memByte (s.hbm sd) b) ∧
      t.fld (RS .XPT_CAP_STAT sd p) F.XPT_CAP_STAT_TAG = h.blk.tag % 256 := by
  obtain ⟨w, hw, hhbm, hring, hdone⟩ := hu.captureStep_of_captured hframe hc hcap hd
  obtain ⟨hm, htag, -⟩ := State.captureFrame_stores (code := codeOf ws) (tag := h.blk.tag)
    (fr := s.cadFrameAt (s.routes.at (1280 + p)).cad h.blk.sofAt) hdone (by rw [hring]; exact hfit)
  rw [← hw, hhbm, hring] at hm
  obtain ⟨hlen, hfr, hwords, houtside⟩ := memWord_capWords (s.hbm sd) (capBase p + (s.captures.at (2 * p + sd.idx)).next) (codeOf ws) h.blk.tag
    (s.cadFrameAt (s.routes.at (1280 + p)).cad h.blk.sofAt) ws
  rw [ht.hbm, hm]
  refine ⟨hlen, hfr, hwords, houtside, ?_⟩
  rw [State.fld, ht.regs _ rfl (by simp), hw, ← State.fld]
  exact htag

/-- One that would pass the end of the ring sets OVER and is not stored. -/
theorem State.CapLike.passes_frame (hover : 0x10000000 < (s.captures.at (2 * p + sd.idx)).next + 16 + 4 * ws.length) :
    t.flag (RS .XPT_CAP_STAT sd p) F.XPT_CAP_STAT_OVER = true ∧ t.hbm sd = s.hbm sd := by
  obtain ⟨w, hw, hhbm, hring, hdone⟩ := hu.captureStep_of_captured hframe hc hcap hd
  obtain ⟨hflag, hm⟩ := State.captureFrame_passes (code := codeOf ws) (tag := h.blk.tag)
    (fr := s.cadFrameAt (s.routes.at (1280 + p)).cad h.blk.sofAt) hdone (by rw [hring]; exact hover)
  rw [← hw] at hflag hm
  refine ⟨?_, ht.hbm.trans (hm.trans hhbm)⟩
  rw [State.flag, State.fld, ht.regs _ rfl (by simp)]
  exact hflag

end

/-- A 0-to-1 write of ENABLE by the tap's holder restarts the ring and clears DONE. -/
theorem execCaptureEnable_restarts {r : Req} {p : Fin 64} {v : W32} {s : State} (hg : s.granted r .twin) (hh : s.holdsDest r (1280 + p) = true)
    (h0 : bitOf (s.twin .XPT_CAP_CFG p) 12 = false) (h1 : bitOf v 12 = true) :
    ∃ t, exec (.captureEnable r p v) s = .next t ∧ t.twin .XPT_CAP_CFG p = v &&& 0x1F1F#32 ∧
      (∀ sd, s.live sd = true → t.captures.at (2 * p + sd.idx) = { onAt := s.tick, seen := (s.captures.at (2 * p + sd.idx)).seen } ∧
        t.flag (RS .XPT_CAP_STAT sd p) F.XPT_CAP_STAT_DONE = false ∧ t.rd (RS .XPT_CAP_CFG sd p) = v &&& 0x1F1F#32) ∧
      s.touches [.XPT_CAP_CFG, .XPT_CAP_STAT] [.regs, .twins, .captures, .locks] t := by
  have hrise := (s.twinBeat r).capCfgDelivered_of_rise p (v &&& 0x1F1F#32) h0 ((bitOf_capMask v).trans h1)
  have hdel := (s.twinBeat r).shifts_deliverCapCfg p (v &&& 0x1F1F#32)
  have hlive (sd : Side) : (s.twinBeat r).live sd = s.live sd := State.live_countBeat ..
  have hrest : ((s.twinBeat r).deliver (R1 .XPT_CAP_CFG p) (v &&& 0x1F1F#32)).Shifts [] [.XPT_CAP_STAT] [.regs, .captures] []
      (((s.twinBeat r).deliver (R1 .XPT_CAP_CFG p) (v &&& 0x1F1F#32)).eachSide fun sd s => s.restartTap sd p) :=
    (State.shifts_refl _).eachSide fun sd u h => h.then (u.shifts_restartTap p sd)
  rw [execCaptureEnable_granted hg hh, hrise]
  refine ⟨_, rfl, ?_, fun sd hl => ?_, ?_⟩
  · rw [State.twin, hrest.parts .twins (by decide), State.twins_deliver, if_pos rfl]
  · have hs := State.restarted_eachSide (p := p.val) (((hdel.live_eq (by decide) (by decide) sd).trans (hlive sd)).trans hl)
    have htick : ((s.twinBeat r).deliver (R1 .XPT_CAP_CFG p) (v &&& 0x1F1F#32)).tick = s.tick := hdel.parts .tick (by decide)
    have hring : ((s.twinBeat r).deliver (R1 .XPT_CAP_CFG p) (v &&& 0x1F1F#32)).captures = s.captures := hdel.parts .captures (by decide)
    refine ⟨by rw [hs.ring, htick, hring], hs.done, ?_⟩
    exact hrest.rd_eq.trans (State.rd_deliver_of_live _ _ _ _ ((hlive sd).trans hl))
  · have hbeat : s.Shifts [] [.XPT_CAP_CFG, .XPT_CAP_STAT] [.regs, .twins, .captures, .locks] [] (s.twinBeat r) :=
      s.shifts_refl.update (State.countBeat_regs ..) (s.changesOnly_twinBeat r)
    exact ((hbeat.then hdel).then hrest).touches

/-- Settles O14: the frames of an output, its offsets, the frame at a capture tap, and the write of a tap's ENABLE. -/
theorem outputFramesOffsetsAndCaptures : Obligations.OutputFramesOffsetsAndCaptures := by
  unfold Obligations.OutputFramesOffsetsAndCaptures
  refine ⟨fun d f s hf => execOutputFrameStart_shows hf, fun d v n rest s ho => ⟨execOffsetJump_of_early ho, execOffsetJump_moves ho⟩,
    fun p h e ws rest sd s hr hframe => ?_, fun r p v s hg hh h0 h1 => execCaptureEnable_restarts hg hh h0 h1⟩
  obtain ⟨u, hu, ht⟩ := State.captures_eachRouting (p := p.val) hr
  exact ⟨_, rfl, ht.feed.trans (hu.feeds_captureStep hframe), fun hc => ht.hbm.trans (hu.hbm_captureStep hframe hc),
    fun hc hcap hd => ⟨hu.stores_frame ht hframe hc hcap hd, hu.passes_frame ht hframe hc hcap hd⟩, (s.captures_execCaptureFrame p).touches⟩

end Sys2Proof.Machine
end


section
/-! # Routes after a reset (O4) -/
namespace Sys2Proof.Machine
set_option Elab.async false

/-! ## Steps that leave takes and salvos alone -/

/-- From `s` to `t` no take, commit or salvo has changed; and where `b` holds, no route and no value of a twin register either. -/
structure State.Keeps (b : Bool) (s t : State) : Prop where
  takes : t.takes = s.takes
  commits : t.commits = s.commits
  salvos : t.salvos = s.salvos
  stat : ∀ k, k.name = .XPT_SALVO_STAT → t.rd k = s.rd k
  routes : b = true → t.routes = s.routes
  twins : b = true → t.twins = s.twins

section
variable {b : Bool} {s₀ s t : State}

theorem State.keeps_refl (s : State) : s.Keeps b s := ⟨rfl, rfl, rfl, fun _ _ => rfl, fun _ => rfl, fun _ => rfl⟩

theorem State.Keeps.then (h : s₀.Keeps b s) (h' : s.Keeps b t) : s₀.Keeps b t :=
  ⟨h'.takes.trans h.takes, h'.commits.trans h.commits, h'.salvos.trans h.salvos, fun k hk => (h'.stat k hk).trans (h.stat k hk),
    fun hb => (h'.routes hb).trans (h.routes hb), fun hb => (h'.twins hb).trans (h.twins hb)⟩

theorem State.Keeps.weaken (h : s.Keeps true t) : s.Keeps b t :=
  ⟨h.takes, h.commits, h.salvos, h.stat, fun _ => h.routes rfl, fun _ => h.twins rfl⟩

/-- A step whose frame holds none of them. -/
theorem State.Shifts.keeps {xs : List Side} {ns : List RegName} {ps : List Part} {fs : List Fld} (h : s.Shifts xs ns ps fs t)
    (hn : ns.contains .XPT_SALVO_STAT = false := by rfl)
    (hp : ∀ p ∈ [Part.takes, .commits, .salvos, .routes, .twins], p ∉ ps := by decide) : s.Keeps b t where
  takes := h.parts .takes (hp _ (by decide))
  commits := h.parts .commits (hp _ (by decide))
  salvos := h.parts .salvos (hp _ (by decide))
  stat k hk := h.rd_eq_of_shared (by rw [hk, hn]; rfl)
  routes _ := h.parts .routes (hp _ (by decide))
  twins _ := h.parts .twins (hp _ (by decide))

theorem State.Keeps.wr {k : RegKey} {v : W32} (h : s₀.Keeps b s) (hk : (k.name != .XPT_SALVO_STAT) = true := by rfl) : s₀.Keeps b (s.wr k v) :=
  ⟨h.takes, h.commits, h.salvos, fun x hx => (s.rd_wr_ne (fun e => bne_iff_ne.mp hk ((congrArg RegKey.name e).symm.trans hx)) v).trans (h.stat x hx),
    h.routes, h.twins⟩

theorem State.Keeps.setF {k : RegKey} {f : Fld} {v : Nat} (h : s₀.Keeps b s) (hk : (k.name != .XPT_SALVO_STAT) = true := by rfl) : s₀.Keeps b (s.setF k f v) :=
  h.wr hk

theorem State.Keeps.foldl {α : Type} {f : State → α → State} {l : List α} (h : s₀.Keeps b s) (hf : ∀ s, ∀ x ∈ l, s₀.Keeps b s → s₀.Keeps b (f s x)) :
    s₀.Keeps b (l.foldl f s) := by
  induction l generalizing s with
  | nil => exact h
  | cons x l ih => exact ih (hf _ _ (List.mem_cons_self ..) h) fun s y hy => hf s y (List.mem_cons_of_mem _ hy)

theorem State.Keeps.branch {c : Prop} [Decidable c] {u v : State} (h : s₀.Keeps b s) (hu : s₀.Keeps b s → s₀.Keeps b u)
    (hv : s₀.Keeps b s → s₀.Keeps b v) : s₀.Keeps b (if c then u else v) := by
  split
  · exact hu h
  · exact hv h

theorem State.Keeps.eachSide {f : Side → State → State} (h : s₀.Keeps b s) (hf : ∀ sd s, s₀.Keeps b s → s₀.Keeps b (f sd s)) : s₀.Keeps b (s.eachSide f) :=
  (h.branch (hf _ _) id).branch (hf _ _) id

theorem State.Keeps.setSide {sd : Side} {x : SideSt} (h : s₀.Keeps b s) : s₀.Keeps b (s.setSide sd x) := by
  refine h.then ?_
  cases sd <;> exact ⟨rfl, rfl, rfl, fun _ _ => rfl, fun _ => rfl, fun _ => rfl⟩

/-! ## A Side's reset and the standby class -/

theorem State.keeps_resetSide (s : State) (sd : Side) : s.Keeps b (s.resetSide sd) :=
  State.Shifts.keeps (s.shifts_refl.resetSide : s.Resets (s.resetSide sd))

theorem State.keeps_settleStandby (s : State) (y : Side) : s.Keeps b (s.settleStandby y) := by
  unfold State.settleStandby
  extract_lets x s₁ s₂ s₃ r s₄
  split
  · exact s.keeps_refl
  · split
    · have h₂ : s.Keeps b s₂ := State.Keeps.foldl ⟨rfl, rfl, rfl, fun _ _ => rfl, fun _ => rfl, fun _ => rfl⟩ fun _ _ _ h => h.setF.setF
      clear_value s₂
      have h₃ : s.Keeps b s₃ := h₂.then ⟨rfl, rfl, rfl, fun _ _ => rfl, fun _ => rfl, fun _ => rfl⟩
      clear_value s₃
      exact h₃.setSide.setF.then (State.steps_updateStep _).keeps
    · have hclear : s.Keeps b (s.clearSide y) := State.Shifts.keeps (s.shifts_refl.clearSide : s.Resets (s.clearSide y))
      have h₄ : s.Keeps b s₄ := hclear.then (State.captures_setHbm _ _ _).keeps
      exact h₄.setSide.then (State.steps_updateStep _).keeps
    · exact s.keeps_refl

theorem State.keeps_classUpdate (s : State) : s.Keeps b s.classUpdate := by
  unfold State.classUpdate
  extract_lets new s₁
  have h : s.Shifts [] [.RFE_STATE, .RFE_EVT, .EVT_STATUS] [.regs, .fired] [] s₁ := s.shifts_refl.setState.raise
  have h₁ : s.Keeps b s₁ := h.keeps
  clear_value s₁
  split
  · exact s.keeps_refl
  · split
    · exact h₁
    · next y _ =>
      dsimp only
      split
      · exact h₁.setSide
      · split
        · exact h₁.then (State.Shifts.keeps (s₁.shifts_refl.wakeSide : s₁.Resets (s₁.wakeSide y.other false)))
        · exact h₁.then (State.keeps_settleStandby _ _)

end

end Sys2Proof.Machine
end


section
/-! # Routes after the images' loading and after a reset (O4) -/
namespace Sys2Proof.Machine
set_option Elab.async false

/-! ## The loading of the images -/

section
variable {b : Bool} {s₀ s : State}

theorem State.Keeps.loadAudio {p : AudioPlan} (h : s₀.Keeps b s) : s₀.Keeps b (s.loadAudio p) := by
  have hrx (u : State) (q : Nat × _ × _) : u.Keeps b { u with rxFlows := u.rxFlows.upd q.1 fun x => { x with chans := q.2.1, depth := q.2.2 } } :=
    ⟨rfl, rfl, rfl, fun _ _ => rfl, fun _ => rfl, fun _ => rfl⟩
  have htx (u : State) (x : SMap TxRun) : u.Keeps b { u with txRuns := x } := ⟨rfl, rfl, rfl, fun _ _ => rfl, fun _ => rfl, fun _ => rfl⟩
  unfold State.loadAudio
  extract_lets src dst s₁ s₂
  have h₁ : s₀.Keeps b s₁ := h.then ⟨rfl, rfl, rfl, fun _ _ => rfl, fun _ => rfl, fun _ => rfl⟩
  clear_value s₁
  have h₂ : s₀.Keeps b s₂ := h₁.foldl fun _ _ _ h => h.then (hrx _ _)
  clear_value s₂
  exact h₂.foldl fun _ _ _ h => h.then (htx _ _)

theorem State.Keeps.baseCads (h : s₀.Keeps b s) : s₀.Keeps b s.baseCads := by
  have hc (u : State) (x : SMap Cadence) : u.Keeps b { u with cads := x } := ⟨rfl, rfl, rfl, fun _ _ => rfl, fun _ => rfl, fun _ => rfl⟩
  unfold State.baseCads
  refine h.foldl fun _ _ _ h => ?_
  split
  · exact h.branch id fun h => (h.then (hc _ _)).wr.wr
  · exact h.wr

theorem State.Keeps.bootWrites {l : List (RegKey × W32)} (h : s₀.Keeps b s) (hl : ∀ e ∈ l, bootRegs.contains e.1.name = true) : s₀.Keeps b (s.bootWrites l) :=
  h.foldl fun _ e he h => h.wr (bne_iff_ne.mpr fun hc => absurd (hc ▸ hl e he) (by decide))

/-- What a boot value does once it has been delivered. -/
theorem State.Keeps.audWant {c : Nat} {g : Sig} (h : s₀.Keeps b s) : s₀.Keeps b (s.audWant c g) :=
  h.then ⟨rfl, rfl, rfl, fun _ _ => rfl, fun _ => rfl, fun _ => rfl⟩

theorem State.Keeps.audDelayDelivered {c : Nat} (h : s₀.Keeps b s) : s₀.Keeps b (s.audDelayDelivered c) := by
  have hr (u : State) (sd : Side) : u.Shifts [] [.AUD_DST_EVT, .EVT_STATUS] [.regs, .fired] [] (u.raise (RS .AUD_DST_EVT sd c) F.AUD_DST_EVT_DELAY_CLAMP) :=
    u.shifts_refl.raise
  exact State.Keeps.audWant (h.branch (fun h => h.eachSide fun sd u h => h.then (hr u sd).keeps) id)

theorem State.Keeps.deliver {k : RegKey} {v : W32} (h : s₀.Keeps false s) (hk : (k.name != .XPT_SALVO_STAT) = true) : s₀.Keeps false (s.deliver k v) := by
  unfold State.deliver
  refine State.Keeps.eachSide ?_ fun sd u h => h.wr hk
  exact h.then ⟨rfl, rfl, rfl, fun _ _ => rfl, nofun, nofun⟩

theorem State.Keeps.bootTwinWrites {l : List (RegKey × W32)} (h : s₀.Keeps false s) (hl : ∀ e ∈ l, bootTwins.contains e.1.name = true) :
    s₀.Keeps false (s.bootTwinWrites l) := by
  have ha (u : State) (x : List (RegKey × W32)) : u.Keeps false { u with alyLive := x } := ⟨rfl, rfl, rfl, fun _ _ => rfl, nofun, nofun⟩
  refine h.foldl fun u e he h => ?_
  have hd : s₀.Keeps false (u.deliver e.1 e.2) := h.deliver (bne_iff_ne.mpr fun hc => absurd (hc ▸ hl e he) (by decide))
  exact (hd.branch (·.then (ha _ _)) id).branch (·.audWant) fun h => h.branch (·.audDelayDelivered) id

theorem State.Keeps.bootFlows (h : s₀.Keeps b s) : s₀.Keeps b s.bootFlows := by
  have ht (u : State) (x : SMap TxRun) : u.Keeps b { u with txRuns := x } := ⟨rfl, rfl, rfl, fun _ _ => rfl, fun _ => rfl, fun _ => rfl⟩
  have hr {u : State} {t : Nat} {k : Bank} (h : s₀.Keeps b u) : s₀.Keeps b (u.startRun t k) :=
    h.branch id fun h => h.branch (·.then (ht _ _)) fun h => h.branch id (·.then (ht _ _))
  exact h.foldl fun _ _ _ h => (h.branch hr id).branch hr id

theorem State.Keeps.newRecord (h : s₀.Keeps b s) : s₀.Keeps b s.newRecord := by
  have hf : s₀.Keeps b s.fresh.2 := h.then ⟨rfl, rfl, rfl, fun _ _ => rfl, fun _ => rfl, fun _ => rfl⟩
  exact hf.foldl fun _ _ _ h => h.wr

theorem State.Keeps.startWake {n : Nat} (h : s₀.Keeps b s) : s₀.Keeps b (s.startWake n) := by
  have hl (u : State) (x : LaneSt) : u.Keeps b (u.setLane n x) := ⟨rfl, rfl, rfl, fun _ _ => rfl, fun _ => rfl, fun _ => rfl⟩
  exact h.branch id fun h => h.setF.then (hl _ _)

theorem State.Keeps.laneBoot {n : Nat} (h : s₀.Keeps b s) : s₀.Keeps b (s.laneBoot n) := h.branch id fun h => h.setF.setF.setF.startWake

theorem State.Keeps.vectors (h : s₀.Keeps b s) : s₀.Keeps b s.vectors := by
  have hv (u : State) (x y : List Nat) : u.Keeps b { u with vecHigh := x, msixPend := y } := ⟨rfl, rfl, rfl, fun _ _ => rfl, fun _ => rfl, fun _ => rfl⟩
  have he (u : State) (x : Emit) : u.Keeps b (u.emit x) := ⟨rfl, rfl, rfl, fun _ _ => rfl, fun _ => rfl, fun _ => rfl⟩
  have hr {u : State} {p v : Nat} (h : s₀.Keeps b u) : s₀.Keeps b (u.vectorRise p v) :=
    (h.then (hv u (u.vecHigh ++ [64 * p + v]) u.msixPend)).branch (fun h => h.branch id (·.then (hv _ _ _))) (·.then (he _ _))
  exact (h.then (hv s _ _)).foldl fun _ _ _ h => h.branch hr id

theorem State.keeps_bootRoutes (s : State) : s.Keeps false s.bootRoutes := ⟨rfl, rfl, rfl, fun _ _ => rfl, nofun, nofun⟩

/-- The loading of a structure up to the routes, and what follows it. -/
theorem State.keeps_loadStructure (s : State) (p : Structure_) : ∃ u : State, s.Keeps false u ∧ u.bootRoutes.Keeps true (s.loadStructure p) := by
  unfold State.loadStructure
  extract_lets s₁ s₂ s₃ s₄ s₅ s₆ s₇ s₈ s₉ a s₁₀ b
  have h₁ : s.Keeps false s₁ := ⟨rfl, rfl, rfl, fun _ _ => rfl, nofun, nofun⟩
  clear_value s₁
  have ha : s₁.Keeps false (s₁.loadAlloy p.alloy) := ⟨rfl, rfl, rfl, fun _ _ => rfl, nofun, nofun⟩
  have h₃ : s.Keeps false s₃ := State.Keeps.bootWrites (h₁.then ha).loadAudio.baseCads fun e he => (List.mem_filter.mp he).2
  clear_value s₃ s₂
  refine ⟨s₃.bootTwinWrites (p.regs.filter fun e => bootTwins.contains e.1.name), h₃.bootTwinWrites fun e he => (List.mem_filter.mp he).2, ?_⟩
  have h₄ : (s₃.bootTwinWrites (p.regs.filter fun e => bootTwins.contains e.1.name)).bootRoutes.Keeps true s₄ := (State.keeps_refl _).bootFlows
  clear_value s₄
  generalize (s₃.bootTwinWrites (p.regs.filter fun e => bootTwins.contains e.1.name)).bootRoutes = u at h₄ ⊢
  have h₇ : u.Keeps true s₇ := State.Keeps.newRecord (h₄.wr.wr.foldl fun _ _ _ h => h.wr)
  clear_value s₇ s₆ s₅
  have h₉ : u.Keeps true s₉ := (h₇.foldl fun _ _ _ h => h.setF : u.Keeps true s₈).foldl fun _ _ _ h => h.laneBoot
  clear_value s₉ s₈ a
  have h₁₀ : u.Keeps true s₁₀ := h₉.setSide
  clear_value s₁₀ b
  exact (h₁₀.setSide.then (State.keeps_classUpdate _)).vectors

end

/-! ## Routes at their fallback -/

/-- What a map made of a list of numbers holds. -/
theorem SMap.at_smapOf {α : Type} [Inhabited α] [DecidableEq α] (l : List Nat) (g : Nat → α) (d : Nat) :
    (smapOf (l.map fun x => (x, g x))).at d = if d ∈ l then g d else default := by
  have key (m : SMap α) : ((l.map fun x => (x, g x)).foldl (fun m p => SMap.set m p.1 p.2) m).at d = if d ∈ l then g d else m.at d := by
    induction l generalizing m with
    | nil => simp
    | cons x l ih =>
      rw [List.map_cons, List.foldl_cons, ih]
      by_cases hx : d = x
      · subst hx
        simp
      · simp [hx]
  exact key []

/-- The FALLBACK of an output that no value has been delivered for. -/
theorem State.fallbackOf_of_unset {s : State} {d : Nat} (h : ∀ e ∈ s.twins, e.1 ≠ R1 .XPT_OUT_CFG d) : s.fallbackOf d = 1056 := by
  unfold State.fallbackOf
  rw [State.twin, Sparse.get_of_not_mem _ _ _ h]
  have hr : (R1 .XPT_OUT_CFG d).reset = 0 := by simp [RegKey.reset, RegName.row, w32]
  rw [hr]
  split <;> rfl

theorem State.fallbackOf_of_twins {s t : State} (h : t.twins = s.twins) (d : Nat) : t.fallbackOf d = s.fallbackOf d := by
  simp only [State.fallbackOf, State.twin, h]

theorem State.src_bootRoutes (s : State) (d : Nat) : (s.bootRoutes.routes.at d).src = if d < 1024 then s.fallbackOf d else 1056 := by
  have h := SMap.at_smapOf ((s.twins.filter fun e => decide (e.1.name = .XPT_OUT_CFG) && decide (e.1.i < 1024)).map fun e => e.1.i)
    (fun d => ({ src := s.fallbackOf d, prev := s.fallbackOf d } : Route)) d
  have e : s.bootRoutes.routes.at d = _ := h
  rw [e]
  split
  · next hm =>
    obtain ⟨k, hk, rfl⟩ := List.mem_map.mp hm
    have := List.of_mem_filter hk
    simp only [Bool.and_eq_true, decide_eq_true_eq] at this
    rw [if_pos this.2]
  · next hm =>
    split
    · next hd =>
      refine (State.fallbackOf_of_unset fun k hk hc => hm (List.mem_map.mpr ⟨k, List.mem_filter.mpr ⟨hk, ?_⟩, by rw [hc]⟩)).symm
      simp [hc, hd]
    · rfl

/-! ## The obligation -/

theorem State.rd_fullReset (s : State) (n : Nat) {k : RegKey} (hk : k ≠ R0 .SYS_RESET_CAUSE) : (s.fullReset n).rd k = k.reset :=
  State.rd_setF_ne _ hk _ _

/-- A full reset leaves every route at its fallback, no take and no commit, and every salvo empty. -/
theorem State.fullReset_crosspoint (s : State) (n : Nat) :
    (∀ d, ((s.fullReset n).routes.at d).src = if d < 1024 then (s.fullReset n).fallbackOf d else 1056) ∧ (s.fullReset n).takes = [] ∧
      (s.fullReset n).commits = [] ∧ (s.fullReset n).salvosPending = [] ∧
      ∀ m, (s.fullReset n).salvos.at m = [] ∧ (s.fullReset n).fld (R1 .XPT_SALVO_STAT m) F.XPT_SALVO_STAT_OWNER = 0 := by
  have hr (m : Nat) : (s.fullReset n).rd (R1 .XPT_SALVO_STAT m) = 0 := s.rd_fullReset n (by simp)
  refine ⟨fun d => ?_, rfl, rfl, ?_, fun m => ⟨rfl, ?_⟩⟩
  · have ht : (s.fullReset n).twins = [] := rfl
    rw [State.fallbackOf_of_unset fun e he => absurd (ht ▸ he) List.not_mem_nil, ite_self]
    rfl
  · refine List.filter_eq_nil_iff.mpr fun m _ => ?_
    simp only [State.fld, hr]
    decide
  · rw [State.fld, hr]
    rfl

theorem exec_of_isFullReset {c : Instr} (hc : isFullReset c = true) (s : State) : ∃ n, exec c s = .next (s.fullReset n) := by
  unfold isFullReset at hc
  split at hc
  · have e : exec .aoDip s = execAoDip s := rfl
    exact ⟨2, e⟩
  · have e : exec .aoResetAssert s = execAoResetAssert s := rfl
    exact ⟨1, e⟩
  · exact absurd hc Bool.false_ne_true

section
variable {x : Structure_} {s : State}

theorem State.keeps_fwHash {b : Bool} (s : State) (v : SMap (List W32)) : s.Keeps b { s with fwHash := v } :=
  ⟨rfl, rfl, rfl, fun _ _ => rfl, fun _ => rfl, fun _ => rfl⟩

/-- What the loading of a structure keeps, and the routes it leaves. -/
theorem State.loadStructure_crosspoint (s : State) (x : Structure_) :
    s.Keeps false (s.loadStructure x) ∧ ∀ d, ((s.loadStructure x).routes.at d).src = if d < 1024 then (s.loadStructure x).fallbackOf d else 1056 := by
  obtain ⟨u, hu, ht⟩ := s.keeps_loadStructure x
  generalize s.loadStructure x = t at ht ⊢
  refine ⟨(hu.then u.keeps_bootRoutes).then ht.weaken, fun d => ?_⟩
  rw [ht.routes rfl, State.src_bootRoutes, State.fallbackOf_of_twins (ht.twins rfl),
    State.fallbackOf_of_twins (s := u) (t := u.bootRoutes) rfl]

variable (h0 : s.aoReset = false) (h1 : s.otpOk = true) (h2 : s.loaded = false) (h3 : s.fld (R0 .UMW_STAT) F.UMW_STAT_STATE ≠ 2)
include h0 h1 h2 h3

/-- The loading of images that may be loaded. -/
theorem exec_bootImagesLoaded_of_open : exec (.bootImagesLoaded (some x)) s =
    if s.baseLawful x then .next (State.loadStructure { s with fwHash := s.fwHash.set 2 s.ucodeHash } x) else .next (s.setF (R0 .UMW_STAT) F.UMW_STAT_STATE 2) := by
  have e : exec (.bootImagesLoaded (some x)) s = execBootImagesLoaded (some x) s := rfl
  rw [e, execBootImagesLoaded, if_neg (by simp [h0, h1, h2, h3])]

/-- The loading of images keeps takes, commits and salvos; it moves the routes to their fallback if the structure is lawful, else not at all. -/
theorem bootImagesLoaded_crosspoint : ∃ t, exec (.bootImagesLoaded (some x)) s = .next t ∧ s.Keeps false t ∧
    ∀ d, (t.routes.at d).src = if s.baseLawful x then (if d < 1024 then t.fallbackOf d else 1056) else (s.routes.at d).src := by
  have hx := exec_bootImagesLoaded_of_open (x := x) h0 h1 h2 h3
  by_cases hl : s.baseLawful x = true
  · rw [if_pos hl] at hx
    obtain ⟨hk, hr⟩ := State.loadStructure_crosspoint { s with fwHash := s.fwHash.set 2 s.ucodeHash } x
    exact ⟨_, hx, (s.keeps_fwHash _).then hk, fun d => (hr d).trans (if_pos hl).symm⟩
  · rw [if_neg hl] at hx
    have hk : s.Keeps true (s.setF (R0 .UMW_STAT) F.UMW_STAT_STATE 2) := s.keeps_refl.setF
    exact ⟨_, hx, hk.weaken, fun d => by rw [hk.routes rfl, if_neg hl]⟩

end

/-- Settles O4: the full reset's values, what the loading of the images keeps, and the frame of a Side's reset. -/
theorem routesStartAtTheirFallback : Obligations.RoutesStartAtTheirFallback := by
  unfold Obligations.RoutesStartAtTheirFallback
  refine ⟨fun c s hc => ?_, fun x s h0 h1 h2 h3 => ?_, fun sd s => ?_⟩
  · obtain ⟨n, hx⟩ := exec_of_isFullReset hc s
    exact ⟨_, hx, s.fullReset_crosspoint n⟩
  · obtain ⟨t, hx, h, hr⟩ := bootImagesLoaded_crosspoint (x := x) h0 h1 h2 h3
    exact ⟨t, hx, h.takes, h.commits, h.salvos, fun k hk => h.stat k (not_not.mp hk), hr⟩
  · have h : s.Keeps true (s.resetSide sd) := s.keeps_resetSide sd
    exact ⟨h.routes rfl, h.takes, h.commits, h.salvos, fun k hk => h.stat k (not_not.mp hk)⟩

end Sys2Proof.Machine
end
